-- ==== Sys2Proof/Word.lean ====
section
/-! DEFINITION. The word types of the model: bytes, 16-bit, 24-bit and 32-bit words that the spec numbers
bit by bit, and the number of frames, samples and units that the headline figures fix (R2). -/

namespace Sys2Proof

/-- One byte on a wire or in a store. -/
abbrev Byte := BitVec 8

/-- A byte string in wire order. -/
abbrev Bytes := List Byte

/-- A frame number FN or a TIME48 (R5, R6). -/
abbrev Frame := Nat

/-- 0xFFFF_FFFF_FFFF: a TIME48 that is none or INVALID (R240). -/
def noTime : Nat := 0xFFFFFFFFFFFF

/-- 2^48, the modulus of FN, TIME48 and the energy registers. -/
def two48 : Nat := 2 ^ 48

/-- 1.0 in Q1.47. -/
def one47 : Int := 2 ^ 47

end Sys2Proof
end

