-- ==== Sys2Proof/Syntax.lean ====
section
/-! DEFINITION. The commands of the block: one constructor of `Instr` per row of spec/opcode_table.json, with the
operands that the row's rule gives it, and the types of those operands.  The table gives no row any bits, so the
operands are structured data: what the pins, the converters, the other end of a port or a store hand to the device
at that step.  An operation of a request names the tag slot whose request holds it. -/

namespace Sys2Proof

/-- The ports that hold tag slots and shares of RING-12 (R16, R24). -/
inductive Port where
  | spi | t1s | plc | internal
  deriving DecidableEq, Repr

/-- What the converter of one lane yields in one sample period (R47): the codes of its 128 slots, the parity error
of each, whether the reference monitor flagged the period (R221), and the common-mode reading in mV when the
open-input test runs (R224). -/
structure LaneConv where
  codes  : List Int
  parity : List Bool
  refBad : Bool
  cmMv   : Option Int
  deriving DecidableEq, Repr

/-- What one decimator emits at the start of a sample period (R43, R44): the value in Q1.47 before the clamp of R45,
and whether a decimator parity error or a modulator reset disturbed it (R221). -/
structure VoltConv where
  value    : Int
  affected : Bool
  deriving DecidableEq, Repr

/-- An input with a harmonic window (R144). -/
inductive Input where
  | cur (n : Fin 256)
  | volt (v : Fin 12)
  deriving DecidableEq, Repr

/-- A datagram on the 10BASE-T1S segment, as far as R289 looks at it. -/
structure Datagram where
  ipv6      : Bool      -- false: IPv4
  udp       : Bool      -- false: TCP or another protocol
  fragment  : Bool
  extension : Bool
  multicast : Bool      -- destination is a multicast address
  dst       : Nat       -- IPv6 destination address
  dstPort   : Nat
  src       : Nat       -- IPv6 source address, its first byte the lowest, as OCTETS objects are numbered
  srcPort   : Nat
  payload   : Bytes
  deriving DecidableEq, Repr

/-- A network announcement (Table 11.5) with the receiver's stamp `a` and the time `q` from the PDC (R308), in taps. -/
structure Announcement where
  secured  : Bool       -- MAC security of the PAN (R306)
  sender   : Nat        -- short address of the sender
  lqi      : Nat        -- LQI measured on the frame (R315)
  depth    : Nat
  wallOk   : Bool
  cycle    : Nat
  delta    : Int
  wall     : Nat
  leader   : Nat        -- LEADER_ID
  seq      : Nat
  a        : Int
  q        : Int
  deriving DecidableEq, Repr

/-- What a MAC frame handed over by the modem is, as the G.9903 stack classifies it (R297, Table 11.1). -/
inductive PlcKind where
  | unimplemented                                   -- needs a part Ozmar does not implement
  | foreignBeacon                                   -- beacon of a foreign PAN (R319)
  | beaconRequest                                   -- a device near by scans
  | panIdConflict (pan : Nat)                       -- R319
  | datagram (d : Datagram)                         -- a datagram for this unit or a group (R321, R289)
  | fragment (d : Datagram) (tag size off : Nat)    -- a 6LoWPAN fragment of a datagram: its headers, and its piece as payload (R321)
  | broadcast (orig seq hops : Nat)                 -- a 6LoWPAN broadcast of another device, with the hops left to it (Table 11.1)
  | echo (src : Nat)                                -- ICMPv6 echo request
  | toneMapRequest
  | toneMapResponse (lqiFwd : Nat)                  -- R315
  | txGain (db : Int)                               -- transmit-gain request (R303)
  | routeRequest (orig dest cost hops : Nat) (unicast : Bool)     -- R317; none that the stack has taken before
  | routeReply (orig dest cost hops : Nat)          -- R315
  | routeError (dest : Nat)                         -- R316
  | routePath (dest : Nat)                          -- path discovery, answered
  | forward (orig dest hops : Nat)                  -- data to be forwarded, with the hops left to it
  | lbpUp (eui : Nat)                               -- an LBP message of a device that joins through Ozmar (Table 11.1)
  | lbpDown (eui : Nat)                             -- an LBP message for such a device
  | kicked (cause : Nat)                            -- removed by the coordinator (2) or key refused (3)
  | other                                           -- any other implemented frame
  deriving DecidableEq, Repr

/-- A MAC frame from the modem: its sender, the LQI measured, the stamp and the PDC time in taps (R308, R309), and whether the MAC
security of the PAN holds for it (Table 11.1). -/
structure PlcFrame where
  sender : Nat
  lqi    : Nat
  a      : Int
  q      : Int
  secured : Bool
  kind   : PlcKind
  deriving DecidableEq, Repr

/-- A beacon heard in a scan: its PAN, the LBA that sent it, and the route cost from there to the coordinator (R299). -/
structure Beacon where
  pan  : Nat
  lba  : Nat
  cost : Nat
  deriving DecidableEq, Repr

/-- How a step of joining ends (R299): the scan, then the bootstrap by LBP. -/
inductive JoinResult where
  | noPan                                           -- no beacon heard
  | beacons (found : List Beacon)                   -- the scan ends
  | failed                                          -- bootstrap failed
  | joined (short : Nat)                            -- bootstrap done: the short address
  deriving DecidableEq, Repr

/-- What a Gecko scan measures (R70, R404, R405): what the converters of the 32 lanes yield in each of the 256 passes of its 16
frames, as far as the table goes; the inputs whose comparator saw a voltage; VBAT under load. -/
structure GeckoData where
  passes  : List (List LaneConv)
  present : List Nat
  vbatMv  : Nat
  deriving DecidableEq, Repr

/-- What power good finds (R393, R394, R402, R387, R326–R330): VHOLD below 9.0 V, the RECOVER strap, the OTP slots
whose install was cut (R366), and the seals found torn by a brown-out of a page frame. -/
structure PowerGood where
  vholdLow  : Bool
  recover   : Bool
  badFrames : List Nat
  keysCut   : List (Fin 4 × BitVec 256)   -- EMPTY owner slots with the hash bits that a cut install has left (R366)
  deriving DecidableEq, Repr

/-- One command of the block.  The comment before each constructor is its row's rule. -/
inductive Instr where
  /-- R11 -/ | frameTick (calEn : Bool)
  /-- R94 -/ | calStateChange
  /-- R10 -/ | samplePeriod (lanes : List LaneConv) (volts : List VoltConv)
  /-- R59 -/ | rangeCrossingTimeout (ch : Fin 256)
  /-- R74 -/ | alignerSample
  /-- R67 -/ | laneTakeover (lane : Fin 32)
  /-- R111 -/ | tanneryFrameCompute (cyc0 cyc1 : Nat)
  /-- R110 -/ | halfCycleTimeout (v : Fin 12)
  /-- R145 -/ | harmonicWindowClose (inp : Input)
  /-- R142 -/ | freq10sIntervalEnd
  /-- R115 -/ | hallmarkAccrue (cyc : Nat)
  /-- R118 -/ | directionChange (c : Fin 256)
  /-- R132 -/ | balanceRate
  /-- R384 -/ | healthCheckPass
  /-- R23 -/ | publisherSeal
  /-- R15 -/ | ringCreditAvailable (ring : Fin 16) (port : Port)
  /-- R35 -/ | commitTakesEffect
  /-- R32 -/ | pinExpiry (txn : Nat)
  /-- R255 -/ | txnTimeout (txn : Nat)
  /-- R266 -/ | requestParse (port : Port)
  /-- R268 -/ | requestStartDeferred (slot : Fin 48)
  /-- R271 -/ | continuationTimeout (slot : Fin 48)
  /-- R275 -/ | responseEnqueue (port : Port)
  /-- R247 -/ | read (slot : Fin 48)
  /-- R31 -/ | readSet (slot : Fin 48)
  /-- R199 -/ | readSigned (slot : Fin 48)
  /-- R248 -/ | write (slot : Fin 48)
  /-- R250 -/ | begin_ (slot : Fin 48)
  /-- R253 -/ | commit (slot : Fin 48)
  /-- R255 -/ | rollback (slot : Fin 48)
  /-- R257 -/ | subscribe (slot : Fin 48)
  /-- R256 -/ | unsubscribe (slot : Fin 48)
  /-- R291 -/ | helloStep1 (port : Port)
  /-- R292 -/ | helloStep2 (port : Port)
  /-- R291 -/ | handshakeExpiry (i : Fin 8)
  /-- R293 -/ | sessionTimeout (k : Fin 16)
  /-- R267 -/ | unknownOpcode (slot : Fin 48)
  /-- R261 -/ | timeSet (slot : Fin 48)
  /-- R187 -/ | clockStepApply
  /-- R157 -/ | captureNow (slot : Fin 48)
  /-- R158 -/ | captureComplete
  /-- R157 -/ | captureHoldoffExpiry
  /-- R184 -/ | closeNow (slot : Fin 48)
  /-- R190 -/ | boundaryFrame
  /-- R353 -/ | profileIntervalEnd
  /-- R191 -/ | forcedRollComplete
  /-- R197 -/ | staleEnter
  /-- R196 -/ | wiringCheck
  /-- R196 -/ | hostTokenWrite (slot : Fin 48)
  /-- R198 -/ | resume (slot : Fin 48)
  /-- R234 -/ | reinstate (slot : Fin 48)
  /-- R209 -/ | pulseStart (i : Fin 8)
  /-- R209 -/ | pulseEnd (i : Fin 8)
  /-- R226 -/ | channelCheck (ch : Fin 256)
  /-- R226 -/ | channelExtraCheck (ch : Fin 256) (cmMv : Int)
  /-- R227 -/ | voltageCheck (v : Fin 12) (cmMv : Int)
  /-- R227 -/ | modulatorInstability (v : Fin 12)
  /-- R233 -/ | portWatchdog (port : Port) (selfTest : Bool)
  /-- R232 -/ | routeRetire (j : Fin 64)
  /-- R278 -/ | spiPut (bytes : Bytes)
  /-- R279 -/ | spiTake (clocked : Nat)
  /-- R280 -/ | spiStatus
  /-- R281 -/ | spiClear (mask : BitVec 16)
  /-- R277 -/ | spiReservedCommand (cmd : Byte)
  /-- R276 -/ | csCollision
  /-- R286 -/ | legacyRead (addr : BitVec 11) (count : Fin 16)
  /-- R287 -/ | legacyWriteEvents (w : BitVec 24)
  /-- R287 -/ | legacyWriteEventMask (w : BitVec 24)
  /-- R287 -/ | legacyWriteIgnored (addr : BitVec 11) (w : BitVec 24)
  /-- R289 -/ | t1sDatagramReceive (d : Datagram)
  /-- R289 -/ | neighbourSolicitation (target src mac : Nat)
  /-- R289 -/ | echoRequest (src : Nat)
  /-- R289 -/ | duplicateAddressDetection (unicast duplicate : Bool)
  /-- R295 -/ | bridleNetworkFrame (port : Port)
  /-- R290 -/ | t1sPowerDown
  /-- R293 -/ | endSession (slot : Fin 48)
  /-- R297 -/ | plcFrameReceive (f : PlcFrame)
  /-- R299 -/ | plcJoin (r : JoinResult)
  /-- R299 -/ | joinRetry
  /-- R316 -/ | plcTxComplete (acked : Bool) (retries : Fin 6)
  /-- R316 -/ | routeWaitExpiry
  /-- R300 -/ | toneMapRefresh (j : Fin 64)
  /-- R307 -/ | announceSend
  /-- R307 -/ | announceAbandon
  /-- R309 -/ | announcementReceive (a : Announcement)
  /-- R305 -/ | tbHoldoverExpiry
  /-- R314 -/ | cycleMap (slot : Fin 48)
  /-- R317 -/ | repeaterOfferChange
  /-- R317 -/ | routeHoldExpiry
  /-- R318 -/ | strangerBlock (mv : Nat)
  /-- R318 -/ | strangerForced
  /-- R326 -/ | pageStoreComplete (verified : Bool)
  /-- R335 -/ | rollPosition
  /-- R91 -/ | bgStore
  /-- R231 -/ | tackroomOpComplete (verified : Bool)
  /-- R354 -/ | eventLogWrite
  /-- R350 -/ | scrub (weakFrames weakSectors : List Nat)
  /-- R357 -/ | backup
  /-- R357 -/ | backupNow (slot : Fin 48)
  /-- R334 -/ | pageRead (slot : Fin 48)
  /-- R334 -/ | pageWrite (slot : Fin 48)
  /-- R358 -/ | restore (slot : Fin 48)
  /-- R347 -/ | twinWrite (slot : Fin 48)
  /-- R349 -/ | resolve (slot : Fin 48)
  /-- R341 -/ | hjWrite (slot : Fin 48)
  /-- R341 -/ | hjRead (slot : Fin 48)
  /-- R352 -/ | tkRead (slot : Fin 48)
  /-- R354 -/ | eventRead (slot : Fin 48)
  /-- R365 -/ | keyCommand (slot : Fin 48)
  /-- R375 -/ | updateOpen (slot : Fin 48)
  /-- R377 -/ | writeBlock (slot : Fin 48)
  /-- R378 -/ | verify (slot : Fin 48)
  /-- R380 -/ | activate (slot : Fin 48)
  /-- R379 -/ | abort (slot : Fin 48)
  /-- R379 -/ | leaseExpiry
  /-- R381 -/ | handoverPrepared (ok : Bool)
  /-- R381 -/ | handoverQuiesce
  /-- R381 -/ | handoverAtB
  /-- R381 -/ | handoverBankSwitch
  /-- R385 -/ | imageRevert
  /-- R408 -/ | operationalCoreReady
  /-- R408 -/ | powerGood (p : PowerGood)
  /-- R394 -/ | holdOk (chargeUs : Nat)
  /-- R394 -/ | holdFault (mv : Nat)
  /-- R193 -/ | billingResume
  /-- R409 -/ | warmReset (watchdog : Bool) (recover : Bool)
  /-- R398 -/ | powerFailWarning (us : Nat) (vld vdd33 : Bool)
  /-- R400 -/ | lastGaspComplete (fittedPages : Nat) (powerGood : Bool)
  /-- R397 -/ | vbatMeasure (vdd33 vld vhold vbat : Nat)
  /-- R402 -/ | vbatCollapse
  /-- R403 -/ | tamperSample (cover mag : Bool)
  /-- R404 -/ | geckoScan (d : GeckoData)
  /-- R407 -/ | geckoLimitExpiry
  /-- R401 -/ | rtcCountAdvance
  /-- R424 -/ | pfwNRelease
  deriving DecidableEq, Repr

end Sys2Proof
end

