-- ==== Sys2Proof/Decode.lean ====
section
/-! DEFINITION. The decoder that the host's interface asks for.  spec/opcode_table.json gives no row any bits: the block takes
commands, not words, so no word spells one. -/

namespace Sys2Proof

/-- The command that a word of the table spells: none, since no row has bits. -/
def decodeTableWord (_nbits _w : Nat) : Option Instr := none

end Sys2Proof
end

