-- ==== Sys2Proof/Config.lean ====
section
/-! DEFINITION. What the spec leaves open, as constants without a body: nothing in Lean can evaluate them, so every
claim holds whatever their values are.  Each is named in a log entry of notes/assumptions.  ML-DSA-44, which the spec calls by name,
is here too. -/

namespace Sys2Proof.Config

/-- Values set at test or fixed per die (Table 9.11, Table 10.13, Table 11.8, Table 13.11, Table 13.12), by object key.
(DESIGN CHOICE, log 7) -/
opaque setAtTest : Nat → Nat

/-- The stream of free values: bits from the TRNG (R291) and other values the spec does not state, one per draw. (DESIGN CHOICE, log 5) -/
opaque freeValue : Nat → Nat

/-- The last bit of a result whose rounding the spec does not state (R145, R147, R149, R150, R405): whether the exact
quotient `num / den` is rounded up. (DESIGN CHOICE, log 6) -/
opaque roundsUp : (num den : Int) → Bool

/-- Values of an operation on the operands for which the spec states no result, by name of the operation. (DESIGN CHOICE, log 8) -/
opaque openResult : (tag : Nat) → (operands : List Int) → Int

/-- The factory trim that turns a TEMP result into a die temperature, in Q7.8 (R88). (DESIGN CHOICE, log 12) -/
opaque dieTemp : (lane gain : Nat) → (mean : Int) → Int

/-- Which page of its area holds an object: the arrangement within an area is Ozmar's own (R333). (DESIGN CHOICE, log 10) -/
opaque pageWithin : (key : Nat) → Nat

/-- The bytes of a page whose arrangement is Ozmar's own (R333, R334), by page and state of its objects. (DESIGN CHOICE, log 10) -/
opaque pageImage : (page : Nat) → (values : List (Nat × Nat)) → List (BitVec 8)

/-- The bytes of a page of Gecko's event entries: code, fields, RTC_FN and RTC_TIME of each (R333, R406). (DESIGN CHOICE, log 10) -/
opaque eventPage : (entries : List (Nat × List Nat × Nat × Nat)) → List (BitVec 8)

/-- The value an object takes from a page that a raw write has set (R333, R334). (DESIGN CHOICE, log 10) -/
opaque pageObject : (page : Nat) → (bytes : List (BitVec 8)) → (key : Nat) → Nat

/-- The bytes that a field of an event takes in its payload: the widths are not stated (R354). (DESIGN CHOICE, log 11) -/
opaque eventWidth : (code field : Nat) → Nat

/-- VERSION of a backup's headers (R357). (DESIGN CHOICE, log 11) -/
opaque backupVersion : Nat

/-- The bytes that a field of a backup's header takes where no width is stated (R357): 0 VERSION, 1 SECTOR, 2 STORE_COUNT.
(DESIGN CHOICE, log 11) -/
opaque backupWidth : (field : Nat) → Nat

/-- How a backup's header packs the status of the pages held (R357). (DESIGN CHOICE, log 11) -/
opaque packedStatus : (status : List Nat) → List (BitVec 8)

/-- The ML-DSA-44 signature by the device identity key (FIPS 204). (DESIGN CHOICE, log 9) -/
opaque identitySign : (digest : List (BitVec 8)) → List (BitVec 8)

/-- ML-DSA-44 verification (FIPS 204): public key, digest, signature. (DESIGN CHOICE, log 9) -/
opaque mldsaVerify : (key digest sig : List (BitVec 8)) → Bool

/-- The PDC count that G.9903 defines for a time in taps since the last positive crossing (R307). (DESIGN CHOICE, log 12) -/
opaque pdcOfTaps : Nat → Nat

/-- The frames between a hold-up window and a store that cut it (R330): rows written before the warning. (DESIGN CHOICE, log 12) -/
opaque rowsWritten : (fn us : Nat) → Nat

end Sys2Proof.Config
end

