-- ==== Sys2Proof/Machine/Arith.lean ====
section
/-! DEFINITION. Arithmetic the rules share: rounding half away from zero, saturation, two's complement, integer square
roots, fixed-point trigonometry, byte order (R4), and the CRCs of R278 and Table 12.14. -/

namespace Sys2Proof.Machine

/-- `n / d` rounded half away from zero, for `d > 0` (R49, R50, R85). -/
def rdiv (n d : Int) : Int :=
  if 0 ≤ n then (2 * n + d) / (2 * d) else -((2 * (-n) + d) / (2 * d))

/-- `n / 2^k` rounded half away from zero. -/
def rshift (n : Int) (k : Nat) : Int := rdiv n (2 ^ k)

/-- `n / d` where the spec states no rounding: the floor, or one above it when `Config.roundsUp` says so. (DESIGN CHOICE, log 6) -/
def odiv (n d : Int) : Int :=
  if n % d = 0 then n / d else if Config.roundsUp n d then n / d + 1 else n / d

/-- Arithmetic shift right (R86, R107). -/
def asr (n : Int) (k : Nat) : Int := n / (2 ^ k : Int)

/-- `x` held between `lo` and `hi`. -/
def clampI (lo hi x : Int) : Int := if x < lo then lo else if hi < x then hi else x

/-- Saturation to Q1.47 (R45, R82, R85). -/
def sat47 (x : Int) : Int := clampI (-(2 ^ 47)) (2 ^ 47 - 1) x

/-- `x` lies beyond the Q1.47 range (R82, R85). -/
def beyond47 (x : Int) : Bool := decide (x < -(2 ^ 47)) || decide (2 ^ 47 - 1 < x)

/-- The two's complement of `x` in `w` bits, as a raw value (R240). -/
def ofInt (w : Nat) (x : Int) : Nat := (x % (2 ^ w : Int)).toNat

/-- The signed value of a raw `w`-bit two's complement (R240). -/
def toInt (w : Nat) (n : Nat) : Int :=
  let m := n % 2 ^ w
  if m < 2 ^ (w - 1) then (m : Int) else (m : Int) - (2 ^ w : Int)

/-- Bit `b` of a raw value. -/
def bit (n b : Nat) : Bool := n / 2 ^ b % 2 == 1

/-- The field hi:lo of a raw value. -/
def field (n hi lo : Nat) : Nat := n / 2 ^ lo % 2 ^ (hi + 1 - lo)

/-- `n` with bit `b` set. -/
def setBit (n b : Nat) : Nat := if bit n b then n else n + 2 ^ b

/-- `n` with bit `b` cleared. -/
def clearBit (n b : Nat) : Nat := if bit n b then n - 2 ^ b else n

/-- `n` with bit `b` set to `v`. -/
def putBit (n b : Nat) (v : Bool) : Nat := if v then setBit n b else clearBit n b

/-- A Bool as 0 or 1. -/
def b2n (b : Bool) : Nat := if b then 1 else 0

/-- The magnitude of an Int. -/
def mag (x : Int) : Int := if x < 0 then -x else x

/-- One step of the binary integer square root: `r` is the root so far, `b` the next bit. -/
def isqrtGo : Nat → Nat → Nat → Nat
  | 0, _, r => r
  | b + 1, n, r => let r' := r + 2 ^ b; if r' * r' ≤ n then isqrtGo b n r' else isqrtGo b n r

/-- The integer square root, for radicands below 2^512. -/
def isqrt (n : Nat) : Nat := isqrtGo 256 n 0

/-- sqrt(n / d) rounded half away from zero, exactly: the root of 4n/d is compared with the odd numbers (R109). (DESIGN CHOICE, log 6) -/
def rsqrt (n d : Nat) : Nat := (isqrt (4 * n / d) + 1) / 2

/-- sqrt(n / d) where the spec states no rounding: the integer part, or one above it when `Config.roundsUp` says so.
(DESIGN CHOICE, log 6) -/
def osqrt (n d : Nat) : Nat :=
  let r := isqrt (n / d)
  if r * r * d = n then r else if Config.roundsUp n d then r + 1 else r

/-- Fixed-point unit of the trigonometric series, 2^96. -/
def fx : Int := 2 ^ 96

/-- pi in units of 2^-96, truncated. -/
def piFx : Int := 248902613312231085230521944622

/-- One term after another of the sine or cosine series: `t` is the current term, `k` its order. -/
def trigGo : Nat → Int → Int → Nat → Int → Int
  | 0, _, _, _, acc => acc
  | f + 1, x, t, k, acc =>
    trigGo f x (-(t * x / fx * x / fx) / ((k + 1) * (k + 2) : Nat)) (k + 2) (acc + t)

/-- sin x, x and the result in units of 2^-96, for moderate x. -/
def sinFx (x : Int) : Int := trigGo 40 x x 1 0

/-- cos x in units of 2^-96. -/
def cosFx (x : Int) : Int := trigGo 40 x fx 0 0

/-- cos of `n` 1/65,536 turns in units of 2^-96. -/
def cosTurn (n : Nat) : Int := cosFx (2 * piFx * (n % 65536 : Nat) / 65536)

/-- sin of `n` 1/65,536 turns in units of 2^-96. -/
def sinTurn (n : Nat) : Int := sinFx (2 * piFx * (n % 65536 : Nat) / 65536)

/-- The atan series on |x| ≤ 1/2: `p` is the current odd power. -/
def atanGo : Nat → Int → Int → Nat → Int → Int
  | 0, _, _, _, acc => acc
  | f + 1, x2, p, k, acc => atanGo f x2 (-(p * x2 / fx)) (k + 2) (acc + p / (k : Int))

/-- atan (y / x) for x > 0 and y ≥ 0, in units of 2^-96: the argument is halved twice by
atan t = 2 atan (t / (1 + sqrt (1 + t^2))), and swapped by atan t = pi/2 − atan (1/t) when y > x. -/
def atanPos (y x : Int) : Int :=
  let half := fun t : Int => t * fx / (fx + (isqrt (fx * fx + t * t).toNat : Int))
  let at1 := fun t : Int => 4 * atanGo 60 (half (half t) * half (half t) / fx) (half (half t)) 1 0
  if y ≤ x then at1 (y * fx / x) else piFx / 2 - at1 (x * fx / y)

/-- The angle of the vector (x, y), in units of 2^-96 radians, in (−pi, pi]; 0 for the zero vector. -/
def atan2Fx (y x : Int) : Int :=
  if x = 0 ∧ y = 0 then 0
  else if x = 0 then (if 0 < y then piFx / 2 else -(piFx / 2))
  else
    let a := atanPos (mag y) (mag x)
    let b := if 0 < x then a else piFx - a
    if 0 ≤ y then b else -b

/-- The `k` bytes of `n`, least significant first (R4). -/
def le : (k : Nat) → (n : Nat) → Bytes
  | 0, _ => []
  | k + 1, n => BitVec.ofNat 8 n :: le k (n / 256)

/-- The number that bytes spell, least significant first (R4). -/
def ofLe : Bytes → Nat
  | [] => 0
  | b :: bs => b.toNat + 256 * ofLe bs

/-- Bytes `a` to `a + k − 1` of a string, missing ones taken as 0. -/
def slice (bs : Bytes) (a k : Nat) : Bytes :=
  let t := (bs.drop a).take k
  t ++ List.replicate (k - t.length) 0

/-- The number in bytes `a` to `a + k − 1` (R4). -/
def at_ (bs : Bytes) (a k : Nat) : Nat := ofLe (slice bs a k)

/-- The eight shifts of one byte of the reflected CRC-32 (R278). -/
def crc32Bits : Nat → Nat → Nat
  | 0, c => c
  | k + 1, c => crc32Bits k (if c % 2 = 1 then Nat.xor (c / 2) 0xEDB88320 else c / 2)

/-- The running CRC-32 register over bytes (R278). -/
def crc32Run (c : Nat) (bs : Bytes) : Nat :=
  bs.foldl (fun c b => crc32Bits 8 (Nat.xor c b.toNat)) c

/-- CRC-32 of IEEE 802.3: reflected polynomial 0x04C1_1DB7, initial value and final exclusive-or 0xFFFF_FFFF (R278). -/
def crc32 (bs : Bytes) : Nat := Nat.xor (crc32Run 0xFFFFFFFF bs) 0xFFFFFFFF

/-- The eight shifts of one byte of CRC-16/CCITT-FALSE. -/
def crc16Bits : Nat → Nat → Nat
  | 0, c => c
  | k + 1, c =>
    crc16Bits k (if c / 32768 % 2 = 1 then Nat.xor (2 * c % 65536) 0x1021 else 2 * c % 65536)

/-- CRC-16/CCITT-FALSE (Table 12.14). -/
def crc16 (bs : Bytes) : Nat :=
  bs.foldl (fun c b => crc16Bits 8 (Nat.xor c (256 * b.toNat))) 0xFFFF

/-- The largest Int of a list, 0 for none. -/
def maxI (l : List Int) : Int := l.foldl (fun a b => if a < b then b else a) 0

/-- The sum of a list of Ints. -/
def sumI (l : List Int) : Int := l.foldl (· + ·) 0

/-- The sum of a list of Nats. -/
def sumN (l : List Nat) : Nat := l.foldl (· + ·) 0

/-- Item `i` of a list of Ints, 0 beyond its end. -/
def ati (l : List Int) (i : Nat) : Int := l.getD i 0

end Sys2Proof.Machine
end

