-- ==== Sys2Proof/Machine/ObjTable.lean ====
section
/-! DEFINITION. The object dictionary as a table (R238 to R241, R244, R245): for every object its index and subindex range,
type, read and write level, flags, default and stated range, from the object tables of chapters 2 to 14. -/

namespace Sys2Proof.Machine

/-- Object types (Table 9.2, R241): BOOL, unsigned and signed of a number of bits, strings of bytes, methods. -/
inductive OTy where
  | bool
  | u (bits : Nat)
  | i (bits : Nat)
  | str (n : Nat)
  | oct (n : Nat)
  | method
  deriving DecidableEq, Repr

/-- Defaults (R245): a number, a value set at test or per die, or a rule of the object's own table. -/
inductive Dflt where
  | n (v : Nat)
  | test        -- set at test, per die, or of the running image
  | entry       -- Table 2.7
  | skew        -- 30 × (n mod 8) + 15
  | group       -- floor(v/3)
  | season      -- Table 6.2
  | point       -- Table 6.4
  | depth       -- depth of RING-r
  | linkLocal   -- from MAC_ADDR
  | order       -- "TG256-AQ" or "TG256-AE", set at test
  | cert        -- Table 13.5
  deriving DecidableEq, Repr

/-- Stated ranges of raw values. -/
inductive Rng where
  | any
  | le (hi : Nat)
  | ge (lo : Nat)
  | btw (lo hi : Nat)
  | sbtw (lo hi : Int)
  | oneOf (l : List Nat)
  | mul3 (hi : Nat)
  | orB (a b : Rng)
  deriving DecidableEq, Repr

/-- One row of an object table: an index range, a subindex range, type, levels (0 PUB to 5 OWN, 6 for a dash), flags
(bit 0 T, 1 L, 2 S, 3 P, 4 V), default and stated range. -/
structure Row where
  lo   : Nat
  hi   : Nat
  slo  : Nat
  shi  : Nat
  ty   : OTy
  rd   : Nat
  wr   : Nat
  fl   : Nat
  dflt : Dflt
  rng  : Rng
  deriving DecidableEq, Repr

/-- Objects 0x1000 … 0x10FF. -/
def rows10 : List Row := [
  ⟨0x1000, 0x1000, 0x1, 0x1, .u 64, 0, 6, 8, .test, .any⟩,
  ⟨0x1000, 0x1000, 0x2, 0x2, .u 32, 0, 6, 0, .n 9569, .any⟩,
  ⟨0x1000, 0x1000, 0x3, 0x3, .str 16, 0, 6, 8, .order, .any⟩,
  ⟨0x1000, 0x1000, 0x4, 0x4, .u 16, 0, 6, 0, .test, .any⟩,
  ⟨0x1000, 0x1000, 0x5, 0x5, .u 16, 0, 6, 0, .test, .any⟩,
  ⟨0x1000, 0x1000, 0x6, 0x6, .oct 4, 0, 6, 0, .test, .any⟩,
  ⟨0x1000, 0x1000, 0x7, 0x7, .oct 4, 0, 6, 18, .test, .any⟩,
  ⟨0x1000, 0x1000, 0x8, 0x8, .oct 32, 0, 6, 18, .test, .any⟩,
  ⟨0x1000, 0x1000, 0x9, 0x9, .u 32, 0, 6, 16, .test, .any⟩,
  ⟨0x1000, 0x1000, 0xA, 0xA, .u 16, 0, 6, 0, .n 1, .any⟩,
  ⟨0x1000, 0x1000, 0xB, 0xB, .u 48, 1, 6, 8, .test, .any⟩]

/-- Objects 0x1100 … 0x11FF. -/
def rows11 : List Row := [
  ⟨0x1100, 0x1100, 0x1, 0x1, .u 48, 0, 6, 16, .n 0xFFFFFFFFFFFF, .any⟩,
  ⟨0x1100, 0x1100, 0x2, 0x2, .u 8, 0, 6, 24, .n 0, .any⟩,
  ⟨0x1100, 0x1100, 0x3, 0x3, .u 48, 0, 6, 16, .n 0, .any⟩,
  ⟨0x1100, 0x1100, 0x4, 0x4, .method, 6, 3, 2, .n 0, .any⟩,
  ⟨0x1100, 0x1100, 0x5, 0x5, .u 8, 1, 5, 15, .n 3, .any⟩,
  ⟨0x1100, 0x1100, 0x6, 0x6, .u 8, 1, 6, 8, .n 0, .any⟩,
  ⟨0x1100, 0x1100, 0x7, 0x7, .u 48, 1, 6, 8, .n 0, .any⟩,
  ⟨0x1100, 0x1100, 0x8, 0x8, .i 32, 1, 6, 16, .n 0, .any⟩,
  ⟨0x1100, 0x1100, 0x9, 0x9, .u 48, 1, 6, 8, .n 0, .any⟩]

/-- Objects 0x1200 … 0x12FF. -/
def rows12 : List Row := [
  ⟨0x1200, 0x1200, 0x1, 0x1, .u 16, 1, 3, 8, .n 2044, .any⟩,
  ⟨0x1200, 0x1200, 0x2, 0x2, .u 16, 1, 6, 16, .n 0, .any⟩,
  ⟨0x1200, 0x1200, 0x3, 0x3, .u 32, 1, 6, 8, .n 0, .any⟩,
  ⟨0x1200, 0x1200, 0x4, 0x4, .u 32, 1, 6, 8, .n 0, .any⟩,
  ⟨0x1200, 0x1200, 0x5, 0x5, .u 32, 1, 6, 8, .n 0, .any⟩,
  ⟨0x1200, 0x1200, 0x6, 0x6, .u 32, 1, 6, 16, .n 0, .any⟩,
  ⟨0x1200, 0x1200, 0x7, 0x7, .u 32, 1, 6, 8, .n 0, .any⟩,
  ⟨0x1200, 0x1200, 0x8, 0x8, .u 16, 1, 3, 8, .n 511, .any⟩,
  ⟨0x1200, 0x1200, 0x9, 0x9, .u 32, 1, 6, 16, .n 0, .any⟩,
  ⟨0x1201, 0x1201, 0x1, 0x1, .bool, 1, 3, 9, .n 1, .any⟩,
  ⟨0x1201, 0x1201, 0x2, 0x2, .bool, 1, 3, 9, .n 0, .any⟩,
  ⟨0x1201, 0x1201, 0x3, 0x3, .u 8, 1, 3, 9, .n 1, .le 254⟩,
  ⟨0x1201, 0x1201, 0x4, 0x4, .u 8, 1, 3, 9, .n 8, .ge 1⟩,
  ⟨0x1201, 0x1201, 0x5, 0x5, .u 8, 1, 3, 9, .n 32, .any⟩,
  ⟨0x1201, 0x1201, 0x6, 0x6, .u 8, 1, 3, 9, .n 0, .any⟩,
  ⟨0x1201, 0x1201, 0x7, 0x7, .oct 6, 0, 6, 8, .test, .any⟩,
  ⟨0x1201, 0x1201, 0x8, 0x8, .oct 16, 1, 3, 9, .n 0, .any⟩,
  ⟨0x1201, 0x1201, 0x9, 0x9, .u 8, 1, 3, 9, .n 64, .btw 1 128⟩,
  ⟨0x1201, 0x1201, 0xA, 0xA, .oct 16, 1, 3, 9, .n 0, .any⟩,
  ⟨0x1201, 0x1201, 0xB, 0xB, .oct 16, 0, 6, 16, .linkLocal, .any⟩,
  ⟨0x1201, 0x1201, 0xC, 0xC, .u 8, 1, 6, 16, .n 0, .any⟩,
  ⟨0x1201, 0x1201, 0xD, 0xD, .bool, 1, 3, 9, .n 1, .any⟩,
  ⟨0x1201, 0x1201, 0xE, 0xE, .u 16, 0, 6, 0, .n 49256, .any⟩,
  ⟨0x1201, 0x1201, 0xF, 0xF, .u 32, 1, 6, 16, .n 0, .any⟩,
  ⟨0x1201, 0x1201, 0x10, 0x10, .u 32, 1, 6, 16, .n 0, .any⟩,
  ⟨0x1201, 0x1201, 0x11, 0x11, .u 32, 1, 6, 16, .n 0, .any⟩,
  ⟨0x1202, 0x1202, 0x1, 0x1, .u 16, 1, 5, 9, .n 300, .btw 30 3600⟩,
  ⟨0x1202, 0x1202, 0x2, 0x2, .u 8, 1, 6, 16, .n 0, .any⟩,
  ⟨0x1202, 0x1202, 0x3, 0x3, .u 32, 1, 6, 8, .n 0, .any⟩,
  ⟨0x1202, 0x1202, 0x4, 0x4, .u 32, 1, 6, 8, .n 0, .any⟩,
  ⟨0x1202, 0x1202, 0x5, 0x5, .u 32, 1, 6, 8, .n 0, .any⟩,
  ⟨0x1202, 0x1202, 0x6, 0x6, .method, 6, 5, 0, .n 0, .any⟩,
  ⟨0x1202, 0x1202, 0x7, 0x7, .u 8, 1, 6, 16, .n 5, .any⟩,
  ⟨0x1203, 0x1203, 0x1, 0x5, .oct 32, 6, 5, 11, .n 0, .any⟩,
  ⟨0x1203, 0x1203, 0x6, 0x6, .u 8, 1, 6, 8, .n 0, .any⟩,
  ⟨0x1210, 0x121F, 0x1, 0x1, .u 8, 1, 6, 16, .n 255, .any⟩,
  ⟨0x1210, 0x121F, 0x2, 0x2, .u 8, 1, 6, 16, .n 0, .any⟩,
  ⟨0x1210, 0x121F, 0x3, 0x3, .oct 18, 1, 6, 16, .n 0, .any⟩,
  ⟨0x1210, 0x121F, 0x4, 0x4, .u 48, 1, 6, 16, .n 0, .any⟩,
  ⟨0x1210, 0x121F, 0x5, 0x5, .u 48, 1, 6, 16, .n 0, .any⟩]

/-- Objects 0x1300 … 0x13FF. -/
def rows13 : List Row := [
  ⟨0x1300, 0x1300, 0x1, 0x1, .bool, 1, 3, 9, .n 1, .any⟩,
  ⟨0x1300, 0x1300, 0x2, 0x2, .u 8, 1, 3, 9, .n 0, .le 1⟩,
  ⟨0x1300, 0x1300, 0x3, 0x3, .u 8, 0, 6, 16, .n 0, .any⟩,
  ⟨0x1300, 0x1300, 0x4, 0x4, .u 16, 1, 6, 16, .n 65535, .any⟩,
  ⟨0x1300, 0x1300, 0x5, 0x5, .u 16, 1, 6, 16, .n 65535, .any⟩,
  ⟨0x1300, 0x1300, 0x6, 0x6, .oct 8, 0, 6, 8, .test, .any⟩,
  ⟨0x1300, 0x1300, 0x7, 0x7, .oct 16, 6, 5, 11, .n 0, .any⟩,
  ⟨0x1300, 0x1300, 0x8, 0x8, .bool, 1, 6, 8, .n 0, .any⟩,
  ⟨0x1300, 0x1300, 0x9, 0x9, .u 8, 1, 3, 9, .n 0, .mul3 21⟩,
  ⟨0x1300, 0x1300, 0xA, 0xA, .u 8, 1, 3, 9, .n 8, .btw 1 14⟩,
  ⟨0x1300, 0x1300, 0xB, 0xB, .oct 8, 1, 3, 9, .n 0, .any⟩,
  ⟨0x1300, 0x1300, 0xC, 0xC, .u 32, 1, 6, 8, .n 0, .any⟩,
  ⟨0x1301, 0x1301, 0x1, 0x1, .u 32, 1, 6, 16, .n 0, .any⟩,
  ⟨0x1301, 0x1301, 0x2, 0x2, .u 32, 1, 6, 16, .n 0, .any⟩,
  ⟨0x1301, 0x1301, 0x3, 0x3, .u 32, 1, 6, 16, .n 0, .any⟩,
  ⟨0x1301, 0x1301, 0x4, 0x4, .u 32, 1, 6, 16, .n 0, .any⟩,
  ⟨0x1301, 0x1301, 0x5, 0x5, .u 32, 1, 6, 16, .n 0, .any⟩,
  ⟨0x1301, 0x1301, 0x6, 0x6, .u 32, 1, 6, 16, .n 0, .any⟩,
  ⟨0x1301, 0x1301, 0x7, 0x7, .u 32, 1, 6, 8, .n 0, .any⟩,
  ⟨0x1301, 0x1301, 0x8, 0x8, .u 32, 1, 6, 16, .n 0, .any⟩,
  ⟨0x1301, 0x1301, 0x9, 0x9, .u 32, 1, 6, 16, .n 0, .any⟩,
  ⟨0x1301, 0x1301, 0xA, 0xA, .u 16, 1, 3, 9, .n 20, .btw 5 500⟩,
  ⟨0x1301, 0x1301, 0xB, 0xB, .u 16, 1, 3, 9, .n 500, .btw 50 5000⟩,
  ⟨0x1302, 0x1302, 0x1, 0x1, .u 8, 1, 5, 9, .n 0, .le 2⟩,
  ⟨0x1302, 0x1302, 0x2, 0x2, .u 8, 1, 3, 9, .n 0, .le 11⟩,
  ⟨0x1302, 0x1302, 0x3, 0x3, .u 8, 0, 6, 16, .n 1, .any⟩,
  ⟨0x1302, 0x1302, 0x4, 0x4, .u 8, 1, 6, 16, .n 0, .any⟩,
  ⟨0x1302, 0x1302, 0x5, 0x5, .u 48, 0, 6, 16, .n 0, .any⟩,
  ⟨0x1302, 0x1302, 0x6, 0x6, .u 64, 1, 6, 16, .n 0, .any⟩,
  ⟨0x1302, 0x1302, 0x7, 0x7, .u 8, 1, 6, 16, .n 255, .any⟩,
  ⟨0x1302, 0x1302, 0x8, 0x8, .u 8, 1, 6, 16, .n 0, .any⟩,
  ⟨0x1302, 0x1302, 0x9, 0x9, .i 32, 1, 6, 16, .n 0, .any⟩,
  ⟨0x1302, 0x1302, 0xA, 0xA, .oct 8, 1, 6, 16, .n 0, .any⟩,
  ⟨0x1302, 0x1302, 0xB, 0xB, .u 8, 1, 3, 9, .n 10, .btw 2 60⟩,
  ⟨0x1302, 0x1302, 0xC, 0xC, .u 32, 1, 6, 16, .n 0, .any⟩,
  ⟨0x1302, 0x1302, 0xD, 0xD, .u 32, 1, 6, 8, .n 0, .any⟩,
  ⟨0x1302, 0x1302, 0xE, 0xE, .u 32, 1, 6, 16, .n 0, .any⟩,
  ⟨0x1302, 0x1302, 0xF, 0xF, .method, 6, 1, 0, .n 0, .any⟩,
  ⟨0x1303, 0x1303, 0x1, 0x1, .u 8, 1, 3, 9, .n 8, .btw 1 64⟩,
  ⟨0x1303, 0x1303, 0x2, 0x2, .u 8, 1, 3, 9, .n 200, .any⟩,
  ⟨0x1303, 0x1303, 0x3, 0x3, .u 8, 1, 3, 9, .n 4, .le 32⟩,
  ⟨0x1303, 0x1303, 0x4, 0x4, .u 8, 1, 3, 9, .n 16, .le 64⟩,
  ⟨0x1303, 0x1303, 0x5, 0x5, .u 8, 1, 3, 9, .n 12, .le 128⟩,
  ⟨0x1303, 0x1303, 0x6, 0x6, .u 8, 1, 3, 9, .n 1, .le 2⟩,
  ⟨0x1303, 0x1303, 0x7, 0x7, .u 8, 1, 3, 9, .n 24, .ge 1⟩,
  ⟨0x1303, 0x1303, 0x8, 0x8, .u 16, 1, 3, 9, .n 300, .le 3600⟩,
  ⟨0x1303, 0x1303, 0x9, 0x9, .bool, 0, 6, 16, .n 0, .any⟩,
  ⟨0x1310, 0x134F, 0x1, 0x1, .u 16, 1, 6, 16, .n 65535, .any⟩,
  ⟨0x1310, 0x134F, 0x2, 0x2, .u 8, 1, 6, 16, .n 0, .any⟩,
  ⟨0x1310, 0x134F, 0x3, 0x3, .u 8, 1, 6, 16, .n 0, .any⟩,
  ⟨0x1310, 0x134F, 0x4, 0x4, .u 8, 1, 6, 16, .n 0, .any⟩,
  ⟨0x1310, 0x134F, 0x5, 0x5, .u 8, 1, 6, 16, .n 255, .any⟩,
  ⟨0x1310, 0x134F, 0x6, 0x6, .u 8, 1, 6, 16, .n 0, .any⟩,
  ⟨0x1310, 0x134F, 0x7, 0x7, .u 8, 1, 6, 16, .n 0, .any⟩,
  ⟨0x1310, 0x134F, 0x8, 0x8, .u 48, 1, 6, 16, .n 0, .any⟩,
  ⟨0x1380, 0x13FF, 0x1, 0x1, .u 16, 1, 6, 16, .n 65535, .any⟩,
  ⟨0x1380, 0x13FF, 0x2, 0x2, .u 16, 1, 6, 16, .n 65535, .any⟩,
  ⟨0x1380, 0x13FF, 0x3, 0x3, .u 16, 1, 6, 16, .n 0, .any⟩,
  ⟨0x1380, 0x13FF, 0x4, 0x4, .u 8, 1, 6, 16, .n 0, .any⟩,
  ⟨0x1380, 0x13FF, 0x5, 0x5, .u 16, 1, 6, 16, .n 0, .any⟩]

/-- Objects 0x1400 … 0x14FF. -/
def rows14 : List Row := [
  ⟨0x1400, 0x1400, 0x1, 0x1, .u 16, 1, 6, 16, .n 4, .any⟩,
  ⟨0x1400, 0x1400, 0x2, 0x2, .u 16, 1, 6, 16, .n 0, .any⟩,
  ⟨0x1400, 0x1400, 0x3, 0x3, .u 16, 1, 6, 16, .n 0, .any⟩,
  ⟨0x1400, 0x1400, 0x4, 0x4, .u 16, 1, 6, 16, .n 0, .any⟩,
  ⟨0x1400, 0x1400, 0x5, 0x5, .u 16, 1, 6, 16, .n 0, .any⟩,
  ⟨0x1400, 0x1400, 0x6, 0x6, .u 16, 1, 6, 8, .n 0, .any⟩,
  ⟨0x1400, 0x1400, 0x7, 0x7, .u 8, 1, 6, 16, .n 0, .any⟩,
  ⟨0x1400, 0x1400, 0x8, 0x8, .u 32, 1, 6, 8, .n 0, .any⟩,
  ⟨0x1400, 0x1400, 0x9, 0x9, .u 8, 1, 6, 8, .n 4, .any⟩,
  ⟨0x1400, 0x1400, 0xA, 0xA, .u 32, 1, 6, 8, .n 0, .any⟩,
  ⟨0x1400, 0x1400, 0xB, 0xB, .u 8, 1, 6, 8, .n 0, .any⟩,
  ⟨0x1400, 0x1400, 0xC, 0xC, .u 48, 1, 6, 8, .n 0, .any⟩,
  ⟨0x1400, 0x1400, 0xD, 0xD, .u 16, 1, 6, 8, .n 0, .any⟩,
  ⟨0x1400, 0x1400, 0xE, 0xE, .u 32, 1, 6, 8, .n 0, .any⟩,
  ⟨0x1401, 0x1401, 0x1, 0x1, .bool, 1, 3, 9, .n 1, .any⟩,
  ⟨0x1401, 0x1401, 0x2, 0x2, .u 8, 1, 3, 9, .n 4, .btw 1 60⟩,
  ⟨0x1401, 0x1401, 0x3, 0x3, .u 16, 1, 3, 9, .n 328, .any⟩,
  ⟨0x1401, 0x1401, 0x4, 0x4, .u 16, 1, 3, 9, .n 720, .le 8760⟩,
  ⟨0x1401, 0x1401, 0x5, 0x5, .u 16, 1, 3, 9, .n 2500, .btw 2300 3300⟩,
  ⟨0x1401, 0x1401, 0x6, 0x6, .u 32, 1, 6, 8, .n 0, .any⟩,
  ⟨0x1401, 0x1401, 0x7, 0x7, .u 32, 1, 6, 8, .n 0, .any⟩,
  ⟨0x1401, 0x1401, 0x8, 0x8, .u 16, 1, 6, 8, .n 0, .any⟩,
  ⟨0x1402, 0x140D, 0x1, 0x1, .u 16, 1, 3, 9, .n 2300, .any⟩,
  ⟨0x1410, 0x1410, 0x0, 0xFF, .u 32, 1, 6, 10, .n 0, .any⟩,
  ⟨0x1411, 0x1411, 0x0, 0xFF, .u 48, 1, 6, 10, .n 0, .any⟩,
  ⟨0x1412, 0x1412, 0x0, 0xFF, .u 8, 1, 6, 8, .n 0, .any⟩,
  ⟨0x1420, 0x1420, 0x1, 0x1, .u 8, 1, 3, 9, .n 0, .le 1⟩,
  ⟨0x1420, 0x1420, 0x2, 0x2, .u 8, 1, 3, 9, .n 0, .le 1⟩,
  ⟨0x1420, 0x1420, 0x3, 0x3, .bool, 0, 6, 16, .n 0, .any⟩,
  ⟨0x1420, 0x1420, 0x4, 0x4, .bool, 0, 6, 16, .n 0, .any⟩,
  ⟨0x1420, 0x1420, 0x5, 0x5, .u 32, 1, 6, 10, .n 0, .any⟩,
  ⟨0x1420, 0x1420, 0x6, 0x6, .u 32, 1, 6, 10, .n 0, .any⟩,
  ⟨0x1420, 0x1420, 0x7, 0x7, .u 16, 1, 6, 8, .n 0, .any⟩,
  ⟨0x1430, 0x1430, 0x1, 0x1, .bool, 1, 6, 16, .n 0, .any⟩,
  ⟨0x1430, 0x1430, 0x2, 0x2, .i 16, 1, 6, 8, .test, .any⟩,
  ⟨0x1430, 0x1430, 0x3, 0x3, .u 32, 1, 6, 8, .n 0, .any⟩]

/-- Objects 0x1800 … 0x18FF. -/
def rows18 : List Row := [
  ⟨0x1800, 0x1800, 0x1, 0x1, .u 32, 1, 6, 16, .n 0x32DC0, .any⟩,
  ⟨0x1800, 0x1800, 0x2, 0x2, .u 32, 1, 6, 16, .n 0x2F6C0, .any⟩,
  ⟨0x1800, 0x1800, 0x3, 0x3, .u 16, 1, 6, 16, .n 5333, .any⟩,
  ⟨0x1800, 0x1800, 0x4, 0x4, .u 16, 1, 6, 16, .n 922, .any⟩,
  ⟨0x1800, 0x1800, 0x5, 0x5, .u 32, 1, 6, 16, .n 18000, .any⟩,
  ⟨0x1800, 0x1800, 0x6, 0x8, .u 32, 1, 6, 16, .n 0, .any⟩,
  ⟨0x1800, 0x1800, 0x9, 0x9, .u 32, 1, 6, 8, .n 0, .any⟩,
  ⟨0x1800, 0x1800, 0xA, 0xA, .u 32, 1, 6, 8, .n 0, .any⟩,
  ⟨0x1800, 0x1800, 0xB, 0xB, .u 32, 0, 6, 16, .n 0, .any⟩,
  ⟨0x1800, 0x1800, 0xC, 0xC, .u 48, 1, 6, 8, .n 0, .any⟩,
  ⟨0x1800, 0x1800, 0xD, 0xD, .u 16, 1, 6, 8, .n 0, .any⟩,
  ⟨0x1801, 0x1801, 0x0, 0xF, .u 32, 1, 6, 16, .depth, .any⟩,
  ⟨0x1802, 0x1802, 0x0, 0xF, .u 32, 1, 6, 8, .n 0, .any⟩,
  ⟨0x1803, 0x1803, 0x1, 0x1, .u 8, 1, 6, 16, .n 48, .any⟩,
  ⟨0x1803, 0x1803, 0x2, 0x5, .u 8, 1, 6, 16, .n 0, .any⟩,
  ⟨0x1803, 0x1803, 0x6, 0x6, .u 8, 1, 6, 16, .n 0, .any⟩,
  ⟨0x1803, 0x1803, 0x7, 0xA, .u 32, 1, 6, 8, .n 0, .any⟩,
  ⟨0x1804, 0x1804, 0x1, 0x1, .u 8, 1, 6, 16, .n 0, .any⟩,
  ⟨0x1804, 0x1804, 0x2, 0x2, .u 8, 1, 6, 16, .n 0, .any⟩,
  ⟨0x1804, 0x1804, 0x3, 0x3, .u 32, 1, 6, 8, .n 0, .any⟩,
  ⟨0x1804, 0x1804, 0x4, 0x4, .u 32, 1, 6, 8, .n 0, .any⟩,
  ⟨0x1804, 0x1804, 0x5, 0x5, .u 32, 1, 6, 8, .n 0, .any⟩,
  ⟨0x1804, 0x1804, 0x6, 0x6, .u 32, 1, 6, 8, .n 0, .any⟩,
  ⟨0x1804, 0x1804, 0x7, 0x7, .u 32, 1, 6, 10, .n 0, .any⟩,
  ⟨0x1804, 0x1804, 0x8, 0x8, .u 8, 1, 6, 16, .n 0, .any⟩,
  ⟨0x1805, 0x1805, 0x1, 0x1, .u 8, 1, 6, 16, .n 0, .any⟩,
  ⟨0x1805, 0x1805, 0x2, 0x4, .u 32, 1, 6, 16, .n 0, .any⟩]

/-- Objects 0x2000 … 0x20FF. -/
def rows20 : List Row := [
  ⟨0x2000, 0x201F, 0x1, 0x1, .u 8, 1, 4, 15, .n 9, .btw 1 64⟩,
  ⟨0x2000, 0x201F, 0x2, 0x2, .u 8, 1, 6, 16, .n 8, .any⟩,
  ⟨0x2000, 0x201F, 0x3, 0x3, .u 8, 1, 6, 16, .n 0, .any⟩,
  ⟨0x2000, 0x201F, 0x4, 0x4, .u 8, 1, 6, 16, .n 0, .any⟩,
  ⟨0x2000, 0x201F, 0x5, 0x5, .u 48, 1, 6, 8, .n 0, .any⟩]

/-- Objects 0x2100 … 0x21FF. -/
def rows21 : List Row := [
  ⟨0x2100, 0x211F, 0x0, 0x3F, .u 32, 1, 4, 15, .entry, .any⟩]

/-- Objects 0x2200 … 0x22FF. -/
def rows22 : List Row := [
  ⟨0x2200, 0x220B, 0x1, 0x1, .bool, 1, 4, 15, .n 1, .any⟩,
  ⟨0x2200, 0x220B, 0x2, 0x2, .u 32, 1, 4, 15, .n 0x40000000, .any⟩,
  ⟨0x2200, 0x220B, 0x3, 0x3, .i 24, 1, 4, 15, .n 0, .any⟩,
  ⟨0x2200, 0x220B, 0x4, 0x4, .i 12, 1, 4, 15, .n 0, .any⟩,
  ⟨0x2200, 0x220B, 0x5, 0x5, .u 32, 1, 6, 16, .n 0x40000000, .any⟩,
  ⟨0x2200, 0x220B, 0x6, 0x6, .i 12, 1, 6, 16, .n 0, .any⟩,
  ⟨0x2200, 0x220B, 0x7, 0x7, .u 8, 1, 6, 8, .n 0, .any⟩]

/-- Objects 0x2300 … 0x23FF. -/
def rows23 : List Row := [
  ⟨0x2300, 0x23FF, 0x1, 0x1, .bool, 1, 4, 15, .n 1, .any⟩,
  ⟨0x2300, 0x23FF, 0x2, 0x2, .u 8, 1, 4, 15, .n 0, .le 1⟩,
  ⟨0x2300, 0x23FF, 0x3, 0x3, .u 8, 1, 4, 15, .n 0, .any⟩,
  ⟨0x2300, 0x23FF, 0x4, 0x4, .u 8, 1, 4, 15, .n 4, .any⟩,
  ⟨0x2300, 0x23FF, 0x5, 0x5, .u 8, 1, 4, 15, .n 0, .le 2⟩,
  ⟨0x2300, 0x23FF, 0x6, 0x6, .u 8, 1, 6, 16, .n 0, .any⟩,
  ⟨0x2300, 0x23FF, 0x7, 0x7, .u 16, 1, 6, 16, .n 0, .any⟩,
  ⟨0x2300, 0x23FF, 0x8, 0x8, .u 32, 1, 6, 16, .n 0, .any⟩,
  ⟨0x2300, 0x23FF, 0x9, 0x9, .u 32, 1, 6, 16, .n 0, .any⟩,
  ⟨0x2300, 0x23FF, 0xA, 0xA, .u 32, 1, 6, 16, .n 0, .any⟩]

/-- Objects 0x2400 … 0x24FF. -/
def rows24 : List Row := [
  ⟨0x2400, 0x24FF, 0x1, 0x1, .u 32, 1, 4, 15, .n 0x40000000, .any⟩,
  ⟨0x2400, 0x24FF, 0x2, 0x2, .i 24, 1, 4, 15, .n 0, .any⟩,
  ⟨0x2400, 0x24FF, 0x3, 0x3, .i 12, 1, 4, 15, .n 0, .any⟩,
  ⟨0x2400, 0x24FF, 0x4, 0x4, .u 32, 1, 4, 15, .n 0x4E8A31, .any⟩,
  ⟨0x2400, 0x24FF, 0x5, 0x5, .u 32, 1, 4, 15, .n 0x40000000, .any⟩,
  ⟨0x2400, 0x24FF, 0x6, 0x6, .i 24, 1, 4, 15, .n 0, .any⟩,
  ⟨0x2400, 0x24FF, 0x7, 0x7, .i 12, 1, 4, 15, .n 0, .any⟩,
  ⟨0x2400, 0x24FF, 0x8, 0x8, .u 32, 1, 4, 15, .n 0x4E8A31, .any⟩,
  ⟨0x2400, 0x24FF, 0x9, 0x9, .u 16, 1, 6, 16, .skew, .any⟩,
  ⟨0x2400, 0x24FF, 0xA, 0xA, .u 32, 1, 6, 16, .n 0x40000000, .any⟩,
  ⟨0x2400, 0x24FF, 0xB, 0xB, .u 32, 1, 6, 16, .n 0x40000000, .any⟩,
  ⟨0x2400, 0x24FF, 0xC, 0xC, .i 12, 1, 6, 16, .n 0, .any⟩,
  ⟨0x2400, 0x24FF, 0xD, 0xD, .i 12, 1, 6, 16, .n 0, .any⟩,
  ⟨0x2400, 0x24FF, 0xE, 0xE, .u 8, 1, 6, 8, .n 0, .any⟩,
  ⟨0x2400, 0x24FF, 0xF, 0xF, .u 16, 1, 6, 8, .n 0, .any⟩,
  ⟨0x2400, 0x24FF, 0x10, 0x10, .u 48, 1, 6, 8, .n 0xFFFFFFFFFFFF, .any⟩]

/-- Objects 0x2500 … 0x25FF. -/
def rows25 : List Row := [
  ⟨0x2500, 0x2500, 0x1, 0x1, .u 8, 1, 6, 16, .n 0, .any⟩,
  ⟨0x2500, 0x2500, 0x2, 0x2, .bool, 1, 6, 16, .n 0, .any⟩,
  ⟨0x2500, 0x2500, 0x3, 0x3, .bool, 1, 6, 8, .n 0, .any⟩,
  ⟨0x2500, 0x2500, 0x4, 0x4, .u 48, 1, 6, 8, .n 0xFFFFFFFFFFFF, .any⟩,
  ⟨0x2500, 0x2500, 0x5, 0x5, .u 48, 1, 6, 8, .n 0, .any⟩,
  ⟨0x2500, 0x2500, 0x6, 0x6, .u 32, 1, 6, 8, .n 0, .any⟩,
  ⟨0x2500, 0x2500, 0x7, 0x7, .u 32, 1, 6, 8, .n 0, .any⟩,
  ⟨0x2500, 0x2500, 0x8, 0x8, .u 16, 1, 6, 16, .n 0, .any⟩,
  ⟨0x2501, 0x2501, 0x1, 0x1, .bool, 1, 4, 17, .n 0, .any⟩,
  ⟨0x2501, 0x2501, 0x2, 0x2, .u 48, 1, 6, 8, .n 0, .any⟩,
  ⟨0x2502, 0x2507, 0x0, 0x1F, .i 24, 1, 6, 16, .n 0, .any⟩,
  ⟨0x2502, 0x2507, 0x20, 0x3F, .i 24, 1, 6, 16, .n 0, .any⟩,
  ⟨0x2508, 0x250D, 0x0, 0x1F, .u 32, 1, 6, 16, .n 0x40000000, .any⟩,
  ⟨0x2508, 0x250D, 0x20, 0x3F, .u 32, 1, 6, 16, .n 0x40000000, .any⟩,
  ⟨0x250E, 0x250E, 0x0, 0x1F, .i 16, 1, 6, 16, .n 0, .any⟩,
  ⟨0x250F, 0x250F, 0x0, 0x1F, .u 32, 1, 6, 16, .n 0x40000000, .any⟩]

/-- Objects 0x3000 … 0x30FF. -/
def rows30 : List Row := [
  ⟨0x3000, 0x30FF, 0x1, 0x1, .u 8, 1, 4, 15, .n 0, .any⟩,
  ⟨0x3000, 0x30FF, 0x2, 0x2, .u 16, 1, 4, 15, .n 65535, .any⟩,
  ⟨0x3000, 0x30FF, 0x3, 0x3, .u 16, 1, 4, 15, .n 65535, .any⟩,
  ⟨0x3000, 0x30FF, 0x4, 0x4, .u 16, 1, 4, 15, .n 65535, .any⟩,
  ⟨0x3000, 0x30FF, 0x5, 0x5, .u 16, 1, 4, 15, .n 65535, .any⟩,
  ⟨0x3000, 0x30FF, 0x6, 0x6, .u 8, 1, 4, 15, .n 255, .any⟩,
  ⟨0x3000, 0x30FF, 0x7, 0x7, .u 8, 1, 4, 15, .n 255, .any⟩,
  ⟨0x3000, 0x30FF, 0x8, 0x8, .u 8, 1, 4, 15, .n 255, .any⟩,
  ⟨0x3000, 0x30FF, 0x9, 0x9, .u 8, 1, 4, 15, .n 0, .le 2⟩,
  ⟨0x3000, 0x30FF, 0xA, 0xA, .u 8, 1, 4, 15, .n 0, .le 1⟩,
  ⟨0x3000, 0x30FF, 0xB, 0xB, .u 8, 1, 4, 15, .n 0, .le 1⟩,
  ⟨0x3000, 0x30FF, 0xC, 0xC, .u 8, 1, 4, 15, .n 0, .le 3⟩,
  ⟨0x3000, 0x30FF, 0xD, 0xD, .u 48, 1, 4, 15, .n 0x1000000, .any⟩,
  ⟨0x3000, 0x30FF, 0xE, 0xE, .u 32, 1, 4, 15, .n 0x346DC, .any⟩,
  ⟨0x3000, 0x30FF, 0xF, 0xF, .u 32, 1, 4, 15, .n 0x1A36E, .any⟩,
  ⟨0x3000, 0x30FF, 0x10, 0x10, .u 8, 1, 3, 15, .n 0, .le 3⟩,
  ⟨0x3000, 0x30FF, 0x11, 0x11, .u 8, 1, 4, 11, .n 0, .le 1⟩,
  ⟨0x3000, 0x30FF, 0x12, 0x12, .u 8, 1, 3, 9, .n 0, .le 2⟩,
  ⟨0x3000, 0x30FF, 0x13, 0x13, .u 32, 1, 3, 9, .n 0, .any⟩,
  ⟨0x3000, 0x30FF, 0x14, 0x14, .u 32, 1, 6, 16, .n 0, .any⟩,
  ⟨0x3000, 0x30FF, 0x15, 0x15, .u 32, 1, 6, 16, .n 0, .any⟩,
  ⟨0x3000, 0x30FF, 0x16, 0x16, .u 48, 1, 6, 8, .n 0, .any⟩,
  ⟨0x3000, 0x30FF, 0x17, 0x17, .u 48, 1, 6, 8, .n 0, .any⟩]

/-- Objects 0x3100 … 0x31FF. -/
def rows31 : List Row := [
  ⟨0x3100, 0x31FF, 0x1, 0x1, .u 16, 0, 6, 16, .n 32768, .any⟩,
  ⟨0x3100, 0x31FF, 0x2, 0x2, .i 48, 0, 6, 16, .n 0, .any⟩,
  ⟨0x3100, 0x31FF, 0x3, 0x3, .i 48, 0, 6, 16, .n 0, .any⟩,
  ⟨0x3100, 0x31FF, 0x4, 0x4, .u 48, 0, 6, 16, .n 0, .any⟩,
  ⟨0x3100, 0x31FF, 0x5, 0x5, .i 48, 0, 6, 16, .n 0, .any⟩,
  ⟨0x3100, 0x31FF, 0x6, 0x6, .i 48, 0, 6, 16, .n 0, .any⟩,
  ⟨0x3100, 0x31FF, 0x7, 0x7, .u 48, 0, 6, 16, .n 0, .any⟩,
  ⟨0x3100, 0x31FF, 0x8, 0x8, .i 16, 0, 6, 16, .n 0, .any⟩,
  ⟨0x3100, 0x31FF, 0x9, 0xB, .i 48, 0, 6, 16, .n 0, .any⟩,
  ⟨0x3100, 0x31FF, 0xC, 0xE, .i 48, 0, 6, 16, .n 0, .any⟩,
  ⟨0x3100, 0x31FF, 0xF, 0xF, .u 8, 0, 6, 16, .n 0, .any⟩,
  ⟨0x3100, 0x31FF, 0x10, 0x10, .u 32, 1, 6, 8, .n 0, .any⟩,
  ⟨0x3100, 0x31FF, 0x11, 0x11, .u 32, 1, 6, 8, .n 0, .any⟩]

/-- Objects 0x3200 … 0x32FF. -/
def rows32 : List Row := [
  ⟨0x3200, 0x32FF, 0x1, 0x1, .u 48, 0, 6, 16, .n 0, .any⟩,
  ⟨0x3200, 0x32FF, 0x2, 0x2, .u 48, 0, 6, 16, .n 0, .any⟩,
  ⟨0x3200, 0x32FF, 0x3, 0x3, .u 48, 0, 6, 16, .n 0, .any⟩,
  ⟨0x3200, 0x32FF, 0x4, 0x4, .u 16, 1, 6, 16, .n 65535, .any⟩,
  ⟨0x3200, 0x32FF, 0x5, 0x5, .u 16, 0, 6, 16, .n 32768, .any⟩]

/-- Objects 0x3300 … 0x33FF. -/
def rows33 : List Row := [
  ⟨0x3300, 0x330B, 0x1, 0x1, .u 48, 0, 6, 16, .n 0, .any⟩,
  ⟨0x3300, 0x330B, 0x2, 0x2, .u 48, 0, 6, 16, .n 0, .any⟩,
  ⟨0x3300, 0x330B, 0x3, 0x3, .u 48, 0, 6, 16, .n 0, .any⟩,
  ⟨0x3300, 0x330B, 0x4, 0x4, .u 48, 0, 6, 16, .n 0, .any⟩,
  ⟨0x3300, 0x330B, 0x5, 0x5, .u 32, 0, 6, 16, .n 0x2FAF080, .any⟩,
  ⟨0x3300, 0x330B, 0x6, 0x6, .u 32, 0, 6, 16, .n 0, .any⟩,
  ⟨0x3300, 0x330B, 0x7, 0x7, .u 32, 0, 6, 16, .n 0, .any⟩,
  ⟨0x3300, 0x330B, 0x8, 0x8, .u 64, 1, 6, 16, .n 0, .any⟩,
  ⟨0x3300, 0x330B, 0x9, 0x9, .u 16, 0, 6, 16, .n 0, .any⟩,
  ⟨0x3300, 0x330B, 0xA, 0xA, .u 16, 0, 6, 16, .n 32768, .any⟩,
  ⟨0x3300, 0x330B, 0xB, 0xB, .u 32, 1, 6, 8, .n 0, .any⟩,
  ⟨0x3300, 0x330B, 0xC, 0xC, .u 32, 1, 6, 16, .n 0, .any⟩]

/-- Objects 0x3400 … 0x34FF. -/
def rows34 : List Row := [
  ⟨0x3400, 0x34FF, 0x0, 0x32, .i 48, 0, 6, 16, .n 0, .any⟩,
  ⟨0x3400, 0x34FF, 0x40, 0x72, .u 16, 0, 6, 16, .n 0, .any⟩,
  ⟨0x3400, 0x34FF, 0x80, 0xB2, .u 48, 0, 6, 16, .n 0, .any⟩,
  ⟨0x3400, 0x34FF, 0xC0, 0xC0, .u 16, 0, 6, 16, .n 0, .any⟩,
  ⟨0x3400, 0x34FF, 0xC1, 0xC1, .u 16, 0, 6, 16, .n 0, .any⟩,
  ⟨0x3400, 0x34FF, 0xC2, 0xC2, .u 32, 0, 6, 16, .n 0, .any⟩,
  ⟨0x3400, 0x34FF, 0xC3, 0xC3, .u 16, 0, 6, 16, .n 32768, .any⟩,
  ⟨0x3400, 0x34FF, 0xF0, 0xF0, .bool, 1, 3, 9, .n 1, .any⟩]

/-- Objects 0x3500 … 0x35FF. -/
def rows35 : List Row := [
  ⟨0x3500, 0x350B, 0x0, 0x32, .i 48, 0, 6, 16, .n 0, .any⟩,
  ⟨0x3500, 0x350B, 0x40, 0x72, .u 16, 0, 6, 16, .n 0, .any⟩,
  ⟨0x3500, 0x350B, 0x80, 0xB2, .u 48, 0, 6, 16, .n 0, .any⟩,
  ⟨0x3500, 0x350B, 0xC0, 0xC0, .u 16, 0, 6, 16, .n 0, .any⟩,
  ⟨0x3500, 0x350B, 0xC1, 0xC1, .u 16, 0, 6, 16, .n 0, .any⟩,
  ⟨0x3500, 0x350B, 0xC2, 0xC2, .u 32, 0, 6, 16, .n 0, .any⟩,
  ⟨0x3500, 0x350B, 0xC3, 0xC3, .u 16, 0, 6, 16, .n 32768, .any⟩,
  ⟨0x3500, 0x350B, 0xF0, 0xF0, .bool, 1, 3, 9, .n 1, .any⟩]

/-- Objects 0x3600 … 0x36FF. -/
def rows36 : List Row := [
  ⟨0x3600, 0x36FF, 0x0, 0x32, .i 48, 0, 6, 16, .n 0, .any⟩,
  ⟨0x3600, 0x36FF, 0x40, 0x40, .i 48, 0, 6, 16, .n 0, .any⟩,
  ⟨0x3600, 0x36FF, 0x41, 0x41, .u 48, 0, 6, 16, .n 0, .any⟩,
  ⟨0x3600, 0x36FF, 0x42, 0x42, .u 48, 0, 6, 16, .n 0, .any⟩,
  ⟨0x3600, 0x36FF, 0x43, 0x43, .u 16, 0, 6, 16, .n 32768, .any⟩,
  ⟨0x3600, 0x36FF, 0x44, 0x44, .u 48, 0, 6, 16, .n 0, .any⟩,
  ⟨0x3600, 0x36FF, 0x45, 0x45, .u 8, 0, 6, 16, .n 0, .any⟩]

/-- Objects 0x3700 … 0x37FF. -/
def rows37 : List Row := [
  ⟨0x3700, 0x3700, 0x1, 0x1, .u 8, 1, 3, 9, .n 0, .le 2⟩,
  ⟨0x3700, 0x3700, 0x2, 0x2, .u 8, 1, 6, 16, .n 1, .any⟩,
  ⟨0x3700, 0x3700, 0x3, 0x3, .u 16, 1, 3, 9, .n 200, .any⟩,
  ⟨0x3700, 0x3700, 0x4, 0x4, .u 16, 1, 3, 9, .n 9000, .any⟩,
  ⟨0x3700, 0x3700, 0x5, 0x5, .u 16, 1, 3, 9, .n 11000, .any⟩,
  ⟨0x3700, 0x3700, 0x6, 0x6, .u 16, 1, 3, 9, .n 500, .any⟩,
  ⟨0x3700, 0x3700, 0x7, 0x7, .u 16, 1, 3, 9, .n 58982, .any⟩,
  ⟨0x3700, 0x3700, 0x8, 0x8, .u 8, 1, 3, 9, .n 4, .ge 1⟩,
  ⟨0x3700, 0x3700, 0x9, 0x9, .u 16, 1, 3, 9, .n 1311, .any⟩,
  ⟨0x3700, 0x3700, 0xA, 0xA, .u 8, 1, 3, 9, .n 5, .ge 1⟩,
  ⟨0x3700, 0x3700, 0xB, 0xB, .u 8, 1, 3, 9, .n 0, .any⟩,
  ⟨0x3700, 0x3700, 0xC, 0xC, .u 8, 1, 3, 9, .n 5, .ge 1⟩,
  ⟨0x3700, 0x3700, 0xD, 0xD, .u 8, 1, 3, 9, .n 0, .le 11⟩,
  ⟨0x3700, 0x3700, 0xE, 0xE, .u 32, 1, 3, 9, .n 30000, .any⟩,
  ⟨0x3700, 0x3700, 0xF, 0xF, .u 32, 1, 6, 8, .n 0, .any⟩,
  ⟨0x3710, 0x371B, 0x1, 0x1, .u 16, 1, 3, 9, .n 15211, .any⟩,
  ⟨0x3710, 0x371B, 0x2, 0x2, .u 8, 1, 3, 9, .group, .le 11⟩]

/-- Objects 0x3800 … 0x38FF. -/
def rows38 : List Row := [
  ⟨0x3800, 0x3800, 0x1, 0x1, .bool, 1, 3, 9, .n 1, .any⟩,
  ⟨0x3800, 0x3800, 0x2, 0x2, .u 16, 1, 3, 9, .n 1024, .le 4096⟩,
  ⟨0x3800, 0x3800, 0x3, 0x3, .u 16, 1, 3, 9, .n 3072, .btw 1 16384⟩,
  ⟨0x3800, 0x3800, 0x4, 0x4, .u 16, 1, 3, 9, .n 7, .any⟩,
  ⟨0x3800, 0x3800, 0x5, 0x5, .u 16, 1, 3, 9, .n 1024, .any⟩,
  ⟨0x3800, 0x3800, 0x6, 0x6, .method, 6, 2, 0, .n 0, .any⟩,
  ⟨0x3800, 0x3800, 0x7, 0x7, .u 32, 1, 6, 8, .n 0, .any⟩,
  ⟨0x3800, 0x3800, 0x8, 0x8, .u 32, 1, 6, 8, .n 0, .any⟩,
  ⟨0x3800, 0x3800, 0x9, 0x9, .u 16, 1, 6, 8, .n 0, .any⟩,
  ⟨0x3800, 0x3800, 0xA, 0xA, .u 32, 1, 6, 8, .n 0, .any⟩,
  ⟨0x3800, 0x3800, 0xB, 0xB, .u 8, 1, 6, 16, .n 0, .any⟩,
  ⟨0x3801, 0x3801, 0x0, 0xF, .u 16, 1, 3, 9, .n 65535, .any⟩]

/-- Objects 0x4000 … 0x40FF. -/
def rows40 : List Row := [
  ⟨0x4000, 0x40FF, 0x0, 0x47, .u 48, 1, 6, 26, .n 0, .any⟩,
  ⟨0x4000, 0x40FF, 0x48, 0x48, .u 16, 1, 6, 24, .n 0, .any⟩,
  ⟨0x4000, 0x40FF, 0x49, 0x49, .u 8, 0, 6, 16, .n 0, .any⟩,
  ⟨0x4000, 0x40FF, 0x4A, 0x4A, .u 32, 1, 6, 8, .n 0, .any⟩,
  ⟨0x4000, 0x40FF, 0x80, 0xC7, .u 16, 1, 6, 26, .n 0, .any⟩]

/-- Objects 0x4100 … 0x41FF. -/
def rows41 : List Row := [
  ⟨0x4100, 0x41FF, 0x0, 0x0, .u 32, 1, 6, 26, .n 0, .any⟩,
  ⟨0x4100, 0x41FF, 0x1, 0x1, .u 48, 1, 6, 26, .n 0xFFFFFFFFFFFF, .any⟩,
  ⟨0x4100, 0x41FF, 0x2, 0x2, .u 32, 1, 6, 26, .n 0, .any⟩,
  ⟨0x4100, 0x41FF, 0x3, 0x3, .u 48, 1, 6, 26, .n 0xFFFFFFFFFFFF, .any⟩,
  ⟨0x4100, 0x41FF, 0x4, 0x4, .u 32, 1, 6, 26, .n 0, .any⟩,
  ⟨0x4100, 0x41FF, 0x5, 0x5, .u 48, 1, 6, 26, .n 0xFFFFFFFFFFFF, .any⟩,
  ⟨0x4100, 0x41FF, 0x6, 0x6, .u 32, 1, 6, 26, .n 0, .any⟩,
  ⟨0x4100, 0x41FF, 0x7, 0x7, .u 48, 1, 6, 26, .n 0xFFFFFFFFFFFF, .any⟩,
  ⟨0x4100, 0x41FF, 0x8, 0x8, .u 32, 1, 6, 26, .n 0, .any⟩,
  ⟨0x4100, 0x41FF, 0x9, 0x9, .u 48, 1, 6, 26, .n 0xFFFFFFFFFFFF, .any⟩,
  ⟨0x4100, 0x41FF, 0xA, 0xA, .u 32, 1, 6, 26, .n 0, .any⟩,
  ⟨0x4100, 0x41FF, 0xB, 0xB, .u 48, 1, 6, 26, .n 0xFFFFFFFFFFFF, .any⟩,
  ⟨0x4100, 0x41FF, 0xC, 0xC, .u 32, 1, 6, 26, .n 0, .any⟩,
  ⟨0x4100, 0x41FF, 0xD, 0xD, .u 48, 1, 6, 26, .n 0xFFFFFFFFFFFF, .any⟩,
  ⟨0x4100, 0x41FF, 0xE, 0xE, .u 32, 1, 6, 26, .n 0, .any⟩,
  ⟨0x4100, 0x41FF, 0xF, 0xF, .u 48, 1, 6, 26, .n 0xFFFFFFFFFFFF, .any⟩,
  ⟨0x4100, 0x41FF, 0x10, 0x10, .u 32, 1, 6, 26, .n 0, .any⟩,
  ⟨0x4100, 0x41FF, 0x11, 0x11, .u 48, 1, 6, 26, .n 0xFFFFFFFFFFFF, .any⟩,
  ⟨0x4100, 0x41FF, 0x12, 0x12, .u 32, 1, 6, 26, .n 0, .any⟩,
  ⟨0x4100, 0x41FF, 0x13, 0x13, .u 48, 1, 6, 26, .n 0xFFFFFFFFFFFF, .any⟩,
  ⟨0x4100, 0x41FF, 0x14, 0x14, .u 32, 1, 6, 26, .n 0, .any⟩,
  ⟨0x4100, 0x41FF, 0x15, 0x15, .u 48, 1, 6, 26, .n 0xFFFFFFFFFFFF, .any⟩,
  ⟨0x4100, 0x41FF, 0x16, 0x16, .u 32, 1, 6, 26, .n 0, .any⟩,
  ⟨0x4100, 0x41FF, 0x17, 0x17, .u 48, 1, 6, 26, .n 0xFFFFFFFFFFFF, .any⟩,
  ⟨0x4100, 0x41FF, 0x18, 0x18, .u 32, 1, 6, 26, .n 0, .any⟩,
  ⟨0x4100, 0x41FF, 0x19, 0x19, .u 48, 1, 6, 26, .n 0xFFFFFFFFFFFF, .any⟩,
  ⟨0x4100, 0x41FF, 0x1A, 0x1A, .u 32, 1, 6, 26, .n 0, .any⟩,
  ⟨0x4100, 0x41FF, 0x1B, 0x1B, .u 48, 1, 6, 26, .n 0xFFFFFFFFFFFF, .any⟩,
  ⟨0x4100, 0x41FF, 0x1C, 0x1C, .u 32, 1, 6, 26, .n 0, .any⟩,
  ⟨0x4100, 0x41FF, 0x1D, 0x1D, .u 48, 1, 6, 26, .n 0xFFFFFFFFFFFF, .any⟩,
  ⟨0x4100, 0x41FF, 0x1E, 0x1E, .u 32, 1, 6, 26, .n 0, .any⟩,
  ⟨0x4100, 0x41FF, 0x1F, 0x1F, .u 48, 1, 6, 26, .n 0xFFFFFFFFFFFF, .any⟩,
  ⟨0x4100, 0x41FF, 0x20, 0x20, .u 32, 1, 6, 16, .n 0, .any⟩,
  ⟨0x4100, 0x41FF, 0x21, 0x21, .u 48, 1, 6, 16, .n 0xFFFFFFFFFFFF, .any⟩,
  ⟨0x4100, 0x41FF, 0x22, 0x22, .u 32, 1, 6, 16, .n 0, .any⟩,
  ⟨0x4100, 0x41FF, 0x23, 0x23, .u 48, 1, 6, 16, .n 0xFFFFFFFFFFFF, .any⟩]

/-- Objects 0x4200 … 0x42FF. -/
def rows42 : List Row := [
  ⟨0x4200, 0x42FF, 0x1, 0x1, .u 8, 1, 5, 15, .n 15, .oneOf [5, 10, 15, 30, 60]⟩,
  ⟨0x4200, 0x42FF, 0x2, 0x2, .u 8, 1, 5, 15, .n 0, .le 1⟩,
  ⟨0x4200, 0x42FF, 0x3, 0x3, .u 8, 1, 5, 15, .n 1, .btw 1 15⟩,
  ⟨0x4200, 0x42FF, 0x4, 0x4, .u 8, 1, 6, 16, .n 2, .any⟩,
  ⟨0x4200, 0x42FF, 0x5, 0x5, .u 48, 1, 6, 16, .n 0, .any⟩,
  ⟨0x4200, 0x42FF, 0x6, 0x6, .u 48, 1, 6, 16, .n 0, .any⟩,
  ⟨0x4200, 0x42FF, 0x7, 0x7, .u 48, 1, 6, 16, .n 0, .any⟩,
  ⟨0x4200, 0x42FF, 0x8, 0x8, .u 32, 0, 6, 24, .n 0, .any⟩,
  ⟨0x4200, 0x42FF, 0x9, 0x9, .u 32, 0, 6, 24, .n 0, .any⟩,
  ⟨0x4200, 0x42FF, 0xA, 0xA, .u 48, 1, 6, 24, .n 0xFFFFFFFFFFFF, .any⟩,
  ⟨0x4200, 0x42FF, 0xB, 0xB, .u 8, 1, 6, 24, .n 0, .any⟩,
  ⟨0x4200, 0x42FF, 0xC, 0xC, .u 8, 1, 6, 24, .n 0, .any⟩,
  ⟨0x4200, 0x42FF, 0xD, 0xD, .u 32, 1, 6, 8, .n 0, .any⟩]

/-- Objects 0x4300 … 0x43FF. -/
def rows43 : List Row := [
  ⟨0x4300, 0x4300, 0x1, 0x1, .i 16, 1, 5, 15, .n 0, .sbtw (-720) 840⟩,
  ⟨0x4300, 0x4300, 0x2, 0x2, .bool, 1, 5, 15, .n 0, .any⟩,
  ⟨0x4300, 0x4300, 0x3, 0x3, .u 8, 1, 5, 15, .n 60, .btw 1 120⟩,
  ⟨0x4300, 0x4300, 0x4, 0x4, .u 32, 1, 5, 15, .n 0x3B80078, .any⟩,
  ⟨0x4300, 0x4300, 0x5, 0x5, .u 32, 1, 5, 15, .n 0xAB800B4, .any⟩,
  ⟨0x4300, 0x4300, 0x6, 0x6, .u 48, 0, 6, 16, .n 0, .any⟩,
  ⟨0x4300, 0x4300, 0x7, 0x7, .bool, 0, 6, 16, .n 0, .any⟩,
  ⟨0x4301, 0x4304, 0x1, 0x1, .u 8, 1, 5, 15, .n 0, .le 7⟩,
  ⟨0x4301, 0x4304, 0x2, 0x5, .u 32, 1, 5, 15, .season, .any⟩,
  ⟨0x4301, 0x4304, 0x6, 0x9, .u 32, 1, 5, 15, .n 0, .any⟩,
  ⟨0x4301, 0x4304, 0xA, 0xA, .u 8, 0, 6, 16, .n 0, .any⟩,
  ⟨0x4301, 0x4304, 0xB, 0xB, .u 8, 0, 6, 16, .n 0, .any⟩,
  ⟨0x4301, 0x4304, 0xC, 0xC, .u 48, 1, 6, 16, .n 0xFFFFFFFFFFFF, .any⟩,
  ⟨0x4301, 0x4304, 0xD, 0xD, .u 32, 1, 6, 8, .n 0, .any⟩,
  ⟨0x4308, 0x430B, 0x0, 0x3F, .u 32, 1, 5, 15, .n 0, .any⟩,
  ⟨0x4310, 0x431F, 0x0, 0x7, .u 16, 1, 5, 15, .point, .any⟩]

/-- Objects 0x4400 … 0x44FF. -/
def rows44 : List Row := [
  ⟨0x4400, 0x4403, 0x1, 0x1, .u 8, 1, 5, 15, .n 3, .any⟩,
  ⟨0x4400, 0x4403, 0x2, 0x2, .u 8, 1, 5, 15, .n 1, .any⟩,
  ⟨0x4400, 0x4403, 0x3, 0x3, .u 16, 1, 5, 15, .n 0, .any⟩,
  ⟨0x4400, 0x4403, 0x4, 0x4, .u 32, 1, 6, 10, .n 0, .any⟩,
  ⟨0x4400, 0x4403, 0x5, 0x5, .u 48, 1, 6, 10, .n 0, .any⟩,
  ⟨0x4400, 0x4403, 0x6, 0x6, .u 48, 1, 6, 16, .n 0xFFFFFFFFFFFF, .any⟩,
  ⟨0x4400, 0x4403, 0x7, 0x7, .method, 6, 2, 2, .n 0, .any⟩,
  ⟨0x4404, 0x4404, 0x1, 0x1, .u 32, 1, 6, 10, .n 0, .any⟩,
  ⟨0x4404, 0x4404, 0x2, 0x2, .u 48, 1, 6, 8, .n 0, .any⟩,
  ⟨0x4404, 0x4404, 0x3, 0x3, .u 48, 1, 6, 8, .n 0xFFFFFFFFFFFF, .any⟩,
  ⟨0x4404, 0x4404, 0x4, 0x4, .u 8, 1, 6, 8, .n 15, .any⟩,
  ⟨0x4404, 0x4404, 0x5, 0x5, .u 32, 1, 6, 8, .n 0, .any⟩,
  ⟨0x4404, 0x4404, 0x6, 0x6, .u 32, 1, 6, 8, .n 0, .any⟩,
  ⟨0x4404, 0x4404, 0x7, 0x7, .u 32, 1, 6, 8, .n 0, .any⟩,
  ⟨0x4405, 0x4405, 0x1, 0x1, .bool, 0, 6, 24, .n 0, .any⟩,
  ⟨0x4405, 0x4405, 0x2, 0x2, .u 8, 1, 6, 8, .n 0, .any⟩,
  ⟨0x4405, 0x4405, 0x3, 0x3, .u 64, 3, 6, 10, .n 0, .any⟩,
  ⟨0x4405, 0x4405, 0x4, 0x4, .u 64, 6, 3, 16, .n 0, .any⟩,
  ⟨0x4405, 0x4405, 0x5, 0x5, .oct 16, 1, 6, 10, .n (2 ^ 128 - 1), .any⟩,
  ⟨0x4405, 0x4405, 0x6, 0x6, .oct 16, 1, 6, 16, .n (2 ^ 128 - 1), .any⟩,
  ⟨0x4405, 0x4405, 0x7, 0x7, .method, 6, 5, 2, .n 0, .any⟩,
  ⟨0x4405, 0x4405, 0x8, 0x8, .u 48, 1, 6, 8, .n 0, .any⟩,
  ⟨0x4405, 0x4405, 0x9, 0x9, .u 48, 1, 6, 8, .n 0, .any⟩,
  ⟨0x4408, 0x4408, 0x0, 0x5F, .oct 32, 1, 6, 8, .n 0, .any⟩,
  ⟨0x4408, 0x4408, 0x60, 0x63, .u 8, 1, 6, 8, .n 0, .any⟩]

/-- Objects 0x4500 … 0x45FF. -/
def rows45 : List Row := [
  ⟨0x4500, 0x45FF, 0x1, 0x1, .u 48, 0, 6, 24, .n 0, .any⟩,
  ⟨0x4500, 0x45FF, 0x2, 0x2, .u 48, 0, 6, 24, .n 0, .any⟩,
  ⟨0x4500, 0x45FF, 0x3, 0x3, .u 8, 1, 6, 10, .n 0, .any⟩,
  ⟨0x4500, 0x45FF, 0x4, 0x4, .u 48, 1, 6, 10, .n 0, .any⟩,
  ⟨0x4500, 0x45FF, 0x5, 0x5, .u 48, 1, 6, 8, .n 0, .any⟩,
  ⟨0x4500, 0x45FF, 0x6, 0x6, .u 32, 1, 6, 8, .n 0, .any⟩,
  ⟨0x4500, 0x45FF, 0x7, 0x7, .u 32, 1, 6, 8, .n 0, .any⟩]

/-- Objects 0x4600 … 0x46FF. -/
def rows46 : List Row := [
  ⟨0x4600, 0x4600, 0x1, 0x1, .i 48, 1, 6, 24, .n 0, .any⟩,
  ⟨0x4600, 0x4600, 0x2, 0x2, .u 16, 1, 3, 9, .n 30, .any⟩,
  ⟨0x4600, 0x4600, 0x3, 0x3, .u 32, 1, 3, 9, .n 2000, .any⟩,
  ⟨0x4600, 0x4600, 0x4, 0x4, .u 32, 1, 3, 9, .n 50, .any⟩,
  ⟨0x4600, 0x4600, 0x5, 0x5, .i 32, 1, 6, 16, .n 0, .any⟩,
  ⟨0x4600, 0x4600, 0x6, 0x6, .u 8, 1, 6, 16, .n 0, .any⟩,
  ⟨0x4600, 0x4600, 0x7, 0x7, .u 32, 1, 6, 8, .n 0, .any⟩,
  ⟨0x4600, 0x4600, 0x8, 0x8, .u 32, 1, 6, 8, .n 0, .any⟩]

/-- Objects 0x5000 … 0x50FF. -/
def rows50 : List Row := [
  ⟨0x5000, 0x5007, 0x1, 0x1, .bool, 1, 3, 15, .n 0, .any⟩,
  ⟨0x5000, 0x5007, 0x2, 0x2, .u 8, 1, 3, 15, .n 0, .any⟩,
  ⟨0x5000, 0x5007, 0x3, 0x3, .u 8, 1, 3, 15, .n 0, .any⟩,
  ⟨0x5000, 0x5007, 0x4, 0x4, .u 32, 1, 3, 15, .n 1000, .any⟩,
  ⟨0x5000, 0x5007, 0x5, 0x5, .u 8, 1, 3, 15, .n 40, .btw 2 80⟩,
  ⟨0x5000, 0x5007, 0x6, 0x6, .bool, 1, 3, 15, .n 0, .any⟩,
  ⟨0x5000, 0x5007, 0x7, 0x7, .u 8, 1, 3, 9, .n 0, .le 1⟩,
  ⟨0x5000, 0x5007, 0x8, 0x8, .oct 32, 1, 3, 15, .n 0, .any⟩,
  ⟨0x5000, 0x5007, 0x9, 0x9, .u 32, 1, 6, 16, .n 0, .any⟩,
  ⟨0x5000, 0x5007, 0xA, 0xA, .u 32, 1, 6, 16, .n 0, .any⟩,
  ⟨0x5000, 0x5007, 0xB, 0xB, .u 32, 1, 6, 16, .n 0, .any⟩,
  ⟨0x5000, 0x5007, 0xC, 0xC, .u 32, 1, 6, 16, .n 0, .any⟩,
  ⟨0x5008, 0x5008, 0x1, 0x1, .bool, 1, 3, 9, .n 0, .any⟩,
  ⟨0x5008, 0x5008, 0x2, 0x2, .u 8, 1, 3, 11, .n 0, .any⟩,
  ⟨0x5008, 0x5008, 0x3, 0x3, .u 8, 1, 3, 11, .n 0, .any⟩,
  ⟨0x5008, 0x5008, 0x4, 0x4, .u 32, 1, 6, 16, .n 0, .any⟩,
  ⟨0x5008, 0x5008, 0x5, 0x5, .u 32, 1, 6, 16, .n 0, .any⟩,
  ⟨0x5008, 0x5008, 0x6, 0x6, .u 32, 1, 6, 16, .n 0, .any⟩,
  ⟨0x5010, 0x5010, 0x0, 0xFF, .u 32, 1, 3, 15, .n 0, .any⟩]

/-- Objects 0x6000 … 0x60FF. -/
def rows60 : List Row := [
  ⟨0x6000, 0x601F, 0x1, 0x1, .u 8, 0, 6, 24, .n 0, .any⟩,
  ⟨0x6000, 0x601F, 0x2, 0x2, .u 8, 1, 6, 8, .n 0, .any⟩,
  ⟨0x6000, 0x601F, 0x3, 0x3, .u 16, 1, 6, 16, .n 0, .any⟩,
  ⟨0x6000, 0x601F, 0x4, 0x4, .u 16, 1, 6, 16, .n 0, .any⟩,
  ⟨0x6000, 0x601F, 0x5, 0x5, .u 32, 1, 6, 8, .n 0, .any⟩,
  ⟨0x6000, 0x601F, 0x6, 0x6, .u 32, 1, 6, 8, .n 0, .any⟩,
  ⟨0x6000, 0x601F, 0x7, 0x7, .u 32, 1, 6, 8, .n 0, .any⟩,
  ⟨0x6000, 0x601F, 0x8, 0x8, .u 32, 1, 6, 8, .n 0, .any⟩,
  ⟨0x6000, 0x601F, 0x9, 0x9, .u 48, 1, 6, 8, .n 0, .any⟩]

/-- Objects 0x6100 … 0x61FF. -/
def rows61 : List Row := [
  ⟨0x6100, 0x61FF, 0x1, 0x1, .u 8, 0, 6, 24, .n 0, .any⟩,
  ⟨0x6100, 0x61FF, 0x2, 0x2, .u 8, 1, 6, 8, .n 0, .any⟩,
  ⟨0x6100, 0x61FF, 0x3, 0x3, .u 8, 1, 6, 16, .n 0, .any⟩,
  ⟨0x6100, 0x61FF, 0x4, 0x4, .u 8, 1, 6, 16, .n 0, .any⟩,
  ⟨0x6100, 0x61FF, 0x5, 0x5, .u 32, 1, 6, 8, .n 0, .any⟩,
  ⟨0x6100, 0x61FF, 0x6, 0x6, .u 32, 1, 6, 8, .n 0, .any⟩,
  ⟨0x6100, 0x61FF, 0x7, 0x7, .i 16, 1, 6, 16, .n 0, .any⟩,
  ⟨0x6100, 0x61FF, 0x8, 0x8, .u 48, 1, 6, 8, .n 0, .any⟩]

/-- Objects 0x6200 … 0x62FF. -/
def rows62 : List Row := [
  ⟨0x6200, 0x620B, 0x1, 0x1, .u 8, 0, 6, 24, .n 0, .any⟩,
  ⟨0x6200, 0x620B, 0x2, 0x2, .u 8, 1, 6, 8, .n 0, .any⟩,
  ⟨0x6200, 0x620B, 0x3, 0x3, .u 8, 1, 6, 16, .n 0, .any⟩,
  ⟨0x6200, 0x620B, 0x4, 0x4, .u 8, 1, 6, 16, .n 0, .any⟩,
  ⟨0x6200, 0x620B, 0x5, 0x5, .u 8, 1, 4, 15, .n 254, .orB (.le 11) (.ge 0xFE)⟩,
  ⟨0x6200, 0x620B, 0x6, 0x6, .u 8, 0, 6, 16, .n 253, .any⟩,
  ⟨0x6200, 0x620B, 0x7, 0x7, .u 16, 1, 6, 16, .n 0, .any⟩,
  ⟨0x6200, 0x620B, 0x8, 0x8, .u 32, 1, 6, 16, .n 0x40000000, .any⟩,
  ⟨0x6200, 0x620B, 0x9, 0x9, .u 32, 1, 6, 8, .n 0, .any⟩,
  ⟨0x6200, 0x620B, 0xA, 0xA, .u 48, 1, 6, 8, .n 0, .any⟩]

/-- Objects 0x6300 … 0x63FF. -/
def rows63 : List Row := [
  ⟨0x6300, 0x6300, 0x1, 0x1, .u 8, 1, 6, 8, .n 64, .any⟩,
  ⟨0x6300, 0x6300, 0x2, 0x2, .u 16, 1, 6, 8, .n 0, .any⟩,
  ⟨0x6300, 0x6300, 0x3, 0x3, .u 32, 1, 6, 8, .n 0, .any⟩,
  ⟨0x6300, 0x6300, 0x4, 0x4, .u 16, 1, 6, 8, .n 0, .any⟩,
  ⟨0x6300, 0x6300, 0x5, 0x5, .u 32, 1, 6, 8, .n 0, .any⟩,
  ⟨0x6300, 0x6300, 0x6, 0x8, .u 8, 0, 6, 24, .n 0, .any⟩,
  ⟨0x6300, 0x6300, 0x9, 0x9, .u 32, 1, 6, 8, .n 0, .any⟩,
  ⟨0x6300, 0x6300, 0xA, 0xA, .u 32, 1, 6, 8, .n 0, .any⟩,
  ⟨0x6301, 0x6301, 0x1, 0x1, .method, 6, 4, 2, .n 0, .any⟩,
  ⟨0x6302, 0x6302, 0x1, 0x1, .u 16, 1, 4, 15, .n 500, .btw 100 5000⟩,
  ⟨0x6302, 0x6302, 0x2, 0x2, .u 16, 1, 4, 15, .n 20, .btw 4 1000⟩,
  ⟨0x6302, 0x6302, 0x3, 0x3, .u 16, 1, 4, 15, .n 5000, .btw 1000 50000⟩,
  ⟨0x6302, 0x6302, 0x4, 0x4, .u 16, 1, 4, 15, .n 64, .btw 16 4096⟩,
  ⟨0x6302, 0x6302, 0x5, 0x5, .u 16, 1, 4, 15, .n 256, .btw 16 4096⟩,
  ⟨0x6302, 0x6302, 0x6, 0x6, .u 8, 1, 4, 15, .n 3, .btw 2 16⟩,
  ⟨0x6302, 0x6302, 0x7, 0x7, .u 8, 1, 4, 15, .n 8, .btw 1 64⟩,
  ⟨0x6302, 0x6302, 0x8, 0x8, .u 16, 1, 4, 15, .n 50, .btw 20 400⟩,
  ⟨0x6302, 0x6302, 0x9, 0x9, .u 16, 1, 4, 15, .n 1024, .btw 256 16384⟩,
  ⟨0x6302, 0x6302, 0xA, 0xA, .u 8, 1, 6, 0, .n 3, .any⟩,
  ⟨0x6302, 0x6302, 0xB, 0xB, .u 16, 1, 3, 9, .n 600, .btw 60 3600⟩]

/-- Objects 0x7000 … 0x70FF. -/
def rows70 : List Row := [
  ⟨0x7000, 0x7000, 0x1, 0x1, .u 48, 1, 6, 16, .n 0, .any⟩,
  ⟨0x7000, 0x7000, 0x2, 0x2, .u 8, 1, 5, 11, .n 16, .btw 8 60⟩,
  ⟨0x7000, 0x7000, 0x3, 0x3, .u 8, 1, 5, 11, .n 1, .le 3⟩,
  ⟨0x7000, 0x7000, 0x4, 0x4, .u 16, 1, 6, 16, .n 0, .any⟩,
  ⟨0x7000, 0x7000, 0x5, 0x5, .u 16, 1, 6, 16, .n 0, .any⟩,
  ⟨0x7000, 0x7000, 0x6, 0x6, .u 16, 1, 6, 16, .n 0, .any⟩,
  ⟨0x7000, 0x7000, 0x7, 0x7, .u 32, 1, 6, 8, .n 0, .any⟩,
  ⟨0x7000, 0x7000, 0x8, 0x8, .u 32, 1, 6, 16, .n 0, .any⟩,
  ⟨0x7000, 0x7000, 0x9, 0x9, .u 8, 1, 6, 16, .n 0, .any⟩,
  ⟨0x7000, 0x7000, 0xA, 0xA, .u 48, 1, 6, 8, .n 0, .any⟩,
  ⟨0x7000, 0x7000, 0xB, 0xB, .u 32, 1, 6, 8, .n 0, .any⟩,
  ⟨0x7001, 0x7001, 0x1, 0x1, .method, 6, 1, 0, .n 0, .any⟩,
  ⟨0x7001, 0x7001, 0x2, 0x2, .method, 6, 3, 2, .n 0, .any⟩,
  ⟨0x7001, 0x7001, 0x3, 0x3, .method, 6, 5, 0, .n 0, .any⟩,
  ⟨0x7002, 0x7002, 0x0, 0x27, .u 8, 1, 3, 9, .n 0, .le 1⟩,
  ⟨0x7004, 0x7007, 0x0, 0xFF, .u 8, 1, 6, 16, .n 1, .any⟩,
  ⟨0x7008, 0x700F, 0x0, 0xFF, .u 32, 1, 6, 8, .n 0, .any⟩,
  ⟨0x7010, 0x7010, 0x0, 0x3F, .u 32, 1, 6, 8, .n 0, .any⟩,
  ⟨0x7018, 0x7018, 0x1, 0x1, .u 8, 1, 3, 9, .n 0, .le 20⟩,
  ⟨0x7018, 0x7018, 0x2, 0x2, .method, 6, 3, 0, .n 0, .any⟩,
  ⟨0x7018, 0x7018, 0x3, 0x3, .method, 6, 5, 2, .n 0, .any⟩,
  ⟨0x7020, 0x7033, 0x1, 0x1, .oct 248, 1, 6, 16, .n 0, .any⟩,
  ⟨0x7020, 0x7033, 0x2, 0x2, .u 16, 1, 6, 16, .n 0, .any⟩,
  ⟨0x7020, 0x7033, 0x3, 0x3, .u 32, 1, 6, 16, .n 0, .any⟩,
  ⟨0x7020, 0x7033, 0x4, 0x4, .u 8, 1, 6, 16, .n 2, .any⟩,
  ⟨0x7038, 0x703F, 0x1, 0x1, .u 8, 1, 6, 16, .n 0, .any⟩,
  ⟨0x7040, 0x7040, 0x1, 0x1, .u 16, 1, 5, 11, .n 330, .btw 330 2200⟩,
  ⟨0x7040, 0x7040, 0x2, 0x2, .u 8, 1, 6, 16, .n 64, .any⟩,
  ⟨0x7040, 0x7040, 0x3, 0x3, .u 48, 1, 6, 8, .n 0, .any⟩,
  ⟨0x7040, 0x7040, 0x4, 0x4, .u 8, 1, 6, 8, .n 0, .any⟩,
  ⟨0x7040, 0x7040, 0x5, 0x5, .u 8, 1, 6, 8, .n 0, .any⟩,
  ⟨0x7040, 0x7040, 0x6, 0x6, .u 32, 1, 6, 8, .n 0, .any⟩,
  ⟨0x7040, 0x7040, 0x7, 0x7, .u 32, 1, 6, 8, .n 0, .any⟩,
  ⟨0x7040, 0x7040, 0x8, 0x8, .u 16, 1, 3, 9, .n 0, .any⟩,
  ⟨0x7040, 0x7040, 0x9, 0x9, .method, 6, 3, 0, .n 0, .any⟩,
  ⟨0x7040, 0x7040, 0xA, 0xA, .method, 6, 3, 0, .n 0, .any⟩,
  ⟨0x7040, 0x7040, 0xB, 0xB, .u 48, 1, 6, 16, .n 0, .any⟩]

/-- Objects 0x7300 … 0x73FF. -/
def rows73 : List Row := [
  ⟨0x7300, 0x7300, 0x1, 0x1, .bool, 1, 3, 9, .n 1, .any⟩,
  ⟨0x7300, 0x7300, 0x2, 0x2, .u 8, 1, 3, 9, .n 15, .oneOf [5, 10, 15, 30, 60]⟩,
  ⟨0x7300, 0x7300, 0x3, 0x3, .u 8, 1, 3, 9, .n 63, .ge 1⟩,
  ⟨0x7300, 0x7300, 0x4, 0x4, .oct 32, 1, 3, 9, .n (2 ^ 256 - 1), .any⟩,
  ⟨0x7300, 0x7300, 0x5, 0x5, .u 32, 1, 6, 8, .n 0, .any⟩,
  ⟨0x7300, 0x7300, 0x6, 0x6, .u 32, 1, 6, 8, .n 0, .any⟩,
  ⟨0x7300, 0x7300, 0x7, 0x7, .u 32, 1, 6, 8, .n 0x1000000, .any⟩,
  ⟨0x7300, 0x7300, 0x8, 0x8, .method, 6, 1, 0, .n 0, .any⟩,
  ⟨0x7300, 0x7300, 0x9, 0x9, .u 16, 1, 5, 9, .n 150, .le 1439⟩,
  ⟨0x7300, 0x7300, 0xA, 0xA, .u 32, 1, 6, 8, .n 0, .any⟩,
  ⟨0x7300, 0x7300, 0xB, 0xB, .method, 6, 5, 0, .n 0, .any⟩]

/-- Objects 0x7400 … 0x74FF. -/
def rows74 : List Row := [
  ⟨0x7400, 0x7400, 0x1, 0x1, .u 32, 1, 6, 8, .n 0, .any⟩,
  ⟨0x7400, 0x7400, 0x2, 0x2, .u 32, 1, 6, 8, .n 0, .any⟩,
  ⟨0x7400, 0x7400, 0x3, 0x3, .method, 6, 1, 0, .n 0, .any⟩,
  ⟨0x7400, 0x7400, 0x4, 0x4, .u 32, 1, 6, 8, .n 0, .any⟩]

/-- Objects 0x8000 … 0x80FF. -/
def rows80 : List Row := [
  ⟨0x8000, 0x8000, 0x1, 0x1, .u 8, 1, 6, 10, .n 0, .any⟩,
  ⟨0x8000, 0x8000, 0x2, 0x2, .u 8, 1, 6, 16, .n 0, .any⟩,
  ⟨0x8000, 0x8000, 0x3, 0x3, .u 8, 1, 6, 16, .n 255, .any⟩,
  ⟨0x8000, 0x8000, 0x4, 0x4, .method, 6, 3, 0, .n 0, .any⟩,
  ⟨0x8000, 0x8000, 0x5, 0x5, .method, 6, 3, 0, .n 0, .any⟩,
  ⟨0x8000, 0x8000, 0x6, 0x6, .method, 6, 3, 0, .n 0, .any⟩,
  ⟨0x8000, 0x8000, 0x7, 0x7, .method, 6, 3, 2, .n 0, .any⟩,
  ⟨0x8000, 0x8000, 0x8, 0x8, .method, 6, 3, 0, .n 0, .any⟩,
  ⟨0x8000, 0x8000, 0x9, 0x9, .oct 32, 1, 6, 16, .n 0, .any⟩,
  ⟨0x8000, 0x8000, 0xA, 0xA, .u 32, 1, 6, 16, .n 0, .any⟩,
  ⟨0x8000, 0x8000, 0xB, 0xB, .u 8, 1, 6, 16, .n 0, .any⟩,
  ⟨0x8000, 0x8000, 0xC, 0xC, .u 16, 1, 6, 16, .n 0, .any⟩,
  ⟨0x8000, 0x8000, 0xD, 0xD, .u 16, 1, 6, 16, .n 0, .any⟩,
  ⟨0x8000, 0x8000, 0xE, 0xE, .oct 3840, 1, 6, 16, .n 0, .any⟩,
  ⟨0x8000, 0x8000, 0xF, 0xF, .u 48, 1, 6, 16, .n 0, .any⟩,
  ⟨0x8000, 0x8000, 0x10, 0x10, .u 16, 1, 6, 16, .n 0, .any⟩,
  ⟨0x8000, 0x8000, 0x11, 0x11, .u 8, 1, 6, 8, .n 0, .any⟩,
  ⟨0x8000, 0x8000, 0x12, 0x12, .u 32, 1, 6, 8, .n 0, .any⟩,
  ⟨0x8000, 0x8000, 0x13, 0x13, .u 32, 1, 6, 8, .n 0, .any⟩,
  ⟨0x8000, 0x8000, 0x14, 0x14, .u 32, 1, 6, 8, .n 0, .any⟩,
  ⟨0x8001, 0x8002, 0x1, 0x1, .u 8, 1, 6, 8, .n 0, .any⟩,
  ⟨0x8001, 0x8002, 0x2, 0x2, .oct 256, 1, 6, 8, .n 0, .any⟩,
  ⟨0x8001, 0x8002, 0x3, 0x3, .oct 4, 0, 6, 8, .n 0, .any⟩,
  ⟨0x8001, 0x8002, 0x4, 0x4, .u 8, 1, 6, 8, .n 128, .any⟩]

/-- Objects 0x8100 … 0x81FF. -/
def rows81 : List Row := [
  ⟨0x8100, 0x8100, 0x1, 0x1, .oct 32, 0, 6, 0, .test, .any⟩,
  ⟨0x8100, 0x8100, 0x2, 0x2, .u 8, 0, 6, 2, .n 0, .any⟩,
  ⟨0x8100, 0x8100, 0x3, 0x6, .oct 33, 0, 6, 2, .n 0, .any⟩,
  ⟨0x8100, 0x8100, 0x7, 0x7, .method, 6, 5, 2, .n 0, .any⟩,
  ⟨0x8100, 0x8100, 0x8, 0x8, .oct 3756, 0, 6, 0, .cert, .any⟩,
  ⟨0x8101, 0x8101, 0x1, 0x1, .u 16, 0, 6, 16, .n 0, .any⟩,
  ⟨0x8101, 0x8101, 0x2, 0x2, .oct 32, 0, 6, 10, .n 0, .any⟩,
  ⟨0x8101, 0x8101, 0x3, 0x3, .u 32, 1, 6, 10, .n 0, .any⟩]

/-- Objects 0x8200 … 0x82FF. -/
def rows82 : List Row := [
  ⟨0x8200, 0x8200, 0x1, 0x1, .u 32, 1, 6, 8, .n 0, .any⟩,
  ⟨0x8200, 0x8200, 0x2, 0x2, .u 32, 1, 6, 8, .n 0, .any⟩,
  ⟨0x8200, 0x8200, 0x3, 0x3, .u 48, 1, 6, 8, .n 0, .any⟩,
  ⟨0x8200, 0x8200, 0x4, 0x4, .u 16, 0, 6, 0, .n 1, .any⟩,
  ⟨0x8200, 0x8200, 0x5, 0x5, .u 8, 0, 6, 0, .n 120, .any⟩,
  ⟨0x8200, 0x8200, 0x6, 0x6, .u 8, 0, 6, 0, .n 50, .any⟩]

/-- The rows of the objects whose index has this high byte. -/
def rowsOf (page : Nat) : List Row :=
  if page = 0x10 then rows10
  else if page = 0x11 then rows11
  else if page = 0x12 then rows12
  else if page = 0x13 then rows13
  else if page = 0x14 then rows14
  else if page = 0x18 then rows18
  else if page = 0x20 then rows20
  else if page = 0x21 then rows21
  else if page = 0x22 then rows22
  else if page = 0x23 then rows23
  else if page = 0x24 then rows24
  else if page = 0x25 then rows25
  else if page = 0x30 then rows30
  else if page = 0x31 then rows31
  else if page = 0x32 then rows32
  else if page = 0x33 then rows33
  else if page = 0x34 then rows34
  else if page = 0x35 then rows35
  else if page = 0x36 then rows36
  else if page = 0x37 then rows37
  else if page = 0x38 then rows38
  else if page = 0x40 then rows40
  else if page = 0x41 then rows41
  else if page = 0x42 then rows42
  else if page = 0x43 then rows43
  else if page = 0x44 then rows44
  else if page = 0x45 then rows45
  else if page = 0x46 then rows46
  else if page = 0x50 then rows50
  else if page = 0x60 then rows60
  else if page = 0x61 then rows61
  else if page = 0x62 then rows62
  else if page = 0x63 then rows63
  else if page = 0x70 then rows70
  else if page = 0x73 then rows73
  else if page = 0x74 then rows74
  else if page = 0x80 then rows80
  else if page = 0x81 then rows81
  else if page = 0x82 then rows82
  else []

end Sys2Proof.Machine
end

