-- ==== Sys2Proof/Machine/Keys.lean ====
section
/-! DEFINITION. The keys of the objects: index * 256 + subindex, under the names of the object tables; `n` numbers the
objects of an index range, `i` those of a subindex range. -/

namespace Sys2Proof.Machine.K

/-- UNIT_ID -/
abbrev idUnitId : Nat := 0x100001
/-- HW_TYPE -/
abbrev idHwType : Nat := 0x100002
/-- ORDER_CODE -/
abbrev idOrderCode : Nat := 0x100003
/-- SILICON_REV -/
abbrev idSiliconRev : Nat := 0x100004
/-- ROM_REV -/
abbrev idRomRev : Nat := 0x100005
/-- ROM_CHECK -/
abbrev idRomCheck : Nat := 0x100006
/-- CHECK -/
abbrev idCheck : Nat := 0x100007
/-- LEGAL_DIGEST -/
abbrev idLegalDigest : Nat := 0x100008
/-- OP_VERSION -/
abbrev idOpVersion : Nat := 0x100009
/-- DICT_VERSION -/
abbrev idDictVersion : Nat := 0x10000A
/-- MFG_TIME -/
abbrev idMfgTime : Nat := 0x10000B
/-- TIME48 -/
abbrev timeTime48 : Nat := 0x110001
/-- TIME_VALID -/
abbrev timeTimeValid : Nat := 0x110002
/-- FN -/
abbrev timeFn : Nat := 0x110003
/-- TIME_SET -/
abbrev timeTimeSet : Nat := 0x110004
/-- SOURCE_MASK -/
abbrev timeSourceMask : Nat := 0x110005
/-- LAST_SOURCE -/
abbrev timeLastSource : Nat := 0x110006
/-- LAST_SET_FN -/
abbrev timeLastSetFn : Nat := 0x110007
/-- SLEW_LEFT -/
abbrev timeSlewLeft : Nat := 0x110008
/-- INVALID_FN -/
abbrev timeInvalidFn : Nat := 0x110009
/-- IRQ_MASK -/
abbrev spiIrqMask : Nat := 0x120001
/-- CAUSES -/
abbrev spiCauses : Nat := 0x120002
/-- CRC_ERRORS -/
abbrev spiCrcErrors : Nat := 0x120003
/-- PUT_REFUSED -/
abbrev spiPutRefused : Nat := 0x120004
/-- CS_COLLISIONS -/
abbrev spiCsCollisions : Nat := 0x120005
/-- LEGACY_READS -/
abbrev spiLegacyReads : Nat := 0x120006
/-- LEGACY_WRITES_IGNORED -/
abbrev spiLegacyWritesIgnored : Nat := 0x120007
/-- LEGACY_EVENT_MASK -/
abbrev spiLegacyEventMask : Nat := 0x120008
/-- RX_DISCARDED -/
abbrev spiRxDiscarded : Nat := 0x120009
/-- ENABLE -/
abbrev t1sEnable : Nat := 0x120101
/-- PLCA_EN -/
abbrev t1sPlcaEn : Nat := 0x120102
/-- NODE_ID -/
abbrev t1sNodeId : Nat := 0x120103
/-- NODE_COUNT -/
abbrev t1sNodeCount : Nat := 0x120104
/-- TO_TIMER -/
abbrev t1sToTimer : Nat := 0x120105
/-- BURST_COUNT -/
abbrev t1sBurstCount : Nat := 0x120106
/-- MAC_ADDR -/
abbrev t1sMacAddr : Nat := 0x120107
/-- UNICAST_ADDR -/
abbrev t1sUnicastAddr : Nat := 0x120108
/-- PREFIX_LEN -/
abbrev t1sPrefixLen : Nat := 0x120109
/-- ROUTER -/
abbrev t1sRouter : Nat := 0x12010A
/-- LINK_LOCAL -/
abbrev t1sLinkLocal : Nat := 0x12010B
/-- DAD_STATE -/
abbrev t1sDadState : Nat := 0x12010C
/-- ECHO_EN -/
abbrev t1sEchoEn : Nat := 0x12010D
/-- UDP_PORT -/
abbrev t1sUdpPort : Nat := 0x12010E
/-- RX_FRAMES -/
abbrev t1sRxFrames : Nat := 0x12010F
/-- RX_DISCARDED -/
abbrev t1sRxDiscarded : Nat := 0x120110
/-- TX_FRAMES -/
abbrev t1sTxFrames : Nat := 0x120111
/-- SESSION_TIMEOUT -/
abbrev sesSessionTimeout : Nat := 0x120201
/-- SESSIONS_OPEN -/
abbrev sesSessionsOpen : Nat := 0x120202
/-- AUTH_FAILS -/
abbrev sesAuthFails : Nat := 0x120203
/-- REPLAYS -/
abbrev sesReplays : Nat := 0x120204
/-- HELLO_DENIED -/
abbrev sesHelloDenied : Nat := 0x120205
/-- END_SESSION -/
abbrev sesEndSession : Nat := 0x120206
/-- SPI_ROLE -/
abbrev sesSpiRole : Nat := 0x120207
/-- ROLE_KEY-r -/
abbrev sesRoleKey (i : Nat) : Nat := 0x120301 + i
/-- KEYS_SET -/
abbrev sesKeysSet : Nat := 0x120306
/-- PORT -/
abbrev slotPort (n : Nat) : Nat := 0x121001 + 256 * n
/-- ROLE -/
abbrev slotRole (n : Nat) : Nat := 0x121002 + 256 * n
/-- PEER -/
abbrev slotPeer (n : Nat) : Nat := 0x121003 + 256 * n
/-- OPENED_FN -/
abbrev slotOpenedFn (n : Nat) : Nat := 0x121004 + 256 * n
/-- LAST_FN -/
abbrev slotLastFn (n : Nat) : Nat := 0x121005 + 256 * n
/-- ENABLE -/
abbrev plcEnable : Nat := 0x130001
/-- BAND -/
abbrev plcBand : Nat := 0x130002
/-- STATE -/
abbrev plcState : Nat := 0x130003
/-- PAN_ID -/
abbrev plcPanId : Nat := 0x130004
/-- SHORT_ADDR -/
abbrev plcShortAddr : Nat := 0x130005
/-- EUI64 -/
abbrev plcEui64 : Nat := 0x130006
/-- PSK -/
abbrev plcPsk : Nat := 0x130007
/-- PSK_SET -/
abbrev plcPskSet : Nat := 0x130008
/-- TX_ATTEN -/
abbrev plcTxAtten : Nat := 0x130009
/-- MAX_HOPS -/
abbrev plcMaxHops : Nat := 0x13000A
/-- PLC_PREFIX -/
abbrev plcPlcPrefix : Nat := 0x13000B
/-- JOINS -/
abbrev plcJoins : Nat := 0x13000C
/-- RX_FRAMES -/
abbrev plcRxFrames : Nat := 0x130101
/-- RX_DISCARDED -/
abbrev plcRxDiscarded : Nat := 0x130102
/-- TX_FRAMES -/
abbrev plcTxFrames : Nat := 0x130103
/-- RETRANSMISSIONS -/
abbrev plcRetransmissions : Nat := 0x130104
/-- TX_FAILED -/
abbrev plcTxFailed : Nat := 0x130105
/-- FOREIGN_BEACONS -/
abbrev plcForeignBeacons : Nat := 0x130106
/-- PANID_CONFLICTS -/
abbrev plcPanidConflicts : Nat := 0x130107
/-- STRANGER_DEFER_MS -/
abbrev plcStrangerDeferMs : Nat := 0x130108
/-- STRANGER_FORCED -/
abbrev plcStrangerForced : Nat := 0x130109
/-- STRANGER_LVL -/
abbrev plcStrangerLvl : Nat := 0x13010A
/-- STRANGER_MAX -/
abbrev plcStrangerMax : Nat := 0x13010B
/-- TB_ROLE -/
abbrev tbTbRole : Nat := 0x130201
/-- TIME_PHASE -/
abbrev tbTimePhase : Nat := 0x130202
/-- TB_STATE -/
abbrev tbTbState : Nat := 0x130203
/-- TB_CHANNEL -/
abbrev tbTbChannel : Nat := 0x130204
/-- NET_CYCLE -/
abbrev tbNetCycle : Nat := 0x130205
/-- NET_CYCLE_TAP -/
abbrev tbNetCycleTap : Nat := 0x130206
/-- DEPTH -/
abbrev tbDepth : Nat := 0x130207
/-- PHASE_CLASS -/
abbrev tbPhaseClass : Nat := 0x130208
/-- DELTA -/
abbrev tbDelta : Nat := 0x130209
/-- LEADER_ID -/
abbrev tbLeaderId : Nat := 0x13020A
/-- ANNOUNCE_PERIOD -/
abbrev tbAnnouncePeriod : Nat := 0x13020B
/-- TB_REJECTED -/
abbrev tbTbRejected : Nat := 0x13020C
/-- HOLDOVERS -/
abbrev tbHoldovers : Nat := 0x13020D
/-- FOREIGN_LEADERS -/
abbrev tbForeignLeaders : Nat := 0x13020E
/-- CYCLE_MAP -/
abbrev tbCycleMap : Nat := 0x13020F
/-- LC_HOP -/
abbrev lfLcHop : Nat := 0x130301
/-- LQI_REF -/
abbrev lfLqiRef : Nat := 0x130302
/-- KQ -/
abbrev lfKq : Nat := 0x130303
/-- KR -/
abbrev lfKr : Nat := 0x130304
/-- KP -/
abbrev lfKp : Nat := 0x130305
/-- REPEATER -/
abbrev lfRepeater : Nat := 0x130306
/-- OFFER_COST -/
abbrev lfOfferCost : Nat := 0x130307
/-- ROUTE_HOLD -/
abbrev lfRouteHold : Nat := 0x130308
/-- OFFERING -/
abbrev lfOffering : Nat := 0x130309
/-- N_ADDR -/
abbrev nbNAddr (n : Nat) : Nat := 0x131001 + 256 * n
/-- N_LQI_FWD -/
abbrev nbNLqiFwd (n : Nat) : Nat := 0x131002 + 256 * n
/-- N_LQI_REV -/
abbrev nbNLqiRev (n : Nat) : Nat := 0x131003 + 256 * n
/-- N_RTX -/
abbrev nbNRtx (n : Nat) : Nat := 0x131004 + 256 * n
/-- N_PHASE -/
abbrev nbNPhase (n : Nat) : Nat := 0x131005 + 256 * n
/-- N_COST -/
abbrev nbNCost (n : Nat) : Nat := 0x131006 + 256 * n
/-- N_STATE -/
abbrev nbNState (n : Nat) : Nat := 0x131007 + 256 * n
/-- N_LAST_FN -/
abbrev nbNLastFn (n : Nat) : Nat := 0x131008 + 256 * n
/-- R_DEST -/
abbrev rtRDest (n : Nat) : Nat := 0x138001 + 256 * n
/-- R_NEXT -/
abbrev rtRNext (n : Nat) : Nat := 0x138002 + 256 * n
/-- R_COST -/
abbrev rtRCost (n : Nat) : Nat := 0x138003 + 256 * n
/-- R_HOPS -/
abbrev rtRHops (n : Nat) : Nat := 0x138004 + 256 * n
/-- R_AGE -/
abbrev rtRAge (n : Nat) : Nat := 0x138005 + 256 * n
/-- SUPPLY_STATUS -/
abbrev supSupplyStatus : Nat := 0x140001
/-- VDD33_MV -/
abbrev supVdd33Mv : Nat := 0x140002
/-- VLD_MV -/
abbrev supVldMv : Nat := 0x140003
/-- VHOLD_MV -/
abbrev supVholdMv : Nat := 0x140004
/-- VBAT_MV -/
abbrev supVbatMv : Nat := 0x140005
/-- HOLD_CAP -/
abbrev supHoldCap : Nat := 0x140006
/-- START_CAUSE -/
abbrev supStartCause : Nat := 0x140007
/-- STARTS -/
abbrev supStarts : Nat := 0x140008
/-- LAST_MODE -/
abbrev supLastMode : Nat := 0x140009
/-- PFW_COUNT -/
abbrev supPfwCount : Nat := 0x14000A
/-- PFW_CAUSE -/
abbrev supPfwCause : Nat := 0x14000B
/-- DOWN_FRAMES -/
abbrev supDownFrames : Nat := 0x14000C
/-- START_MS -/
abbrev supStartMs : Nat := 0x14000D
/-- RESET_GAP_FRAMES -/
abbrev supResetGapFrames : Nat := 0x14000E
/-- GECKO_EN -/
abbrev geckoEn : Nat := 0x140101
/-- GECKO_INTERVAL -/
abbrev geckoInterval : Nat := 0x140102
/-- GECKO_LVL -/
abbrev geckoLvl : Nat := 0x140103
/-- GECKO_LIMIT -/
abbrev geckoLimit : Nat := 0x140104
/-- GECKO_VBAT_MIN -/
abbrev geckoVbatMin : Nat := 0x140105
/-- GECKO_SCANS -/
abbrev geckoScans : Nat := 0x140106
/-- GECKO_LAST_SCANS -/
abbrev geckoLastScans : Nat := 0x140107
/-- GECKO_EVENTS_LOST -/
abbrev geckoEventsLost : Nat := 0x140108
/-- NOMINAL_V -/
abbrev nominalV (n : Nat) : Nat := 0x140201 + 256 * n
/-- CWV_MAH-c -/
abbrev cwvMah (i : Nat) : Nat := 0x141000 + i
/-- GECKO_E-c -/
abbrev geckoE (i : Nat) : Nat := 0x141100 + i
/-- GECKO_FLAGS-c -/
abbrev geckoFlags (i : Nat) : Nat := 0x141200 + i
/-- COVER_POL -/
abbrev coverPol : Nat := 0x142001
/-- MAG_POL -/
abbrev magPol : Nat := 0x142002
/-- COVER_STATE -/
abbrev coverState : Nat := 0x142003
/-- MAG_STATE -/
abbrev magState : Nat := 0x142004
/-- COVER_OPENS -/
abbrev coverOpens : Nat := 0x142005
/-- MAG_DETECTS -/
abbrev magDetects : Nat := 0x142006
/-- TAMPER_LOST -/
abbrev tamperLost : Nat := 0x142007
/-- RTC_VALID -/
abbrev rtcValid : Nat := 0x143001
/-- RTC_TRIM -/
abbrev rtcTrim : Nat := 0x143002
/-- RTC_LOSSES -/
abbrev rtcLosses : Nat := 0x143003
/-- LOAD_CORE0 -/
abbrev loadCore0 : Nat := 0x180001
/-- LOAD_CORE1 -/
abbrev loadCore1 : Nat := 0x180002
/-- LOAD_TANNERY -/
abbrev loadTannery : Nat := 0x180003
/-- LOAD_HALLMARK -/
abbrev loadHallmark : Nat := 0x180004
/-- LOAD_HALLMARK_CYC -/
abbrev loadHallmarkCyc : Nat := 0x180005
/-- PEAK-i -/
abbrev peak (i : Nat) : Nat := 0x180006 + i
/-- LATE_FRAMES -/
abbrev lateFrames : Nat := 0x180009
/-- LOST_FRAMES -/
abbrev lostFrames : Nat := 0x18000A
/-- GENERATION -/
abbrev generation : Nat := 0x18000B
/-- LAST_COMMIT_B -/
abbrev lastCommitB : Nat := 0x18000C
/-- LAST_COMMIT_TXN -/
abbrev lastCommitTxn : Nat := 0x18000D
/-- CREDITS-r -/
abbrev credits (i : Nat) : Nat := 0x180100 + i
/-- STALLS-r (DEDUCED, log 32) -/
abbrev stalls (i : Nat) : Nat := 0x180200 + i
/-- TAGS_FREE -/
abbrev tagsFree : Nat := 0x180301
/-- TAGS_USED-p -/
abbrev tagsUsed (i : Nat) : Nat := 0x180302 + i
/-- FLOAT_USED -/
abbrev floatUsed : Nat := 0x180306
/-- NO_TAG-p -/
abbrev noTag (i : Nat) : Nat := 0x180307 + i
/-- TXN_OPEN -/
abbrev txnTxnOpen : Nat := 0x180401
/-- PINS -/
abbrev txnPins : Nat := 0x180402
/-- COMMITS -/
abbrev txnCommits : Nat := 0x180403
/-- CONFLICTS -/
abbrev txnConflicts : Nat := 0x180404
/-- INVALID_SETS -/
abbrev txnInvalidSets : Nat := 0x180405
/-- TIMEOUTS -/
abbrev txnTimeouts : Nat := 0x180406
/-- LEGAL_COMMITS -/
abbrev txnLegalCommits : Nat := 0x180407
/-- WAITING -/
abbrev txnWaiting : Nat := 0x180408
/-- SUBSCRIPTIONS -/
abbrev subscriptions : Nat := 0x180501
/-- NOTIFY_DROPS-p -/
abbrev notifyDrops (i : Nat) : Nat := 0x180502 + i
/-- TABLE_LEN -/
abbrev laneTableLen (n : Nat) : Nat := 0x200001 + 256 * n
/-- ROT_STEPS -/
abbrev laneRotSteps (n : Nat) : Nat := 0x200002 + 256 * n
/-- ROT_STEP -/
abbrev laneRotStep (n : Nat) : Nat := 0x200003 + 256 * n
/-- MODE -/
abbrev laneMode (n : Nat) : Nat := 0x200004 + 256 * n
/-- TABLE_FN -/
abbrev laneTableFn (n : Nat) : Nat := 0x200005 + 256 * n
/-- ENTRY-e -/
abbrev laneEntry (n i : Nat) : Nat := 0x210000 + 256 * n + i
/-- ENABLE -/
abbrev vEnable (n : Nat) : Nat := 0x220001 + 256 * n
/-- GAIN -/
abbrev vGain (n : Nat) : Nat := 0x220002 + 256 * n
/-- OFFSET -/
abbrev vOffset (n : Nat) : Nat := 0x220003 + 256 * n
/-- DELAY -/
abbrev vDelay (n : Nat) : Nat := 0x220004 + 256 * n
/-- GAIN_EFF -/
abbrev vGainEff (n : Nat) : Nat := 0x220005 + 256 * n
/-- DELAY_EFF -/
abbrev vDelayEff (n : Nat) : Nat := 0x220006 + 256 * n
/-- CAL_STATUS -/
abbrev vCalStatus (n : Nat) : Nat := 0x220007 + 256 * n
/-- ENABLE -/
abbrev chEnable (n : Nat) : Nat := 0x230001 + 256 * n
/-- SENSOR -/
abbrev chSensor (n : Nat) : Nat := 0x230002 + 256 * n
/-- GAIN_LOW -/
abbrev chGainLow (n : Nat) : Nat := 0x230003 + 256 * n
/-- GAIN_HIGH -/
abbrev chGainHigh (n : Nat) : Nat := 0x230004 + 256 * n
/-- RANGE_MODE -/
abbrev chRangeMode (n : Nat) : Nat := 0x230005 + 256 * n
/-- RANGE -/
abbrev chRange (n : Nat) : Nat := 0x230006 + 256 * n
/-- LAST_PEAK -/
abbrev chLastPeak (n : Nat) : Nat := 0x230007 + 256 * n
/-- SWITCHES -/
abbrev chSwitches (n : Nat) : Nat := 0x230008 + 256 * n
/-- EMERGENCIES -/
abbrev chEmergencies (n : Nat) : Nat := 0x230009 + 256 * n
/-- CLIP_SAMPLES -/
abbrev chClipSamples (n : Nat) : Nat := 0x23000A + 256 * n
/-- GAIN_CAL_LOW -/
abbrev chGainCalLow (n : Nat) : Nat := 0x240001 + 256 * n
/-- OFFSET_LOW -/
abbrev chOffsetLow (n : Nat) : Nat := 0x240002 + 256 * n
/-- DELAY_LOW -/
abbrev chDelayLow (n : Nat) : Nat := 0x240003 + 256 * n
/-- INT_K_LOW -/
abbrev chIntKLow (n : Nat) : Nat := 0x240004 + 256 * n
/-- GAIN_CAL_HIGH -/
abbrev chGainCalHigh (n : Nat) : Nat := 0x240005 + 256 * n
/-- OFFSET_HIGH -/
abbrev chOffsetHigh (n : Nat) : Nat := 0x240006 + 256 * n
/-- DELAY_HIGH -/
abbrev chDelayHigh (n : Nat) : Nat := 0x240007 + 256 * n
/-- INT_K_HIGH -/
abbrev chIntKHigh (n : Nat) : Nat := 0x240008 + 256 * n
/-- SKEW -/
abbrev chSkew (n : Nat) : Nat := 0x240009 + 256 * n
/-- GAIN_EFF_LOW -/
abbrev chGainEffLow (n : Nat) : Nat := 0x24000A + 256 * n
/-- GAIN_EFF_HIGH -/
abbrev chGainEffHigh (n : Nat) : Nat := 0x24000B + 256 * n
/-- DELAY_EFF_LOW -/
abbrev chDelayEffLow (n : Nat) : Nat := 0x24000C + 256 * n
/-- DELAY_EFF_HIGH -/
abbrev chDelayEffHigh (n : Nat) : Nat := 0x24000D + 256 * n
/-- CAL_STATUS -/
abbrev chCalStatus (n : Nat) : Nat := 0x24000E + 256 * n
/-- CAL_COUNT -/
abbrev chCalCount (n : Nat) : Nat := 0x24000F + 256 * n
/-- CAL_TIME -/
abbrev chCalTime (n : Nat) : Nat := 0x240010 + 256 * n
/-- CAL_STATE -/
abbrev calState : Nat := 0x250001
/-- CAL_EN_LEVEL -/
abbrev calEnLevel : Nat := 0x250002
/-- REPAIRED -/
abbrev repaired : Nat := 0x250003
/-- REPAIRED_TIME -/
abbrev repairedTime : Nat := 0x250004
/-- REPAIRED_FN -/
abbrev repairedFn : Nat := 0x250005
/-- CAL_ENTRIES -/
abbrev calEntries : Nat := 0x250006
/-- CAL_COMMITS -/
abbrev calCommits : Nat := 0x250007
/-- STEPPING -/
abbrev stepping : Nat := 0x250008
/-- BG_HOLD -/
abbrev bgHold : Nat := 0x250101
/-- BG_STORE_FN -/
abbrev bgStoreFn : Nat := 0x250102
/-- BG_OFFSET -/
abbrev bgOffset (n i : Nat) : Nat := 0x250200 + 256 * n + i
/-- BG_OFFSET_TGT -/
abbrev bgOffsetTgt (n i : Nat) : Nat := 0x250220 + 256 * n + i
/-- BG_GAIN -/
abbrev bgGain (n i : Nat) : Nat := 0x250800 + 256 * n + i
/-- BG_GAIN_TGT -/
abbrev bgGainTgt (n i : Nat) : Nat := 0x250820 + 256 * n + i
/-- DIE_TEMP -/
abbrev dieTemp (i : Nat) : Nat := 0x250E00 + i
/-- INJ_RATIO -/
abbrev injRatio (i : Nat) : Nat := 0x250F00 + i
/-- KIND -/
abbrev cctKind (n : Nat) : Nat := 0x300001 + 256 * n
/-- CH_A -/
abbrev cctChA (n : Nat) : Nat := 0x300002 + 256 * n
/-- CH_B -/
abbrev cctChB (n : Nat) : Nat := 0x300003 + 256 * n
/-- CH_C -/
abbrev cctChC (n : Nat) : Nat := 0x300004 + 256 * n
/-- CH_N -/
abbrev cctChN (n : Nat) : Nat := 0x300005 + 256 * n
/-- V_A -/
abbrev cctVA (n : Nat) : Nat := 0x300006 + 256 * n
/-- V_B -/
abbrev cctVB (n : Nat) : Nat := 0x300007 + 256 * n
/-- V_C -/
abbrev cctVC (n : Nat) : Nat := 0x300008 + 256 * n
/-- MODE -/
abbrev cctMode (n : Nat) : Nat := 0x300009 + 256 * n
/-- SIGN_RULE -/
abbrev cctSignRule (n : Nat) : Nat := 0x30000A + 256 * n
/-- APPARENT -/
abbrev cctApparent (n : Nat) : Nat := 0x30000B + 256 * n
/-- ENERGY_UNIT -/
abbrev cctEnergyUnit (n : Nat) : Nat := 0x30000C + 256 * n
/-- ENERGY_K -/
abbrev cctEnergyK (n : Nat) : Nat := 0x30000D + 256 * n
/-- STARTUP -/
abbrev cctStartup (n : Nat) : Nat := 0x30000E + 256 * n
/-- CREEP -/
abbrev cctCreep (n : Nat) : Nat := 0x30000F + 256 * n
/-- SCHEDULE -/
abbrev cctSchedule (n : Nat) : Nat := 0x300010 + 256 * n
/-- REGIME -/
abbrev cctRegime (n : Nat) : Nat := 0x300011 + 256 * n
/-- BALANCE_ROLE -/
abbrev cctBalanceRole (n : Nat) : Nat := 0x300012 + 256 * n
/-- P_MAX -/
abbrev cctPMax (n : Nat) : Nat := 0x300013 + 256 * n
/-- P_FS -/
abbrev cctPFs (n : Nat) : Nat := 0x300014 + 256 * n
/-- WRAP_HOURS -/
abbrev cctWrapHours (n : Nat) : Nat := 0x300015 + 256 * n
/-- UNIT_FN -/
abbrev cctUnitFn (n : Nat) : Nat := 0x300016 + 256 * n
/-- DEF_FN -/
abbrev cctDefFn (n : Nat) : Nat := 0x300017 + 256 * n
/-- STATUS -/
abbrev cctStatus (n : Nat) : Nat := 0x310001 + 256 * n
/-- FRAME_EP -/
abbrev cctFrameEp (n : Nat) : Nat := 0x310002 + 256 * n
/-- FRAME_EQ -/
abbrev cctFrameEq (n : Nat) : Nat := 0x310003 + 256 * n
/-- FRAME_ES -/
abbrev cctFrameEs (n : Nat) : Nat := 0x310004 + 256 * n
/-- P -/
abbrev cctP (n : Nat) : Nat := 0x310005 + 256 * n
/-- Q -/
abbrev cctQ (n : Nat) : Nat := 0x310006 + 256 * n
/-- S -/
abbrev cctS (n : Nat) : Nat := 0x310007 + 256 * n
/-- PF -/
abbrev cctPf (n : Nat) : Nat := 0x310008 + 256 * n
/-- P_A … P_C -/
abbrev cctPPh (n i : Nat) : Nat := 0x310009 + 256 * n + i
/-- Q_A … Q_C -/
abbrev cctQPh (n i : Nat) : Nat := 0x31000C + 256 * n + i
/-- DIRECTION -/
abbrev cctDirection (n : Nat) : Nat := 0x31000F + 256 * n
/-- REVERSALS -/
abbrev cctReversals (n : Nat) : Nat := 0x310010 + 256 * n
/-- OVER_PMAX -/
abbrev cctOverPmax (n : Nat) : Nat := 0x310011 + 256 * n
/-- I_RMS_HC -/
abbrev chIRmsHc (n : Nat) : Nat := 0x320001 + 256 * n
/-- I_RMS -/
abbrev chIRms (n : Nat) : Nat := 0x320002 + 256 * n
/-- I_RMS_1S -/
abbrev chIRms1s (n : Nat) : Nat := 0x320003 + 256 * n
/-- CIRCUIT -/
abbrev chCircuit (n : Nat) : Nat := 0x320004 + 256 * n
/-- STATUS -/
abbrev chStatus (n : Nat) : Nat := 0x320005 + 256 * n
/-- U_RMS_HC -/
abbrev vURmsHc (n : Nat) : Nat := 0x330001 + 256 * n
/-- U_RMS -/
abbrev vURms (n : Nat) : Nat := 0x330002 + 256 * n
/-- U_RMS_1S -/
abbrev vURms1s (n : Nat) : Nat := 0x330003 + 256 * n
/-- U_RMS_HALF -/
abbrev vURmsHalf (n : Nat) : Nat := 0x330004 + 256 * n
/-- FREQ_TRACK -/
abbrev vFreqTrack (n : Nat) : Nat := 0x330005 + 256 * n
/-- FREQ_200 -/
abbrev vFreq200 (n : Nat) : Nat := 0x330006 + 256 * n
/-- FREQ_10S -/
abbrev vFreq10s (n : Nat) : Nat := 0x330007 + 256 * n
/-- ZC_LAST -/
abbrev vZcLast (n : Nat) : Nat := 0x330008 + 256 * n
/-- ANGLE -/
abbrev vAngle (n : Nat) : Nat := 0x330009 + 256 * n
/-- STATUS -/
abbrev vStatus (n : Nat) : Nat := 0x33000A + 256 * n
/-- LOCK_LOSSES -/
abbrev vLockLosses (n : Nat) : Nat := 0x33000B + 256 * n
/-- ZC_REJECTED -/
abbrev vZcRejected (n : Nat) : Nat := 0x33000C + 256 * n
/-- MAG-h -/
abbrev spMag (n i : Nat) : Nat := 0x340000 + 256 * n + i
/-- PHASE-h -/
abbrev spPhase (n i : Nat) : Nat := 0x340040 + 256 * n + i
/-- SUBGROUP-h -/
abbrev spSubgroup (n i : Nat) : Nat := 0x340080 + 256 * n + i
/-- THD -/
abbrev spThd (n : Nat) : Nat := 0x3400C0 + 256 * n
/-- THDS -/
abbrev spThds (n : Nat) : Nat := 0x3400C1 + 256 * n
/-- WIN_LEN -/
abbrev spWinLen (n : Nat) : Nat := 0x3400C2 + 256 * n
/-- STATUS -/
abbrev spStatus (n : Nat) : Nat := 0x3400C3 + 256 * n
/-- HARM_EN -/
abbrev spHarmEn (n : Nat) : Nat := 0x3400F0 + 256 * n
/-- MAG-h -/
abbrev spvMag (n i : Nat) : Nat := 0x350000 + 256 * n + i
/-- PHASE-h -/
abbrev spvPhase (n i : Nat) : Nat := 0x350040 + 256 * n + i
/-- SUBGROUP-h -/
abbrev spvSubgroup (n i : Nat) : Nat := 0x350080 + 256 * n + i
/-- THD -/
abbrev spvThd (n : Nat) : Nat := 0x3500C0 + 256 * n
/-- THDS -/
abbrev spvThds (n : Nat) : Nat := 0x3500C1 + 256 * n
/-- WIN_LEN -/
abbrev spvWinLen (n : Nat) : Nat := 0x3500C2 + 256 * n
/-- STATUS -/
abbrev spvStatus (n : Nat) : Nat := 0x3500C3 + 256 * n
/-- HARM_EN -/
abbrev spvHarmEn (n : Nat) : Nat := 0x3500F0 + 256 * n
/-- P_H-h -/
abbrev cctPH (n i : Nat) : Nat := 0x360000 + 256 * n + i
/-- P_HARM -/
abbrev cctPHarm (n : Nat) : Nat := 0x360040 + 256 * n
/-- FUND_AI -/
abbrev cctFundAi (n : Nat) : Nat := 0x360041 + 256 * n
/-- FUND_AE -/
abbrev cctFundAe (n : Nat) : Nat := 0x360042 + 256 * n
/-- STATUS -/
abbrev cctHStatus (n : Nat) : Nat := 0x360043 + 256 * n
/-- I_RESIDUAL -/
abbrev cctIResidual (n : Nat) : Nat := 0x360044 + 256 * n
/-- PQ_STATE -/
abbrev cctPqState (n : Nat) : Nat := 0x360045 + 256 * n
/-- BAND -/
abbrev pqBand : Nat := 0x370001
/-- BAND_IN_EFFECT -/
abbrev pqBandInEffect : Nat := 0x370002
/-- HYST -/
abbrev pqHyst : Nat := 0x370003
/-- SAG_LVL -/
abbrev pqSagLvl : Nat := 0x370004
/-- SWELL_LVL -/
abbrev pqSwellLvl : Nat := 0x370005
/-- INT_LVL -/
abbrev pqIntLvl : Nat := 0x370006
/-- OC_LVL -/
abbrev pqOcLvl : Nat := 0x370007
/-- OC_COUNT -/
abbrev pqOcCount : Nat := 0x370008
/-- NI_LVL -/
abbrev pqNiLvl : Nat := 0x370009
/-- NI_COUNT -/
abbrev pqNiCount : Nat := 0x37000A
/-- N_POLARITY -/
abbrev pqNPolarity : Nat := 0x37000B
/-- PL_COUNT -/
abbrev pqPlCount : Nat := 0x37000C
/-- ANGLE_REF -/
abbrev pqAngleRef : Nat := 0x37000D
/-- AAF_TAU -/
abbrev pqAafTau : Nat := 0x37000E
/-- EVENT_COUNT -/
abbrev pqEventCount : Nat := 0x37000F
/-- U_DIN -/
abbrev vUDin (n : Nat) : Nat := 0x371001 + 256 * n
/-- GROUP -/
abbrev vGroup (n : Nat) : Nat := 0x371002 + 256 * n
/-- ENABLE -/
abbrev capEnable : Nat := 0x380001
/-- PRE -/
abbrev capPre : Nat := 0x380002
/-- POST -/
abbrev capPost : Nat := 0x380003
/-- TRIG_MASK -/
abbrev capTrigMask : Nat := 0x380004
/-- HOLDOFF -/
abbrev capHoldoff : Nat := 0x380005
/-- CAPTURE_NOW -/
abbrev capCaptureNow : Nat := 0x380006
/-- LAST_ID -/
abbrev capLastId : Nat := 0x380007
/-- LAST_ADDR -/
abbrev capLastAddr : Nat := 0x380008
/-- STORED -/
abbrev capStored : Nat := 0x380009
/-- MISSED -/
abbrev capMissed : Nat := 0x38000A
/-- STATE -/
abbrev capState : Nat := 0x38000B
/-- CH_SEL-i -/
abbrev capChSel (i : Nat) : Nat := 0x380100 + i
/-- REG-s -/
abbrev cctReg (n i : Nat) : Nat := 0x400000 + 256 * n + i
/-- FLAGS -/
abbrev cctFlags (n : Nat) : Nat := 0x400048 + 256 * n
/-- TARIFF -/
abbrev cctTariff (n : Nat) : Nat := 0x400049 + 256 * n
/-- INVARIANT_FAULTS -/
abbrev cctInvariantFaults (n : Nat) : Nat := 0x40004A + 256 * n
/-- WRAP-s -/
abbrev cctWrap (n i : Nat) : Nat := 0x400080 + 256 * n + i
/-- INTERVAL -/
abbrev demInterval (n : Nat) : Nat := 0x420001 + 256 * n
/-- METHOD -/
abbrev demMethod (n : Nat) : Nat := 0x420002 + 256 * n
/-- SUBINT -/
abbrev demSubint (n : Nat) : Nat := 0x420003 + 256 * n
/-- STATE -/
abbrev demState (n : Nat) : Nat := 0x420004 + 256 * n
/-- START_TIME -/
abbrev demStartTime (n : Nat) : Nat := 0x420005 + 256 * n
/-- E_IMPORT -/
abbrev demEImport (n : Nat) : Nat := 0x420006 + 256 * n
/-- E_EXPORT -/
abbrev demEExport (n : Nat) : Nat := 0x420007 + 256 * n
/-- LAST_IMPORT -/
abbrev demLastImport (n : Nat) : Nat := 0x420008 + 256 * n
/-- LAST_EXPORT -/
abbrev demLastExport (n : Nat) : Nat := 0x420009 + 256 * n
/-- LAST_END -/
abbrev demLastEnd (n : Nat) : Nat := 0x42000A + 256 * n
/-- LAST_TARIFF -/
abbrev demLastTariff (n : Nat) : Nat := 0x42000B + 256 * n
/-- LAST_FLAGS -/
abbrev demLastFlags (n : Nat) : Nat := 0x42000C + 256 * n
/-- SHORT_COUNT -/
abbrev demShortCount (n : Nat) : Nat := 0x42000D + 256 * n
/-- UTC_OFFSET -/
abbrev calUtcOffset : Nat := 0x430001
/-- DST_EN -/
abbrev calDstEn : Nat := 0x430002
/-- DST_SHIFT -/
abbrev calDstShift : Nat := 0x430003
/-- DST_START -/
abbrev calDstStart : Nat := 0x430004
/-- DST_END -/
abbrev calDstEnd : Nat := 0x430005
/-- LOCAL_TIME -/
abbrev calLocalTime : Nat := 0x430006
/-- DST_ACTIVE -/
abbrev calDstActive : Nat := 0x430007
/-- DEFAULT_TARIFF -/
abbrev schDefaultTariff (n : Nat) : Nat := 0x430101 + 256 * n
/-- SEASON-i -/
abbrev schSeason (n i : Nat) : Nat := 0x430102 + 256 * n + i
/-- WEEK-i -/
abbrev schWeek (n i : Nat) : Nat := 0x430106 + 256 * n + i
/-- TARIFF_NOW -/
abbrev schTariffNow (n : Nat) : Nat := 0x43010A + 256 * n
/-- PROFILE_NOW -/
abbrev schProfileNow (n : Nat) : Nat := 0x43010B + 256 * n
/-- NEXT_SWITCH -/
abbrev schNextSwitch (n : Nat) : Nat := 0x43010C + 256 * n
/-- SWITCHES -/
abbrev schSwitches (n : Nat) : Nat := 0x43010D + 256 * n
/-- SPECIAL-k -/
abbrev schSpecial (n i : Nat) : Nat := 0x430800 + 256 * n + i
/-- POINT-k -/
abbrev dayPoint (n i : Nat) : Nat := 0x431000 + 256 * n + i
/-- RULE -/
abbrev bpRule (n : Nat) : Nat := 0x440001 + 256 * n
/-- DAY -/
abbrev bpDay (n : Nat) : Nat := 0x440002 + 256 * n
/-- MINUTE -/
abbrev bpMinute (n : Nat) : Nat := 0x440003 + 256 * n
/-- PERIOD_NO -/
abbrev bpPeriodNo (n : Nat) : Nat := 0x440004 + 256 * n
/-- HWM -/
abbrev bpHwm (n : Nat) : Nat := 0x440005 + 256 * n
/-- NEXT_CLOSE -/
abbrev bpNextClose (n : Nat) : Nat := 0x440006 + 256 * n
/-- CLOSE_NOW -/
abbrev bpCloseNow (n : Nat) : Nat := 0x440007 + 256 * n
/-- BSN -/
abbrev bsn : Nat := 0x440401
/-- BOUNDARY_FN -/
abbrev boundaryFn : Nat := 0x440402
/-- BOUNDARY_TIME -/
abbrev boundaryTime : Nat := 0x440403
/-- STEPS_DONE -/
abbrev stepsDone : Nat := 0x440404
/-- WAITS -/
abbrev waits : Nat := 0x440405
/-- WAIT_FRAMES -/
abbrev waitFrames : Nat := 0x440406
/-- CLOCK_STEPS -/
abbrev clockSteps : Nat := 0x440407
/-- STALE -/
abbrev stale : Nat := 0x440501
/-- CAUSE -/
abbrev cause : Nat := 0x440502
/-- INSTALL_TOKEN -/
abbrev installToken : Nat := 0x440503
/-- HOST_TOKEN -/
abbrev hostToken : Nat := 0x440504
/-- WIRING_REF -/
abbrev wiringRef : Nat := 0x440505
/-- WIRING_NOW -/
abbrev wiringNow : Nat := 0x440506
/-- RESUME -/
abbrev resume : Nat := 0x440507
/-- STALE_FN -/
abbrev staleFn : Nat := 0x440508
/-- RESUME_FN -/
abbrev resumeFn : Nat := 0x440509
/-- HISTORY-k -/
abbrev history (i : Nat) : Nat := 0x440800 + i
/-- HISTORY_HELD -/
abbrev historyHeld (i : Nat) : Nat := 0x440860 + i
/-- AI_BASE -/
abbrev chAiBase (n : Nat) : Nat := 0x450001 + 256 * n
/-- AE_BASE -/
abbrev chAeBase (n : Nat) : Nat := 0x450002 + 256 * n
/-- BASE_VREF -/
abbrev chBaseVref (n : Nat) : Nat := 0x450003 + 256 * n
/-- BASE_K -/
abbrev chBaseK (n : Nat) : Nat := 0x450004 + 256 * n
/-- MARK_FN -/
abbrev chMarkFn (n : Nat) : Nat := 0x450005 + 256 * n
/-- LAST_ABSORBED_AI -/
abbrev chLastAbsorbedAi (n : Nat) : Nat := 0x450006 + 256 * n
/-- LAST_ABSORBED_AE -/
abbrev chLastAbsorbedAe (n : Nat) : Nat := 0x450007 + 256 * n
/-- UNACCOUNTED -/
abbrev balUnaccounted : Nat := 0x460001
/-- DB_REL -/
abbrev balDbRel : Nat := 0x460002
/-- DB_ABS -/
abbrev balDbAbs : Nat := 0x460003
/-- THRESHOLD -/
abbrev balThreshold : Nat := 0x460004
/-- RATE -/
abbrev balRate : Nat := 0x460005
/-- STATE -/
abbrev balState : Nat := 0x460006
/-- SKIPPED -/
abbrev balSkipped : Nat := 0x460007
/-- EVENTS -/
abbrev balEvents : Nat := 0x460008
/-- ENABLE -/
abbrev poEnable (n : Nat) : Nat := 0x500001 + 256 * n
/-- QUANTITY -/
abbrev poQuantity (n : Nat) : Nat := 0x500002 + 256 * n
/-- Q_MASK -/
abbrev poQMask (n : Nat) : Nat := 0x500003 + 256 * n
/-- CONSTANT -/
abbrev poConstant (n : Nat) : Nat := 0x500004 + 256 * n
/-- WIDTH -/
abbrev poWidth (n : Nat) : Nat := 0x500005 + 256 * n
/-- FINE -/
abbrev poFine (n : Nat) : Nat := 0x500006 + 256 * n
/-- POLARITY -/
abbrev poPolarity (n : Nat) : Nat := 0x500007 + 256 * n
/-- CCT_MASK -/
abbrev poCctMask (n : Nat) : Nat := 0x500008 + 256 * n
/-- PENDING -/
abbrev poPending (n : Nat) : Nat := 0x500009 + 256 * n
/-- PEAK_PENDING -/
abbrev poPeakPending (n : Nat) : Nat := 0x50000A + 256 * n
/-- COUNT -/
abbrev poCount (n : Nat) : Nat := 0x50000B + 256 * n
/-- DISCARDED -/
abbrev poDiscarded (n : Nat) : Nat := 0x50000C + 256 * n
/-- PT_ENABLE -/
abbrev ptEnable : Nat := 0x500801
/-- PT_QUANTITY -/
abbrev ptQuantity : Nat := 0x500802
/-- PT_Q_MASK -/
abbrev ptQMask : Nat := 0x500803
/-- PT_FRAMES -/
abbrev ptFrames : Nat := 0x500804
/-- PT_EMPTY -/
abbrev ptEmpty : Nat := 0x500805
/-- PT_MERGED -/
abbrev ptMerged : Nat := 0x500806
/-- PT_K-c -/
abbrev ptK (i : Nat) : Nat := 0x501000 + i
/-- STATE -/
abbrev laneFState (n : Nat) : Nat := 0x600001 + 256 * n
/-- CAUSE -/
abbrev laneFCause (n : Nat) : Nat := 0x600002 + 256 * n
/-- FAIL_RUN -/
abbrev laneFFailRun (n : Nat) : Nat := 0x600003 + 256 * n
/-- PASS_RUN -/
abbrev laneFPassRun (n : Nat) : Nat := 0x600004 + 256 * n
/-- CHECKS_FAILED -/
abbrev laneFChecksFailed (n : Nat) : Nat := 0x600005 + 256 * n
/-- RETRIES -/
abbrev laneFRetries (n : Nat) : Nat := 0x600006 + 256 * n
/-- TRANSIENTS -/
abbrev laneFTransients (n : Nat) : Nat := 0x600007 + 256 * n
/-- ESCALATIONS -/
abbrev laneFEscalations (n : Nat) : Nat := 0x600008 + 256 * n
/-- STATE_FN -/
abbrev laneFStateFn (n : Nat) : Nat := 0x600009 + 256 * n
/-- STATE -/
abbrev chFState (n : Nat) : Nat := 0x610001 + 256 * n
/-- CAUSE -/
abbrev chFCause (n : Nat) : Nat := 0x610002 + 256 * n
/-- FAIL_RUN -/
abbrev chFFailRun (n : Nat) : Nat := 0x610003 + 256 * n
/-- PASS_RUN -/
abbrev chFPassRun (n : Nat) : Nat := 0x610004 + 256 * n
/-- OPEN_FAILS -/
abbrev chFOpenFails (n : Nat) : Nat := 0x610005 + 256 * n
/-- STUCK_FAILS -/
abbrev chFStuckFails (n : Nat) : Nat := 0x610006 + 256 * n
/-- CM_LAST -/
abbrev chFCmLast (n : Nat) : Nat := 0x610007 + 256 * n
/-- STATE_FN -/
abbrev chFStateFn (n : Nat) : Nat := 0x610008 + 256 * n
/-- STATE -/
abbrev vFState (n : Nat) : Nat := 0x620001 + 256 * n
/-- CAUSE -/
abbrev vFCause (n : Nat) : Nat := 0x620002 + 256 * n
/-- FAIL_RUN -/
abbrev vFFailRun (n : Nat) : Nat := 0x620003 + 256 * n
/-- PASS_RUN -/
abbrev vFPassRun (n : Nat) : Nat := 0x620004 + 256 * n
/-- SUBST -/
abbrev vFSubst (n : Nat) : Nat := 0x620005 + 256 * n
/-- SUBST_NOW -/
abbrev vFSubstNow (n : Nat) : Nat := 0x620006 + 256 * n
/-- THETA -/
abbrev vFTheta (n : Nat) : Nat := 0x620007 + 256 * n
/-- K -/
abbrev vFK (n : Nat) : Nat := 0x620008 + 256 * n
/-- TRANSIENTS -/
abbrev vFTransients (n : Nat) : Nat := 0x620009 + 256 * n
/-- STATE_FN -/
abbrev vFStateFn (n : Nat) : Nat := 0x62000A + 256 * n
/-- SPARES_FREE -/
abbrev sparesFree : Nat := 0x630001
/-- FRAMES_RETIRED -/
abbrev framesRetired : Nat := 0x630002
/-- FRAME_RETRIES -/
abbrev frameRetries : Nat := 0x630003
/-- SECTORS_RETIRED -/
abbrev sectorsRetired : Nat := 0x630004
/-- SECTOR_RETRIES -/
abbrev sectorRetries : Nat := 0x630005
/-- PORT_STATE-i -/
abbrev portState (i : Nat) : Nat := 0x630006 + i
/-- ROUTES_RETIRED -/
abbrev routesRetired : Nat := 0x630009
/-- FAULT_EVENTS -/
abbrev faultEvents : Nat := 0x63000A
/-- REINSTATE -/
abbrev reinstate : Nat := 0x630101
/-- LANE_GAIN_TOL -/
abbrev laneGainTol : Nat := 0x630201
/-- LANE_OFFSET_TOL -/
abbrev laneOffsetTol : Nat := 0x630202
/-- INJ_TOL -/
abbrev injTol : Nat := 0x630203
/-- LANE_RETIRE_RUN -/
abbrev laneRetireRun : Nat := 0x630204
/-- LANE_OK_RUN -/
abbrev laneOkRun : Nat := 0x630205
/-- CH_RETIRE_RUN -/
abbrev chRetireRun : Nat := 0x630206
/-- CH_OK_RUN -/
abbrev chOkRun : Nat := 0x630207
/-- CM_LIMIT -/
abbrev cmLimit : Nat := 0x630208
/-- STUCK_PERIODS -/
abbrev stuckPeriods : Nat := 0x630209
/-- STORE_RETRIES -/
abbrev storeRetries : Nat := 0x63020A
/-- ROUTE_TIMEOUT -/
abbrev routeTimeout : Nat := 0x63020B
/-- STORE_COUNT -/
abbrev storeCount : Nat := 0x700001
/-- ROLL_PERIOD -/
abbrev rollPeriod : Nat := 0x700002
/-- BP -/
abbrev bp : Nat := 0x700003
/-- RECALL_ROLLED_BACK -/
abbrev recallRolledBack : Nat := 0x700004
/-- RECALL_TORN -/
abbrev recallTorn : Nat := 0x700005
/-- RECALL_LOST -/
abbrev recallLost : Nat := 0x700006
/-- FORCED_ROLLS -/
abbrev forcedRolls : Nat := 0x700007
/-- WEAR_MAX -/
abbrev wearMax : Nat := 0x700008
/-- ROLL_POSITION -/
abbrev rollPosition : Nat := 0x700009
/-- SCRUB_FN -/
abbrev scrubFn : Nat := 0x70000A
/-- SCRUB_RESTORES -/
abbrev scrubRestores : Nat := 0x70000B
/-- PAGE_READ -/
abbrev pageRead : Nat := 0x700101
/-- PAGE_WRITE -/
abbrev pageWrite : Nat := 0x700102
/-- RESTORE -/
abbrev restore : Nat := 0x700103
/-- PAGE_MODE-k -/
abbrev pageMode (i : Nat) : Nat := 0x700200 + i
/-- PAGE_STATUS-p -/
abbrev pageStatus (n i : Nat) : Nat := 0x700400 + 256 * n + i
/-- FRAME_WEAR-f -/
abbrev frameWear (n i : Nat) : Nat := 0x700800 + 256 * n + i
/-- FRAME_WEAR-f -/
abbrev fw2FrameWear (i : Nat) : Nat := 0x701000 + i
/-- TWIN_COUNT -/
abbrev twinCount : Nat := 0x701801
/-- TWIN_WRITE -/
abbrev twinWrite : Nat := 0x701802
/-- RESOLVE -/
abbrev resolve : Nat := 0x701803
/-- TWIN_DATA -/
abbrev twinData (n : Nat) : Nat := 0x702001 + 256 * n
/-- TWIN_LEN -/
abbrev twinLen (n : Nat) : Nat := 0x702002 + 256 * n
/-- TWIN_SEQ -/
abbrev twinSeq (n : Nat) : Nat := 0x702003 + 256 * n
/-- TWIN_STATE -/
abbrev twinState (n : Nat) : Nat := 0x702004 + 256 * n
/-- LEGAL_TWIN_STATE -/
abbrev legalTwinState (n : Nat) : Nat := 0x703801 + 256 * n
/-- STIRRUP_CAP -/
abbrev stirrupCap : Nat := 0x704001
/-- STIRRUP_PAGES -/
abbrev stirrupPages : Nat := 0x704002
/-- LAST_GASP_FN -/
abbrev lastGaspFn : Nat := 0x704003
/-- LAST_GASP_PAGES -/
abbrev lastGaspPages : Nat := 0x704004
/-- J_MAX -/
abbrev jMax : Nat := 0x704005
/-- REPLAYS -/
abbrev replays : Nat := 0x704006
/-- JOURNAL_SHORT -/
abbrev journalShort : Nat := 0x704007
/-- HJ_LEN -/
abbrev hjLen : Nat := 0x704008
/-- HJ_WRITE (DESIGN CHOICE, log 13) -/
abbrev hjWrite : Nat := 0x704009
/-- HJ_READ (DESIGN CHOICE, log 13) -/
abbrev hjRead : Nat := 0x70400A
/-- HJ_FN -/
abbrev hjFn : Nat := 0x70400B
/-- PROFILE_EN -/
abbrev profileEn : Nat := 0x730001
/-- PROFILE_MIN -/
abbrev profileMin : Nat := 0x730002
/-- PROFILE_KINDS -/
abbrev profileKinds : Nat := 0x730003
/-- PROFILE_MASK -/
abbrev profileMask : Nat := 0x730004
/-- PROFILE_SEQ -/
abbrev profileSeq : Nat := 0x730005
/-- PROFILE_OLDEST -/
abbrev profileOldest : Nat := 0x730006
/-- PROFILE_ADDR -/
abbrev profileAddr : Nat := 0x730007
/-- TK_READ -/
abbrev tkRead : Nat := 0x730008
/-- BACKUP_MINUTE -/
abbrev backupMinute : Nat := 0x730009
/-- BACKUP_GEN -/
abbrev backupGen : Nat := 0x73000A
/-- BACKUP_NOW -/
abbrev backupNow : Nat := 0x73000B
/-- EVENT_SEQ -/
abbrev eventSeq : Nat := 0x740001
/-- EVENT_OLDEST -/
abbrev eventOldest : Nat := 0x740002
/-- EVENT_READ -/
abbrev eventRead : Nat := 0x740003
/-- EVENTS_LOST -/
abbrev eventsLost : Nat := 0x740004
/-- ACTIVE_SLOT -/
abbrev activeSlot : Nat := 0x800001
/-- LEASE_STATE -/
abbrev leaseState : Nat := 0x800002
/-- LEASE_PORT -/
abbrev leasePort : Nat := 0x800003
/-- UPDATE-OPEN -/
abbrev updateOpen : Nat := 0x800004
/-- WRITE-BLOCK -/
abbrev writeBlock : Nat := 0x800005
/-- VERIFY -/
abbrev verify : Nat := 0x800006
/-- ACTIVATE -/
abbrev activate : Nat := 0x800007
/-- ABORT -/
abbrev abort : Nat := 0x800008
/-- LEASE_DIGEST -/
abbrev leaseDigest : Nat := 0x800009
/-- LEASE_SIZE -/
abbrev leaseSize : Nat := 0x80000A
/-- LEASE_HOLDERS -/
abbrev leaseHolders : Nat := 0x80000B
/-- LEASE_IDLE -/
abbrev leaseIdle : Nat := 0x80000C
/-- UNITS_WRITTEN -/
abbrev unitsWritten : Nat := 0x80000D
/-- BLOCK_MAP -/
abbrev blockMap : Nat := 0x80000E
/-- ACTIVATE_B -/
abbrev activateB : Nat := 0x80000F
/-- HEALTH_LEFT -/
abbrev healthLeft : Nat := 0x800010
/-- LAST_REJECT -/
abbrev lastReject : Nat := 0x800011
/-- ACTIVATIONS -/
abbrev activations : Nat := 0x800012
/-- REVERTS -/
abbrev reverts : Nat := 0x800013
/-- RECOVERIES -/
abbrev recoveries : Nat := 0x800014
/-- SLOT_STATE -/
abbrev imSlotState (n : Nat) : Nat := 0x800101 + 256 * n
/-- MANIFEST -/
abbrev imManifest (n : Nat) : Nat := 0x800102 + 256 * n
/-- SLOT_CHECK -/
abbrev imSlotCheck (n : Nat) : Nat := 0x800103 + 256 * n
/-- GOOD_SECTORS -/
abbrev imGoodSectors (n : Nat) : Nat := 0x800104 + 256 * n
/-- ROOT_HASH -/
abbrev rootHash : Nat := 0x810001
/-- SVN_COUNTER -/
abbrev svnCounter : Nat := 0x810002
/-- OWNER-k -/
abbrev owner (i : Nat) : Nat := 0x810003 + i
/-- KEY_COMMAND -/
abbrev keyCommand : Nat := 0x810007
/-- IDENTITY_CERT -/
abbrev identityCert : Nat := 0x810008
/-- SEALED_COUNT -/
abbrev sealedCount : Nat := 0x810101
/-- SEALED_DIGEST -/
abbrev sealedDigest : Nat := 0x810102
/-- SEAL_CHANGES -/
abbrev sealChanges : Nat := 0x810103
/-- SIGNED_COUNT -/
abbrev signedCount : Nat := 0x820001
/-- SIGNED_REFUSED -/
abbrev signedRefused : Nat := 0x820002
/-- LAST_SIGNED_FN -/
abbrev lastSignedFn : Nat := 0x820003
/-- CERT_FORMAT -/
abbrev certFormat : Nat := 0x820004
/-- MAX_ENTRIES -/
abbrev maxEntries : Nat := 0x820005
/-- RATE_LIMIT -/
abbrev rateLimit : Nat := 0x820006
/-- MD-k of circuit c, object i (Table 6.14) -/
abbrev md (n i : Nat) : Nat := 0x410000 + 256 * n + i
/-- Index of an object. -/
abbrev idx (k : Nat) : Nat := k / 256

end Sys2Proof.Machine.K
end

