-- ==== Sys2Proof/Machine/StateAcq.lean ====
section
/-! DEFINITION. The state of the data plane: lanes, range controllers, RING-0, the aligner's delay lines, RING-1, the
Tannery's windows and detectors, RING-2 to RING-4, the capture buffer and the frame results that await the Hallmark core
(chapters 1 to 5 and 8). -/

namespace Sys2Proof.Machine

/-- The range controller of one current channel (R58 to R63).  `true` is the high range. -/
structure RangeCtl where
  now     : Bool := false   -- range that DR entries use in the current period
  next    : Bool := false   -- range latched for the next period
  want    : Bool := false   -- range decided, latched at the start of the next period
  sign    : Nat := 0        -- sign of the previous result: 0 none, 1 not negative, 2 negative
  crossed : Bool := false   -- a crossing has occurred since the start
  since   : Nat := 0        -- periods since the last crossing
  peak    : Int := 0        -- P, largest magnitude since the last crossing, Q1.47 (R50)
  before  : Int := 0        -- P before the last result, and that result's magnitude (R59)
  last    : Int := 0
  clip    : Bool := false   -- the next high-range result is flagged CLIP (R63)
  deriving DecidableEq, Repr

/-- One result of a sequencer entry, as posted into RING-0 (R49), with the channel coefficients of the frame in which it
was acquired (R92). -/
structure LRes where
  src    : Nat            -- source code (Table 2.3), of the lane that ran the entry
  gain   : Nat            -- gain code used
  rep    : Nat            -- kept conversions
  shift  : Nat
  high   : Bool           -- range carried (R62)
  value  : Int            -- 24-bit result
  sat    : Bool
  clip   : Bool           -- flagged by an emergency
  par    : Bool           -- parity error in a kept conversion
  gap    : Bool
  skew   : Nat            -- c of R77
  off    : Int            -- OFFSET of its range, in codes at the gain of that range
  gr     : Nat            -- gain code of its range
  gcal   : Nat            -- effective GAIN_CAL of its range
  intK   : Nat            -- INT_K of its range
  rog    : Bool           -- SENSOR = 1
  deriving DecidableEq, Repr

/-- A RING-0 entry of a lane: the results of one sample period `g` = 16 FN + k. -/
structure R0Lane where
  g       : Nat
  lane    : Nat
  res     : List LRes
  aff     : Bool           -- a parity error or a flagged reference in the period (R221)
  deriving DecidableEq, Repr

/-- A RING-0 entry of a voltage channel: the sample emitted at the start of period `g` (R44). -/
structure R0Volt where
  g     : Nat
  v     : Nat
  value : Int
  clip  : Bool
  aff   : Bool
  off   : Int
  gain  : Nat
  deriving DecidableEq, Repr

/-- A raw sample in a delay line, after step 5 of Table 3.2 and, once `fin`, after steps 6 and 7. -/
structure RawS where
  g    : Nat
  x    : Int             -- after steps 1 to 5, and after step 6 once final
  y    : Int             -- after step 7
  miss : Bool            -- no result: its period was lost (R18)
  sat  : Bool
  clip : Bool
  high : Bool
  skew : Nat
  aff  : Bool            -- in an affected period (R221)
  est  : Bool            -- replaced by R221
  meas : Int := 0        -- x as measured, of a sample that R221 replaced
  code : Int             -- result as posted
  fs   : Int             -- high-range full scale after steps 1 to 5 (R85)
  intK : Nat
  rog  : Bool
  deriving DecidableEq, Repr

/-- The raw stream of one source in the aligner: newest sample first. -/
structure Stream where
  raw   : Nat := 0           -- first raw frame of the stream
  on    : Bool := false      -- the first aligned frame is `raw` + 2 (R76)
  hist  : List RawS := []
  w     : Int := 0           -- integrator (R86)
  code  : Int := 0           -- last counted result (R225)
  run   : Nat := 0           -- identical counted results in a row
  stuck : Option Nat := none -- frame in which a run last reached STUCK_PERIODS
  unstable : Option Nat := none -- frame of the last modulator instability (R227)
  afs   : List Nat := []     -- affected periods of a voltage channel in recent frames
  deriving DecidableEq, Repr

/-- Estimators of one lane at one gain code (Table 3.3): mean codes as exact fractions, newest first. -/
structure GainEst where
  zero  : List (Int × Nat) := []
  pref  : Option (Int × Nat) := none
  span  : List (Int × Nat) := []
  temp  : List (Int × Nat) := []
  inj   : List (Int × Nat) := []
  offDue  : Bool := true     -- the first target has not been taken yet (R91)
  gainDue : Bool := true
  deriving DecidableEq, Repr

/-- State of one lane that no object shows. -/
structure LaneS where
  selfCal : Bool := false        -- a self-calibration is requested (R220)
  checked : Nat := 0             -- GAP results of the frame checked so far (R219)
  cause   : Nat := 0             -- cause of the first failed result of the frame
  afs     : List Nat := []       -- affected periods of recent frames (R221)
  gaps    : List (Bool × List LRes) := []  -- GAP results of the frame by period, and whether the period is affected
  serves  : Bool := false        -- runs the degraded table for its partner too (R67)
  serveLo : Nat := 0             -- first frame that the lane serves its partner, and after that the first one that it does not
  serveHi : Nat := 0
  gone    : Bool := false        -- retired by the check just made (R222)
  settle  : Bool := false        -- reinstated, first targets not yet taken (R235)
  deriving DecidableEq, Repr

/-- A takeover or a return that is due at a frame (R67, R222, R235). -/
structure Takeover where
  lane : Nat
  frm  : Nat
  deriving DecidableEq, Repr

/-- Frames of which the circuits on a source are estimated (R68, R76, R221, R222): source L, or 32 + v. -/
structure EstSpan where
  src : Nat
  lo  : Nat
  hi  : Nat
  deriving DecidableEq, Repr

/-- Acquisition: lanes and RING-0. -/
structure Acq where
  first    : Option Nat := none      -- S, the first frame of this start (R76)
  period   : Nat := 0                -- sample periods of the frame begun so far
  rng      : Tab RangeCtl := []
  lanes    : Tab LaneS := []
  est      : Tab GainEst := []       -- key 8 L + g
  ring0L   : List R0Lane := []
  ring0V   : List R0Volt := []
  credit0  : Nat := 2816             -- RING-0 credit count in effect (R14)
  lost     : List Nat := []          -- FRAME-LOST frames not yet accrued
  lostFrom : Nat := 0                -- first frame of the loss in progress, and its frames so far
  lostRun  : Nat := 0
  takeovers : List Takeover := []
  estSpans : List EstSpan := []
  emerg    : List (Nat × Nat) := []  -- (channel, period) of emergencies not yet offered to the capture
  openFail : List Nat := []          -- channels whose last open-input test failed
  extra    : List (Nat × Nat) := []  -- (unit, frame) of the extra checks due: n, or 256 + v (R226)
  lastChk  : Tab Nat := []           -- frame after the last check of a unit: n, or 256 + v
  deriving DecidableEq, Repr

/-- One channel-frame of aligned samples. -/
structure AChan where
  a    : List Int          -- 16 samples, oldest first
  clip : List Bool
  est  : Bool
  deriving DecidableEq, Repr

/-- One aligned frame in RING-1: n for CH-n, 256 + v for V-v. -/
structure AFrame where
  fn    : Nat
  lost  : Bool
  chans : Tab (Option AChan)
  dly   : Tab Int          -- effective delays of the voltage channels in that frame, taps
  deriving DecidableEq, Repr

/-- The aligner. -/
structure Aln where
  next    : Nat := 0                 -- next aligned sample n
  streams : Tab Stream := []         -- n, 256 + v
  dly     : List (Nat × Tab Int) := []  -- effective delays by frame, newest first: 2n + range, 512 + v
  moving  : List Nat := []           -- channels with a coefficient not at its target: n, 256 + v (R93)
  asm     : AFrame := ⟨0, false, [], []⟩
  ring1   : List AFrame := []
  deriving DecidableEq, Repr

/-- The end of a half-cycle window: its last sample, the instant that ends it, and whether a timer ended it (R109, R110). -/
structure HalfEnd where
  timed : Bool
  last  : Nat
  at_   : Int
  lock  : Bool := false          -- V-v is LOCKED with it
  lost  : Bool := false          -- V-v lost its lock with it
  deriving DecidableEq, Repr

/-- Zero-crossing detector, tracking loop and window counters of a voltage channel (R135 to R138, R109, R110). -/
structure Zc where
  side    : Nat := 0             -- last excursion: 0 none, 1 at or above +H, 2 at or below −H
  old     : Option (Nat × Int) := none  -- last sample on the old side, with its index
  newB    : Option Int := none   -- the sample after it
  lastZc  : Option Int := none   -- last accepted crossing, taps
  lastPos : Option Int := none   -- last accepted crossings by sign
  lastNeg : Option Int := none
  run     : List (Bool × Int) := []  -- accepted crossings toward lock, newest first, with their sign
  locked  : Bool := false
  p       : Nat := 0             -- P in taps × 2^16 (R137); 0 before the first lock
  pPrev   : Nat := 0             -- its value at the end of the frame before
  lockPrev : Bool := false
  pOld    : Nat := 0             -- the same one frame earlier
  lockOld : Bool := false
  closeAt : Nat := 0             -- sample on which the timer closes the window; 0 before the first sample
  timed   : Bool := false        -- windows close on the timer
  due     : List HalfEnd := []   -- window ends not yet handled
  openZc  : Option Int := none   -- opening instant of the half-cycle in progress
  prevZc  : Option Int := none   -- opening instant of the half-cycle before
  halves  : Nat := 0             -- half-cycles in the 10/12-cycle window in progress
  winZc   : Option Int := none   -- opening instant of that window
  wins    : Nat := 0             -- 10/12-cycle windows in the 1 s window in progress
  f200    : Option Nat := none   -- FREQ_200 and FREQ_10S; none: WARMING
  f10     : Option Nat := none
  f10First : Option Int := none  -- first and last positive crossings of the 10 s interval
  f10Last : Option Int := none
  f10Cnt  : Nat := 0
  f10Bad  : Bool := true         -- unlocked at some moment of the interval
  angle   : Option Nat := none   -- none: WARMING
  clip    : Bool := false        -- the frame last computed holds CLIP samples
  early   : Bool := false        -- its last sample ended a window whose crossing the next frame completes
  deriving DecidableEq, Repr

/-- A running sum of squares with its number of samples. -/
structure Acc where
  s : Int := 0
  n : Nat := 0
  deriving DecidableEq, Repr

/-- RMS windows of one input (Table 4.3): n, or 256 + v. -/
structure Sig where
  half  : Acc := {}          -- half-cycle in progress, up to the last old-side sample of the reference
  tail  : Acc := {}          -- the samples after it
  cuts  : List Acc := []     -- half-cycles closed but not yet handled
  h1    : Option Acc := none -- the last closed half-cycle, and the one before
  h2    : Option Acc := none
  cyc   : Acc := {}          -- 10/12-cycle window in progress
  sec   : Acc := {}          -- 1 s window in progress
  rmsH  : Option Nat := none -- last values; none: WARMING
  rmsU  : Option Nat := none -- Urms(1/2)
  rmsC  : Option Nat := none
  rmsS  : Option Nat := none
  rmsSFn : Nat := 0          -- frame in which the 1 s window closed
  rmsP  : Option Nat := none -- the 1 s value before it, and its frame
  rmsPFn : Nat := 0
  deriving DecidableEq, Repr

/-- Sums of a circuit over samples (R114, R154): per phase p, q (2^-90) and the apparent term (2^-94), and the residual
squares (2^-82). -/
structure CAcc where
  p   : List Int := []
  q   : List Int := []
  a   : List Int := []
  r   : Int := 0
  n   : Nat := 0
  vec : Bool := false        -- some apparent term was not available: the vector value
  deriving DecidableEq, Repr

/-- 10/12-cycle window of a circuit. -/
structure CWin where
  half  : CAcc := {}
  tail  : CAcc := {}
  cuts  : List CAcc := []
  cyc   : CAcc := {}
  valid : Bool := false
  res   : Option Nat := none -- last residual RMS
  hdue  : Option (Nat × Nat) := none  -- phase A's harmonic window has closed: its frame and length; the power is not formed yet
  hv    : Bool := false      -- harmonic power is valid (R160)
  deriving DecidableEq, Repr

/-- Quadrature filter of a voltage channel (R107) and its recent samples. -/
structure Quad where
  w  : Int := 0
  vp : Int := 0
  deriving DecidableEq, Repr

/-- A detector of one unit: state, consecutive count, start instant, extreme (Tables 5.2, 5.3). -/
structure Det where
  on    : Bool := false
  init  : Bool := false      -- a first valid value has been seen
  cnt   : Nat := 0
  start : Int := 0
  cand  : Int := 0           -- start instant of the count in progress
  ext   : Nat := 0
  extCh : Nat := 0
  mask  : Nat := 0
  deriving DecidableEq, Repr

/-- Substitute of a retired voltage channel (R228): the channel in use, θ and k. -/
structure Subst where
  src   : Nat                -- 0–11, 255 nominal
  theta : Nat
  k     : Nat
  absent : Bool := false     -- its channel is ABSENT, as already answered (R228)
  deriving DecidableEq, Repr

/-- Resampling clock of a window reference (R143, R144): the instant of the next point in units of 2^-38 / 5 samples. -/
structure Clock where
  t    : Nat := 0
  run  : Bool := false
  last : Option Nat := none     -- the point before, in 1/256 samples
  deriving DecidableEq, Repr

/-- A harmonic window in progress or complete (R144, R148). -/
structure HWin where
  pts    : List Int := []       -- newest first
  count  : Nat := 0
  len    : Nat := 0             -- sum of Δ, units of 2^-38 / 5 samples
  fsum   : Int := 0             -- sum of f_t over its points, units of 2^-20 Hz
  unsync : Bool := false
  clip   : Bool := false
  est    : Bool := false
  fn     : Nat := 0             -- frame holding the last point
  ref    : List Int := []       -- the reference at the same instants, newest first
  sync   : Bool := false        -- the reference was LOCKED at the last point
  ents   : Nat := 0             -- RING-2 entries: channel-frames of points (R14)
  deriving DecidableEq, Repr

/-- Resampler of one input: window in progress, complete windows in RING-2, recent aligned samples newest first. -/
structure Harm where
  on     : Bool := false
  win    : HWin := {}
  ready  : List HWin := []
  hist   : List (Int × Bool × Bool) := []  -- sample, CLIP, substituted
  mags   : List Nat := []       -- C_h and θ_h of the last window, for harmonic power
  phs    : List Nat := []
  wlen   : Nat := 0             -- units of 2^-38 / 5 samples
  wfn    : Nat := 0             -- frame holding the last point of that window
  flags  : Nat := 0
  valid  : Bool := false        -- a valid window since the input's last enable (R160)
  from_  : Nat := 0             -- frame of that enable, and whether there was one before it
  old    : Bool := false
  warm   : Nat := 0             -- frame of the last loss of lock of its reference: later windows alone count (R160)
  deriving DecidableEq, Repr

/-- A window result in RING-4: input, frame W, values by object key. -/
structure SpecRes where
  inp  : Nat
  fn   : Nat
  vals : List (Nat × Nat)
  deriving DecidableEq, Repr

/-- What core 0 gives of one circuit and frame: per phase SP, SQ (2^-90 units) and SS (2^-94 units), and the flags.  A record
that is `missing` gets its sums by R19. -/
structure CRes where
  c       : Nat
  missing : Bool                -- to be estimated by R19
  sp      : List Int
  sq      : List Int
  ss      : List Int
  vec     : List Bool           -- the phase uses the vector apparent value
  flags   : Nat                 -- bits of Table 4.8 known to the Tannery
  live    : List Bool           -- phases that have data and are not retired
  shp     : List Int            -- p of each sample, summed over the phases, for fine pulse timing (R206)
  shq     : List Int
  deriving DecidableEq, Repr

/-- A RING-3 frame: circuit results in order, the published values of the frame, and how far it has been accrued. -/
structure R3 where
  fn    : Nat
  lost  : Bool
  ccts  : List CRes
  base  : List (Nat × Nat × Nat)  -- baseline totals of each channel at the end of the frame, 2^-40 mWh
  done  : Nat                   -- circuits accrued so far
  fin   : Bool                  -- frame-end work done
  bal   : List (Nat × Int)      -- measured e_p of the balance circuits, µWh × 2^40, by circuit
  balSkip : Bool
  wired : Bool := false
  deriving DecidableEq, Repr

/-- A capture in progress (R156 to R159). -/
structure Capt where
  id     : Nat
  trig   : Nat                  -- trigger sample, global index
  cause  : Nat
  src    : Nat
  chans  : List Nat             -- channel codes of Table 5.5
  pre    : Nat                  -- samples wanted before the trigger
  post   : Nat                  -- requested
  next   : Nat                  -- next sample to store
  first  : Option Nat := none   -- first sample stored
  got    : Nat := 0             -- samples stored so far
  rows   : List (List Int) := []  -- newest first, not yet in a block
  rowAt  : Nat := 0             -- sample index of the oldest of them
  seq    : Nat := 0             -- data blocks built so far
  trunc  : Bool := false
  clip   : Bool := false
  unsync : Bool := false
  est    : Bool := false
  gen    : Nat
  time   : Nat
  closed : Bool := false        -- all samples are in
  deriving DecidableEq, Repr

/-- A 4 KiB block of a capture in RING-8: sequence 0 is the header block (R158). -/
structure CapBlock where
  id    : Nat
  seq   : Nat
  cause : Nat := 0
  flags : Nat := 0
  bytes : Bytes
  deriving DecidableEq, Repr

/-- A row of the pre-trigger buffer: sample index, one value per channel, CLIP, ESTIMATED, UNSYNC. -/
structure CapRow where
  m      : Nat
  vals   : List Int
  clip   : Bool
  est    : Bool
  unsync : Bool
  deriving DecidableEq, Repr

/-- The capture engine. -/
structure Cap where
  buf    : List CapRow := []          -- newest first
  cur    : Option Capt := none
  hold   : Nat := 0                   -- last frame of the hold-off
  now    : Option (Nat × Nat) := none -- CAPTURE_NOW: ID promised and trigger sample
  lastId : Nat := 0                   -- ID issued last
  ring8  : List CapBlock := []
  deriving DecidableEq, Repr

/-- The Tannery. -/
structure Tan where
  zc    : Tab Zc := []
  quad  : Tab Quad := []
  sig   : Tab Sig := []
  cwin  : Tab CWin := []
  vdet  : Tab Det := []        -- 4 v + kind: 0 SAG, 1 SWELL, 2 INTERRUPTION
  gdet  : Tab Det := []        -- 4 group + kind
  idet  : Tab Det := []        -- overcurrent by channel
  ndet  : Tab Det := []        -- neutral imbalance by circuit
  pdet  : Tab Det := []        -- phase loss by circuit
  subst : Tab (Option Subst) := []
  bandSet : Bool := false      -- the band is decided (R139)
  clk   : Tab Clock := []
  harm  : Tab Harm := []       -- n, 256 + v
  ring3 : List R3 := []
  ring4 : List SpecRes := []
  powDue : List (Nat × Nat) := []     -- harmonic power first published with a snapshot: its frame, and the circuit
  ring4Held : List (Nat × Nat) := []  -- snapshot frame, and RING-4 entries that its publication returns (R15)
  angle : Tab Nat := []        -- last valid angles, for θ (R228)
  uC    : Tab Nat := []        -- last valid 10/12-cycle U_RMS
  ivalEnd : Option Nat := none -- last frame of a 10 s interval whose values are not published yet
  baseFn  : Option Nat := none -- last frame that the baseline path has accrued, and its entries, 2^-40 mWh (R399)
  baseEnt : Tab Int := []
  deriving DecidableEq, Repr

end Sys2Proof.Machine
end

