-- ==== Sys2Proof/Machine/StateBill.lean ====
section
/-! DEFINITION. The state of the Hallmark core: accrual, demand, billing boundaries, stale state, balance, load profile and
pulses (chapters 4, 6 and 7). -/

namespace Sys2Proof.Machine

/-- One entry of a frame: register kind and amount in 2^-40 units (negative only for AI in SIGNED mode), and the kind and
magnitude that demand and pulses take (Table 4.4, R177, R204). -/
structure Ent where
  kind : Nat
  amt  : Int
  pk   : Nat
  pamt : Int
  deriving DecidableEq, Repr

/-- A journal slot (R191): its key, its energy by kind since the last sealed store in 2^-40 units, and the part of it that the
store in progress holds. -/
structure Slot where
  tariff : Nat
  period : Nat
  d      : List Int
  held   : List Int := []
  kept   : List Int := []           -- what stores have sealed while the record of the period before awaits its programming (R195)
  deriving DecidableEq, Repr

/-- A closed sub-interval (R178). -/
structure Sub where
  imp   : Int
  exp   : Int
  short : Bool
  deriving DecidableEq, Repr

/-- The demand interval in progress of a circuit (R175 to R181): aligned to local standard time or to FN, its aligned start in
frames of that clock, its length, and the configuration it runs under. -/
structure Ivl where
  timed : Bool := false
  start : Int := 0
  len   : Nat := 0
  mins  : Nat := 15
  slide : Bool := false
  subs  : Nat := 1
  imp   : Int := 0
  exp   : Int := 0
  short : Bool := true
  tinv  : Bool := false          -- a frame of it lay in INVALID time
  absb  : Bool := false          -- absorbed energy was entered
  born  : Nat := 0               -- frame at which it began here
  deriving DecidableEq, Repr

/-- The closing interval that the journal still holds (R191), with the tariff that closed it and the frame of the close. -/
structure Closing where
  ivl    : Ivl
  prev   : List Sub
  tariff : Nat
  fn     : Nat
  time   : Nat
  held   : Bool := false         -- the store in progress holds its result
  done   : Bool := true          -- step 2 of R190 has been taken
  deriving DecidableEq, Repr

/-- What the Hallmark core keeps of a circuit beyond its objects. -/
structure BCct where
  since    : Nat := 0               -- frame B at which the circuit was defined; 0 at a start (R119)
  dirCnt   : Nat := 0               -- frames of the opposite sign (R118)
  dirFirst : Nat := 0
  dirFn    : Nat := 0               -- the last frame counted
  last     : Option CRes := none    -- last result that was not missing (R19)
  ents     : List Ent := []         -- entries of the last frame accrued (R399)
  tariff   : Option Nat := none     -- tariff and period in effect; none before the first frame
  period   : Nat := 0
  slotA    : Option Slot := none
  slotB    : Option Slot := none
  ivl      : Option Ivl := none
  subs     : List Sub := []         -- closed sub-intervals, newest first
  closing  : Option Closing := none
  susp     : Bool := false          -- demand suspended by stale state (R197)
  cut      : Bool := false          -- its interval is to close SHORT, when there is room for it (R181, R187, R191)
  fresh    : Bool := false          -- the interval after that starts new sub-intervals
  prof     : Nat := 0               -- STATUS bits of the profile interval in progress (Table 12.13)
  base     : List Nat := []         -- SI, AI, SE, AE totals at the last roll (R343)
  ratioI   : Nat × Nat := (1, 1)
  ratioE   : Nat × Nat := (1, 1)
  unit     : Nat := 0               -- ENERGY_UNIT that its registers are in (R122)
  deriving DecidableEq, Repr

/-- A boundary event that waits for a forced roll (R191): of a schedule (0) or of one circuit's interval (1). -/
structure Wait where
  kind   : Nat
  id     : Nat
  since  : Nat                      -- frame at which it was due
  time   : Nat
  ready  : Bool := false            -- the roll is sealed
  late   : Bool := false            -- a clock step or an outage had passed its close (R188)
  deriving DecidableEq, Repr

/-- A boundary record (R189, Table 12.8): BSN, frame X and its TIME48, per schedule the kinds present (1 interval, 2 close, 4 switch, 8
step), outgoing and incoming tariff, and the steps done. -/
structure Bound where
  bsn   : Nat := 0
  fn    : Nat := 0
  time  : Nat := 0
  kinds : List Nat := []
  outs  : List Nat := []
  incs  : List Nat := []
  steps : Nat := 0x0F
  deriving DecidableEq, Repr

/-- A period record that awaits its programming (R183, R356): circuits with registers, wrap counts, maxima and FLAGS. -/
structure HistRec where
  sched  : Nat
  period : Nat
  cause  : Nat
  fn     : Nat
  time   : Nat
  bsn    : Nat
  ccts   : List (Nat × List Nat × List Nat × List Nat × Nat)
  deriving DecidableEq, Repr

/-- What a frame gives the pulses of one circuit (R204, R206): increments by kind in 2^-40 units, and the shares of its samples. -/
structure PulseIn where
  c    : Nat
  inc  : List Int
  shp  : List Int
  shq  : List Int
  unit : Nat
  deriving DecidableEq, Repr

/-- A pulse output (R205, R207, R209); instants are in sample periods since FN 0. -/
structure PulseOut where
  acc    : Int := 0
  due    : List Nat := []           -- edges not yet reached, oldest first
  high   : Option Nat := none       -- end of the active time
  idle   : Nat := 0                 -- end of the inactive time
  deriving DecidableEq, Repr

/-- A circuit on the pulse train (R211). -/
structure PtCct where
  acc  : Int := 0
  pend : Nat := 0
  disc : Nat := 0                -- accumulators and pulses discarded (R205)
  deriving DecidableEq, Repr

/-- Pulse outputs and the pulse train: per frame not yet published, the pulses that fell due and their first slots, and the
header bits CLIPPED and ESTIMATED. -/
structure Pulses where
  out   : Tab PulseOut := []
  pt    : Tab PtCct := []
  due   : List (Nat × List (Nat × Nat × Nat)) := []
  marks : List (Nat × Bool × Bool) := []
  sent  : Option (List Bool) := none   -- the 2,080 bits of the last pulse-train frame
  deriving DecidableEq, Repr

/-- Billing as a whole. -/
structure Bill where
  run     : Bool := false           -- frame G has been accrued since the start
  g       : Option Nat := none      -- frame G
  next    : Nat := 0                -- frame that the core works on, or will
  begun   : Bool := false           -- its boundary work is done
  cct     : Tab BCct := []
  sched   : List (Option Nat) := [] -- tariff in effect of each schedule
  held    : List R3 := []           -- lost frames that wait for a good one (R19)
  closes  : List (Nat × Nat) := []  -- CLOSE_NOW: mask, first frame
  steps   : List (Nat × Nat × Nat) := []  -- clock steps not yet met: K, old and new TIME48
  waits   : List Wait := []
  bound   : Bound := {}
  staleAt : Option Nat := none      -- first frame of stale state, and the frame that ended it
  staleTo : Option Nat := none
  wired   : Bool := false           -- the WIRING check of this start is done
  wireRef : Bool := false           -- a RESUME waits for a WIRING check to record WIRING_REF
  marks   : Tab (Nat × Nat) := []   -- baseline marks of the channels, 2^-40 mWh (R128)
  absorb  : Tab (Nat × Nat) := []   -- baseline totals that frame G absorbs up to
  fp      : List PulseIn := []      -- pulses of the frame in progress
  unacc   : List Int := []          -- UNACCOUNTED at every 1,024th frame, newest first, 2^-40 mWh (R132)
  rateDue : Bool := false           -- a 1,024th frame awaits BALANCE_RATE
  roles   : List (Nat × Nat) := []  -- balance roles of the last frame
  hist    : List HistRec := []
  closedAt : Tab Nat := []           -- frame of the last close of each schedule
  profAt  : Option (Bool × Int × Nat) := none  -- profile interval in progress: clock, aligned start, length
  profDue : List (Nat × Bytes) := []     -- records of ended intervals that await PROFILE_INTERVAL_END
  ring7   : List (Nat × Bytes) := []     -- profile records: SEQ, bytes
  over7   : List (Nat × Bytes) := []
  profGap : Nat := 0                -- records lost since the last gap record (R15)
  certs   : List Nat := []          -- frames of the certificates of the last 1,024 frames (R199)
  pmaxHit : List Nat := []          -- circuits over P_MAX in the frame in progress
  cyc     : Nat := 0                -- cycles that the core has taken for the frame in progress (R23)
  deriving DecidableEq, Repr

end Sys2Proof.Machine
end

