-- ==== Sys2Proof/Machine/StateCore.lean ====
section
/-! DEFINITION. The state that every chapter shares: modes, events waiting in RING-5, acknowledged commits and methods,
snapshots, the store engine's jobs and page frames (chapters 1, 9 and 12). -/

namespace Sys2Proof.Machine

/-- The modes of Ozmar (R391, R388). -/
inductive Mode where
  | off | run | lastGasp | gecko | sleep | recovery
  deriving DecidableEq, Repr

/-- An event record of RING-5 (Table 12.14): its code, the fields its table lists in order, frame and TIME48.  `tail` is bit 1 of
FLAGS. -/
structure Event where
  code   : Nat
  fields : List Nat
  fn     : Nat
  time   : Nat
  tail   : Bool := false
  deriving DecidableEq, Repr

/-- What takes effect at the frame B of an acknowledgement: the settings of a commit, or the effect of a method (R246). -/
inductive Eff where
  | write
  | resume
  | reinstate (kind num : Nat)
  | resolve (legal : Bool) (record winner : Nat)
  | restore (gen mask : Nat)
  | activate (slot : Nat)
  deriving DecidableEq, Repr

/-- One change of an object: key, value before, value after. -/
structure Chg where
  key : Nat
  old : Nat
  new : Nat
  deriving DecidableEq, Repr

/-- An acknowledged commit or method (R34 to R37). -/
structure Commit where
  b    : Nat
  d    : Nat
  txn  : Nat                -- 0 for an implicit write or a method
  chg  : List Chg
  eff  : Eff
  done : Bool               -- COMMIT_TAKES_EFFECT has run
  port : Nat := 0           -- port and role of its sender
  role : Nat := 0
  deriving DecidableEq, Repr

/-- A snapshot (R28): frame, generation, values of V objects that differ from their defaults. -/
structure Snap where
  fn   : Nat
  gen  : Nat
  vals : Tab Nat
  late : Bool
  lost : Bool := false   -- FRAME-LOST: published with its successor (R19)
  wins : List Nat := []  -- STATUS objects of the window values first published with it (Table 5.10)
  deriving DecidableEq, Repr

/-- What a page frame holds: objects of the page that differ from their defaults, the demand intervals and ratios of circuits, or
raw bytes of a host-area, twin or raw-written page. -/
structure Img where
  vals  : List (Nat × Nat) := []
  ivl   : List (Nat × Option Ivl × List Sub) := []
  ratio : List (Nat × (Nat × Nat) × (Nat × Nat)) := []
  unit  : List (Nat × Nat) := []   -- circuit, and the unit that its registers are in (R191)
  bg    : Option (Tab Nat) := none -- the hourly store of the lane values (R91)
  raw   : Option Bytes := none
  rawVals : List (Nat × Nat) := []                 -- objects of the page that those bytes gave
  own   : Option (Nat × List (Nat × Nat)) := none  -- a copy of a legal twin record as Ozmar wrote it: SEQ and objects (R349)
  evs   : List Event := []                         -- entries of Gecko's event pages (R406)
  deriving DecidableEq, Repr

/-- A page frame: its seal (Table 12.1), whether its CRC matches, and what it holds. -/
structure Seal where
  count : Nat := 0
  fn    : Nat := 0
  ok    : Bool := true
  img   : Img := {}
  deriving DecidableEq, Repr

/-- One logical page: the two frames that serve it (R325), which of them does, and its status (Table 12.4). -/
structure PageS where
  a        : Option Nat := none    -- frame in place of 2p
  b        : Option Nat := none    -- frame in place of 2p + 1
  serveB   : Bool := false
  oneFrame : Bool := false
  single   : Bool := false         -- stored in place at its last store (R325)
  restored : Bool := false
  stat     : Nat := 1
  raw      : Option Bytes := none  -- SRAM bytes of a host-area or raw-written page
  rawVals  : List (Nat × Nat) := []                 -- objects of the page that those bytes gave: they hold while these do
  own      : Option (Nat × List (Nat × Nat)) := none -- a copy of a legal twin record as Ozmar wrote it: SEQ and objects (R349)
  rolled   : Nat := 0              -- frame of its last roll (R335, R336)
  dirty    : Bool := false         -- changed since its last store (R335)
  deriving DecidableEq, Repr

/-- State of a unit that no object shows: page frames, sectors and ports (Table 8.1). -/
structure UnitS where
  state : Nat := 0
  fail  : Nat := 0
  pass  : Nat := 0
  weak  : Nat := 0          -- consecutive scrubs that found it weak (R350)
  spare : Bool := false     -- a reinstated page frame among the spares (R235)
  since : Nat := 0          -- frame of its last change of state
  out   : Bool := false     -- a reinstated sector whose erase has not been verified yet (R235)
  deriving DecidableEq, Repr

/-- What the sealing of a job acknowledges (R34, R246): the tag slot and operation that wait, and what then comes about. -/
inductive Ack where
  | none
  | commit (slot txn nb port role : Nat) (eff : Eff) (vals : List (Nat × Nat))
  | page (slot : Nat) (keys : List Nat)   -- the configuration objects that the raw bytes have changed
  | twin (slot : Nat) (seq : Nat)
  | judge (log : Bool)                    -- host twin records show which copy serves; after a RESTORE a CONFLICT or loss is logged (R348)
  deriving DecidableEq, Repr

/-- A store that waits for the store engine (R326): a page with the values that the store adds to it. -/
structure Job where
  page  : Nat
  fn    : Nat                       -- frame in which it was posted, or the last frame whose data it holds
  ovr   : List (Nat × Nat) := []
  raw   : Option Bytes := none
  own   : Option (Nat × List (Nat × Nat)) := none  -- a copy of a legal twin record (R349)
  hall  : Bool := false             -- posted by the Hallmark core through RING-6
  ack   : Ack := .none
  tries : Nat := 0                  -- repeats of R230
  img   : Option Img := none        -- what the store writes, fixed at its first row (R328)
  half  : Bool := false             -- the frame that it writes and whether the page is stored in place, fixed at its first row (R325)
  single : Bool := false
  deriving DecidableEq, Repr

end Sys2Proof.Machine
end

