-- ==== Sys2Proof/Machine/StateDev.lean ====
section
/-! DEFINITION. The state of the device as a whole that no chapter's engine owns: the sampling of CAL_EN and a time setting on its way
(chapters 3 and 9). -/

namespace Sys2Proof.Machine

/-- An accepted time setting (R261): K, its kind (0 none, 1 slew, 2 step), and TIME48 at K. -/
structure TimeSetting where
  k    : Nat
  kind : Nat
  val  : Nat
  deriving DecidableEq, Repr

/-- Device-level state. -/
structure Dev where
  calRun : Nat := 0                     -- equal samples of CAL_EN in a row (R94)
  tset   : Option TimeSetting := none
  rtcTime : Nat := 0                    -- RTC_TIME and RTC_FN (R401)
  rtcFn  : Nat := 0
  deriving DecidableEq, Repr

end Sys2Proof.Machine
end

