-- ==== Sys2Proof/Machine/StateImg.lean ====
section
/-! DEFINITION. The state of firmware images: the update lease, the units written to a slot, a scheduled activation and its health
check (chapter 13). -/

namespace Sys2Proof.Machine

/-- A holder of the lease: port 0 SPI, 1 T1S, 2 PLC, and session slot (R375). -/
structure Holder where
  port : Nat
  sess : Nat
  deriving DecidableEq, Repr

/-- The update lease (R374, R375). -/
structure Lease where
  holders : List Holder
  size    : Nat
  digest  : Bytes
  lastFn  : Nat                 -- frame of the last update method
  deriving DecidableEq, Repr

/-- What a slot holds: size and digest of the image whose units were written, and the units (R377). -/
structure SlotS where
  size   : Nat := 0
  digest : Bytes := []
  units  : List Nat := []
  deriving DecidableEq, Repr

/-- A scheduled activation, its health check, or a revert (R380 to R385). -/
structure Handover where
  slot     : Nat
  b        : Nat
  digest   : Bytes := []        -- manifest digest in the handover record (R380)
  prepared : Bool := false      -- the copies have been checked
  quiet    : Bool := false      -- no request starts (B − 16)
  begun    : Bool := false      -- frame B has begun
  switched : Bool := false      -- the Hallmark core has switched banks
  lates    : Nat := 0           -- frames of the check published LATE
  inv0     : Nat := 0           -- INVARIANT_FAULTS at B
  nets     : List (Nat × Int × Int) := []  -- circuit, registers' net and baselines' net at the end of B − 1
  pass     : Bool := false
  fail     : Option (Nat × Nat) := none    -- cause and frame H
  wdog     : Bool := false      -- a watchdog reset occurred
  deriving DecidableEq, Repr

/-- Images as a whole. -/
structure Imgs where
  lease : Option Lease := none
  slots : Tab SlotS := []
  hand  : Option Handover := none
  noneValid : Bool := false     -- ROM recovery began with no valid slot (R389)
  deriving DecidableEq, Repr

end Sys2Proof.Machine
end

