-- ==== Sys2Proof/Machine/StatePlc.lean ====
section
/-! DEFINITION. The state of the power-line port and of the zero-crossing time base (chapter 11): membership, neighbours, routes, RING-14,
frames that wait for a route, the repeater offer, the stranger detector, crossings and their numbering. -/

namespace Sys2Proof.Machine

/-- A neighbour table entry (R300, R309, R315, R232). -/
structure Nbr where
  addr   : Nat
  fwd    : Option Nat := none     -- forward LQI of its last tone map response
  rev    : Nat := 0               -- LQI measured on its last frame
  rtx    : List Nat := []         -- retransmissions of the last 32 unicast frames to it, newest first
  phase  : Option Nat := none
  state  : Nat := 0               -- 0 OK, 1 SUSPECT, 2 RETIRED
  since  : Nat := 0               -- frame since which it is SUSPECT
  lastFn : Nat := 0
  toneFn : Nat := 0               -- frame of the last refresh of its tone map
  gain   : Int := 0               -- transmit gain that it asked for, dB relative to TX_ATTEN (R303)
  black  : Option Nat := none     -- frame since which it is blacklisted (R300)
  deriving DecidableEq, Repr

/-- A route table entry; `relay` says that Ozmar has forwarded for others on it (R317). -/
structure Route where
  dest  : Nat
  next  : Nat
  cost  : Nat
  hops  : Nat
  fn    : Nat                     -- frame of its discovery
  relay : Bool := false
  deriving DecidableEq, Repr

/-- What a frame to be sent is. -/
inductive PMsg where
  | bridle (bytes : Bytes) (part parts : Nat) (clear : Bool)   -- one of the 6LoWPAN fragments of a datagram; outside a session
  | echoReply
  | beacon
  | toneMapRequest
  | toneMapResponse (lqi : Nat)                                -- with the LQI measured on the frame that asked
  | routeRequest (orig dest cost hops : Nat) (unicast : Bool)
  | routeReply (orig dest cost hops : Nat)
  | routeError (dest : Nat)
  | pathReply
  | panIdConflict (pan : Nat)
  | forward (orig : Nat)
  | broadcast (orig seq : Nat)                                 -- another device's, relayed
  | lbpUp (eui : Nat)
  | lbpDown (eui : Nat)
  deriving DecidableEq, Repr

/-- A frame to be sent: its destination, none for a broadcast, its next hop, the frame since which it waits, the hops that it may make
(adpMaxHops), whether the modem has started it (R318), and the attenuation at which it goes out, dB (R303). -/
structure PTx where
  dest  : Option Nat
  next  : Nat := 0xFFFF
  msg   : PMsg
  fn    : Nat
  hops  : Nat := 1
  on    : Bool := false
  atten : Nat := 0
  deriving DecidableEq, Repr

/-- An announcement handed to the modem, with its deadline (R307): one UDP datagram to ff02::1 on port 49,257 with hop limit 1 (R306);
the address as OCTETS, its first byte the lowest. -/
structure Ann where
  cycle    : Nat
  deadline : Int
  bytes    : Bytes
  may      : Bool := true         -- the channel has been free for it since it was handed over, or STRANGER_MAX forced it (R318)
  atten    : Nat := 0             -- TX_ATTEN at the hand-over, dB (R303)
  dest     : Nat := 0xFF + 0x02 * 2 ^ 8 + 2 ^ 120
  port     : Nat := 49257
  hopLimit : Nat := 1
  deriving DecidableEq, Repr

/-- The stranger detector (R318). -/
structure Stranger where
  busy  : Bool := false
  hi    : Nat := 0                -- consecutive blocks at or above STRANGER_LVL
  lo    : Nat := 0                -- consecutive blocks below 70 % of it
  len   : Nat := 0                -- length of the episode, ms
  wait  : Nat := 0                -- time for which a transmission has been deferred, ms
  logFn : Option Nat := none      -- frame of the last STRANGER event
  deriving DecidableEq, Repr

/-- The conditions of the repeater offer (R317), judged once a second: seconds without interruption. -/
structure Offer where
  occ   : Nat := 0                -- sum of the occupancy of RING-14 over the second in progress
  good  : Nat := 0                -- both conditions have held
  few   : Nat := 0                -- too few cheap neighbours
  full  : Nat := 0                -- RING-14 too full
  hold  : Option Nat := none      -- withdrawal: frame until which established routes are kept
  deriving DecidableEq, Repr

/-- A datagram of which 6LoWPAN fragments have arrived: its headers, tag, size, and the pieces with their offsets (R321). -/
structure Frag where
  head  : Datagram
  tag   : Nat
  size  : Nat
  parts : List (Nat × Bytes)
  fn    : Nat                     -- frame of the first piece
  deriving DecidableEq, Repr

/-- The power-line port. -/
structure Plc where
  gmk    : Option Nat := none     -- group master key
  pans   : List Beacon := []      -- beacons that the last scan found (R299)
  cand   : Option Beacon := none  -- the PAN and the LBA chosen
  ring15 : List PlcFrame := []    -- RING-15: frames received, not yet processed
  frags  : List Frag := []
  seen   : List (Nat × Nat × Nat) := []  -- broadcasts relayed: originator, sequence number, frame
  asked  : List (Nat × Nat) := [] -- route discoveries in progress: destination, and the frame of the request
  pdc    : Nat := 0               -- PDC of the frame sent last (R307)
  nbr    : Tab (Option Nbr) := []
  route  : Tab (Option Route) := []
  ring14 : List PTx := []
  queue  : List PTx := []         -- waits for RING-14 credit in operational-core memory
  wait   : List PTx := []         -- waits for a route
  retry  : Option Nat := none     -- frame at which the bootstrap is repeated
  str    : Stranger := {}
  offer  : Offer := {}
  ann    : Option Ann := none
  annSeq : Nat := 0
  annFn  : Option Nat := none     -- frame of the last announcement
  deriving DecidableEq, Repr

/-- A sender of announcements heard (R311). -/
structure Heard where
  sender : Nat
  leader : Nat
  depth  : Nat
  fn     : Nat
  deriving DecidableEq, Repr

/-- The time base (R304 to R313); instants and the period are in units of 2^-16 tap. -/
structure Tb where
  p     : Int := 0                -- period P; 0 before it is seeded
  x     : Int := 0                -- predicted instant of the next crossing
  used  : List Int := []          -- instants used for the last 64 crossings, newest first
  num   : Option Int := none      -- number of the newest of them
  acc   : Nat := 0                -- frame of the last accepted crossing
  hold  : Nat := 0                -- frame in which HOLDOVER was entered
  last  : Option Int := none      -- last number that a leader gave (R312)
  lead  : Nat := 0                -- lead of the channel in use over TIME_PHASE, 1/65,536 turn
  errs  : List Int := []          -- e of the announcements since adoption while δ is not 0 (at most 16)
  comp  : Bool := false           -- δ compensates the phase class (R309 step 4)
  delta : Int := 0                -- δ
  cls   : Nat := 0                -- adopted class
  from_ : Nat := 0xFFFF           -- sender followed
  heard : List Heard := []
  prev  : Option (Nat × Nat) := none  -- leader and class of the announcement before
  slip  : Bool := false           -- the announcement before differed from the count
  wallFn : Option Nat := none     -- frame of the last time setting from the leader
  deriving DecidableEq, Repr

end Sys2Proof.Machine
end

