-- ==== Sys2Proof/Machine/StatePwr.lean ====
section
/-! DEFINITION. The state of supplies, the last gasp, Gecko and the tamper inputs (chapters 12 and 14): the Stirrup journal, the host
journal buffer, and what stays alive while the mains is away. -/

namespace Sys2Proof.Machine

/-- What the journal holds of one circuit (R341, R342): its two slots with their energies by kind (AI, AE, Q-I to Q-IV) and the two
intervals, in quanta of 2^J units beyond the last sealed stores, in the units of those stores. -/
structure JCct where
  c    : Nat
  j    : Nat                              -- quantum exponent J
  keyA : Option (Nat × Nat) := none       -- tariff and period of slot A
  keyB : Option (Nat × Nat) := none
  a    : List Int := []
  b    : List Int := []
  keptA : List Int := []                  -- what the slots keep for a record that is not programmed (R195), in 2^-40 units
  keptB : List Int := []
  closing : Option (Closing × Int × Int) := none   -- what closed, and import and export in quanta
  ivl  : Option (Ivl × Int × Int) := none  -- interval in progress
  subs : List Sub := []
  tariff : Option Nat := none             -- tariff of the last frame accrued
  susp : Bool := false
  est  : Bool := false                    -- entries were estimated at the warning (R399)
  deriving DecidableEq, Repr

/-- The baseline deltas of one channel, in 1 mWh (Table 12.7). -/
structure JBase where
  n  : Nat
  ai : Nat
  ae : Nat
  deriving DecidableEq, Repr

/-- The Stirrup journal (R341 to R344). -/
structure Journal where
  pfwFn   : Nat
  pfwUs   : Nat
  pfwTime : Nat
  sPfw    : Nat
  sBase   : Nat
  slew    : Int
  valid   : Bool                    -- TIME_STATE
  stale   : Bool
  running : Bool
  runFn   : Nat                     -- frame of the warning that wrote the circuit parts, and the first frame whose boundary
  from_   : Nat                     -- steps were not done then (R192)
  pages   : Nat                     -- pages that the last gasp writes
  sealed  : Nat                     -- pages sealed when the circuit parts were written
  baseOk  : Nat                     -- pages of the baseline part sealed, of six
  count   : Nat                     -- highest STORE_COUNT of its pages
  bound   : Bound := {}             -- boundary record with the steps done (R189, R192)
  ccts    : List JCct
  base    : List JBase
  marks   : Option (List (Nat × Nat × Nat)) -- marks of the channels; none: the baselines that the replay gives
  tail    : List (Nat × Bytes)      -- SEQ and entry
  lost    : Nat                     -- TAIL_LOST
  hj      : Tab Nat                 -- host journal bytes held
  hjLen   : Nat
  deriving DecidableEq, Repr

/-- A change of a tamper input (R403): 0 cover or 1 magnet, new state, mode number, RTC time and FN. -/
structure Tamper where
  kind : Nat
  st   : Nat
  mode : Nat
  time : Nat
  fn   : Nat
  deriving DecidableEq, Repr

/-- Gecko in the current outage (R404 to R407). -/
structure Gecko where
  since : Nat := 0                    -- RTC_FN at which GECKO was entered
  scans : Nat := 0
  next  : Nat := 0                    -- RTC_FN of the next scan
  mah   : List (Nat × Nat) := []      -- circuit and CWV_MAH, GECKO_E, scans above threshold of the outage
  e     : List (Nat × Nat) := []
  above : List (Nat × Nat) := []
  exit  : Option (Nat × Nat × Nat) := none  -- cause of its end, RTC_FN and RTC_TIME (R407)
  events : List Event := []           -- the event page, oldest first
  deriving DecidableEq, Repr

/-- Supplies and stops. -/
structure Pwr where
  journal  : Option Journal := none
  torn     : Bool := false            -- page 0 of the journal failed its seal
  done     : Bool := false            -- the last gasp is over and power good holds again (R400)
  replayed : Bool := false            -- REPLAY_DONE
  hjBack   : Bool := false            -- the host journal awaits its restoring (R345 step 7)
  hj       : Tab Nat := []            -- host journal buffer
  holdFrom : Option Nat := none       -- frame since which VHOLD is awaited
  holdTimed : Bool := false           -- VHOLD was below 9.0 V at power good: the charge is timed
  vbatLow  : Bool := false            -- VBAT-LOW was logged at this start
  vbat     : Nat := 0                 -- last VBAT measurement, mV, and its frame
  vbatFn   : Option Nat := none
  gecko    : Gecko := {}
  samples  : List (Nat × Nat) := []   -- last raw sample of COVER and MAGTAMP
  accepted : Tab Nat := []            -- accepted state of COVER and MAGTAMP (R403)
  tamper   : List Tamper := []        -- buffer of the VBAT domain
  late     : List Event := []         -- events that await the operational core (R408)
  upDue   : Bool := false           -- POWER-UP of this start is to be logged
  startFn  : Nat := 0                 -- S
  booted   : Nat := 0                 -- slot that runs
  bg       : Option (Tab Nat) := none -- lane values of the last hourly store as its page holds them; none while BLANK (R91)
  rollAt   : Option Nat := none       -- frame of the last rotation position
  gap      : Option Nat := none       -- last frame billed before a warm reset whose gap is to be estimated (R409), and the circuits
  gapDone  : List Nat := []           -- that had accrued the next one
  legalBase : Tab (List (Nat × Nat)) := [] -- values of a legal record served since its CONFLICT or loss was found (R349)
  gapBase  : Option Nat := none       -- the same for the baselines, and the baselines at the end of the gap
  gapMarks : List (Nat × Nat × Nat) := []
  evPages  : Tab (List Event) := []   -- entries of Gecko's event pages of earlier outages, by page (R406)
  legalWas : List (Nat × Nat) := []   -- objects of the legal twin records as last looked at for a store (R333)
  tailDone : Nat := 0                 -- frame of the warning whose journal's TAIL_LOST has been counted (R345, R355)
  stirrup  : Tab Bytes := []          -- pages of the Stirrup journal as sealed, by number (R341)
  deriving DecidableEq, Repr

end Sys2Proof.Machine
end

