-- ==== Sys2Proof/Machine/StateSrv.lean ====
section
/-! DEFINITION. The state of the object server and of the ports (chapters 1, 9 and 10): request rings, tag slots, RING-12 and
RING-13, transactions, subscriptions, handshakes and sessions, the SPI pins and the legacy window, the Ethernet segment. -/

namespace Sys2Proof.Machine

/-- An operation of a request (Table 10.2). -/
structure Op where
  code : Nat
  idx  : Nat
  sub  : Nat
  data : Bytes
  deriving DecidableEq, Repr

/-- An operation of a response. -/
structure OpRes where
  code : Nat
  idx  : Nat
  sub  : Nat
  st   : Nat
  data : Bytes
  deriving DecidableEq, Repr

/-- A request frame in RING-9, RING-10 or RING-11, in plain text: header, payload, sender and counter. -/
structure ReqFrame where
  port  : Port
  sess  : Option Nat := none       -- session slot on a network
  hs    : Option Nat := none       -- handshake whose key verified a HELLO step 2
  addr  : Nat := 0                 -- sender's IPv6 address and UDP port
  sport : Nat := 0
  ctr   : Nat := 0
  bytes : Bytes
  units : Nat                      -- credit held
  ord   : Nat                      -- order of arrival over all ports
  fn    : Nat                      -- frame of arrival
  deriving DecidableEq, Repr

/-- A request bound to a tag slot (R24 to R26), with the results of its operations so far. -/
structure Tag where
  port  : Port
  sess  : Option Nat := none
  tag   : Nat                      -- the host's tag
  txn   : Nat := 0
  fnf   : Nat := 0                 -- FN field
  ord   : Nat := 0
  fn    : Nat := 0                 -- frame in which its last frame arrived
  parts : List (Nat × Bytes × Bool) := []  -- counter, payload, MANY
  full  : Bool := false            -- its last frame has arrived
  ops   : List Op := []
  begun : Bool := false
  snap  : Option Snap := none      -- the snapshot that serves it (R30)
  used  : Bool := false            -- it has read a published value
  res   : List OpRes := []
  wait  : Bool := false            -- the next operation waits for a store or a signature
  hdr   : Nat := 0                 -- TXN of the response header
  tick  : Option Nat := none       -- tick at which a written V object takes effect (R249)
  fst   : Nat := 0                 -- frame status
  fin   : Option Nat := none       -- frame in which it finished
  left  : Option Bytes := none     -- payload of the response not yet in RING-12
  first : Bool := true             -- no frame of the response has entered RING-12
  stall : Bool := false            -- its next frame has found no room there
  part  : Nat := 0                 -- frames of the response that have entered RING-12
  deriving DecidableEq, Repr

/-- A response, refusal or notification frame in RING-12 or RING-13; CREDITS and the trailer are formed when it is handed out. -/
structure OutFrame where
  port : Port
  sess : Option Nat := none
  addr : Nat := 0                  -- destination without a session
  sport : Nat := 0
  kind : Nat := 1
  tag  : Nat
  st   : Nat := 0
  txn  : Nat := 0
  fn   : Nat := 0
  flags : Nat := 0
  data : Bytes := []
  slot : Option Nat := none        -- tag slot that its leaving releases
  ref  : Bool := false             -- in the refusal reserve (R274)
  clear : Bool := false            -- a zero trailer (R291, R292)
  part : Nat := 0                  -- number of the frame in its message, and of a first frame how many the message has (R271)
  parts : Nat := 1
  deriving DecidableEq, Repr

/-- An entry of a transaction's staging (R251): a staged value, or a tracked read. -/
structure Staged where
  key  : Nat
  val  : Option Nat                -- none: a read
  size : Nat
  deriving DecidableEq, Repr

/-- An open transaction (R250, R251). -/
structure Txn where
  id   : Nat
  port : Port
  sess : Option Nat
  rw   : Bool
  fn   : Nat                       -- frame of BEGIN
  last : Nat                       -- frame of the last request with its ID
  ord  : Nat                       -- acknowledgements before BEGIN
  snap : Option Snap := none       -- pinned snapshot
  stage : List Staged := []
  ovr  : Option Nat := none        -- first READ that overflowed
  deriving DecidableEq, Repr

/-- A subscription (R257, R258). -/
structure Subn where
  id    : Nat
  port  : Port
  sess  : Option Nat
  trig  : Nat
  param : Nat
  level : Int
  hyst  : Nat
  objs  : List Nat
  from_ : Nat                      -- first frame evaluated
  armed : Option Bool := none      -- none before the first evaluated value
  seen  : List (Nat × Nat) := []   -- values and status flags last notified
  fired : Bool := false            -- a firing is deferred
  last  : Option Nat := none       -- frame of the last notification
  seq   : Nat := 0
  deriving DecidableEq, Repr

/-- A handshake between step 1 and step 2 (R291). -/
structure Handshake where
  port  : Port
  addr  : Nat
  sport : Nat
  role  : Nat
  host  : Nat
  dev   : Nat
  hn    : Bytes
  dn    : Bytes
  fn    : Nat                      -- frame of the step-1 response
  deriving DecidableEq, Repr

/-- A session (R291 to R295). -/
structure Sess where
  port  : Port
  addr  : Nat
  sport : Nat
  role  : Nat
  host  : Nat
  dev   : Nat
  kin   : Bytes                    -- host-to-device key
  kout  : Bytes
  high  : Nat := 1                 -- H, highest counter received
  win   : List Nat := []           -- counters received in the window below H
  next  : Nat := 1                 -- next counter sent
  held  : List (Nat × Nat) := []   -- tags of messages partly sent, with the counter of their first frame (R271)
  last  : Nat                      -- frame of the last authenticated request
  opened : Nat := 0                -- frame in which it opened
  deriving DecidableEq, Repr

/-- The object server. -/
structure Srv where
  inq    : List ReqFrame := []     -- RING-9 to RING-11
  net    : List ReqFrame := []     -- network frames that await authentication, as received
  ord    : Nat := 0
  tags   : Tab (Option Tag) := []
  done   : List Nat := []          -- completed slots, oldest first
  ring12 : List OutFrame := []
  ring13 : List OutFrame := []
  midSpi : Option Nat := none      -- tag of the response message whose frames SPI is handing out (R271)
  hello  : List ReqFrame := []     -- HELLO frames parsed
  hands  : Tab (Option Handshake) := []
  sess   : Tab (Option Sess) := []
  txns   : List Txn := []
  lastId : Nat := 0                -- transaction ID issued last
  acks   : Nat := 0                -- acknowledgements so far
  acked  : List (Nat × Nat) := []  -- objects committed, with the number of their acknowledgement, newest first
  subs   : List Subn := []
  busy   : Bool := false           -- a commit or method is being stored (R253)
  turns  : List (Nat × Nat × Nat) := []  -- commits and methods that wait for their turn: slot, order of arrival, operations done
  vput   : List (Nat × Nat) := []  -- writes of V objects that take effect at the next tick (R249)
  wire   : List (Port × Bytes) := []  -- frame that a network port transmitted last
  deriving DecidableEq, Repr

/-- The SPI pins and the legacy window. -/
structure Spi where
  causes : Nat := 0                -- latched causes, bits 2 to 10 (Table 10.9)
  again  : List (Nat × Nat) := []  -- causes that recurred while set, with the frame of the last recurrence
  out    : Bytes := []             -- bytes that Ozmar sent in the last transaction
  events : Nat := 0                -- EVENTS of the legacy window (Table 10.10)
  latch  : Option (Nat × Nat × Nat) := none  -- low word address, word, frame (R286)
  pfwN   : Bool := false           -- PFW_N is driven low
  deriving DecidableEq, Repr

/-- What the IPv6 functions of the Ethernet port answered last (R289): a neighbour advertisement or an echo reply. -/
inductive T1sTx where
  | advert (target dest : Nat)
  | solicit (target : Nat)
  | echoReply (dest : Nat)
  deriving DecidableEq, Repr

/-- The Ethernet port (R288 to R290). -/
structure T1s where
  phy    : Bool := false           -- the PHY has power
  cache  : List (Nat × Nat) := []  -- neighbour cache: address, MAC address; newest first
  closeAt : Option Nat := none     -- B of a commit that disabled the port
  sent    : Option T1sTx := none
  deriving DecidableEq, Repr

end Sys2Proof.Machine
end

