-- ==== Sys2Proof/Machine/StateTk.lean ====
section
/-! DEFINITION. The state of the Tackroom (R231, R352 to R357): its bytes, the writer's queue, and what each partition holds. -/

namespace Sys2Proof.Machine

/-- What the writer erases or programs. -/
inductive TkOp where
  | erase (sec : Nat)                                               -- sectors are numbered from address 0
  | image (slot : Nat) (units : List (Nat × Bytes)) (tag : Option Nat)  -- units of an image, and the tag slot that waits
  | event (seq : Nat)
  | profile (seq : Nat) (bytes : Bytes)
  | capture (blk : CapBlock)
  | history (h : HistRec)
  | backup (gen part : Nat)
  | renew (sec : Nat)                                               -- an erase before a program that gives the sector its bytes again
  | refresh (sec : Nat)                                             -- that program for a sector found weak (R351)
  | keep (sched num : Nat) (bytes : Bytes)                          -- a period record that is kept beyond the erase of its sector (R356)
  deriving DecidableEq, Repr

/-- An operation with the repeats it has had (R231). -/
structure TkJob where
  op    : TkOp
  tries : Nat := 0
  deriving DecidableEq, Repr

/-- An event of the log: its entries (Table 12.14), and the address of the first one once they are programmed. -/
structure LogEv where
  seq     : Nat
  entries : List Bytes
  addr    : Option Nat := none
  deriving DecidableEq, Repr

/-- A record of a partition: number, address, bytes. -/
structure LogRec where
  num  : Nat
  addr : Nat
  len  : Nat
  deriving DecidableEq, Repr

/-- A capture in the Tackroom: the address of its header block, the data blocks programmed, and whether the header is. -/
structure CapRec where
  id     : Nat
  addr   : Nat
  data   : List Nat := []       -- addresses of its data blocks
  header : Bool := false
  deriving DecidableEq, Repr

/-- A backup generation (R357): what the pages held, and the sectors programmed so far. -/
structure Backup where
  gen   : Nat
  fn    : Nat
  time  : Nat
  count : Nat
  vals  : Tab Nat
  raws  : List (Nat × Bytes)
  ivl   : List (Nat × Option Ivl × List Sub)
  ratio : List (Nat × (Nat × Nat) × (Nat × Nat))
  sects : List Nat := []
  valid : Bool := false
  bg    : Option (Tab Nat) := none
  unit  : List (Nat × Nat) := []      -- circuit, and the unit that its registers are in
  stats : List Nat := []              -- status of each page at the copy
  deriving DecidableEq, Repr

/-- The Tackroom. -/
structure Tk where
  mem     : Tab Nat := []            -- bytes that differ from an erased byte, by address
  fac     : Nat := 0                 -- sectors of slot A from this one on hold the image installed at manufacture
  queue   : List TkJob := []
  evPos   : Nat := 0x3000000         -- next address of each writer
  profPos : Nat := 0x1000000
  capPos  : Nat := 0x3400000
  histPos : Nat := 0x3E80000
  evs     : List LogEv := []         -- oldest first
  profs   : List LogRec := []
  caps    : List CapRec := []
  hists   : List (Nat × LogRec) := []  -- schedule and record
  backs   : List Backup := []
  lastDay : Option Int := none       -- day of the last daily backup
  lastGen : Nat := 0                 -- number of the last backup generation begun
  lastFn  : Option Nat := none       -- frame of the last backup by FN
  deriving DecidableEq, Repr

end Sys2Proof.Machine
end

