-- ==== Sys2Proof/Machine/State.lean ====
section
/-! DEFINITION. The state of Ozmar, its faults and refusals, and the state right after reset: a factory-fresh unit without
power (R245, R260; LAST_MODE 4 OFF). -/

namespace Sys2Proof.Machine

/-- Why the machine stops.  No meaning of this model raises a fault: the constructor stands for an operand that no pin or
store could hand over; safe, since a stop proves nothing about the hardware. -/
inductive Fault where
  | impossibleOperand
  deriving DecidableEq, Repr

/-- Why a command has no meaning here. -/
inductive Refusal where
  /-- raised by the arms of exec that have no meaning yet; safe -/
  | notModelled (mnemonic : String)
  deriving DecidableEq, Repr

/-- The state of the block. -/
structure State where
  fn        : Nat := 0
  mode      : Mode := .off
  dict      : Tab Nat := []            -- objects that differ from their defaults, by key (R238, R245)
  commits   : List Commit := []        -- acknowledged, in order of acknowledgement (R34 to R37)
  times     : List (Nat × Nat × Nat) := []  -- frame, TIME48 and LOCAL_TIME at its tick, newest first
  chg       : List Nat := []           -- objects whose live value changed in this frame
  due       : List (Nat × Nat × Nat) := []  -- frame, key and value of frame values not yet staged (R12)
  olds      : List (Nat × Nat × Nat) := []  -- frame in which a published object changed at once, key and value before it, oldest first
  gens      : List (Nat × Nat) := []   -- frame, generation in effect for it, newest first (R33)
  acq       : Acq := {}
  aln       : Aln := {}
  tan       : Tan := {}
  cap       : Cap := {}
  bill      : Bill := {}
  pulse     : Pulses := {}
  img       : Imgs := {}
  tk        : Tk := {}
  pwr       : Pwr := {}
  srv       : Srv := {}
  spi       : Spi := {}
  t1s       : T1s := {}
  plc       : Plc := {}
  tb        : Tb := {}
  dev       : Dev := {}
  ready     : Bool := false            -- READY: the operational core serves requests
  ring5     : List Event := []
  staging   : List Snap := []          -- frames whose values are complete, not yet sealed
  sealed    : List Snap := []          -- sealed, not yet published
  current   : Option Snap := none
  previous  : Option Snap := none
  pins      : List (Nat × Snap) := []  -- FN, pinned snapshot (R32)
  jobs      : List Job := []           -- stores in posting order; the head is in progress (R326)
  rollq     : List Nat := []           -- pages of forced rolls that wait for RING-6 credit
  pages     : Tab PageS := []
  seals     : Tab Seal := []           -- by page frame number
  units     : Tab UnitS := []          -- 65536 kind + number (Table 8.1)
  draws     : Nat := 0                 -- free values drawn so far
  pending   : List Instr := []         -- commands that wait, first in, first out
  deriving DecidableEq, Repr

/-- The state right after reset. (DESIGN CHOICE, log 2) -/
def State.reset : State := {}

end Sys2Proof.Machine
end

