-- ==== Sys2Proof/Machine/Ops.lean ====
section
/-! DEFINITION. Operations that every family shares: objects of the dictionary and their settings by frame (R34, R35, R245),
free values, events into RING-5 (R15, R354), time (R6), and the runs of checked units (R215). -/

namespace Sys2Proof.Machine

/-- The row of the object tables that holds a key (R238, R239). -/
def rowOf (k : Nat) : Option Row :=
  (rowsOf (k / 65536)).find? (fun r => decide (r.lo ≤ k / 256) && decide (k / 256 ≤ r.hi) &&
    decide (r.slo ≤ k % 256) && decide (k % 256 ≤ r.shi))

/-- Width of a type in bits; strings of bytes are numbers of 8 bits a byte, first byte lowest. -/
def OTy.bits : OTy → Nat
  | .bool => 1
  | .u b => b
  | .i b => b
  | .str n => 8 * n
  | .oct n => 8 * n
  | .method => 0

/-- Wire bytes of a type (R240, R241). -/
def OTy.bytes (t : OTy) : Nat := (t.bits + 7) / 8

/-- Depths of the rings in credit units on a factory-fresh unit (R14, Tables 1.4 and 1.5); those of RING-2 and RING-3 follow
the entries per window and frame. -/
def ringDepth (r : Nat) : Nat :=
  [2816, 804, 268 * (Config.openResult 2 []).toNat + 1072, 0, 536, 1024, 128, 8, 64, 1024, 1024, 1024,
    2048, 1024, 16, 16].getD r 0

/-- LINK_LOCAL of a MAC address, as bytes in order: fe80::/64 with the modified EUI-64 of RFC 4291 (R289). -/
def linkLocalOf (mac : Bytes) : Bytes :=
  [0xFE, 0x80, 0, 0, 0, 0, 0, 0, mac.getD 0 0 ^^^ 2, mac.getD 1 0, mac.getD 2 0, 0xFF, 0xFE, mac.getD 3 0,
    mac.getD 4 0, mac.getD 5 0]

/-- ORDER_CODE: one of the two codes, padded with 0x00 (R240, Table 9.11). (DESIGN CHOICE, log 7) -/
def orderCode : Bytes :=
  [0x54, 0x47, 0x32, 0x35, 0x36, 0x2D, 0x41, if Config.setAtTest K.idOrderCode % 2 = 0 then 0x51 else 0x45]

/-- IDENTITY_CERT (Table 13.5): MFG_TIME, PUBLIC_KEY and SIGNATURE are set at test. (DESIGN CHOICE, log 7) -/
def identityCertBytes : Bytes :=
  let b := le 3756 (Config.setAtTest K.identityCert)
  le 2 1 ++ le 2 3756 ++ le 8 (Config.setAtTest K.idUnitId) ++ le 4 0x2561 ++ slice b 16 6 ++ le 2 0 ++ slice b 24 3732

/-- The default of an object (R245). (DESIGN CHOICE, log 7) -/
def defaultOf (r : Row) (k : Nat) : Nat :=
  match r.dflt with
  | .n v => v
  | .test => Config.setAtTest k % 2 ^ r.ty.bits
  | .entry => if k % 256 < 8 then 0x100D4100 + k % 256 else if k % 256 = 8 then 0x60063100 else 0
  | .skew => 30 * (k / 256 % 8) + 15
  | .group => (k / 256 - 0x3710) / 3
  | .season => if k % 256 = 2 then 0x80000021 else 33
  | .point => if k % 256 = 0 then 0x8000 else 0
  | .depth => ringDepth (k % 256)
  | .linkLocal => ofLe (linkLocalOf (le 6 (Config.setAtTest K.t1sMacAddr)))
  | .order => ofLe orderCode
  | .cert => ofLe identityCertBytes

/-- Key of the live value of an object whose published value follows frame by frame (R12). -/
def liveKey (k : Nat) : Nat := k + 0x2000000

/-- The default at a key, 0 for hidden numbers of the model; a live value starts at its object's default. -/
def oDefault (k : Nat) : Nat :=
  let k := if 0x2000000 ≤ k then k - 0x2000000 else k
  match rowOf k with | some r => defaultOf r k | none => 0

/-- Width of the object at a key. -/
def oBits (k : Nat) : Nat := match rowOf k with | some r => r.ty.bits | none => 64

/-- Key of the fraction that an object keeps below its published digits, in units of 2^-40. -/
def fracKey (k : Nat) : Nat := k + 0x1000000

/-- The entry of a table at a key, if listed. -/
def tlook {α : Type} : Tab α → Nat → Option α
  | [], _ => none
  | (j, a) :: t, k => if j = k then some a else tlook t k

/-- A table of values that keeps no entry at its default takes one. -/
def putVal (k v : Nat) (t : Tab Nat) : Tab Nat := if v = oDefault k then tdel t k else tins t k v

/-- The value of an object, as last committed or as counted. -/
def State.get (s : State) (k : Nat) : Nat :=
  match tlook s.dict k with | some v => v | none => oDefault k

/-- An object takes a value. -/
def State.put (s : State) (k v : Nat) : State :=
  { s with dict := if v = oDefault k then tdel s.dict k else tins s.dict k v }

/-- A signed object takes a value. -/
def State.putI (s : State) (k : Nat) (x : Int) : State := s.put k (ofInt (oBits k) x)

/-- The value of a signed object. -/
def State.getI (s : State) (k : Nat) : Int := toInt (oBits k) (s.get k)

/-- A counter advances, wrapping modulo its width. -/
def State.bumpBy (s : State) (k n : Nat) : State := s.put k ((s.get k + n) % 2 ^ oBits k)

/-- A counter advances by one. (DEDUCED, log 32) -/
def State.bump (s : State) (k : Nat) : State := s.bumpBy k 1

/-- The live value of an object. -/
def State.live (s : State) (k : Nat) : Nat := s.get (liveKey k)

/-- The live value of a signed object. -/
def State.liveI (s : State) (k : Nat) : Int := toInt (oBits k) (s.live k)

/-- A live value changes in the current frame, and its object follows when that frame is staged. -/
def State.putLive (s : State) (k v : Nat) : State :=
  if s.live k = v then s
  else { s.put (liveKey k) v with chg := if k ∈ s.chg then s.chg else k :: s.chg }

/-- A live counter advances. -/
def State.bumpLive (s : State) (k : Nat) : State := s.putLive k ((s.live k + 1) % 2 ^ oBits k)

/-- A live value changes with the data of frame `f`. -/
def State.putDue (s : State) (f k v : Nat) : State :=
  if s.live k = v then s else { s.put (liveKey k) v with due := s.due ++ [(f, k, v)] }

/-- The same for a signed object. -/
def State.putDueI (s : State) (f k : Nat) (x : Int) : State := s.putDue f k (ofInt (oBits k) x)

/-- Values that frames after `f` would bring to some objects are given up. -/
def State.dropDue (s : State) (f : Nat) (ks : List Nat) : State :=
  { s with due := s.due.filter (fun e => decide (e.1 ≤ f) || decide (e.2.1 ∉ ks)) }

/-- An object and its live value are set at once. -/
def State.putBoth (s : State) (k v : Nat) : State := (s.put k v).put (liveKey k) v

/-- Several objects and their live values are set at once. -/
def State.putsBoth (s : State) : List (Nat × Nat) → State
  | [] => s
  | (k, v) :: l => (s.putBoth k v).putsBoth l

/-- The first frame that is not staged yet (R12). -/
def nextStaged (s : State) : Nat :=
  match s.staging.getLast?, s.sealed.getLast?, s.current with
  | some p, _, _ => p.fn + 1
  | none, some p, _ => p.fn + 1
  | none, none, some p => p.fn + 1
  | none, none, none => 0

/-- A published object changes at once in the current frame; snapshots of earlier frames keep the value before it (R12, R28). -/
def State.putV (s : State) (k v : Nat) : State :=
  if s.get k = v then s else { s.put k v with olds := s.olds ++ [(s.fn, k, s.get k)] }

/-- A published counter advances at once. -/
def State.bumpV (s : State) (k : Nat) : State := s.putV k ((s.get k + 1) % 2 ^ oBits k)

/-- A register with its fraction, in units of 2^-40. -/
def regTotal (s : State) (k : Nat) : Nat := s.live k * 2 ^ 40 + s.get (fracKey k)

/-- A register and fraction take a total of frame `f`, modulo the register's width. -/
def putTotal (f k : Nat) (t : Nat) (s : State) : State :=
  (s.putDue f k (t / 2 ^ 40 % 2 ^ oBits k)).put (fracKey k) (t % 2 ^ 40)

/-- A total rescaled by 10^(old − new), its value an integer of 2^-40 units, rounded down (R122). -/
def rescaleI (x : Int) (old new : Nat) : Int := if new ≤ old then x * 10 ^ (old - new) else x / (10 ^ (new - old) : Int)

/-- The changes of the frame that ends wait until it is staged. -/
def State.endFrame (s : State) : State :=
  { s with chg := [], due := s.due ++ s.chg.map (fun k => (s.fn, k, s.live k)) }

/-- The values of frames up to `f` reach their objects. -/
def State.applyDue (s : State) (f : Nat) : State :=
  let s' := (s.due.filter (fun e => decide (e.1 ≤ f))).foldl (fun s e => s.put e.2.1 e.2.2) s
  { s' with due := s.due.filter (fun e => decide (f < e.1)) }

/-- The frame number is set. -/
def State.setFn (s : State) (f : Nat) : State := { s with fn := f }

/-- The mode is set. -/
def State.setMode (s : State) (m : Mode) : State := { s with mode := m }

/-- Several objects take values. -/
def State.puts (s : State) : List (Nat × Nat) → State
  | [] => s
  | (k, v) :: l => (s.put k v).puts l

/-- The value that an object had before a commit, if the commit changes it. -/
def Chg.before (k : Nat) : List Chg → Option Nat
  | [] => none
  | c :: l => if c.key = k then some c.old else Chg.before k l

/-- The setting that governs frame `f` (R35): the value before the first acknowledged commit that changes the object at a
later B, or else the last committed one. -/
def cfgGo (k f cur : Nat) : List Commit → Nat
  | [] => cur
  | c :: l =>
    if f < c.b then (match Chg.before k c.chg with | some v => v | none => cfgGo k f cur l) else cfgGo k f cur l

/-- The setting of an object that governs frame `f`. -/
def State.cfg (s : State) (f k : Nat) : Nat := cfgGo k f (s.get k) s.commits

/-- The signed setting of an object that governs frame `f`. -/
def State.cfgI (s : State) (f k : Nat) : Int := toInt (oBits k) (s.cfg f k)

/-- Some commit governs from frame `f`. -/
def commitAt (s : State) (f : Nat) : Bool := s.commits.any (fun c => decide (c.b = f))

/-- A setting changes at frame `f`. -/
def changesAt (s : State) (f k : Nat) : Bool := decide (s.cfg f k ≠ s.cfg (f - 1) k)

/-- A commit that governs from frame `f` writes an object, even with the value that it holds. -/
def writtenAt (s : State) (f k : Nat) : Bool := s.commits.any (fun c => decide (c.b = f) && c.chg.any (fun g => decide (g.key = k)))

/-- The next free value: nothing constrains it. (DESIGN CHOICE, log 4; DESIGN CHOICE, log 5) -/
def State.draw (s : State) : Nat × State := (Config.freeValue s.draws, { s with draws := s.draws + 1 })

/-- The next `n` free bytes, little-endian in one number. (DESIGN CHOICE, log 4; DESIGN CHOICE, log 5) -/
def State.drawBytes (s : State) (n : Nat) : Nat × State := (Config.freeValue s.draws % 256 ^ n, { s with draws := s.draws + 1 })

/-- TIME48 is VALID (R260). -/
def State.timeValid (s : State) : Bool := decide (s.get K.timeTime48 ≠ 0xFFFFFFFFFFFF)

/-- TIME48 at the last tick, all ones while INVALID (R260). -/
def State.time (s : State) : Nat := s.get K.timeTime48

/-- TIME48 at the tick of frame `f`, as the history of ticks keeps it. -/
def timeAt (f cur : Nat) : List (Nat × Nat × Nat) → Nat
  | [] => cur
  | (g, t, _) :: l => if g = f then t else timeAt f cur l

/-- TIME48 at the tick of frame `f`. -/
def State.timeOf (s : State) (f : Nat) : Nat := timeAt f s.time s.times

/-- The generation in effect at frame `f`, from the history of generations, newest first. -/
def genAt (f cur : Nat) : List (Nat × Nat) → Nat
  | [] => cur
  | (b, g) :: l => if b ≤ f then g else genAt f cur l

/-- The configuration generation of frame `f` (R33). -/
def State.genOf (s : State) (f : Nat) : Nat := genAt f 0 s.gens

/-- A record of frame `f` enters RING-5; without credit it is dropped and counted (R15, R354). -/
def State.eventAt (s : State) (f code : Nat) (fields : List Nat) : State :=
  if s.ring5.length < 1024 then
    { s with ring5 := s.ring5 ++ [{ code := code, fields := fields, fn := f, time := s.timeOf f }] }
  else (s.bump (K.stalls 5)).bump K.eventsLost

/-- The code of an event for which the spec gives none, by a number of the model's own. -/
def openCode (tag : Nat) : Nat := (Config.openResult (0x10000 + tag) []).toNat % 65536

/-- A record of the current frame enters RING-5. -/
def State.event (s : State) (code : Nat) (fields : List Nat) : State := s.eventAt s.fn code fields

/-- Objects of a checked unit of kinds 0 to 2 (Tables 8.8 to 8.10). -/
structure UnitKeys where
  state : Nat
  cause : Nat
  fail  : Nat
  pass  : Nat
  sfn   : Nat
  deriving DecidableEq, Repr

/-- The objects of unit `num` of kind 0, 1 or 2. -/
def unitKeys (kind num : Nat) : UnitKeys :=
  if kind = 0 then ⟨K.laneFState num, K.laneFCause num, K.laneFFailRun num, K.laneFPassRun num, K.laneFStateFn num⟩
  else if kind = 1 then ⟨K.chFState num, K.chFCause num, K.chFFailRun num, K.chFPassRun num, K.chFStateFn num⟩
  else ⟨K.vFState num, K.vFCause num, K.vFFailRun num, K.vFPassRun num, K.vFStateFn num⟩

/-- Cause REINSTATE (Table 8.7). -/
def causeReinstate : Nat := 14

/-- A current channel (kind 1) or voltage channel (kind 2) is out of service in frame `f` (R226, R228, R235): RETIRED in a frame up
to `f`, or reinstated and `f` lies before its first aligned frame, B + 2. -/
def unitOut (s : State) (kind num f : Nat) : Bool :=
  let u := unitKeys kind num
  (decide (s.get u.state = 2) && decide (s.get u.sfn ≤ f)) ||
  (decide (s.get u.state = 1) && decide (s.get u.cause = causeReinstate) && decide (f < s.get u.sfn + 2))

/-- A unit of kinds 0 to 2 changes state at frame `f`, and the change is logged (R215, R236).  STATE 0 OK, 1 SUSPECT,
2 RETIRED, 3 DEGRADED-SERVING. -/
def unitSet (kind num st cause f : Nat) (s : State) : State :=
  let u := unitKeys kind num
  let s := (s.put u.state st).put u.sfn f
  if st = 0 then s.event 0x0301 [kind, num]
  else if st = 1 then (s.put u.cause cause).event 0x0300 [kind, num, cause]
  else if st = 2 then (s.put u.cause cause).event 0x0302 [kind, num, cause, f]
  else s

/-- A failed check of frame `f` (R215): the pass run falls to 0, the failure run grows, an OK unit becomes SUSPECT, and a unit
whose failure run reaches `retire` is RETIRED.  The answer says whether it was retired now. -/
def unitFail (kind num cause f retire : Nat) (s : State) : State × Bool :=
  let u := unitKeys kind num
  if s.get u.state = 2 then (s, false)
  else
    let run := s.get u.fail + 1
    let s := (s.put u.fail (run % 2 ^ oBits u.fail)).put u.pass 0
    if retire ≤ run then (unitSet kind num 2 cause f s, true)
    else if s.get u.state = 1 then (s, false)
    else (unitSet kind num 1 cause f s, false)

/-- A passed check of frame `f` (R215): the reverse; a SUSPECT unit whose pass run reaches `ok` becomes OK. -/
def unitPass (kind num f ok : Nat) (s : State) : State :=
  let u := unitKeys kind num
  if s.get u.state = 2 then s
  else
    let run := s.get u.pass + 1
    let s := (s.put u.pass (min run (2 ^ oBits u.pass - 1))).put u.fail 0
    if s.get u.state = 1 ∧ ok ≤ run then unitSet kind num 0 0 f s else s

end Sys2Proof.Machine
end

