-- ==== Sys2Proof/Machine/Lanes.lean ====
section
/-! DEFINITION. Sequencer tables and the range controller (R48 to R69): the entries that a lane runs in a frame, the rotation
list, the decision at a crossing, the takeover by a partner. -/

namespace Sys2Proof.Machine

/-- The partner of a lane (R2). -/
def partner (l : Nat) : Nat := if l % 2 = 0 then l + 1 else l - 1

/-- A sequencer entry, decoded (Table 2.5). -/
structure Entry where
  gap     : Bool
  rot     : Bool
  dr      : Bool
  rep     : Nat       -- kept conversions
  shift   : Nat
  discard : Nat
  gain    : Nat
  src     : Nat
  deriving DecidableEq, Repr

/-- The fields of an entry word (Table 2.5). -/
def entryOf (w : Nat) : Entry :=
  { gap := bit w 30, rot := bit w 29, dr := bit w 28, rep := field w 23 16 + 1, shift := field w 15 12,
    discard := field w 10 8, gain := field w 7 5, src := field w 4 0 }

/-- The gain of a code (Table 2.4). -/
def gainOf (code : Nat) : Nat := 2 ^ code

/-- The channel behind a source of lane `l` (Table 2.3). -/
def srcCh (l src : Nat) : Nat := if src < 8 then 8 * l + src else 8 * partner l + (src - 8)

/-- The enabled inputs of a lane in frame `f`, ascending. -/
def enabledOf (s : State) (f l : Nat) : List Nat :=
  ((List.range 8).map (fun e => 8 * l + e)).filter (fun n => decide (s.cfg f (K.chEnable n) = 1))

/-- The committed table of a lane in frame `f` (R48, R53). -/
def committedTable (s : State) (f l : Nat) : List Entry :=
  (List.range (s.cfg f (K.laneTableLen l))).map (fun e => entryOf (s.cfg f (K.laneEntry l e)))

/-- The gain code that RANGE_MODE and the gains of a channel fix: low for mode 1, high for mode 2 (R61). -/
def fixedGain (s : State) (f n : Nat) : Nat :=
  if s.cfg f (K.chRangeMode n) = 2 then s.cfg f (K.chGainHigh n) else s.cfg f (K.chGainLow n)

/-- The degraded table that lane `p` runs for itself and its retired partner (R67). -/
def degradedTable (s : State) (f p : Nat) : List Entry :=
  let own := (enabledOf s f p).map (fun n => (n, n - 8 * p))
  let other := (enabledOf s f (partner p)).map (fun n => (n, n - 8 * partner p + 8))
  let ins := (own ++ other).map (fun e =>
    let dual := decide (s.cfg f (K.chRangeMode e.1) = 0)
    { gap := false, rot := false, dr := dual, rep := 6, shift := 2, discard := 1,
      gain := if dual then 0 else fixedGain s f e.1, src := e.2 : Entry })
  ins ++ [{ gap := true, rot := true, dr := false, rep := 127 - 7 * ins.length, shift := 3, discard := 1, gain := 0,
            src := 0 }]

/-- The table that a lane runs in frame `f`, by its MODE (Table 2.10). -/
def tableOf (s : State) (f l : Nat) : List Entry :=
  if s.live (K.laneMode l) = 1 then degradedTable s f l
  else if s.live (K.laneMode l) = 0 then committedTable s f l
  else []

/-- The gain codes that an entry uses, for the rotation list (R57). -/
def entryGains (s : State) (f l : Nat) (e : Entry) : List Nat :=
  if e.gap then (if e.rot then [] else [e.gain])
  else if e.dr then
    (if s.cfg f (K.chRangeMode (srcCh l e.src)) = 0 then
      [s.cfg f (K.chGainLow (srcCh l e.src)), s.cfg f (K.chGainHigh (srcCh l e.src))]
     else [fixedGain s f (srcCh l e.src)])
  else [e.gain]

/-- The gain codes in use, ascending; gain 1 alone where nothing names one (R57). -/
def gainsInUse (s : State) (f l : Nat) (tab : List Entry) : List Nat :=
  let used := (tab.map (entryGains s f l)).flatten
  let g := (List.range 6).filter (fun c => decide (c ∈ used))
  if g = [] then [0] else g

/-- The rotation list (Table 2.8): source and gain code of each step. -/
def rotationList (gains : List Nat) : List (Nat × Nat) :=
  (gains.map (fun g => [(16, g), (17, g), (18, g)])).flatten ++ [(19, 0), (20, gains.getLast?.getD 0)]

/-- A result in common units (R50): `round(result × 2^(30+s) / (r × g))`. -/
def normalise (result : Int) (shift rep gain : Nat) : Int :=
  rdiv (result * 2 ^ (30 + shift)) ((rep * gainOf gain : Nat) : Int)

/-- Subtraction of an offset in Q15.8 codes at a gain code (R85). -/
def offsetBy (x off : Int) (gain : Nat) : Int := x - off * (2 ^ 22 / (gainOf gain : Int))

/-- Multiplication by a gain in Q2.30 (R85). -/
def gainBy (x : Int) (gain : Nat) : Int := rshift (x * (gain : Int)) 30

/-- The range that a controller decides at a crossing, from P and the range decided before (R60). -/
def rangeDecide (high : Bool) (peak : Int) (gLow gHigh : Nat) : Bool :=
  if high then !decide (peak * 5 * (gainOf gHigh : Int) ≥ 4 * one47)
  else decide (peak * 25 * (gainOf gLow : Int) < one47)

/-- LAST_PEAK: P as a fraction of low-range full scale in Q0.16, at most its largest value (Table 2.10). -/
def lastPeak (peak : Int) (gLow : Nat) : Nat :=
  min 0xFFFF (odiv (peak * (gainOf gLow : Int)) (2 ^ 31)).toNat

/-- The controller acts at a crossing (R59, R60): LAST_PEAK shows P, the range is decided, P restarts. (DEDUCED, log 25) -/
def rangeCross (n gLow gHigh : Nat) (newPeak : Int) (c : RangeCtl) (s : State) : RangeCtl × State :=
  ({ c with want := rangeDecide c.want c.peak gLow gHigh, crossed := true, since := 0, peak := newPeak },
   s.putLive (K.chLastPeak n) (lastPeak c.peak gLow))

/-- A result of a dual-range channel as its controller sees it: the value in common units, its sign after the lane offset,
whether it was saturated and in the high range (R59, R60, R63). -/
structure RangeIn where
  x    : Int
  neg  : Bool
  sat  : Bool
  high : Bool
  deriving DecidableEq, Repr

/-- The controller sees a result (R59, R60, R63, R66).  A saturated result counts as at least the full scale of its range.  A
high-range result of 98 % is flagged CLIP, and so is the high-range result after it; it is an emergency unless the switch to the low
range was decided already.  The answer says whether the result is flagged CLIP, and whether it is an emergency.  At a crossing the
result belongs to the half-cycle that it begins, an emergency too. (DEDUCED, log 25; DESIGN CHOICE, log 84) -/
def rangeSee (n gLow gHigh : Nat) (r : RangeIn) (c : RangeCtl) (s : State) : (RangeCtl × Bool × Bool) × State :=
  let fs := one47 / (gainOf (if r.high then gHigh else gLow) : Int)
  let m := if r.sat then max (mag r.x) fs else mag r.x
  let sg := if r.neg then 2 else 1
  let crossing := decide (c.sign ≠ 0) && decide (c.sign ≠ sg) && (!c.crossed || decide (96 ≤ c.since + 1))
  let c := { c with since := c.since + 1, sign := sg, before := c.peak, last := m }
  let (c, s) :=
    if crossing then rangeCross n gLow gHigh m c s
    else ({ c with peak := max c.peak m }, s)
  let near := r.high && decide (m * 50 * (gainOf gHigh : Int) ≥ 49 * one47)
  let emergency := near && c.want
  let clip := r.high && (c.clip || near)
  let c := { c with clip := near, want := if near then false else c.want }
  ((c, clip, emergency), if emergency then s.bumpLive (K.chEmergencies n) else s)

/-- A result with a parity error is neither a crossing nor an emergency and does not enter P (R66); one that follows an emergency in
the high range is flagged CLIP (R63).  The sign that the next result is compared with stays that of the last good one.
(DESIGN CHOICE, log 107) -/
def rangeSkip (high : Bool) (c : RangeCtl) : RangeCtl × Bool :=
  ({ c with since := c.since + 1, before := c.peak, last := 0, clip := false }, high && c.clip)

/-- The latch at the start of a period (R58); a change of the range in use counts in SWITCHES. (DEDUCED, log 25) -/
def rangeLatch (n : Nat) (c : RangeCtl) (s : State) : RangeCtl × State :=
  ({ c with now := c.next, next := c.want }, if c.next = c.now then s else s.bumpLive (K.chSwitches n))

/-- Every controller latches. -/
def latchAll (s : State) : State :=
  s.acq.rng.foldl (fun s e =>
    let (c, s) := rangeLatch e.1 e.2 s
    { s with acq := { s.acq with rng := tset {} s.acq.rng e.1 c } }) s

/-- The sources of RING-0 in frame `f` (R14): running lanes and enabled voltage channels. -/
def sources0 (s : State) (f : Nat) : Nat :=
  ((List.range 32).filter (fun l => decide (s.live (K.laneMode l) ≠ 2))).length +
  ((List.range 12).filter (fun v => decide (s.cfg f (K.vEnable v) = 1))).length

/-- RING-0's credit count is computed again for frame `f` (R14, R53). -/
def recredit0 (f : Nat) (s : State) : State := { s with acq := { s.acq with credit0 := 64 * sources0 s f } }

/-- Channels start in their low range with no switch pending (R53, R54, R68). -/
def lowRange (ns : List Nat) (s : State) : State :=
  { s with acq := { s.acq with rng := s.acq.rng.filter (fun e => decide (e.1 ∉ ns)) } }

/-- Raw streams restart with frame `f` (R76): current channel n, or 256 + v. -/
def restartStreams (f : Nat) (ks : List Nat) (s : State) : State :=
  { s with aln := { s.aln with streams := ks.foldl (fun t k => tset {} t k { raw := f, on := true }) s.aln.streams } }

/-- Raw streams stop. -/
def stopStreams (ks : List Nat) (s : State) : State :=
  { s with aln := { s.aln with streams := s.aln.streams.filter (fun e => decide (e.1 ∉ ks)) } }

/-- Partner P of a retired lane L starts to serve in frame `f` (R67, R68, R76): the degraded table runs, its channels start in
their low range, the streams of L's inputs restart, P is DEGRADED-SERVING. (DEDUCED, log 35) -/
def takeoverDo (l f : Nat) (s : State) : State :=
  let p := partner l
  let s := ((s.putLive (K.laneMode p) 1).putLive (K.laneRotStep p) 0).put (K.laneTableFn p) f
  let s := lowRange (enabledOf s f l ++ enabledOf s f p) s
  let s := restartStreams f (enabledOf s f l) s
  let s := { s with acq := { s.acq with
    lanes := tmod {} s.acq.lanes p (fun x => { x with serves := true, serveLo := f, serveHi := 0 }),
    takeovers := s.acq.takeovers.filter (fun t => decide (t.lane ≠ l)) } }
  let s := if s.get (K.laneFState p) < 2 then unitSet 0 p 3 0 f s else s
  recredit0 f s

/-- Every takeover due at the first conversion of the current frame. -/
def takeoversDue (s : State) : State :=
  (s.acq.takeovers.filter (fun t => decide (t.frm ≤ s.fn))).foldl (fun s t => takeoverDo t.lane t.frm s) s

/-- LANE_TAKEOVER (R67): the takeover of the lane that is due in the current frame takes place. -/
def execLaneTakeover (lane : Fin 32) (s : State) : Host.Outcome State Fault Refusal :=
  .next (match s.acq.takeovers.find? (fun t => decide (t.lane = lane.val)) with
    | some t => if t.frm ≤ s.fn then takeoverDo lane.val t.frm s else s
    | none => s)

/-- RANGE_CROSSING_TIMEOUT (R59): after 400 periods without a crossing the controller acts as if the result of the last one were a
crossing: P is that of the results before it, and restarts with it; where that result is an emergency, the low range stays decided (R63). -/
def execRangeCrossingTimeout (ch : Fin 256) (s : State) : Host.Outcome State Fault Refusal :=
  let c := tget {} s.acq.rng ch.val
  .next (if 400 ≤ c.since ∧ s.cfg s.fn (K.chRangeMode ch.val) = 0 then
    let (c, s) := rangeCross ch.val (s.cfg s.fn (K.chGainLow ch.val)) (s.cfg s.fn (K.chGainHigh ch.val)) c.last
      { c with peak := c.before } s
    { s with acq := { s.acq with rng := tset {} s.acq.rng ch.val { c with want := c.want && !c.clip } } }
  else s)

end Sys2Proof.Machine
end

