-- ==== Sys2Proof/Machine/Acquire.lean ====
section
/-! DEFINITION. One sample period (R10, R43 to R63): the lanes run their tables, the voltage decimators emit, results enter
RING-0 while it has credit, and open-input tests read their common mode. -/

namespace Sys2Proof.Machine

/-- Some of the kept conversions stood at an end code (R47, R49). -/
def saturatedCodes (cs : List Int) : Bool := cs.any (fun c => decide (c ≤ -131072) || decide (131071 ≤ c))

/-- The result of an entry: its kept codes summed, shifted and rounded (R49). -/
def entryResult (cs : List Int) (shift : Nat) : Int := rshift (sumI cs) shift

/-- One pass of a lane through its table. -/
structure Pass where
  slot   : Nat := 0        -- conversions before the next entry
  rotAt  : Nat := 0        -- rotation step that the next ROT entry takes
  calDue : Bool := false   -- a self-calibration takes the next GAP entry
  res    : List LRes := []
  deriving DecidableEq, Repr

/-- The range that a result of an input entry carries, and the gain code it uses (R61, R62). -/
def entryRange (s : State) (f n : Nat) (e : Entry) : Bool × Nat :=
  let gl := s.cfg f (K.chGainLow n)
  let gh := s.cfg f (K.chGainHigh n)
  if e.dr then
    let high := if s.cfg f (K.chRangeMode n) = 0 then (tget {} s.acq.rng n).now
      else decide (s.cfg f (K.chRangeMode n) = 2)
    (high, if high then gh else gl)
  else (decide (e.gain = gh) && decide (e.gain ≠ gl), e.gain)

/-- An input entry: its result, with the coefficients of its range in frame `f` (R62, R92), after its range controller has
seen it.  A result with a parity error is neither a crossing nor an emergency and does not enter P (R66). (DEDUCED, log 25)  A result of
exactly zero is positive. (DESIGN CHOICE, log 106) -/
def inputEntry (f l : Nat) (e : Entry) (cs : List Int) (par : Bool) (slot : Nat) (s : State) : LRes × State :=
  let n := srcCh l e.src
  let (high, gain) := entryRange s f n e
  let value := entryResult cs e.shift
  let sat := saturatedCodes cs
  let skew := 2 * (slot + e.discard) + e.rep - 1
  let s := (s.putLive (K.chSkew n) skew).putLive (K.chRange n) (b2n high)
  let (clip, s) :=
    if e.dr ∧ s.cfg f (K.chRangeMode n) = 0 then
      if par then
        let (c, clip) := rangeSkip high (tget {} s.acq.rng n)
        (clip, { s with acq := { s.acq with rng := tset {} s.acq.rng n c } })
      else
        let x := normalise value e.shift e.rep gain
        let neg := decide (offsetBy x (s.liveI (K.bgOffset gain l)) gain < 0)
        let ((c, clip, emergency), s) := rangeSee n (s.cfg f (K.chGainLow n)) (s.cfg f (K.chGainHigh n))
          { x := x, neg := neg, sat := sat, high := high } (tget {} s.acq.rng n) s
        let emerg := if emergency then s.acq.emerg ++ [(n, 16 * f + s.acq.period)] else s.acq.emerg
        (clip, { s with acq := { s.acq with rng := tset {} s.acq.rng n c, emerg := emerg } })
    else if e.dr then
      (false, { s with acq := { s.acq with rng := tmod {} s.acq.rng n (fun c => { c with since := c.since + 1 }) } })
    else (false, s)
  ({ src := e.src, gain := gain, rep := e.rep, shift := e.shift, high := high, value := value, sat := sat, clip := clip,
     par := par, gap := false, skew := skew,
     off := s.cfgI f (if high then K.chOffsetHigh n else K.chOffsetLow n),
     gr := s.cfg f (if high then K.chGainHigh n else K.chGainLow n),
     gcal := s.live (if high then K.chGainEffHigh n else K.chGainEffLow n),
     intK := s.cfg f (if high then K.chIntKHigh n else K.chIntKLow n),
     rog := decide (s.cfg f (K.chSensor n) = 1) }, s)

/-- A GAP entry's result at a source and gain code (R57). -/
def gapResult (e : Entry) (src gain : Nat) (cs : List Int) (par : Bool) : LRes :=
  { src := src, gain := gain, rep := e.rep, shift := e.shift, high := false, value := entryResult cs e.shift,
    sat := saturatedCodes cs, clip := false, par := par, gap := true, skew := 0, off := 0, gr := 0, gcal := 0, intK := 0,
    rog := false }

/-- One entry of the pass.  A self-calibration takes the first GAP entry with 8 slots: it converts nothing and its rotation
step does not advance (R220). -/
def runEntry (f l : Nat) (rot : List (Nat × Nat)) (conv : LaneConv) (p : Pass) (e : Entry) (s : State) : Pass × State :=
  let cs := (List.range e.rep).map (fun i => ati conv.codes (p.slot + e.discard + i))
  let par := (List.range e.rep).any (fun i => conv.parity.getD (p.slot + e.discard + i) false)
  let next := { p with slot := p.slot + e.discard + e.rep }
  if e.gap then
    if p.calDue ∧ 8 ≤ e.discard + e.rep then ({ next with calDue := false }, s.bump (K.laneFRetries l))
    else if e.rot then
      let st := rot.getD (p.rotAt % rot.length) (16, 0)
      ({ next with rotAt := (p.rotAt + 1) % rot.length, res := p.res ++ [gapResult e st.1 st.2 cs par] }, s)
    else ({ next with res := p.res ++ [gapResult e e.src e.gain cs par] }, s)
  else
    let (r, s) := inputEntry f l e cs par p.slot s
    ({ next with res := p.res ++ [r] }, s)

/-- The entries of a table, one after another. -/
def runEntries (f l : Nat) (rot : List (Nat × Nat)) (conv : LaneConv) : List Entry → Pass → State → Pass × State
  | [], p, s => (p, s)
  | e :: es, p, s => let (p, s) := runEntry f l rot conv p e s; runEntries f l rot conv es p s

/-- Free entries of RING-0 (R14). -/
def free0 (s : State) : Nat := s.acq.credit0 - (s.acq.ring0L.length + s.acq.ring0V.length)

/-- Frame `f` is FRAME-LOST (R18): counted once, logged with the first frame of the loss and the frames lost so far. (DEDUCED, log 40) -/
def frameLost (f : Nat) (s : State) : State :=
  if f ∈ s.acq.lost then s
  else
    let cont := decide (0 < s.acq.lostRun) && decide (s.acq.lostFrom + s.acq.lostRun = f)
    let first := if cont then s.acq.lostFrom else f
    let run := if cont then s.acq.lostRun + 1 else 1
    let s := { s with acq := { s.acq with lost := s.acq.lost ++ [f], lostFrom := first, lostRun := run } }
    ((s.bump K.lostFrames).bump (K.stalls 0)).event 0x0307 [first, run]

/-- The pass of lane `l` in sample period `g` of frame `f`; without credit its results are discarded (R15, R18). -/
def lanePass (f g : Nat) (l : Nat) (conv : LaneConv) (s : State) : State :=
  if s.live (K.laneMode l) = 2 then s
  else
    let tab := tableOf s f l
    let rot := rotationList (gainsInUse s f l tab)
    let (p, s) := runEntries f l rot conv tab
      { rotAt := s.live (K.laneRotStep l), calDue := (tget {} s.acq.lanes l).selfCal } s
    let s := (s.putLive (K.laneRotStep l) p.rotAt).putLive (K.laneRotSteps l) rot.length
    let s := { s with acq := { s.acq with lanes := tmod {} s.acq.lanes l (fun x => { x with selfCal := p.calDue }) } }
    if 0 < free0 s then
      { s with acq := { s.acq with ring0L := s.acq.ring0L ++
          [{ g := g, lane := l, res := p.res, aff := conv.refBad || conv.parity.any id }] } }
    else frameLost f s

/-- The lanes run one after another in the model; each posts an entry of its own. -/
def lanePasses (f g : Nat) (lanes : List LaneConv) : List Nat → State → State
  | [], s => s
  | l :: ls, s => lanePasses f g lanes ls (lanePass f g l (lanes.getD l ⟨[], [], false, none⟩) s)

/-- A decimated value is clamped to the largest value of its sign and flagged CLIP at magnitude 1.0 (R45). -/
def voltClamp (x : Int) : Int × Bool := (sat47 x, decide (one47 ≤ mag x))

/-- The decimator of V-v emits at the start of sample period `g` (R43, R44); the sample takes OFFSET and GAIN of the frame in which
it is emitted. (DESIGN CHOICE, log 84) -/
def voltEmit (f g v : Nat) (conv : VoltConv) (s : State) : State :=
  if s.cfg f (K.vEnable v) = 1 then
    if 0 < free0 s then
      { s with acq := { s.acq with ring0V := s.acq.ring0V ++
          [{ g := g, v := v, value := (voltClamp conv.value).1, clip := (voltClamp conv.value).2, aff := conv.affected,
             off := s.cfgI f (K.vOffset v), gain := s.live (K.vGainEff v) }] } }
    else frameLost f s
  else s

/-- Every enabled decimator emits. -/
def voltEmits (f g : Nat) (volts : List VoltConv) : List Nat → State → State
  | [], s => s
  | v :: vs, s => voltEmits f g volts vs (voltEmit f g v (volts.getD v ⟨0, false⟩) s)

/-- An open-input test reads its common mode (R224, R227): CM_LAST, OPEN_FAILS and the part that the next check combines. -/
def openTest (f n : Nat) (cm : Int) (s : State) : State :=
  let bad := decide ((s.cfg f K.cmLimit : Int) < mag cm)
  let s := s.putDueI f (K.chFCmLast n) cm
  let s := if bad then s.bump (K.chFOpenFails n) else s
  { s with acq := { s.acq with openFail :=
      if bad then (if n ∈ s.acq.openFail then s.acq.openFail else n :: s.acq.openFail)
      else s.acq.openFail.filter (fun m => decide (m ≠ n)) } }

/-- The scheduled open-input tests: sample period 8 of every frame with FN mod 128 = 0, input (FN / 128) mod 8 (R224).
(DEDUCED, log 35) -/
def openTests (f : Nat) (lanes : List LaneConv) : List Nat → State → State
  | [], s => s
  | l :: ls, s =>
    openTests f lanes ls (match (lanes.getD l ⟨[], [], false, none⟩).cmMv with
      | some cm => if s.cfg f (K.chEnable (8 * l + f / 128 % 8)) = 1 ∧ s.live (K.laneMode l) ≠ 2 then
          openTest f (8 * l + f / 128 % 8) cm s else s
      | none => s)

/-- SAMPLE_PERIOD (R10): period k of the current frame, for k = 0 … 15, while the front end runs. -/
def execSamplePeriod (lanes : List LaneConv) (volts : List VoltConv) (s : State) : Host.Outcome State Fault Refusal :=
  .next (match s.acq.first with
    | some _ =>
      if (s.mode = .run ∨ s.mode = .recovery) ∧ s.acq.period < 16 then
        let f := s.fn
        let k := s.acq.period
        let s := latchAll (takeoversDue s)
        let s := lanePasses f (16 * f + k) lanes (List.range 32) s
        let s := voltEmits f (16 * f + k) volts (List.range 12) s
        let s := if k = 8 ∧ f % 128 = 0 ∧ s.mode = .run then openTests f lanes (List.range 32) s else s
        { s with acq := { s.acq with period := k + 1 } }
      else s
    | none => s)

end Sys2Proof.Machine
end

