-- ==== Sys2Proof/Machine/Coeff.lean ====
section
/-! DEFINITION. The coefficients h_phi[t] of the aligner's 16-tap, 256-phase filter (R81): each row is one phase,
each entry the value of the rule's formula rounded half away from zero to signed Q1.23, with the difference between
2^23 and the row's sum added to tap 7 (phases below 128) or tap 8.  The numbers were computed from the formula of
R81 with 60 decimal digits; no value lies near a rounding tie. -/

namespace Sys2Proof.Machine

/-- Phases 0 to 15 of R81. -/
def coeffRows0 : List (List Int) :=
  [[0, 0, 0, 0, 0, 0, 0, 8388608, 0, 0, 0, 0, 0, 0, 0, 0],
   [-110, 450, -1285, 3013, -6319, 12885, -30766, 8388400, 31036, -12960, 6354, -3032, 1294, -454, 112, -10],
   [-219, 895, -2560, 6008, -12602, 25694, -61260, 8387754, 62340, -25993, 12743, -6082, 2597, -912, 225, -20],
   [-326, 1337, -3825, 8983, -18849, 38425, -91482, 8386673, 93910, -39098, 19165, -9149, 3909, -1374, 339, -30],
   [-432, 1773, -5080, 11938, -25057, 51077, -121428, 8385157, 125745, -52274, 25619, -12234, 5231, -1841, 455, -41],
   [-536, 2206, -6326, 14874, -31228, 63648, -151099, 8383201, 157844, -65517, 32106, -15336, 6561, -2311, 573, -52],
   [-639, 2634, -7561, 17789, -37359, 76137, -180492, 8380813, 190203, -78828, 38623, -18455, 7899, -2785, 692, -63],
   [-740, 3058, -8786, 20683, -43451, 88542, -209607, 8377989, 222822, -92203, 45170, -21589, 9246, -3263, 812, -75],
   [-840, 3477, -10001, 23557, -49502, 100862, -238440, 8374728, 255699, -105642, 51747, -24740, 10601, -3745, 934, -87],
   [-938, 3892, -11205, 26409, -55512, 113095, -266992, 8371032, 288831, -119143, 58352, -27905, 11965, -4231, 1057, -99],
   [-1035, 4302, -12398, 29239, -61480, 125240, -295261, 8366905, 322217, -132704, 64984, -31086, 13336, -4720, 1181, -112],
   [-1130, 4708, -13581, 32047, -67404, 137297, -323245, 8362339, 355855, -146324, 71642, -34280, 14715, -5213, 1307, -125],
   [-1224, 5109, -14752, 34833, -73286, 149262, -350944, 8357341, 389742, -160000, 78327, -37489, 16102, -5710, 1435, -138],
   [-1316, 5505, -15913, 37596, -79123, 161136, -378356, 8351910, 423878, -173731, 85035, -40711, 17496, -6210, 1563, -151],
   [-1407, 5897, -17063, 40336, -84915, 172916, -405479, 8346047, 458259, -187515, 91768, -43947, 18897, -6714, 1693, -165],
   [-1496, 6283, -18201, 43052, -90662, 184602, -432313, 8339752, 492883, -201350, 98523, -47194, 20305, -7221, 1825, -180]]

/-- Phases 16 to 31 of R81. -/
def coeffRows1 : List (List Int) :=
  [[-1584, 6666, -19327, 45745, -96363, 196192, -458856, 8333025, 527749, -215234, 105300, -50455, 21719, -7732, 1957, -194],
   [-1670, 7043, -20443, 48414, -102016, 207685, -485108, 8325867, 562854, -229167, 112098, -53726, 23141, -8246, 2091, -209],
   [-1754, 7416, -21546, 51058, -107623, 219080, -511068, 8318277, 598197, -243145, 118916, -57009, 24569, -8763, 2227, -224],
   [-1838, 7783, -22638, 53678, -113181, 230375, -536733, 8310262, 633774, -257166, 125752, -60303, 26003, -9283, 2363, -240],
   [-1919, 8146, -23718, 56274, -118690, 241570, -562104, 8301814, 669584, -271230, 132607, -63607, 27443, -9807, 2501, -256],
   [-1999, 8504, -24787, 58844, -124150, 252663, -587179, 8292941, 705624, -285334, 139478, -66921, 28889, -10333, 2640, -272],
   [-2078, 8858, -25843, 61388, -129559, 263654, -611958, 8283639, 741892, -299476, 146365, -70244, 30340, -10862, 2781, -289],
   [-2155, 9206, -26887, 63908, -134919, 274540, -636439, 8273913, 778386, -313655, 153267, -73575, 31797, -11395, 2922, -306],
   [-2230, 9549, -27918, 66401, -140227, 285322, -660622, 8263758, 815103, -327867, 160183, -76915, 33259, -11930, 3065, -323],
   [-2304, 9887, -28938, 68868, -145483, 295997, -684505, 8253182, 852041, -342112, 167112, -80263, 34726, -12468, 3209, -341],
   [-2377, 10221, -29945, 71308, -150687, 306565, -708089, 8242181, 889198, -356387, 174053, -83619, 36198, -13008, 3355, -359],
   [-2448, 10549, -30940, 73722, -155839, 317025, -731372, 8230762, 926570, -370691, 181004, -86981, 37674, -13551, 3501, -377],
   [-2517, 10873, -31922, 76109, -160937, 327376, -754354, 8218920, 964156, -385021, 187965, -90349, 39154, -14097, 3648, -396],
   [-2585, 11191, -32891, 78469, -165981, 337617, -777034, 8206658, 1001952, -399375, 194934, -93723, 40639, -14645, 3797, -415],
   [-2652, 11504, -33848, 80802, -170970, 347746, -799411, 8193977, 1039957, -413751, 201912, -97102, 42127, -15196, 3947, -434],
   [-2717, 11813, -34792, 83107, -175905, 357764, -821485, 8180878, 1078168, -428147, 208895, -100486, 43619, -15748, 4098, -454]]

/-- Phases 32 to 47 of R81. -/
def coeffRows2 : List (List Int) :=
  [[-2781, 12116, -35723, 85385, -180785, 367669, -843255, 8167363, 1116582, -442562, 215885, -103874, 45115, -16303, 4250, -474],
   [-2843, 12414, -36641, 87634, -185608, 377460, -864720, 8153434, 1155196, -456992, 222878, -107266, 46613, -16860, 4403, -494],
   [-2903, 12707, -37546, 89855, -190376, 387136, -885881, 8139093, 1194008, -471436, 229875, -110661, 48115, -17420, 4557, -515],
   [-2962, 12995, -38439, 92048, -195086, 396697, -906737, 8124340, 1233015, -485892, 236874, -114059, 49619, -17981, 4712, -536],
   [-3020, 13278, -39318, 94212, -199740, 406141, -927287, 8109179, 1272214, -500358, 243874, -117459, 51125, -18544, 4868, -557],
   [-3076, 13556, -40184, 96348, -204335, 415469, -947530, 8093603, 1311603, -514831, 250873, -120860, 52634, -19108, 5025, -579],
   [-3131, 13829, -41036, 98455, -208873, 424678, -967468, 8077623, 1351179, -529310, 257872, -124262, 54145, -19675, 5183, -601],
   [-3184, 14096, -41876, 100532, -213352, 433769, -987098, 8061235, 1390939, -543791, 264869, -127664, 55657, -20243, 5342, -623],
   [-3236, 14359, -42702, 102581, -217773, 442740, -1006422, 8044445, 1430879, -558274, 271862, -131066, 57171, -20812, 5502, -646],
   [-3287, 14616, -43515, 104600, -222134, 451591, -1025438, 8027252, 1470998, -572755, 278850, -134468, 58687, -21383, 5663, -669],
   [-3336, 14869, -44314, 106589, -226436, 460322, -1044146, 8009658, 1511292, -587233, 285833, -137868, 60203, -21956, 5824, -693],
   [-3383, 15116, -45100, 108549, -230678, 468931, -1062547, 7991662, 1551759, -601705, 292809, -141267, 61720, -22529, 5987, -716],
   [-3430, 15358, -45873, 110479, -234859, 477417, -1080640, 7973274, 1592395, -616170, 299777, -144663, 63237, -23104, 6150, -740],
   [-3474, 15595, -46632, 112379, -238980, 485781, -1098425, 7954487, 1633197, -630624, 306736, -148056, 64755, -23680, 6314, -765],
   [-3518, 15827, -47377, 114248, -243040, 494022, -1115902, 7935305, 1674163, -645065, 313684, -151445, 66272, -24256, 6479, -789],
   [-3560, 16054, -48109, 116088, -247038, 502139, -1133071, 7915731, 1715289, -659492, 320621, -154830, 67789, -24834, 6645, -814]]

/-- Phases 48 to 63 of R81. -/
def coeffRows3 : List (List Int) :=
  [[-3600, 16276, -48828, 117897, -250975, 510131, -1149932, 7895769, 1756573, -673903, 327546, -158211, 69306, -25412, 6811, -840],
   [-3640, 16492, -49532, 119676, -254851, 517999, -1166485, 7875417, 1798011, -688293, 334456, -161586, 70822, -25991, 6978, -865],
   [-3677, 16704, -50223, 121424, -258664, 525740, -1182730, 7854680, 1839600, -702663, 341352, -164955, 72337, -26571, 7145, -891],
   [-3714, 16911, -50901, 123142, -262414, 533356, -1198667, 7833556, 1881337, -717008, 348232, -168318, 73850, -27151, 7314, -917],
   [-3749, 17112, -51565, 124829, -266102, 540845, -1214297, 7812055, 1923219, -731328, 355094, -171674, 75362, -27731, 7482, -944],
   [-3783, 17308, -52215, 126485, -269727, 548207, -1229619, 7790171, 1965242, -745618, 361938, -175022, 76872, -28312, 7652, -971],
   [-3816, 17500, -52851, 128110, -273289, 555442, -1244633, 7767909, 2007404, -759878, 368762, -178362, 78379, -28893, 7822, -998],
   [-3847, 17686, -53474, 129704, -276788, 562549, -1259341, 7745271, 2049702, -774105, 375565, -181693, 79885, -29473, 7992, -1025],
   [-3877, 17868, -54083, 131267, -280223, 569528, -1273741, 7722260, 2092131, -788296, 382346, -185015, 81387, -30054, 8163, -1053],
   [-3906, 18044, -54678, 132799, -283594, 576379, -1287835, 7698876, 2134689, -802450, 389104, -188326, 82887, -30635, 8335, -1081],
   [-3933, 18215, -55260, 134300, -286902, 583100, -1301623, 7675125, 2177372, -816563, 395838, -191627, 84383, -31215, 8507, -1109],
   [-3959, 18382, -55828, 135769, -290145, 589692, -1315105, 7651007, 2220178, -830633, 402545, -194917, 85876, -31795, 8679, -1138],
   [-3984, 18543, -56382, 137208, -293324, 596155, -1328281, 7626523, 2263103, -844659, 409226, -198195, 87365, -32375, 8852, -1167],
   [-4007, 18700, -56922, 138614, -296438, 602488, -1341153, 7601677, 2306142, -858637, 415879, -201460, 88850, -32953, 9024, -1196],
   [-4030, 18851, -57449, 139990, -299488, 608691, -1353720, 7576473, 2349294, -872565, 422502, -204712, 90330, -33532, 9198, -1225],
   [-4051, 18998, -57962, 141334, -302474, 614764, -1365983, 7550911, 2392555, -886441, 429095, -207951, 91806, -34109, 9371, -1255]]

/-- Phases 64 to 79 of R81. -/
def coeffRows4 : List (List Int) :=
  [[-4071, 19139, -58462, 142647, -305394, 620706, -1377942, 7524993, 2435921, -900262, 435656, -211175, 93277, -34685, 9545, -1285],
   [-4090, 19276, -58947, 143928, -308250, 626517, -1389598, 7498723, 2479389, -914026, 442184, -214384, 94743, -35261, 9719, -1315],
   [-4107, 19408, -59420, 145177, -311040, 632198, -1400953, 7472104, 2522955, -927731, 448679, -217578, 96203, -35835, 9893, -1345],
   [-4123, 19536, -59878, 146396, -313765, 637748, -1412005, 7445136, 2566616, -941374, 455137, -220756, 97657, -36408, 10067, -1376],
   [-4139, 19658, -60323, 147582, -316426, 643166, -1422756, 7417827, 2610368, -954952, 461559, -223917, 99106, -36980, 10242, -1407],
   [-4153, 19776, -60754, 148738, -319020, 648453, -1433207, 7390170, 2654209, -968464, 467944, -227060, 100548, -37550, 10416, -1438],
   [-4165, 19889, -61172, 149861, -321550, 653609, -1443359, 7362178, 2698134, -981906, 474289, -230186, 101983, -38119, 10591, -1469],
   [-4177, 19997, -61577, 150954, -324014, 658634, -1453211, 7333849, 2742139, -995277, 480594, -233293, 103411, -38685, 10765, -1501],
   [-4188, 20100, -61967, 152015, -326413, 663527, -1462765, 7305185, 2786222, -1008573, 486857, -236381, 104832, -39250, 10940, -1533],
   [-4197, 20199, -62345, 153044, -328747, 668288, -1472022, 7276191, 2830379, -1021793, 493078, -239449, 106246, -39813, 11114, -1565],
   [-4206, 20293, -62709, 154042, -331015, 672918, -1480983, 7246869, 2874605, -1034934, 499255, -242496, 107652, -40374, 11288, -1597],
   [-4213, 20383, -63059, 155009, -333217, 677417, -1489648, 7217216, 2918899, -1047993, 505387, -245523, 109049, -40933, 11463, -1629],
   [-4219, 20467, -63397, 155944, -335355, 681784, -1498018, 7187248, 2963255, -1060969, 511472, -248527, 110439, -41490, 11636, -1662],
   [-4225, 20548, -63721, 156848, -337426, 686019, -1506095, 7156958, 3007670, -1073858, 517510, -251510, 111819, -42044, 11810, -1695],
   [-4229, 20624, -64031, 157721, -339433, 690123, -1513879, 7126347, 3052141, -1086657, 523499, -254470, 113191, -42595, 11984, -1728],
   [-4232, 20695, -64329, 158562, -341374, 694097, -1521371, 7095425, 3096664, -1099366, 529438, -257406, 114553, -43144, 12157, -1761]]

/-- Phases 80 to 95 of R81. -/
def coeffRows5 : List (List Int) :=
  [[-4234, 20762, -64613, 159373, -343250, 697938, -1528572, 7064189, 3141235, -1111981, 535326, -260317, 115906, -43690, 12330, -1794],
   [-4235, 20824, -64885, 160152, -345061, 701649, -1535484, 7032649, 3185851, -1124499, 541162, -263205, 117249, -44233, 12502, -1828],
   [-4235, 20882, -65143, 160900, -346806, 705229, -1542107, 7000799, 3230507, -1136918, 546944, -266066, 118582, -44773, 12674, -1861],
   [-4235, 20935, -65388, 161618, -348487, 708679, -1548443, 6968650, 3275201, -1149236, 552671, -268902, 119904, -45310, 12846, -1895],
   [-4233, 20984, -65620, 162304, -350103, 711997, -1554492, 6936203, 3319928, -1161451, 558342, -271711, 121216, -45844, 13017, -1929],
   [-4230, 21029, -65840, 162960, -351654, 715186, -1560256, 6903460, 3364684, -1173559, 563955, -274493, 122516, -46374, 13187, -1963],
   [-4226, 21070, -66046, 163585, -353140, 718244, -1565736, 6870419, 3409467, -1185558, 569511, -277247, 123805, -46900, 13357, -1997],
   [-4222, 21106, -66240, 164179, -354561, 721173, -1570933, 6837093, 3454271, -1197446, 575006, -279973, 125083, -47424, 13527, -2031],
   [-4216, 21138, -66421, 164743, -355918, 723972, -1575849, 6803480, 3499094, -1209221, 580441, -282670, 126349, -47943, 13695, -2066],
   [-4210, 21166, -66590, 165277, -357211, 726641, -1580484, 6769582, 3543932, -1220879, 585814, -285337, 127602, -48458, 13863, -2100],
   [-4203, 21190, -66746, 165780, -358440, 729182, -1584841, 6735405, 3588780, -1232418, 591123, -287973, 128843, -48970, 14031, -2135],
   [-4195, 21209, -66889, 166253, -359604, 731594, -1588919, 6700950, 3633635, -1243837, 596368, -290579, 130071, -49477, 14197, -2169],
   [-4186, 21225, -67020, 166696, -360705, 733878, -1592722, 6666221, 3678494, -1255132, 601548, -293154, 131286, -49980, 14363, -2204],
   [-4176, 21236, -67139, 167109, -361742, 736033, -1596250, 6631223, 3723352, -1266301, 606661, -295696, 132488, -50478, 14527, -2239],
   [-4165, 21244, -67245, 167492, -362715, 738061, -1599504, 6595956, 3768205, -1277341, 611705, -298206, 133676, -50972, 14691, -2274],
   [-4154, 21247, -67339, 167845, -363626, 739962, -1602486, 6560427, 3813049, -1288250, 616681, -300682, 134850, -51461, 14854, -2309]]

/-- Phases 96 to 111 of R81. -/
def coeffRows6 : List (List Int) :=
  [[-4142, 21247, -67421, 168169, -364473, 741736, -1605198, 6524636, 3857882, -1299026, 621587, -303124, 136009, -51946, 15016, -2344],
   [-4129, 21242, -67491, 168463, -365257, 743384, -1607640, 6488587, 3902699, -1309666, 626421, -305532, 137154, -52426, 15177, -2378],
   [-4115, 21234, -67549, 168728, -365979, 744905, -1609815, 6452286, 3947495, -1320168, 631182, -307905, 138285, -52900, 15337, -2413],
   [-4101, 21222, -67596, 168964, -366639, 746301, -1611724, 6415736, 3992268, -1330529, 635870, -310242, 139400, -53370, 15496, -2448],
   [-4085, 21206, -67630, 169171, -367236, 747572, -1613368, 6378938, 4037013, -1340747, 640482, -312543, 140499, -53834, 15653, -2483],
   [-4069, 21187, -67653, 169349, -367771, 748718, -1614750, 6341897, 4081727, -1350819, 645019, -314808, 141583, -54293, 15809, -2518],
   [-4053, 21164, -67664, 169498, -368245, 749741, -1615870, 6304615, 4126405, -1360744, 649479, -317035, 142651, -54746, 15965, -2553],
   [-4035, 21137, -67663, 169618, -368657, 750640, -1616730, 6267095, 4171044, -1370517, 653860, -319223, 143703, -55194, 16118, -2588],
   [-4017, 21107, -67651, 169711, -369009, 751415, -1617333, 6229346, 4215639, -1380138, 658162, -321374, 144738, -55636, 16271, -2623],
   [-3999, 21073, -67628, 169775, -369299, 752069, -1617679, 6191366, 4260188, -1389604, 662383, -323485, 145756, -56072, 16422, -2658],
   [-3979, 21035, -67593, 169810, -369529, 752600, -1617770, 6153158, 4304685, -1398912, 666523, -325556, 146758, -56501, 16571, -2692],
   [-3959, 20994, -67547, 169818, -369699, 753011, -1617609, 6114729, 4349128, -1408059, 670580, -327587, 147741, -56925, 16719, -2727],
   [-3939, 20950, -67490, 169799, -369809, 753300, -1617196, 6076083, 4393512, -1417045, 674553, -329578, 148707, -57343, 16866, -2762],
   [-3918, 20902, -67422, 169751, -369860, 753470, -1616534, 6037220, 4437833, -1425865, 678442, -331527, 149655, -57754, 17011, -2796],
   [-3896, 20851, -67344, 169677, -369851, 753520, -1615624, 5998145, 4482088, -1434519, 682244, -333434, 150585, -58158, 17154, -2830],
   [-3873, 20796, -67254, 169575, -369783, 753451, -1614468, 5958864, 4526272, -1443003, 685959, -335299, 151496, -58556, 17296, -2865]]

/-- Phases 112 to 127 of R81. -/
def coeffRows7 : List (List Int) :=
  [[-3850, 20738, -67154, 169446, -369657, 753264, -1613068, 5919377, 4570382, -1451314, 689586, -337120, 152388, -58947, 17436, -2899],
   [-3827, 20677, -67043, 169291, -369472, 752960, -1611426, 5879689, 4614413, -1459452, 693124, -338898, 153262, -59331, 17574, -2933],
   [-3803, 20613, -66922, 169109, -369230, 752539, -1609544, 5839806, 4658362, -1467413, 696572, -340632, 154115, -59708, 17711, -2967],
   [-3778, 20546, -66790, 168900, -368930, 752002, -1607423, 5799726, 4702225, -1475195, 699929, -342321, 154950, -60078, 17845, -3000],
   [-3753, 20475, -66648, 168666, -368574, 751349, -1605066, 5759462, 4745998, -1482796, 703193, -343965, 155764, -60441, 17978, -3034],
   [-3728, 20402, -66496, 168405, -368160, 750582, -1602474, 5719009, 4789677, -1490214, 706364, -345563, 156558, -60796, 18109, -3067],
   [-3702, 20326, -66333, 168119, -367690, 749701, -1599650, 5678373, 4833258, -1497445, 709441, -347116, 157332, -61144, 18238, -3100],
   [-3675, 20246, -66161, 167807, -367164, 748707, -1596595, 5637560, 4876738, -1504489, 712422, -348621, 158085, -61484, 18365, -3133],
   [-3648, 20164, -65979, 167469, -366583, 747601, -1593311, 5596573, 4920112, -1511342, 715307, -350079, 158817, -61816, 18489, -3166],
   [-3621, 20079, -65787, 167107, -365946, 746383, -1589800, 5555414, 4963376, -1518003, 718095, -351489, 159527, -62141, 18612, -3198],
   [-3593, 19991, -65586, 166720, -365255, 745055, -1586065, 5514087, 5006527, -1524469, 720785, -352851, 160217, -62457, 18732, -3230],
   [-3565, 19900, -65375, 166308, -364509, 743617, -1582106, 5472597, 5049561, -1530737, 723375, -354165, 160884, -62765, 18850, -3262],
   [-3536, 19807, -65154, 165872, -363710, 742069, -1577928, 5430949, 5092473, -1536807, 725865, -355429, 161530, -63065, 18966, -3294],
   [-3507, 19711, -64924, 165411, -362857, 740413, -1573531, 5389144, 5135261, -1542675, 728254, -356643, 162153, -63357, 19080, -3325],
   [-3478, 19612, -64685, 164927, -361951, 738650, -1568917, 5347187, 5177919, -1548339, 730541, -357807, 162754, -63640, 19191, -3356],
   [-3448, 19510, -64437, 164418, -360993, 736780, -1564089, 5305085, 5220445, -1553798, 732725, -358920, 163332, -63915, 19300, -3387]]

/-- Phases 128 to 143 of R81. -/
def coeffRows8 : List (List Int) :=
  [[-3418, 19406, -64180, 163887, -359982, 734805, -1559048, 5262835, 5262833, -1559048, 734805, -359982, 163887, -64180, 19406, -3418],
   [-3387, 19300, -63915, 163332, -358920, 732725, -1553798, 5220445, 5305085, -1564089, 736780, -360993, 164418, -64437, 19510, -3448],
   [-3356, 19191, -63640, 162754, -357807, 730541, -1548339, 5177919, 5347187, -1568917, 738650, -361951, 164927, -64685, 19612, -3478],
   [-3325, 19080, -63357, 162153, -356643, 728254, -1542675, 5135261, 5389144, -1573531, 740413, -362857, 165411, -64924, 19711, -3507],
   [-3294, 18966, -63065, 161530, -355429, 725865, -1536807, 5092473, 5430949, -1577928, 742069, -363710, 165872, -65154, 19807, -3536],
   [-3262, 18850, -62765, 160884, -354165, 723375, -1530737, 5049561, 5472597, -1582106, 743617, -364509, 166308, -65375, 19900, -3565],
   [-3230, 18732, -62457, 160217, -352851, 720785, -1524469, 5006527, 5514087, -1586065, 745055, -365255, 166720, -65586, 19991, -3593],
   [-3198, 18612, -62141, 159527, -351489, 718095, -1518003, 4963376, 5555414, -1589800, 746383, -365946, 167107, -65787, 20079, -3621],
   [-3166, 18489, -61816, 158817, -350079, 715307, -1511342, 4920112, 5596573, -1593311, 747601, -366583, 167469, -65979, 20164, -3648],
   [-3133, 18365, -61484, 158085, -348621, 712422, -1504489, 4876738, 5637560, -1596595, 748707, -367164, 167807, -66161, 20246, -3675],
   [-3100, 18238, -61144, 157332, -347116, 709441, -1497445, 4833258, 5678373, -1599650, 749701, -367690, 168119, -66333, 20326, -3702],
   [-3067, 18109, -60796, 156558, -345563, 706364, -1490214, 4789677, 5719009, -1602474, 750582, -368160, 168405, -66496, 20402, -3728],
   [-3034, 17978, -60441, 155764, -343965, 703193, -1482796, 4745998, 5759462, -1605066, 751349, -368574, 168666, -66648, 20475, -3753],
   [-3000, 17845, -60078, 154950, -342321, 699929, -1475195, 4702225, 5799726, -1607423, 752002, -368930, 168900, -66790, 20546, -3778],
   [-2967, 17711, -59708, 154115, -340632, 696572, -1467413, 4658362, 5839806, -1609544, 752539, -369230, 169109, -66922, 20613, -3803],
   [-2933, 17574, -59331, 153262, -338898, 693124, -1459452, 4614413, 5879689, -1611426, 752960, -369472, 169291, -67043, 20677, -3827]]

/-- Phases 144 to 159 of R81. -/
def coeffRows9 : List (List Int) :=
  [[-2899, 17436, -58947, 152388, -337120, 689586, -1451314, 4570382, 5919377, -1613068, 753264, -369657, 169446, -67154, 20738, -3850],
   [-2865, 17296, -58556, 151496, -335299, 685959, -1443003, 4526272, 5958864, -1614468, 753451, -369783, 169575, -67254, 20796, -3873],
   [-2830, 17154, -58158, 150585, -333434, 682244, -1434519, 4482088, 5998145, -1615624, 753520, -369851, 169677, -67344, 20851, -3896],
   [-2796, 17011, -57754, 149655, -331527, 678442, -1425865, 4437833, 6037220, -1616534, 753470, -369860, 169751, -67422, 20902, -3918],
   [-2762, 16866, -57343, 148707, -329578, 674553, -1417045, 4393512, 6076083, -1617196, 753300, -369809, 169799, -67490, 20950, -3939],
   [-2727, 16719, -56925, 147741, -327587, 670580, -1408059, 4349128, 6114729, -1617609, 753011, -369699, 169818, -67547, 20994, -3959],
   [-2692, 16571, -56501, 146758, -325556, 666523, -1398912, 4304685, 6153158, -1617770, 752600, -369529, 169810, -67593, 21035, -3979],
   [-2658, 16422, -56072, 145756, -323485, 662383, -1389604, 4260188, 6191366, -1617679, 752069, -369299, 169775, -67628, 21073, -3999],
   [-2623, 16271, -55636, 144738, -321374, 658162, -1380138, 4215639, 6229346, -1617333, 751415, -369009, 169711, -67651, 21107, -4017],
   [-2588, 16118, -55194, 143703, -319223, 653860, -1370517, 4171044, 6267095, -1616730, 750640, -368657, 169618, -67663, 21137, -4035],
   [-2553, 15965, -54746, 142651, -317035, 649479, -1360744, 4126405, 6304615, -1615870, 749741, -368245, 169498, -67664, 21164, -4053],
   [-2518, 15809, -54293, 141583, -314808, 645019, -1350819, 4081727, 6341897, -1614750, 748718, -367771, 169349, -67653, 21187, -4069],
   [-2483, 15653, -53834, 140499, -312543, 640482, -1340747, 4037013, 6378938, -1613368, 747572, -367236, 169171, -67630, 21206, -4085],
   [-2448, 15496, -53370, 139400, -310242, 635870, -1330529, 3992268, 6415736, -1611724, 746301, -366639, 168964, -67596, 21222, -4101],
   [-2413, 15337, -52900, 138285, -307905, 631182, -1320168, 3947495, 6452286, -1609815, 744905, -365979, 168728, -67549, 21234, -4115],
   [-2378, 15177, -52426, 137154, -305532, 626421, -1309666, 3902699, 6488587, -1607640, 743384, -365257, 168463, -67491, 21242, -4129]]

/-- Phases 160 to 175 of R81. -/
def coeffRows10 : List (List Int) :=
  [[-2344, 15016, -51946, 136009, -303124, 621587, -1299026, 3857882, 6524636, -1605198, 741736, -364473, 168169, -67421, 21247, -4142],
   [-2309, 14854, -51461, 134850, -300682, 616681, -1288250, 3813049, 6560427, -1602486, 739962, -363626, 167845, -67339, 21247, -4154],
   [-2274, 14691, -50972, 133676, -298206, 611705, -1277341, 3768205, 6595956, -1599504, 738061, -362715, 167492, -67245, 21244, -4165],
   [-2239, 14527, -50478, 132488, -295696, 606661, -1266301, 3723352, 6631223, -1596250, 736033, -361742, 167109, -67139, 21236, -4176],
   [-2204, 14363, -49980, 131286, -293154, 601548, -1255132, 3678494, 6666221, -1592722, 733878, -360705, 166696, -67020, 21225, -4186],
   [-2169, 14197, -49477, 130071, -290579, 596368, -1243837, 3633635, 6700950, -1588919, 731594, -359604, 166253, -66889, 21209, -4195],
   [-2135, 14031, -48970, 128843, -287973, 591123, -1232418, 3588780, 6735405, -1584841, 729182, -358440, 165780, -66746, 21190, -4203],
   [-2100, 13863, -48458, 127602, -285337, 585814, -1220879, 3543932, 6769582, -1580484, 726641, -357211, 165277, -66590, 21166, -4210],
   [-2066, 13695, -47943, 126349, -282670, 580441, -1209221, 3499094, 6803480, -1575849, 723972, -355918, 164743, -66421, 21138, -4216],
   [-2031, 13527, -47424, 125083, -279973, 575006, -1197446, 3454271, 6837093, -1570933, 721173, -354561, 164179, -66240, 21106, -4222],
   [-1997, 13357, -46900, 123805, -277247, 569511, -1185558, 3409467, 6870419, -1565736, 718244, -353140, 163585, -66046, 21070, -4226],
   [-1963, 13187, -46374, 122516, -274493, 563955, -1173559, 3364684, 6903460, -1560256, 715186, -351654, 162960, -65840, 21029, -4230],
   [-1929, 13017, -45844, 121216, -271711, 558342, -1161451, 3319928, 6936203, -1554492, 711997, -350103, 162304, -65620, 20984, -4233],
   [-1895, 12846, -45310, 119904, -268902, 552671, -1149236, 3275201, 6968650, -1548443, 708679, -348487, 161618, -65388, 20935, -4235],
   [-1861, 12674, -44773, 118582, -266066, 546944, -1136918, 3230507, 7000799, -1542107, 705229, -346806, 160900, -65143, 20882, -4235],
   [-1828, 12502, -44233, 117249, -263205, 541162, -1124499, 3185851, 7032649, -1535484, 701649, -345061, 160152, -64885, 20824, -4235]]

/-- Phases 176 to 191 of R81. -/
def coeffRows11 : List (List Int) :=
  [[-1794, 12330, -43690, 115906, -260317, 535326, -1111981, 3141235, 7064189, -1528572, 697938, -343250, 159373, -64613, 20762, -4234],
   [-1761, 12157, -43144, 114553, -257406, 529438, -1099366, 3096664, 7095425, -1521371, 694097, -341374, 158562, -64329, 20695, -4232],
   [-1728, 11984, -42595, 113191, -254470, 523499, -1086657, 3052141, 7126347, -1513879, 690123, -339433, 157721, -64031, 20624, -4229],
   [-1695, 11810, -42044, 111819, -251510, 517510, -1073858, 3007670, 7156958, -1506095, 686019, -337426, 156848, -63721, 20548, -4225],
   [-1662, 11636, -41490, 110439, -248527, 511472, -1060969, 2963255, 7187248, -1498018, 681784, -335355, 155944, -63397, 20467, -4219],
   [-1629, 11463, -40933, 109049, -245523, 505387, -1047993, 2918899, 7217216, -1489648, 677417, -333217, 155009, -63059, 20383, -4213],
   [-1597, 11288, -40374, 107652, -242496, 499255, -1034934, 2874605, 7246869, -1480983, 672918, -331015, 154042, -62709, 20293, -4206],
   [-1565, 11114, -39813, 106246, -239449, 493078, -1021793, 2830379, 7276191, -1472022, 668288, -328747, 153044, -62345, 20199, -4197],
   [-1533, 10940, -39250, 104832, -236381, 486857, -1008573, 2786222, 7305185, -1462765, 663527, -326413, 152015, -61967, 20100, -4188],
   [-1501, 10765, -38685, 103411, -233293, 480594, -995277, 2742139, 7333849, -1453211, 658634, -324014, 150954, -61577, 19997, -4177],
   [-1469, 10591, -38119, 101983, -230186, 474289, -981906, 2698134, 7362178, -1443359, 653609, -321550, 149861, -61172, 19889, -4165],
   [-1438, 10416, -37550, 100548, -227060, 467944, -968464, 2654209, 7390170, -1433207, 648453, -319020, 148738, -60754, 19776, -4153],
   [-1407, 10242, -36980, 99106, -223917, 461559, -954952, 2610368, 7417827, -1422756, 643166, -316426, 147582, -60323, 19658, -4139],
   [-1376, 10067, -36408, 97657, -220756, 455137, -941374, 2566616, 7445136, -1412005, 637748, -313765, 146396, -59878, 19536, -4123],
   [-1345, 9893, -35835, 96203, -217578, 448679, -927731, 2522955, 7472104, -1400953, 632198, -311040, 145177, -59420, 19408, -4107],
   [-1315, 9719, -35261, 94743, -214384, 442184, -914026, 2479389, 7498723, -1389598, 626517, -308250, 143928, -58947, 19276, -4090]]

/-- Phases 192 to 207 of R81. -/
def coeffRows12 : List (List Int) :=
  [[-1285, 9545, -34685, 93277, -211175, 435656, -900262, 2435921, 7524993, -1377942, 620706, -305394, 142647, -58462, 19139, -4071],
   [-1255, 9371, -34109, 91806, -207951, 429095, -886441, 2392555, 7550911, -1365983, 614764, -302474, 141334, -57962, 18998, -4051],
   [-1225, 9198, -33532, 90330, -204712, 422502, -872565, 2349294, 7576473, -1353720, 608691, -299488, 139990, -57449, 18851, -4030],
   [-1196, 9024, -32953, 88850, -201460, 415879, -858637, 2306142, 7601677, -1341153, 602488, -296438, 138614, -56922, 18700, -4007],
   [-1167, 8852, -32375, 87365, -198195, 409226, -844659, 2263103, 7626523, -1328281, 596155, -293324, 137208, -56382, 18543, -3984],
   [-1138, 8679, -31795, 85876, -194917, 402545, -830633, 2220178, 7651007, -1315105, 589692, -290145, 135769, -55828, 18382, -3959],
   [-1109, 8507, -31215, 84383, -191627, 395838, -816563, 2177372, 7675125, -1301623, 583100, -286902, 134300, -55260, 18215, -3933],
   [-1081, 8335, -30635, 82887, -188326, 389104, -802450, 2134689, 7698876, -1287835, 576379, -283594, 132799, -54678, 18044, -3906],
   [-1053, 8163, -30054, 81387, -185015, 382346, -788296, 2092131, 7722260, -1273741, 569528, -280223, 131267, -54083, 17868, -3877],
   [-1025, 7992, -29473, 79885, -181693, 375565, -774105, 2049702, 7745271, -1259341, 562549, -276788, 129704, -53474, 17686, -3847],
   [-998, 7822, -28893, 78379, -178362, 368762, -759878, 2007404, 7767909, -1244633, 555442, -273289, 128110, -52851, 17500, -3816],
   [-971, 7652, -28312, 76872, -175022, 361938, -745618, 1965242, 7790171, -1229619, 548207, -269727, 126485, -52215, 17308, -3783],
   [-944, 7482, -27731, 75362, -171674, 355094, -731328, 1923219, 7812055, -1214297, 540845, -266102, 124829, -51565, 17112, -3749],
   [-917, 7314, -27151, 73850, -168318, 348232, -717008, 1881337, 7833556, -1198667, 533356, -262414, 123142, -50901, 16911, -3714],
   [-891, 7145, -26571, 72337, -164955, 341352, -702663, 1839600, 7854680, -1182730, 525740, -258664, 121424, -50223, 16704, -3677],
   [-865, 6978, -25991, 70822, -161586, 334456, -688293, 1798011, 7875417, -1166485, 517999, -254851, 119676, -49532, 16492, -3640]]

/-- Phases 208 to 223 of R81. -/
def coeffRows13 : List (List Int) :=
  [[-840, 6811, -25412, 69306, -158211, 327546, -673903, 1756573, 7895769, -1149932, 510131, -250975, 117897, -48828, 16276, -3600],
   [-814, 6645, -24834, 67789, -154830, 320621, -659492, 1715289, 7915731, -1133071, 502139, -247038, 116088, -48109, 16054, -3560],
   [-789, 6479, -24256, 66272, -151445, 313684, -645065, 1674163, 7935305, -1115902, 494022, -243040, 114248, -47377, 15827, -3518],
   [-765, 6314, -23680, 64755, -148056, 306736, -630624, 1633197, 7954487, -1098425, 485781, -238980, 112379, -46632, 15595, -3474],
   [-740, 6150, -23104, 63237, -144663, 299777, -616170, 1592395, 7973274, -1080640, 477417, -234859, 110479, -45873, 15358, -3430],
   [-716, 5987, -22529, 61720, -141267, 292809, -601705, 1551759, 7991662, -1062547, 468931, -230678, 108549, -45100, 15116, -3383],
   [-693, 5824, -21956, 60203, -137868, 285833, -587233, 1511292, 8009658, -1044146, 460322, -226436, 106589, -44314, 14869, -3336],
   [-669, 5663, -21383, 58687, -134468, 278850, -572755, 1470998, 8027252, -1025438, 451591, -222134, 104600, -43515, 14616, -3287],
   [-646, 5502, -20812, 57171, -131066, 271862, -558274, 1430879, 8044445, -1006422, 442740, -217773, 102581, -42702, 14359, -3236],
   [-623, 5342, -20243, 55657, -127664, 264869, -543791, 1390939, 8061235, -987098, 433769, -213352, 100532, -41876, 14096, -3184],
   [-601, 5183, -19675, 54145, -124262, 257872, -529310, 1351179, 8077623, -967468, 424678, -208873, 98455, -41036, 13829, -3131],
   [-579, 5025, -19108, 52634, -120860, 250873, -514831, 1311603, 8093603, -947530, 415469, -204335, 96348, -40184, 13556, -3076],
   [-557, 4868, -18544, 51125, -117459, 243874, -500358, 1272214, 8109179, -927287, 406141, -199740, 94212, -39318, 13278, -3020],
   [-536, 4712, -17981, 49619, -114059, 236874, -485892, 1233015, 8124340, -906737, 396697, -195086, 92048, -38439, 12995, -2962],
   [-515, 4557, -17420, 48115, -110661, 229875, -471436, 1194008, 8139093, -885881, 387136, -190376, 89855, -37546, 12707, -2903],
   [-494, 4403, -16860, 46613, -107266, 222878, -456992, 1155196, 8153434, -864720, 377460, -185608, 87634, -36641, 12414, -2843]]

/-- Phases 224 to 239 of R81. -/
def coeffRows14 : List (List Int) :=
  [[-474, 4250, -16303, 45115, -103874, 215885, -442562, 1116582, 8167363, -843255, 367669, -180785, 85385, -35723, 12116, -2781],
   [-454, 4098, -15748, 43619, -100486, 208895, -428147, 1078168, 8180878, -821485, 357764, -175905, 83107, -34792, 11813, -2717],
   [-434, 3947, -15196, 42127, -97102, 201912, -413751, 1039957, 8193977, -799411, 347746, -170970, 80802, -33848, 11504, -2652],
   [-415, 3797, -14645, 40639, -93723, 194934, -399375, 1001952, 8206658, -777034, 337617, -165981, 78469, -32891, 11191, -2585],
   [-396, 3648, -14097, 39154, -90349, 187965, -385021, 964156, 8218920, -754354, 327376, -160937, 76109, -31922, 10873, -2517],
   [-377, 3501, -13551, 37674, -86981, 181004, -370691, 926570, 8230762, -731372, 317025, -155839, 73722, -30940, 10549, -2448],
   [-359, 3355, -13008, 36198, -83619, 174053, -356387, 889198, 8242181, -708089, 306565, -150687, 71308, -29945, 10221, -2377],
   [-341, 3209, -12468, 34726, -80263, 167112, -342112, 852041, 8253182, -684505, 295997, -145483, 68868, -28938, 9887, -2304],
   [-323, 3065, -11930, 33259, -76915, 160183, -327867, 815103, 8263758, -660622, 285322, -140227, 66401, -27918, 9549, -2230],
   [-306, 2922, -11395, 31797, -73575, 153267, -313655, 778386, 8273913, -636439, 274540, -134919, 63908, -26887, 9206, -2155],
   [-289, 2781, -10862, 30340, -70244, 146365, -299476, 741892, 8283639, -611958, 263654, -129559, 61388, -25843, 8858, -2078],
   [-272, 2640, -10333, 28889, -66921, 139478, -285334, 705624, 8292941, -587179, 252663, -124150, 58844, -24787, 8504, -1999],
   [-256, 2501, -9807, 27443, -63607, 132607, -271230, 669584, 8301814, -562104, 241570, -118690, 56274, -23718, 8146, -1919],
   [-240, 2363, -9283, 26003, -60303, 125752, -257166, 633774, 8310262, -536733, 230375, -113181, 53678, -22638, 7783, -1838],
   [-224, 2227, -8763, 24569, -57009, 118916, -243145, 598197, 8318277, -511068, 219080, -107623, 51058, -21546, 7416, -1754],
   [-209, 2091, -8246, 23141, -53726, 112098, -229167, 562854, 8325867, -485108, 207685, -102016, 48414, -20443, 7043, -1670]]

/-- Phases 240 to 255 of R81. -/
def coeffRows15 : List (List Int) :=
  [[-194, 1957, -7732, 21719, -50455, 105300, -215234, 527749, 8333025, -458856, 196192, -96363, 45745, -19327, 6666, -1584],
   [-180, 1825, -7221, 20305, -47194, 98523, -201350, 492883, 8339752, -432313, 184602, -90662, 43052, -18201, 6283, -1496],
   [-165, 1693, -6714, 18897, -43947, 91768, -187515, 458259, 8346047, -405479, 172916, -84915, 40336, -17063, 5897, -1407],
   [-151, 1563, -6210, 17496, -40711, 85035, -173731, 423878, 8351910, -378356, 161136, -79123, 37596, -15913, 5505, -1316],
   [-138, 1435, -5710, 16102, -37489, 78327, -160000, 389742, 8357341, -350944, 149262, -73286, 34833, -14752, 5109, -1224],
   [-125, 1307, -5213, 14715, -34280, 71642, -146324, 355855, 8362339, -323245, 137297, -67404, 32047, -13581, 4708, -1130],
   [-112, 1181, -4720, 13336, -31086, 64984, -132704, 322217, 8366905, -295261, 125240, -61480, 29239, -12398, 4302, -1035],
   [-99, 1057, -4231, 11965, -27905, 58352, -119143, 288831, 8371032, -266992, 113095, -55512, 26409, -11205, 3892, -938],
   [-87, 934, -3745, 10601, -24740, 51747, -105642, 255699, 8374728, -238440, 100862, -49502, 23557, -10001, 3477, -840],
   [-75, 812, -3263, 9246, -21589, 45170, -92203, 222822, 8377989, -209607, 88542, -43451, 20683, -8786, 3058, -740],
   [-63, 692, -2785, 7899, -18455, 38623, -78828, 190203, 8380813, -180492, 76137, -37359, 17789, -7561, 2634, -639],
   [-52, 573, -2311, 6561, -15336, 32106, -65517, 157844, 8383201, -151099, 63648, -31228, 14874, -6326, 2206, -536],
   [-41, 455, -1841, 5231, -12234, 25619, -52274, 125745, 8385157, -121428, 51077, -25057, 11938, -5080, 1773, -432],
   [-30, 339, -1374, 3909, -9149, 19165, -39098, 93910, 8386673, -91482, 38425, -18849, 8983, -3825, 1337, -326],
   [-20, 225, -912, 2597, -6082, 12743, -25993, 62340, 8387754, -61260, 25694, -12602, 6008, -2560, 895, -219],
   [-10, 112, -454, 1294, -3032, 6354, -12960, 31036, 8388400, -30766, 12885, -6319, 3013, -1285, 450, -110]]

/-- The 256 rows of R81. -/
def coeffRows : List (List Int) :=
  coeffRows0 ++ coeffRows1 ++ coeffRows2 ++ coeffRows3 ++ coeffRows4 ++ coeffRows5 ++ coeffRows6 ++ coeffRows7 ++
  coeffRows8 ++ coeffRows9 ++ coeffRows10 ++ coeffRows11 ++ coeffRows12 ++ coeffRows13 ++ coeffRows14 ++ coeffRows15

/-- h_phi, the sixteen coefficients of phase `phi` (R81). -/
def coeff (phi : Nat) : List Int := coeffRows.getD phi []

end Sys2Proof.Machine
end

