-- ==== Sys2Proof/Machine/Align.lean ====
section
/-! DEFINITION. The aligner (R74 to R93, R218 to R223): correction of raw samples, CLIP runs, integration, the delay line and
fractional filter, the lane estimators and their steps, lane checks and retirement. -/

namespace Sys2Proof.Machine

/-- Addition of exact fractions. -/
def ratAdd (a b : Int × Nat) : Int × Nat :=
  if a.2 = b.2 then (a.1 + b.1, a.2) else (a.1 * b.2 + b.1 * a.2, a.2 * b.2)

/-- The sum of exact fractions. -/
def ratSum : List (Int × Nat) → Int × Nat
  | [] => (0, 1)
  | [a] => a
  | a :: l => ratAdd a (ratSum l)

/-- `x` moved toward `t` by at most `d`. -/
def stepTo (x t : Int) (d : Int) : Int := if t < x - d then x - d else if x + d < t then x + d else t

/-- The hidden state of a lane is set. -/
def setLane (l : Nat) (x : LaneS) (s : State) : State :=
  { s with acq := { s.acq with lanes := tset {} s.acq.lanes l x } }

/-- The estimators of lane `l` at gain code `g` are set. -/
def setEst (l g : Nat) (e : GainEst) (s : State) : State :=
  { s with acq := { s.acq with est := tset {} s.acq.est (8 * l + g) e } }

/-- The circuits on a source are to be estimated for a span of frames. -/
def addSpan (src lo hi : Nat) (s : State) : State :=
  { s with acq := { s.acq with estSpans := s.acq.estSpans ++ [EstSpan.mk src lo hi] } }

/-! ### Lane estimators (R88 to R91) -/

/-- The offset target: the mean of 32 ZERO results in Q15.8 (R88). -/
def zeroTarget (z : List (Int × Nat)) : Int :=
  let m := ratSum z
  odiv (m.1 * 256) (32 * m.2 : Nat)

/-- The gain target: `round(2^30 × 235,929.6 / s)` with s the mean of 32 spans (R88). -/
def spanTarget (sp : List (Int × Nat)) : Int :=
  let m := ratSum sp
  if m.1 ≤ 0 then clampI 0 (2 ^ 32 - 1) (Config.openResult 88 [m.1, m.2])
  else clampI 0 (2 ^ 32 - 1) (rdiv (2 ^ 30 * 2359296 * 32 * m.2) (10 * m.1))

/-- One lane and gain code at the start of frame `f` (R88, R89, R91): targets are formed from 32 valid results, and the
effective values take a first target at once or move one step, unless BG_HOLD holds them (R90). -/
def estStep (f l g : Nat) (hold : Bool) (s : State) : State :=
  let e := tget {} s.acq.est (8 * l + g)
  let zt := if e.zero.length = 32 then zeroTarget e.zero else s.liveI (K.bgOffsetTgt g l)
  let gt := if e.span.length = 32 then spanTarget e.span else (s.live (K.bgGainTgt g l) : Int)
  let s := (s.putDueI f (K.bgOffsetTgt g l) zt).putDue f (K.bgGainTgt g l) gt.toNat
  if hold then s
  else
    let off := s.liveI (K.bgOffset g l)
    let gain := (s.live (K.bgGain g l) : Int)
    let firstO := e.offDue && decide (e.zero.length = 32)
    let firstG := e.gainDue && decide (e.span.length = 32)
    let off' := if firstO then zt else if e.zero.length = 32 then stepTo off zt 256 else off
    let gain' := if firstG then gt else if e.span.length = 32 then stepTo gain gt (max 1 (asr gain 20)) else gain
    let s := (s.putDueI f (K.bgOffset g l) off').putDue f (K.bgGain g l) gain'.toNat
    setEst l g { e with offDue := e.offDue && !firstO, gainDue := e.gainDue && !firstG } s

/-- DIE_TEMP and INJ_RATIO of a lane, from 32 valid results each (Table 3.3): TEMP at the lowest gain that has them, INJ at the
highest gain in use. (DESIGN CHOICE, log 12; DEDUCED, log 98) -/
def tempInjStep (f l : Nat) (gains : List Nat) (s : State) : State :=
  let est := fun (g : Nat) => tget {} s.acq.est (8 * l + g)
  let s := match (List.range 6).find? (fun g => decide ((est g).temp.length = 32)) with
    | some g =>
      let m := ratSum (est g).temp
      s.putDueI f (K.dieTemp l) (Config.dieTemp l g (odiv (m.1 * 65536) (32 * m.2 : Nat)))
    | none => s
  let inj := (est (gains.getLast?.getD 0)).inj
  if inj.length = 32 then
    let m := ratSum inj
    s.putDue f (K.injRatio l) (clampI 0 (2 ^ 32 - 1) (odiv (m.1 * 100 * 2 ^ 30) (32 * m.2 * 2 ^ 47 : Nat))).toNat
  else s

/-- The gain codes that the table of a running lane uses in frame `f`; a RETIRED lane uses none. -/
def laneGains (s : State) (f l : Nat) : List Nat :=
  if s.live (K.laneMode l) = 2 then [] else gainsInUse s f l (tableOf s f l)

/-- A reinstated lane is settled once every estimator in use has taken its first target (R235). -/
def settleStep (l : Nat) (gains : List Nat) (s : State) : State :=
  let x := tget {} s.acq.lanes l
  if x.settle then
    if gains.all (fun g => let e := tget {} s.acq.est (8 * l + g); !e.offDue && !e.gainDue) then
      setLane l { x with settle := false } s
    else s
  else s

/-- The values of one lane that apply to the raw samples of frame `f`; those of a gain that it does not use hold (R88). -/
def bgLane (f : Nat) (hold : Bool) (l : Nat) (s : State) : State :=
  let gains := laneGains s f l
  let s := (s.acq.est.filter (fun e => decide (e.1 / 8 = l) && decide (e.1 % 8 ∈ gains))).foldl (fun s e => estStep f l (e.1 % 8) hold s) s
  settleStep l gains (tempInjStep f l gains s)

/-- The lane values that apply to the raw samples of frame `f` (R89). -/
def bgFrame (f : Nat) (s : State) : State :=
  let hold := decide (s.cfg f K.bgHold = 1)
  ((s.acq.est.map (fun e => e.1 / 8)).eraseDups).foldl (fun s l => bgLane f hold l s) s

/-! ### GAP results (R88, R90, R218) -/

/-- The value of a GAP result after steps 1 to 3 of Table 3.2. -/
def gapValue (l : Nat) (r : LRes) (s : State) : Int :=
  gainBy (offsetBy (normalise r.value r.shift r.rep r.gain) (s.liveI (K.bgOffset r.gain l)) r.gain)
    (s.live (K.bgGain r.gain l))

/-- The cause with which a GAP result fails Table 8.4, or 0; TEMP is not checked (R218). (DEDUCED, log 53) -/
def gapCause (f l : Nat) (r : LRes) (s : State) : Nat :=
  if r.src = 16 then
    let d := r.value * 2 ^ r.shift * 256 - s.liveI (K.bgOffset r.gain l) * r.rep
    if (s.cfg f K.laneOffsetTol : Int) * 256 * r.rep < mag d then 1 else 0
  else if r.src = 17 ∨ r.src = 18 then
    let e := 9 * one47
    let d := 10 * (gainOf r.gain : Int) * gapValue l r s - (if r.src = 17 then e else -e)
    if (s.cfg f K.laneGainTol : Int) * e < mag d * 1000000 then 2 else 0
  else if r.src = 20 then
    if (s.cfg f K.injTol : Int) * one47 < mag (100 * gapValue l r s - one47) * 1000000 then 3 else 0
  else 0

/-- The newest 32 of a list with a new head. -/
def push32 (a : Int × Nat) (l : List (Int × Nat)) : List (Int × Nat) := (a :: l).take 32

/-- A valid GAP result feeds its estimator, PREF and NREF after the offset that applies to each (Table 3.3). -/
def gapFeed (l : Nat) (r : LRes) (s : State) : State :=
  let code : Int × Nat := (r.value * 2 ^ r.shift, r.rep)
  let net : Int × Nat := (code.1 * 256 - s.liveI (K.bgOffset r.gain l) * r.rep, 256 * r.rep)
  let e := tget {} s.acq.est (8 * l + r.gain)
  if r.src = 16 then setEst l r.gain { e with zero := push32 code e.zero } s
  else if r.src = 17 then setEst l r.gain { e with pref := some net } s
  else if r.src = 18 then
    (match e.pref with
     | some p => setEst l r.gain { e with pref := none, span := push32 (ratAdd p (-net.1, net.2)) e.span } s
     | none => s)
  else if r.src = 19 then setEst l r.gain { e with temp := push32 code e.temp } s
  else setEst l r.gain { e with inj := push32 (gapValue l r s, 1) e.inj } s

/-- A PREF or NREF result that is not valid breaks a pair: an NREF is paired with the latest PREF, unless one of the two is not
valid. (DESIGN CHOICE, log 85) -/
def gapBreak (l : Nat) (r : LRes) (s : State) : State :=
  if r.src = 17 ∨ r.src = 18 then
    setEst l r.gain { (tget {} s.acq.est (8 * l + r.gain)) with pref := none } s
  else s

/-- A GAP result of lane `l` in frame `f` (R88, R90, R218, R235). -/
def gapTake (f l : Nat) (r : LRes) (s : State) : State :=
  let x := tget {} s.acq.lanes l
  if r.par then gapBreak l r s
  else
    let cause := if x.settle then 0 else gapCause f l r s
    let s := if x.settle ∨ r.src = 19 then s
      else setLane l { x with checked := x.checked + 1, cause := if x.cause = 0 then cause else x.cause } s
    if cause ≠ 0 ∨ (s.get (K.laneFState l) = 1 ∧ x.settle = false) then gapBreak l r s else gapFeed l r s

/-! ### Raw samples (R84, R85) -/

/-- Steps 1 to 5 of Table 3.2 on an input result of lane `l`, from a normalised value (R85). -/
def laneSteps (l : Nat) (r : LRes) (x0 : Int) (s : State) : Int :=
  let x2 := gainBy (offsetBy x0 (s.liveI (K.bgOffset r.gain l)) r.gain) (s.live (K.bgGain r.gain l))
  gainBy (offsetBy x2 r.off r.gr) r.gcal

/-- The raw sample of period `m` from an input result (R84, R85). -/
def rawOf (m l : Nat) (aff : Bool) (r : LRes) (s : State) : RawS :=
  let x := laneSteps l r (normalise r.value r.shift r.rep r.gain) s
  let fs0 := one47 / (gainOf r.gain : Int)
  let sat := r.sat || beyond47 x
  { g := m, x := sat47 x, y := sat47 x, miss := false, sat := sat, clip := r.clip || sat, high := r.high, skew := r.skew,
    aff := aff, est := false, code := r.value, fs := mag (sat47 (laneSteps l r (if r.value < 0 then -fs0 else fs0) s)),
    intK := r.intK, rog := r.rog }

/-- A voltage sample after steps 4 and 5 (R84, R85). -/
def rawVolt (m : Nat) (e : R0Volt) : RawS :=
  let x := gainBy (offsetBy e.value e.off 0) e.gain
  { g := m, x := sat47 x, y := sat47 x, miss := false, sat := beyond47 x, clip := e.clip || beyond47 x, high := false,
    skew := 0, aff := e.aff, est := false, code := e.value, fs := one47, intK := 0, rog := false }

/-- A sample that no result gives: its period was lost with its frame, and its value is open (R18). (DEDUCED, log 40) -/
def rawMissing (k m : Nat) : RawS :=
  let x := sat47 (Config.openResult 18 [k, m])
  { g := m, x := x, y := x, miss := true, sat := false, clip := false, high := false, skew := 0, aff := false, est := false,
    code := 0, fs := one47, intK := 0, rog := false }

/-- The stuck-code run of a stream takes a counted result (R225, R227). -/
def stuckTake (f thr : Nat) (counted : Bool) (code : Int) (st : Stream) : Stream :=
  if counted then
    let run := if st.run ≠ 0 ∧ code = st.code then st.run + 1 else 1
    { st with code := code, run := min run 65536, stuck := if thr ≤ run then some f else st.stuck }
  else st

/-- A raw sample enters the delay line of stream `k`; CLIP samples of a current channel are counted (Table 2.10). -/
def streamTake (k : Nat) (r : RawS) (s : State) : State :=
  let f := r.g / 16
  let st := tget {} s.aln.streams k
  let counted := (if k < 256 then !r.sat else !r.clip) && !r.aff && !r.miss
  let st := stuckTake f (s.cfg f K.stuckPeriods) counted r.code st
  let st := { st with hist := (r :: st.hist).take 32,
                      afs := if r.aff ∧ 256 ≤ k then ((r.g + 3) :: st.afs).take 32 else st.afs }
  let s := { s with aln := { s.aln with streams := tset {} s.aln.streams k st } }
  if r.clip ∧ k < 256 then s.putDue f (K.chClipSamples k) ((s.live (K.chClipSamples k) + 1) % 2 ^ 32) else s

/-- The lane that converts channel `n`: its own, or the partner that serves it (R67). -/
def laneOf (s : State) (n : Nat) : Nat :=
  if s.live (K.laneMode (n / 8)) = 2 then partner (n / 8) else n / 8

/-- The input result of channel `n` in period `m`, from the entry of its lane. -/
def findRes (ents : List R0Lane) (l n : Nat) : Option (LRes × Bool) :=
  match ents.find? (fun e => decide (e.lane = l)) with
  | some e =>
    (match e.res.find? (fun r => !r.gap && decide (srcCh l r.src = n)) with
     | some r => some (r, e.aff)
     | none => none)
  | none => none

/-- Stream `k` takes its raw sample of index `m`: a current result of period m, or the voltage sample that stands for m. -/
def takeStream (m : Nat) (lanes : List R0Lane) (volts : List R0Volt) (k : Nat) (s : State) : State :=
  let st := tget {} s.aln.streams k
  if st.on ∧ 16 * st.raw ≤ m then
    if k < 256 then
      let l := laneOf s k
      streamTake k (match findRes lanes l k with | some (r, aff) => rawOf m l aff r s | none => rawMissing k m) s
    else
      streamTake k (match volts.find? (fun e => decide (e.v = k - 256)) with
        | some e => rawVolt m e
        | none => rawMissing k m) s
  else s

/-! ### Lane checks (R219 to R223) -/

/-- Extra checks of units that a test picks are no longer due (R226). -/
def dropExtra (p : Nat → Bool) (s : State) : State :=
  { s with acq := { s.acq with extra := s.acq.extra.filter (fun e => !p e.1) } }

/-- A current channel is retired with its lane (R223). (DEDUCED, log 35) -/
def channelPartner (f : Nat) (n : Nat) (s : State) : State :=
  if s.get (K.chFState n) = 2 then s else unitSet 1 n 2 13 f (dropExtra (fun k => decide (k = n)) s)

/-- Lane `l` is RETIRED in frame `f` (R222, R223): its MODE becomes 2 and its partner takes over from f + 2; where the partner is
RETIRED too, in the same frame or before, the channels of both are retired. (DEDUCED, log 35) -/
def laneRetire (l f : Nat) (s : State) : State :=
  let p := partner l
  let s := setLane l { (tget {} s.acq.lanes l) with gone := false } s
  let s := (s.putLive (K.laneMode l) 2).put (K.laneTableFn l) (s.fn + 1)
  let s := stopStreams ((List.range 8).map (fun e => 8 * l + e)) s
  let s := if s.get (K.laneFState p) = 2 then
      let s := { s with acq := { s.acq with
        takeovers := s.acq.takeovers.filter (fun t => decide (t.lane ≠ l) && decide (t.lane ≠ p)) } }
      let s := stopStreams (enabledOf s f p) s
      (enabledOf s f (min l p) ++ enabledOf s f (max l p)).foldl (fun s n => channelPartner f n s) s
    else
      let s := { s with acq := { s.acq with takeovers := s.acq.takeovers ++ [Takeover.mk l (f + 2)] } }
      (addSpan l f (f + 3) s).event 0x0304 [l, p, f + 2]
  recredit0 s.fn s

/-- The affected periods of frame `f`, and whether they escalate (R221): more than one in the frame, or a neighbour of one. -/
def escalates (f : Nat) (afs : List Nat) : Nat × Bool :=
  let here := afs.filter (fun g => decide (g / 16 = f))
  (here.length, decide (1 < here.length) ||
    here.any (fun g => decide (g + 1 ∈ afs) || decide (g ∈ afs.map (· + 1))))

/-- A sample of an affected period of frame `f` that was replaced before a second affected period of its frame was known is no longer
replaced: the period escalates (R221).  `lag` is the period of sample 0.  What the integrator of a Rogowski channel already holds of it
stays. (DEDUCED, log 36) -/
def unreplace (f lag : Nat) (st : Stream) : Stream :=
  { st with hist := st.hist.map (fun r =>
      if r.est ∧ (r.g + lag) / 16 = f then { r with x := r.meas, y := if r.rog then r.y else r.meas, est := false } else r) }

/-- The replaced samples of unit (kind, num) in a frame whose affected periods escalate. -/
def unreplaceUnit (kind num f : Nat) (s : State) : State :=
  { s with aln := { s.aln with streams := s.aln.streams.map (fun e =>
      if kind = 0 ∧ e.1 < 256 ∧ laneOf s e.1 = num then (e.1, unreplace f 0 e.2)
      else if kind ≠ 0 ∧ e.1 = 256 + num then (e.1, unreplace f 3 e.2) else e) } }

/-- What R221 makes of the affected periods of unit (kind, num) in frame `f`: replacement, or escalation with its estimate. -/
def transients (kind num f : Nat) (afs : List Nat) (s : State) : State :=
  let e := escalates f afs
  if e.1 = 0 then s
  else if e.2 then
    let s := unreplaceUnit kind num f s
    let s := if kind = 0 then s.bump (K.laneFEscalations num) else s.bumpBy (K.vFTransients num) e.1
    let src := if kind = 0 then num else 32 + num
    (addSpan src f f s).event 0x0306 [kind, num, f, e.1]
  else s.bump (if kind = 0 then K.laneFTransients num else K.vFTransients num)

/-- A lane check that fails breaks the stuck-code runs of its channels (R225). -/
def breakRuns (l : Nat) (s : State) : State :=
  { s with aln := { s.aln with streams := s.aln.streams.map (fun e =>
      if e.1 < 256 ∧ laneOf s e.1 = l then (e.1, { e.2 with run := 0 }) else e) } }

/-- The GAP results of the frame are taken: those of an affected period only when it escalates (R218, R221). -/
def gapsDo (f l : Nat) (esc : Bool) (s : State) : State :=
  let gaps := (tget {} s.acq.lanes l).gaps
  let s := setLane l { (tget {} s.acq.lanes l) with gaps := [] } s
  gaps.foldl (fun s e => if e.1 && !esc then s else e.2.foldl (fun s r => gapTake f l r s) s) s

/-- The check of lane `l` for frame `f` (R215, R216, R219, R220, R222), in RUN.  A self-calibration is requested when the lane becomes
SUSPECT and after every 16th failure in a row; a DEGRADED-SERVING lane that passes enough shows that state again.
(DEDUCED, log 35; DESIGN CHOICE, log 114) -/
def laneCheck (f l : Nat) (s : State) : State :=
  if s.live (K.laneMode l) = 2 then s
  else
    let esc := (escalates f (tget {} s.acq.lanes l).afs).2
    let s := gapsDo f l esc s
    let x := tget {} s.acq.lanes l
    let s := transients 0 l f x.afs s
    let s := setLane l { x with checked := 0, cause := 0, afs := x.afs.filter (fun g => decide (16 * f ≤ g + 16)) } s
    if x.settle ∨ s.mode ≠ .run then s
    else if x.cause ≠ 0 ∨ esc then
      let was := s.get (K.laneFState l)
      let (s, gone) := unitFail 0 l (if x.cause ≠ 0 then x.cause else 4) f (s.cfg f K.laneRetireRun)
        (breakRuns l (s.bump (K.laneFChecksFailed l)))
      if gone then setLane l { (tget {} s.acq.lanes l) with gone := true } s
      else if was ≠ 1 ∨ s.get (K.laneFFailRun l) % 16 = 0 then
        setLane l { (tget {} s.acq.lanes l) with selfCal := true } s
      else s
    else if 0 < x.checked then
      let s := unitPass 0 l f (s.cfg f K.laneOkRun) s
      if s.get (K.laneFState l) = 0 ∧ x.serves then s.put (K.laneFState l) 3 else s
    else s

/-- The affected periods of a lane entry are noted (R221). -/
def noteAff (e : R0Lane) (s : State) : State :=
  if e.aff then
    let x := tget {} s.acq.lanes e.lane
    setLane e.lane { x with afs := (e.g :: x.afs).take 48 } s
  else s

/-- The GAP results of a lane entry wait for the end of the frame, when it is known whether an affected period escalates (R221). -/
def gapsTake (e : R0Lane) (s : State) : State :=
  let x := tget {} s.acq.lanes e.lane
  setLane e.lane { x with gaps := x.gaps ++ [(e.aff, e.res.filter (fun r => r.gap))] } s

/-- The frame before `f` is decided and the lane values move to `f`, when the first raw samples of `f` are taken. -/
def laneFrame (f : Nat) (s : State) : State :=
  let s := (List.range 32).foldl (fun s l => laneCheck (f - 1) l s) s
  let s := (List.range 32).foldl (fun s l => if (tget {} s.acq.lanes l).gone then laneRetire l (f - 1) s else s) s
  let s := s.aln.streams.foldl (fun s e =>
    if 256 ≤ e.1 then transients 2 (e.1 - 256) (f - 1) e.2.afs s else s) s
  bgFrame f s

/-- The aligner takes its next RING-0 entries (R15, R74): currents of period m = n + 2, and voltage samples of n. -/
def alignTake (n : Nat) (s : State) : State :=
  let m := n + 2
  let lanes := s.acq.ring0L.filter (fun e => decide (e.g = m))
  let volts := s.acq.ring0V.filter (fun e => decide (e.g = n + 3))
  let s := { s with acq := { s.acq with ring0L := s.acq.ring0L.filter (fun e => decide (m < e.g)),
                                        ring0V := s.acq.ring0V.filter (fun e => decide (n + 3 < e.g)) } }
  let s := lanes.foldl (fun s e => noteAff e s) s
  let s := if m % 16 = 0 ∧ s.acq.first ≠ none ∧ (s.acq.first.getD 0) < m / 16 then laneFrame (m / 16) s else s
  let s := lanes.foldl (fun s e => gapsTake e s) s
  s.aln.streams.foldl (fun s e => takeStream (if e.1 < 256 then m else n) lanes volts e.1 s) s

/-! ### Steps 6 and 7 -/

/-- Sample `m` of a delay line whose newest sample is `top`. -/
def histAt (hist : List RawS) (m : Nat) : Option RawS :=
  match hist with
  | [] => none
  | r :: _ => if m ≤ r.g then hist[r.g - m]? else none

/-- The sample just before index `m`. -/
def histPrev (hist : List RawS) (m : Nat) : Option RawS := if m = 0 then none else histAt hist (m - 1)

/-- R64 rule 2 for sample `m`: a run of at most two saturated high-range samples, between an unsaturated sample before it and an
unsaturated low-range sample after it, is interpolated; a magnitude below high-range full scale is raised to it. (DEDUCED, log 36)
The interpolation is rounded half away from zero. (DESIGN CHOICE, log 105) -/
def clipReplace (hist : List RawS) (m : Nat) (r : RawS) : Int :=
  let sat := fun q : Option RawS => match q with | some a => a.sat && a.high | none => false
  let unsat := fun q : Option RawS => match q with | some a => !a.sat && !a.miss | none => false
  let low := fun q : Option RawS => match q with | some a => !a.sat && !a.miss && !a.high | none => false
  let val := fun q : Option RawS => match q with | some a => a.x | none => 0
  let p1 := histPrev hist m
  let p2 := if m < 2 then none else histAt hist (m - 2)
  let n1 := histAt hist (m + 1)
  let n2 := histAt hist (m + 2)
  let raise := fun v : Int => if mag v < r.fs then (if r.code < 0 then -r.fs else r.fs) else v
  if r.sat && r.high then
    if unsat p1 && low n1 then raise (rdiv (val p1 + val n1) 2)
    else if unsat p1 && sat n1 && low n2 then raise (rdiv (2 * val p1 + val n2) 3)
    else if sat p1 && unsat p2 && low n1 then raise (rdiv (val p2 + 2 * val n1) 3)
    else r.x
  else r.x

/-- R221 rule 1 for sample `m`: the only affected period of its frame so far, with unaffected neighbours, is replaced; where another
follows in the frame, `unreplace` takes that back.
(DEDUCED, log 36) -/
def affReplace (hist : List RawS) (afs : List Nat) (g m : Nat) (r : RawS) : Option Int :=
  if r.aff then
    match histPrev hist m, histAt hist (m + 1) with
    | some p, some q =>
      if (afs.filter (fun h => decide (h / 16 = g / 16) && decide (h ≤ g))).length ≤ 1 ∧ p.aff = false ∧ q.aff = false
      then some (rdiv (p.x + q.x) 2) else none
    | _, _ => none
  else none

/-- A sample of a delay line is replaced. -/
def histSet (hist : List RawS) (m : Nat) (r : RawS) : List RawS :=
  match hist with
  | [] => []
  | a :: _ => if m ≤ a.g then hist.set (a.g - m) r else hist

/-- Step 7 (R86): the leaky trapezoidal integrator of a Rogowski channel; a saturated output is flagged CLIP.  While SENSOR is 0 the
integrator's w stays as it was. (DESIGN CHOICE, log 85) -/
def integrate (st : Stream) (prev : Int) (r : RawS) : Stream × RawS :=
  if r.rog then
    let w := st.w - asr st.w 20 + rshift ((r.intK : Int) * (r.x + prev)) 29
    ({ st with w := w }, { r with y := sat47 w, clip := r.clip || beyond47 w })
  else (st, { r with y := r.x })

/-- Sample `m` of stream `k` becomes final: R64 and R221, then integration. -/
def finalSample (s : State) (k m : Nat) (st : Stream) : Stream :=
  match histAt st.hist m with
  | none => st
  | some r =>
    let afs := if k < 256 then (tget {} s.acq.lanes (laneOf s k)).afs else st.afs
    let g := if k < 256 then m else m + 3
    let r := match affReplace st.hist afs g m r with
      | some x => { r with x := x, est := true, meas := r.x }
      | none => if k < 256 then { r with x := clipReplace st.hist m r } else r
    let prev := match histPrev st.hist m with | some p => p.x | none => 0
    let (st, r) := integrate st prev r
    { st with hist := histSet st.hist m r }

/-! ### Step 8 (R78 to R82, R87) -/

/-- The filter sum of phase `phi` over the samples from tap 0 at index `n − i` backwards (R78, R82). -/
def firSum (hist : List RawS) (n i : Nat) (h : List Int) : Int :=
  rshift (sumI ((List.range 16).map (fun t =>
    ati h t * (match histAt hist (n - i - t) with | some r => r.y | none => 0)))) 23

/-- The governing raw sample of a current (R87): its skew decides between n − 8 and n − 9. (DEDUCED, log 36) -/
def governing (hist : List RawS) (n : Nat) : Option RawS :=
  match histAt hist (n - 8) with
  | some r => if r.skew < 128 then some r else histAt hist (n - 9)
  | none => none

/-- One aligned sample with its CLIP and ESTIMATED flags, from the total delay `y` and governing sample (R78, R80, R82, R87).  A sample
that the filter saturates is flagged CLIP (R82) even though its governing sample is not (R87). (DEDUCED, log 36; DESIGN CHOICE, log 85) -/
def alignOut (hist : List RawS) (n : Nat) (y : Int) (gov : Option RawS) : Int × Bool × Bool :=
  let y := (max 1792 y).toNat
  let x := firSum hist n (y / 256 - 7) (coeff (y % 256))
  (sat47 x, beyond47 x || (match gov with | some r => r.clip | none => false),
   match gov with | some r => r.est | none => false)

/-- The effective delay of key `d` in aligned frame `f` (R92): 2 n for the low range of CH-n, 2 n + 1 for the high range,
512 + v for V-v. -/
def delayAt (hist : List (Nat × Tab Int)) (f d : Nat) : Int :=
  match hist.find? (fun e => decide (e.1 ≤ f)) with
  | some e => tget 0 e.2 d
  | none => 0

/-- Aligned sample `n` of stream `k` (R78, R79, R87). -/
def alignSample (s : State) (n k : Nat) (st : Stream) : Int × Bool × Bool :=
  if k < 256 then
    let gov := governing st.hist n
    let c : Int := match gov with | some r => (r.skew : Int) | none => 0
    let d := 2 * k + (match gov with | some r => b2n r.high | none => 0)
    alignOut st.hist n (2048 + c + delayAt s.aln.dly (n / 16) d) gov
  else
    let u := delayAt s.aln.dly (n / 16) (512 + (k - 256))
    alignOut st.hist n (2048 + u) (histAt st.hist (Int.toNat ((n : Int) - 8 - (u + 128) / 256)))

/-- Aligned sample `n` joins the channel-frame of stream `k`, from the stream's first aligned frame on (R76). -/
def asmSample (s : State) (n k : Nat) (st : Stream) (chans : Tab (Option AChan)) : Tab (Option AChan) :=
  if st.on ∧ 16 * (st.raw + 2) ≤ n then
    let (x, clip, est) := alignSample s n k st
    match tget none chans k with
    | some a => tset none chans k (some { a := a.a ++ [x], clip := a.clip ++ [clip], est := a.est || est })
    | none => tset none chans k (some { a := [x], clip := [clip], est := est })
  else chans

/-- Aligned sample n is due: the front end has passed sample period `n + 3` (R74). -/
def alignDue (s : State) : Bool :=
  (decide (s.mode = .run) || decide (s.mode = .recovery)) && decide (s.acq.first ≠ none) && decide (s.aln.next + 3 < 16 * s.fn + s.acq.period)

/-- The streams of inputs that are disabled in aligned frame `f` end with the frame before (R38); those enabled later stay. -/
def stopDisabled (f : Nat) (s : State) : State :=
  stopStreams ((s.aln.streams.filter (fun e => decide (e.2.raw ≤ f) &&
    decide (s.cfg f (if e.1 < 256 then K.chEnable e.1 else K.vEnable (e.1 - 256)) ≠ 1))).map (fun e => e.1)) s

/-- The effective voltage delays of frame `f`, as the aligned frame carries them. -/
def frameDelays (s : State) (f : Nat) : Tab Int :=
  (List.range 12).foldl (fun t v => tset 0 t v (delayAt s.aln.dly f (512 + v))) []

/-- The inputs enabled in frame `f`: the channel-frames of its entry group in RING-1 (R13, R14). -/
def enabledInputs (s : State) (f : Nat) : Nat :=
  ((List.range 256).filter (fun n => decide (s.cfg f (K.chEnable n) = 1))).length +
    ((List.range 12).filter (fun v => decide (s.cfg f (K.vEnable v) = 1))).length

/-- The channel-frames in RING-1. -/
def ring1Used (s : State) : Nat := sumN (s.aln.ring1.map (fun f => f.chans.length))

/-- RING-1 lacks the credit for the channel-frames of frame `f` (R14, R15). -/
def ring1Full (s : State) (f : Nat) : Bool :=
  decide (0 < enabledInputs s f) && decide (3 * enabledInputs s f < ring1Used s + enabledInputs s f)

/-- Raw sample `n` of a stream is flagged CLIP. -/
def clipAt (n : Nat) (st : Stream) : Bool := match histAt st.hist n with | some r => r.clip | none => false

/-- The current samples that step 7 has flagged CLIP are counted like the others (R86, Table 2.10); `old` are the streams before it. -/
def countClips (n : Nat) (old : Tab Stream) (s : State) : State :=
  s.aln.streams.foldl (fun s e =>
    if e.1 < 256 ∧ clipAt n e.2 = true ∧ clipAt n (tget {} old e.1) = false then
      s.putDue (n / 16) (K.chClipSamples e.1) ((s.live (K.chClipSamples e.1) + 1) % 2 ^ 32)
    else s) s

/-- ALIGNER_SAMPLE (R74): the aligner takes the raw samples that aligned sample n needs, corrects them and emits it; the last
of a frame completes its channel-frames in RING-1.  While RING-1 has no room the aligner holds its output (R15). -/
def execAlignerSample (s : State) : Host.Outcome State Fault Refusal :=
  .next (if alignDue s && ring1Full s (s.aln.next / 16) then s.bump (K.stalls 1)
  else if alignDue s then
    let n := s.aln.next
    let s := if n % 16 = 0 then stopDisabled (n / 16) s else s
    let s := alignTake n s
    let streams := s.aln.streams.map (fun e => (e.1, finalSample s e.1 (if e.1 < 256 then n else n - 1) e.2))
    let s := countClips n s.aln.streams { s with aln := { s.aln with streams := streams, next := n + 1 } }
    let asm := { s.aln.asm with
      fn := n / 16, chans := s.aln.streams.foldl (fun t e => asmSample s n e.1 e.2 t) s.aln.asm.chans }
    if n % 16 = 15 then
      let first := s.acq.first.getD 0
      let s := { s with aln := { s.aln with asm := ⟨0, false, [], []⟩ } }
      if first + 2 ≤ n / 16 then
        { s with aln := { s.aln with ring1 := s.aln.ring1 ++
            [{ asm with lost := decide (n / 16 ∈ s.acq.lost), dly := frameDelays s (n / 16) }] } }
      else s
    else { s with aln := { s.aln with asm := asm } }
  else s)

end Sys2Proof.Machine
end

