-- ==== Sys2Proof/Machine/Calendar.lean ====
section
/-! DEFINITION. Local time, daylight saving, schedules and billing close rules (R162 to R166, R169, R182, R188). -/

namespace Sys2Proof.Machine

/-- Frames in a minute and in a day. -/
def perMin : Int := 61440
def perDay : Int := 88473600

/-- Days from 1 January 2000, the day of TIME48 0 (R6), to a date of the proleptic Gregorian calendar. -/
def daysOf (y m d : Nat) : Int :=
  let y' : Int := if m ≤ 2 then (y : Int) - 1 else y
  let era := y' / 400
  let yoe := y' - era * 400
  let mp : Int := if m ≤ 2 then (m : Int) + 9 else (m : Int) - 3
  let doy := (153 * mp + 2) / 5 + d - 1
  let doe := yoe * 365 + yoe / 4 - yoe / 100 + doy
  era * 146097 + doe - 730425

/-- The date of a day number: year, month, day. -/
def dateOf (n : Int) : Nat × Nat × Nat :=
  let z := n + 730425
  let era := z / 146097
  let doe := z - era * 146097
  let yoe := (doe - doe / 1460 + doe / 36524 - doe / 146096) / 365
  let doy := doe - (365 * yoe + yoe / 4 - yoe / 100)
  let mp := (5 * doy + 2) / 153
  let d := doy - (153 * mp + 2) / 5 + 1
  let m := if mp < 10 then mp + 3 else mp - 9
  let y := yoe + era * 400 + (if m ≤ 2 then 1 else 0)
  (y.toNat, m.toNat, d.toNat)

/-- Weekday of a day number, 0 Monday: 1 January 2000 was a Saturday. -/
def weekdayOf (n : Int) : Nat := ((n + 5) % 7).toNat

/-- Days of a month. -/
def monthDays (y m : Nat) : Nat :=
  if m = 2 then (if y % 4 = 0 ∧ (y % 100 ≠ 0 ∨ y % 400 = 0) then 29 else 28)
  else if m = 4 ∨ m = 6 ∨ m = 9 ∨ m = 11 then 30 else 31

/-- Offset of local standard time in frames (R162). -/
def utcFrames (s : State) (f : Nat) : Int := s.cfgI f K.calUtcOffset * perMin

/-- Daylight-saving shift in frames. -/
def dstFrames (s : State) (f : Nat) : Int := (s.cfg f K.calDstShift : Int) * perMin

/-- The instant of a rule word in a year, in frames of the local time it is written in (Table 6.1). -/
def ruleInstant (w y : Nat) : Int :=
  let m := field w 27 24
  let n := field w 23 21
  let wd := field w 20 18
  let first := daysOf y m 1
  let day1 := first + (((wd : Int) - weekdayOf first) % 7)
  let last := first + (monthDays y m : Int) - 1
  let day := if n = 5 then last - (((weekdayOf last : Int) - wd) % 7) else day1 + 7 * ((n : Int) - 1)
  day * perDay + (field w 10 0 : Int) * perMin

/-- Start and end of daylight saving time in the year of a local standard time, in local standard time (R163). (DEDUCED, log 44) -/
def dstSpan (s : State) (f : Nat) (std : Int) : Int × Int :=
  let y := (dateOf (std / perDay)).1
  (ruleInstant (s.cfg f K.calDstStart) y, ruleInstant (s.cfg f K.calDstEnd) y - dstFrames s f)

/-- Daylight saving time is active at a local standard time (R163); never where its start is its end. (DESIGN CHOICE, log 113) -/
def dstActive (s : State) (f : Nat) (std : Int) : Bool :=
  if s.cfg f K.calDstEn = 1 then
    let sp := dstSpan s f std
    if sp.1 < sp.2 then decide (sp.1 ≤ std) && decide (std < sp.2)
    else if sp.2 < sp.1 then decide (std < sp.2) || decide (sp.1 ≤ std) else false
  else false

/-- Local time of a TIME48, in frames since 1 January 2000 local (R162). -/
def localOf (s : State) (f : Nat) (t : Nat) : Int :=
  let std := (t : Int) + utcFrames s f
  if dstActive s f std then std + dstFrames s f else std

/-- The TIME48 of a local time (R164): its first occurrence, or the transition when it does not exist. (DEDUCED, log 44) -/
def timeOfLocal (s : State) (f : Nat) (l : Int) : Int :=
  let day := l - dstFrames s f
  if dstActive s f day then day - utcFrames s f
  else if dstActive s f l then (dstSpan s f l).1 - utcFrames s f
  else l - utcFrames s f

/-- A special day word matches a date (Table 6.3): dated, or every year. -/
def specialMatch (w : Nat) (dated : Bool) (y m d : Nat) : Bool :=
  bit w 31 && decide (field w 12 9 = m) && decide (field w 8 4 = d) &&
  (if dated then decide (field w 30 24 ≠ 127) && decide (field w 30 24 + 2000 = y) else decide (field w 30 24 = 127))

/-- The special day of schedule `c` that matches a date: a dated entry first, then the lower subindex (R166). -/
def specialOf (s : State) (f c y m d : Nat) : Option Nat :=
  let ws := (List.range 64).map (fun k => s.cfg f (K.schSpecial c k))
  match ws.find? (fun w => specialMatch w true y m d) with
  | some w => some (field w 3 0)
  | none => (ws.find? (fun w => specialMatch w false y m d)).map (fun w => field w 3 0)

/-- The USED season with the largest start that satisfies a test. -/
def bestSeason (ok : Nat → Bool) : List (Nat × Nat) → Option (Nat × Nat)
  | [] => none
  | e :: l =>
    match bestSeason ok l with
    | some b => if ok e.1 && decide (b.1 < e.1) then some e else some b
    | none => if ok e.1 then some e else none

/-- The day profile of a date (R166). -/
def profileOf (s : State) (f c : Nat) (day : Int) : Nat :=
  let dt := dateOf day
  match specialOf s f c dt.1 dt.2.1 dt.2.2 with
  | some p => p
  | none =>
    let seasons := ((List.range 4).map (fun i => (s.cfg f (K.schSeason c i), i))).filter (fun e => bit e.1 31)
    let starts := seasons.map (fun e => (32 * field e.1 8 5 + field e.1 4 0, e.2))
    let today := 32 * dt.2.1 + dt.2.2
    let z := match bestSeason (fun x => decide (x ≤ today)) starts with
      | some e => e.2
      | none => (match bestSeason (fun _ => true) starts with | some e => e.2 | none => 0)
    s.cfg f (K.schWeek c z) / 2 ^ (4 * weekdayOf day) % 16

/-- The USED points of a profile: minute, tariff. -/
def pointsOf (s : State) (f p : Nat) : List (Nat × Nat) :=
  (((List.range 8).map (fun k => s.cfg f (K.dayPoint p k))).filter (fun w => bit w 15)).map
    (fun w => (field w 10 0, field w 13 11))

/-- The point with the largest minute among those that satisfy a test. -/
def bestPoint (ok : Nat → Bool) : List (Nat × Nat) → Option (Nat × Nat)
  | [] => none
  | e :: l =>
    match bestPoint ok l with
    | some b => if ok e.1 && decide (b.1 < e.1) then some e else some b
    | none => if ok e.1 then some e else none

/-- The tariff of a profile at a minute of the day. -/
def tariffAt (s : State) (f p minute : Nat) : Nat :=
  let pts := pointsOf s f p
  match bestPoint (fun x => decide (x ≤ minute)) pts with
  | some e => e.2
  | none => (match bestPoint (fun _ => true) pts with | some e => e.2 | none => 0)

/-- The tariff that the calendar of schedule `c` gives at a TIME48 under the settings of frame `f`, and its day profile. -/
def calTariff (s : State) (f c t : Nat) : Nat × Nat :=
  let l := localOf s f t
  let p := profileOf s f c (l / perDay)
  (tariffAt s f p ((l % perDay) / perMin).toNat, p)

/-- Stale state holds for frame `f` (R197, R198). (DEDUCED, log 52) -/
def staleFor (s : State) (f : Nat) : Bool :=
  match s.bill.staleAt with
  | some a => decide (a ≤ f) && (match s.bill.staleTo with | some b => decide (f < b) | none => true)
  | none => false

/-- TIME48 of frame `f` is a time. -/
def hasTime (s : State) (f : Nat) : Bool := decide (s.timeOf f ≠ noTime)

/-- The tariff of schedule `c` in frame `f` (R166). -/
def tariffOf (s : State) (f c : Nat) : Nat :=
  if !hasTime s f || staleFor s f then s.cfg f (K.schDefaultTariff c) else (calTariff s f c (s.timeOf f)).1

/-- Days are searched one after another for a switching point later than `t` whose tariff is not `cur`. -/
def nextSwitchGo (s : State) (f c t cur : Nat) : Nat → Int → Nat
  | 0, _ => noTime
  | k + 1, day =>
    let pts := (pointsOf s f (profileOf s f c day)).filterMap (fun e =>
      let i := timeOfLocal s f (day * perDay + (e.1 : Int) * perMin)
      if (t : Int) < i ∧ (calTariff s f c i.toNat).1 ≠ cur then some i.toNat else none)
    match pts with
    | [] => nextSwitchGo s f c t cur k (day + 1)
    | a :: l => l.foldl min a

/-- NEXT_SWITCH: the next switching point with a different tariff (Table 6.16).  Eight years and a day are searched, since a
schedule can name a date that comes once in so long. (DEDUCED, log 44) -/
def nextSwitch (s : State) (f c cur : Nat) : Nat :=
  if hasTime s f then nextSwitchGo s f c (s.timeOf f) cur 2924 (localOf s f (s.timeOf f) / perDay) else noTime

/-- A billing close falls on a local date by the rule of schedule `c` (Table 6.7). -/
def closeDay (s : State) (f c : Nat) (day : Int) : Bool :=
  match s.cfg f (K.bpRule c) with
  | 1 => true
  | 2 => decide (weekdayOf day = s.cfg f (K.bpDay c))
  | 3 => decide ((dateOf day).2.2 = s.cfg f (K.bpDay c))
  | _ => false

/-- The boundary of a local date, as a TIME48 (R182). -/
def closeInstant (s : State) (f c : Nat) (day : Int) : Int :=
  timeOfLocal s f (day * perDay + (s.cfg f (K.bpMinute c) : Int) * perMin)

/-- The latest boundary at or before `t`, searching back from a date. -/
def lastCloseGo (s : State) (f c t : Nat) : Nat → Int → Option Nat
  | 0, _ => none
  | k + 1, day =>
    let i := closeInstant s f c day
    if closeDay s f c day ∧ i ≤ (t : Int) ∧ 0 ≤ i then some i.toNat else lastCloseGo s f c t k (day - 1)

/-- The latest boundary of schedule `c` at or before the tick of frame `f`. -/
def lastClose (s : State) (f c : Nat) : Option Nat :=
  if hasTime s f then lastCloseGo s f c (s.timeOf f) 33 (localOf s f (s.timeOf f) / perDay + 1) else none

/-- The first boundary later than `t`, searching on from a date. -/
def nextCloseGo (s : State) (f c t : Nat) : Nat → Int → Nat
  | 0, _ => noTime
  | k + 1, day =>
    let i := closeInstant s f c day
    if closeDay s f c day ∧ (t : Int) < i then i.toNat else nextCloseGo s f c t k (day + 1)

/-- NEXT_CLOSE: the next calendar boundary later than HWM (Table 6.17). -/
def nextClose (s : State) (f c : Nat) : Nat :=
  if hasTime s f then nextCloseGo s f c (s.get (K.bpHwm c)) 34 (localOf s f (s.get (K.bpHwm c)) / perDay - 1) else noTime

/-- The clock that aligned intervals follow in frame `f` (R176): local standard time, or FN while time is INVALID. -/
def alignClock (s : State) (f : Nat) : Bool × Int :=
  if hasTime s f then (true, (s.timeOf f : Int) + utcFrames s f) else (false, (f : Int))

/-- The aligned start of the interval of `len` frames that contains frame `f`. -/
def alignStart (s : State) (f len : Nat) : Bool × Int :=
  let a := alignClock s f
  (a.1, if len = 0 then a.2 else a.2 - a.2 % (len : Int))

end Sys2Proof.Machine
end

