-- ==== Sys2Proof/Machine/StoreOps.lean ====
section
/-! DEFINITION. The Saddlebag's pages and the store engine (R325 to R336, R230): which page holds an object, posting a store, its
first row, its end, and rolls. -/

namespace Sys2Proof.Machine

/-- Keys of the model's own numbers that rolled pages hold: the baseline marks of a channel (R128). -/
def markKey (n i : Nat) : Nat := 0x4000000 + 2 * n + i

/-- The object behind a key: live values and fractions belong to their object. -/
def objKey (k : Nat) : Nat :=
  if 0x4000000 ≤ k then K.chAiBase ((k - 0x4000000) / 2)
  else if 0x2000000 ≤ k then k - 0x2000000 else if 0x1000000 ≤ k then k - 0x1000000 else k

/-- A page of an area of `n` pages from `lo`; the arrangement within an area is Ozmar's own (R333). (DESIGN CHOICE, log 10) -/
def areaPage (lo n k : Nat) : Nat := lo + Config.pageWithin k % n

/-- The maximum-demand page of tariff `t` of CCT-c: 160 bytes a circuit in ascending order. -/
def mdPage (c t : Nat) : Nat := 768 + (160 * c + 20 * t) / 256

/-- An object that the legal twin records carry (R349): PERIOD_NO and HWM, the boundary record, and the certificate and legal-commit
counters. (DEDUCED, log 60) -/
def isLegalRec (k : Nat) : Bool :=
  decide (0x4400 ≤ k / 256 ∧ k / 256 < 0x4404 ∧ 4 ≤ k % 256 ∧ k % 256 ≤ 5) || decide (K.bsn ≤ k ∧ k ≤ K.bsn + 3) ||
  decide (K.signedCount ≤ k ∧ k ≤ K.signedCount + 2) || decide (k = K.txnLegalCommits)

/-- A page of the eight legal twin records (Table 12.5). -/
def legalPage (p : Nat) : Bool := decide (160 ≤ p ∧ p < 176)

/-- Copies A and B of legal record `i` (R349). -/
def legalCopy (i : Nat) (b : Bool) : Nat := 160 + 2 * i + b2n b

/-- The page that holds a P object (Table 12.5; Gecko's registers by R406); an object of legal record i is at its copy A.
(DESIGN CHOICE, log 10; DEDUCED, log 58) -/
def pageOf (key : Nat) : Nat :=
  let k := objKey key
  let i := k / 256
  let sub := k % 256
  if 0x4000 ≤ i ∧ i < 0x4100 then 256 + 2 * (i - 0x4000) + (if sub % 128 < 32 then 0 else 1)
  else if 0x4100 ≤ i ∧ i < 0x4200 then mdPage (i - 0x4100) (min 7 (sub / 4))
  else if 0x4200 ≤ i ∧ i < 0x4300 ∧ 8 ≤ sub ∧ sub ≤ 13 then 928 + (i - 0x4200) / 32
  else if 0x4500 ≤ i ∧ i < 0x4600 then 128 + (i - 0x4500) / 16
  else if 0x1410 ≤ i ∧ i ≤ 0x1412 then areaPage 960 12 k
  else if 0x4300 ≤ i ∧ i < 0x4400 then areaPage 144 16 k
  else if isLegalRec k then legalCopy (Config.pageWithin k % 8) false
  else if 0x2200 ≤ i ∧ i < 0x2500 then areaPage 0 64 k
  else if (match rowOf k with | some r => decide (r.fl / 2 % 2 = 1) | none => false) then areaPage 64 64 k
  else areaPage 936 48 k

/-- Objects that reach their page by the rotation alone (R335, R150): a start takes them from the last sealed store. -/
def isRolled (key : Nat) : Bool :=
  let k := objKey key
  let i := k / 256
  decide (0x4000 ≤ i ∧ i < 0x4200) || decide (0x4200 ≤ i ∧ i < 0x4300 ∧ 8 ≤ k % 256) || decide (0x4500 ≤ i ∧ i < 0x4600) ||
  decide (0x3600 ≤ i ∧ i < 0x3700)

/-- The numbers that a page holds now. -/
def pageVals (s : State) (p : Nat) : List (Nat × Nat) := s.dict.filter (fun e => decide (pageOf e.1 = p))

/-- The circuits of an interval page. -/
def ivlCcts (p : Nat) : List Nat := if 928 ≤ p ∧ p < 936 then (List.range 32).map (fun i => 32 * (p - 928) + i) else []

/-- The hidden state of a circuit. -/
def getC (s : State) (c : Nat) : BCct := tget {} s.bill.cct c

/-- It is set. -/
def setC (c : Nat) (x : BCct) (s : State) : State :=
  { s with bill := { s.bill with cct := tset {} s.bill.cct c x } }

/-- The frame that serves half `h` of a page. -/
def frameOf (s : State) (p : Nat) (h : Bool) : Nat :=
  let ps := tget {} s.pages p
  if h then ps.b.getD (2 * p + 1) else ps.a.getD (2 * p)

/-- A page is set. -/
def modPage (p : Nat) (f : PageS → PageS) (s : State) : State := { s with pages := tmod {} s.pages p f }

/-- A store of the page is in progress (R328). (DEDUCED, log 60) -/
def pageBusy (s : State) (p : Nat) : Bool := match s.jobs with | j :: _ => decide (j.page = p) | [] => false

/-- The frame that serves a page. -/
def servingFrame (s : State) (p : Nat) : Nat := frameOf s p (tget {} s.pages p).serveB

/-- The seal of the frame that serves a page. -/
def servingSeal (s : State) (p : Nat) : Seal := tget {} s.seals (servingFrame s p)

/-- A page is stored in place in the host area when PAGE_MODE in effect or a twin record says so (R325, R347), and a copy of a legal twin
record always is (R346). (DEDUCED, log 58) -/
def pageSingle (s : State) (p : Nat) : Bool :=
  if 984 ≤ p then decide (p - 984 < 2 * s.cfg s.fn K.twinCount) || decide (s.cfg s.fn (K.pageMode (p - 984)) = 1) else legalPage p

/-- The half of a page that its next store goes to (R325, R331). (DEDUCED, log 58) -/
def targetHalf (s : State) (p : Nat) : Bool :=
  let ps := tget {} s.pages p
  if ps.oneFrame then ps.serveB else if pageSingle s p then false else !ps.serveB

/-- The raw bytes of a page, while its objects are those that the bytes gave (R334). -/
def pageRaw (s : State) (p : Nat) : Option Bytes :=
  let x := tget {} s.pages p
  match x.raw with
  | some b => if 984 ≤ p ∨ legalPage p = true then some b else if pageVals s p = x.rawVals then some b else none
  | none => none

/-- The entries that a page of Gecko's events holds: of this outage, else those of an earlier one (R406). (DEDUCED, log 73) -/
def pageEvents (s : State) (p : Nat) : List Event :=
  if 972 ≤ p ∧ p < 974 then
    match (s.pwr.gecko.events.drop (8 * (p - 972))).take 8 with
    | [] => tget [] s.pwr.evPages p
    | l => l
  else []

/-- What the SRAM of a page holds, with the values that a store adds. -/
def pageImg (s : State) (j : Job) : Img :=
  let x := tget {} s.pages j.page
  let kept := (pageVals s j.page).filter (fun e => decide (e.1 ∉ j.ovr.map (fun o => o.1)))
  { vals := if legalPage j.page then [] else kept ++ j.ovr,
    ivl := (ivlCcts j.page).map (fun c => (c, (getC s c).ivl, (getC s c).subs)),
    ratio := if 256 ≤ j.page ∧ j.page < 768 then
        [((j.page - 256) / 2, (getC s ((j.page - 256) / 2)).ratioI, (getC s ((j.page - 256) / 2)).ratioE)] else [],
    unit := (if 256 ≤ j.page ∧ j.page < 768 then [(j.page - 256) / 2] else ivlCcts j.page).map (fun c => (c, (getC s c).unit)),
    bg := if j.page = pageOf K.bgStoreFn then s.pwr.bg else none,
    raw := match j.raw, j.own with
      | some b, _ => some b
      | none, some _ => none
      | none, none => if j.ovr = [] then pageRaw s j.page else none,
    rawVals := x.rawVals,
    own := match j.raw, j.own with | some _, _ => none | none, some o => some o | none, none => x.own,
    evs := pageEvents s j.page }

/-- A slot notes what the store in progress holds of it. -/
def Slot.hold (lo : Bool) (x : Slot) : Slot := if decide (x.tariff < 4) = lo then { x with held := x.d } else x

/-- The journal slots and closing intervals that a store empties once sealed (R191). -/
def holdSlots (p : Nat) (s : State) : State :=
  if 256 ≤ p ∧ p < 768 then
    let c := (p - 256) / 2
    let x := getC s c
    setC c { x with slotA := x.slotA.map (Slot.hold (decide (p % 2 = 0))), slotB := x.slotB.map (Slot.hold (decide (p % 2 = 0))) } s
  else (ivlCcts p).foldl (fun s c =>
    let x := getC s c
    setC c { x with closing := x.closing.map (fun k => { k with held := true }) } s) s

/-- The FN of the seal: the last frame whose data a rolled page holds; of any other page the frame in which its store was posted
(Table 12.1). -/
def dataFn (s : State) (j : Job) : Nat :=
  if j.hall then s.bill.next - 1
  else if 128 ≤ j.page ∧ j.page < 144 then s.tan.baseFn.getD (servingSeal s j.page).fn
  else if 256 ≤ j.page ∧ j.page < 936 then (if s.bill.run then s.bill.next - 1 else (servingSeal s j.page).fn)
  else j.fn

/-- A store with its first row: the frame that it goes to and what it writes are fixed (R325, R328). -/
def beginJob (s : State) (j : Job) : Job :=
  { j with img := some (pageImg s j), half := targetHalf s j.page, single := pageSingle s j.page, fn := dataFn s j }

/-- The first job's store begins with its first row. -/
def startHead (s : State) : State :=
  match s.jobs with
  | j :: js =>
    match j.img with
    | some _ => s
    | none => holdSlots j.page { s with jobs := beginJob s j :: js }
  | [] => s

/-- The key of a period: its number on its schedule (R191). -/
def periodKey (sc no : Nat) : Nat := sc * 2 ^ 32 + no % 2 ^ 32

/-- The period in progress of a schedule, as a key. -/
def periodNow (s : State) (sc : Nat) : Nat := periodKey sc (s.get (K.bpPeriodNo sc))

/-- The record of the period before a slot's own awaits its programming (R195). -/
def recordWaits (s : State) (x : Slot) : Bool := s.bill.hist.any (fun h => decide (periodKey h.sched (h.period + 1) = x.period))

/-- A slot without energy is free. -/
def Slot.orFree (x : Slot) : Option Slot := if x.d.all (fun v => decide (v = 0)) && x.kept.all (fun v => decide (v = 0)) then none else some x

/-- A slot loses what a sealed store holds, or keeps it apart while `keep` (R195); an empty slot is free. -/
def Slot.drop (lo keep : Bool) (x : Slot) : Option Slot :=
  if decide (x.tariff < 4) = lo then
    Slot.orFree { x with d := (List.range 8).map (fun i => ati x.d i - ati x.held i), held := [],
                         kept := if keep then (List.range 8).map (fun i => ati x.kept i + ati x.held i) else [] }
  else some x

/-- What a slot held for a record is let go (R195). -/
def Slot.letGo (key : Nat) (x : Slot) : Option Slot := if x.period = key then Slot.orFree { x with kept := [] } else some x

/-- The period record of a schedule is programmed: the slots keyed to the period after it are the journal's alone again (R195). -/
def letSlots (sc no : Nat) (s : State) : State :=
  let key := periodKey sc (no + 1)
  { s with bill := { s.bill with cct := s.bill.cct.map (fun e =>
    (e.1, { e.2 with slotA := e.2.slotA.bind (Slot.letGo key), slotB := e.2.slotB.bind (Slot.letGo key) })) } }

/-- The slots after a sealed store. -/
def dropSlots (p : Nat) (s : State) : State :=
  if 256 ≤ p ∧ p < 768 then
    let c := (p - 256) / 2
    let x := getC s c
    let lo := decide (p % 2 = 0)
    let drop := fun (y : Slot) => Slot.drop lo (recordWaits s y) y
    setC c { x with slotA := x.slotA.bind drop, slotB := x.slotB.bind drop } s
  else (ivlCcts p).foldl (fun s c =>
    let x := getC s c
    setC c { x with closing := match x.closing with | some k => if k.held then none else some k | none => none } s) s

/-- Jobs that hold credit of RING-6. -/
def hallJobs (s : State) : Nat := (s.jobs.filter (fun j => j.hall)).length

/-- A store is posted (R326). -/
def postJob (j : Job) (s : State) : State := startHead { s with jobs := s.jobs ++ [j] }

/-- The objects that raw bytes of a page have given, as they stand: those of a legal record for either of its copies. -/
def rawBase (s : State) (p : Nat) : List (Nat × Nat) := pageVals s (if legalPage p then legalCopy ((p - 160) / 2) false else p)

/-- The SRAM of a page takes the bytes or the copy that a job brings. -/
def takeWrite (j : Job) (s : State) : State :=
  match j.raw, j.own with
  | some d, _ => modPage j.page (fun x => { x with raw := some d, rawVals := rawBase s j.page, own := none }) s
  | none, some o => modPage j.page (fun x => { x with raw := none, own := some o }) s
  | none, none => s

/-- A write of a page and its store: it enters SRAM at once, or when the store in progress is over (R328). -/
def postWrite (j : Job) (s : State) : State := postJob j (if pageBusy s j.page then s else takeWrite j s)

/-- Requests of the Hallmark core that wait for RING-6 credit are posted in order (R15). -/
def pumpRolls (s : State) : State :=
  let n := 128 - hallJobs s
  (s.rollq.take n).foldl (fun s p => postJob { page := p, fn := s.bill.next - 1, hall := true } s)
    { s with rollq := s.rollq.drop n }

/-- The Hallmark core posts the store of a page, unless one that has not begun already waits. -/
def postRoll (p : Nat) (s : State) : State :=
  if s.rollq.any (fun q => decide (q = p)) || s.jobs.any (fun j => decide (j.page = p) && j.hall && decide (j.img = none)) then s
  else pumpRolls { (if hallJobs s < 128 then s else s.bump (K.stalls 6)) with rollq := s.rollq ++ [p] }

/-- Maximum-demand pages that hold a part of CCT-c. -/
def mdPagesOf (c : Nat) : List Nat := ((List.range 8).map (mdPage c)).eraseDups

/-- The ratios of SI to AI and of SE to AE since the last roll, at most 15.99, 1 where nothing divides (R343). (DESIGN CHOICE, log 45) -/
def ratioOf (num den : Nat) : Nat × Nat :=
  if den = 0 then (1, 1) else if 1599 * den < 100 * num then (1599, 100) else (num, den)

/-- A register with its wrap count and fraction, in 2^-40 units (R116). -/
def regTot (s : State) (c i : Nat) : Nat :=
  s.live (K.cctWrap c i) * 2 ^ 88 + s.live (K.cctReg c i) * 2 ^ 40 + s.get (fracKey (K.cctReg c i))

/-- The total of the sets of a kind, modulo 2^104 (R173). -/
def setSum (s : State) (c kind : Nat) : Nat := sumN ((List.range 8).map (fun t => regTot s c (8 * t + kind))) % 2 ^ 104

/-- Ratios are kept at a roll of CCT-c. (DESIGN CHOICE, log 45) -/
def keepRatios (c : Nat) (s : State) : State :=
  let x := getC s c
  let now := [regTot s c 70, regTot s c 64, regTot s c 71, regTot s c 65]
  let d := fun i => (now.getD i 0 + 2 ^ 104 - x.base.getD i 0) % 2 ^ 104
  setC c { x with base := now, ratioI := ratioOf (d 0) (d 1), ratioE := ratioOf (d 2) (d 3) } s

/-- A register takes a total of frame `f` (R116). -/
def putReg (f c i t : Nat) (s : State) : State :=
  let t := t % 2 ^ 104
  ((s.putDue f (K.cctWrap c i) (t / 2 ^ 88)).putDue f (K.cctReg c i) (t / 2 ^ 40 % 2 ^ 48)).put (fracKey (K.cctReg c i))
    (t % 2 ^ 40)

/-- A bit of FLAGS is set (R174). -/
def setFlag (f c b : Nat) (s : State) : State := s.putDue f (K.cctFlags c) (setBit (s.live (K.cctFlags c)) b)

/-- TOTAL of one kind is checked and, on a mismatch, set to the sum of the sets (R173). -/
def checkTotal (f c kind : Nat) (s : State) : State :=
  let t := regTot s c (64 + kind)
  let u := setSum s c kind
  if t = u then s
  else
    let s := s.eventAt f 0x0205 [c, kind, t, u]
    putReg f c (64 + kind) u (setFlag f c 11 (s.bump (K.cctInvariantFaults c)))

/-- Every TOTAL of a circuit is checked. -/
def checkTotals (f c : Nat) (s : State) : State := (List.range 8).foldl (fun s k => checkTotal f c k s) s

/-- A forced roll of circuits in ascending order (R336). -/
def forceRoll (cs : List Nat) (s : State) : State :=
  cs.foldl (fun s c =>
    let s := checkTotals (s.bill.next - 1) c (keepRatios c s)
    let s := { s with pages := tmod {} s.pages (256 + 2 * c) (fun p => { p with rolled := s.fn }) }
    (([256 + 2 * c, 257 + 2 * c] ++ mdPagesOf c ++ [928 + c / 32]).foldl (fun s p => postRoll p s) s)) (s.bump K.forcedRolls)

/-- Unit state of a page frame or sector. -/
def unitKey (kind num : Nat) : Nat := 65536 * kind + num

/-- A page frame is a free spare: one of the 64 or reinstated, not RETIRED and not in any page's place. -/
def spareFree (s : State) (f : Nat) : Bool :=
  let u := tget {} s.units (unitKey 3 f)
  (decide (2048 ≤ f) || u.spare) && decide (u.state ≠ 2) &&
  s.pages.all (fun e => decide (e.2.a ≠ some f) && decide (e.2.b ≠ some f))

/-- Reinstated page frames among the spares, ascending. -/
def oldSpares (s : State) : List Nat :=
  ((s.units.filter (fun e => e.2.spare)).map (fun e => e.1 - unitKey 3 0)).filter (fun f => decide (f < 2048))

/-- The lowest-numbered free spare. -/
def findSpare (s : State) : Option Nat :=
  (oldSpares s ++ (List.range 64).map (fun i => 2048 + i)).find? (spareFree s)

/-- A page frame is RETIRED and its page moves to a spare, or to one frame (R230, R331). -/
def retireFrame (p : Nat) (h : Bool) (s : State) : State :=
  let fr := frameOf s p h
  let s := { s with units := tmod {} s.units (unitKey 3 fr) (fun u => { u with state := 2 }) }
  let s := (s.bump K.framesRetired).event 0x0302 [3, fr, 8, s.fn]
  match findSpare s with
  | some sp =>
    let s := { s with pages := tmod {} s.pages p (fun x => if h then { x with b := some sp } else { x with a := some sp }) }
    let left := s.get K.sparesFree - 1
    let s := s.put K.sparesFree left
    if left < 8 then s.event 0x0308 [left] else s
  | none =>
    { s with pages := tmod {} s.pages p (fun x => { x with oneFrame := true, serveB := !h }) }.event 0x0309 [p]

/-- The head store has written its rows and seal into its frame; it verified or not (R230, R326, R327, R338). -/
def writeFrame (verified : Bool) (j : Job) (s : State) : State :=
  let fr := frameOf s j.page j.half
  let s := s.bumpV K.storeCount
  let s := s.bump (K.frameWear 0 fr)
  let wear := s.get (K.frameWear 0 fr)
  let s := if s.get K.wearMax < wear then s.putV K.wearMax wear else s
  let s := if wear = 90000000 then s.event 0x0608 [fr, wear] else s
  { s with seals := tset {} s.seals fr { count := s.get K.storeCount, fn := j.fn, ok := verified, img := j.img.getD {} } }

/-- A read-back that fails (R230): the frame is SUSPECT and the store is repeated, at most three times; then the frame is RETIRED. -/
def storeFailed (j : Job) (js : List Job) (s : State) : State :=
  let h := j.half
  let fr := frameOf s j.page h
  let u := tget {} s.units (unitKey 3 fr)
  if j.tries < 3 then
    let s := if u.state = 0 then
        { s with units := tset {} s.units (unitKey 3 fr) { u with state := 1 } }.event 0x0300 [3, fr, 8] else s
    { s.bump K.frameRetries with jobs := { j with tries := j.tries + 1 } :: js }
  else
    let t := retireFrame j.page h s
    { t with jobs := { j with tries := 0, half := if (tget {} t.pages j.page).oneFrame then !h else h } :: js }

/-- A verified store serves its page from now on (R325); the journal's slots that it covers are free, and a write that the store has held
enters SRAM (R328). -/
def storeSealed (j : Job) (js : List Job) (s : State) : State :=
  let h := j.half
  let fr := frameOf s j.page h
  let u := tget {} s.units (unitKey 3 fr)
  let s := if u.state = 1 then { s with units := tset {} s.units (unitKey 3 fr) { u with state := 0 } }.event 0x0301 [3, fr] else s
  let s := { s with jobs := js, pages := tmod {} s.pages j.page (fun x => { x with serveB := h, single := j.single, stat := 0 }) }
  let s := match js.find? (fun k => decide (k.page = j.page ∧ (k.raw ≠ none ∨ k.own ≠ none))) with
    | some k => takeWrite k s
    | none => s
  pumpRolls (startHead (dropSlots j.page s))

/-- The status byte of a page (Table 12.4). -/
def pageStatusOf (s : State) (p : Nat) : Nat :=
  let ps := tget {} s.pages p
  let busy := match s.jobs with | j :: _ => decide (j.page = p) | [] => false
  128 * b2n busy + 64 * b2n ps.single + 32 * b2n ps.oneFrame + 16 * b2n ps.restored + ps.stat

/-! ### Copies of twin records (R346 to R349) -/

/-- A page of the form SEQ, LENGTH, 0, DATA. -/
def copyBytes (seq : Nat) (data : Bytes) : Bytes := slice (le 4 seq ++ le 2 data.length ++ le 2 0 ++ data) 0 256

/-- The bytes of a legal copy as Ozmar wrote it: its data is the arrangement of its objects, at most 248 bytes (R333, R346).
(DESIGN CHOICE, log 10) -/
def ownBytes (p : Nat) (o : Nat × List (Nat × Nat)) : Bytes := copyBytes o.1 ((Config.pageImage p o.2).take 248)

/-- The SEQ of the copy in a page (R346). (DEDUCED, log 60) -/
def copySeq (s : State) (p : Nat) : Nat :=
  let x := tget {} s.pages p
  match x.raw, x.own with
  | some b, _ => at_ b 0 4
  | none, some o => o.1
  | none, none => 0

/-- A copy has been stored. -/
def copyStored (s : State) (p : Nat) : Bool := decide ((servingSeal s p).count ≠ 0)

/-- A copy is usable when its page is OK (R346). -/
def copyUsable (s : State) (p : Nat) : Bool := copyStored s p && decide ((tget {} s.pages p).stat = 0)

/-- The older copy of two, true for copy B, and the SEQ one above the newer one (R347). -/
def olderCopy (s : State) (pa pb : Nat) : Bool × Nat :=
  let ua := copyUsable s pa
  let ub := copyUsable s pb
  let qa := if ua then copySeq s pa else 0
  let qb := if ub then copySeq s pb else 0
  (if !ua then false else if !ub then true else decide (qb ≤ qa), max qa qb + 1)

/-- The objects of legal record `i`. -/
def recVals (s : State) (i : Nat) : List (Nat × Nat) := pageVals s (legalCopy i false)

/-- The copy of legal record `i` that the next store goes to, and its SEQ: one whose store has not begun, else the one that is not BUSY,
else the older one (R347, R349). (DEDUCED, log 60) -/
def legalTarget (s : State) (i : Nat) : Bool × Nat :=
  let pa := legalCopy i false
  let pb := legalCopy i true
  let q := max (copySeq s pa) (copySeq s pb)
  match s.jobs.findSome? (fun j => if j.img = none ∧ (j.page = pa ∨ j.page = pb) then j.own.map (fun o => (decide (j.page = pb), o.1)) else none) with
  | some t => t
  | none => if pageBusy s pa then (true, q + 1) else if pageBusy s pb then (false, q + 1) else ((olderCopy s pa pb).1, q + 1)

/-- Legal record `i` is stored as it stands (R333, R349): a store that waits for the same copy takes the change. (DEDUCED, log 60) -/
def storeRec (i fn : Nat) (ack : Ack) (s : State) : State :=
  let t := legalTarget s i
  let o := some (t.2 % 2 ^ 32, recVals s i)
  let p := legalCopy i t.1
  if ack = .none ∧ s.jobs.any (fun j => decide (j.page = p ∧ j.img = none)) = true then
    let s := if pageBusy s p then s else modPage p (fun x => { x with raw := none, own := o }) s
    { s with jobs := s.jobs.map (fun j => if j.page = p ∧ j.img = none then { j with own := o } else j) }
  else postWrite { page := p, fn := fn, own := o, ack := ack } s

/-- The objects of legal record `i` as its newer copy has them, sealed or on its way. -/
def recLast (s : State) (i : Nat) : Option (List (Nat × Nat)) :=
  let pa := legalCopy i false
  let pb := legalCopy i true
  let p := if copySeq s pa < copySeq s pb then pb else pa
  let x := tget {} s.pages p
  if decide ((servingSeal s p).img.own = x.own) || s.jobs.any (fun j => decide (j.page = p)) then
    (match x.raw with | some _ => some x.rawVals | none => x.own.map (fun o => o.2))
  else none

/-- Legal twin records whose objects have changed are stored (R333), at the tick that follows; none while it is in CONFLICT or LOST (R349).
(DESIGN CHOICE, log 60) -/
def storeLegal (s : State) : State :=
  let now := s.dict.filter (fun e => isLegalRec e.1)
  if now = s.pwr.legalWas then s
  else (List.range 8).foldl (fun s i =>
    let v := recVals s i
    if some v = recLast s i ∨ (v = [] ∧ copySeq s (legalCopy i false) = 0) ∨ s.get (K.legalTwinState i) = 1 ∨ s.get (K.legalTwinState i) = 3 then s
    else storeRec i s.fn .none s) { s with pwr := { s.pwr with legalWas := now } }

/-! ### Bytes of a page -/

/-- The 256 bytes that an image of page `p` stands for. (DESIGN CHOICE, log 10; DESIGN CHOICE, log 13) -/
def imgBytesOf (p : Nat) (x : Img) : Bytes :=
  match x.raw with
  | some b => slice b 0 256
  | none =>
    if 984 ≤ p then List.replicate 256 0
    else if legalPage p then (match x.own with | some o => ownBytes p o | none => List.replicate 256 0)
    else if 972 ≤ p ∧ p < 974 then slice (Config.eventPage (x.evs.map (fun e => (e.code, e.fields, e.fn, e.time)))) 0 256
    else slice (Config.pageImage p x.vals) 0 256

/-- The 256 bytes of a page as they stand in SRAM; a BLANK page reads 0x00 (R329, R334). (DESIGN CHOICE, log 10; DESIGN CHOICE, log 13) -/
def pageBytes (s : State) (p : Nat) : Bytes :=
  let x := tget {} s.pages p
  if x.stat = 1 ∧ pageRaw s p = none ∧ pageVals s p = [] ∧ pageEvents s p = [] ∧ x.own = none then List.replicate 256 0
  else imgBytesOf p { vals := pageVals s p, raw := pageRaw s p, own := x.own, evs := pageEvents s p }

/-! ### What the last sealed store holds -/

/-- The newest backup generation that verifies. -/
def newestBackup (s : State) : Option Backup :=
  s.tk.backs.foldl (fun o b => if b.valid then (match o with | some a => if a.gen < b.gen then some b else o | none => some b) else o) none

/-- Page `p` of a backup generation. -/
def backImg (b : Backup) (p : Nat) : Img :=
  { vals := b.vals.filter (fun e => decide (pageOf e.1 = p)), ivl := b.ivl.filter (fun e => decide (e.1 ∈ ivlCcts p)),
    ratio := b.ratio.filter (fun e => decide (256 ≤ p ∧ p < 768 ∧ (p - 256) / 2 = e.1)), unit := b.unit, bg := b.bg,
    raw := (b.raws.find? (fun e => decide (e.1 = p))).map (fun e => e.2),
    rawVals := b.vals.filter (fun e => decide (pageOf e.1 = p)) }

/-- A page frame is valid: its CRC matches and its STORE_COUNT is not 0. -/
def sealValid (x : Seal) : Bool := x.ok && decide (x.count ≠ 0)

/-- What the last store of a page holds: that of the frame that serves it, or the backup that a LOST page was restored from (R332). -/
def storedImg (s : State) (p : Nat) : Img :=
  let x := servingSeal s p
  if sealValid x ∨ (x.count = 0 ∧ x.ok = true) ∨ 984 ≤ p then x.img
  else match newestBackup s with | some b => backImg b p | none => {}

/-- PAGE_STATUS of a page follows. -/
def showPage (p : Nat) (s : State) : State := s.put (K.pageStatus (p / 256) (p % 256)) (pageStatusOf s p)

end Sys2Proof.Machine
end

