-- ==== Sys2Proof/Machine/Crossing.lean ====
section
/-! DEFINITION. Zero crossings, the tracking loop, lock and the window timer of one voltage channel (R110, R135 to R140). -/

namespace Sys2Proof.Machine

/-- 2^22: taps in a second, the numerator of f_t (R137). -/
def tapsPerS : Int := 4194304

/-- The nominal frequency of the band in effect (R139). -/
def nominalHz (s : State) : Nat := if s.live K.pqBandInEffect = 2 then 60 else 50

/-- Cycles in a 10/12-cycle window (R139). -/
def winCycles (s : State) : Nat := if s.live K.pqBandInEffect = 2 then 12 else 10

/-- Samples of the first timed window after an opening crossing (R110). -/
def timerFirst (hz : Nat) : Nat := if hz = 60 then 205 else 246

/-- Samples of the further timed windows (R110). -/
def timerNext (hz : Nat) : Nat := if hz = 60 then 137 else 164

/-- f_t of a period P in taps × 2^16, in µHz (R137, Table 5.1). -/
def ftMicro (p : Nat) : Nat := (odiv (tapsPerS * 65536 * 1000000) p).toNat

/-- f_t lies in 40 to 70 Hz (R138). -/
def ftInBand (p : Nat) : Bool := decide (p * 40 ≤ 4194304 * 65536) && decide (4194304 * 65536 ≤ p * 70)

/-- What a sample does to the windows of its reference. -/
structure ZOp where
  join : Bool := true                -- the sample lies on the old side: it belongs to the window in progress
  close : Option HalfEnd := none     -- an accepted crossing ended the window before this sample's run
  cut  : Option HalfEnd := none      -- the timer ends the window with this sample
  pos  : Option Int := none          -- an accepted positive crossing
  rej  : Bool := false               -- a candidate was rejected
  lost : Option Nat := none          -- lock was lost, with the last P
  lock : Bool := false               -- lock was gained
  deriving DecidableEq, Repr

/-- A candidate is acceptable (R136): far enough after the last accepted crossing, and near its prediction while LOCKED.
(DEDUCED, log 37) -/
def zcAccept (z : Zc) (zc : Int) : Bool :=
  match z.lastZc with
  | none => true
  | some l =>
    if z.locked then
      decide ((z.p : Int) ≤ 5 * (zc - l) * 65536) && decide (10 * mag (2 * 65536 * (zc - l) - z.p) ≤ z.p)
    else decide (60 * 256 ≤ zc - l)

/-- The crossings toward lock after one more: signs alternate and every interval corresponds to 40–70 Hz (R138). -/
def lockRun (run : List (Bool × Int)) (pos : Bool) (zc : Int) : List (Bool × Int) :=
  match run with
  | (sg, l) :: _ =>
    if sg ≠ pos ∧ tapsPerS ≤ 140 * (zc - l) ∧ 80 * (zc - l) ≤ tapsPerS then ((pos, zc) :: run).take 8 else [(pos, zc)]
  | [] => [(pos, zc)]

/-- The mean full-cycle interval of eight crossings, newest first, in taps × 2^16: the seed of P (R138). -/
def lockSeed (run : List (Bool × Int)) : Nat :=
  let c := fun i => (run.getD i (false, 0)).2
  (odiv ((c 0 + c 1 - c 6 - c 7) * 65536) 6).toNat

/-- The tracking loop takes an accepted crossing (R137): `P + (D − P)/8` with D since the last crossing of the same sign. -/
def trackStep (z : Zc) (pos : Bool) (zc : Int) : Nat :=
  match (if pos then z.lastPos else z.lastNeg) with
  | some l => ((z.p : Int) + odiv ((zc - l) * 65536 - z.p) 8).toNat
  | none => z.p

/-- An accepted crossing at instant `zc`, after the last old-side sample `m0` (R136 to R138). (DEDUCED, log 37) -/
def zcTake (tm1 m0 : Nat) (pos : Bool) (zc : Int) (z : Zc) : Zc × ZOp :=
  let p := if z.locked then trackStep z pos zc else z.p
  let run := lockRun z.run pos zc
  let gain := !z.locked && decide (run.length = 8)
  let p := if gain then lockSeed run else p
  let out := z.locked && !ftInBand p
  let z' := { z with
    lastZc := some zc, lastPos := if pos then some zc else z.lastPos, lastNeg := if pos then z.lastNeg else some zc,
    run := if out then [] else run, locked := (z.locked || gain) && !out, p := p, closeAt := m0 + tm1, timed := false }
  (z', { close := some ⟨false, m0, zc, z'.locked, out⟩, pos := if pos then some zc else none, lost := if out then some p else none,
         lock := gain })

/-- The timer ends the window with sample `m` (R110); a LOCKED channel loses its lock (R138). (DEDUCED, log 37) -/
def zcTimer (tm2 : Nat) (u : Int) (m : Nat) (z : Zc) (o : ZOp) : Zc × ZOp :=
  ({ z with closeAt := m + tm2, timed := true, locked := false, run := if z.locked then [] else z.run },
   { o with cut := some ⟨true, m, 256 * ((m : Int) - 7) - u, false, z.locked⟩, lost := if z.locked then some z.p else o.lost })

/-- Sample `m` of value `x` passes the detector; `u` is the effective delay of the channel (R135). -/
def zcSample (hz : Nat) (u : Int) (m : Nat) (x : Int) (z : Zc) : Zc × ZOp :=
  let z := if z.closeAt = 0 then { z with closeAt := m - 1 + timerFirst hz } else z
  let up := decide (one47 ≤ 200 * x)
  let dn := decide (200 * x ≤ -one47)
  let newB := match z.newB, z.old with | none, some _ => some x | b, _ => b
  let cand := (z.side = 2 && up) || (z.side = 1 && dn)
  let (z, o) :=
    if cand then
      let pos := up
      let z' := { z with side := if up then 1 else 2, old := some (m, x), newB := none }
      match z.old, newB with
      | some (m0, a), some b =>
        let zc := 256 * ((m0 : Int) - 8) + rdiv (256 * mag a) (max 1 (mag (b - a))) - u
        if zcAccept z zc then zcTake (timerFirst hz) m0 pos zc z' else (z', { rej := true })
      | _, _ => (z', {})
    else
      let side := if z.side = 0 then (if up then 1 else if dn then 2 else 0) else z.side
      let onOld := decide (side = 0) || (decide (side = 2) && decide (x < 0)) || (decide (side = 1) && decide (0 < x))
      if onOld then ({ z with side := side, old := if side = 0 then none else some (m, x), newB := none }, {})
      else ({ z with side := side, newB := newB }, { join := false })
  if o.close = none ∧ z.closeAt ≤ m then zcTimer (timerNext hz) u m z o else (z, o)

/-- The samples of a frame pass the detector, one after another from index `m`. -/
def zcFrame (hz : Nat) (u : Int) : Nat → List Int → Zc → Zc × List ZOp
  | _, [], z => (z, [])
  | m, x :: xs, z =>
    let (z, o) := zcSample hz u m x z
    let (z, os) := zcFrame hz u (m + 1) xs z
    (z, o :: os)

/-- The crossing among the samples after a frame, from index `m` on, that ends a window with a sample before `lim` (R109): every sample
up to it lies past zero. (DEDUCED, log 38) -/
def zcAhead (hz : Nat) (u : Int) (lim : Nat) : Nat → List Int → Zc → Option HalfEnd
  | _, [], _ => none
  | m, x :: xs, z =>
    let (z, o) := zcSample hz u m x z
    match o.close with
    | some e => if e.last < lim then some e else none
    | none => if o.join || o.cut.isSome then none else zcAhead hz u lim (m + 1) xs z

/-- The crossing that has ended its window already, with a sample before `lim`, ends no window again. (DEDUCED, log 38) -/
def zcSettled (lim : Nat) : List ZOp → List ZOp
  | [] => []
  | o :: os =>
    match o.close with
    | some e => if e.last < lim then { o with close := none } :: os else o :: os
    | none => o :: zcSettled lim os

/-- The angle of a channel relative to the reference, from their last positive crossings (R140). -/
def angleOf (zcR zcV : Int) (p : Nat) : Nat :=
  if p = 0 then 0 else ((rdiv (65536 * (((zcR - zcV) * 65536) % (p : Int))) p).toNat) % 65536

end Sys2Proof.Machine
end

