-- ==== Sys2Proof/Machine/CaptureOps.lean ====
section
/-! DEFINITION. Waveform capture (R156 to R159): triggers, rows, blocks and the header block. -/

namespace Sys2Proof.Machine

/-- The channels of a capture in frame `f` (R156): enabled voltage channels, then CH_SEL, as codes of Table 5.5. (DEDUCED, log 42) -/
def capChans (s : State) (f : Nat) : List Nat :=
  ((List.range 12).filter (fun v => decide (s.cfg f (K.vEnable v) = 1))).map (fun v => 0x8000 + v) ++
  ((List.range 16).map (fun i => s.cfg f (K.capChSel i))).filter (fun n => decide (n ≠ 0xFFFF))

/-- A captured sample: Q1.23, rounded half away from zero and saturated (R156). -/
def capSample (x : Int) : Int := clampI (-(2 ^ 23)) (2 ^ 23 - 1) (rshift x 24)

/-- A capture starts with trigger sample `m` (R157). -/
def capStart (f m cause src id : Nat) (s : State) : State :=
  let pre := s.cfg f K.capPre
  let c : Capt := { id := id, trig := m, cause := cause, src := src, chans := capChans s f, pre := pre,
                    post := s.cfg f K.capPost, next := m - pre, gen := s.genOf (m / 16), time := s.timeOf (m / 16) }
  { s with cap := { s.cap with cur := some c, lastId := max s.cap.lastId id } }.putLive K.capState 1

/-- Bit of TRIG_MASK that a start record of an event code sets (Table 5.14). -/
def trigBit (code : Nat) : Nat :=
  if code = 0x0110 then 0 else if code = 0x0112 then 1 else if code = 0x0114 then 2 else if code = 0x0120 then 3
  else if code = 0x0122 then 4 else if code = 0x0124 then 5 else 6

/-- A trigger by an event of frame `f` with trigger sample `m` (R157): captures while armed, is counted in MISSED in the
post-trigger part and in hold-off, and does nothing while capture is disabled or its bit is clear. -/
def capTrigger (f m code src : Nat) (s : State) : State :=
  if s.cfg f K.capEnable = 1 ∧ bit (s.cfg f K.capTrigMask) (trigBit code) then
    let st := s.live K.capState
    if st = 1 ∨ s.cap.cur ≠ none ∨ (st = 2 ∧ m / 16 ≤ s.cap.hold) then s.bump K.capMissed
    else capStart f m code (src % 256) (s.cap.lastId + 1) s
  else s

/-- The bytes of a row: three bytes a sample (R158). -/
def rowBytes (vals : List Int) : Bytes := (vals.map (fun x => le 3 (ofInt 24 x))).flatten

/-- Bytes padded with 0xFF to a 4 KiB block; a data block's unused bytes are the erased value as well. -/
def padBlock (b : Bytes) : Bytes := b ++ List.replicate (4096 - b.length) 0xFF

/-- Rows that a data block holds for `c` channels (R158). -/
def rowsPerBlock (c : Nat) : Nat := if c = 0 then 1 else 4080 / (3 * c)

/-- The rows collected so far go into a data block of RING-8; without credit the rest of the capture is dropped and it is stored
TRUNCATED (R15, R158, R159). -/
def capFlush (c : Capt) (s : State) : Capt × State :=
  if c.rows = [] then (c, s)
  else if s.cap.ring8.length < 64 then
    let seq := c.seq + 1
    let body := le 4 c.id ++ le 2 seq ++ le 2 c.rows.length ++ le 8 c.rowAt ++ (c.rows.reverse.map rowBytes).flatten
    ({ c with seq := seq, rows := [] },
     { s with cap := { s.cap with ring8 := s.cap.ring8 ++ [CapBlock.mk c.id seq 0 0 (padBlock body)] } })
  else ({ c with rows := [], got := c.got - c.rows.length, next := c.rowAt, trunc := true, closed := true }, s.bump (K.stalls 8))

/-- A row joins the capture. (DEDUCED, log 42) -/
def capRow (r : CapRow) (c : Capt) (s : State) : Capt × State :=
  if c.closed ∨ r.m < c.next ∨ c.trig + c.post ≤ r.m then (c, s)
  else
    let c := { c with next := r.m + 1, first := some (c.first.getD r.m), got := c.got + 1,
                      rowAt := if c.rows = [] then r.m else c.rowAt, rows := r.vals :: c.rows,
                      clip := c.clip || r.clip, est := c.est || r.est, unsync := c.unsync || r.unsync,
                      closed := decide (r.m + 1 = c.trig + c.post) }
    if rowsPerBlock c.chans.length ≤ c.rows.length then capFlush c s else (c, s)

/-- Rows join one after another, oldest first. -/
def capRows : List CapRow → Capt → State → Capt × State
  | [], c, s => (c, s)
  | r :: rs, c, s => let (c, s) := capRow r c s; capRows rs c s

/-- After a frame is computed, the capture in progress takes the rows it wants from the buffer (R156). -/
def capCollect (s : State) : State :=
  match s.cap.cur with
  | some c =>
    let rows := (s.cap.buf.filter (fun r => decide (c.next ≤ r.m))).reverse
    let (c, s) := capRows rows c s
    { s with cap := { s.cap with cur := some c } }
  | none => s

/-- The rows of a frame enter the pre-trigger buffer. -/
def capPush (rows : List CapRow) (s : State) : State :=
  { s with cap := { s.cap with buf := (rows.reverse ++ s.cap.buf).take 4128 } }

/-- FLAGS of the header block (Table 5.5). -/
def capFlags (c : Capt) : Nat := b2n c.trunc + 2 * b2n c.clip + 4 * b2n c.unsync + 8 * b2n c.est

/-- The header block (Table 5.5). -/
def capHeader (c : Capt) : Bytes :=
  let pre := min c.got (c.trig - c.first.getD c.trig)
  let head := le 2 1 ++ le 2 (c.seq + 1) ++ le 4 c.id ++ le 6 (c.trig / 16) ++ le 6 c.time ++ le 8 c.trig ++
    le 2 c.cause ++ le 1 c.src ++ le 1 c.chans.length ++ le 2 pre ++
    le 2 c.post ++ le 2 (capFlags c) ++ le 2 c.got ++ le 4 c.gen ++ le 4 0
  let chans := ((List.range 28).map (fun i => le 2 (c.chans.getD i 0xFFFF))).flatten
  padBlock (head ++ chans)

/-- The capture ends: its last rows and its header block go to RING-8, and hold-off begins (R157, R158). (DEDUCED, log 41) -/
def capFinish (c : Capt) (s : State) : State :=
  let (c, s) := capFlush c s
  let s := { s with cap := { s.cap with
    cur := none, hold := (c.next - 1) / 16 + s.cfg s.fn K.capHoldoff,
    ring8 := s.cap.ring8 ++ [CapBlock.mk c.id 0 c.cause (capFlags c) (capHeader c)] } }
  s.putLive K.capState (if s.cfg s.fn K.capEnable = 1 then 2 else 3)

/-- CAPTURE_COMPLETE (R158): all samples of the capture in progress are in, and RING-8 has room for what is left. -/
def execCaptureComplete (s : State) : Host.Outcome State Fault Refusal :=
  .next (match s.cap.cur with
    | some c => if c.closed ∧ s.cap.ring8.length < 63 then capFinish c s else s
    | none => s)

/-- CAPTURE_HOLDOFF_EXPIRY (R157): HOLDOFF frames have passed since the last sample. -/
def execCaptureHoldoffExpiry (s : State) : Host.Outcome State Fault Refusal :=
  .next (if s.live K.capState = 2 ∧ s.cap.hold < s.fn then
    s.putLive K.capState (if s.get K.capEnable = 1 then 0 else 3) else s)

/-- A capture cut by a disable, a change of its configuration or a power-fail warning is stored TRUNCATED with the samples up to
the last of frame `f` − 1 (R38, R159); without RING-8 credit for what is left of it, CAPTURE_COMPLETE stores it (R15). -/
def capCut (f : Nat) (s : State) : State :=
  match s.cap.cur with
  | some c =>
    let keep := if c.next ≤ 16 * f then c.rows else c.rows.drop (c.next - 16 * f)
    let c := { c with trunc := true, closed := true, rows := keep, next := min c.next (16 * f),
                      got := c.got - (c.rows.length - keep.length) }
    if s.cap.ring8.length < 63 then capFinish c s else { s with cap := { s.cap with cur := some c } }
  | none => s

end Sys2Proof.Machine
end

