-- ==== Sys2Proof/Machine/Detect.lean ====
section
/-! DEFINITION. Power-quality detectors (R151 to R155): voltage channels and groups, overcurrent, neutral imbalance and phase
loss. -/

namespace Sys2Proof.Machine

/-- Taps in µs, the unit of the durations of Table 5.4. -/
def tapsToUs (d : Int) : Nat := (odiv (d * 1000000) 4194304).toNat

/-- A start record (R155): logged, counted and offered to the capture as a trigger.  The last field tells AT_START. -/
def startRecord (f m code unit : Nat) (fields : List Nat) (atStart : Bool) (s : State) : State :=
  capTrigger f m code unit ((s.eventAt f code (fields ++ [b2n atStart])).bump K.pqEventCount)

/-- Urms(1/2) is below the given fraction of U_DIN, in 0.01 % (R151): urms/2^47 < lvl/10000 × U_DIN/2^15. -/
def uBelow (urms lvl udin : Nat) : Bool := decide (urms * 10000 < lvl * udin * 2 ^ 32)

/-- Urms(1/2) as a fraction of U_DIN in 0.01 %. -/
def uShare (urms udin : Nat) : Nat := if udin = 0 then 0 else (odiv (urms * 10000) (udin * 2 ^ 32 : Nat)).toNat

/-- Whether a channel is in the event after a value (Table 5.2): `kind` 0 SAG, 1 SWELL, 2 INTERRUPTION. -/
def vDetNext (s : State) (f v kind urms : Nat) (on : Bool) : Bool :=
  let udin := s.cfg f (K.vUDin v)
  let hy := s.cfg f K.pqHyst
  if kind = 0 then
    let l := s.cfg f K.pqSagLvl
    if on then uBelow urms (l + hy) udin else uBelow urms l udin
  else if kind = 1 then
    let l := s.cfg f K.pqSwellLvl
    if on then decide ((l - hy) * udin * 2 ^ 32 < urms * 10000) else decide (l * udin * 2 ^ 32 < urms * 10000)
  else
    let l := s.cfg f K.pqIntLvl
    if on then uBelow urms (l + hy) udin else uBelow urms l udin

/-- The channels that a group aggregates in frame `f`: enabled, in the group, not retired (R151, R229). -/
def groupOf (s : State) (f g : Nat) : List Nat :=
  (List.range 12).filter (fun v => decide (s.cfg f (K.vEnable v) = 1) && decide (s.cfg f (K.vGroup v) = g) &&
    !unitOut s 2 v f)

/-- The last Urms(1/2) of a channel is below INT_LVL in frame `f` (R151, R152). -/
def vLow (s : State) (f v : Nat) : Bool :=
  match (tget {} s.tan.sig (256 + v)).rmsU with
  | some u => uBelow u (s.cfg f K.pqIntLvl) (s.cfg f (K.vUDin v))
  | none => false

/-- A channel is ABSENT (R152): its last Urms(1/2) is below INT_LVL, or no crossing came for 1.5 nominal half-cycles. -/
def vAbsent (s : State) (f v : Nat) : Bool := vLow s f v || (tget {} s.tan.zc v).timed

/-- The start code of a kind (Table 5.4); the end code is one more. -/
def vCode (kind : Nat) : Nat := 0x0110 + 2 * kind

/-- The extreme that an event keeps: lowest for SAG and INTERRUPTION, highest for SWELL. -/
def vExt (kind a b : Nat) : Nat := if kind = 1 then max a b else min a b

/-- A group's end record, with its cause (R155). -/
def groupEnd (f g kind : Nat) (at_ : Int) (cause : Nat) (s : State) : State :=
  let d := tget {} s.tan.gdet (4 * g + kind)
  let s := s.eventAt f (vCode kind + 1) [g, d.mask, d.start.toNat, tapsToUs (at_ - d.start), d.ext, d.extCh, cause]
  { s with tan := { s.tan with gdet := tset {} s.tan.gdet (4 * g + kind) { init := true } } }

/-- A group event starts. -/
def groupStart (f m g kind v share : Nat) (at_ : Int) (atStart : Bool) (mask : Nat) (s : State) : State :=
  let d : Det := { on := true, init := true, start := at_, ext := share, extCh := v, mask := mask }
  let s := { s with tan := { s.tan with gdet := tset {} s.tan.gdet (4 * g + kind) d } }
  startRecord f m (vCode kind) g [g, mask, at_.toNat] atStart s

/-- The mask of the channels of a group that are in the event. -/
def groupMask (s : State) (chans : List Nat) (kind : Nat) : Nat :=
  chans.foldl (fun a v => if (tget {} s.tan.vdet (4 * v + kind)).on then a + 2 ^ v else a) 0

/-- A new Urms(1/2) of channel `v` passes the detector of one kind (R151, R152, R155); `m` is the deciding sample and `at_` the
opening crossing of its one-cycle window. -/
def vDetect (f m v urms kind : Nat) (at_ : Int) (s : State) : State :=
  let d := tget {} s.tan.vdet (4 * v + kind)
  let on := vDetNext s f v kind urms d.on
  let s := { s with tan := { s.tan with vdet := tset {} s.tan.vdet (4 * v + kind) { on := on, init := true } } }
  let g := s.cfg f (K.vGroup v)
  let chans := groupOf s f g
  let gd := tget {} s.tan.gdet (4 * g + kind)
  let share := uShare urms (s.cfg f (K.vUDin v))
  let mask := groupMask s chans kind
  if gd.on then
    let better := decide (vExt kind gd.ext share ≠ gd.ext)
    let gd := { gd with ext := vExt kind gd.ext share, extCh := if better then v else gd.extCh, mask := gd.mask ||| mask }
    let s := { s with tan := { s.tan with gdet := tset {} s.tan.gdet (4 * g + kind) gd } }
    let ended := if kind = 2 then d.on && !on else decide (mask = 0)
    if ended then groupEnd f g kind at_ 0 s else s
  else
    let starts := if kind = 2 then decide (chans ≠ []) && chans.all (vLow s f)
      else on && !d.on
    if starts then groupStart f m g kind v share at_ (!d.init) mask s else s

/-- The three voltage detectors of a channel that is enabled and not retired (R151, R229). -/
def vDetectAll (f m v urms : Nat) (at_ : Int) (s : State) : State :=
  if s.cfg f (K.vEnable v) = 1 ∧ unitOut s 2 v f = false then
    vDetect f m v urms 2 at_ (vDetect f m v urms 1 at_ (vDetect f m v urms 0 at_ s))
  else s

/-- An RMS value exceeds a Q0.16 fraction of I_FS: rms/2^47 > lvl/2^16 / (g √2). -/
def iAbove (rms lvl gain : Nat) : Bool := decide (lvl * lvl * 2 ^ 94 < 2 * (gain * rms * 65536) ^ 2)

/-- An RMS value as a fraction of I_FS in 0.01 %: rms × 10,000 × g × √2 / 2^47. -/
def iShare (rms gain : Nat) : Nat := (odiv (isqrt (2 * (rms * 10000 * gain) ^ 2)) (2 ^ 47)).toNat

/-- A counting detector takes a value: `hit` counts toward the start while off, toward the end while on.  `cand` is the instant of the
first value of the count, which the event starts or ends at (R153). (DESIGN CHOICE, log 87) -/
def detCount (d : Det) (hit : Bool) (n : Nat) (at_ : Int) : Det × Bool :=
  if hit then
    let c := d.cnt + 1
    let cand := if d.cnt = 0 then at_ else d.cand
    if n ≤ c then ({ d with on := !d.on, cnt := 0, cand := cand, init := true }, true)
    else ({ d with cnt := c, cand := cand, init := true }, false)
  else ({ d with cnt := 0, init := true }, false)

/-- The end record of an overcurrent (Table 5.4). -/
def ocEnd (f n : Nat) (at_ : Int) (cause : Nat) (s : State) : State :=
  let d := tget {} s.tan.idet n
  let s := s.eventAt f 0x0121 [n, d.start.toNat, tapsToUs (at_ - d.start), d.ext, cause]
  { s with tan := { s.tan with idet := tset {} s.tan.idet n { init := true } } }

/-- A half-cycle RMS of channel `n` passes the overcurrent detector (R153); `at_` is the opening of its half-cycle. -/
def ocDetect (f m n rms : Nat) (at_ : Int) (s : State) : State :=
  let gain := 2 ^ s.cfg f (K.chGainLow n)
  let d := tget {} s.tan.idet n
  let above := iAbove rms (s.cfg f K.pqOcLvl) gain
  let first := !d.init
  let d := if d.on then { d with ext := max d.ext (iShare rms gain) } else d
  let need := if first then 1 else s.cfg f K.pqOcCount
  let (d', flip) := detCount d (if d.on then !above else above) need at_
  let s := { s with tan := { s.tan with idet := tset {} s.tan.idet n d' } }
  if flip then
    if d.on then ocEnd f n d'.cand 0 s
    else
      let s := { s with tan := { s.tan with idet := tset {} s.tan.idet n { d' with start := d'.cand, ext := iShare rms gain } } }
      startRecord f m 0x0120 n [n, d'.cand.toNat] first s
  else s

/-- The end record of a neutral imbalance. -/
def niEnd (f c : Nat) (cause : Nat) (s : State) : State :=
  let d := tget {} s.tan.ndet c
  let us := (odiv (((f : Int) - d.start) * 15625) 16).toNat
  let s := s.eventAt f 0x0123 [c, d.start.toNat, us, d.ext, cause]
  { s with tan := { s.tan with ndet := tset {} s.tan.ndet c { init := true } } }

/-- A residual RMS of circuit `c` passes the neutral-imbalance detector (R153). -/
def niDetect (f m c chA rms : Nat) (s : State) : State :=
  let gain := 2 ^ s.cfg f (K.chGainLow chA)
  let lvl := s.cfg f K.pqNiLvl
  let d := tget {} s.tan.ndet c
  let above := iAbove rms lvl gain
  let low := !decide (16 * lvl * lvl * 2 ^ 94 < 25 * (2 * (gain * rms * 65536) ^ 2))
  let first := !d.init
  let d := if d.on then { d with ext := max d.ext (iShare rms gain) } else d
  let (d', flip) := detCount d (if d.on then low else above) (if first then 1 else s.cfg f K.pqNiCount) (f : Int)
  let s := { s with tan := { s.tan with ndet := tset {} s.tan.ndet c d' } }
  if flip then
    if d.on then niEnd f c 0 s
    else
      let s := { s with tan := { s.tan with ndet := tset {} s.tan.ndet c { d' with start := d'.cand, ext := iShare rms gain } } }
      startRecord f m 0x0122 c [c, d'.cand.toNat] first s
  else s

/-- The end record of a phase loss. -/
def plEnd (f c : Nat) (cause : Nat) (s : State) : State :=
  let d := tget {} s.tan.pdet c
  let us := (odiv (((f : Int) - d.start) * 15625) 16).toNat
  let s := s.eventAt f 0x0125 [c, d.mask, us, cause]
  { s with tan := { s.tan with pdet := tset {} s.tan.pdet c { init := true } } }

/-- A 10/12-cycle window of V_A passes the phase-loss detector of circuit `c` (R153); `absent` lists its references with their
absence. -/
def plDetect (f m c : Nat) (absent : List (Nat × Bool)) (s : State) : State :=
  let some1 := absent.any (fun e => e.2)
  let mixed := some1 && absent.any (fun e => !e.2)
  let mask := absent.foldl (fun a e => if e.2 then a ||| 2 ^ e.1 else a) 0
  let d := tget {} s.tan.pdet c
  let first := !d.init
  let d := if d.on then { d with mask := d.mask ||| mask } else d
  let (d', flip) := detCount d (if d.on then !some1 else mixed) (if first then 1 else s.cfg f K.pqPlCount) (f : Int)
  let s := { s with tan := { s.tan with pdet := tset {} s.tan.pdet c d' } }
  if flip then
    if d.on then plEnd f c 0 s
    else
      let s := { s with tan := { s.tan with pdet := tset {} s.tan.pdet c { d' with start := d'.cand, mask := mask } } }
      startRecord f m 0x0124 c [c, mask] first s
  else s

end Sys2Proof.Machine
end

