-- ==== Sys2Proof/Machine/Windows.lean ====
section
/-! DEFINITION. RMS and power windows (R109, R110, R114, R154): what the end of a half-cycle brings about for the inputs and
circuits that follow a reference voltage. -/

namespace Sys2Proof.Machine

/-- A phase of a circuit: its channel, its voltage reference, and whether the reference is negated (Table 4.1). -/
structure Phase where
  ch  : Nat
  v   : Nat
  neg : Bool
  deriving DecidableEq, Repr

/-- The phases of a circuit by its kind in frame `f` (Table 4.1). -/
def phasesOf (s : State) (f c : Nat) : List Phase :=
  let kind := s.cfg f (K.cctKind c)
  let a := Phase.mk (s.cfg f (K.cctChA c)) (s.cfg f (K.cctVA c)) false
  let vb := s.cfg f (K.cctVB c)
  let b := Phase.mk (s.cfg f (K.cctChB c)) (if vb = 255 then s.cfg f (K.cctVA c) else vb) (decide (vb = 255))
  let cc := Phase.mk (s.cfg f (K.cctChC c)) (s.cfg f (K.cctVC c)) false
  if kind = 1 then [a] else if kind = 2 then [a, b] else if kind = 3 then [a, b, cc] else if kind = 4 then [a, cc] else []

/-- The circuits defined in frame `f`, ascending. -/
def definedCcts (s : State) (f : Nat) : List Nat :=
  (List.range 256).filter (fun c => decide (s.cfg f (K.cctKind c) ≠ 0))

/-- The phases of every defined circuit, with their circuit. -/
def phaseMap (s : State) (f : Nat) : List (Nat × Phase) :=
  ((definedCcts s f).map (fun c => (phasesOf s f c).map (fun p => (c, p)))).flatten

/-- The reference that a voltage reference follows while it is substituted (R228). -/
def followV (s : State) (v : Nat) : Nat :=
  match tget none s.tan.subst v with
  | some b => if b.src < 12 then b.src else v
  | none => v

/-- The voltage reference of input `k` before substitution: n for CH-n, 256 + v for V-v (R109). -/
def inputRef (s : State) (map : List (Nat × Phase)) (k : Nat) : Nat :=
  if 256 ≤ k then k - 256
  else match map.find? (fun e => decide (e.2.ch = k)) with
    | some e => e.2.v
    | none => s.get (K.chBaseVref k) % 128

/-- The channels whose sums a circuit's own windows follow: V_A. -/
def cctRef (s : State) (f c : Nat) : Nat := s.cfg f (K.cctVA c)

/-- What the sample brings to an accumulator triple (window so far, tail, closed windows). (DEDUCED, log 37) -/
def stepWin {α : Type} (zero : α) (merge : α → α → α) (add : α → α) (o : ZOp) (t : α × α × List α) : α × α × List α :=
  match o.close with
  | some _ => (add t.2.1, zero, t.2.2 ++ [t.1])
  | none =>
    let h := if o.join then (add (merge t.1 t.2.1), zero) else (t.1, add t.2.1)
    match o.cut with
    | some _ => (zero, zero, t.2.2 ++ [merge h.1 h.2])
    | none => (h.1, h.2, t.2.2)

/-- The sum of two accumulators. -/
def Acc.add (a b : Acc) : Acc := ⟨a.s + b.s, a.n + b.n⟩

/-- One more sample: its square rounded to Q14.82 (R109). -/
def Acc.take (x : Int) (a : Acc) : Acc := ⟨a.s + rshift (x * x) 12, a.n + 1⟩

/-- The samples of a frame enter the windows of an input; an operation beyond them is that of a crossing which the next frame completes:
the window ends with the last sample of the frame that precedes it. -/
def sigRun : List ZOp → List Int → Sig → Sig
  | o :: os, x :: xs, g =>
    let t := stepWin {} Acc.add (Acc.take x) o (g.half, g.tail, g.cuts)
    sigRun os xs { g with half := t.1, tail := t.2.1, cuts := t.2.2 }
  | _ :: _, [], g => { g with half := g.tail, tail := {}, cuts := g.cuts ++ [g.half] }
  | [], _, g => g

/-- Pairwise sums, the longer list kept. -/
def addLists : List Int → List Int → List Int
  | [], b => b
  | a, [] => a
  | x :: xs, y :: ys => (x + y) :: addLists xs ys

/-- The sum of two circuit accumulators. -/
def CAcc.add (a b : CAcc) : CAcc :=
  { p := addLists a.p b.p, q := addLists a.q b.q, a := addLists a.a b.a, r := a.r + b.r, n := a.n + b.n, vec := a.vec || b.vec }

/-- The samples of a frame, each as an accumulator of one sample, enter the windows of a circuit. -/
def cctRun : List ZOp → List CAcc → CWin → CWin
  | o :: os, x :: xs, g =>
    let t := stepWin {} CAcc.add (CAcc.add x) o (g.half, g.tail, g.cuts)
    cctRun os xs { g with half := t.1, tail := t.2.1, cuts := t.2.2 }
  | _ :: _, [], g => { g with half := g.tail, tail := {}, cuts := g.cuts ++ [g.half] }
  | [], _, g => g

/-- `sqrt(sum / N)` of squares in Q14.82, in Q1.47 (R109). -/
def rmsOf (a : Acc) : Nat := if a.n = 0 then 0 else rsqrt (a.s.toNat * 4096) a.n

/-- Detector of V-v is set. -/
def setZc (v : Nat) (z : Zc) (s : State) : State := { s with tan := { s.tan with zc := tset {} s.tan.zc v z } }

/-- Windows of an input are set. -/
def setSig (k : Nat) (g : Sig) (s : State) : State := { s with tan := { s.tan with sig := tset {} s.tan.sig k g } }

/-- Windows of a circuit are set. -/
def setCwin (c : Nat) (g : CWin) (s : State) : State := { s with tan := { s.tan with cwin := tset {} s.tan.cwin c g } }

/-- The RMS objects of an input: half-cycle, 10/12-cycle, 1 s. -/
def rmsKey (k i : Nat) : Nat :=
  if k < 256 then (if i = 0 then K.chIRmsHc k else if i = 1 then K.chIRms k else K.chIRms1s k)
  else (if i = 0 then K.vURmsHc (k - 256) else if i = 1 then K.vURms (k - 256) else K.vURms1s (k - 256))

/-- An input is retired: its live values read 0 (R226, R229). -/
def inputRetired (s : State) (f k : Nat) : Bool := if k < 256 then unitOut s 1 k f else unitOut s 2 (k - 256) f

/-- A value of an input is published with frame `f`; a retired input reads 0. -/
def pubInput (f k key val : Nat) (s : State) : State := s.putDue f key (if inputRetired s f k then 0 else val)

/-- The half-cycle window of input `k` closed (R109, R113, R151, R153).  `m` is its last sample, `opens` its opening and `prev`
the opening of the window before; `detect` is false while nothing decides an event on it. (DEDUCED, log 37) -/
def halfClose (f m k : Nat) (acc : Acc) (opens prev : Int) (s : State) : State :=
  let g := tget {} s.tan.sig k
  let g := { g with h2 := g.h1, h1 := some acc, rmsH := some (rmsOf acc), cyc := g.cyc.add acc }
  let urms := match g.h2 with | some b => some (rsqrt ((acc.s + b.s).toNat * 4096) (acc.n + b.n)) | none => none
  let g := { g with rmsU := urms }
  let s := if k < 512 then pubInput f k (rmsKey k 0) (rmsOf acc) (setSig k g s) else setSig k g s
  if 512 ≤ k then s
  else if k < 256 then
    if unitOut s 1 k f then s else ocDetect f m k (rmsOf acc) opens s
  else
    match urms with
    | some u => vDetectAll f m (k - 256) u prev (pubInput f k (K.vURmsHalf (k - 256)) u s)
    | none => s

/-- The 10/12-cycle window of input `k` closed, and with the fifth of them the 1 s window (Table 4.3); a window counts only when
it holds as many samples as its reference's. (DEDUCED, log 37) -/
def cycClose (f m k nRef nSec : Nat) (last5 : Bool) (s : State) : State :=
  let g := tget {} s.tan.sig k
  let ok := decide (g.cyc.n = nRef) && decide (g.cyc.n ≠ 0)
  let sec := g.sec.add g.cyc
  let r := rmsOf g.cyc
  let g' := { g with cyc := {}, sec := if last5 then {} else sec, rmsC := if ok then some r else g.rmsC }
  let ok5 := last5 && decide (sec.n = nSec) && decide (sec.n ≠ 0)
  let g' := if ok5 then { g' with rmsS := some (rmsOf sec), rmsSFn := m / 16, rmsP := g.rmsS,
                                      rmsPFn := g.rmsSFn } else g'
  let s := setSig k g' s
  if 512 ≤ k then s else
  let s := if ok then pubInput f k (rmsKey k 1) r s else s
  let s := if ok ∧ 256 ≤ k then { s with tan := { s.tan with uC := tset 0 s.tan.uC (k - 256) r } } else s
  if ok5 then pubInput f k (rmsKey k 2) (rmsOf sec) s else s

/-- A power in mW from a sum in units of 2^-e over N samples (R114): `round(p̄ × k × 58,982.4 × 10^u)`. -/
def powerMwAt (e : Nat) (sum : Int) (n k u : Nat) : Int := rdiv (sum * k * 589824 * 10 ^ u) (10 * n * 2 ^ (e + 24))

/-- The same from a sum in units of 2^-90. -/
def powerMw (sum : Int) (n k u : Nat) : Int := powerMwAt 90 sum n k u

/-- The square root of a sum of squares of two powers, in their units; the last bit is open (R113). -/
def vecSum (p q : Int) : Int :=
  let n := (p * p + q * q).toNat
  let r := isqrt n
  if r * r = n then r else if Config.roundsUp n 0 then r + 1 else r

/-- The apparent sum of a window in units of 2^-94 (R113, R114).  The vector form takes the sums of P and Q over the window, and a phase that
fell back to it in one frame has it for the whole window. (DESIGN CHOICE, log 108) -/
def apparentSum (a : CAcc) (vector phaseWise : Bool) : Int :=
  if vector then
    if phaseWise then 16 * sumI ((List.range a.p.length).map (fun i => vecSum (ati a.p i) (ati a.q i)))
    else 16 * vecSum (sumI a.p) (sumI a.q)
  else
    sumI ((List.range a.p.length).map (fun i =>
      if a.vec then 16 * vecSum (ati a.p i) (ati a.q i) else ati a.a i))

/-- PF = P / S in Q1.14, signed with P; 0 when S is 0 (R114). (DESIGN CHOICE, log 6) -/
def powerFactor (p s : Int) : Int := if s = 0 then 0 else clampI (-32768) 32767 (odiv (p * 16384) s)

/-- The voltage references of a circuit, each once. -/
def cctRefs (s : State) (f c : Nat) : List Nat := ((phasesOf s f c).map (fun p => p.v)).eraseDups

/-- The references of a circuit with their absence, each once (R152, R153); a retired one has no detector of its own and is not among
them (R229). -/
def absentRefs (s : State) (f c : Nat) : List (Nat × Bool) :=
  ((cctRefs s f c).filter (fun v => !unitOut s 2 v f)).map (fun v => (v, vAbsent s f v))

/-- The 10/12-cycle window of circuit `c` closed: P, Q, S, PF, residual, and the circuit detectors (R114, R153, R154).  A
circuit without CH_N has no residual. (DESIGN CHOICE, log 112) -/
def cctClose (f m c nRef : Nat) (s : State) : State :=
  let w := tget {} s.tan.cwin c
  let a := w.cyc
  let ok := decide (a.n = nRef) && decide (a.n ≠ 0)
  let s := setCwin c { w with cyc := {}, valid := w.valid || ok } s
  if ok then
    let k := s.cfg f (K.cctEnergyK c)
    let u := s.cfg f (K.cctEnergyUnit c)
    let p := powerMw (sumI a.p) a.n k u
    let app := powerMwAt 94 (apparentSum a (decide (s.cfg f (K.cctApparent c) = 1)) (decide (s.cfg f (K.cctSignRule c) = 1)))
      a.n k u
    let s := ((s.putDueI f (K.cctP c) p).putDueI f (K.cctQ c) (powerMw (sumI a.q) a.n k u)).putDueI f (K.cctS c) app
    let s := s.putDueI f (K.cctPf c) (powerFactor p app)
    let phases := phasesOf s f c
    let pos := if s.cfg f (K.cctKind c) = 4 then [0, 2] else [0, 1, 2]
    let s := (List.range phases.length).foldl (fun s i =>
      (s.putDueI f (K.cctPPh c (pos.getD i 0)) (powerMw (ati a.p i) a.n k u)).putDueI f (K.cctQPh c (pos.getD i 0))
        (powerMw (ati a.q i) a.n k u)) s
    let chN := s.cfg f (K.cctChN c)
    let s := if chN ≠ 0xFFFF ∧ unitOut s 1 chN f = false then
        let r := rmsOf ⟨a.r, a.n⟩
        let w := tget {} s.tan.cwin c
        niDetect f m c (s.cfg f (K.cctChA c)) r ((setCwin c { w with res := some r } s).putDue f (K.cctIResidual c) r)
      else s
    let refs := absentRefs s f c
    if 2 ≤ refs.length then plDetect f m c refs s else s
  else s

/-- The inputs and circuits that follow a reference in a frame. -/
structure Followers where
  sigs : List Nat
  ccts : List Nat
  deriving DecidableEq, Repr

/-- The followers of reference `v` in frame `f`. -/
def followers (s : State) (f v : Nat) : Followers :=
  let map := phaseMap s f
  { sigs := (s.aln.streams.map (fun e => e.1)).filter (fun k => decide (followV s (inputRef s map k) = v) &&
      (decide (k < 256) || decide (k = 256 + v))) ++
      ((List.range 12).filter (fun w => decide (followV s w = v) && decide (w ≠ v))).map (fun w => 512 + w),
    ccts := (definedCcts s f).filter (fun c => decide (followV s (cctRef s f c) = v)) }

/-- The end of a 10/12-cycle window of reference `v` (Table 4.3, Table 5.1). (DEDUCED, log 38) -/
def cycEnd (f v : Nat) (fol : Followers) (e : HalfEnd) (s : State) : State :=
  let z := tget {} s.tan.zc v
  let nRef := (tget {} s.tan.sig (256 + v)).cyc.n
  let nSec := (tget {} s.tan.sig (256 + v)).sec.n + nRef
  let last5 := decide (z.wins + 1 = 5)
  let f200 := match e.lock, z.winZc with
    | true, some a => if a < e.at_ then
        some (odiv ((winCycles s : Int) * tapsPerS * 1000000) (e.at_ - a)).toNat else none
    | _, _ => none
  let s := setZc v { z with halves := 0, winZc := some e.at_, wins := if last5 then 0 else z.wins + 1, f200 := f200 } s
  let s := s.putDue f (K.vFreq200 v) (f200.getD 0)
  let s := fol.sigs.foldl (fun s k => cycClose f e.last k nRef nSec last5 s) s
  fol.ccts.foldl (fun s c => cctClose f e.last c nRef s) s

/-- The oldest closed window of an input is taken off its list. -/
def popSig (k : Nat) (s : State) : Acc × State :=
  let g := tget {} s.tan.sig k
  (g.cuts.headD {}, setSig k { g with cuts := g.cuts.tail } s)

/-- The oldest closed window of a circuit joins its 10/12-cycle window, when whole. -/
def popCct (nRef : Nat) (keep : Bool) (c : Nat) (s : State) : State :=
  let w := tget {} s.tan.cwin c
  let a := w.cuts.headD {}
  setCwin c { w with cuts := w.cuts.tail, cyc := if !keep then {} else if a.n = nRef then w.cyc.add a else w.cyc } s

/-- One input takes the end of a half-cycle. (DEDUCED, log 38) -/
def sigEnd (f nRef : Nat) (keep : Bool) (opens prev : Int) (m k : Nat) (s : State) : State :=
  let (a, s) := popSig k s
  if keep then (if a.n = nRef then halfClose f m k a opens prev s else s)
  else
    let g := tget {} s.tan.sig k
    setSig k { g with cyc := {} } s

/-- The RMS values of an input read WARMING from the lost lock of its reference (R160). -/
def sigLost (f k : Nat) (s : State) : State :=
  let g := tget {} s.tan.sig k
  let s := setSig k { half := g.half, tail := g.tail, cuts := g.cuts } s
  if 512 ≤ k then s
  else
    let s := (List.range 3).foldl (fun s i => s.putDue f (rmsKey k i) 0) s
    if k < 256 then s else s.putDue f (K.vURmsHalf (k - 256)) 0

/-- P, Q, S, PF, their phases and the residual of a circuit. -/
def cctWindowKeys (c : Nat) : List Nat := (List.range 10).map (fun i => K.cctP c + i) ++ [K.cctIResidual c]

/-- The window values of a circuit read WARMING from the lost lock of its reference (R160). -/
def cctLost (f c : Nat) (s : State) : State :=
  let w := tget {} s.tan.cwin c
  (cctWindowKeys c).foldl (fun s x => s.putDue f x 0) (setCwin c { w with cyc := {}, valid := false, res := none } s)

/-- V-v has lost its lock: the windows of what follows it start anew, and their values read WARMING (R160). (DEDUCED, log 39) -/
def winsLost (f v : Nat) (s : State) : State :=
  let z := tget {} s.tan.zc v
  let fol := followers s f v
  let s := (setZc v { z with halves := 0, wins := 0, winZc := z.openZc, f200 := none } s).putDue f (K.vFreq200 v) 0
  fol.ccts.foldl (fun s c => cctLost f c s) (fol.sigs.foldl (fun s k => sigLost f k s) s)

/-- The end of a half-cycle of reference `v` is counted (R109, R110): the window counts when it was opened by a crossing or
ended by the timer, and holds a sample; otherwise the windows re-align at this crossing. (DEDUCED, log 37) -/
def halfCount (f v : Nat) (e : HalfEnd) (s : State) : State :=
  let z := tget {} s.tan.zc v
  let fol := followers s f v
  let nRef := ((tget {} s.tan.sig (256 + v)).cuts.headD {}).n
  let keep := (e.timed || decide (z.openZc ≠ none)) && decide (nRef ≠ 0)
  let opens := z.openZc.getD e.at_
  let prev := z.prevZc.getD opens
  let z' := { z with due := z.due.tail, openZc := some e.at_, prevZc := if keep then some opens else z.prevZc,
                     halves := if keep then z.halves + 1 else z.halves,
                     winZc := if keep then z.winZc else if z.halves = 0 then some e.at_ else z.winZc }
  let s := setZc v z' s
  let drop := !keep && decide (z.openZc = none)
  let s := fol.sigs.foldl (fun s k =>
    if keep || drop then sigEnd f nRef keep opens prev e.last k s else (popSig k s).2) s
  let s := fol.ccts.foldl (fun s c => popCct nRef (keep || !drop) c s) s
  if keep ∧ 2 * winCycles s ≤ z'.halves then cycEnd f v fol e s else s

/-- The end of a half-cycle of reference `v` is handled.  A lock that the timer ends is lost before its window counts; one that a
crossing out of band ends, after it (R138, R160). (DEDUCED, log 39) -/
def halfEnd (f v : Nat) (e : HalfEnd) (s : State) : State :=
  let s := halfCount f v e (if e.lost && e.timed then winsLost f v s else s)
  if e.lost && !e.timed then winsLost f v s else s

/-- The oldest `n` ends of windows are handled, in order, each as of the frame that holds its last sample (R12). (DEDUCED, log 38) -/
def halfEnds (v : Nat) : Nat → State → State
  | 0, s => s
  | n + 1, s =>
    match (tget {} s.tan.zc v).due with
    | e :: _ => halfEnds v n (halfEnd (e.last / 16) v e s)
    | [] => s

/-- PQ_STATE of the defined circuits in frame `f` (Table 5.12). -/
def pqPublish (f : Nat) (s : State) : State :=
  (definedCcts s f).foldl (fun s c =>
    let oc := (phasesOf s f c).any (fun p => (tget {} s.tan.idet p.ch).on)
    s.putDue f (K.cctPqState c) (b2n (tget {} s.tan.ndet c).on + 2 * b2n (tget {} s.tan.pdet c).on + 4 * b2n oc)) s

/-- WARMING of a circuit result follows the 10/12-cycle window that its circuit has or has lost at the end of the frame (R160). -/
def warmDone (s : State) (r : CRes) : CRes :=
  { r with flags := if (tget {} s.tan.cwin r.c).valid then clearBit r.flags 14 else setBit r.flags 14 }

end Sys2Proof.Machine
end

