-- ==== Sys2Proof/Machine/Accrue.lean ====
section
/-! DEFINITION. Accrual of one circuit-frame (R112 to R129): frame energies, start-up gate and creep, entries by accumulation mode,
registers, journal slots, demand accumulators, direction, estimation of missing results, baseline absorption. -/

namespace Sys2Proof.Machine

/-! ### Registers and slots -/

/-- A register takes an entry (R116); an entry below 0 occurs only for AI in SIGNED mode. -/
def regAdd (f c i : Nat) (amt : Int) (s : State) : State :=
  putReg f c i (((regTot s c i : Int) + amt) % (2 ^ 104 : Int)).toNat s

/-- A slot takes an entry of a kind. -/
def Slot.add (kind : Nat) (amt : Int) (x : Slot) : Slot :=
  { x with d := (List.range 8).map (fun i => if i = kind then ati x.d i + amt else ati x.d i) }

/-- A slot has a key. -/
def Slot.hasKey (t p : Nat) : Option Slot → Bool
  | some x => decide (x.tariff = t) && decide (x.period = p)
  | none => false

/-- The journal takes an entry in the slot of its key, or in a free one (R191). -/
def slotAdd (t p kind : Nat) (amt : Int) (x : BCct) : BCct :=
  if Slot.hasKey t p x.slotA then { x with slotA := x.slotA.map (Slot.add kind amt) }
  else if Slot.hasKey t p x.slotB then { x with slotB := x.slotB.map (Slot.add kind amt) }
  else if x.slotA = none then { x with slotA := some (Slot.add kind amt { tariff := t, period := p, d := [] }) }
  else if x.slotB = none then { x with slotB := some (Slot.add kind amt { tariff := t, period := p, d := [] }) }
  else x

/-- A slot with the key, or a free one, is at hand. -/
def slotRoom (t p : Nat) (x : BCct) : Bool :=
  Slot.hasKey t p x.slotA || Slot.hasKey t p x.slotB || decide (x.slotA = none) || decide (x.slotB = none)

/-- An entry of frame `f` reaches its tariff set, TOTAL and the journal (R115, R191). -/
def enterKind (f c kind : Nat) (amt : Int) (s : State) : State :=
  if amt = 0 then s
  else
    let x := getC s c
    let t := x.tariff.getD 0
    setC c (slotAdd t x.period kind amt x) (regAdd f c (64 + kind) amt (regAdd f c (8 * t + kind) amt s))

/-- The demand interval in progress takes an increase (R177); suspended demand takes none (R197). -/
def demandAdd (c : Nat) (imp exp : Int) (absorbed : Bool) (s : State) : State :=
  let x := getC s c
  match x.ivl with
  | some v =>
    if x.susp then s
    else setC c { x with ivl := some { v with imp := v.imp + imp, exp := v.exp + exp,
                                              absb := v.absb || (absorbed && decide (imp + exp ≠ 0)) } } s
  | none => s

/-- Import and export parts of entries. -/
def entPart (pk : Nat) (es : List Ent) : Int := sumI (es.map (fun e => if e.pk = pk then e.pamt else 0))

/-- Entries of frame `f` reach the registers, and the pulses of the frame; demand is told apart (R129). -/
def enterAll (f c : Nat) (es : List Ent) (s : State) : State := es.foldl (fun s e => enterKind f c e.kind e.amt s) s

/-! ### Frame energies (R112, R113, R115, R120) -/

/-- Quadrant kinds (Table 4.5, Table 6.5). -/
def quadrant (ep eq : Int) : Nat := if 0 ≤ ep then (if 0 ≤ eq then 2 else 5) else (if 0 ≤ eq then 3 else 4)

/-- The entries of a decision unit by accumulation mode (Table 4.4). -/
def unitEnts (mode : Nat) (ep eq es : Int) : List Ent :=
  if mode = 2 then [⟨0, mag ep, 0, mag ep⟩, ⟨6, es, 6, es⟩, ⟨quadrant 0 eq, mag eq, quadrant 0 eq, mag eq⟩]
  else
    let q := quadrant ep eq
    let sk := if 0 ≤ ep then 6 else 7
    let a : Ent :=
      if mode = 1 then (if 0 ≤ ep then ⟨0, ep, 0, ep⟩ else ⟨0, ep, 1, -ep⟩)
      else if 0 ≤ ep then ⟨0, ep, 0, ep⟩ else ⟨1, -ep, 1, -ep⟩
    [a, ⟨sk, es, sk, es⟩, ⟨q, mag eq, q, mag eq⟩]

/-- A sum in units of 2^-e, rounded to Q8.56 and multiplied by ENERGY_K: a signed Q56.40 value (R112). -/
def energyOf (e : Nat) (sum : Int) (k : Nat) : Int := rshift (rshift sum (e - 56) * k) 40

/-- A decision unit: sums with their scales, and 64 P_FS of it. -/
structure EUnit where
  p  : Int
  q  : Int
  s  : Int
  ep : Nat        -- scale of p and q
  es : Nat        -- scale of s
  fs : Nat
  deriving DecidableEq, Repr

/-- 64 × 1/(2 g_low) of a phase channel. -/
def phaseFs (s : State) (f ch : Nat) : Nat := 2 ^ (5 - s.cfg f (K.chGainLow ch))

/-- Twice P_FS of a circuit in W, rounded (R124): Σ 1/(2 g_low) × k × 58,982.4 × 10^u / 1000. -/
def pFsWatts (s : State) (f c : Nat) : Nat :=
  let fs := sumN ((phasesOf s f c).map (fun p => phaseFs s f p.ch))
  (odiv (fs * s.cfg f (K.cctEnergyK c) * 589824 * 10 ^ s.cfg f (K.cctEnergyUnit c) : Nat) (64 * 2 ^ 24 * 10000)).toNat

/-- P_MAX in effect, in W (R124). -/
def pMaxWatts (s : State) (f c : Nat) : Nat :=
  let m := s.cfg f (K.cctPMax c)
  if m = 0 then pFsWatts s f c else m

/-- WRAP_HOURS = floor(2^48 × unit / P_MAX), the unit in Wh (R124); 0xFFFFFFFF where P_MAX is 0 W or the quotient does not fit.
(DESIGN CHOICE, log 86) -/
def wrapHours (s : State) (f c : Nat) : Nat :=
  let p := pMaxWatts s f c
  if p = 0 then 0xFFFFFFFF
  else min 0xFFFFFFFF (2 ^ 48 * 10 ^ s.cfg f (K.cctEnergyUnit c) / (1000000 * p))

/-- The apparent term of one phase of a result, in 2^-94 (R113). -/
def phaseSs (r : CRes) (i : Nat) : Int :=
  if r.vec.getD i false then 16 * vecSum (ati r.sp i) (ati r.sq i) else ati r.ss i

/-- The decision units of a result (R111, R113, R115). -/
def unitsOf (s : State) (f : Nat) (r : CRes) : List EUnit :=
  let phs := phasesOf s f r.c
  let vector := decide (s.cfg f (K.cctApparent r.c) = 1)
  if s.cfg f (K.cctSignRule r.c) = 1 then
    (List.range phs.length).map (fun i =>
      { p := ati r.sp i, q := ati r.sq i,
        s := if vector then 16 * vecSum (ati r.sp i) (ati r.sq i) else phaseSs r i, ep := 90, es := 94,
        fs := match phs[i]? with | some p => phaseFs s f p.ch | none => 0 })
  else
    let p := rshift (sumI r.sp) 2
    let q := rshift (sumI r.sq) 2
    [{ p := p, q := q,
       s := if vector then 64 * vecSum p q else sumI ((List.range phs.length).map (phaseSs r)), ep := 88, es := 94,
       fs := sumN (phs.map (fun p => phaseFs s f p.ch)) }]

/-- A sum reaches the creep threshold of its unit (R120): |sum|/16 ≥ CREEP × P_FS. (DEDUCED, log 43) -/
def overCreep (creep : Nat) (u : EUnit) (x : Int) : Bool :=
  decide ((creep * 16 * u.fs : Nat) * (2 : Int) ^ u.ep ≤ mag x * 2 ^ 32 * 64)

/-- What the gate and creep leave of a unit: e_p, e_q, e_s, and whether active and reactive energy were discarded as creep. -/
structure EVal where
  ep : Int
  eq : Int
  es : Int
  cp : Bool
  cq : Bool
  deriving DecidableEq, Repr

/-- The energies of a unit after creep (R112, R120). -/
def unitVal (k creep : Nat) (u : EUnit) : EVal :=
  let pa := overCreep creep u u.p
  let qa := overCreep creep u u.q
  { ep := if pa then energyOf u.ep u.p k else 0, eq := if qa then energyOf u.ep u.q k else 0,
    es := if pa || qa then energyOf u.es u.s k else 0, cp := !pa, cq := !qa }

/-- The 1 s current RMS that governs channel `ch` in frame `f`: of the last window that closed before it, not earlier than frame
`since` (R119). -/
def gateRms (s : State) (f since ch : Nat) : Option Nat :=
  let g := tget {} s.tan.sig ch
  let pick := fun (v : Option Nat) (w : Nat) => if since ≤ w then v else none
  if g.rmsSFn < f ∧ g.rmsS ≠ none then pick g.rmsS g.rmsSFn else pick g.rmsP g.rmsPFn

/-- The start-up gate is open (R119): until the first window closes, or while a phase channel reaches STARTUP × I_FS. -/
def gateOpen (s : State) (f c since : Nat) : Bool :=
  let chs := (phasesOf s f c).map (fun p => p.ch)
  let rms := chs.filterMap (fun ch => (gateRms s f since ch).map (fun v => (v, 2 ^ s.cfg f (K.chGainLow ch))))
  rms.isEmpty || rms.any (fun e => decide ((s.cfg f (K.cctStartup c) * 2 ^ 47) ^ 2 ≤ 2 * (e.1 * e.2 * 2 ^ 32) ^ 2))

/-! ### Missing results (R19) -/

/-- Linear interpolation at step `i` of `n` from `a` to `b`; how it rounds is open. -/
def lerp (a b : Int) (i n : Nat) : Int := odiv (a * ((n : Int) - i) + b * i) n

/-- The estimate of a missing result between two good ones, frame `f` between `fa` and `fb`.  With APPARENT = 1 the apparent energy follows
from the interpolated P and Q. (DESIGN CHOICE, log 104) -/
def estimate (a b : CRes) (f fa fb : Nat) : CRes :=
  let mid := fun (g : CRes → List Int) =>
    (List.range b.sp.length).map (fun i => lerp (ati (g a) i) (ati (g b) i) (f - fa) (fb - fa))
  { b with missing := false, sp := mid (fun r => r.sp), sq := mid (fun r => r.sq),
           ss := (List.range b.sp.length).map (fun i => lerp (phaseSs a i) (phaseSs b i) (f - fa) (fb - fa)),
           vec := b.vec.map (fun _ => false), flags := setBit b.flags 12,
           shp := List.replicate 16 1, shq := List.replicate 16 1 }

/-! ### Absorption (R128, R129) -/

/-- The entries of an absorption by mode: active, and what R129 estimates from frame G's energies.  The direction of the absorbed entry, not that
of frame G, decides between SI and SE. (DESIGN CHOICE, log 109) -/
def absorbEnts (mode sr : Nat) (a x ep eq es : Int) : List Ent :=
  let act : List Ent :=
    if mode = 0 then
      (if sr = 1 then [⟨0, a, 0, a⟩, ⟨1, x, 1, x⟩]
       else if 0 ≤ a - x then [⟨0, a - x, 0, a - x⟩] else [⟨1, x - a, 1, x - a⟩])
    else if mode = 1 then (if 0 ≤ a - x then [⟨0, a - x, 0, a - x⟩] else [⟨0, a - x, 1, x - a⟩])
    else [⟨0, a + x, 0, a + x⟩]
  let est := (act.filter (fun e => decide (e.pamt ≠ 0))).map (fun e =>
    if ep = 0 then []
    else
      let q := quadrant (if mode = 2 then 0 else ep) eq
      let sk := if e.pk = 1 then 7 else 6
      let vq := odiv (e.pamt * mag eq) (mag ep)
      let vs := odiv (e.pamt * es) (mag ep)
      [⟨q, vq, q, vq⟩, ⟨sk, vs, sk, vs⟩])
  act ++ est.flatten

/-- The whole span that frame `g` absorbs lies in the interval in progress (R129). -/
def spanInside (s : State) (g : Nat) (v : Ivl) (from_ : Nat) : Bool :=
  let a := alignClock s g
  (a.1 == v.timed) && decide (v.start ≤ a.2 - ((g : Int) - from_))

/-- Circuit `c` absorbs its channels' baseline deltas at frame `g` (R128); LAST_ABSORBED_AI and AE saturate at their largest value.
(DESIGN CHOICE, log 86) -/
def absorbDo (g c : Nat) (ep eq es : Int) (s : State) : List Ent × State :=
  let chs := (phasesOf s g c).map (fun p => p.ch)
  let d := chs.map (fun n => tget (0, 0) s.bill.absorb n)
  let u := s.cfg g (K.cctEnergyUnit c)
  let a : Int := (sumN (d.map (fun e => e.1)) * 10 ^ (3 - u) : Nat)
  let x : Int := (sumN (d.map (fun e => e.2)) * 10 ^ (3 - u) : Nat)
  let ents := absorbEnts (s.cfg g (K.cctMode c)) (s.cfg g (K.cctSignRule c)) a x ep eq es
  let first := chs.foldl (fun m n => min m (s.get (K.chMarkFn n))) g
  let s := chs.foldl (fun s n =>
    (s.put (K.chLastAbsorbedAi n) (min 0xFFFFFFFF ((tget (0, 0) s.bill.absorb n).1 / 2 ^ 40))).put (K.chLastAbsorbedAe n)
      (min 0xFFFFFFFF ((tget (0, 0) s.bill.absorb n).2 / 2 ^ 40))) s
  let s := enterAll g c ents s
  let inside := match (getC s c).ivl with | some v => spanInside s g v (first + 1) | none => false
  let s := if inside then demandAdd c (entPart 0 ents) (entPart 1 ents) true s else s
  let s := if a = 0 ∧ x = 0 then s else setFlag g c 12 s
  let est := ents.any (fun e => decide (2 ≤ e.kind))
  let s := if est then setFlag g c 13 s else s
  (ents, s)

/-! ### Direction, pulses, status -/

/-- The debounced direction takes a frame that accrued active energy (R118). (DEDUCED, log 43) -/
def directionStep (f c : Nat) (neg : Bool) (s : State) : State :=
  let x := getC s c
  if 1024 ≤ x.dirCnt then s
  else if b2n neg = s.live (K.cctDirection c) then (if x.dirCnt = 0 then s else setC c { x with dirCnt := 0 } s)
  else setC c { x with dirCnt := x.dirCnt + 1, dirFirst := if x.dirCnt = 0 then f else x.dirFirst, dirFn := f } s

/-- Increments by kind that pulses take (R204). -/
def pulseInc (es : List Ent) : List Int := (List.range 8).map (fun k => entPart k es)

/-- |e_p| exceeds P_MAX × 976.5625 µs (R124). -/
def overPmax (s : State) (f c : Nat) (ep : Int) : Bool :=
  decide ((pMaxWatts s f c * 9765625 * 2 ^ 40 : Nat) < mag ep * 10 ^ s.cfg f (K.cctEnergyUnit c) * 36000000)

/-- Bits of the profile record that a frame sets (Table 12.13). -/
def profBits (s : State) (f status : Nat) : Nat :=
  128 * b2n (!hasTime s f) + 64 * b2n (staleFor s f) + 32 * b2n (bit status 12) + 8 * b2n (bit status 11) +
  4 * b2n (bit status 9) + 2 * b2n (bit status 10)

/-- The balance takes a participating circuit's measured e_p, in 2^-40 µWh, and whether the frame is to be left out (R130, R131). -/
def balanceNote (f c status : Nat) (ep : Int) (r : R3) (s : State) : R3 :=
  if s.cfg f (K.cctBalanceRole c) = 0 then r
  else { r with bal := r.bal ++ [(c, ep * 10 ^ s.cfg f (K.cctEnergyUnit c))],
                balSkip := r.balSkip || bit status 12 || bit status 9 || r.lost }

/-- One circuit-frame result is accrued (R115): `r` is measured or estimated, `fr` the RING-3 frame it belongs to.  Frame G's ratios and
quadrant for R129 are those of the sums over the decision units of what its gate and creep leave. (DEDUCED, log 43; DESIGN CHOICE, log 86) -/
def accrueCct (fr : R3) (r : CRes) (s : State) : R3 × State :=
  let f := fr.fn
  let c := r.c
  let x := getC s c
  let k := s.cfg f (K.cctEnergyK c)
  let mode := s.cfg f (K.cctMode c)
  let ep := energyOf 88 (rshift (sumI r.sp) 2) k
  let eq := energyOf 88 (rshift (sumI r.sq) 2) k
  let us := unitsOf s f r
  let es := sumI (us.map (fun u => energyOf u.es u.s k))
  let gate := gateOpen s f c x.since
  let vs := if gate then us.map (unitVal k (s.cfg f (K.cctCreep c))) else us.map (fun _ => ⟨0, 0, 0, false, false⟩)
  let ents := (vs.map (fun v => unitEnts mode v.ep v.eq v.es)).flatten
  let accrues := gate && vs.any (fun v => !v.cp)
  let ovr := overPmax s f c ep
  let s := enterAll f c ents s
  let s := demandAdd c (entPart 0 ents) (entPart 1 ents) false s
  let s := if accrues then directionStep f c (decide (ep < 0)) s else s
  let (abs, s) := if s.bill.g = some f then
      absorbDo f c (sumI (vs.map (fun v => v.ep))) (sumI (vs.map (fun v => v.eq))) (sumI (vs.map (fun v => v.es))) s
    else ([], s)
  let absd := decide (s.bill.g = some f)
  let status := r.flags ||| (if abs.any (fun e => decide (2 ≤ e.kind)) then 0x1000 else 0)
  let status := status + 256 * b2n ovr + 128 * b2n gate + 64 * b2n (vs.any (fun v => v.cp)) +
    32 * b2n (vs.any (fun v => v.cq)) + 16 * b2n (decide (ep < 0)) + 8 * s.live (K.cctDirection c) + 4 * b2n absd
  let s := if bit r.flags 12 then setFlag f c 13 s else s
  let s := if hasTime s f then s else setFlag f c 15 s
  let s := if staleFor s f then setFlag f c 14 s else s
  let s := if ovr then s.bump (K.cctOverPmax c) else s
  let scale := 10 ^ s.cfg f (K.cctEnergyUnit c) * 1000
  let s := (((s.putDue f (K.cctStatus c) status).putDueI f (K.cctFrameEp c) (odiv (ep * scale) (2 ^ 40))).putDueI f
    (K.cctFrameEq c) (odiv (eq * scale) (2 ^ 40))).putDueI f (K.cctFrameEs c) (odiv (es * scale) (2 ^ 40))
  let s := s.putDue f (K.cctTariff c) (x.tariff.getD 0)
  let x := getC s c
  let s := setC c { x with ents := ents, last := some r, prof := x.prof ||| profBits s f status } s
  let s := { s with bill := { s.bill with fp := s.bill.fp ++
    [{ c := c, inc := pulseInc (ents ++ abs), shp := r.shp, shq := r.shq, unit := s.cfg f (K.cctEnergyUnit c) }] } }
  (balanceNote f c status ep fr s, s)

end Sys2Proof.Machine
end

