-- ==== Sys2Proof/Machine/Boundary.lean ====
section
/-! DEFINITION. What comes before the first entry of a frame (R122, R175 to R197, R353): changes of configuration, demand interval
closes, period closes, tariff switches, waits for forced rolls, stale state, profile intervals. -/

namespace Sys2Proof.Machine

/-! ### Demand (R175 to R181) -/

/-- Length of a sub-interval in frames (R176). -/
def ivlLen (mins subs : Nat) : Nat := 61440 * mins / (max 1 subs)

/-- The aligned interval that contains frame `f` under its settings. -/
def newIvl (s : State) (f c : Nat) (short : Bool) : Ivl :=
  let mins := s.cfg f (K.demInterval c)
  let subs := s.cfg f (K.demSubint c)
  let len := ivlLen mins subs
  let a := alignStart s f len
  { timed := a.1, start := a.2, len := len, mins := mins, slide := decide (s.cfg f (K.demMethod c) = 1), subs := subs,
    short := short, tinv := !hasTime s f, born := f }

/-- d = floor(e × 10^(u−6) × 60 / interval), in W (R178). -/
def demandWatts (e : Int) (u mins : Nat) : Nat :=
  min 0xFFFFFFFF (e.toNat * 10 ^ u * 60 / (max 1 mins * 1000000 * 2 ^ 40))

/-- A maximum is replaced only by a strictly greater value (R180); `i` is 0 import, 2 export. -/
def maxTake (f c t i d time : Nat) (s : State) : State :=
  if s.live (K.md c (4 * t + i)) < d then (s.putDue f (K.md c (4 * t + i)) d).putDue f (K.md c (4 * t + i + 1)) time else s

/-- The tariff with the largest maximum among a list, and its time. -/
def maxOver (s : State) (c i : Nat) : List Nat → Nat × Nat
  | [] => (0, noTime)
  | t :: ts =>
    let r := maxOver s c i ts
    if r.1 ≤ s.live (K.md c (4 * t + i)) ∧ s.live (K.md c (4 * t + i)) ≠ 0 then
      (s.live (K.md c (4 * t + i)), s.live (K.md c (4 * t + i + 1))) else r

/-- The TOTAL maxima follow (R180). -/
def maxTotals (f c : Nat) (s : State) : State :=
  let a := maxOver s c 0 (List.range 8)
  let b := maxOver s c 2 (List.range 8)
  (((s.putDue f (K.md c 32) a.1).putDue f (K.md c 33) a.2).putDue f (K.md c 34) b.1).putDue f (K.md c 35) b.2

/-- The energy that a demand value rests on: the interval, or the last SUBINT sub-intervals (R178), and whether it is SHORT. -/
def ivlEnergy (v : Ivl) (prev : List Sub) : Int × Int × Bool :=
  if v.slide then
    let p := prev.take (v.subs - 1)
    (v.imp + sumI (p.map (fun x => x.imp)), v.exp + sumI (p.map (fun x => x.exp)),
     v.short || p.any (fun x => x.short) || decide (p.length + 1 < v.subs))
  else (v.imp, v.exp, v.short)

/-- The TIME48 of an interval's end: its aligned end once passed, or the tick of the frame that cuts it. (DEDUCED, log 44) -/
def ivlEnd (s : State) (f : Nat) (v : Ivl) : Nat :=
  if hasTime s f then
    let e := v.start + v.len - utcFrames s f
    if v.timed ∧ 0 ≤ e ∧ e ≤ (s.timeOf f : Int) then e.toNat else s.timeOf f
  else noTime

/-- What a closed interval shows and the maxima that it raises (R178 to R180); the answer says whether it is SHORT. -/
def evalMaxima (f c t time : Nat) (v : Ivl) (prev : List Sub) (s : State) : Bool × State :=
  let (imp, exp, short) := ivlEnergy v prev
  let u := s.cfg f (K.cctEnergyUnit c)
  let di := demandWatts imp u v.mins
  let de := demandWatts exp u v.mins
  let tinv := v.tinv || decide (time = noTime)
  let at_ := if tinv then noTime else time
  let s := maxTotals f c (maxTake f c t 2 de at_ (maxTake f c t 0 di at_ s))
  let s := ((s.putDue f (K.demLastImport c) di).putDue f (K.demLastExport c) de).putDue f (K.demLastEnd c) at_
  (short, (s.putDue f (K.demLastTariff c) t).putDue f (K.demLastFlags c) (b2n short + 2 * b2n tinv + 4 * b2n v.absb))

/-- A closed interval is evaluated against a tariff, and logged when it is SHORT (R178 to R181). -/
def evalIvl (f c t time : Nat) (v : Ivl) (prev : List Sub) (s : State) : State :=
  let (short, s) := evalMaxima f c t time v prev s
  if short then (s.bump (K.demShortCount c)).eventAt f 0x0202
    [c, s.live (K.demLastEnd c), s.live (K.demLastImport c), s.live (K.demLastExport c)] else s

/-- Sub-intervals that passed without accrual count as zero and are SHORT (R178, R179). -/
def gapSubs (v w : Ivl) : List Sub :=
  if v.timed = w.timed ∧ v.len = w.len ∧ v.len ≠ 0 ∧ v.start + v.len < w.start then
    List.replicate (min 14 ((w.start - v.start - v.len) / v.len).toNat) ⟨0, 0, true⟩ else []

/-- The interval in progress of a circuit closes at frame `f` (R177 to R181), attributed to the tariff of frame f − 1; the aligned
interval that contains `f` starts, SHORT when the close was forced; `fresh` starts new sub-intervals. -/
def closeIvl (f c : Nat) (forced fresh : Bool) (s : State) : State :=
  let x := getC s c
  match x.ivl with
  | none => s
  | some v =>
    if x.susp then s
    else
      let v := { v with short := v.short || forced }
      let t := x.tariff.getD 0
      let time := ivlEnd s f v
      let s := evalIvl f c t time v x.subs s
      let w := newIvl s f c forced
      let subs := if fresh then [] else ((gapSubs v w).reverse ++ ⟨v.imp, v.exp, v.short⟩ :: x.subs).take 14
      setC c { x with ivl := some w, subs := subs,
                      closing := some { ivl := v, prev := x.subs, tariff := t, fn := f, time := time } } s

/-- The demand objects of a circuit follow its interval (Table 6.15). -/
def showDemand (f c : Nat) (s : State) : State :=
  let x := getC s c
  match x.ivl with
  | none => ((s.putDue f (K.demState c) 2).putDue f (K.demEImport c) 0).putDue f (K.demEExport c) 0
  | some v =>
    let st := v.start - (if v.timed then utcFrames s f else 0)
    (((s.putDue f (K.demState c) (b2n x.susp)).putDue f (K.demStartTime c) (if v.timed then ofInt 48 st else noTime)).putDue f
      (K.demEImport c) ((v.imp / 2 ^ 40).toNat % 2 ^ 48)).putDue f (K.demEExport c) ((v.exp / 2 ^ 40).toNat % 2 ^ 48)

/-! ### Change of unit, definition and demand settings at frame B (R105, R122, R181, R38) -/

/-- One register is rescaled; the AI register of a SIGNED circuit is a signed total. -/
def rescaleReg (f c i old new : Nat) (signed : Bool) (s : State) : State :=
  let t : Int := if signed then toInt 104 (regTot s c i) else (regTot s c i : Int)
  putReg f c i (rescaleI t old new % (2 ^ 104 : Int)).toNat s

/-- GECKO_E of a circuit, a register with a fraction in the circuit's unit (R405), is rescaled like the others, and its page is stored. -/
def rescaleGecko (c old new : Nat) (s : State) : State :=
  let k := K.geckoE c
  let t := (rescaleI ((s.get k * 2 ^ 40 + s.get (fracKey k) : Nat) : Int) old new).toNat
  if t = s.get k * 2 ^ 40 + s.get (fracKey k) then s
  else postJob { page := pageOf k, fn := s.fn } ((s.put k (t / 2 ^ 40 % 2 ^ oBits k)).put (fracKey k) (t % 2 ^ 40))

/-- Every register of a circuit and its demand accumulators are rescaled at B, with a forced roll (R122, R191). -/
def rescaleCct (f c old new : Nat) (s : State) : State :=
  let signed := decide (s.cfg f (K.cctMode c) = 1)
  let s := (List.range 64).foldl (fun s i => rescaleReg f c i old new (signed && decide (i % 8 = 0)) s) s
  let s := (List.range 8).foldl (fun s k => putReg f c (64 + k) (setSum s c k) s) s
  let s := [K.cctFundAi c, K.cctFundAe c].foldl (fun s k => putTotal f k (rescaleI (regTotal s k : Nat) old new).toNat s) s
  let s := rescaleGecko c old new s
  let x := getC s c
  let r := fun y => rescaleI y old new
  let s := setC c { x with
    ivl := x.ivl.map (fun v => { v with imp := r v.imp, exp := r v.exp }),
    subs := x.subs.map (fun b => { b with imp := r b.imp, exp := r b.exp }),
    closing := x.closing.map (fun k => { k with
      ivl := { k.ivl with imp := r k.ivl.imp, exp := r k.ivl.exp },
      prev := k.prev.map (fun b => { b with imp := r b.imp, exp := r b.exp }) }),
    slotA := x.slotA.map (fun y => { y with d := y.d.map r, held := y.held.map r, kept := y.kept.map r }),
    slotB := x.slotB.map (fun y => { y with d := y.d.map r, held := y.held.map r, kept := y.kept.map r }),
    unit := new, base := x.base.map (fun (b : Nat) => (rescaleI (b : Int) old new).toNat) } s
  let s := (s.put (K.cctUnitFn c) f).eventAt f (openCode 122) [c, old, new, f]
  forceRoll [c] s

/-- The objects of a circuit's live values (Tables 4.10, 5.12), its fundamental registers apart. -/
def liveCctKeys (c : Nat) : List Nat :=
  (List.range 14).map (fun i => K.cctFrameEp c + i) ++ (List.range 51).map (K.cctPH c) ++
    [K.cctPHarm c, K.cctIResidual c, K.cctPqState c]

/-- A circuit is defined at B (R105): its interval starts SHORT.  An interval of its earlier definition that still waits to close goes on
waiting, and its own starts where that one closes; it takes the tariff and period in effect at once where the journal has room for them,
and otherwise its schedule waits (R191). -/
def defineCct (f c : Nat) (s : State) : State :=
  let x := getC s c
  let waits := x.ivl.isSome
  let sc := s.cfg f (K.cctSchedule c)
  let t := tariffOf s f sc
  let x : BCct := { x with
    since := f, last := none, ents := [], ivl := some (x.ivl.getD (newIvl s f c true)), subs := if waits then x.subs else [],
    susp := if waits then x.susp else staleFor s f, cut := waits, fresh := waits, prof := x.prof ||| 0x11, dirCnt := 0 }
  let x := if slotRoom t (periodNow s sc) x then { x with tariff := some t, period := periodNow s sc } else x
  showDemand f c (setC c x s)

/-- The interval in progress of circuit `c` is to close SHORT at the first frame that has room for it (R181, R191). -/
def cutIvl (c : Nat) (fresh : Bool) (s : State) : State :=
  setC c { getC s c with cut := true, fresh := fresh || (getC s c).fresh } s

/-- A circuit is undefined at B (R38, R105): its interval closes SHORT, its values read DISABLED. -/
def undefineCct (f c : Nat) (s : State) : State :=
  let x := getC s c
  let s := setC c { x with cut := true, fresh := true, last := none, ents := [], prof := x.prof ||| 1 } s
  (liveCctKeys c).foldl (fun s k => s.putDue f k 0) ((s.putDue f (K.cctStatus c) 0x8000).putDue f (K.cctHStatus c) 0x8000)

/-- What the settings that govern from frame `f` bring about in circuit `c`. -/
def cfgCct (f c : Nat) (s : State) : State :=
  let old := decide (s.cfg (f - 1) (K.cctKind c) ≠ 0)
  let new := decide (s.cfg f (K.cctKind c) ≠ 0)
  let s := if changesAt s f (K.cctEnergyUnit c) then
      rescaleCct f c (s.cfg (f - 1) (K.cctEnergyUnit c)) (s.cfg f (K.cctEnergyUnit c)) s else s
  if !old && new then defineCct f c s
  else if old && !new then undefineCct f c s
  else if new && (changesAt s f (K.demInterval c) || changesAt s f (K.demMethod c) || changesAt s f (K.demSubint c)) then
    cutIvl c true s
  else s

/-- The aligned start of the interval of `len` frames in progress before frame `f`, under the UTC_OFFSET of `f` (R176): an interval that
ends at the tick of `f` itself is the one before the aligned interval of `f`. -/
def shiftStart (s : State) (f len : Nat) : Int :=
  let a := (alignStart s f len).2
  if (alignClock s f).2 = a then a - len else a

/-- The interval in progress under a new UTC_OFFSET (R176): it ends at the first tick that meets the rule with the new offset, and is
SHORT unless it is the same span of time (R179). (DEDUCED, log 44) -/
def shiftIvl (f : Nat) (s : State) (v : Ivl) : Ivl :=
  if v.timed then
    let a := shiftStart s f v.len
    { v with start := a, short := v.short || decide (a - utcFrames s f ≠ v.start - utcFrames s (f - 1)) }
  else v

/-- The intervals in progress, and the load profile's, follow a change of UTC_OFFSET at `f` (R176). -/
def cfgOffset (f : Nat) (s : State) : State :=
  if changesAt s f K.calUtcOffset then
    { s with bill := { s.bill with
      cct := s.bill.cct.map (fun e => (e.1, { e.2 with ivl := e.2.ivl.map (shiftIvl f s) })),
      profAt := s.bill.profAt.map (fun (p : Bool × Int × Nat) => if p.1 then (p.1, shiftStart s f p.2.2, p.2.2) else p) } }
  else s

/-- An output whose rule changes at `f` discards its accumulator and pending pulses, and DISCARDED counts one for the accumulator and
one for each pulse (R205). (DEDUCED, log 91) -/
def cfgPulse (f i : Nat) (s : State) : State :=
  if changesAt s f (K.poQuantity i) || changesAt s f (K.poQMask i) || changesAt s f (K.poConstant i) ||
      changesAt s f (K.poCctMask i) then
    let o := tget {} s.pulse.out i
    let s := { s with pulse := { s.pulse with out := tset {} s.pulse.out i { o with acc := 0, due := [] } } }
    s.bumpBy (K.poDiscarded i) (o.due.length + 1)
  else s

/-- A circuit whose PT_K changes at `f` discards its accumulator and pending pulses and counts them, in a count that no object shows
(R205). (DEDUCED, log 91) -/
def cfgTrain (f c : Nat) (s : State) : State :=
  if changesAt s f (K.ptK c) then
    let old := tget {} s.pulse.pt c
    { s with pulse := { s.pulse with pt := tset {} s.pulse.pt c { disc := (old.disc + old.pend + 1) % 2 ^ 32 } } }
  else s

/-- Every change of settings at frame `f`. (DEDUCED, log 38) -/
def cfgFrame (f : Nat) (s : State) : State :=
  if commitAt s f then
    let s := (List.range 256).foldl (fun s c => cfgTrain f c (cfgCct f c s)) (cfgOffset f s)
    (List.range 8).foldl (fun s i => cfgPulse f i s) s
  else s

/-! ### Waits (R191) -/

/-- The wait of a boundary event. -/
def waitOf (s : State) (kind id : Nat) : Option Wait := s.bill.waits.find? (fun w => decide (w.kind = kind) && decide (w.id = id))

/-- A boundary event begins to wait: the forced roll of the circuits concerned is posted. -/
def waitStart (f kind id : Nat) (late : Bool) (cs : List Nat) (s : State) : State :=
  let w : Wait := { kind := kind, id := id, since := f, time := s.timeOf f, late := late }
  let s := { s with bill := { s.bill with waits := s.bill.waits ++ [w] } }
  forceRoll cs (s.bump K.waits)

/-- A waited event takes effect at frame `f`: BOUNDARY-DELAYED, WAIT_FRAMES and SWITCH-DELAYED. -/
def waitEnd (f : Nat) (w : Wait) (cs : List Nat) (s : State) : State :=
  let s := { s with bill := { s.bill with waits := s.bill.waits.filter (fun v => decide (v ≠ w)) } }
  let s := (s.bumpBy K.waitFrames (f - w.since)).eventAt f 0x0204 [w.id, w.time, f - w.since]
  cs.foldl (fun s c => setFlag f c 10 s) s

/-- A clock step or a resumption meets the wait of schedule `sc`: a close that it passes keeps its cause 2 (R188). -/
def waitLate (sc : Nat) (s : State) : State :=
  { s with bill := { s.bill with waits := s.bill.waits.map (fun w => if w.kind = 0 ∧ w.id = sc then { w with late := true } else w) } }

/-- An event that needs room takes effect now, or waits (R191): `blocked` are the circuits without room, `cs` those concerned. -/
def mayAct (f kind id : Nat) (late : Bool) (blocked cs : List Nat) (s : State) : Bool × State :=
  match waitOf s kind id with
  | some w => if w.ready ∧ blocked = [] then (true, waitEnd f w cs s) else (false, s)
  | none => if blocked = [] then (true, s) else (false, waitStart f kind id late blocked s)

/-! ### Intervals, periods and tariffs (R189, R190) -/

/-- The interval of circuit `c` ends at or before the tick of frame `f`, or its clock has changed (R176, R187). -/
def ivlEnds (s : State) (f : Nat) (v : Ivl) : Bool :=
  let a := alignStart s f v.len
  decide (a.1 ≠ v.timed) || decide (v.start ≠ a.2)

/-- A RESUME took effect in the interval (R198): the interval that contains its B starts anew. -/
def resumedIn (s : State) (f : Nat) (v : Ivl) : Bool :=
  let b := s.get K.resumeFn
  decide (v.born < b) && decide (b ≤ f)

/-- A circuit's interval closes at frame `f` and the next one starts; a circuit that is no longer defined has none (R38). -/
def endIvl (f c : Nat) (forced fresh : Bool) (s : State) : State :=
  let s := closeIvl f c forced fresh s
  let x := getC s c
  if s.cfg f (K.cctKind c) = 0 then showDemand f c (setC c { x with ivl := none, subs := [], susp := false, cut := false, fresh := false } s)
  else setC c { x with cut := false, fresh := false } s

/-- The circuit's interval closes if it ends, waiting while the closing slot is held; a close that is forced stays so while it
waits (R190 step 2, R191). -/
def ivlStep (f c : Nat) (stepNow : Bool) (s : State) : Bool × State :=
  let x := getC s c
  match x.ivl with
  | none => (false, s)
  | some v =>
    let stale := staleFor s f
    if x.susp = true ∧ s.cfg f (K.cctKind c) = 0 then (false, endIvl f c true true s)
    else if stale = true ∧ x.susp = false then
      let (go, s) := mayAct f 1 c false (if x.closing = none then [] else [c]) [c] s
      if go then
        let s := setFlag f c 8 (endIvl f c true true s)
        let y := getC s c
        (true, setC c { y with susp := y.ivl.isSome, ivl := y.ivl.map (fun v => { v with imp := 0, exp := 0 }) } s)
      else (false, s)
    else if stale then (false, if bit (s.live (K.cctFlags c)) 8 then s else setFlag f c 8 s)
    else if x.susp then (true, setC c { x with susp := false, cut := false, fresh := false, ivl := some (newIvl s f c true), subs := [] } s)
    else if stepNow || x.cut || ivlEnds s f v || resumedIn s f v then
      let forced := stepNow || x.cut || resumedIn s f v || !decide ((alignClock s f).1 = v.timed)
      let (go, s) := mayAct f 1 c false (if x.closing = none then [] else [c]) [c] s
      if go then (true, endIvl f c forced x.fresh s) else (false, if forced then cutIvl c false s else s)
    else if hasTime s f then (false, s) else (false, setC c { x with ivl := some { v with tinv := true } } s)

/-- The step over a list of circuits; those whose interval closed. -/
def ivlSteps (f : Nat) (stepNow : Bool) : List Nat → State → List Nat × State
  | [], s => ([], s)
  | c :: cs, s =>
    let (a, s) := ivlStep f c stepNow s
    let (b, s) := ivlSteps f stepNow cs s
    (if a then c :: b else b, s)

/-- The circuits of schedule `sc` in frame `f`. -/
def schedCcts (s : State) (f sc : Nat) : List Nat := (definedCcts s f).filter (fun c => decide (s.cfg f (K.cctSchedule c) = sc))

/-- The cause with which schedule `sc` closes its period at frame `f`, if it does: 0 calendar, 1 CLOSE_NOW, 2 after a step or at a
resumption (R184, R187, R188). -/
def closeCause (s : State) (f sc : Nat) (late : Bool) : Option Nat :=
  let cal := match lastClose s f sc with | some t => decide (s.get (K.bpHwm sc) < t) | none => false
  if cal then some (if late then 2 else 0)
  else if s.bill.closes.any (fun e => bit e.1 sc && decide (e.2 ≤ f)) then some 1 else none

/-- What the journal slots keyed to the period after `no` of a schedule hold of register `i` (R195). -/
def laterPart (x : BCct) (sc no i : Nat) : Int :=
  sumI ([x.slotA, x.slotB].map (fun o => match o with
    | some y => if y.period = periodKey sc (no + 1) ∧ (64 ≤ i ∨ y.tariff = i / 8) then ati y.d (i % 8) + ati y.kept (i % 8) else 0
    | none => 0))

/-- A register of period `no`: what it holds less the slots of the period after it (R195). -/
def histTot (s : State) (c sc no i : Nat) : Nat := (((regTot s c i : Int) - laterPart (getC s c) sc no i) % (2 ^ 104 : Int)).toNat

/-- The registers and wrap counts of a circuit in a period record (R183, R195). -/
def histRegs (s : State) (sc no c : Nat) : List Nat × List Nat :=
  let ts := (List.range 72).map (histTot s c sc no)
  (ts.map (fun t => t / 2 ^ 40 % 2 ^ 48), ts.map (fun t => t / 2 ^ 88))

/-- The entry of a circuit in a period record: registers, wrap counts, maxima and times, FLAGS (R183). -/
def histEntry (s : State) (sc no c : Nat) : Nat × List Nat × List Nat × List Nat × Nat :=
  let r := histRegs s sc no c
  (c, r.1, r.2, (List.range 32).map (fun i => s.live (K.md c i)), s.live (K.cctFlags c))

/-- The maxima of a circuit restart (R183). -/
def clearMaxima (f c : Nat) (s : State) : State :=
  maxTotals f c ((List.range 32).foldl (fun s i => s.putDue f (K.md c i) (if i % 2 = 0 then 0 else noTime)) s)

/-- The billing period of schedule `sc` closes at frame `f` (R183, R188). -/
def closePeriod (f sc cause bsn : Nat) (s : State) : State :=
  let cs := schedCcts s (f - 1) sc
  let no := s.get (K.bpPeriodNo sc)
  let h : HistRec := { sched := sc, period := no, cause := cause, fn := f, time := s.timeOf f, bsn := bsn,
                       ccts := cs.map (histEntry s sc no) }
  let left := (s.bill.closes.map (fun e => if e.2 ≤ f then (clearBit e.1 sc, e.2) else e)).filter (fun e => decide (e.1 ≠ 0))
  let s := { s with bill := { s.bill with hist := s.bill.hist ++ [h], closes := left, closedAt := tins s.bill.closedAt sc f } }
  let s := cs.foldl (fun s c => (clearMaxima f c s).putDue f (K.cctFlags c) 0) s
  let s := s.put (K.bpPeriodNo sc) ((no + 1) % 2 ^ 32)
  let s := if cause = 1 then s else match lastClose s f sc with | some t => s.put (K.bpHwm sc) t | none => s
  s.eventAt f 0x0201 [sc, no, cause, bsn]

/-- The circuits of a schedule take the period and tariff in effect. -/
def takeKeys (f sc t : Nat) (s : State) : State :=
  (schedCcts s f sc).foldl (fun s c =>
    setC c { getC s c with tariff := some t, period := periodNow s sc } s) s

/-- What a schedule does at a frame (R190 steps 3 and 4): its incoming tariff, the cause of its close if it closes, whether its tariff
switches, and whether the tariff of any circuit on it does. -/
structure SchedPlan where
  sc     : Nat
  tariff : Nat
  cause  : Option Nat
  switch : Bool
  moved  : Bool
  deriving DecidableEq, Repr

/-- What schedule `sc` does at frame `f`, unless it waits while a circuit has no slot for the new key (R191). -/
def schedPlan (f : Nat) (late : Bool) (sc : Nat) (s : State) : Option SchedPlan × State :=
  let cs := schedCcts s f sc
  let t := tariffOf s f sc
  let cur := s.bill.sched.getD sc none
  let s := if late then waitLate sc s else s
  let late := late || (match waitOf s 0 sc with | some w => w.late | none => false)
  let cause := closeCause s f sc late
  let key := periodKey sc (s.get (K.bpPeriodNo sc) + b2n (decide (cause ≠ none)))
  let new := cs.any (fun c => decide ((getC s c).tariff ≠ some t) || decide ((getC s c).period ≠ key))
  if cause = none ∧ cur = some t ∧ new = false then (none, s)
  else
    let (go, s) := mayAct f 0 sc late (cs.filter (fun c => !slotRoom t key (getC s c))) cs s
    if go then
      let turned := cs.any (fun c => decide (s.cfg (f - 1) (K.cctKind c) ≠ 0) && decide ((getC s c).tariff ≠ none) &&
        decide ((getC s c).tariff ≠ some t))
      let switch := decide (cur ≠ some t) && decide (cur ≠ none)
      (some { sc := sc, tariff := t, cause := cause, switch := switch, moved := switch || turned }, s)
    else (none, s)

/-- The plans of the schedules, in order. -/
def schedPlans (f : Nat) (late : Bool) : List Nat → State → List SchedPlan × State
  | [], s => ([], s)
  | sc :: l, s =>
    let (p, s) := schedPlan f late sc s
    let (ps, s) := schedPlans f late l s
    (p.toList ++ ps, s)

/-- Step 3 of R190: every period that is due closes. -/
def closeSteps (f bsn : Nat) (ps : List SchedPlan) (s : State) : State :=
  ps.foldl (fun s p => match p.cause with | some k => closePeriod f p.sc k bsn s | none => s) s

/-- Step 4 of R190 for one schedule: its incoming tariff is recorded, and its circuits take their keys. -/
def switchStep (f bsn : Nat) (p : SchedPlan) (s : State) : State :=
  let cur := s.bill.sched.getD p.sc none
  let s := if p.switch then (s.bump (K.schSwitches p.sc)).eventAt f 0x0200 [p.sc, cur.getD 0, p.tariff, bsn] else s
  takeKeys f p.sc p.tariff { s with bill := { s.bill with
    sched := (List.range 4).map (fun i => if i = p.sc then some p.tariff else s.bill.sched.getD i none) } }

/-- Step 4 of R190. -/
def switchSteps (f bsn : Nat) (ps : List SchedPlan) (s : State) : State := ps.foldl (fun s p => switchStep f bsn p s) s

/-- The boundary record is opened with steps 1 and 2 done (R189, R190). -/
def boundaryOpen (b : Bound) (s : State) : State :=
  (((s.put K.bsn b.bsn).put K.boundaryFn b.fn).put K.boundaryTime b.time).put K.stepsDone b.steps

/-- The boundary record with one more step done (R190). -/
def stepDone (k : Nat) (s : State) : State :=
  let w := setBit (s.get K.stepsDone) (k - 1)
  { s with bill := { s.bill with bound := { s.bill.bound with steps := w } } }.put K.stepsDone w

/-- The kinds present per schedule (R189): 1 where an interval of its circuits ended, 2 a close, 4 a switch, 8 a clock step.
(DESIGN CHOICE, log 89) -/
def boundKinds (s : State) (f : Nat) (stepped : Bool) (closed : List Nat) (ps : List SchedPlan) : List Nat :=
  (List.range 4).map (fun sc =>
    b2n (closed.any (fun c => decide (s.cfg f (K.cctSchedule c) = sc))) +
    2 * b2n (ps.any (fun p => decide (p.sc = sc) && decide (p.cause ≠ none))) +
    4 * b2n (ps.any (fun p => decide (p.sc = sc) && p.moved)) + 8 * b2n stepped)

/-- The record of a boundary frame (R189). -/
def boundOf (s : State) (f bsn : Nat) (kinds : List Nat) (ps : List SchedPlan) : Bound :=
  let outs := (List.range 4).map (fun sc => (s.bill.sched.getD sc none).getD 0)
  { bsn := bsn, fn := f, time := s.timeOf f, kinds := kinds, outs := outs,
    incs := (List.range 4).map (fun sc => match ps.find? (fun p => decide (p.sc = sc)) with | some p => p.tariff | none => outs.getD sc 0),
    steps := 3 }

/-- Steps 3 and 4 of R190 at frame `f`, after the intervals in `closed` have closed; whether it is a boundary frame (R189). -/
def boundaries (f : Nat) (late stepped : Bool) (closed : List Nat) (s : State) : Bool × State :=
  let bsn := (s.get K.bsn + 1) % 2 ^ 32
  let (ps, s) := schedPlans f late (List.range 4) s
  let kinds := boundKinds s f stepped closed ps
  if kinds.any (fun k => decide (k ≠ 0)) then
    let b := boundOf s f bsn kinds ps
    let s := boundaryOpen b { s with bill := { s.bill with bound := b } }
    (true, stepDone 4 (switchSteps f bsn ps (stepDone 3 (closeSteps f bsn ps s))))
  else (false, switchSteps f bsn ps s)

/-- What the calendar shows may change in frame `f` without a boundary: a local day begins, or NEXT_SWITCH has passed. -/
def calendarTurns (s : State) (f : Nat) : Bool :=
  hasTime s f && (!hasTime s (f - 1) ||
    decide (localOf s f (s.timeOf f) / perDay ≠ localOf s (f - 1) (s.timeOf (f - 1)) / perDay) ||
    (List.range 4).any (fun sc => decide (s.live (K.schNextSwitch sc) ≤ s.timeOf f)))

/-- TARIFF_NOW, PROFILE_NOW, NEXT_SWITCH and NEXT_CLOSE of frame `f` (Tables 6.16, 6.17); profile and next switch are searched where
they can change. -/
def showCalendar (f : Nat) (changed : Bool) (s : State) : State :=
  let s := (List.range 4).foldl (fun s sc => s.putDue f (K.schTariffNow sc) ((s.bill.sched.getD sc none).getD 0)) s
  if changed || calendarTurns s f then
    (List.range 4).foldl (fun s sc =>
      let t := s.live (K.schTariffNow sc)
      ((s.putDue f (K.schProfileNow sc) (if hasTime s f then (calTariff s f sc (s.timeOf f)).2 else 0)).putDue f
        (K.schNextSwitch sc) (nextSwitch s f sc t)).putDue f (K.bpNextClose sc) (nextClose s f sc)) s
  else s

/-! ### Load profile (R353) -/

/-- The entry of circuit `c` in a profile record (Table 12.13). (DEDUCED, log 46) -/
def profEntry (s : State) (f kinds c : Nat) : Bytes :=
  let st := (getC s c).prof ||| (if s.cfg f (K.cctKind c) = 0 then 1 else 0)
  le 1 c ++ le 1 st ++ ((List.range 6).filter (fun k => bit kinds k)).flatMap (fun k => le 6 (s.live (K.cctReg c (64 + k))))
    ++ ((List.range 2).filter (fun k => bit kinds (6 + k))).flatMap (fun k => le 6 (s.live (K.cctReg c (70 + k))))

/-- A profile record (Table 12.12) with its CRC. -/
def profRecord (seq endTime endFn gen kinds mins count : Nat) (body : Bytes) : Bytes :=
  let head := le 2 1 ++ le 2 (32 + body.length) ++ le 4 seq ++ le 6 endTime ++ le 6 endFn ++ le 4 gen ++ le 1 kinds ++
    le 1 mins ++ le 2 count
  head ++ le 4 (crc32 (head ++ le 4 0 ++ body)) ++ body

/-- The profile interval ends at the tick of frame `f`: its record is built from the registers at the end of frame f − 1.
(DEDUCED, log 46) -/
def profBuild (f : Nat) (s : State) : State :=
  let g := f - 1
  let kinds := s.cfg g K.profileKinds
  let mask := s.cfg g K.profileMask
  let cs := (List.range 256).filter (fun c => bit mask c)
  let seq := (s.get K.profileSeq + 1) % 2 ^ 32
  let rec_ := profRecord seq (s.timeOf f) g (s.genOf g) kinds (s.cfg g K.profileMin) cs.length (cs.flatMap (profEntry s g kinds))
  let s := s.put K.profileSeq seq
  { s with bill := { s.bill with profDue := s.bill.profDue ++ [(seq, rec_)], cct := s.bill.cct.map (fun e => (e.1, { e.2 with prof := 0 })) } }

/-- Profile intervals at the start of frame `f`. (DEDUCED, log 46) -/
def profStep (f : Nat) (s : State) : State :=
  let len := 61440 * s.cfg f K.profileMin
  let a := alignStart s f len
  let now := (a.1, a.2, len)
  let s := if s.cfg (f - 1) K.profileEn = 1 ∧ s.bill.profAt ≠ none ∧ s.bill.profAt ≠ some now then profBuild f s else s
  let s := if s.cfg (f - 1) K.profileEn ≠ 1 ∧ s.cfg f K.profileEn = 1 then
      { s with bill := { s.bill with cct := s.bill.cct.map (fun e => (e.1, { e.2 with prof := 0 })) } } else s
  { s with bill := { s.bill with profAt := if s.cfg f K.profileEn = 1 then some now else none } }

/-! ### The start of a frame (R190) -/

/-- The clock steps that frame `f` meets (R187): logged, and CLOCK-STEP set in FLAGS. -/
def stepsMet (f bsn : Nat) (s : State) : Bool × State :=
  let due := s.bill.steps.filter (fun e => decide (e.1 ≤ f))
  let s := { s with bill := { s.bill with steps := s.bill.steps.filter (fun e => decide (f < e.1)) } }
  let s := due.foldl (fun s e => (s.bump K.clockSteps).eventAt f 0x0203 [e.2.1, e.2.2, bsn]) s
  (decide (due ≠ []), if due = [] then s else (definedCcts s f).foldl (fun s c =>
    let s := setFlag f c 9 s
    setC c { getC s c with prof := (getC s c).prof ||| 16 } s) s)

/-- The work that precedes the entries of frame `f` (R190 steps 2 to 4); a boundary frame takes the next BSN. -/
def startFrame (f : Nat) (late : Bool) (s : State) : State :=
  let s := profStep f (cfgFrame f s)
  let (stepped, s) := stepsMet f ((s.get K.bsn + 1) % 2 ^ 32) s
  let (closed, s) := ivlSteps f stepped (s.bill.cct.map (fun e => e.1)) s
  let (any, s) := boundaries f (late || stepped) stepped closed s
  let s := showCalendar f (any || commitAt s f) s
  { s with bill := { s.bill with begun := true } }

end Sys2Proof.Machine
end

