-- ==== Sys2Proof/Machine/Pulse.lean ====
section
/-! DEFINITION. Pulse outputs and the pulse train (R204 to R213). -/

namespace Sys2Proof.Machine

/-- The increment of a quantity among increments by kind (Table 7.1). -/
def quantityInc (q mask : Nat) (inc : List Int) : Int :=
  match q with
  | 0 => ati inc 0
  | 1 => ati inc 1
  | 2 => ati inc 0 + ati inc 1
  | 3 => sumI ((List.range 4).map (fun i => if bit mask i then ati inc (2 + i) else 0))
  | 4 => ati inc 6
  | _ => 0

/-- The shares of the samples for a quantity: |p|, |q|, or equal for SI (R206). (DEDUCED, log 48) -/
def shares (q : Nat) (x : PulseIn) : List Int :=
  let w := if q ≤ 2 then x.shp else if q = 3 then x.shq else List.replicate 16 1
  if sumI w = 0 then List.replicate 16 1 else w

/-- The part of the increments that samples 0 … j bring reaches `need`, an amount in 2^-40 units (R206): exact fractions. -/
def reaches (need : Int) (ins : List (Int × List Int)) (j : Nat) : Bool :=
  let r := ins.foldl (fun (a : Int × Int) e =>
    let w := sumI e.2
    let n := e.1 * sumI (e.2.take (j + 1))
    (a.1 * w + n * a.2, a.2 * w)) (0, 1)
  decide (need * r.2 ≤ r.1)

/-- The slot at which an amount is reached: the first such sample, the last one at the latest. -/
def slotOf (need : Int) (ins : List (Int × List Int)) : Nat := ((List.range 16).find? (reaches need ins)).getD 15

/-- The pulses that fall due in a frame and what the accumulator keeps (R205); `k` in 2^-40 units. (DEDUCED, log 48) -/
def duePulses (acc inc k : Int) : Nat × Int := if k ≤ 0 then (0, acc + inc) else (((acc + inc) / k).toNat, (acc + inc) % k)

/-- A pulse output is set. -/
def setOut (i : Nat) (o : PulseOut) (s : State) : State :=
  { s with pulse := { s.pulse with out := tset {} s.pulse.out i o } }

/-- The increment of output `i` in frame `f` and each circuit's part in it (R205). -/
def outParts (f i : Nat) (s : State) : List (Int × List Int) :=
  let q := s.cfg f (K.poQuantity i)
  let mask := s.cfg f (K.poCctMask i)
  (s.bill.fp.filter (fun x => bit mask x.c)).map (fun x => (quantityInc q (s.cfg f (K.poQMask i)) x.inc, shares q x))

/-- Pulse output `i` after its pulses of frame `f`: FINE starts a pulse with the sample that brings it, two frames on (R209). -/
def outAfter (f i : Nat) (o : PulseOut) (s : State) : PulseOut :=
  let ins := outParts f i s
  let k : Int := (s.cfg f (K.poConstant i) : Int) * 2 ^ 40
  let (n, acc) := duePulses o.acc (sumI (ins.map (fun e => e.1))) k
  let fine := decide (s.cfg f (K.poFine i) = 1)
  let edges := (List.range n).map (fun (m : Nat) => 16 * (f + 2) + (if fine then slotOf (k * ((m : Int) + 1) - o.acc) ins else 0))
  { o with acc := acc, due := o.due ++ edges }

/-- Pulse output `i` takes frame `f`. -/
def outFrame (f i : Nat) (s : State) : State :=
  if s.cfg f (K.poEnable i) = 1 then setOut i (outAfter f i (tget {} s.pulse.out i) s) s else s

/-- The pulses of a circuit on the train in frame `f` and what its accumulator keeps: circuit, pulses due and first slot. -/
def trainDue (f : Nat) (x : PulseIn) (acc : Int) (s : State) : List (Nat × Nat × Nat) × Int :=
  let q := s.cfg f K.ptQuantity
  let inc := quantityInc q (s.cfg f K.ptQMask) x.inc
  let k : Int := (s.cfg f (K.ptK x.c) : Int) * 2 ^ 40
  let (n, left) := duePulses acc inc k
  (if n = 0 then [] else [(x.c, n, slotOf (k - acc) [(inc, shares q x)])], left)

/-- The accumulator of circuit `c` on the train is set. -/
def setPtAcc (c : Nat) (acc : Int) (s : State) : State :=
  { s with pulse := { s.pulse with pt := tmod {} s.pulse.pt c (fun p => { p with acc := acc }) } }

/-- A circuit on the pulse train takes frame `f`; the answer is circuit, pulses due and first slot (R210, R211). -/
def trainCct (f : Nat) (x : PulseIn) (s : State) : List (Nat × Nat × Nat) × State :=
  if s.cfg f K.ptEnable = 1 ∧ s.cfg f (K.ptK x.c) ≠ 0 then
    let d := trainDue f x (tget {} s.pulse.pt x.c).acc s
    (d.1, setPtAcc x.c d.2 s)
  else ([], s)

/-- Every circuit of the frame. -/
def trainCcts (f : Nat) : List PulseIn → State → List (Nat × Nat × Nat) × State
  | [], s => ([], s)
  | x :: xs, s =>
    let (a, s) := trainCct f x s
    let (b, s) := trainCcts f xs s
    (a ++ b, s)

/-- The pulses of frame `f` (R204). -/
def pulseFrame (f : Nat) (s : State) : State :=
  let s := (List.range 8).foldl (fun s i => outFrame f i s) s
  let (due, s) := trainCcts f s.bill.fp s
  let has := fun b => s.bill.fp.any (fun x => bit (s.live (K.cctStatus x.c)) b)
  { s with pulse := { s.pulse with due := s.pulse.due ++ [(f, due)], marks := s.pulse.marks ++ [(f, has 11, has 12)] },
           bill := { s.bill with fp := [] } }

/-! ### Outputs (R207, R209) -/

/-- The instant of the present sample period, in sample periods since FN 0. -/
def nowPeriod (s : State) : Nat := 16 * s.fn + (s.acq.period - 1)

/-- PENDING shows the pulses whose own edge has passed; PEAK_PENDING the most of them. -/
def showPending (i : Nat) (s : State) : State :=
  let n := ((tget {} s.pulse.out i).due.filter (fun e => decide (e < nowPeriod s))).length
  let s := s.putV (K.poPending i) (min n (2 ^ oBits (K.poPending i) - 1))
  if s.get (K.poPeakPending i) < n then s.putV (K.poPeakPending i) (min n (2 ^ oBits (K.poPeakPending i) - 1)) else s

/-- WIDTH ms in sample periods, the nearest number for the active time and the next one up for the inactive time: a sample period is
1/16.384 ms. (DEDUCED, log 48) -/
def widthPeriods (ms : Nat) (up : Bool) : Nat := if up then (ms * 16384 + 999) / 1000 else (ms * 16384 + 500) / 1000

/-- PULSE_START (R209): the oldest due or pending pulse of an enabled output begins its active edge once the inactive time
allows. -/
def execPulseStart (i : Fin 8) (s : State) : Host.Outcome State Fault Refusal :=
  let o := tget {} s.pulse.out i.val
  let now := nowPeriod s
  .next (match o.due with
    | e :: es =>
      if e ≤ now ∧ o.high = none ∧ o.idle ≤ now ∧ s.cfg s.fn (K.poEnable i.val) = 1 ∧ s.mode = .run then
        let o := { o with due := es, high := some (now + widthPeriods (s.cfg s.fn (K.poWidth i.val)) false) }
        showPending i.val ((setOut i.val o (showPending i.val s)).bumpV (K.poCount i.val))
      else s
    | [] => s)

/-- PULSE_END (R209): after WIDTH ms the output is inactive, and stays so for at least WIDTH ms.  A pulse of a disabled output
finishes its width (R38). -/
def execPulseEnd (i : Fin 8) (s : State) : Host.Outcome State Fault Refusal :=
  let o := tget {} s.pulse.out i.val
  .next (match o.high with
    | some e =>
      if e ≤ nowPeriod s then
        setOut i.val { o with high := none, idle := e + widthPeriods (s.cfg s.fn (K.poWidth i.val)) true } s
      else s
    | none => s)

/-- The level of ball PULSE-i (R207): the POLARITY that governs the frame, 1 for an active level low. -/
def pulseLevel (s : State) (i : Nat) : Bool :=
  let active := decide ((tget {} s.pulse.out i).high ≠ none) && decide (s.mode = .run)
  active != decide (s.cfg s.fn (K.poPolarity i) = 1)

/-! ### The pulse train (R210 to R212) -/

/-- The bits of a number, least significant first. -/
def bitsOf : Nat → Nat → List Bool
  | 0, _ => []
  | n + 1, v => decide (v % 2 = 1) :: bitsOf n (v / 2)

/-- The byte of circuit `c` for `new` pulses due in the frames carried with first slot `slot` (Table 7.3): pending ones go first, at
most 8 in all. -/
def trainByte (merged : Bool) (pend new slot : Nat) : Nat × Nat :=
  let n := min 8 (pend + new)
  let sl := if merged || new = 0 || n ≤ pend then 0 else slot
  (if n = 0 then 0 else 128 + 16 * (n - 1) + sl, pend + new - n)

/-- New pulses and first slot of circuit `c` among the frames carried. -/
def carriedOf (c : Nat) (ds : List (Nat × Nat × Nat)) : Nat × Nat :=
  let mine := ds.filter (fun e => decide (e.1 = c))
  (sumN (mine.map (fun e => e.2.1)), (mine.map (fun e => e.2.2)).headD 0)

/-- The circuit bytes in order and the pending pulses left. -/
def trainBytes (f : Nat) (merged : Bool) (ds : List (Nat × Nat × Nat)) : List Nat → State → List Nat × State
  | [], s => ([], s)
  | c :: cs, s =>
    let p := tget {} s.pulse.pt c
    let (new, slot) := carriedOf c ds
    let on := decide (s.cfg f (K.ptK c) ≠ 0) && decide (s.cfg f (K.cctKind c) ≠ 0)
    let (b, left) := if on then trainByte merged p.pend new slot else (0, p.pend + new)
    let s := { s with pulse := { s.pulse with pt := tset {} s.pulse.pt c { p with pend := left } } }
    let (bs, s) := trainBytes f merged ds cs s
    (b :: bs, s)

/-- The header of a pulse-train frame, without parity (Table 7.2). -/
def trainHeader (cal late empty merged clip est backlog : Bool) (fn24 : Nat) : Nat :=
  2 ^ 31 * b2n cal + 2 ^ 30 * b2n late + 2 ^ 29 * b2n empty + 2 ^ 28 * b2n merged + 2 ^ 27 * b2n clip + 2 ^ 26 * b2n est +
    2 ^ 25 * b2n backlog + fn24 % 2 ^ 24

/-- The pulses of published frames have been carried. -/
def trainDrop (published : List Nat) (sent : Option (List Bool)) (s : State) : State :=
  let due := s.pulse.due.filter (fun e => decide (e.1 ∉ published))
  let marks := s.pulse.marks.filter (fun e => decide (e.1 ∉ published))
  { s with pulse := { s.pulse with sent := sent, due := due, marks := marks } }

/-- The pulse-train frame of a tick: the frames published at it, whether one was LATE, and the frame due when none was (R210,
R212). -/
def trainFrame (published : List Nat) (late : Bool) (dueFn : Nat) (s : State) : State :=
  let f := published.getLast?.getD dueFn
  if s.cfg s.fn K.ptEnable = 1 then
    let merged := decide (1 < published.length)
    let mine := s.pulse.due.filter (fun e => decide (e.1 ∈ published))
    let ds := (mine.map (fun e => e.2)).flatten
    let marks := s.pulse.marks.filter (fun e => decide (e.1 ∈ published))
    let empty := decide (published = [])
    let (bytes, s) := if empty then (List.replicate 256 0, s) else trainBytes f merged ds (List.range 256) s
    let backlog := s.pulse.pt.any (fun e => decide (0 < e.2.pend))
    let h := trainHeader (decide (s.live K.calState = 1)) late empty merged (marks.any (fun e => e.2.1)) (marks.any (fun e => e.2.2))
      backlog f
    let bits := bitsOf 32 h ++ bytes.flatMap (bitsOf 8)
    let odd := decide ((bits.filter (fun b => b)).length % 2 = 1)
    let sent := bitsOf 32 (h + 2 ^ 24 * b2n odd) ++ bytes.flatMap (bitsOf 8)
    let s := (trainDrop published (some sent) s).bumpV K.ptFrames
    let s := if empty then s.bumpV K.ptEmpty else s
    if merged then s.bumpV K.ptMerged else s
  else
    let s := (List.range 256).foldl (fun s c =>
      let (new, _) := carriedOf c ((s.pulse.due.filter (fun e => decide (e.1 ∈ published))).map (fun e => e.2)).flatten
      let p := tget {} s.pulse.pt c
      { s with pulse := { s.pulse with pt := tset {} s.pulse.pt c { p with pend := p.pend + new } } }) s
    trainDrop published none s

end Sys2Proof.Machine
end

