-- ==== Sys2Proof/Machine/Health.lean ====
section
/-! DEFINITION. The health check of an activation (R383): conditions over the frames that the new legal core accrues. -/

namespace Sys2Proof.Machine

/-- The activation is set. -/
def setHand (h : Option Handover) (s : State) : State := { s with img := { s.img with hand := h } }

/-- INVARIANT_FAULTS of all circuits. -/
def allInvariants (s : State) : Nat := sumN ((List.range 256).map (fun c => s.get (K.cctInvariantFaults c)))

/-- The net active energy of a circuit's registers in 2^-40 units: TOTAL AI − AE; AI alone as a signed total when SIGNED. -/
def regNet (s : State) (f c : Nat) : Int :=
  if s.cfg f (K.cctMode c) = 1 then toInt 104 (regTot s c 64) else (regTot s c 64 : Int) - regTot s c 65

/-- A baseline total as listed by a RING-3 frame. -/
def baseOf (l : List (Nat × Nat × Nat)) (n : Nat) : Int :=
  match l.find? (fun e => decide (e.1 = n)) with | some e => (e.2.1 : Int) - e.2.2 | none => 0

/-- The net of a circuit's baselines in its unit, 2^-40 units. -/
def baseNet (s : State) (f c : Nat) (l : List (Nat × Nat × Nat)) : Int :=
  sumI ((phasesOf s f c).map (fun p => baseOf l p.ch)) * 10 ^ (3 - s.cfg f (K.cctEnergyUnit c))

/-- The circuits that condition 5 looks at: SPLIT or SIGNED with every channel OK. -/
def healthCcts (s : State) (f : Nat) : List Nat :=
  (definedCcts s f).filter (fun c => decide (s.cfg f (K.cctMode c) ≠ 2) &&
    (phasesOf s f c).all (fun p => decide (s.get (K.chFState p.ch) = 0) && decide (s.get (K.vFState p.v) = 0)))

/-- Two nets agree within 0.5 % of the larger magnitude plus 10 mWh (R383). -/
def netAgrees (a b : Int) (u : Nat) : Bool :=
  decide (1000 * mag (a - b) ≤ 5 * max (mag a) (mag b) + 1000 * 10 * 10 ^ (3 - u) * 2 ^ 40)

/-- Nets at the end of a frame. -/
def netsNow (s : State) (f : Nat) (l : List (Nat × Nat × Nat)) : List (Nat × Int × Int) :=
  (healthCcts s f).map (fun c => (c, regNet s f c, baseNet s f c l))

/-- The circuits whose nets over the check disagree. -/
def netFails (s : State) (f : Nat) (l : List (Nat × Nat × Nat)) (start : List (Nat × Int × Int)) : List Nat :=
  ((netsNow s f l).filter (fun e => match start.find? (fun a => decide (a.1 = e.1)) with
    | some a => !netAgrees (e.2.1 - a.2.1) (e.2.2 - a.2.2) (s.cfg f (K.cctEnergyUnit e.1))
    | none => false)).map (fun e => e.1)

/-- The LATE frames of the check (R383): those published so, and those not yet published whose tick has passed, frame `f` among them. -/
def lateSoFar (f : Nat) (h : Handover) (s : State) : Nat :=
  h.lates + ((s.sealed.map (fun p => p.fn) ++ [f]).filter (fun g => decide (h.b ≤ g) && decide (g + 2 ≤ s.fn))).length

/-- The cause with which a health condition fails in frame `f`, or 0 (Table 13.9). -/
def healthCause (fr : R3) (h : Handover) (s : State) : Nat :=
  if h.wdog then 1
  else if fr.lost || decide (4 < lateSoFar fr.fn h s) then 2
  else if decide (allInvariants s ≠ h.inv0) then 3
  else if decide (h.b + 512 ≤ fr.fn) && !s.ready then 4
  else if decide (fr.fn = h.b + 1023) && decide (netFails s fr.fn fr.base h.nets ≠ []) then 5
  else 0

/-- A frame of the health check, or frame B − 1 before it, is complete (R383); a failure schedules the revert, at H + 2 (R385). -/
def healthFrame (fr : R3) (s : State) : State :=
  match s.img.hand with
  | none => s
  | some h =>
    if h.pass || decide (h.fail ≠ none) then s
    else if fr.fn + 1 = h.b then
      setHand (some { h with inv0 := allInvariants s, nets := netsNow s fr.fn fr.base }) s
    else if h.b ≤ fr.fn then
      let cause := healthCause fr h s
      if cause = 0 then
        let s := s.putDue fr.fn K.healthLeft (h.b + 1023 - fr.fn)
        if fr.fn = h.b + 1023 then setHand (some { h with pass := true }) s else s
      else
        let s := setHand (some { h with fail := some (cause, fr.fn) }) s
        if cause = 5 then (netFails s fr.fn fr.base h.nets).foldl (fun s c => setFlag fr.fn c 13 s) s else s
    else s

end Sys2Proof.Machine
end

