-- ==== Sys2Proof/Machine/Crypto.lean ====
section
/-! DEFINITION. The functions of other standards that the spec calls by name and that this model computes: SHA3-256 and SHAKE256
(R263, R292, R362, R365) and AES-256-GCM (R294). -/

namespace Sys2Proof.Machine

/-! ### SHA3-256 and SHAKE256 (PRESUMED, log 95: FIPS 202) -/

/-- A 64-bit lane rotated left by `n`. -/
def rotl64 (x n : Nat) : Nat := (Nat.shiftLeft x n) % 2 ^ 64 + Nat.shiftRight x (64 - n)

/-- Rotation offsets of the lanes x + 5 y. -/
def keccakRot : List Nat :=
  [0, 1, 62, 28, 27, 36, 44, 6, 55, 20, 3, 10, 43, 25, 39, 41, 45, 15, 21, 8, 18, 2, 61, 56, 14]

/-- Round constants. -/
def keccakRc : List Nat :=
  [0x1, 0x8082, 0x800000000000808A, 0x8000000080008000, 0x808B, 0x80000001,
   0x8000000080008081, 0x8000000000008009, 0x8A, 0x88, 0x80008009, 0x8000000A,
   0x8000808B, 0x800000000000008B, 0x8000000000008089, 0x8000000000008003, 0x8000000000008002, 0x8000000000000080,
   0x800A, 0x800000008000000A, 0x8000000080008081, 0x8000000000008080, 0x80000001, 0x8000000080008008]

/-- Lane `i` of a state. -/
def laneAt (a : List Nat) (i : Nat) : Nat := a.getD i 0

/-- One round of the permutation. -/
def keccakRound (a : List Nat) (rc : Nat) : List Nat :=
  let c := (List.range 5).map (fun x =>
    Nat.xor (laneAt a x) (Nat.xor (laneAt a (x + 5)) (Nat.xor (laneAt a (x + 10)) (Nat.xor (laneAt a (x + 15)) (laneAt a (x + 20))))))
  let d := (List.range 5).map (fun x => Nat.xor (laneAt c ((x + 4) % 5)) (rotl64 (laneAt c ((x + 1) % 5)) 1))
  let b := (List.range 25).map (fun i =>
    let x := (i % 5 + 3 * (i / 5)) % 5
    let j := x + 5 * (i % 5)
    rotl64 (Nat.xor (laneAt a j) (laneAt d x)) (keccakRot.getD j 0))
  let e := (List.range 25).map (fun i =>
    let y := 5 * (i / 5)
    Nat.xor (laneAt b i) (Nat.land (2 ^ 64 - 1 - laneAt b (y + (i + 1) % 5)) (laneAt b (y + (i + 2) % 5))))
  match e with
  | [] => []
  | x :: l => Nat.xor x rc :: l

/-- The permutation: 24 rounds. -/
def keccak (a : List Nat) : List Nat := keccakRc.foldl keccakRound a

/-- A block of `rate` bytes enters the state. -/
def absorbBlock (a : List Nat) (blk : Bytes) : List Nat :=
  keccak ((List.range 25).map (fun i => Nat.xor (laneAt a i) (ofLe ((blk.drop (8 * i)).take 8))))

/-- Blocks of `rate` bytes, as many as the fuel says. -/
def blocksOf (rate : Nat) : Nat → Bytes → List Bytes
  | 0, _ => []
  | n + 1, b => b.take rate :: blocksOf rate n (b.drop rate)

/-- A message with its suffix and padding. -/
def spongePad (rate suffix : Nat) (m : Bytes) : Bytes :=
  let q := rate - m.length % rate
  m ++ (if q = 1 then le 1 (suffix + 128) else le 1 suffix ++ List.replicate (q - 2) 0 ++ le 1 128)

/-- The bytes that a state gives, block after block. -/
def squeeze (rate : Nat) : Nat → List Nat → Bytes
  | 0, _ => []
  | n + 1, a => (a.flatMap (le 8)).take rate ++ squeeze rate n (keccak a)

/-- The sponge with a rate of 136 bytes. -/
def sponge (suffix : Nat) (m : Bytes) (len : Nat) : Bytes :=
  let p := spongePad 136 suffix m
  let a := (blocksOf 136 (p.length / 136) p).foldl absorbBlock (List.replicate 25 0)
  (squeeze 136 ((len + 135) / 136) a).take len

/-- SHA3-256. (PRESUMED, log 95) -/
def sha3_256 (m : Bytes) : Bytes := sponge 0x06 m 32

/-- SHAKE256 with an output of `len` bytes. (PRESUMED, log 95) -/
def shake256 (m : Bytes) (len : Nat) : Bytes := sponge 0x1F m len

/-! ### AES-256 (PRESUMED, log 95: FIPS 197) -/

/-- The substitution box, byte 0 lowest. -/
def aesBox : List Nat :=
  [0xC072A49CAFA2D4ADF04759FA7DC982CA76ABD7FE2B670130C56F6BF27B777C63,
   0x75B227EBE28012079A059618C323C7041531D871F1E5A534CCF73F362693FDB7,
   0xCF584C4A39BECB6A5BB1FC20ED00D153842FE329B3D63B52A05A6E1B1A2C8309,
   0xD2F3FF1021DAB6BCF5389D928F40A351A89F3C507F02F94585334D43FBAAEFD0,
   0xDB0B5EDE14B8EE4688902A22DC4F816073195D643D7EA7C41744975FEC130CCD,
   0x08AE7A65EAF4566CA94ED58D6D37C8E779E4959162ACD3C25C2406490A3A32E0,
   0x9E1DC186B95735610EF6034866B53E708A8BBD4B1F74DDE8C6B4A61C2E2578BA,
   0x16BB54B00F2D99416842E6BF0D89A18CDF2855CEE9871E9B948ED9691198F8E1]

/-- A byte substituted. -/
def subByte (b : Nat) : Nat := Nat.shiftRight (aesBox.getD (b / 32) 0) (8 * (b % 32)) % 256

/-- Doubling in the field of AES. -/
def xtime (b : Nat) : Nat := if b < 128 then 2 * b else Nat.xor (2 * b - 256) 0x1B

/-- Two lists exclusive-ored. -/
def xorL (a b : List Nat) : List Nat := a.zipWith Nat.xor b

/-- The words of the key schedule, newest first: `n` more after the ones there. -/
def aesExpand : Nat → Nat → Nat → List (List Nat) → List (List Nat)
  | 0, _, _, w => w
  | n + 1, i, rc, w =>
    let t := w.headD []
    let old := w.getD 7 []
    let t := if i % 8 = 0 then xorL ((t.drop 1 ++ t.take 1).map subByte) [rc, 0, 0, 0]
      else if i % 8 = 4 then t.map subByte else t
    aesExpand n (i + 1) (if i % 8 = 0 then xtime rc else rc) (xorL old t :: w)

/-- The 15 round keys of 16 bytes. -/
def aesKeys (key : Bytes) : List (List Nat) :=
  let k := (slice key 0 32).map (fun b => b.toNat)
  let w := (aesExpand 52 8 1 ((List.range 8).map (fun i => (k.drop (4 * i)).take 4)).reverse).reverse
  (List.range 15).map (fun r => ((w.drop (4 * r)).take 4).flatten)

/-- Substitution and the shift of the rows. -/
def aesShift (b : List Nat) : List Nat := (List.range 16).map (fun i => subByte (b.getD ((i + 4 * (i % 4)) % 16) 0))

/-- The mixing of a column. -/
def aesColumn (c : List Nat) : List Nat :=
  (List.range 4).map (fun i =>
    let x := fun (k : Nat) => c.getD ((i + k) % 4) 0
    Nat.xor (xtime (x 0)) (Nat.xor (Nat.xor (xtime (x 1)) (x 1)) (Nat.xor (x 2) (x 3))))

/-- The rounds over the keys left, the last without mixing. -/
def aesRounds (b : List Nat) : List (List Nat) → List Nat
  | [] => b
  | [k] => xorL (aesShift b) k
  | k :: ks => aesRounds (xorL ((List.range 4).flatMap (fun i => aesColumn (((aesShift b).drop (4 * i)).take 4))) k) ks

/-- A block encrypted. -/
def aesBlock (keys : List (List Nat)) (b : List Nat) : List Nat := aesRounds (xorL b (keys.headD [])) (keys.drop 1)

/-! ### GCM (PRESUMED, log 95: SP 800-38D) -/

/-- A number from bytes, most significant first. -/
def ofBe (b : List Nat) : Nat := b.foldl (fun a x => 256 * a + x) 0

/-- `k` bytes of a number, most significant first. -/
def be (k n : Nat) : List Nat := ((le k n).map (fun b => b.toNat)).reverse

/-- The product of blocks: bit `i` of `x` counts from the most significant one. -/
def gfMul : Nat → Nat → Nat → Nat → Nat
  | 0, _, _, z => z
  | i + 1, x, v, z =>
    gfMul i x (if v % 2 = 0 then v / 2 else Nat.xor (v / 2) (Nat.shiftLeft 0xE1 120)) (if x / 2 ^ i % 2 = 1 then Nat.xor z v else z)

/-- Bytes filled up with zeros to whole blocks, as blocks. -/
def gcmBlocks (b : List Nat) : List (List Nat) :=
  let n := (b.length + 15) / 16
  (List.range n).map (fun i => let c := (b.drop (16 * i)).take 16; c ++ List.replicate (16 - c.length) 0)

/-- GHASH over blocks. -/
def ghash (h : Nat) (bs : List (List Nat)) : Nat := bs.foldl (fun y b => gfMul 128 (Nat.xor y (ofBe b)) h 0) 0

/-- Counter mode: block `i` of the key stream has counter i + 2. -/
def gcmCtr (keys : List (List Nat)) (iv b : List Nat) : List Nat :=
  (List.range ((b.length + 15) / 16)).flatMap (fun i =>
    let c := (b.drop (16 * i)).take 16
    xorL c ((aesBlock keys (iv ++ be 4 (i + 2))).take c.length))

/-- The tag of ciphertext and additional data. -/
def gcmTag (keys : List (List Nat)) (iv aad c : List Nat) : List Nat :=
  let h := ofBe (aesBlock keys (List.replicate 16 0))
  let y := ghash h (gcmBlocks aad ++ gcmBlocks c ++ [be 8 (8 * aad.length) ++ be 8 (8 * c.length)])
  xorL (be 16 y) (aesBlock keys (iv ++ be 4 1))

/-- The numbers of bytes. -/
def natsOf (b : Bytes) : List Nat := b.map (fun x => x.toNat)

/-- The bytes of numbers. -/
def bytesOf (l : List Nat) : Bytes := l.map (fun x => BitVec.ofNat 8 x)

/-- AES-256-GCM encryption: key, IV, additional data, plaintext; the ciphertext and the tag (R294). (PRESUMED, log 95) -/
def gcmSeal (key iv aad plain : Bytes) : Bytes × Bytes :=
  let keys := aesKeys key
  let c := gcmCtr keys (natsOf iv) (natsOf plain)
  (bytesOf c, bytesOf (gcmTag keys (natsOf iv) (natsOf aad) c))

/-- AES-256-GCM decryption: the plaintext when the tag verifies (R294, R295). (PRESUMED, log 95) -/
def gcmOpen (key iv aad cipher tag : Bytes) : Option Bytes :=
  let keys := aesKeys key
  if bytesOf (gcmTag keys (natsOf iv) (natsOf aad) (natsOf cipher)) = tag then
    some (bytesOf (gcmCtr keys (natsOf iv) (natsOf cipher)))
  else none

end Sys2Proof.Machine
end

