-- ==== Sys2Proof/Machine/Operands.lean ====
section
/-! DEFINITION. Bridle frames and values on the wire (R240, R241, R265, R267, R278, Tables 10.1, 10.2, 10.5): headers, operations,
object values in their wire bytes. -/

namespace Sys2Proof.Machine

/-- A frame header (Table 10.1). -/
structure Hdr where
  ver  : Nat
  kind : Nat
  tag  : Nat
  st   : Nat
  len  : Nat
  txn  : Nat
  fn   : Nat
  cred : Nat
  flags : Nat
  deriving DecidableEq, Repr

/-- The header of a received frame. -/
def hdrOf (b : Bytes) : Hdr :=
  { ver := at_ b 0 1, kind := at_ b 1 1, tag := at_ b 2 1, st := at_ b 3 1, len := at_ b 4 2, txn := at_ b 6 2, fn := at_ b 8 6,
    cred := at_ b 14 1, flags := at_ b 15 1 }

/-- The 16 bytes of a header. -/
def hdrBytes (h : Hdr) : Bytes :=
  le 1 h.ver ++ le 1 h.kind ++ le 1 h.tag ++ le 1 h.st ++ le 2 h.len ++ le 2 h.txn ++ le 6 h.fn ++ le 1 h.cred ++ le 1 h.flags

/-- The operations that a payload spells; none when they do not exactly fill it (R266, R267). -/
def opsGo : Nat → Bytes → Option (List Op)
  | 0, b => if b = [] then some [] else none
  | k + 1, b =>
    if b = [] then some []
    else if b.length < 8 then none
    else
      let n := at_ b 6 2
      if b.length < 8 + n then none
      else match opsGo k (b.drop (8 + n)) with
        | some l => some ({ code := at_ b 0 1, idx := at_ b 1 2, sub := at_ b 3 1, data := (b.drop 8).take n } :: l)
        | none => none

/-- The operations of a request message. -/
def opsOf (b : Bytes) : Option (List Op) := opsGo b.length b

/-- An operation of a response as bytes. -/
def opBytes (r : OpRes) : Bytes :=
  le 1 r.code ++ le 2 r.idx ++ le 1 r.sub ++ le 1 r.st ++ le 1 0 ++ le 2 r.data.length ++ r.data

/-- A port's number: 0 SPI, 1 T1S, 2 PLC, 3 internal tasks (Table 10.13). -/
def portNo : Port → Nat
  | .spi => 0
  | .t1s => 1
  | .plc => 2
  | .internal => 3

/-- Payload bytes that one frame of a port carries at most (R271). -/
def frameMax : Port → Nat
  | .spi => 4096
  | _ => 1152

/-- Bytes of a frame beyond its payload. (DEDUCED, log 17) -/
def frameExtra : Port → Nat
  | .spi => 20
  | _ => 40

/-- Credit units of a frame with `n` payload bytes (R278). (DEDUCED, log 17) -/
def creditUnits (p : Port) (n : Nat) : Nat := (frameExtra p + n + 15) / 16

/-- The wire bytes of an object's value: little-endian, signed values with the sign extended (R240, R241). -/
def valBytes (ty : OTy) (v : Nat) : Bytes :=
  match ty with
  | .i b => le ty.bytes (ofInt (8 * ty.bytes) (toInt b v))
  | _ => le ty.bytes v

/-- The value that bytes of the right length spell; none when it is not valid for its type (R240, R241). -/
def valOf (ty : OTy) (b : Bytes) : Option Nat :=
  let v := ofLe b
  match ty with
  | .i w => let x := toInt (8 * ty.bytes) v; if toInt w (ofInt w x) = x then some (ofInt w x) else none
  | .bool => if v ≤ 1 then some v else none
  | _ => if v < 2 ^ ty.bits then some v else none

/-- A value lies in a stated range. -/
def Rng.ok (ty : OTy) (v : Nat) : Rng → Bool
  | .any => true
  | .le hi => decide (v ≤ hi)
  | .ge lo => decide (lo ≤ v)
  | .btw lo hi => decide (lo ≤ v ∧ v ≤ hi)
  | .sbtw lo hi => decide (lo ≤ toInt ty.bits v ∧ toInt ty.bits v ≤ hi)
  | .oneOf l => decide (v ∈ l)
  | .mul3 hi => decide (v % 3 = 0 ∧ v ≤ hi)
  | .orB a b => a.ok ty v || b.ok ty v

/-- An entry of a READ-SET response or a notification (Table 10.5). -/
def entryBytes (idx sub st : Nat) (val : Bytes) : Bytes :=
  le 2 idx ++ le 1 sub ++ le 1 st ++ le 2 val.length ++ val

end Sys2Proof.Machine
end

