-- ==== Sys2Proof/Machine/Server.lean ====
section
/-! DEFINITION. What the object server and the ports share (R16, R24 to R27, R30, R242 to R255, R266 to R275): tag slots, refusals,
the start and the end of requests, roles, transactions, and the bytes of a frame that is handed out. -/

namespace Sys2Proof.Machine

/-! ### Setters -/

/-- The object server is set. -/
def setSrv (f : Srv → Srv) (s : State) : State := { s with srv := f s.srv }

/-- The request in a tag slot. -/
def getTag (s : State) (i : Nat) : Option Tag := tget none s.srv.tags i

/-- It is set; none frees the slot. -/
def setTag (i : Nat) (t : Option Tag) (s : State) : State := setSrv (fun x => { x with tags := tset none x.tags i t }) s

/-- The session in a slot. -/
def getSess (s : State) (k : Nat) : Option Sess := tget none s.srv.sess k

/-- It is set. -/
def setSess (k : Nat) (x : Option Sess) (s : State) : State := setSrv (fun v => { v with sess := tset none v.sess k x }) s

/-! ### Modes and ports -/

/-- The object server runs: RUN, READY, and no power-fail warning (R30, R283, R382); ROM recovery serves requests too (R388). -/
def serverRuns (s : State) : Bool := (decide (s.mode = .run) && s.ready) || decide (s.mode = .recovery)

/-- A port is disabled (R38): its ENABLE governs from B; a RETIRED port is treated as disabled (R233), and ROM recovery has no
power-line port (R388). -/
def portOff (s : State) : Port → Bool
  | .t1s => decide (s.cfg s.fn K.t1sEnable = 0) || decide (s.get (K.portState 1) = 2)
  | .plc => decide (s.cfg s.fn K.plcEnable = 0) || decide (s.get (K.portState 2) = 2) || decide (s.mode = .recovery)
  | _ => false

/-! ### Tag slots (R24 to R27) -/

/-- The guaranteed slots of a port. (DEDUCED, log 16) -/
def ownSlots : Port → List Nat
  | .spi => List.range 16
  | .t1s => (List.range 12).map (fun i => 16 + i)
  | .plc => (List.range 8).map (fun i => 28 + i)
  | .internal => (List.range 4).map (fun i => 36 + i)

/-- The floating slots. (DEDUCED, log 16) -/
def floatSlots : List Nat := (List.range 8).map (fun i => 40 + i)

/-- The slots that are free, in a list. -/
def freeOf (s : State) (l : List Nat) : List Nat := l.filter (fun i => decide (getTag s i = none))

/-- The slot that a request of a port takes: a guaranteed one first, then a floating one (R24). -/
def freeSlot (s : State) (p : Port) : Option Nat := (freeOf s (ownSlots p) ++ freeOf s floatSlots).head?

/-- The CREDITS figure of a port (R27). -/
def creditsOf (s : State) (p : Port) : Nat := (freeOf s (ownSlots p)).length + (freeOf s floatSlots).length

/-- The slots in use. -/
def usedTags (s : State) : List (Nat × Tag) := s.srv.tags.filterMap (fun e => (getTag s e.1).map (fun t => (e.1, t)))

/-! ### Roles (R242, R243) -/

/-- The session slot that a HELLO on SPI opened. -/
def spiSess (s : State) : Option (Nat × Sess) :=
  (s.srv.sess.filterMap (fun e => e.2.map (fun x => (e.1, x)))).find? (fun e => decide (e.2.port = .spi))

/-- The role of the SPI port: that of its HELLO session, else INS, or OWN while no OWN key is installed; INS in ROM
recovery (R388). -/
def spiRole (s : State) : Nat :=
  if s.mode = .recovery then 3
  else match spiSess s with
  | some e => e.2.role
  | none => if s.cfg s.fn (K.sesRoleKey 4) = 0 then 5 else 3

/-- The role of a request's session. -/
def roleOf (s : State) (t : Tag) : Nat :=
  match t.port, t.sess with
  | .spi, _ => spiRole s
  | _, some k => (match getSess s k with | some x => x.role | none => 0)
  | _, none => 0

/-! ### RING-12 and refusals (R16, R274) -/

/-- Credit units of a frame that waits in RING-12 or RING-13. -/
def outUnits (f : OutFrame) : Nat := creditUnits f.port f.data.length

/-- Units of a port's share in use, by refusals or by other responses. -/
def shareUsed (s : State) (p : Port) (ref : Bool) : Nat :=
  sumN ((s.srv.ring12.filter (fun f => decide (f.port = p) && decide (f.ref = ref))).map outUnits)

/-- A port's share of RING-12 in credit units (R16). -/
def shareOf : Port → Nat
  | .spi => 768
  | .t1s => 512
  | .plc => 512
  | .internal => 256

/-- A frame enters RING-12. -/
def push12 (f : OutFrame) (s : State) : State := setSrv (fun x => { x with ring12 := x.ring12 ++ [f] }) s

/-- A frame-level refusal (R274): it takes the refusal reserve, or is dropped and counted in NO_TAG, which counts every NO-TAG too.
(DEDUCED, log 15; DEDUCED, log 16) -/
def refuse (r : ReqFrame) (tag st : Nat) (s : State) : State :=
  let f : OutFrame := { port := r.port, sess := r.sess, addr := r.addr, sport := r.sport, tag := tag, st := st, fn := s.fn, ref := true,
                        clear := decide (r.sess = none) }
  let fits := decide (shareUsed s r.port true + outUnits f ≤ 16)
  let s := if !fits || decide (st = 0x61) then s.bump (K.noTag (portNo r.port)) else s
  if fits then push12 f s else s

/-! ### Transactions (R250 to R255) -/

/-- The open transaction with an ID that a port and session may use (R250). -/
def findTxn (s : State) (id : Nat) (p : Port) (sess : Option Nat) : Option Txn :=
  s.srv.txns.find? (fun x => decide (x.id = id) && decide (x.port = p) && decide (x.sess = sess))

/-- The request belongs to an open read-only transaction (R250). -/
def inReadOnly (s : State) (t : Tag) : Bool :=
  match findTxn s t.txn t.port t.sess with | some x => !x.rw | none => false

/-- A transaction is set. -/
def setTxn (x : Txn) (s : State) : State :=
  setSrv (fun v => { v with txns := v.txns.map (fun y => if y.id = x.id then x else y) }) s

/-- Frames that no transaction pins any more leave the pins (R32). -/
def dropPins (s : State) : State :=
  { s with pins := s.pins.filter (fun e => s.srv.txns.any (fun x => match x.snap with | some p => decide (p.fn = e.1) | none => false)) }

/-- Transactions end, rolled back: their staging is discarded and their pins are released (R255). -/
def endTxns (which : Txn → Bool) (s : State) : State :=
  dropPins (setSrv (fun v => { v with txns := v.txns.filter (fun x => !which x) }) s)

/-- One transaction ends. -/
def endTxn (id : Nat) (s : State) : State := endTxns (fun x => decide (x.id = id)) s

/-! ### Requests -/

/-- The request belongs to a port and session. -/
def Tag.of (t : Tag) (p : Port) (sess : Option Nat) : Bool := decide (t.port = p) && decide (t.sess = sess)

/-- A response's payload: its operations, or nothing with a frame status (R270). -/
def respBytes (t : Tag) : Bytes := if t.fst ≠ 0 then [] else t.res.flatMap opBytes

/-- The request of a slot has finished: its response waits to enter RING-12 (R275). -/
def finishTag (i : Nat) (t : Tag) (s : State) : State :=
  let t := { t with fin := some s.fn, left := some (respBytes t), wait := false }
  setSrv (fun v => { v with done := v.done ++ [i] }) (setTag i (some t) s)

/-- A request completes with a frame status and no operation. -/
def failTag (i : Nat) (t : Tag) (st : Nat) (s : State) : State := finishTag i { t with fst := st, begun := true } s

/-- The requests may start now: no handover holds them back (R381). -/
def mayStart (s : State) : Bool :=
  serverRuns s && (match s.img.hand with | some h => !h.quiet || h.begun | none => true)

/-- A request holds a COMMIT. -/
def hasCommit (l : List Op) : Bool := l.any (fun o => decide (o.code = 0x31))

/-- A bound request is the next of its port or session and its FN does not hold it (R268, R269). -/
def startable (s : State) (i : Nat) (t : Tag) : Bool :=
  t.full && !t.begun && decide (t.fin = none) &&
  (decide (t.fnf ≤ s.fn) || hasCommit t.ops) &&
  (usedTags s).all (fun e => decide (e.1 = i) || !(e.2.of t.port t.sess) || e.2.begun || decide (t.ord ≤ e.2.ord) || decide (e.2.fin ≠ none))

/-- A request starts: its snapshot is CURRENT at this moment, or the one that its read-only transaction pins (R30, R32). -/
def beginTag (i : Nat) (t : Tag) (s : State) : State :=
  if t.txn = 0 then
    (if t.ops = [] then finishTag i { t with begun := true } s
     else setTag i (some { t with begun := true, snap := s.current }) s)
  else match findTxn s t.txn t.port t.sess with
    | some x =>
      let s := setTxn { x with last := s.fn } s
      let t := { t with begun := true, snap := match x.snap with | some p => some p | none => s.current,
                        used := decide (x.snap ≠ none) }
      if t.ops = [] then finishTag i t s else setTag i (some t) s
    | none => failTag i t 0x40 s

/-- The request that starts next, in order of arrival. (DEDUCED, log 18) -/
def nextStart (s : State) : Option (Nat × Tag) :=
  ((usedTags s).filter (fun e => startable s e.1 e.2)).foldl
    (fun (best : Option (Nat × Tag)) e => match best with
      | some b => if e.2.ord < b.2.ord then some e else some b
      | none => some e) none

/-- Requests start one after another, as far as they may. (DEDUCED, log 18) -/
def startGo : Nat → State → State
  | 0, s => s
  | k + 1, s => match nextStart s with
    | some (i, t) => startGo k (beginTag i t s)
    | none => s

/-- Every request that may start now does. -/
def startReqs (s : State) : State := if mayStart s then startGo 48 s else s

/-- The operation that a slot's request executes next. -/
def nextOp (t : Tag) : Option Op :=
  if t.begun && !t.wait && decide (t.fin = none) then t.ops[t.res.length]? else none

/-- The next operation is answered with a status and data; the last one finishes the request. -/
def answer (i : Nat) (st : Nat) (data : Bytes) (s : State) : State :=
  match getTag s i with
  | none => s
  | some t =>
    match t.ops[t.res.length]? with
    | none => s
    | some o =>
      let t := { t with res := t.res ++ [⟨o.code, o.idx, o.sub, st, data⟩], wait := false }
      startReqs (if t.res.length = t.ops.length then finishTag i t s else setTag i (some t) s)

/-- The operation of a slot waits for a store or a signature. -/
def holdTag (i : Nat) (s : State) : State :=
  match getTag s i with
  | some t => setTag i (some { t with wait := true }) s
  | none => s

/-- An operation that ROM recovery executes (R388): READ of the identity, lease, slot, key and seal objects, and the methods of Table
13.7. -/
def romOp (o : Op) : Bool :=
  (decide (o.code = 0x10) && decide (o.idx ∈ [0x1000, 0x8000, 0x8001, 0x8002, 0x8100, 0x8101])) ||
  (decide (o.code = 0x40) && decide (o.idx = 0x8000) && decide (o.sub ∈ [4, 5, 6, 7, 8]))

/-- An operation executes: when the next operation of the slot's request is of the kind asked for, it is carried out.  An operation of
a request whose transaction has ended is answered NO-TRANSACTION (R255). (DEDUCED, log 19) -/
def runOp (i : Nat) (want : Op → Bool) (f : Tag → Op → State → State) (s : State) : State :=
  if serverRuns s then
    match getTag s i with
    | none => s
    | some t =>
      match nextOp t with
      | none => s
      | some o =>
        if want o then
          (if s.mode = .recovery ∧ romOp o = false then answer i 0x30 [] s
           else if t.txn ≠ 0 ∧ findTxn s t.txn t.port t.sess = none then answer i 0x40 [] s else f t o s)
        else s
  else s

/-! ### Objects -/

/-- The key that an operation addresses. -/
def Op.key (o : Op) : Nat := 256 * o.idx + o.sub

/-- A row's flag: 0 T, 1 L, 2 S, 3 P, 4 V. -/
def Row.has (r : Row) (b : Nat) : Bool := bit r.fl b

/-- A configuration object (R245): one that a COMMIT sets, or INSTALL_TOKEN and WIRING_REF, which RESUME sets (R198).
(DEDUCED, log 22) -/
def isConfig (r : Row) : Bool :=
  r.has 0 || (decide (r.wr ≠ 6) && r.has 3 && decide (r.ty ≠ .method)) ||
  (decide (r.lo = 0x4405) && (decide (r.slo = 3) || decide (r.slo = 5)))

/-- A published object: measured or counted and served from snapshots (R244). -/
def isPublished (r : Row) : Bool := r.has 4 && !isConfig r

/-- The value of a published object in a snapshot. -/
def snapVal (p : Snap) (k : Nat) : Nat :=
  if k = K.timeFn then p.fn
  else if k = K.generation then p.gen
  else match tlook p.vals k with | some v => v | none => oDefault k

/-- A published object as ROM recovery shows it, where no snapshot is published (R388): SEALED_COUNT has no live value beside it. -/
def romValue (s : State) (k : Nat) : Nat := if k = K.sealedCount then s.get k else s.live k

/-- What a READ of an object answers (R247): status, value bytes, and whether it was a published value. -/
def readObj (s : State) (t : Tag) (k : Nat) : Nat × Bytes × Bool :=
  match rowOf k with
  | none => (0x30, [], false)
  | some r =>
    if r.ty = .method then (0x31, [], false)
    else if roleOf s t < r.rd then (0x20, [], false)
    else if isPublished r then
      (match t.snap with
       | some p => (0, valBytes r.ty (snapVal p k), true)
       | none => (0, valBytes r.ty (if s.mode = .recovery then romValue s k else oDefault k), true))
    else
      let staged := match findTxn s t.txn t.port t.sess with
        | some x => x.stage.findSome? (fun (e : Staged) => if e.key = k then e.val else none)
        | none => none
      (0, valBytes r.ty (staged.getD (s.get k)), false)

/-- Staging bytes in use. -/
def Txn.used (x : Txn) : Nat := sumN (x.stage.map (fun e => e.size))

/-- Unpublished P objects that RESUME and REINSTATE set beside (R198, R235): REPAIRED, CAUSE and RESUME_FN; CAUSE and STATE_FN of a unit,
SPARES_FREE, FRAMES_RETIRED and SECTORS_RETIRED. -/
def methodSets (k : Nat) : Bool :=
  let i := k / 256
  let sub := k % 256
  decide (k ∈ [K.repaired, K.cause, K.resumeFn, K.sparesFree, K.framesRetired, K.sectorsRetired]) ||
  decide (0x6000 ≤ i ∧ i < 0x6020 ∧ (sub = 2 ∨ sub = 9)) || decide (0x6100 ≤ i ∧ i < 0x6200 ∧ (sub = 2 ∨ sub = 8)) ||
  decide (0x6200 ≤ i ∧ i < 0x620C ∧ (sub = 2 ∨ sub = 10))

/-- An object that conflict detection tracks: what a COMMIT or a method sets, published values aside (R245, R251). (DEDUCED, log 22) -/
def isTracked (k : Nat) (r : Row) : Bool := isConfig r || (methodSets k && !r.has 4)

/-- A configuration object read in a read-write transaction is tracked (R251). -/
def trackRead (t : Tag) (k : Nat) (s : State) : State :=
  match rowOf k, findTxn s t.txn t.port t.sess with
  | some r, some x =>
    if isTracked k r && x.rw && !(x.stage.any (fun e => decide (e.key = k) && decide (e.val = none))) then
      (if x.used + 4 ≤ 16384 then setTxn { x with stage := x.stage ++ [⟨k, none, 4⟩] } s
       else if x.ovr = none then setTxn { x with ovr := some k } s else s)
    else s
  | _, _ => s

/-- The request has read a published value: the response header carries the snapshot's FN. -/
def markUsed (i : Nat) (pub : Bool) (s : State) : State :=
  if pub then match getTag s i with
    | some t => setTag i (some { t with used := true }) s
    | none => s
  else s

/-! ### Handing frames out -/

/-- The FN of a response header (Table 10.1): the snapshot served, or the frame in which the request finished. -/
def respFn (s : State) (t : Tag) : Nat :=
  let inRo := match findTxn s t.txn t.port t.sess with | some x => !x.rw | none => false
  let own := t.tick.getD (t.fin.getD s.fn)
  match t.snap with
  | some p => if t.used || inRo then p.fn else own
  | none => own

/-- Header and payload of a frame, CREDITS formed now (R274). -/
def frameHead (s : State) (f : OutFrame) : Bytes :=
  hdrBytes { ver := 2, kind := f.kind, tag := f.tag, st := f.st, len := f.data.length, txn := f.txn, fn := f.fn, cred := creditsOf s f.port,
             flags := f.flags }

/-- A frame on SPI, with its CRC-32 (R278). -/
def spiFrame (s : State) (f : OutFrame) : Bytes :=
  let b := frameHead s f ++ f.data
  b ++ le 4 (crc32 b)

/-- The counter of a frame (R271, R294): the frames of one message take consecutive ones from its first frame's on. -/
def frameCtr (x : Sess) (f : OutFrame) : Nat :=
  if f.part = 0 then x.next else match x.held.find? (fun e => decide (e.1 = f.tag)) with | some e => e.2 + f.part | none => x.next

/-- A frame on a network: a zero trailer, or protected by the session's key and counter (R291, R294). -/
def netFrame (s : State) (f : OutFrame) : Bytes :=
  let h := frameHead s f
  if f.clear then h ++ f.data ++ List.replicate 24 0
  else match f.sess.bind (getSess s) with
    | some x =>
      let c := gcmSeal x.kout (le 4 x.dev ++ le 8 (frameCtr x f)) h f.data
      h ++ c.1 ++ le 8 (frameCtr x f) ++ c.2
    | none => []

/-- A tag slot is released (R25). -/
def freeTag (i : Nat) (s : State) : State := startReqs (setTag i none s)

/-- A frame leaves RING-12; the last frame of a response releases its tag slot (R25). -/
def leave12 (f : OutFrame) (s : State) : State :=
  let s := setSrv (fun v => { v with ring12 := v.ring12.erase f, midSpi := if f.port = .spi then (if bit f.flags 1 then some f.tag else none) else v.midSpi }) s
  match f.slot with
  | some i => freeTag i s
  | none => s

/-- A frame leaves RING-13. -/
def leave13 (f : OutFrame) (s : State) : State := setSrv (fun v => { v with ring13 := v.ring13.erase f }) s

/-- Between two frames of one message SPI hands out no other frame (R271). -/
def fitsMid (s : State) (f : OutFrame) : Bool :=
  match s.srv.midSpi with | some t => decide (f.port ≠ .spi) || (decide (f.tag = t) && bit f.flags 0) | none => true

/-- The oldest frame that waits for a port: completions before notifications (R279). -/
def nextOut (s : State) (p : Port) : Option (OutFrame × Bool) :=
  if p = .spi ∧ s.srv.midSpi ≠ none then
    (s.srv.ring12.find? (fun f => decide (f.port = p) && fitsMid s f)).map (fun f => (f, true))
  else match s.srv.ring12.find? (fun f => decide (f.port = p)) with
  | some f => some (f, true)
  | none => (s.srv.ring13.find? (fun f => decide (f.port = p))).map (fun f => (f, false))

end Sys2Proof.Machine
end

