-- ==== Sys2Proof/Machine/Requests.lean ====
section
/-! DEFINITION. Requests from their ring to their response (R25, R266 to R275) and the operations READ, READ-SET, BEGIN and ROLLBACK
(R30 to R32, R247, R250, R254 to R256, R267, R272). -/

namespace Sys2Proof.Machine

/-! ### Parsing (R266, R268, R271) -/

/-- The open request message of a frame: same port, session and tag, not complete. -/
def openMsg (s : State) (r : ReqFrame) (tag : Nat) : Option (Nat × Tag) :=
  (usedTags s).find? (fun e => e.2.of r.port r.sess && decide (e.2.tag = tag) && !e.2.full && decide (e.2.fin = none))

/-- The tag is that of a request still outstanding on the port or session. -/
def tagBusy (s : State) (r : ReqFrame) (tag : Nat) : Bool :=
  (usedTags s).any (fun e => e.2.of r.port r.sess && decide (e.2.tag = tag))

/-- The payload of a message whose frames are all there: consecutive counters from the first frame's to one without MANY.
(DEDUCED, log 15) -/
def wholeGo : Nat → Nat → List (Nat × Bytes × Bool) → Option Bytes
  | 0, _, _ => none
  | k + 1, c, ps =>
    match ps.find? (fun p => decide (p.1 = c)) with
    | some p => if p.2.2 then (match wholeGo k (c + 1) ps with | some b => some (p.2.1 ++ b) | none => none) else some p.2.1
    | none => none

/-- A frame status for the FN of a whole request (R268), 0 when it stands. (DEDUCED, log 15) -/
def fnStatus (fnf arrival : Nat) (ops : List Op) : Nat :=
  if hasCommit ops then 0 else if arrival + 1024 < fnf then 0x32 else 0

/-- A frame joins its message; a complete message gives the request its operations (R271). -/
def addPart (i : Nat) (t : Tag) (r : ReqFrame) (pay : Bytes) (many : Bool) (s : State) : State :=
  let ctr := if r.port = .spi then t.parts.length else r.ctr
  let t := { t with parts := t.parts ++ [(ctr, pay, many)], fn := r.fn }
  let total := sumN (t.parts.map (fun p => p.2.1.length))
  if 8192 < total then failTag i t 0x60 s
  else match wholeGo t.parts.length (t.parts.headD (0, [], false)).1 t.parts with
    | none => setTag i (some t) s
    | some b =>
      match opsOf b with
      | none => failTag i { t with full := true } 0x31 s
      | some ops =>
        let t := { t with full := true, parts := [], ops := ops, ord := s.srv.ord }
        let s := setSrv (fun v => { v with ord := v.ord + 1 }) s
        if ops.any (fun o => decide (o.code = 0x60)) then failTag i t (if ops.length = 1 then 0x32 else 0x31) s
        else if fnStatus t.fnf r.fn ops ≠ 0 then failTag i t 0x32 s
        else setTag i (some t) s

/-- A request frame that is not a continuation: refused, or bound to a slot (R24 to R26, R266). -/
def bindReq (r : ReqFrame) (h : Hdr) (pay : Bytes) (s : State) : State :=
  let many := bit h.flags 1
  let ops := if many then some [] else opsOf pay
  if h.tag > 47 ∨ tagBusy s r h.tag then refuse r h.tag 0x32 s
  else if frameMax r.port < pay.length then refuse r h.tag 0x60 s
  else match ops with
    | none => refuse r h.tag 0x31 s
    | some ops =>
      if ops.any (fun o => decide (o.code = 0x60)) then refuse r h.tag (if ops.length = 1 then 0x32 else 0x31) s
      else if fnStatus h.fn r.fn ops ≠ 0 ∧ many = false then refuse r h.tag 0x32 s
      else if h.txn ≠ 0 ∧ findTxn s h.txn r.port r.sess = none then refuse r h.tag 0x40 s
      else match freeSlot s r.port with
        | none => refuse r h.tag 0x61 s
        | some i =>
          let s := match findTxn s h.txn r.port r.sess with | some x => setTxn { x with last := s.fn } s | none => s
          addPart i { port := r.port, sess := r.sess, tag := h.tag, txn := h.txn, fnf := h.fn, hdr := h.txn } r pay many s

/-- RX_DISCARDED of a port. -/
def rxDiscarded : Port → Nat
  | .spi => K.spiRxDiscarded
  | .plc => K.plcRxDiscarded
  | _ => K.t1sRxDiscarded

/-- The object server parses a frame: discarded for its KIND, taken as a HELLO, refused, or bound. (DEDUCED, log 15; DEDUCED, log 16) -/
def parseReq (r : ReqFrame) (s : State) : State :=
  let h := hdrOf r.bytes
  let pay := r.bytes.drop 16
  if h.kind ≠ 0 then s.bumpLive (rxDiscarded r.port)
  else if h.ver ≠ 2 ∨ 8 ≤ h.flags then refuse r h.tag 0x31 s
  else if bit h.flags 0 then
    (match openMsg s r h.tag with
     | some (i, t) =>
       if frameMax r.port < pay.length then refuse r h.tag 0x60 s else addPart i t r pay (bit h.flags 1) s
     | none => refuse r h.tag 0x31 s)
  else if h.tag = 0xFF ∧ bit h.flags 1 = false then
    (match opsOf pay with
     | none => refuse r h.tag 0x31 s
     | some [o] =>
       if o.code ≠ 0x60 ∨ r.fn + 1024 < h.fn then refuse r h.tag 0x32 s
       else setSrv (fun v => { v with hello := v.hello ++ [r] }) s
     | some l => refuse r h.tag (if l.any (fun o => decide (o.code = 0x60)) then 0x31 else 0x32) s)
  else bindReq r h pay s

/-- REQUEST_PARSE (R266): the object server parses the oldest request frame, which is the port's, and returns its credit; requests
that may start do so. (DEDUCED, log 18) -/
def execRequestParse (port : Port) (s : State) : Host.Outcome State Fault Refusal :=
  .next (if serverRuns s then
    match s.srv.inq with
    | r :: l => if r.port = port then startReqs (parseReq r (setSrv (fun v => { v with inq := l }) s)) else s
    | [] => s
  else s)

/-- REQUEST_START_DEFERRED (R268): a request held by its FN starts at the tick of that frame. -/
def execRequestStartDeferred (slot : Fin 48) (s : State) : Host.Outcome State Fault Refusal :=
  .next (match getTag s slot.val with
    | some t => if t.fnf ≠ 0 ∧ t.fnf ≤ s.fn ∧ t.begun = false then startReqs s else s
    | none => s)

/-- CONTINUATION_TIMEOUT (R271): a request message whose next frame has not come for more than 1,024 frames completes CANCELLED. -/
def execContinuationTimeout (slot : Fin 48) (s : State) : Host.Outcome State Fault Refusal :=
  .next (match getTag s slot.val with
    | some t => if t.full = false ∧ t.fin = none ∧ t.fn + 1024 < s.fn then failTag slot.val t 0x12 s else s
    | none => s)

/-! ### Responses (R271, R275) -/

/-- The next frame of a response: at most the port's payload, with CONT and MANY (R271). -/
def respFrame (s : State) (i : Nat) (t : Tag) (left : Bytes) : OutFrame × Bytes :=
  let n := frameMax t.port
  let rest := left.drop n
  ({ port := t.port, sess := t.sess, tag := t.tag, st := t.fst, txn := t.hdr, fn := respFn s t,
     flags := b2n (!t.first) + 2 * b2n (decide (rest ≠ [])), data := left.take n,
     slot := if rest = [] then some i else none, part := t.part, parts := max 1 ((left.length + n - 1) / n) }, rest)

/-- Frames of one response enter the share as far as they fit (R275). (DEDUCED, log 32) -/
def enqueueGo : Nat → Nat → State → State
  | 0, _, s => s
  | k + 1, i, s =>
    match getTag s i with
    | none => s
    | some t =>
      match t.left with
      | none => s
      | some left =>
        let (f, rest) := respFrame s i t left
        if shareUsed s t.port false + outUnits f ≤ shareOf t.port - 16 then
          let s := push12 f s
          if rest = [] then
            setSrv (fun v => { v with done := v.done.erase i }) (setTag i (some { t with left := none, first := false, stall := false, part := t.part + 1 }) s)
          else enqueueGo k i (setTag i (some { t with left := some rest, first := false, stall := false, part := t.part + 1 }) s)
        else if t.stall then s
        else setTag i (some { t with stall := true }) (s.bump (K.stalls 12))

/-- The session of a request has ended: its response is discarded and the slot released (R292). -/
def orphan (s : State) (t : Tag) : Bool :=
  match t.port, t.sess with
  | .spi, _ => false
  | .internal, _ => false
  | _, some k => decide (getSess s k = none)
  | _, none => true

/-- RESPONSE_ENQUEUE (R275): the response that completed first enters its port's share of RING-12 once it fits; later ones wait
behind it. -/
def execResponseEnqueue (port : Port) (s : State) : Host.Outcome State Fault Refusal :=
  .next (if serverRuns s then
    match s.srv.done.find? (fun i => match getTag s i with | some t => decide (t.port = port) | none => true) with
    | none => s
    | some i =>
      match getTag s i with
      | none => setSrv (fun v => { v with done := v.done.erase i }) s
      | some t =>
        if orphan s t then freeTag i (setSrv (fun v => { v with done := v.done.erase i }) s)
        else enqueueGo 16 i s
  else s)

/-! ### Operations -/

/-- UNKNOWN_OPCODE (R267): an operation whose opcode Table 10.3 does not list is answered BAD-TYPE. -/
def execUnknownOpcode (slot : Fin 48) (s : State) : Host.Outcome State Fault Refusal :=
  .next (runOp slot.val
    (fun o => decide (o.code ∉ [0x10, 0x11, 0x12, 0x20, 0x30, 0x31, 0x32, 0x40, 0x50, 0x51, 0x60])) (fun _ _ s => answer slot.val 0x31 [] s) s)

/-- READ (R247): the value from the request's snapshot, from the transaction's staging, or as last committed. -/
def execRead (slot : Fin 48) (s : State) : Host.Outcome State Fault Refusal :=
  .next (runOp slot.val (fun o => decide (o.code = 0x10)) (fun t o s =>
    if o.data ≠ [] then answer slot.val 0x31 [] s
    else
      let r := readObj s t o.key
      let s := if r.1 = 0 then markUsed slot.val r.2.2 (trackRead t o.key s) else s
      answer slot.val r.1 r.2.1 s) s)

/-- The objects that a READ-SET or a SUBSCRIBE lists: keys of COUNT entries of 3 bytes. -/
def listedKeys (b : Bytes) : Nat → List Nat
  | 0 => []
  | n + 1 => (256 * at_ b 0 2 + at_ b 2 1) :: listedKeys (b.drop 3) n

/-- READ_SET (R31, R272): every listed object from one snapshot, at most 16,384 bytes of entries. -/
def execReadSet (slot : Fin 48) (s : State) : Host.Outcome State Fault Refusal :=
  .next (runOp slot.val (fun o => decide (o.code = 0x11)) (fun t o s =>
    let n := at_ o.data 0 2
    if o.data.length < 2 then answer slot.val 0x31 [] s
    else if 2048 < n then answer slot.val 0x60 [] s
    else if o.data.length ≠ 2 + 3 * n then answer slot.val 0x31 [] s
    else
      let ks := listedKeys (o.data.drop 2) n
      let rs := ks.map (fun k => (k, readObj s t k))
      let body := rs.flatMap (fun e => entryBytes (e.1 / 256) (e.1 % 256) e.2.1 e.2.2.1)
      if 16384 < body.length then answer slot.val 0x60 [] s
      else
        let s := rs.foldl (fun s e => if e.2.1 = 0 then
          (match findTxn s t.txn t.port t.sess with | some _ => trackRead t e.1 s | none => s) else s) s
        answer slot.val 0 body (markUsed slot.val (rs.any (fun e => e.2.2.2)) s)) s)

/-- The next transaction ID (R250): above the last one, wrapping from 0xFFFF to 1, open ones skipped. -/
def nextTxnId (s : State) : Nat :=
  let from_ := (List.range 5).map (fun i => (s.srv.lastId + i) % 65535 + 1)
  (from_.find? (fun n => s.srv.txns.all (fun x => decide (x.id ≠ n)))).getD 1

/-- A transaction opens and its ID stands in the response header (R250). (DEDUCED, log 20) -/
def openTxn (i : Nat) (t : Tag) (rw : Bool) (snap : Option Snap) (s : State) : State :=
  let id := nextTxnId s
  let x : Txn := { id := id, port := t.port, sess := t.sess, rw := rw, fn := s.fn, last := s.fn, ord := s.srv.acks, snap := snap }
  let s := setSrv (fun v => { v with txns := v.txns ++ [x], lastId := id }) s
  let s := match snap with
    | some p => if s.pins.any (fun e => decide (e.1 = p.fn)) then s else { s with pins := s.pins ++ [(p.fn, p)] }
    | none => s
  let s := match getTag s i with | some t => setTag i (some { t with hdr := id }) s | none => s
  let gen := match snap with | some p => p.gen | none => s.genOf s.fn
  answer i 0 (le 6 (match snap with | some p => p.fn | none => 0) ++ le 4 gen ++ le 2 (if rw then 16384 else 0)) s

/-- BEGIN (R250): at most four transactions are open; a read-only one pins CURRENT, and a third pinned frame is BUSY (R32).
(DEDUCED, log 19) -/
def execBegin (slot : Fin 48) (s : State) : Host.Outcome State Fault Refusal :=
  .next (runOp slot.val (fun o => decide (o.code = 0x30)) (fun t o s =>
    if o.data.length ≠ 1 then answer slot.val 0x31 [] s
    else if 1 < at_ o.data 0 1 then answer slot.val 0x32 [] s
    else if 4 ≤ s.srv.txns.length then answer slot.val 0x42 [] s
    else if at_ o.data 0 1 = 1 then openTxn slot.val t true none s
    else match s.current with
      | none => answer slot.val 0x10 [] s
      | some p =>
        if s.pins.all (fun e => decide (e.1 ≠ p.fn)) ∧ 2 ≤ s.pins.length then answer slot.val 0x10 [] s
        else openTxn slot.val t false (some p) s) s)

/-- ROLLBACK (R255): the transaction ends, its staging is discarded and its pin released. (DEDUCED, log 19) -/
def execRollback (slot : Fin 48) (s : State) : Host.Outcome State Fault Refusal :=
  .next (runOp slot.val (fun o => decide (o.code = 0x32)) (fun t o s =>
    if t.txn = 0 then answer slot.val 0x40 [] s
    else if o.data ≠ [] then answer slot.val 0x31 [] s
    else answer slot.val 0 [] (endTxn t.txn s)) s)

/-- PIN_EXPIRY (R32): 2,048 frames after BEGIN a read-only transaction is closed and its pin released. -/
def execPinExpiry (txn : Nat) (s : State) : Host.Outcome State Fault Refusal :=
  .next (match s.srv.txns.find? (fun x => decide (x.id = txn)) with
    | some x => if x.rw = false ∧ x.fn + 2048 ≤ s.fn then endTxn txn (s.bump K.txnTimeouts) else s
    | none => s)

/-- TXN_TIMEOUT (R255): a read-write transaction without a request for 30,720 frames is rolled back. -/
def execTxnTimeout (txn : Nat) (s : State) : Host.Outcome State Fault Refusal :=
  .next (match s.srv.txns.find? (fun x => decide (x.id = txn)) with
    | some x => if x.rw ∧ x.last + 30720 ≤ s.fn then endTxn txn (s.bump K.txnTimeouts) else s
    | none => s)

end Sys2Proof.Machine
end

