-- ==== Sys2Proof/Machine/Validate.lean ====
section
/-! DEFINITION. The checks on a WRITE (Table 9.6, R55, R95, R104, R168, R213, R372) and the stages 3 to 10 of COMMIT (Table 9.7: R21,
R22, R51, R52, R80, R103, R156, R167, R175, R208, R337, R431). -/

namespace Sys2Proof.Machine

/-! ### Frozen objects -/

/-- The circuits that count as SEALED: from the acknowledgement of the commit that seals them (R372). -/
def sealedCcts (s : State) : List Nat := (List.range 256).filter (fun c => decide (s.get (K.cctRegime c) = 1))

/-- A SEALED circuit uses one of some current channels. -/
def sealedChan (s : State) (ns : List Nat) : Bool :=
  (sealedCcts s).any (fun c => [K.cctChA c, K.cctChB c, K.cctChC c, K.cctChN c].any (fun k => decide (s.get k ∈ ns)))

/-- A SEALED circuit references a voltage channel. -/
def sealedVolt (s : State) (v : Nat) : Bool :=
  (sealedCcts s).any (fun c => [K.cctVA c, K.cctVB c, K.cctVC c].any (fun k => decide (s.get k = v)))

/-- A SEALED circuit uses a schedule. -/
def sealedSched (s : State) (h : Nat) : Bool := (sealedCcts s).any (fun c => decide (s.get (K.cctSchedule c) = h))

/-- The channels of a lane and its partner. -/
def pairChans (l : Nat) : List Nat := (List.range 16).map (fun i => 16 * (l / 2) + i)

/-- The day profiles that a schedule names, by the week words of its USED seasons and by its USED special days (R167). -/
def namedProfiles (s : State) (h : Nat) : List Nat :=
  let weeks := (List.range 4).flatMap (fun i =>
    if bit (s.get (K.schSeason h i)) 31 then (List.range 7).map (fun d => s.get (K.schWeek h i) / 2 ^ (4 * d) % 16) else [])
  let days := (List.range 64).filterMap (fun k =>
    let w := s.get (K.schSpecial h k)
    if bit w 31 then some (w % 16) else none)
  weeks ++ days

/-- An object with flag S is frozen by a SEALED circuit (R55, R95, R104, R168, R175, R213, R237). -/
def frozen (s : State) (k : Nat) : Bool :=
  let i := k / 256
  let sub := k % 256
  if i < 0x2020 ∧ 0x2000 ≤ i then sealedChan s (pairChans (i - 0x2000))
  else if i < 0x2120 ∧ 0x2100 ≤ i then sealedChan s (pairChans (i - 0x2100))
  else if i < 0x220C ∧ 0x2200 ≤ i then sealedVolt s (i - 0x2200)
  else if i < 0x2400 ∧ 0x2300 ≤ i then sealedChan s (pairChans ((i - 0x2300) / 8))
  else if i < 0x2500 ∧ 0x2400 ≤ i then sealedChan s [i - 0x2400]
  else if i < 0x3100 ∧ 0x3000 ≤ i then decide (i - 0x3000 ∈ sealedCcts s)
  else if i < 0x4300 ∧ 0x4200 ≤ i then decide (i - 0x4200 ∈ sealedCcts s)
  else if i < 0x4305 ∧ 0x4301 ≤ i then sealedSched s (i - 0x4301)
  else if i < 0x430C ∧ 0x4308 ≤ i then sealedSched s (i - 0x4308)
  else if i < 0x4320 ∧ 0x4310 ≤ i then
    (List.range 4).any (fun h => sealedSched s h && decide (i - 0x4310 ∈ namedProfiles s h))
  else if i < 0x4404 ∧ 0x4400 ≤ i then sealedSched s (i - 0x4400)
  else if i < 0x5008 ∧ 0x5000 ≤ i then (sealedCcts s).any (fun c => bit (s.get (K.poCctMask (i - 0x5000))) c)
  else if i = 0x5010 then decide (sub ∈ sealedCcts s)
  else if i < 0x620C ∧ 0x6200 ≤ i then sealedVolt s (i - 0x6200)
  else decide (sealedCcts s ≠ [])

/-- The legal object needs calibration state for a value (R55, R95, R104, R372; BG_HOLD). -/
def needsCal (s : State) (k v : Nat) : Bool :=
  let i := k / 256
  let sub := k % 256
  if 0x2000 ≤ i ∧ i < 0x2500 then true
  else if i = 0x2501 then true
  else if 0x3000 ≤ i ∧ i < 0x3100 then
    (if sub = 0x11 then decide (v = 0) && decide (s.get k = 1) else decide (sub ≤ 0x0F))
  else false

/-- The stage of Table 9.14 that validates an object, or 0. -/
def stageOf (k : Nat) : Nat :=
  let i := k / 256
  let sub := k % 256
  if (0x2000 ≤ i ∧ i < 0x2020 ∧ sub = 1) ∨ (0x2100 ≤ i ∧ i < 0x2120) ∨ (0x2300 ≤ i ∧ i < 0x2400 ∧ sub ≤ 5) then 3
  else if (0x2400 ≤ i ∧ i < 0x2500 ∧ (sub = 3 ∨ sub = 7)) ∨ (0x2200 ≤ i ∧ i < 0x220C ∧ sub = 4) then 4
  else if 0x3000 ≤ i ∧ i < 0x3100 ∧ sub ≤ 0x13 then 5
  else if (0x3400 ≤ i ∧ i < 0x3500 ∧ sub = 0xF0) ∨ (i = 0x3700 ∧ sub ≤ 0x0E) ∨ (0x3710 ≤ i ∧ i < 0x371C) ∨
      (i = 0x3800 ∧ sub ≤ 5) ∨ i = 0x3801 then 6
  else if (0x4200 ≤ i ∧ i < 0x4300 ∧ sub ≤ 3) ∨ (0x4300 ≤ i ∧ i < 0x4320) ∨ (0x4400 ≤ i ∧ i < 0x4404 ∧ sub ≤ 3) then 7
  else if (0x5000 ≤ i ∧ i < 0x5008 ∧ sub ≤ 8) ∨ (i = 0x5008 ∧ sub ≤ 3) ∨ i = 0x5010 then 8
  else if k = K.rollPeriod ∨ k = K.stirrupCap ∨ k = K.hjLen then 9
  else 0

/-- A legal twin record is in CONFLICT or LOST (R349): no L object may change. -/
def legalLocked (s : State) : Bool := (List.range 8).any (fun i => decide (s.get (K.legalTwinState i) ∈ [1, 3]))

/-- Steps 1 to 7 of Table 9.6 for a WRITE: the status, 0 when they pass, and the value. -/
def checkWrite (s : State) (role k : Nat) (data : Bytes) : Nat × Nat :=
  match rowOf k with
  | none => (0x30, 0)
  | some r =>
    if r.ty = .method then (0x31, 0)
    else if r.wr = 6 then (0x33, 0)
    else if data.length ≠ r.ty.bytes then (0x31, 0)
    else if role < r.wr then (0x20, 0)
    else if r.has 1 && legalLocked s then (0x20, 0)
    else if needsCal s k (ofLe data) ∧ s.live K.calState ≠ 1 then (0x22, 0)
    else if r.has 2 ∧ frozen s k then (0x21, 0)
    else match valOf r.ty data with
      | none => (0x32, 0)
      | some v => if stageOf k = 0 ∧ r.rng.ok r.ty v = false then (0x32, 0) else (0, v)

/-- Steps 1 to 4 of Table 9.6 for the EXEC of a method with an argument length (R246): the status, 0 when they pass. -/
def checkExec (role k : Nat) (data : Bytes) (len : Nat → Bool) : Nat :=
  match rowOf k with
  | none => 0x30
  | some r =>
    if r.ty ≠ .method then 0x31
    else if len data.length = false then 0x31
    else if role < r.wr then 0x20
    else 0

/-! ### Stages -/

/-- The frame number by which State.cfg answers what was committed last. -/
def lastF : Nat := 2 ^ 60

/-- A value lies outside the stated range of its object (R431); gain codes are 0 to 5 (Table 2.4), N_POLARITY 0 or 1 (R154),
PT_QUANTITY 0 to 4 (Table 7.1). (DEDUCED, log 21) -/
def outOfRange (k v : Nat) : Bool :=
  let i := k / 256
  let sub := k % 256
  if 0x2300 ≤ i ∧ i < 0x2400 ∧ (sub = 3 ∨ sub = 4) then decide (5 < v)
  else if k = K.pqNPolarity then decide (1 < v)
  else if i = 0x5008 ∧ sub = 2 then decide (4 < v)
  else match rowOf k with | some r => !r.rng.ok r.ty v | none => false

/-- The stage's own rules cover the object's range: those of a circuit when it is defined, those of a pulse output when it is enabled. -/
def covered (s : State) (k : Nat) : Bool :=
  let i := k / 256
  let sub := k % 256
  decide (0x2000 ≤ i ∧ i < 0x2020) || decide (0x3000 ≤ i ∧ i < 0x3100 ∧ (sub ≤ 0x0D ∨ sub = 0x12) ∧ s.get (K.cctKind (i - 0x3000)) ≠ 0) ||
  decide (0x4200 ≤ i ∧ i < 0x4300) || decide (0x4300 ≤ i ∧ i < 0x4320) || decide (0x4400 ≤ i ∧ i < 0x4404) ||
  decide (0x5000 ≤ i ∧ i < 0x5008 ∧ sub ≠ 7 ∧ s.get (K.poEnable (i - 0x5000)) = 1) || k == K.capPre || k == K.capPost || decide (i = 0x3801)

/-- The lowest number of a list. -/
def least : List Nat → Option Nat
  | [] => none
  | a :: l => match least l with | some b => some (min a b) | none => some a

/-- The first object of a stage, in ascending order, whose value in the configuration that would result is out of its stated range
(R253, R431). (DEDUCED, log 21) -/
def rangeBad (stage : Nat) (s : State) : Option Nat :=
  least ((s.dict.filter (fun e =>
    decide (e.1 < 0x1000000) && decide (stageOf e.1 = stage) && !covered s e.1 && outOfRange e.1 e.2)).map (fun e => e.1))

/-- The transaction writes an object that a test picks. -/
def touches (chg : List (Nat × Nat)) (p : Nat → Bool) : Bool := chg.any (fun e => p e.1)

/-- The non-GAP entries of a lane as (channel, skew c of R77). -/
def entrySkews (s : State) (l : Nat) : List (Nat × Nat) :=
  ((committedTable s lastF l).foldl (fun (a : Nat × List (Nat × Nat)) e =>
    (a.1 + e.discard + e.rep,
     if e.gap then a.2 else a.2 ++ [(srcCh l e.src, 2 * (a.1 + e.discard) + e.rep - 1)])) (0, [])).2

/-- Checks 1 to 4 of Table 2.6 on the entries of a lane; 2 is TABLE_LEN's. (DEDUCED, log 26) -/
def entryBad (s : State) (l e : Nat) (n : Nat) : Bool :=
  let w := s.get (K.laneEntry l e)
  let x := entryOf w
  match n with
  | 1 => bit w 31 || decide (field w 27 24 ≠ 0) || bit w 11 || decide (5 < x.gain) || decide (20 < x.src)
  | 3 => decide (8 < x.shift) || decide (2 ^ (6 + x.shift) < x.rep)
  | _ =>
    if x.gap then !((if x.rot then decide (x.src = 0) else decide (16 ≤ x.src)) && !x.dr)
    else decide (15 < x.src) || x.rot || (x.dr && decide (x.gain ≠ 0))

/-- The first input in error of the partner pair of lane `l`, over the two tables of the pair (check 5). -/
def inputBad (s : State) (l : Nat) : Option Nat :=
  let srcs := (entrySkews s (2 * (l / 2)) ++ entrySkews s (2 * (l / 2) + 1)).map (fun e => e.1)
  ((List.range 16).map (fun i => 16 * (l / 2) + i)).find? (fun n =>
    let c := (srcs.filter (fun m => decide (m = n))).length
    if s.get (K.chEnable n) = 1 then decide (c ≠ 1) else decide (c ≠ 0))

/-- The table checks of a lane in order (R51).  Checks 1, 3 and 4 look at the entries below TABLE_LEN, at most 64; entries beyond it
are not checked. (DEDUCED, log 26; DESIGN CHOICE, log 84) -/
def laneBad (s : State) (l : Nat) : Option Nat :=
  let n := s.get (K.laneTableLen l)
  let es := List.range (min n 64)
  let tab := committedTable s lastF l
  let ent := fun (c : Nat) => (es.find? (fun e => entryBad s l e c)).map (fun e => K.laneEntry l e)
  let chans := (List.range 8).map (fun i => 8 * l + i)
  (ent 1).orElse fun _ =>
  (if n < 1 ∨ 64 < n ∨ sumN (tab.map (fun e => e.discard + e.rep)) ≠ 128 then some (K.laneTableLen l) else none).orElse fun _ =>
  (ent 3).orElse fun _ => (ent 4).orElse fun _ =>
  ((inputBad s l).map (fun m => K.chEnable m)).orElse fun _ =>
  (if tab.any (fun e => e.gap && decide (8 ≤ e.discard + e.rep)) then none else some (K.laneTableLen l)).orElse fun _ =>
  (chans.find? (fun m => decide (s.get (K.chRangeMode m) = 0) &&
    !(decide (s.get (K.chGainHigh m) ∈ (List.range 4).map (fun d => s.get (K.chGainLow m) + 1 + d)) &&
      decide (s.get (K.chGainHigh m) ≤ 5)))).map (fun m => K.chGainHigh m)

/-- The channels that a circuit's fields name, as (key, number). -/
def cctFields (s : State) (c : Nat) : List (Nat × Nat) :=
  [K.cctChA c, K.cctChB c, K.cctChC c, K.cctChN c].map (fun k => (k, s.get k))

/-- Stage 3 (R51, R52). -/
def stage3 (s : State) (chg : List (Nat × Nat)) : Option Nat :=
  let on := touches chg (fun k => decide (stageOf k = 3) && !(decide (0x2300 ≤ k / 256) && decide (k % 256 = 2)))
  let tables := if on then (List.range 32).findSome? (laneBad s) else none
  tables.orElse fun _ =>
    least ((chg.filter (fun e => decide (0x2300 ≤ e.1 / 256 ∧ e.1 / 256 < 0x2400 ∧ e.1 % 256 = 1) && decide (e.2 = 0) &&
      (definedCcts s lastF).any (fun c => (cctFields s c).any (fun f => decide (f.2 = e.1 / 256 - 0x2300))))).map (fun e => e.1))

/-- Stage 4 (R80): the delay windows. (DEDUCED, log 26) -/
def stage4 (s : State) : Option Nat :=
  let cur := ((List.range 32).flatMap (entrySkews s)).findSome? (fun e =>
    if (e.2 : Int) + s.getI (K.chDelayLow e.1) < -256 then some (K.chDelayLow e.1)
    else if (e.2 : Int) + s.getI (K.chDelayHigh e.1) < -256 then some (K.chDelayHigh e.1) else none)
  cur.orElse fun _ => ((List.range 12).find? (fun v => decide (s.getI (K.vDelay v) < -256))).map (fun v => K.vDelay v)

/-- What a field of a circuit of a kind must hold (Table 4.1): 0 none, 1 a channel, 2 either. -/
def fieldRule (kind : Nat) : List Nat :=
  match kind with
  | 1 => [1, 0, 0, 2, 1, 0, 0]
  | 2 => [1, 1, 0, 2, 1, 2, 0]
  | 3 => [1, 1, 1, 2, 1, 1, 1]
  | _ => [1, 0, 1, 0, 1, 0, 1]

/-- The checks of Table 4.2 on one circuit, with the state before the commit and what it writes. -/
def cctBad (old s : State) (chg : List (Nat × Nat)) (c : Nat) : Option Nat :=
  let kind := s.get (K.cctKind c)
  if kind = 0 then (if s.get (K.cctRegime c) = 1 then some (K.cctRegime c) else none)
  else
    let keys := [K.cctChA c, K.cctChB c, K.cctChC c, K.cctChN c, K.cctVA c, K.cctVB c, K.cctVC c]
    let noneV := fun (i : Nat) => if i < 4 then 0xFFFF else 0xFF
    let key := fun (i : Nat) => keys.getD i 0
    let val := fun (i : Nat) => s.get (key i)
    let wrote := fun (k : Nat) => touches chg (fun x => decide (x = k))
    let ccts := (List.range 256).filter (fun d => decide (s.get (K.cctKind d) ≠ 0))
    ([(K.cctKind c, 4), (K.cctMode c, 2), (K.cctSignRule c, 1), (K.cctApparent c, 1), (K.cctEnergyUnit c, 3),
      (K.cctBalanceRole c, 2)].findSome? (fun e => if e.2 < s.get e.1 then some e.1 else none)).orElse fun _ =>
    ((List.range 7).findSome? (fun i =>
      let isNone := decide (val i = noneV i)
      let rule := (fieldRule kind).getD i 0
      let okNum := decide (val i < if i < 4 then 256 else 12)
      if (isNone && decide (rule = 1)) || (!isNone && (decide (rule = 0) || !okNum)) then some (key i) else none)).orElse fun _ =>
    ((List.range 7).findSome? (fun i =>
      if val i ≠ noneV i ∧ s.get (if i < 4 then K.chEnable (val i) else K.vEnable (val i)) ≠ 1 then some (key i) else none)).orElse fun _ =>
    ((List.range 4).findSome? (fun i =>
      if val i = 0xFFFF then none
      else ((ccts.flatMap (cctFields s)).filter (fun e => decide (e.2 = val i))).tail.head?.map (fun e => e.1))).orElse fun _ =>
    (if s.get (K.cctEnergyK c) = 0 then some (K.cctEnergyK c) else none).orElse fun _ =>
    (if kind = 4 ∧ s.get (K.cctApparent c) ≠ 1 then some (K.cctApparent c) else none).orElse fun _ =>
    (if kind = 1 ∧ s.get (K.cctSignRule c) = 1 then some (K.cctSignRule c) else none).orElse fun _ =>
    (if wrote (K.cctEnergyUnit c) ∧ s.get (K.cctEnergyUnit c) ≠ old.get (K.cctEnergyUnit c) ∧ wrote (K.cctEnergyK c) = false
      then some (K.cctEnergyUnit c) else none).orElse fun _ =>
    (if wrapHours s lastF c < 168 then
      some (if s.get (K.cctPMax c) ≠ 0 then K.cctPMax c else K.cctEnergyUnit c) else none)

/-- Stage 5 (R103, R372): circuits in ascending order, and no seal while an activation is SCHEDULED or in HEALTH. (DEDUCED, log 26) -/
def stage5 (old s : State) (chg : List (Nat × Nat)) : Option Nat :=
  let on := touches chg (fun k => decide (0x3000 ≤ k / 256 ∧ k / 256 < 0x3100) ||
    (decide (0x2200 ≤ k / 256 ∧ k / 256 < 0x2400) && decide (k % 256 = 1)))
  (if on then (List.range 256).findSome? (cctBad old s chg) else none).orElse fun _ =>
    if s.img.hand.isSome then
      least ((chg.filter (fun e => decide (0x3000 ≤ e.1 / 256 ∧ e.1 / 256 < 0x3100 ∧ e.1 % 256 = 0x11) && decide (e.2 = 1) &&
        decide (old.get e.1 ≠ 1))).map (fun e => e.1))
    else none

/-- Stage 6 (R156). -/
def stage6 (s : State) : Option Nat :=
  let sel := fun (i : Nat) => s.get (K.capChSel i)
  if 4096 < s.get K.capPre ∨ 16384 < s.get K.capPre + s.get K.capPost then some K.capPre
  else if s.get K.capPost = 0 then some K.capPost
  else ((List.range 16).find? (fun i => decide (sel i ≠ 0xFFFF) &&
    (decide (255 < sel i) || decide (s.get (K.chEnable (sel i)) ≠ 1) ||
      (List.range i).any (fun j => decide (sel j = sel i))))).map (fun i => K.capChSel i)

/-- A month and day exist, in a year when one is given. -/
def dateExists (year : Option Nat) (m d : Nat) : Bool :=
  decide (1 ≤ m ∧ m ≤ 12 ∧ 1 ≤ d) && decide (d ≤ match year with | some y => monthDays y m | none => monthDays 2000 m)

/-- A daylight-saving rule word is valid (Table 6.1). -/
def ruleOk (w : Nat) : Bool :=
  decide (field w 31 28 = 0) && decide (field w 17 11 = 0) && decide (1 ≤ field w 27 24 ∧ field w 27 24 ≤ 12) &&
  decide (1 ≤ field w 23 21 ∧ field w 23 21 ≤ 5) && decide (field w 20 18 ≤ 6) && decide (field w 10 0 ≤ 1439)

/-- A season word is valid; 29 February is refused (Table 6.2). -/
def seasonOk (w : Nat) : Bool :=
  decide (field w 30 9 = 0) &&
  (!bit w 31 || (dateExists none (field w 8 5) (field w 4 0) && decide (w % 512 ≠ 32 * 2 + 29)))

/-- The first object in error of a schedule (R167). -/
def schedBad (s : State) (h : Nat) : Option Nat :=
  let sea := fun (i : Nat) => s.get (K.schSeason h i)
  let used := (List.range 4).filter (fun i => bit (sea i) 31)
  (if 7 < s.get (K.schDefaultTariff h) then some (K.schDefaultTariff h) else none).orElse fun _ =>
  ((List.range 4).find? (fun i => !seasonOk (sea i) ||
    (bit (sea i) 31 && (List.range i).any (fun j => bit (sea j) 31 && decide (sea j % 512 = sea i % 512))))).map
    (fun i => K.schSeason h i) |>.orElse fun _ =>
  (if used = [] then some (K.schSeason h 0) else none).orElse fun _ =>
  ((List.range 4).find? (fun i => decide (field (s.get (K.schWeek h i)) 31 28 ≠ 0))).map (fun i => K.schWeek h i)

/-- The first special day in error of a schedule (R167). -/
def specialBad (s : State) (h : Nat) : Option Nat :=
  ((List.range 64).find? (fun k =>
    let w := s.get (K.schSpecial h k)
    let y := field w 30 24
    decide (field w 23 13 ≠ 0) ||
      (bit w 31 && !dateExists (if y = 127 then none else some (2000 + y)) (field w 12 9) (field w 8 4)))).map
    (fun k => K.schSpecial h k)

/-- The first point in error of a day profile: reserved bit, minute, or not ascending (R167). (DEDUCED, log 44) -/
def profileBad (s : State) (p : Nat) : Option Nat :=
  let w := fun (k : Nat) => s.get (K.dayPoint p k)
  ((List.range 8).find? (fun k => bit (w k) 14 ||
    (bit (w k) 15 && (decide (1439 < field (w k) 10 0) ||
      (List.range k).any (fun j => bit (w j) 15 && decide (field (w k) 10 0 ≤ field (w j) 10 0)))))).map (fun k => K.dayPoint p k)

/-- The first close rule object in error of a schedule (Table 6.7). (DEDUCED, log 26) -/
def closeBad (s : State) (h : Nat) : Option Nat :=
  let r := s.get (K.bpRule h)
  let d := s.get (K.bpDay h)
  if 3 < r then some (K.bpRule h)
  else if (r = 2 ∧ 6 < d) ∨ (r = 3 ∧ (d < 1 ∨ 28 < d)) then some (K.bpDay h)
  else if 1439 < s.get (K.bpMinute h) then some (K.bpMinute h)
  else none

/-- The calendar part of stage 7 (R167). -/
def calendarBad (s : State) : Option Nat :=
  (if s.getI K.calUtcOffset < -720 ∨ 840 < s.getI K.calUtcOffset then some K.calUtcOffset else none).orElse fun _ =>
  (if s.get K.calDstShift < 1 ∨ 120 < s.get K.calDstShift then some K.calDstShift else none).orElse fun _ =>
  (if ruleOk (s.get K.calDstStart) then none else some K.calDstStart).orElse fun _ =>
  (if ruleOk (s.get K.calDstEnd) then none else some K.calDstEnd).orElse fun _ =>
  ((List.range 4).findSome? (schedBad s)).orElse fun _ =>
  ((List.range 4).findSome? (specialBad s)).orElse fun _ =>
  ((List.range 16).findSome? (profileBad s)).orElse fun _ =>
  ((List.range 16).findSome? (fun p =>
    if (List.range 4).any (fun h => decide (p ∈ namedProfiles s h)) ∧ (List.range 8).all (fun k => !bit (s.get (K.dayPoint p k)) 15)
    then some (K.dayPoint p 0) else none)).orElse fun _ =>
  (List.range 4).findSome? (closeBad s)

/-- The demand objects of a circuit in error (R175). -/
def demandBad (s : State) (c : Nat) : Option Nat :=
  let iv := s.get (K.demInterval c)
  let m := s.get (K.demMethod c)
  let n := s.get (K.demSubint c)
  if iv ∉ [5, 10, 15, 30, 60] then some (K.demInterval c)
  else if 1 < m then some (K.demMethod c)
  else if (m = 0 ∧ n ≠ 1) ∨ (m = 1 ∧ (n < 2 ∨ 15 < n ∨ 60 * iv % n ≠ 0)) ∨ 60 * iv ≤ s.get K.rollPeriod * n then some (K.demSubint c)
  else none

/-- Stage 7 (R167, R175). -/
def stage7 (s : State) (chg : List (Nat × Nat)) : Option Nat :=
  let cal := touches chg (fun k => decide (0x4300 ≤ k / 256 ∧ k / 256 < 0x4404))
  let dem := touches chg (fun k => decide (0x4200 ≤ k / 256 ∧ k / 256 < 0x4300) || decide (k = K.rollPeriod))
  (if cal then calendarBad s else none).orElse fun _ => if dem then (List.range 256).findSome? (demandBad s) else none

/-- An enabled pulse output in error (R208). -/
def pulseBad (s : State) (i : Nat) : Option Nat :=
  let mask := s.get (K.poCctMask i)
  let cs := (List.range 256).filter (fun c => bit mask c)
  if s.get (K.poEnable i) ≠ 1 then none
  else if 4 < s.get (K.poQuantity i) then some (K.poQuantity i)
  else if s.get (K.poQuantity i) = 3 ∧ s.get (K.poQMask i) = 0 then some (K.poQMask i)
  else if s.get (K.poConstant i) < 1 then some (K.poConstant i)
  else if s.get (K.poWidth i) < 2 ∨ 80 < s.get (K.poWidth i) then some (K.poWidth i)
  else if cs = [] ∨ cs.any (fun c => decide (s.get (K.cctKind c) = 0)) then some (K.poCctMask i)
  else if cs.any (fun c => decide (s.get (K.cctEnergyUnit c) ≠ s.get (K.cctEnergyUnit (cs.headD 0)))) then some (K.poCctMask i)
  else none

/-- STIRRUP_PAGES for a declared capacitance in µF (R339). -/
def stirrupPagesOf (cap : Nat) : Nat := min 128 ((2142 * cap / 29000 * 100 - 96) / 36)

/-- Stage 9 (R337): roll bound and journal fit. -/
def stage9 (s : State) (chg : List (Nat × Nat)) : Option Nat :=
  let roll := (definedCcts s lastF).findSome? (fun c =>
    if 16777215 * 256 * 10 ^ s.get (K.cctEnergyUnit c) * 3600 < pMaxWatts s lastF c * (s.get K.rollPeriod + 2) * 1000000 then
      some (if touches chg (fun k => decide (k = K.rollPeriod)) then K.rollPeriod
        else if s.get (K.cctPMax c) ≠ 0 then K.cctPMax c else K.cctEnergyUnit c)
    else none)
  roll.orElse fun _ =>
    let n := stirrupPagesOf (s.get K.stirrupCap)
    if n < 64 then some K.stirrupCap else if 256 * (n - 59) < s.get K.hjLen then some K.hjLen else none

/-- Cycles of core 0, core 1 and the Hallmark core in frame `f` (Table 1.6). -/
def loads (s : State) (f : Nat) : Nat × Nat × Nat :=
  let chans := ((List.range 256).filter (fun n => decide (s.cfg f (K.chEnable n) = 1)))
  let volts := ((List.range 12).filter (fun v => decide (s.cfg f (K.vEnable v) = 1)))
  let harm := (chans.filter (fun n => decide (s.cfg f (K.spHarmEn n) = 1))).length +
    (volts.filter (fun v => decide (s.cfg f (K.spvHarmEn v) = 1))).length
  let ccts := (definedCcts s f).length
  let outs := ((List.range 8).filter (fun i => decide (s.cfg f (K.poEnable i) = 1))).length
  (20000 + 620 * chans.length + 1800 * volts.length + 132 * ccts + (if s.cfg f K.capEnable = 1 then 8000 else 0),
   12000 + 40 * ccts + 680 * harm,
   18000 + 260 * ccts + 300 * outs + (if s.cfg f K.ptEnable = 1 then 6000 else 0))

/-- Stage 10 (R21, R22): the frame budget. -/
def stage10 (s : State) : Option Nat :=
  let l := loads s lastF
  if 332031 < max l.1 l.2.1 then some K.loadTannery else if 136718 < l.2.2 then some K.loadHallmark else none

/-- Stages 3 to 10 on the configuration that a commit would leave: the stage and the object that fail. -/
def stagesBad (old : State) (chg : List (Nat × Nat)) : Option (Nat × Nat) :=
  let s := old.puts chg
  let run := fun (n : Nat) (x : Option Nat) => ((rangeBad n s).orElse fun _ => x).map (fun k => (n, k))
  (run 3 (stage3 s chg)).orElse fun _ => (run 4 (stage4 s)).orElse fun _ => (run 5 (stage5 old s chg)).orElse fun _ =>
  (run 6 (stage6 s)).orElse fun _ => (run 7 (stage7 s chg)).orElse fun _ =>
  (run 8 ((List.range 8).findSome? (pulseBad s))).orElse fun _ => (run 9 (stage9 s chg)).orElse fun _ => run 10 (stage10 s)

end Sys2Proof.Machine
end

