-- ==== Sys2Proof/Machine/Commit.lean ====
section
/-! DEFINITION. WRITE and COMMIT (R34, R36, R248 to R254, R432): staging, the stages of Table 9.7, posting the stores, and the
acknowledgement with a frame B that commits and methods share (R246). -/

namespace Sys2Proof.Machine

/-! ### Storing and acknowledging -/

/-- A number enters an ascending list without repeats. -/
def insN (n : Nat) : List Nat → List Nat
  | [] => [n]
  | a :: l => if n < a then n :: a :: l else if n = a then a :: l else a :: insN n l

/-- The Saddlebag pages that hold P objects among changes, ascending (R432). (DESIGN CHOICE, log 10) -/
def storePages (vals : List (Nat × Nat)) : List Nat :=
  (vals.filter (fun e => match rowOf e.1 with | some r => r.has 3 | none => true)).foldl (fun l e => insN (pageOf e.1) l) []

/-- The record of a commit or method is stored; that of an activation stands among the Hallmark records, in a legal twin record (R380).
(DESIGN CHOICE, log 10) -/
def postRecord (eff : Eff) (ack : Ack) (s : State) : State :=
  match eff with
  | .activate _ => storeRec (Config.pageWithin 1 % 8) s.fn ack s
  | _ => postJob { page := 936 + Config.pageWithin 0 % 48, fn := s.fn, ack := ack } s

/-- The stores of a commit or method are posted: one for each page in ascending order, the commit record last (R432). (DEDUCED, log 59) -/
def postCommit (i txn nb : Nat) (port role : Nat) (eff : Eff) (vals : List (Nat × Nat)) (s : State) : State :=
  let s := setSrv (fun v => { v with busy := true }) (holdTag i s)
  let s := (storePages vals).foldl (fun s p =>
    postJob { page := p, fn := s.fn, ovr := vals.filter (fun e => decide (pageOf e.1 = p)) } s) s
  postRecord eff (.commit i txn nb port role eff vals) s

/-- The B of a commit or method whose stores are sealed in frame `d` (R34); an activation leaves 64 frames (R380). -/
def commitB (s : State) (d nb : Nat) (eff : Eff) : Nat :=
  max (d + (match eff with | .activate _ => 64 | _ => 2)) (max nb (s.get K.lastCommitB))

/-- The generation from frame `b`: it increases by one for every commit and method with a B (R33). (DEDUCED, log 27) -/
def genFrom (s : State) (b : Nat) : Nat :=
  (s.genOf s.fn + (s.commits.filter (fun c => !c.done && decide (c.b ≤ b))).length) % 2 ^ 32

/-- KEYS_SET and PSK_SET follow the keys committed (R243). -/
def showKeys (vals : List (Nat × Nat)) (s : State) : State :=
  let s := (List.range 5).foldl (fun s r =>
    match vals.find? (fun e => decide (e.1 = K.sesRoleKey r)) with
    | some e => s.put K.sesKeysSet (putBit (s.get K.sesKeysSet) r (decide (e.2 ≠ 0)))
    | none => s) s
  match vals.find? (fun e => decide (e.1 = K.plcPsk)) with
  | some e => s.put K.plcPskSet (b2n (decide (e.2 ≠ 0)))
  | none => s

/-- The response data of an acknowledgement: B and generation of a COMMIT, B of an implicit write or a method. -/
def ackData (s : State) (txn b : Nat) (eff : Eff) : Bytes :=
  if txn ≠ 0 ∧ eff = .write then le 6 b ++ le 4 (genFrom s b) else le 6 b

/-- The keys that a range of object numbers spans. -/
def rowKeys (r : Row) : List Nat :=
  (List.range (r.hi + 1 - r.lo)).flatMap (fun i => (List.range (r.shi + 1 - r.slo)).map (fun j => 256 * (r.lo + i) + r.slo + j))

/-- Every P object that a page holds. -/
def pageKeys (p : Nat) : List Nat :=
  ((List.range 256).flatMap (fun h => (rowsOf h).filter (fun r => r.has 3))).flatMap (fun r => (rowKeys r).filter (fun k => decide (pageOf k = p)))

/-- The objects that a method changes beside the values of its record: they count as committed from its acknowledgement (R246). -/
def effKeys : Eff → List Nat
  | .write => []
  | .resume => [K.wiringRef, K.repaired, K.cause, K.resumeFn]
  | .reinstate kind num =>
    if kind < 3 then let u := unitKeys kind num; [u.state, u.cause, u.fail, u.pass, u.sfn]
    else if kind = 3 then [K.sparesFree, K.framesRetired] else if kind = 4 then [K.sectorsRetired]
    else if kind = 6 then [K.portState num] else []
  | .resolve legal r _ => if legal then K.legalTwinState r :: pageKeys (legalCopy r false) else [K.twinState r]
  | .restore _ _ => []
  | .activate _ => [K.leaseState, K.activateB]

/-- Objects count as committed, with the number of the acknowledgement (R252). -/
def noteAcked (ks : List Nat) (s : State) : State :=
  let n := s.srv.acks + 1
  let acked := if s.srv.txns.isEmpty then [] else ks.map (fun k => (k, n)) ++ s.srv.acked
  setSrv (fun v => { v with acks := n, acked := acked }) s

/-- An ACTIVATE whose lease has ended while its record was being stored: it needs LEASE_STATE VERIFIED (R379, R380). (DEDUCED, log 65) -/
def activateGone (eff : Eff) (s : State) : Bool :=
  match eff with
  | .activate _ => decide (s.img.lease = none) || decide (s.live K.leaseState ≠ 2)
  | _ => false

/-- COMMIT_ACKNOWLEDGE (R34): the commit record is sealed in the current frame D; the commit or method is acknowledged with its B,
counts as committed, and its settings are the last committed ones. (DEDUCED, log 59) -/
def ackCommit (i txn nb port role : Nat) (eff : Eff) (vals : List (Nat × Nat)) (s : State) : State :=
  if activateGone eff s then answer i 0x10 [] (setSrv (fun v => { v with busy := false }) s) else
  let b := commitB s s.fn nb eff
  let chg := vals.map (fun e => Chg.mk e.1 (s.get e.1) e.2)
  let c : Commit := { b := b, d := s.fn, txn := txn, chg := chg, eff := eff, done := false, port := port, role := role }
  let s := showKeys vals (s.puts vals)
  let s := { s with commits := s.commits ++ [c] }
  let s := (s.put K.lastCommitB b).put K.lastCommitTxn txn
  let s := if eff = .write then s.bump K.txnCommits else s
  let s := setSrv (fun v => { v with busy := false }) (noteAcked (vals.map (fun e => e.1) ++ effKeys eff) s)
  let s := match eff with
    | .activate k =>
      let digest := (s.img.lease.map (fun (l : Lease) => l.digest)).getD []
      ({ s with img := { s.img with hand := some { slot := k, b := b, digest := digest } } }.putLive K.leaseState 3).putLive K.activateB b
    | _ => s
  answer i 0 (ackData s txn b eff) s

/-- The commits that wait (R36): acknowledged, their B not begun and more than two frames after their sealing. -/
def waiting (s : State) : List Commit := s.commits.filter (fun c => decide (s.fn < c.b) && decide (c.d + 2 < c.b))

/-- Stage 12 (R36): a third commit would wait. -/
def wouldWait (s : State) (nb : Nat) : Bool :=
  decide (s.fn + 2 < max (s.fn + 2) (max nb (s.get K.lastCommitB))) && decide (2 ≤ (waiting s).length)

/-- A waiting commit or method still stands where it waited. -/
def turnHolds (s : State) (x : Nat × Nat × Nat) : Bool :=
  match getTag s x.1 with
  | some t => decide (t.ord = x.2.1) && decide (t.res.length = x.2.2) && (nextOp t).isSome
  | none => false

/-- The commit or method of slot `i` may be taken up: none before it is being validated or stored, none that reached the object server
earlier waits, and no handover holds it back (R253, R381). (DEDUCED, log 59) -/
def mayCommit (i : Nat) (s : State) : Bool :=
  mayStart s && !s.srv.busy && (match s.srv.turns.find? (turnHolds s) with | some x => decide (x.1 = i) | none => true)

/-- The commit or method of slot `i` waits for its turn (R253). -/
def waitTurn (i : Nat) (s : State) : State :=
  match getTag s i with
  | none => s
  | some t =>
    let x := (i, t.ord, t.res.length)
    setSrv (fun v => { v with turns := let l := v.turns.filter (turnHolds s); if x ∈ l then l else l ++ [x] }) s

/-! ### COMMIT -/

/-- The failure data of a COMMIT (Table 9.9). -/
def failData (k stage : Nat) : Bytes := le 2 (k / 256) ++ le 1 (k % 256) ++ le 1 stage

/-- The staged values of a transaction, in staging order. -/
def stagedVals (x : Txn) : List (Nat × Nat) := x.stage.filterMap (fun e => e.val.map (fun v => (e.key, v)))

/-- Stage 1: the first staged WRITE that fails Table 9.6 now. -/
def stage1 (s : State) (role : Nat) (vals : List (Nat × Nat)) : Option (Nat × Nat) :=
  vals.findSome? (fun e => match rowOf e.1 with
    | some r => (let st := (checkWrite s role e.1 (valBytes r.ty e.2)).1; if st = 0 then none else some (st, e.1))
    | none => some (0x30, e.1))

/-- Stage 2: the first object in staging order committed since the transaction's BEGIN (R252). -/
def stage2 (s : State) (x : Txn) : Option Nat :=
  (x.stage.find? (fun e => s.srv.acked.any (fun a => decide (a.1 = e.key) && decide (x.ord < a.2)))).map (fun e => e.key)

/-- How a COMMIT fails: status, object, stage. -/
structure Failure where
  st    : Nat
  key   : Nat
  stage : Nat
  deriving DecidableEq, Repr

/-- The stages of Table 9.7 in order; none when the commit passes. -/
def commitFails (s : State) (role : Nat) (x : Txn) (vals : List (Nat × Nat)) (nb arrival : Nat) : Option Failure :=
  match stage1 s role vals with
  | some (st, k) => some ⟨st, k, 1⟩
  | none => match stage2 s x with
    | some k => some ⟨0x41, k, 2⟩
    | none => match stagesBad s vals with
      | some (n, k) => some ⟨0x43, k, n⟩
      | none =>
        if nb ≠ 0 ∧ arrival + 3686400 < nb then some ⟨0x32, 0, 11⟩
        else if wouldWait s nb then some ⟨0x10, 0, 12⟩
        else none

/-- A COMMIT of a read-write transaction with staged writes is validated and stored, or fails (R253, R254). (DEDUCED, log 20) -/
def commitTxn (i : Nat) (t : Tag) (x : Txn) (s : State) : State :=
  let vals := stagedVals x
  match commitFails s (roleOf s t) x vals t.fnf t.fn with
  | some f =>
    let s := if f.st = 0x41 then s.bump K.txnConflicts else if f.st = 0x43 then s.bump K.txnInvalidSets else s
    answer i f.st (failData f.key f.stage) (if f.st = 0x10 then s else endTxn x.id s)
  | none => postCommit i x.id t.fnf (portNo t.port) (roleOf s t) .write vals (endTxn x.id s)

/-- COMMIT (R253, R254): one at a time; a transaction without staged writes, or a read-only one, ends with OK and stores nothing. -/
def execCommit (slot : Fin 48) (s : State) : Host.Outcome State Fault Refusal :=
  .next (runOp slot.val (fun o => decide (o.code = 0x31)) (fun t o s =>
    if o.data ≠ [] then answer slot.val 0x31 [] s
    else match findTxn s t.txn t.port t.sess with
      | none => answer slot.val 0x40 [] s
      | some x =>
        let gen := match x.snap with | some p => p.gen | none => s.genOf s.fn
        if x.rw = false then answer slot.val 0 (le 6 0 ++ le 4 gen) (endTxn x.id s)
        else match x.ovr with
          | some k => answer slot.val 0x60 (failData k 0) (endTxn x.id s)
          | none =>
            if stagedVals x = [] then answer slot.val 0 (le 6 0 ++ le 4 gen) (endTxn x.id s)
            else if mayCommit slot.val s then commitTxn slot.val t x s
            else waitTurn slot.val s) s)

/-! ### WRITE -/

/-- A value is staged (R251): a later WRITE of the object replaces the earlier one in place. -/
def stageWrite (i : Nat) (x : Txn) (k v size : Nat) (s : State) : State :=
  if x.stage.any (fun e => decide (e.key = k) && decide (e.val ≠ none)) then
    answer i 0 [] (setTxn { x with stage := x.stage.map (fun e => if e.key = k ∧ e.val ≠ none then ⟨k, some v, e.size⟩ else e) } s)
  else if 16384 < x.used + size then answer i 0x60 [] s
  else answer i 0 [] (setTxn { x with stage := x.stage ++ [⟨k, some v, size⟩] } s)

/-- IMPLICIT_PERSISTENT_WRITE (R249): a P object without T is committed as a transaction of that single write. -/
def implicitWrite (i : Nat) (t : Tag) (k v : Nat) (s : State) : State :=
  if mayCommit i s then
    match stagesBad s [(k, v)] with
    | some _ => answer i 0x43 [] (s.bump K.txnInvalidSets)
    | none => if wouldWait s 0 then answer i 0x10 [] s
      else postCommit i 0 0 (portNo t.port) (roleOf s t) .write [(k, v)] s
  else waitTurn i s

/-- A WRITE that passed steps 1 to 7 of Table 9.6. -/
def applyWrite (i : Nat) (t : Tag) (r : Row) (k v size : Nat) (s : State) : State :=
  match findTxn s t.txn t.port t.sess with
  | some x => if x.rw = false then answer i 0x33 [] s
    else if r.has 0 then stageWrite i x k v size s
    else implicitWrite i t k v s
  | none => if r.has 0 then answer i 0x40 [] s else implicitWrite i t k v s

/-- An EXEC of an object that is no method (R246), which WRITE answers. (DEDUCED, log 19) -/
def badExec (o : Op) : Bool :=
  decide (o.code = 0x40) && (match rowOf o.key with | some r => decide (r.ty ≠ .method) | none => true)

/-- WRITE (R248): checked by Table 9.6, then staged, or committed at once for a P object without T.  HOST_TOKEN has a command of its
own.  An EXEC of an undefined object or of an object that is no method is answered here too. -/
def execWrite (slot : Fin 48) (s : State) : Host.Outcome State Fault Refusal :=
  .next (runOp slot.val (fun o => (decide (o.code = 0x20) && decide (o.key ≠ K.hostToken)) || badExec o) (fun t o s =>
    match rowOf o.key with
    | none => answer slot.val 0x30 [] s
    | some r =>
      if o.code = 0x40 then answer slot.val 0x31 [] s
      else
        let c := checkWrite s (roleOf s t) o.key o.data
        if c.1 ≠ 0 then answer slot.val c.1 [] s
        else applyWrite slot.val t r o.key c.2 (8 + o.data.length) s) s)

end Sys2Proof.Machine
end

