-- ==== Sys2Proof/Machine/Flags.lean ====
section
/-! DEFINITION. Flags computed from state and raised by events: the interrupt causes and pins of SPI (R280 to R282, Tables 10.8, 10.9),
the event bits of the legacy window (R287, Table 10.10), and the status word that an object's value belongs to (R20, R258). -/

namespace Sys2Proof.Machine

/-- The SPI port is set. -/
def setSpi (f : Spi → Spi) (s : State) : State := { s with spi := f s.spi }

/-- A latched cause is set (R281); one that is set already recurs, which a CLEAR in the same frame does not undo. -/
def setCause (b : Nat) (s : State) : State :=
  let f := s.fn
  setSpi (fun p =>
    let again := if bit p.causes b then (b, f) :: p.again.filter (fun e => decide (e.1 ≠ b)) else p.again
    { p with causes := setBit p.causes b, again := again }) s

/-- CAUSES with its two levels: a frame in the SPI share of RING-12, an SPI notification in RING-13 (Table 10.9). -/
def causesWord (s : State) : Nat :=
  b2n (s.srv.ring12.any (fun f => decide (f.port = .spi))) + 2 * b2n (s.srv.ring13.any (fun f => decide (f.port = .spi))) +
    s.spi.causes

/-- IRQ-0 is low while COMPLETION or NOTIFICATION is 1 (R281). -/
def irq0 (s : State) : Bool := decide (causesWord s % 4 = 0)

/-- IRQ-1 is low while a latched cause set in IRQ_MASK is 1 (R281); it is released in GECKO, SLEEP and OFF (R400). -/
def irq1 (s : State) : Bool :=
  decide (s.mode = .gecko ∨ s.mode = .sleep ∨ s.mode = .off) || (List.range 11).all (fun b => decide (b < 2) || !(bit s.spi.causes b && bit (s.cfg s.fn K.spiIrqMask) b))

/-- A bit of the legacy EVENTS word is set; LEGACY-EVENT is raised when EVENT_MASK has it (R287). -/
def legacyEvent (b : Nat) (s : State) : State :=
  let s := setSpi (fun p => { p with events := setBit p.events b }) s
  if bit (s.get K.spiLegacyEventMask) b then setCause 5 s else s

/-- STATE of STATUS (Table 10.8). -/
def statusState (s : State) : Nat :=
  b2n s.ready + 2 * b2n (decide (s.get (K.portState 0) = 1)) + 4 * b2n (decide (s.live K.calState = 1)) +
    8 * b2n (decide (s.mode = .recovery)) + 16 * b2n (decide (s.mode = .lastGasp))

/-- A value that needs a window, so that WARMING of its status word applies to it (Tables 4.10, 4.11, 5.9, 5.11). -/
def windowed (k : Nat) : Bool :=
  let i := k / 256
  let sub := k % 256
  (decide (0x3100 ≤ i ∧ i < 0x3200) && decide (5 ≤ sub ∧ sub ≤ 14)) || (decide (0x3200 ≤ i ∧ i < 0x3300) && decide (sub ≤ 3)) ||
  (decide (0x3300 ≤ i ∧ i < 0x3400) && decide (sub ∈ [1, 2, 3, 4, 6, 7, 9])) ||
  (decide (0x3400 ≤ i ∧ i < 0x3600) && decide (sub < 0xC3)) || (decide (0x3600 ≤ i ∧ i < 0x3700) && decide (sub ≤ 0x44))

/-- The status word that carries the flags of an object's value. -/
def statusOf (k : Nat) : Option Nat :=
  let i := k / 256
  let n := i % 256
  if 0x3100 ≤ i ∧ i < 0x3200 then some (K.cctStatus n)
  else if 0x3200 ≤ i ∧ i < 0x3300 then some (K.chStatus n)
  else if 0x3300 ≤ i ∧ i < 0x330C then some (K.vStatus n)
  else if 0x3400 ≤ i ∧ i < 0x3500 then some (K.spStatus n)
  else if 0x3500 ≤ i ∧ i < 0x350C then some (K.spvStatus n)
  else if 0x3600 ≤ i ∧ i < 0x3700 then some (if k % 256 ≤ 0x40 then K.cctHStatus n else K.cctStatus n)
  else none

/-- The status flags of an object's value in a snapshot: DISABLED, WARMING, LATE, ESTIMATED, CLIPPED of its status word. -/
def statusFlags (p : Snap) (k : Nat) : Nat :=
  match statusOf k with
  | some w => let f := field (snapVal p w) 15 11; if windowed k then f else clearBit f 3
  | none => 0

/-- A value reads WARMING or DISABLED. -/
def noNumber (p : Snap) (k : Nat) : Bool := bit (statusFlags p k) 4 || bit (statusFlags p k) 3

end Sys2Proof.Machine
end

