-- ==== Sys2Proof/Machine/Subst.lean ====
section
/-! DEFINITION. Substitutes of retired voltage channels (R228, R229). -/

namespace Sys2Proof.Machine

/-- The objects of an input's window values, its STATUS apart (Table 5.11). -/
def windowKeys (k : Nat) : List Nat :=
  let key := fun (cur vol : Nat) => if k < 256 then cur + 256 * k else vol + 256 * (k - 256)
  (List.range 51).map (fun h => key (K.spMag 0 0) (K.spvMag 0 0) + h) ++
  (List.range 51).map (fun h => key (K.spPhase 0 0) (K.spvPhase 0 0) + h) ++
  (List.range 51).map (fun h => key (K.spSubgroup 0 0) (K.spvSubgroup 0 0) + h) ++
  [key (K.spThd 0) (K.spvThd 0), key (K.spThds 0) (K.spvThds 0), key (K.spWinLen 0) (K.spvWinLen 0)]

/-- The window values of an input read WARMING from the lost lock of its reference at `f` (R160). -/
def warmSpectrum (f k : Nat) (s : State) : State :=
  let s := { s with tan := { s.tan with
    harm := tset ({} : Harm) s.tan.harm k { tget ({} : Harm) s.tan.harm k with valid := false, old := false, warm := f },
    ring4 := s.tan.ring4.map (fun (r : SpecRes) => if r.inp = k then { r with vals := [] } else r) } }
  (windowKeys k).foldl (fun s x => s.putDue f x 0) (s.putDue f (if k < 256 then K.spStatus k else K.spvStatus (k - 256)) 0x4000)

/-- The window values of the inputs that follow V-v read WARMING. -/
def harmLost (f v : Nat) (s : State) : State :=
  let map := phaseMap s f
  let ks := (s.tan.harm.filter (fun e => (e.2.valid || e.2.ready != []) && decide (followV s (inputRef s map e.1) = v))).map (fun e => e.1)
  ks.foldl (fun s k => warmSpectrum f k s) s

/-- V-v loses its lock (R138): counted and logged with the last f_t; what needs the lock reads WARMING (R160). (DEDUCED, log 39) -/
def lockLost (f v p : Nat) (s : State) : State :=
  let z := tget {} s.tan.zc v
  let s := harmLost f v (setZc v { z with f10Bad := true, angle := none, f200 := none, f10 := none } s)
  let s := (s.putDue f (K.vFreq200 v) 0).putDue f (K.vFreq10s v) 0
  let s := if s.cfg f K.pqAngleRef = v then
      (List.range 12).foldl (fun s w => setZc w { tget {} s.tan.zc w with angle := none } s) s else s
  (s.bump (K.vLockLosses v)).eventAt f 0x0130 [v, ftMicro p]

/-- V-v is disabled or retired: a LOCKED channel loses its lock (R138). -/
def lockRelease (f v : Nat) (s : State) : State :=
  let z := tget {} s.tan.zc v
  if z.locked then winsLost f v (lockLost f v z.p (setZc v { z with locked := false, run := [] } s)) else s

/-- Channel `w` qualifies as a substitute in frame `f`: enabled, OK, LOCKED and not itself substituted. -/
def substQualifies (s : State) (f w : Nat) : Bool :=
  decide (s.cfg f (K.vEnable w) = 1) && decide (s.get (K.vFState w) = 0) && (tget {} s.tan.zc w).locked &&
  decide (tget none s.tan.subst w = none)

/-- The substitute that SUBST selects for V-v (R228): a channel, or none for nominal voltage. -/
def substChoice (s : State) (f v : Nat) : Option Nat :=
  let sel := s.cfg f (K.vFSubst v)
  if sel < 12 then (if sel ≠ v ∧ substQualifies s f sel then some sel else none)
  else if sel = 0xFE then
    (List.range 12).find? (fun w => decide (w ≠ v) && decide (s.cfg f (K.vGroup w) = s.cfg f (K.vGroup v)) &&
      substQualifies s f w)
  else none

/-- The last angle of a channel that did not read WARMING, if it ever had one; stored one above its value. -/
def lastAngle (s : State) (v : Nat) : Option Nat :=
  match tget 0 s.tan.angle v with | 0 => none | a + 1 => some a

/-- A substitute for V-v is selected at frame `f` with θ and k latched (R228), and VOLTAGE-SUBSTITUTED is logged. (DEDUCED, log 55) -/
def substSelect (f v : Nat) (s : State) : State :=
  let nominal : Subst := { src := 255, theta := 0, k := 0x40000000 }
  let b : Subst := match substChoice s f v with
    | some w =>
      (match lastAngle s w, lastAngle s v with
       | some aw, some av =>
         let uw := tget 0 s.tan.uC w
         let k := if uw = 0 then 0 else (odiv (tget 0 s.tan.uC v * 2 ^ 30 : Nat) uw).toNat
         { src := w, theta := (aw + 65536 - av) % 65536, k := min k (2 ^ 32 - 1), absent := vAbsent s f w }
       | _, _ => nominal)
    | none => nominal
  let s := { s with tan := { s.tan with subst := tset none s.tan.subst v (some b) } }
  let s := ((s.putLive (K.vFSubstNow v) b.src).putLive (K.vFTheta v) b.theta).putLive (K.vFK v) b.k
  s.event 0x0305 [v, b.src, b.theta, b.k]

/-- The substitute of V-v is given up (R235). -/
def substDrop (v : Nat) (s : State) : State :=
  { s with tan := { s.tan with subst := tset none s.tan.subst v none } }.putLive (K.vFSubstNow v) 0xFD

/-- A retired channel is given a substitute from its frame R on, and gives it up at B + 2 (R228, R235). -/
def substChange (f v : Nat) (s : State) : State :=
  match unitOut s 2 v f, tget none s.tan.subst v with
  | true, none => lockRelease f v (substSelect f v s)
  | false, some _ => substDrop v s
  | _, _ => s

/-- The substitute `b` of V-v in frame `f` (R228): selected again when its channel is retired, loses lock or is disabled, and when it
becomes ABSENT, once.  An ABSENT channel that is still LOCKED qualifies, so the new selection may be the same. (DEDUCED, log 55) -/
def substAgain (f v : Nat) (b : Subst) (s : State) : State :=
  let absent := vAbsent s f b.src
  if 12 ≤ b.src then s
  else if s.get (K.vFState b.src) = 2 ∨ (absent ∧ b.absent = false) ∨ (tget {} s.tan.zc b.src).locked = false ∨
      s.cfg f (K.vEnable b.src) ≠ 1 then substSelect f v s
  else { s with tan := { s.tan with subst := tset none s.tan.subst v (some { b with absent := absent }) } }

/-- Substitutes come and go with their channels, and are selected again as R228 says. (DEDUCED, log 55) -/
def substReview (f : Nat) (s : State) : State :=
  let s := (List.range 12).foldl (fun s v => substChange f v s) s
  s.tan.subst.foldl (fun s e => match e.2 with
    | some b => substAgain f e.1 b s
    | none => s) s

/-- The substitute streams of a frame (R228): v and vq from the samples of the channel in use. -/
def substStream (b : Subst) (xs qs : List Int) : List Int × List Int :=
  let c := cosTurn b.theta
  let n := sinTurn b.theta
  let one := fun x q : Int => rdiv (b.k * (c * x + n * q)) (2 ^ 126)
  let two := fun x q : Int => rdiv (b.k * (c * q - n * x)) (2 ^ 126)
  ((List.range 16).map (fun j => one (ati xs j) (ati qs j)), (List.range 16).map (fun j => two (ati xs j) (ati qs j)))

end Sys2Proof.Machine
end

