-- ==== Sys2Proof/Machine/TanCfg.lean ====
section
/-! DEFINITION. What the settings that govern from frame B bring about in the Tannery, when it begins to compute B (R35, R38, R39, R105,
R127, R139, R155, R159, R160). -/

namespace Sys2Proof.Machine

/-- An input is sampled in frame `f`: CH-n, or V-v as 256 + v. -/
def sampledAt (s : State) (f k : Nat) : Bool := decide (s.cfg f (if k < 256 then K.chEnable k else K.vEnable (k - 256)) = 1)

/-- An input has a harmonic window in frame `f`. -/
def harmAt (s : State) (f k : Nat) : Bool :=
  sampledAt s f k && decide (s.cfg f (if k < 256 then K.spHarmEn k else K.spvHarmEn (k - 256)) = 1)

/-- Every input: CH-n, and V-v as 256 + v. -/
def allInputs : List Nat := List.range 268

/-- The number of inputs with a harmonic window in frame `f`. -/
def harmInputs (s : State) (f : Nat) : Nat := (allInputs.filter (harmAt s f)).length

/-- The objects of an input's live values (Tables 4.11, 5.9). -/
def inputKeys (k : Nat) : List Nat :=
  if k < 256 then [K.chIRmsHc k, K.chIRms k, K.chIRms1s k] else (List.range 9).map (fun i => K.vURmsHc (k - 256) + i)

/-- The Tannery forgets what it holds of an input that is disabled or enabled at `f`; its values read zero (R20, R38, R39). -/
def inputReset (f k : Nat) (s : State) : State :=
  let s := if k < 256 then s else lockRelease f (k - 256) s
  let t := s.tan
  let t := { t with sig := tset {} t.sig k {}, harm := tset {} t.harm k { tget ({} : Harm) t.harm k with hist := [], win := {} } }
  let t := if k < 256 then t else
    { t with zc := tset {} t.zc (k - 256) {}, quad := tset {} t.quad (k - 256) {}, clk := tset {} t.clk (k - 256) {},
             angle := tset 0 t.angle (k - 256) 0, uC := tset 0 t.uC (k - 256) 0,
             sig := tset {} t.sig (256 + k) {} }
  (inputKeys k).foldl (fun s x => s.putDue f x 0) { s with tan := t }

/-- The instant at which frame `f` begins, in taps. -/
def frameTaps (f : Nat) : Int := 4096 * (f : Int)

/-- The detector of one kind of voltage event ends at `f` in the groups concerned, with cause 1 (R155). -/
def groupsEnd (f kind : Nat) (gs : List Nat) (s : State) : State :=
  gs.foldl (fun s g => if (tget {} s.tan.gdet (4 * g + kind)).on then groupEnd f g kind (frameTaps f) 1 s else s) s

/-- The thresholds of a kind of voltage event: 0 SAG, 1 SWELL, 2 INTERRUPTION. -/
def vThreshold (kind : Nat) : Nat := if kind = 0 then K.pqSagLvl else if kind = 1 then K.pqSwellLvl else K.pqIntLvl

/-- Voltage detectors at frame `f`: new thresholds end every event of their kind; a channel that leaves its group, is disabled or has a
new U_DIN leaves its events, and an event without a channel ends. -/
def vDetCfg (f kind : Nat) (s : State) : State :=
  let all := changesAt s f (vThreshold kind) || changesAt s f K.pqHyst
  let out := (List.range 12).filter (fun v => all || changesAt s f (K.vEnable v) || changesAt s f (K.vUDin v) || changesAt s f (K.vGroup v))
  let s := { s with tan := { s.tan with vdet := out.foldl (fun t v =>
    tset {} t (4 * v + kind) { init := !changesAt s f (K.vEnable v) && (tget {} t (4 * v + kind)).init }) s.tan.vdet } }
  let still := fun (g : Nat) => (groupOf s f g).any (fun v => (tget {} s.tan.vdet (4 * v + kind)).on)
  groupsEnd f kind ((List.range 12).filter (fun g => all || (decide (out ≠ []) && !still g))) s

/-- Overcurrent detectors at frame `f`. -/
def ocCfg (f : Nat) (s : State) : State :=
  let all := changesAt s f K.pqOcLvl || changesAt s f K.pqOcCount
  (List.range 256).foldl (fun s n =>
    if all || changesAt s f (K.chEnable n) || changesAt s f (K.chGainLow n) then
      let s := if (tget {} s.tan.idet n).on then ocEnd f n (frameTaps f) 1 s else s
      if changesAt s f (K.chEnable n) then { s with tan := { s.tan with idet := tset {} s.tan.idet n {} } } else s
    else s) s

/-- Circuit detectors and windows at frame `f` (R105, R155): a circuit whose definition changes starts its windows anew; one left
without CH_N has no neutral imbalance, and one left with a single voltage reference no phase loss (Table 5.3). -/
def cctTanCfg (f : Nat) (s : State) : State :=
  let ni := changesAt s f K.pqNiLvl || changesAt s f K.pqNiCount || changesAt s f K.pqNPolarity
  let pl := changesAt s f K.pqPlCount
  (List.range 256).foldl (fun s c =>
    let def_ := changesAt s f (K.cctKind c)
    let noN := changesAt s f (K.cctChN c) && decide (s.cfg f (K.cctChN c) = 0xFFFF)
    let oneRef := [K.cctVA c, K.cctVB c, K.cctVC c].any (changesAt s f) && decide ((cctRefs s f c).length < 2)
    let s := if (ni || def_ || noN) && (tget {} s.tan.ndet c).on then niEnd f c 1 s else s
    let s := if (pl || def_ || oneRef) && (tget {} s.tan.pdet c).on then plEnd f c 1 s else s
    let s := if noN then ({ s with tan := { s.tan with ndet := tset {} s.tan.ndet c {} } }).putDue f (K.cctIResidual c) 0 else s
    let s := if oneRef then { s with tan := { s.tan with pdet := tset {} s.tan.pdet c {} } } else s
    if def_ then
      let t := s.tan
      (cctWindowKeys c).foldl (fun s x => s.putDue f x 0) { s with tan :=
        { t with cwin := tset {} t.cwin c { hdue := (tget ({} : CWin) t.cwin c).hdue }, ndet := tset {} t.ndet c {}, pdet := tset {} t.pdet c {} } }
    else s) s

/-- BASE_VREF and BASE_K of a circuit's phase channels follow its binding and constants (R127). -/
def baseCfg (f c : Nat) (s : State) : State :=
  let ks := [K.cctKind c, K.cctChA c, K.cctChB c, K.cctChC c, K.cctVA c, K.cctVB c, K.cctVC c, K.cctEnergyK c, K.cctEnergyUnit c]
  if ks.any (fun k => writtenAt s f k) then
    let k := (rdiv ((s.cfg f (K.cctEnergyK c) * 10 ^ s.cfg f (K.cctEnergyUnit c) : Nat) : Int) 1000).toNat
    (phasesOf s f c).foldl (fun s p =>
      (s.put (K.chBaseVref p.ch) (p.v + 128 * b2n p.neg)).put (K.chBaseK p.ch) (k % 2 ^ 48)) s
  else s

/-- Capture at frame `f` (R38, R159): a disable or a change of its configuration stores a capture in progress TRUNCATED. -/
def capCfg (f : Nat) (s : State) : State :=
  let keys := [K.capEnable, K.capPre, K.capPost, K.capTrigMask, K.capHoldoff] ++ (List.range 16).map K.capChSel
  let volts := (List.range 12).any (fun v => changesAt s f (K.vEnable v))
  if keys.any (changesAt s f) || volts then
    let s := if s.cap.cur ≠ none then capCut f s else s
    let s := { s with cap := { s.cap with buf := [] } }
    if s.cfg f K.capEnable = 1 then (if s.live K.capState = 3 then s.putDue f K.capState 0 else s)
    else s.putDue f K.capState 3
  else s

/-- The band at frame `f` (R139): a commit of BAND sets it, or has it decided again, at once where a channel is LOCKED. -/
def bandCfg (f : Nat) (s : State) : State :=
  if writtenAt s f K.pqBand then
    match s.cfg f K.pqBand with
    | 0 =>
      (match (List.range 12).find? (fun v => (tget {} s.tan.zc v).locked) with
       | some v =>
         { s with tan := { s.tan with bandSet := true } }.putLive K.pqBandInEffect
           (if 4194304 * 65536 < 55 * (tget ({} : Zc) s.tan.zc v).p then 1 else 2)
       | none => { s with tan := { s.tan with bandSet := false } }.putLive K.pqBandInEffect 1)
    | b => s.putLive K.pqBandInEffect b
  else s

/-- The angle of V-v at its positive crossing (R140). -/
def setAngle (f v : Nat) (s : State) : State :=
  let r := s.cfg f K.pqAngleRef
  let z := tget {} s.tan.zc v
  let zr := tget {} s.tan.zc r
  match zr.lastPos, z.lastPos with
  | some a, some b =>
    if z.locked ∧ zr.locked then
      let ang := angleOf a b z.p
      let s := { s with tan := { s.tan with angle := tset 0 s.tan.angle v (ang + 1) } }
      (setZc v { z with angle := some ang } s).putDue f (K.vAngle v) ang
    else s
  | _, _ => s

/-- A new ANGLE_REF at frame `f` (R140): the angles are those to the new reference, WARMING while either channel is unlocked. -/
def angleCfg (f : Nat) (s : State) : State :=
  if changesAt s f K.pqAngleRef then
    (List.range 12).foldl (fun s v => setAngle f v (setZc v { tget {} s.tan.zc v with angle := none } s)) s
  else s

/-- Harmonic windows at frame `f` (R38, R39): the values of an input that has none from `f` on read DISABLED, and those of one that has
them again read WARMING until a window of its own; windows that closed before `f` are finished as usual. -/
def harmCfg (f k : Nat) (s : State) : State :=
  let st := if k < 256 then K.spStatus k else K.spvStatus (k - 256)
  match harmAt s (f - 1) k, harmAt s f k with
  | true, false => s.putDue f st 0x8000
  | false, true =>
    let h := tget ({} : Harm) s.tan.harm k
    { s with tan := { s.tan with
      harm := tset {} s.tan.harm k { h with win := {}, from_ := f, old := h.valid, valid := false } } }.putDue f st 0x4000
  | _, _ => s

/-- The Tannery takes the settings of frame `f`. -/
def tanCfg (f : Nat) (s : State) : State :=
  if commitAt s f then
    let s := (List.range 3).foldl (fun s kind => vDetCfg f kind s) s
    let s := cctTanCfg f (ocCfg f s)
    let s := allInputs.foldl (fun s k =>
      let s := harmCfg f k s
      if sampledAt s f k = sampledAt s (f - 1) k then s else inputReset f k s) s
    let s := (List.range 256).foldl (fun s c => baseCfg f c s) s
    angleCfg f (bandCfg f (capCfg f s))
  else s

end Sys2Proof.Machine
end

