-- ==== Sys2Proof/Machine/TimeBase.lean ====
section
/-! DEFINITION. The zero-crossing time base (R304, R305, R311, R312): its loop, its states, and the numbering of crossings. -/

namespace Sys2Proof.Machine

/-- Units of the time base in a tap, and in a frame. -/
def tbTap : Int := 65536
def tbFrameLen : Int := 4096 * tbTap

/-- The time base is set. -/
def setTb (f : Tb → Tb) (s : State) : State := { s with tb := f s.tb }

/-- TB_STATE (Table 11.4): 0 OFF, 1 SEARCHING, 2 LOCKED, 3 HOLDOVER. -/
def tbState (s : State) : Nat := s.live K.tbTbState

/-- The channel in use. -/
def tbChan (s : State) : Nat := s.live K.tbTbChannel

/-- TB_ROLE in frame `f` is leader. -/
def tbLeader (s : State) (f : Nat) : Bool := decide (s.cfg f K.tbTbRole = 1)

/-- The instant of the crossing `j` places after the newest one that the time base used, past or predicted. -/
def tbInstant (s : State) (j : Int) : Int :=
  let past := if j ≤ 0 then s.tb.used[(-j).toNat]? else none
  match past with
  | some x => x
  | none => s.tb.used.headD 0 + j * s.tb.p

/-- The instant at which network cycle `n` starts: at the crossing numbered n, plus δ (R309). -/
def tbStart (s : State) (num n : Int) : Int := tbInstant s (n - num) + s.tb.delta

/-- The last network cycle started by an instant. -/
def tbCurrent (s : State) (num e : Int) : Int :=
  let j := if s.tb.p = 0 then 0 else (e - s.tb.delta - s.tb.used.headD 0) / s.tb.p
  if tbInstant s (j + 1) + s.tb.delta ≤ e then num + j + 1
  else if tbInstant s j + s.tb.delta ≤ e then num + j else num + j - 1

/-- The wall time of an instant in units of the time base; none while the frame that holds it has no TIME48. -/
def wallAt (s : State) (c : Int) : Option Int :=
  let f := (c / tbFrameLen).toNat
  if hasTime s f then some ((s.timeOf f : Int) * tbFrameLen + (c - f * tbFrameLen)) else none

/-- The number that a leader gives a crossing (R312). -/
def leaderNumber (s : State) (c : Int) : Int :=
  match wallAt s c with
  | some t => rdiv (t * (nominalHz s : Int)) (4194304 * 65536)
  | none => match s.tb.last with | some n => n + 1 | none => 0

/-- TB_STATE changes with the data of frame `f`. -/
def tbSetState (f st : Nat) (s : State) : State := s.putDue f K.tbTbState st

/-- The time base forgets its loop, its mapping and whom it follows, and searches on TIME_PHASE. -/
def tbSearch (f : Nat) (s : State) : State :=
  let s := setTb (fun t => { t with p := 0, x := 0, used := [], num := none, lead := 0, errs := [], comp := false, delta := 0, cls := 0,
                                    from_ := 0xFFFF, prev := none, slip := false }) s
  let s := ((s.putDue f K.tbDepth 0xFF).putDue f K.tbPhaseClass 0).putDue f K.tbDelta 0
  (tbSetState f 1 (s.putDue f K.tbLeaderId 0)).putDue f K.tbTbChannel (s.cfg f K.tbTimePhase)

/-- The time base is LOST, and searches at once (R305). (DEDUCED, log 75) -/
def tbLose (f : Nat) (s : State) : State :=
  let held := if tbState s = 3 then f - s.tb.hold else 0
  let n := match s.tb.num with | some n => n.toNat % 2 ^ 48 | none => 0
  tbSearch f (s.event 0x0504 [n, held])

/-- The time base is OFF. -/
def tbOff (f : Nat) (s : State) : State := tbSetState f 0 (setTb (fun t => { last := t.last }) (tbSearch f s))

/-- The time base uses an instant for its next crossing. -/
def tbUse (f : Nat) (c : Int) (s : State) : State :=
  let num := if tbLeader s f then (if tbState s = 1 then none else some (leaderNumber s c)) else s.tb.num.map (fun n => n + 1)
  setTb (fun t => { t with used := (c :: t.used).take 64, num := num, last := match num with | some n => some n | none => t.last }) s

/-- A crossing is replaced by its prediction (R304, R305): LOCKED becomes HOLDOVER. (DEDUCED, log 75) -/
def tbMiss (f : Nat) (s : State) : State :=
  let s := setTb (fun t => { t with x := t.x + t.p }) (tbUse f s.tb.x s)
  if tbState s = 2 then (tbSetState f 3 (setTb (fun t => { t with hold := f }) s)).bump K.tbHoldovers else s

/-- A crossing is accepted (R304): HOLDOVER becomes LOCKED. -/
def tbAccept (f : Nat) (c : Int) (s : State) : State :=
  let eps := c - s.tb.x
  let p := s.tb.p + odiv eps 32
  let s := setTb (fun t => { t with p := p, x := c + p, acc := f }) (tbUse f c s)
  if tbState s = 3 then tbSetState f 2 s else s

/-- The loop is seeded from the tracked period of its channel (R304); a leader enters LOCKED (R305, R312). -/
def tbSeed (f : Nat) (c : Int) (s : State) : State :=
  let z := tget ({} : Zc) s.tan.zc (tbChan s)
  if z.locked ∧ z.p ≠ 0 then
    let s := setTb (fun t => { t with p := (z.p : Int), x := c + (z.p : Int), used := [], acc := f }) s
    if tbLeader s f then
      let id := s.get K.plcEui64
      let s := tbUse f c (tbSetState f 2 s)
      let s := ((s.putDue f K.tbDepth 0).putDue f K.tbPhaseClass 0).putDue f K.tbLeaderId id
      s.event 0x0503 [id, 0, 0, tbChan s]
    else tbUse f c s
  else s

/-- A crossing outside the window is counted (R304). (DEDUCED, log 75) -/
def tbReject (f : Nat) (s : State) : State := s.putDue f K.tbTbRejected ((s.live K.tbTbRejected + 1) % 2 ^ 32)

/-- The loop takes a crossing (R304): predictions that it leaves behind are used in place of crossings that did not come.
(DEDUCED, log 75) -/
def tbStep : Nat → Nat → Int → State → State
  | 0, _, _, s => s
  | k + 1, f, c, s =>
    if s.tb.used = [] then tbSeed f c s
    else if s.tb.p < 2 * (c - s.tb.x) then tbStep k f c (tbMiss f s)
    else if mag (c - s.tb.x) ≤ 210 * tbTap then tbAccept f c s
    else if s.tb.p < 2 * (s.tb.x - c) then tbReject f s
    else tbMiss f (tbReject f s)

/-- TB_CROSSING (R304): an accepted positive crossing of V-v at `zc` taps reaches the time base. -/
def tbCrossing (f v : Nat) (zc : Int) (s : State) : State :=
  if tbState s ≠ 0 ∧ v = tbChan s then tbStep 64 f (zc * tbTap) s else s

/-- Predictions whose crossing can no longer come are used; crossings of a frame reach back ten samples before its end. -/
def tbCatchUp : Nat → Nat → State → State
  | 0, _, s => s
  | k + 1, f, s =>
    if s.tb.used ≠ [] ∧ 0 < s.tb.p ∧ s.tb.x + (210 + 2560) * tbTap < ((f : Int) + 1) * tbFrameLen then tbCatchUp k f (tbMiss f s) else s

/-- The PDC of a frame that Ozmar sends, from the taps since its last positive crossing on the time-base channel; the instant at which the
modem starts the frame is open (R307). (DESIGN CHOICE, log 12) -/
def notePdc (s : State) : State :=
  let since := (Config.openResult 307 [s.live K.plcTxFrames]) % (max 1 (odiv s.tb.p tbTap))
  { s with plc := { s.plc with pdc := Config.pdcOfTaps since.toNat } }

/-- A frame is on the wire: TX_FRAMES, and its PDC. -/
def countTx (s : State) : State := notePdc (s.bumpLive K.plcTxFrames)

/-- An announcement that the modem could start and has not abandoned is on the wire once its cycle starts (R307); one for which the channel
has been busy-foreign ever since waits for ANNOUNCE_ABANDON (R318). -/
def annSent (n : Int) (s : State) : State :=
  match s.plc.ann with
  | some a => if (a.cycle : Int) ≤ n ∧ a.may = true then countTx { s with plc := { s.plc with ann := none } } else s
  | none => s

/-- The time base at the end of a computed frame (R305): LOST when its channel is ABSENT or retired; NET_CYCLE and NET_CYCLE_TAP. -/
def tbFrame (f : Nat) (s : State) : State :=
  if tbState s = 0 then s
  else
    let s := if (tbState s = 2 ∨ tbState s = 3) ∧ (vAbsent s f (tbChan s) ∨ unitOut s 2 (tbChan s) f = true) then tbLose f s else s
    let s := tbCatchUp 8 f s
    match s.tb.num with
    | some m =>
      let n := tbCurrent s m (((f : Int) + 1) * tbFrameLen)
      annSent n ((s.putDue f K.tbNetCycle (ofInt 48 n)).putDue f K.tbNetCycleTap (ofInt 64 (odiv (tbStart s m n) tbTap)))
    | none => s

/-- TB_HOLDOVER_EXPIRY (R305): 10,240 frames in HOLDOVER without an accepted crossing; a loop that only searches is seeded anew. -/
def execTbHoldoverExpiry (s : State) : Host.Outcome State Fault Refusal :=
  .next (if s.mode = .run ∧ s.tb.acc + 10240 ≤ s.fn then
    if tbState s = 3 then tbLose s.fn s
    else if tbState s = 1 ∧ s.tb.used ≠ [] then setTb (fun t => { t with p := 0, x := 0, used := [] }) s
    else s
  else s)

end Sys2Proof.Machine
end

