-- ==== Sys2Proof/Machine/Tannery.lean ====
section
/-! DEFINITION. Tannery core 0 (R106 to R113, R125, R126, R143, R144): one aligned frame gives products, windows, detectors,
baselines, capture rows, resampled points and the circuit-frame results of RING-3. -/

namespace Sys2Proof.Machine

/-! ### Voltages of a frame -/

/-- x = π f ts in units of 2^-96 for the frequency of R107, held between 45 and 66 Hz. -/
def quadArg (locked : Bool) (p hz : Nat) : Int :=
  let x := if locked ∧ p ≠ 0 then piFx * 2 ^ 24 / (p : Int) else piFx * hz / 16384
  clampI (piFx * 45 / 16384) (piFx * 66 / 16384) x

/-- g_f = round(2^30 × 2 × tan(π f ts)) (R107). -/
def quadGain (x : Int) : Int := rdiv (2 ^ 31 * sinFx x) (cosFx x)

/-- The quadrature filter over the samples of a frame (R107). -/
def quadRun (g : Int) : List Int → Quad → List Int × Quad
  | [], q => ([], q)
  | v :: vs, q =>
    let w := q.w - asr q.w 20 + rdiv (v + q.vp) 2
    let r := quadRun g vs { w := w, vp := v }
    (rshift (w * g) 30 :: r.1, r.2)

/-- A voltage channel of a frame: samples, quadrature samples, flags. -/
structure VDat where
  x    : List Int
  q    : List Int
  clip : Bool
  est  : Bool
  ok   : Bool
  deriving DecidableEq, Repr

/-- No voltage. -/
def VDat.none : VDat := ⟨[], [], false, false, false⟩

/-- V-v's own samples and quadrature samples in a frame (R107); the filter restarts with its stream. -/
def ownVolt (fr : AFrame) (v : Nat) (s : State) : VDat × State :=
  match tget none fr.chans (256 + v) with
  | some a =>
    let z := tget {} s.tan.zc v
    let g := quadGain (quadArg z.lockPrev z.pPrev (nominalHz s))
    let r := quadRun g a.a (tget {} s.tan.quad v)
    (⟨a.a, r.1, a.clip.any id, a.est, true⟩, { s with tan := { s.tan with quad := tset {} s.tan.quad v r.2 } })
  | none => (VDat.none, s)

/-- The own samples of all twelve channels. -/
def ownVolts (fr : AFrame) : List Nat → State → List VDat × State
  | [], s => ([], s)
  | v :: vs, s =>
    let (d, s) := ownVolt fr v s
    let (ds, s) := ownVolts fr vs s
    (d :: ds, s)

/-- What stands for V-v in a frame: its own samples, its substitute's stream, or none with nominal voltage (R228). -/
def voltOf (s : State) (own : List VDat) (v : Nat) : VDat :=
  match tget none s.tan.subst v with
  | some b =>
    if b.src < 12 then
      let d := own.getD b.src VDat.none
      let r := substStream b d.x d.q
      { d with x := r.1, q := r.2 }
    else VDat.none
  | none => own.getD v VDat.none

/-! ### Crossings of a frame (R135 to R142) -/

/-- The band is decided (R139): from the first lock of any channel while automatic. (DEDUCED, log 38) -/
def decideBand (f p : Nat) (s : State) : State :=
  if s.cfg f K.pqBand = 0 ∧ s.tan.bandSet = false then
    { s with tan := { s.tan with bandSet := true } }.putLive K.pqBandInEffect
      (if 4194304 * 65536 < 55 * p then 1 else 2)
  else s

/-- V-v locks at a crossing: its angle is valid from the last accepted positive crossings at once, and so is the angle of every
LOCKED channel when V-v is ANGLE_REF (R140, Table 5.6). -/
def lockAngles (f v : Nat) (s : State) : State :=
  if s.cfg f K.pqAngleRef = v then (List.range 12).foldl (fun s w => setAngle f w s) s else setAngle f v s

/-- A positive crossing of V-v (R140 to R142, R304). -/
def positiveCrossing (f v : Nat) (zc : Int) (s : State) : State :=
  let z := tget {} s.tan.zc v
  let s := setZc v { z with f10First := some (z.f10First.getD zc), f10Last := some zc, f10Cnt := z.f10Cnt + 1 } s
  tbCrossing f v zc (setAngle f v (s.putDue f (K.vZcLast v) (ofInt 64 zc)))

/-- What one sample's detector step brings about beyond the windows. -/
def zopEffect (f v : Nat) (o : ZOp) (s : State) : State :=
  let s := if o.rej then s.putDue f (K.vZcRejected v) ((s.live (K.vZcRejected v) + 1) % 2 ^ 32) else s
  let s := if o.lock then decideBand f (tget {} s.tan.zc v).p s else s
  let s := match o.lost with | some p => lockLost f v p s | none => s
  let s := match o.pos with | some zc => positiveCrossing f v zc s | none => s
  if o.lock then lockAngles f v s else s

/-- The aligned samples of V-v in the frame after `f` as far as they are there, and its delay in that frame. (DEDUCED, log 38) -/
def samplesAfter (s : State) (f v : Nat) : List Int × Int :=
  let of := fun (fr : AFrame) => match tget none fr.chans (256 + v) with | some a => a.a | none => []
  match s.aln.ring1.find? (fun fr => decide (fr.fn = f + 1)) with
  | some fr => (of fr, tget 0 fr.dly v)
  | none => (if s.aln.asm.fn = f + 1 then of s.aln.asm else [], tget 0 (frameDelays s (f + 1)) v)

/-- The samples of V-v pass its detector; a retired channel without a substitute is seen as no voltage, so that its windows
close on the timer (R228).  A window whose last sample lies in the frame ends with it, though its crossing is found on the first
samples after the frame (R12, Table 5.7). (DEDUCED, log 38) -/
def scanVolt (fr : AFrame) (own : List VDat) (v : Nat) (s : State) : List ZOp × State :=
  let d := own.getD v VDat.none
  let retired := decide (tget none s.tan.subst v ≠ none)
  if d.ok ∨ retired then
    let u := tget 0 fr.dly v
    let xs := if retired then List.replicate 16 0 else d.x
    let z := tget {} s.tan.zc v
    let r := zcFrame (nominalHz s) u (16 * fr.fn) xs { z with clip := d.clip }
    let nx := if retired then ([], 0) else samplesAfter s fr.fn v
    let lim := 16 * (fr.fn + 1)
    let ahead := zcAhead (nominalHz s) nx.2 lim lim nx.1 r.1
    let ops := (if z.early then zcSettled (16 * fr.fn) r.2 else r.2) ++ (ahead.toList.map (fun e => { close := some e : ZOp }))
    let ends := ops.foldl (fun l o => l ++ o.close.toList ++ o.cut.toList) []
    let s := setZc v { r.1 with early := ahead.isSome, due := z.due ++ ends, pOld := z.pPrev, lockOld := z.lockPrev, pPrev := r.1.p,
                                lockPrev := r.1.locked, f10Bad := z.f10Bad || !r.1.locked } s
    (ops, r.2.foldl (fun s o => zopEffect fr.fn v o s) s)
  else ([], s)

/-- The detectors of all twelve channels. -/
def scanVolts (fr : AFrame) (own : List VDat) : List Nat → State → List (List ZOp) × State
  | [], s => ([], s)
  | v :: vs, s =>
    let (o, s) := scanVolt fr own v s
    let (os, s) := scanVolts fr own vs s
    (o :: os, s)

/-! ### Products and windows of a frame (R106, R108, R111, R113) -/

/-- The samples of a frame enter the windows of every input, by the operations of its reference. -/
def sigFrame (fr : AFrame) (own : List VDat) (ops : List (List ZOp)) (s : State) : State :=
  let map := phaseMap s fr.fn
  let s := fr.chans.foldl (fun s e => match e.2 with
    | some a =>
      let v := followV s (inputRef s map e.1)
      if 256 ≤ e.1 ∧ tget none s.tan.subst (e.1 - 256) ≠ none then s
      else setSig e.1 (sigRun (ops.getD v []) a.a (tget {} s.tan.sig e.1)) s
    | none => s) s
  (List.range 12).foldl (fun s w =>
    match tget none s.tan.subst w with
    | some b =>
      if b.src < 12 then setSig (512 + w) (sigRun (ops.getD b.src []) (voltOf s own w).x (tget {} s.tan.sig (512 + w))) s
      else setSig (256 + w) (sigRun (ops.getD w []) (List.replicate 16 0) (tget {} s.tan.sig (256 + w))) s
    | none => s) s

/-- The half-cycle RMS of input `k` closed last at or before the end of the frame (R113): of the windows of its reference that
ended within the frame, or the last handled one. -/
def rmsEnd (s : State) (k v : Nat) : Option Nat :=
  let g := tget {} s.tan.sig k
  let z := tget {} s.tan.zc v
  match g.cuts.getLast?, (tget {} s.tan.sig (256 + v)).cuts.getLast? with
  | some a, some r =>
    if a.n = r.n ∧ a.n ≠ 0 ∧ (z.openZc ≠ none ∨ z.timed ∨ 1 < g.cuts.length) then some (rmsOf a) else g.rmsH
  | _, _ => g.rmsH

/-- One phase of a frame: its 16 products p and q in units of 2^-90, its apparent sum in 2^-94, and flags. -/
structure PhaseDat where
  p    : List Int
  q    : List Int
  ss   : Int
  vec  : Bool
  live : Bool
  clip : Bool
  est  : Bool
  deriving DecidableEq, Repr

/-- A phase that contributes nothing. -/
def PhaseDat.zero : PhaseDat := ⟨List.replicate 16 0, List.replicate 16 0, 0, false, false, false, false⟩

/-- A phase in a frame (R106, R108, R111, R113, R226, R228). -/
def phaseDat (fr : AFrame) (own : List VDat) (c : Nat) (ph : Phase) (s : State) : PhaseDat :=
  match tget none fr.chans ph.ch with
  | none => PhaseDat.zero
  | some a =>
    if unitOut s 1 ph.ch fr.fn then PhaseDat.zero
    else
      let clip := a.clip.any id
      let sg : Int := if ph.neg then -1 else 1
      let ref := followV s ph.v
      let ir := rmsEnd s ph.ch ref
      match tget none s.tan.subst ph.v with
      | some ⟨255, _, _, _⟩ =>
        let e : Int := (s.cfg fr.fn (K.vUDin ph.v) : Int) * (ir.getD 0 : Nat) * 2 ^ 28
        let e := if s.get (K.cctDirection c) = 1 then -e else e
        ⟨List.replicate 16 e, List.replicate 16 0, 256 * mag e, false, true, clip, true⟩
      | sub =>
        let d := voltOf s own ph.v
        if d.ok then
          let p := (List.range 16).map (fun j => rshift (sg * ati d.x j * ati a.a j) 4)
          let q := (List.range 16).map (fun j => rshift (sg * ati d.q j * ati a.a j) 4)
          let vk := rmsEnd s (if sub = none then 256 + ph.v else 512 + ph.v) ref
          match vk, ir with
          | some u, some i => ⟨p, q, 16 * (u : Int) * i, false, true, clip || d.clip, a.est || d.est || decide (sub ≠ none)⟩
          | _, _ => ⟨p, q, 0, true, true, clip || d.clip, a.est || d.est || decide (sub ≠ none)⟩
        else PhaseDat.zero

/-- The samples of a circuit's frame as accumulators of one sample each (R114, R154). -/
def cctSamples (fr : AFrame) (c : Nat) (phs : List Phase) (ds : List PhaseDat) (s : State) : List CAcc :=
  let sum := fun j => sumI (phs.map (fun ph => match tget none fr.chans ph.ch with | some a => ati a.a j | none => 0))
  let n := fun j => match tget none fr.chans (s.cfg fr.fn (K.cctChN c)) with | some a => ati a.a j | none => 0
  let plus := decide (s.cfg fr.fn K.pqNPolarity = 1)
  (List.range 16).map (fun j =>
    let r := if plus then sum j + n j else sum j - n j
    { p := ds.map (fun d => ati d.p j), q := ds.map (fun d => ati d.q j), a := ds.map (fun d => odiv d.ss 16),
      r := rshift (r * r) 12, n := 1, vec := ds.any (fun d => d.vec) : CAcc })

/-- Every channel of a circuit in frame `f`, its neutral channel included. -/
def cctChannels (s : State) (f c : Nat) : List Nat :=
  (phasesOf s f c).map (fun p => p.ch) ++
    (if s.cfg f (K.cctChN c) = 0xFFFF then [] else [s.cfg f (K.cctChN c)])

/-- A span of frames to be estimated touches a circuit (R68, R76, R221, R222). -/
def spanHits (s : State) (f c : Nat) (e : EstSpan) : Bool :=
  decide (e.lo ≤ f) && decide (f ≤ e.hi) &&
  (if e.src < 32 then
     (cctChannels s f c).any (fun n => decide (n / 8 = e.src) || decide (laneOf s n = e.src))
   else (phasesOf s f c).any (fun p => decide (32 + p.v = e.src)))

/-- The lane pair of a channel is served by one lane in frame `f` (R68). -/
def degraded (s : State) (f n : Nat) : Bool :=
  let l := n / 8
  let serves := fun l =>
    let x : LaneS := tget {} s.acq.lanes l
    decide (x.serveLo ≤ f) && (x.serves || decide (f < x.serveHi))
  serves l || serves (partner l)

/-- A CLIP sample of a circuit's neutral channel is used in a frame (R65). -/
def neutralClip (fr : AFrame) (s : State) (c : Nat) : Bool :=
  match tget none fr.chans (s.cfg fr.fn (K.cctChN c)) with
  | some a => a.clip.any id && !unitOut s 1 (s.cfg fr.fn (K.cctChN c)) fr.fn
  | none => false

/-- A replaced sample of a circuit's neutral channel is used in a frame (R221). -/
def neutralEst (fr : AFrame) (s : State) (c : Nat) : Bool :=
  match tget none fr.chans (s.cfg fr.fn (K.cctChN c)) with
  | some a => a.est && !unitOut s 1 (s.cfg fr.fn (K.cctChN c)) fr.fn
  | none => false

/-- The status bits that core 0 knows of a circuit (Table 4.8). -/
def cctFlags (fr : AFrame) (s : State) (c : Nat) (ds : List PhaseDat) : Nat :=
  let f := fr.fn
  let chs := cctChannels s f c
  let bitIf := fun (b : Bool) (n : Nat) => if b then 2 ^ n else 0
  bitIf (!(tget {} s.tan.cwin c).valid) 14 + bitIf (ds.any (fun d => d.est) || neutralEst fr s c) 12 + bitIf (ds.any (fun d => d.clip) || neutralClip fr s c) 11 +
  bitIf (chs.any (degraded s f)) 10 + bitIf (chs.any (fun n => unitOut s 1 n f)) 9

/-- The result of one circuit in a frame, and its windows. -/
def cctFrame (fr : AFrame) (own : List VDat) (ops : List (List ZOp)) (c : Nat) (s : State) : CRes × State :=
  let phs := phasesOf s fr.fn c
  let ds := phs.map (fun ph => phaseDat fr own c ph s)
  let v := followV s (cctRef s fr.fn c)
  let s := setCwin c (cctRun (ops.getD v []) (cctSamples fr c phs ds s) (tget {} s.tan.cwin c)) s
  let sumAt := fun (f : PhaseDat → List Int) => (List.range 16).map (fun j => sumI (ds.map (fun d => mag (ati (f d) j))))
  ({ c := c, missing := fr.lost || s.acq.estSpans.any (spanHits s fr.fn c),
     sp := ds.map (fun d => sumI d.p), sq := ds.map (fun d => sumI d.q), ss := ds.map (fun d => d.ss),
     vec := ds.map (fun d => d.vec), flags := cctFlags fr s c ds, live := ds.map (fun d => d.live),
     shp := sumAt (fun d => d.p), shq := sumAt (fun d => d.q) }, s)

/-- The results of the defined circuits in ascending order. -/
def cctFrames (fr : AFrame) (own : List VDat) (ops : List (List ZOp)) : List Nat → State → List CRes × State
  | [], s => ([], s)
  | c :: cs, s =>
    let (r, s) := cctFrame fr own ops c s
    let (rs, s) := cctFrames fr own ops cs s
    (r :: rs, s)

/-! ### Baselines (R125, R126) -/

/-- The baseline sum SP of channel `n` in units of 2^-90 (R126). -/
def baseSum (fr : AFrame) (own : List VDat) (n : Nat) (s : State) : Int :=
  let vr := s.get (K.chBaseVref n)
  let c := s.live (K.chCircuit n)
  sumI (phaseDat fr own c ⟨n, vr % 128, decide (128 ≤ vr)⟩ s).p

/-- BASELINE_ACCRUE (R126): the frame's SP of channel `n` enters AI_BASE or AE_BASE.  A FRAME-LOST frame has no samples and adds
nothing. -/
def baseFrame (fr : AFrame) (own : List VDat) (n : Nat) (s : State) : State :=
  let k := s.get (K.chBaseK n)
  let note := fun (e : Int) (s : State) => { s with tan := { s.tan with baseEnt := tset 0 s.tan.baseEnt n e } }
  if k = 0 ∨ fr.lost then note 0 s
  else
    let sp := baseSum fr own n s
    if mag sp * 2 * 2 ^ s.cfg fr.fn (K.chGainLow n) * 40000 < 16 * 2 ^ 90 then note 0 s
    else
      let e := rshift (rshift sp 34 * k) 40
      let s := note e s
      let key := if 0 ≤ e then K.chAiBase n else K.chAeBase n
      putTotal fr.fn key (regTotal s key + (mag e).toNat) s

/-- A baseline entry is added to its register. -/
def baseAdd (f n : Nat) (e : Int) (s : State) : State :=
  let key := if 0 ≤ e then K.chAiBase n else K.chAeBase n
  if e = 0 then s else putTotal f key (regTotal s key + (mag e).toNat) s

/-- The frames that a warm reset cost the baselines are entered by interpolation between the entries around them (R19, R409);
`old` are the entries of frame `l`. (DEDUCED, log 40) -/
def baseGap (f : Nat) (old : Tab Int) (ns : List Nat) (s : State) : State :=
  match s.pwr.gapBase with
  | none => s
  | some l =>
    let s := ns.foldl (fun s n =>
      let a := tget 0 old n
      let b := tget 0 s.tan.baseEnt n
      (List.range (f - (l + 1))).foldl (fun s i => baseAdd f n (odiv (a * (f - l - 1 - i : Nat) + b * (i + 1 : Nat)) (f - l : Nat)) s) s) s
    let marks := ns.map (fun n =>
      let b := tget 0 s.tan.baseEnt n
      (n, regTotal s (K.chAiBase n) - b.toNat, regTotal s (K.chAeBase n) - (-b).toNat))
    { s with pwr := { s.pwr with gapBase := none, gapMarks := marks } }

/-- The baselines of every channel with BASE_K, and their totals at the end of the frame. -/
def baseFrames (fr : AFrame) (own : List VDat) (s : State) : List (Nat × Nat × Nat) × State :=
  let ns := (List.range 256).filter (fun n => decide (s.get (K.chBaseK n) ≠ 0))
  let old := s.tan.baseEnt
  let s := ns.foldl (fun s n => baseFrame fr own n s) s
  let s := baseGap fr.fn old ns { s with tan := { s.tan with baseFn := some fr.fn } }
  (ns.map (fun n => (n, regTotal s (K.chAiBase n), regTotal s (K.chAeBase n))), s)

/-! ### Resampling (R143, R144, R148) -/

/-- Units of 2^-38 / 5 in a sample period. -/
def clockUnit : Nat := 5 * 2 ^ 38

/-- Δ in those units (R143): 40/f_t or 48/f_t sample periods, 0.8 at the nominal frequency. -/
def clockDelta (locked : Bool) (p hz : Nat) : Nat :=
  if locked ∧ p ≠ 0 then 5 * (if hz = 60 then 48 else 40) * p else 4 * 2 ^ 38

/-- A point: nearest 1/256 sample, the samples since the point before, Δ, its frame, lock, and f_t in 2^-20 Hz. -/
structure Point where
  q    : Nat
  span : Nat
  d    : Nat
  fn   : Nat
  lock : Bool
  ft   : Int
  deriving DecidableEq, Repr

/-- f_t in units of 2^-20 Hz. -/
def ftFine (locked : Bool) (p hz : Nat) : Int :=
  if locked ∧ p ≠ 0 then odiv (2 ^ 58) p else (hz : Int) * 2 ^ 20

/-- The points of a reference that the samples up to `last` allow (R143): each needs seven samples after it. (DEDUCED, log 39) -/
def clockPoints (z : Zc) (hz f last : Nat) : Nat → Option Nat → Nat → List Point × Option Nat × Nat
  | 0, q0, t => ([], q0, t)
  | k + 1, q0, t =>
    let q := (rdiv (256 * t : Nat) clockUnit).toNat
    if (q + 255) / 256 + 7 ≤ last then
      let fn := q / 256 / 16
      let lk := if fn < f then z.lockOld else z.lockPrev
      let p := if fn < f then z.pOld else z.pPrev
      let d := clockDelta lk p hz
      let r := clockPoints z hz f last k (some q) (t + d)
      (⟨q, max 1 ((q + 255) / 256 - (q0.getD q + 255) / 256), d, fn, lk, ftFine lk p hz⟩ :: r.1, r.2)
    else ([], q0, t)

/-- The clock of reference `v` in a frame: it starts with the first frame after the lock of its channel (R144). (DEDUCED, log 39) -/
def clockFrame (prev : Zc) (f v : Nat) (s : State) : List Point × State :=
  let c := tget {} s.tan.clk v
  if c.run then
    let r := clockPoints prev (nominalHz s) f (16 * f + 15) 64 c.last c.t
    (r.1, { s with tan := { s.tan with clk := tset {} s.tan.clk v { c with t := r.2.2, last := r.2.1 } } })
  else if (tget {} s.tan.zc v).locked then
    ([], { s with tan := { s.tan with clk := tset {} s.tan.clk v { t := 16 * (f + 1) * clockUnit, run := true } } })
  else ([], s)

/-- The clocks of all references. -/
def clockFrames (prev : List Zc) (f : Nat) : List Nat → State → List (List Point) × State
  | [], s => ([], s)
  | v :: vs, s =>
    let (p, s) := clockFrame (prev.getD v {}) f v s
    let (ps, s) := clockFrames prev f vs s
    (p :: ps, s)

/-- The point `q` interpolated from aligned samples, newest `last` (R81, R82, R143). -/
def pointValue (hist : List (Int × Bool × Bool)) (last q : Nat) : Int :=
  let n := (q + 255) / 256 + 7
  let h := coeff (256 * (n - 7) - q)
  sat47 (rshift (sumI ((List.range 16).map (fun t => ati h t * (hist.getD (last - (n - t)) (0, false, false)).1))) 23)

/-- A point joins the window of an input (R144, R148), with the point of its reference `ref` at the same instant (R143). -/
def winPoint (ref : List (Int × Bool × Bool)) (last : Nat) (p : Point) (h : Harm) : Harm :=
  let marks := (h.hist.drop (last - (p.q + 255) / 256)).take p.span
  let w := h.win
  let w := { w with pts := pointValue h.hist last p.q :: w.pts, ref := pointValue ref last p.q :: w.ref, count := w.count + 1,
                    len := w.len + p.d, fsum := w.fsum + p.ft, unsync := w.unsync || !p.lock,
                    clip := w.clip || marks.any (fun m => m.2.1), est := w.est || marks.any (fun m => m.2.2), fn := p.fn,
                    sync := p.lock }
  if w.count = 4096 then { h with win := {}, ready := h.ready ++ [w] } else { h with win := w }

/-- The samples of a frame for the resampler; those of a FRAME-LOST frame are taken one tracked period earlier (R148). -/
def histFrame (lost : Bool) (period : Nat) : List Int → List Bool → List (Int × Bool × Bool) → List (Int × Bool × Bool)
  | x :: xs, clips, h =>
    let e := if lost then ((h.getD (period - 1) (0, false, false)).1, false, true)
      else (x, clips.headD false, false)
    histFrame lost period xs clips.tail (e :: h)
  | [], _, h => h.take 512

/-- One tracked period in samples, to the nearest. -/
def periodSamples (z : Zc) (hz : Nat) : Nat :=
  if z.lockPrev ∧ z.pPrev ≠ 0 then (rdiv z.pPrev (256 * 65536)).toNat else 16384 / hz

/-- HARM_EN of an input. -/
def harmEnKey (k : Nat) : Nat := if k < 256 then K.spHarmEn k else K.spvHarmEn (k - 256)

/-- The samples of a frame enter what the resampler holds of an input, with harmonics enabled or not: its first points after an enable
need the aligned samples before them (R143, R148). -/
def harmSamples (fr : AFrame) (map : List (Nat × Phase)) (prev : List Zc) (k : Nat) (a : AChan) (s : State) : State :=
  let v := followV s (inputRef s map k)
  let h := tget {} s.tan.harm k
  let h := { h with hist := histFrame fr.lost (periodSamples (prev.getD v {}) (nominalHz s)) a.a a.clip h.hist }
  { s with tan := { s.tan with harm := tset {} s.tan.harm k h } }

/-- A channel-frame of points has entered RING-2 (R13, R14): it is counted with the window in progress, or with the one that it
completed. (DESIGN CHOICE, log 8) -/
def Harm.entered (h : Harm) : Harm :=
  match decide (h.win.count = 0), h.ready.reverse with
  | true, w :: ws => { h with ready := ws.reverse ++ [{ w with ents := w.ents + 1 }] }
  | _, _ => { h with win := { h.win with ents := h.win.ents + 1 } }

/-- The points of a frame join the window of an input with harmonics enabled (R143, R144), those of frames before its enable or after
its disable apart; a disable discards the window in progress (R38, R39). (DEDUCED, log 39) -/
def harmFrame (fr : AFrame) (map : List (Nat × Phase)) (pts : List (List Point)) (k : Nat) (s : State) : State :=
  let v := followV s (inputRef s map k)
  let h := tget {} s.tan.harm k
  let ref := (tget {} s.tan.harm (256 + v)).hist
  let ps := (pts.getD v []).filter (fun p => harmAt s p.fn k && decide (h.from_ ≤ p.fn))
  let h := ps.foldl (fun h p => winPoint ref (16 * fr.fn + 15) p h) { h with on := true }
  let h := if ps = [] then h else h.entered
  let on := harmAt s fr.fn k
  let key := if k < 256 then K.spStatus k else K.spvStatus (k - 256)
  let s := if h.valid || !on then s else s.putDue fr.fn key 0x4000
  { s with tan := { s.tan with harm := tset {} s.tan.harm k (if on then h else { h with win := {} }) } }

/-- Harmonics of input `k` are computed in frame `f`. -/
def harmOn (s : State) (f k : Nat) : Bool :=
  harmAt s f k && !(if k < 256 then unitOut s 1 k f else unitOut s 2 (k - 256) f)

/-- An input has a valid window as of frame `f` (R160): since its last enable, or for a frame before that, since the one before. -/
def validAt (s : State) (f k : Nat) : Bool :=
  let h := tget {} s.tan.harm k
  if f < h.from_ then h.old else h.valid

/-- The inputs whose windows give the harmonic power of a circuit (R149). -/
def harmIns (s : State) (ps : List Phase) : List Nat := (ps.map (fun p => [p.ch, 256 + followV s p.v])).flatten

/-- Every phase of a circuit has a valid window (R160). -/
def harmValid (s : State) (f : Nat) (ps : List Phase) : Bool :=
  (harmIns s ps).all (fun k => harmOn s f k && validAt s f k)

/-- The status of an input's window values: DISABLED, WARMING, or the flags of its last window (Table 5.10). -/
def harmStatusOf (s : State) (f k : Nat) : Nat :=
  if !harmOn s f k then 0x8000 else if validAt s f k then (tget {} s.tan.harm k).flags else 0x4000

/-- STATUS of a circuit's harmonic power: Table 5.10 combined over the phases. -/
def cctHarmStatus (s : State) (f : Nat) (ps : List Phase) : Nat :=
  (harmIns s ps).foldl (fun a k => a ||| harmStatusOf s f k) 0

/-- The harmonic powers of a circuit. -/
def harmPowerKeys (c : Nat) : List Nat := (List.range 51).map (K.cctPH c) ++ [K.cctPHarm c]

/-- The harmonic power of a circuit without a valid window on every phase reads 0, and so does one whose inputs have had no window
together yet; its status says WARMING until then (R20, R39, R160). -/
def harmWarm (f : Nat) (s : State) : State :=
  (definedCcts s f).foldl (fun s c =>
    let ps := phasesOf s f c
    let w := tget {} s.tan.cwin c
    let ok := harmValid s f ps
    if ok && w.hv then s
    else
      let s := if w.hv then
          (harmPowerKeys c).foldl (fun s k => s.putDue f k 0)
            ((setCwin c { w with hv := false } s).dropDue f (K.cctHStatus c :: harmPowerKeys c))
        else s
      let st := cctHarmStatus s f ps
      s.putDue f (K.cctHStatus c) (if bit st 15 then st else setBit st 14)) s

/-- The entries that RING-2 holds: those of the windows that core 1 has not finished (R14, R15). -/
def ring2Used (s : State) : Nat :=
  sumN (s.tan.harm.map (fun e => sumN (e.2.ready.map (fun w => w.ents)) + e.2.win.ents))

/-- Entries of a window of one input in RING-2's depth (R14): an open number, at least that of every window held.
(DESIGN CHOICE, log 8) -/
def windowEnts (s : State) : Nat :=
  s.tan.harm.foldl (fun m e => e.2.ready.foldl (fun m w => max m w.ents) (max m e.2.win.ents)) (Config.openResult 2 []).toNat

/-- RING-2's depth of one window and four frames in entries, in the configuration of frame `f` (R14). (DESIGN CHOICE, log 8) -/
def ring2Credit (s : State) (f : Nat) : Nat := harmInputs s f * (windowEnts s + 4)

/-- RING-2 lacks the credit for one more channel-frame of points of every input (R15). (DESIGN CHOICE, log 8) -/
def ring2Full (s : State) (f : Nat) : Bool :=
  decide (0 < harmInputs s f) && decide (ring2Credit s f < ring2Used s + harmInputs s f)

/-! ### Status words and capture rows -/

/-- The voltage status word (Table 5.8). -/
def vStatusWord (s : State) (f v : Nat) : Nat :=
  let z := tget {} s.tan.zc v
  let g := tget {} s.tan.sig (256 + v)
  let retired := unitOut s 2 v f
  let on := fun kind => (tget {} s.tan.vdet (4 * v + kind)).on
  let bitIf := fun (b : Bool) (n : Nat) => if b then 2 ^ n else 0
  if s.cfg f (K.vEnable v) ≠ 1 then 0x8000
  else if retired then 0x9000
  else
    bitIf (!z.locked || g.rmsH == none || g.rmsU == none || g.rmsC == none || g.rmsS == none || z.f200 == none ||
      z.f10 == none || z.angle == none) 14 +
    bitIf z.clip 11 + bitIf z.locked 10 + bitIf (vAbsent s f v) 9 + bitIf (on 0) 8 + bitIf (on 1) 7 + bitIf (on 2) 6 +
    bitIf z.timed 5 + bitIf (decide (s.live K.pqBandInEffect = 2)) 4

/-- The channel status word (Tables 4.8, 4.11). -/
def chStatusWord (fr : AFrame) (s : State) (n : Nat) : Nat :=
  let a := tget none fr.chans n
  let bitIf := fun (b : Bool) (n : Nat) => if b then 2 ^ n else 0
  if s.cfg fr.fn (K.chEnable n) ≠ 1 then 0x8000
  else
    let g := tget {} s.tan.sig n
    bitIf (a == none || g.rmsH == none || g.rmsC == none || g.rmsS == none) 14 +
    bitIf (match a with | some a => a.est | none => false) 12 +
    bitIf (match a with | some a => a.clip.any id | none => false) 11 +
    bitIf (degraded s fr.fn n) 10 + bitIf (unitOut s 1 n fr.fn) 9

/-- The live values of a retired input read 0 (R226, R229). -/
def hideRetired (f k : Nat) (s : State) : State :=
  if inputRetired s f k then (inputKeys k).foldl (fun s x => s.putDue f x 0) s else s

/-- The values of each voltage channel that follow every frame: status and FREQ_TRACK (Tables 5.1, 5.8). -/
def voltPublish (f : Nat) (s : State) : State :=
  (List.range 12).foldl (fun s v =>
    let z := tget {} s.tan.zc v
    let ft := if z.locked then ftMicro z.p else nominalHz s * 1000000
    let s := if s.cfg f (K.vEnable v) = 1 then pubInput f (256 + v) (K.vFreqTrack v) ft s else s
    let s := hideRetired f (256 + v) s
    let s := if z.angle = none then s.putDue f (K.vAngle v) 0 else s
    let s := if z.f200 = none then s.putDue f (K.vFreq200 v) 0 else s
    s.putDue f (K.vStatus v) (vStatusWord s f v)) s

/-- The status of each channel and the circuit it belongs to. -/
def chanPublish (fr : AFrame) (s : State) : State :=
  let ccts := definedCcts s fr.fn
  let owner := (ccts.map (fun c => (cctChannels s fr.fn c).map (fun n => (n, c)))).flatten
  (List.range 256).foldl (fun s n =>
    let c := match owner.find? (fun e => decide (e.1 = n)) with | some e => e.2 | none => 0xFFFF
    hideRetired fr.fn n ((s.putDue fr.fn (K.chCircuit n) c).putDue fr.fn (K.chStatus n) (chStatusWord fr s n))) s

/-- The rows of a frame for the capture buffer (R156). -/
def capRowsOf (fr : AFrame) (s : State) : List CapRow :=
  let chans := capChans s fr.fn
  let key := fun code => if 0x8000 ≤ code then 256 + (code - 0x8000) else code
  let dat := chans.map (fun code => tget none fr.chans (key code))
  let unsync := chans.any (fun code => decide (0x8000 ≤ code) && !(tget {} s.tan.zc (code - 0x8000)).locked)
  let est := fr.lost || dat.any (fun d => match d with | some a => a.est | none => false)
  (List.range 16).map (fun j =>
    { m := 16 * fr.fn + j, vals := dat.map (fun d => match d with | some a => capSample (ati a.a j) | none => 0),
      clip := dat.any (fun d => match d with | some a => a.clip.getD j false | none => false),
      est := est, unsync := unsync : CapRow })

/-- Emergencies of channels in CH_SEL whose aligned sample lies in frame `f` trigger a capture (R157). (DEDUCED, log 41) -/
def emergTriggers (f : Nat) (s : State) : State :=
  let now := s.acq.emerg.filter (fun e => decide ((e.2 + 8) / 16 ≤ f))
  let s := { s with acq := { s.acq with emerg := s.acq.emerg.filter (fun e => decide (f < (e.2 + 8) / 16)) } }
  now.foldl (fun s e =>
    if (List.range 16).any (fun i => decide (s.cfg f (K.capChSel i) = e.1)) then capTrigger f (e.2 + 8) 1 e.1 s else s) s

/-- CAPTURE_NOW's trigger, the first sample of the frame after the request (R157); capture disabled since then starts nothing.
(DEDUCED, log 41) -/
def nowTrigger (f : Nat) (s : State) : State :=
  match s.cap.now with
  | some (id, m) =>
    if f < m / 16 then s
    else
      let s := { s with cap := { s.cap with now := none } }
      if s.cfg f K.capEnable ≠ 1 then s
      else if s.live K.capState = 1 ∨ s.cap.cur ≠ none ∨ (s.live K.capState = 2 ∧ m / 16 ≤ s.cap.hold) then s.bump K.capMissed
      else capStart f m 0 0 id s
  | none => s

/-- The last frame of a 10 s interval (R142): the next tick carries a TIME48, or while INVALID an FN, that is a multiple of
10,240, or a clock step ends it at once. (DESIGN CHOICE, log 111) -/
def ivalEnds (s : State) (f : Nat) : Bool :=
  s.bill.steps.any (fun e => decide (e.1 = f + 1)) ||
  (if s.timeValid then decide (s.timeOf (f + 1) % 10240 = 0) else decide ((f + 1) % 10240 = 0))

/-- FREQ_10S_INTERVAL_END (R142): each channel's value is formed from the whole cycles of the interval; a channel unlocked at
any moment of it reads WARMING.  The stretch that a clock step leaves up to the next multiple of 10,240 is taken as an interval.
(DESIGN CHOICE, log 111) -/
def execFreq10sIntervalEnd (s : State) : Host.Outcome State Fault Refusal :=
  .next (match s.tan.ivalEnd with
    | none => s
    | some e =>
      (List.range 12).foldl (fun s v =>
        let z := tget {} s.tan.zc v
        let val := match z.f10First, z.f10Last with
          | some a, some b => if z.f10Bad = false ∧ a < b then
              some (odiv (((z.f10Cnt : Int) - 1) * tapsPerS * 1000000) (b - a)).toNat else none
          | _, _ => none
        (setZc v { z with f10 := val, f10First := none, f10Last := none, f10Cnt := 0, f10Bad := !z.locked } s).putDue e
          (K.vFreq10s v) (val.getD 0))
        { s with tan := { s.tan with ivalEnd := none } })

/-- HALF_CYCLE_TIMEOUT (R110): the window that the timer of V-v has ended closes; the status of its frame follows (R155). -/
def execHalfCycleTimeout (v : Fin 12) (s : State) : Host.Outcome State Fault Refusal :=
  .next (match (tget {} s.tan.zc v.val).due with
    | e :: _ =>
      let f := e.last / 16
      let s := halfEnd f v.val e s
      let s := pqPublish f (s.putDue f (K.vStatus v.val) (vStatusWord s f v.val))
      { s with tan := { s.tan with
        ring3 := s.tan.ring3.map (fun r => if r.fn = f then { r with ccts := r.ccts.map (warmDone s) } else r) } }
    | [] => s)

/-! ### The frame -/

/-- The ends of windows that a crossing of this frame decided, with the timed ones before them; timed ends after the last
crossing wait for HALF_CYCLE_TIMEOUT. -/
def handledEnds (due : List HalfEnd) : Nat :=
  due.length - (due.reverse.takeWhile (fun e => e.timed)).length

/-- The circuit-frame results in RING-3. -/
def ring3Used (s : State) : Nat := sumN (s.tan.ring3.map (fun r => r.ccts.length))

/-- RING-3 lacks the credit for the circuit-frame results of frame `f` (R14, R15). -/
def ring3Full (s : State) (f : Nat) : Bool :=
  let n := (definedCcts s f).length
  decide (0 < n) && decide (4 * n < ring3Used s + n)

/-- The ring without credit for the results of frame `f`, if one has none: RING-3 or RING-2 (R15). -/
def tanneryStall (s : State) (f : Nat) : Option Nat :=
  if ring3Full s f then some 3 else if ring2Full s f then some 2 else none

/-- In ROM recovery the baseline path alone computes a frame (R125, R388). (DEDUCED, log 67) -/
def romFrame (fr : AFrame) (s : State) : State :=
  let (own, s) := ownVolts fr (List.range 12) s
  let (_, s) := baseFrames fr own s
  { s with aln := { s.aln with ring1 := s.aln.ring1.tail } }

/-- The capture engine takes the rows and the triggers of a frame (R156, R157). -/
def tanneryCap (fr : AFrame) (s : State) : State :=
  if s.cfg fr.fn K.capEnable = 1 then capCollect (emergTriggers fr.fn (capPush (capRowsOf fr s) s)) else emergTriggers fr.fn s

/-- The harmonic windows take the points of a frame, with the clocks as they stood before it in `prev` (R145). -/
def tanneryHarm (fr : AFrame) (prev : List Zc) (s : State) : State :=
  let (pts, s) := clockFrames prev fr.fn (List.range 12) s
  let map := phaseMap s fr.fn
  let s := fr.chans.foldl (fun s e => match e.2 with | some a => harmSamples fr map prev e.1 a s | none => s) s
  fr.chans.foldl (fun s e => if e.2 = none then s else harmFrame fr map pts e.1 s) s

/-- The values of a frame are published, and the time base takes its crossings. -/
def tanneryShow (fr : AFrame) (s : State) : State :=
  tbFrame fr.fn (harmWarm fr.fn (pqPublish fr.fn (chanPublish fr (voltPublish fr.fn s))))

/-- The results of a frame enter RING-3, and its aligned frame leaves RING-1 (Table 1.3). -/
def tanneryDone (fr : AFrame) (ccts : List CRes) (base : List (Nat × Nat × Nat)) (s : State) : State :=
  let f := fr.fn
  let s := if ivalEnds s f then { s with tan := { s.tan with ivalEnd := some f } } else s
  { s with aln := { s.aln with ring1 := s.aln.ring1.tail },
           tan := { s.tan with ring3 := s.tan.ring3 ++
             [{ fn := f, lost := fr.lost, ccts := ccts, base := base, done := 0, fin := false, bal := [], balSkip := false }] },
           acq := { s.acq with estSpans := s.acq.estSpans.filter (fun e => decide (f < e.hi)) } }

/-- Core 0 computes an aligned frame. -/
def tanneryFrame (fr : AFrame) (cyc0 cyc1 : Nat) (s : State) : State :=
  let f := fr.fn
  let s := (List.range 12).foldl (fun s v => halfEnds v (tget {} s.tan.zc v).due.length s) s
  let s := nowTrigger f (substReview f (tanCfg f s))
  let prev := (List.range 12).map (fun v => tget {} s.tan.zc v)
  let (own, s) := ownVolts fr (List.range 12) s
  let (ops, s) := scanVolts fr own (List.range 12) s
  let s := sigFrame fr own ops s
  let (ccts, s) := cctFrames fr own ops (definedCcts s f) s
  let s := (List.range 12).foldl (fun s v => halfEnds v (handledEnds (tget {} s.tan.zc v).due) s) s
  let ccts := ccts.map (warmDone s)
  let (base, s) := baseFrames fr own s
  let s := tanneryShow fr (tanneryHarm fr prev (tanneryCap fr s))
  tanneryDone fr ccts base ((s.putDue f (K.peak 0) cyc0).putDue f (K.peak 1) cyc1)

/-- TANNERY_FRAME_COMPUTE (R111): the oldest complete aligned frame is computed; `cyc0` and `cyc1` are the cycles that the two
cores took (R23). -/
def execTanneryFrameCompute (cyc0 cyc1 : Nat) (s : State) : Host.Outcome State Fault Refusal :=
  .next (match s.aln.ring1 with
    | fr :: _ =>
      if s.mode = .recovery then romFrame fr s
      else if s.mode = .run then
        (match tanneryStall s fr.fn with
         | some r => s.bump (K.stalls r)
         | none => tanneryFrame fr (cyc0 % 2 ^ 32) (cyc1 % 2 ^ 32) s)
      else s
    | [] => s)

end Sys2Proof.Machine
end

