-- ==== Sys2Proof/Machine/Hallmark.lean ====
section
/-! DEFINITION. The Hallmark core's work on a frame (R11, R17, R19, R115 to R132, R189 to R197): the queue of circuit-frame results,
the end of a frame, and the events of billing. -/

namespace Sys2Proof.Machine

/-! ### The queue of results -/

/-- Frames that wait for the Hallmark core, oldest first: those held for estimation, then RING-3. -/
def workQueue (s : State) : List R3 := s.bill.held ++ s.tan.ring3

/-- The first frame of the queue is replaced. -/
def setFirst (r : R3) (s : State) : State :=
  match s.bill.held with
  | _ :: l => { s with bill := { s.bill with held := r :: l } }
  | [] => (match s.tan.ring3 with
    | _ :: l => { s with tan := { s.tan with ring3 := r :: l } }
    | [] => s)

/-- The first frame of the queue is released; a RING-3 entry returns its credit. -/
def dropFirst (s : State) : State :=
  match s.bill.held with
  | _ :: l => { s with bill := { s.bill with held := l, cyc := 0 } }
  | [] => { s with tan := { s.tan with ring3 := s.tan.ring3.tail }, bill := { s.bill with cyc := 0 } }

/-- A lost frame waits outside RING-3 for its estimation (R19): its credit returns before it is accrued and published, which R15 leaves open.
(DESIGN CHOICE, log 103) -/
def holdFrame (s : State) : State :=
  match s.tan.ring3 with
  | r :: l => { s with tan := { s.tan with ring3 := l }, bill := { s.bill with held := s.bill.held ++ [r] } }
  | [] => s

/-- The next good result of circuit `c` among later frames, and its frame; a frame in which the circuit is no longer defined ends the
search without one. -/
def nextGood (c : Nat) : List R3 → Option (Nat × Option CRes)
  | [] => none
  | r :: l =>
    match r.ccts.find? (fun x => decide (x.c = c)) with
    | some x => if x.missing then nextGood c l else some (r.fn, some x)
    | none => some (r.fn, none)

/-- What stands for the neighbour of a lost frame on a side (0 before, 1 after) on which the circuit has none: the spec states no
estimate there, so its sums are free values. (DESIGN CHOICE, log 84) -/
def freeRes (f side : Nat) (r : CRes) : CRes :=
  let v := fun (w : Int) => (List.range r.sp.length).map (fun (i : Nat) => Config.openResult 19 [f, r.c, side, w, i])
  { r with missing := false, sp := v 0, sq := v 1, ss := v 2, vec := r.vec.map (fun _ => false) }

/-- The result to accrue: as measured, or the estimate between the last good one and the next (R19); none while the next is not
there yet. -/
def resolved (s : State) (fr : R3) (r : CRes) (later : List R3) : Option CRes :=
  if r.missing then
    (nextGood r.c later).map (fun e =>
      estimate ((getC s r.c).last.getD (freeRes fr.fn 0 r)) (e.2.getD (freeRes fr.fn 1 r)) fr.fn (fr.fn - 1) e.1)
  else some r

/-! ### Cabinet balance (R130 to R132) -/

/-- The participating circuits with their roles in frame `f`. -/
def balanceRoles (s : State) (f : Nat) : List (Nat × Nat) :=
  ((definedCcts s f).map (fun c => (c, s.cfg f (K.cctBalanceRole c)))).filter (fun e => decide (e.2 ≠ 0))

/-- The sum of e_p of a role. -/
def roleSum (roles : List (Nat × Nat)) (role : Nat) (bal : List (Nat × Int)) : Int :=
  sumI (bal.map (fun e => if (e.1, role) ∈ roles then e.2 else 0))

/-- What a frame adds to UNACCOUNTED, in 2^-40 mWh (R130): `d` and `inc` in 2^-40 µWh. -/
def balanceExcess (d inc : Int) (rel abs : Nat) : Int :=
  let db := max (mag inc * rel * 3600000) ((abs * 9765625 : Nat) * (2 : Int) ^ 40)
  let m := mag d * 36000000000
  if m ≤ db then 0
  else if d < 0 then -(odiv (m - db) 36000000000000) else odiv (m - db) 36000000000000

/-- UNACCOUNTED with its fraction. (DEDUCED, log 43) -/
def unaccounted (s : State) : Int := s.liveI K.balUnaccounted * 2 ^ 40 + (s.get (fracKey K.balUnaccounted) : Int)

/-- UNACCOUNTED takes a total. -/
def putUnaccounted (f : Nat) (t : Int) (s : State) : State :=
  (s.putDue f K.balUnaccounted (ofInt 48 (t / 2 ^ 40))).put (fracKey K.balUnaccounted) (t % 2 ^ 40).toNat

/-- The balance of a frame (R130, R131).  RATE reads 0 from a change of roles until it is next set. (DESIGN CHOICE, log 86) -/
def balanceFrame (fr : R3) (s : State) : State :=
  let f := fr.fn
  let roles := balanceRoles s f
  let s := if roles = s.bill.roles then s
    else { s with bill := { s.bill with roles := roles, unacc := [] } }.putDue f K.balRate 0
  let on := roles.any (fun e => decide (e.2 = 1)) && roles.any (fun e => decide (e.2 = 2))
  let s := if on then (if s.live K.balState = 0 then s.putDue f K.balState 1 else s) else s.putDue f K.balState 0
  let s := if on then
      (if fr.balSkip || fr.lost then s.bump K.balSkipped
       else
         let inc := roleSum roles 1 fr.bal
         putUnaccounted f (unaccounted s + balanceExcess (inc - roleSum roles 2 fr.bal) inc (s.cfg f K.balDbRel)
           (s.cfg f K.balDbAbs)) s)
    else s
  if f % 1024 = 0 then
    { s with bill := { s.bill with unacc := (unaccounted s :: s.bill.unacc).take 901, rateDue := true } }
  else s

/-- The state of the balance alarm after a RATE (R132): an event re-arms within 80 % of THRESHOLD, or when the other
one has come between. (DESIGN CHOICE, log 110) -/
def balanceAlarm (f : Nat) (rate : Int) (th : Nat) (s : State) : State :=
  let st := s.live K.balState
  let st := if (st = 2 ∨ st = 3) ∧ 5 * mag rate ≤ 4 * (th : Int) then 1 else st
  if (th : Int) < rate ∧ st ≠ 2 then
    ((s.putDue f K.balState 2).bump K.balEvents).eventAt f (openCode 1321) [ofInt 32 rate, th]
  else if rate < -(th : Int) ∧ st ≠ 3 then
    ((s.putDue f K.balState 3).bump K.balEvents).eventAt f (openCode 1322) [ofInt 32 rate, th]
  else s.putDue f K.balState st

/-- A value of a snapshot is replaced. -/
def Snap.put (p : Snap) (k v : Nat) : Snap := { p with vals := putVal k v p.vals }

/-- Values of a snapshot of frame `f` or later are replaced. -/
def fromSnap (f : Nat) (kvs : List (Nat × Nat)) (p : Snap) : Snap :=
  if p.fn < f then p else kvs.foldl (fun p e => p.put e.1 e.2) p

/-- Live values of frame `f` reach also what is staged from that frame on and not yet published (R12). -/
def showFrom (f : Nat) (ks : List Nat) (s : State) : State :=
  let kvs := ks.map (fun k => (k, s.live k))
  { s with staging := s.staging.map (fromSnap f kvs), sealed := s.sealed.map (fromSnap f kvs) }

/-- BALANCE_RATE (R132): the increase of UNACCOUNTED over the last 900 s in W, once 900 s have passed since the start or a role
change; RATE and STATE are those of the 1,024th frame itself (R12). -/
def execBalanceRate (s : State) : Host.Outcome State Fault Refusal :=
  .next (if s.bill.rateDue then
    let s := { s with bill := { s.bill with rateDue := false } }
    let f := s.bill.next - 1
    match s.bill.unacc.head?, s.bill.unacc[900]? with
    | some a, some b =>
      if s.live K.balState = 0 then s
      else
        let rate := clampI (-(2 ^ 31)) (2 ^ 31 - 1) (odiv ((a - b) * 4) (1000 * 2 ^ 40))
        showFrom f [K.balRate, K.balState] (balanceAlarm f rate (s.cfg f K.balThreshold) (s.putDueI f K.balRate rate))
    | _, _ => s
  else s)

/-! ### The end of a frame -/

/-- A key is an object published in snapshots (R28, flag V). -/
def isV (k : Nat) : Bool :=
  decide (k < 0x1000000) && (match rowOf k with | some r => decide (r.fl / 16 % 2 = 1) | none => false)

/-- The keys of an input's window values (Table 5.11). -/
def isWindowKey (inp k : Nat) : Bool :=
  decide (k / 256 = if inp < 256 then 0x3400 + inp else 0x3500 + (inp - 256)) && decide (k % 256 < 0xC3)

/-- Window values of inputs without a harmonic window in frame `f` read zero with DISABLED (R20, R38). -/
def clearSpectra (f : Nat) (s : State) : State :=
  let off := (allInputs.filter (fun k => !harmAt s f k)).flatMap (fun k => (s.dict.filter (fun e => isWindowKey k e.1)).map (fun e => e.1))
  off.foldl (fun s k => s.putBoth k 0) s

/-- A RING-4 result shows in frame `f`: its input has a harmonic window, and had the window since its last enable (R20, R39). -/
def resultShown (s : State) (f : Nat) (r : SpecRes) : Bool :=
  let h := tget {} s.tan.harm r.inp
  harmAt s f r.inp && !(decide (r.fn < h.from_) && decide (h.from_ ≤ f))

/-- The STATUS objects of the window values that a snapshot of frame `f` is the first to publish (Tables 5.11, 5.12). -/
def windowsFirst (s : State) (f : Nat) : List Nat :=
  ((s.tan.ring4.filter (fun r => decide (r.fn + 2 ≤ f) && resultShown s f r)).map (fun r =>
    if r.inp < 256 then K.spStatus r.inp else K.spvStatus (r.inp - 256))) ++
  ((s.tan.powDue.filter (fun e => decide (e.1 ≤ f))).map (fun e => K.cctHStatus e.2))

/-- RING-4 results that are due with frame `f` enter the staging buffer (R12): published two frames after their frame values. -/
def stageSpectra (f : Nat) (s : State) : State :=
  let due := s.tan.ring4.filter (fun r => decide (r.fn + 2 ≤ f))
  let s := due.foldl (fun s r =>
    let st := if r.inp < 256 then K.spStatus r.inp else K.spvStatus (r.inp - 256)
    if resultShown s f r then
      let s := s.putsBoth r.vals
      if r.fn + 2 < f then s.putBoth st (setBit (s.get st) 13) else s
    else s) s
  let s := { s with tan := { s.tan with ring4 := s.tan.ring4.filter (fun r => !decide (r.fn + 2 ≤ f)),
                                        ring4Held := if due = [] then s.tan.ring4Held else s.tan.ring4Held ++ [(f, due.length)] } }
  if commitAt s f then clearSpectra f s else s

/-- Values of a snapshot of frame `f` that are those of its tick: TIME48, TIME_VALID and LOCAL_TIME (Tables 6.16, 9.12). -/
def tickVals (s : State) (f : Nat) (vals : Tab Nat) : Tab Nat :=
  let loc := match s.times.find? (fun e => decide (e.1 = f)) with | some e => e.2.2 | none => s.get K.calLocalTime
  putVal K.timeTime48 (s.timeOf f) (putVal K.timeTimeValid (b2n (decide (s.timeOf f ≠ noTime))) (putVal K.calLocalTime loc vals))

/-- Values of a snapshot of frame `f` without the changes that later frames have brought already (R12). (DEDUCED, log 27) -/
def oldVals (f : Nat) (olds : List (Nat × Nat × Nat)) (vals : Tab Nat) : Tab Nat :=
  olds.reverse.foldl (fun t e => if e.1 ≤ f then t else putVal e.2.1 e.2.2 t) vals

/-- Values of a snapshot of frame `f` without what commits change from later frames on (R28, R35). -/
def priorVals (f : Nat) (cs : List Commit) (vals : Tab Nat) : Tab Nat :=
  cs.reverse.foldl (fun t c => if c.b ≤ f then t else c.chg.foldl (fun t g => if isV g.key then putVal g.key g.old t else t) t) vals

/-- A key whose value a snapshot holds: a published object, and the others that a signed reading may name (R199). (DEDUCED, log 34) -/
def inSnap (k : Nat) : Bool := isV k || (decide (0x4000 ≤ k / 256) && decide (k / 256 < 0x4100) && decide (k % 256 = 0x4A))

/-- The staging buffer of frame `f` is complete (R11, R28). (DEDUCED, log 27) -/
def stageFrame (f : Nat) (lost : Bool) (s : State) : State :=
  let wins := windowsFirst s f
  let s := stageSpectra f (s.applyDue f)
  let s := s.pages.foldl (fun s e => showPage e.1 s) { s with tan := { s.tan with powDue := s.tan.powDue.filter (fun e => decide (f < e.1)) } }
  { s with olds := s.olds.filter (fun e => decide (f < e.1)), staging := s.staging ++
    [{ fn := f, gen := s.genOf f, vals := tickVals s f (oldVals f s.olds (priorVals f s.commits (s.dict.filter (fun e => inSnap e.1)))), late := false,
       lost := lost, wins := wins }] }

/-- The marks of the channels advance to the baselines at the end of the frame (R128). -/
def markFrame (fr : R3) (s : State) : State :=
  fr.base.foldl (fun s e =>
    ((s.put (markKey e.1 0) e.2.1).put (markKey e.1 1) e.2.2).put (K.chMarkFn e.1) fr.fn) s

/-- P_FS, WRAP_HOURS and the demand objects of a circuit. -/
def showCct (f c : Nat) (s : State) : State :=
  showDemand f c ((s.putDue f (K.cctPFs c) (min 0xFFFFFFFF (pFsWatts s f c))).putDue f (K.cctWrapHours c) (wrapHours s f c))

/-- Commits that no frame in the pipeline needs any more are forgotten. -/
def dropCommits (s : State) : State :=
  { s with commits := s.commits.filter (fun c => !(c.done && decide (c.b + 32 < s.fn) && decide (c.b < s.bill.next))) }

/-- The work of the core on a frame is done: balance, pulses, marks, health, publication. -/
def finishFrame (fr : R3) (s : State) : State :=
  let f := fr.fn
  let s := fr.ccts.foldl (fun s r => showCct f r.c s) s
  let s := pulseFrame f (balanceFrame fr s)
  let s := healthFrame fr (markFrame fr s)
  let s := if s.bill.g = some f then s.putV K.supSupplyStatus (setBit (s.get K.supSupplyStatus) 0) else s
  let s := stageFrame f fr.lost s
  let absorb := if s.bill.g = some f then [] else s.bill.absorb
  let s := dropFirst { s with bill := { s.bill with next := f + 1, begun := false, run := true, absorb := absorb } }
  dropCommits { s with acq := { s.acq with lost := s.acq.lost.filter (fun g => decide (f < g)) } }

/-- The tariff, period and interval of frame `g` become those of circuit `c`, as far as slots are free (R191, R192). -/
def gaspKeys (g c : Nat) (s : State) : State :=
  let x := getC s c
  let old := x.tariff.getD 0
  let sc := s.cfg g (K.cctSchedule c)
  let t := tariffOf s g sc
  let p := periodKey sc (s.get (K.bpPeriodNo sc) + b2n (decide (closeCause s g sc false ≠ none)))
  let x := if slotRoom t p x then { x with tariff := some t, period := p } else x
  match x.ivl with
  | some v =>
    if x.susp = false ∧ x.closing = none ∧ ivlEnds s g v = true then
      let w := newIvl s g c false
      let subs := ((gapSubs v w).reverse ++ Sub.mk v.imp v.exp v.short :: x.subs).take 14
      let k : Closing := { ivl := v, prev := x.subs, tariff := old, fn := g, time := ivlEnd s g v, done := false }
      setC c { x with ivl := some w, subs := subs, closing := some k } s
    else setC c x s
  | none => setC c x s

/-- Frame `g` in a gap that a warm reset left is entered with the estimate between the last good result and the next (R19, R409). -/
def gapFrame (fr : R3) (a r : CRes) (l g : Nat) (s : State) : State :=
  let e := estimate a (if r.missing then a else r) g l fr.fn
  (accrueCct { fr with fn := g, bal := [], balSkip := true } e (gaspKeys g r.c s)).2

/-- The frames of a gap are left out of the balance (R131). -/
def gapBalance (fr : R3) (l : Nat) (s : State) : State :=
  (List.range (fr.fn - (l + 1))).foldl (fun s i => balanceFrame { fr with fn := l + 1 + i, bal := [], balSkip := true } s) s

/-- The gap before the first frame after a warm reset (R409); its increments join the pulses of the next frame (R204). -/
def fillGap (fr : R3) (s : State) : State :=
  match s.pwr.gap with
  | none => s
  | some l =>
    let s := fr.ccts.foldl (fun s r =>
      match (getC s r.c).last with
      | some a =>
        let l' := if r.c ∈ s.pwr.gapDone then l + 1 else l
        (List.range (fr.fn - (l' + 1))).foldl (fun s i => gapFrame fr a r l' (l' + 1 + i) s) s
      | none => s) s
    let s := s.pwr.gapMarks.foldl (fun s e =>
      ((s.put (markKey e.1 0) e.2.1).put (markKey e.1 1) e.2.2).put (K.chMarkFn e.1) (fr.fn - 1)) s
    gapBalance fr l { s with pwr := { s.pwr with gap := none, gapDone := [], gapMarks := [] } }

/-- A frame without billing (before frame G) is only published (R125, R193), with the status that the Tannery knows of each defined
circuit, which the pulse train carries too (R210). -/
def passFrame (fr : R3) (s : State) : State :=
  let s := fr.ccts.foldl (fun s r =>
    s.putDue fr.fn (K.cctStatus r.c) (r.flags ||| 8 * s.live (K.cctDirection r.c))) s
  let has := fun b => fr.ccts.any (fun r => bit r.flags b)
  let s := { s with pulse := { s.pulse with marks := s.pulse.marks ++ [(fr.fn, has 11, has 12)] } }
  dropFirst (stageFrame fr.fn fr.lost (fillGap fr s))

/-! ### Commands -/

/-- The core works only in RUN. -/
def coreRuns (s : State) : Bool := decide (s.mode = .run)

/-- The core is at work, and no page-store request of its own waits for RING-6 credit (R15). (DEDUCED, log 32) -/
def coreFree (s : State) : Bool := coreRuns s && decide (s.rollq = [])

/-- A resolved circuit-frame result is accrued; the last one of the frame completes it. -/
def accrueResult (fr : R3) (r : CRes) (s : State) : State :=
  let (fr, s) := accrueCct fr r s
  let fr := { fr with done := fr.done + 1 }
  if fr.ccts.length ≤ fr.done then finishFrame fr (setFirst fr s) else setFirst fr s

/-- The billing of a frame begins with steps 2 to 4 of R190, unless BOUNDARY_FRAME has taken them. -/
def beginFrame (f : Nat) (s : State) : State :=
  if s.bill.begun then s else startFrame f false { s with bill := { s.bill with next := f } }

/-- The next result of frame `fr`. -/
def accrueNext (fr : R3) (later : List R3) (s : State) : State :=
  match fr.ccts[fr.done]? with
  | none => finishFrame fr s
  | some r =>
    match resolved s fr r later with
    | none => if s.tan.ring3 = [] then s else holdFrame s
    | some r => accrueResult fr r s

/-- The next result of a frame from frame G on; earlier frames are published without accrual. -/
def accrueFrom (fr : R3) (later : List R3) (s : State) : State :=
  match s.bill.g with
  | none => passFrame fr s
  | some g => if fr.fn < g then passFrame fr s else accrueNext fr later (beginFrame fr.fn s)

/-- HALLMARK_ACCRUE (R115): the next circuit-frame result is accrued; the last one of a frame completes the frame.  `cyc` is the
cycles that the core took for it, and PEAK is their sum over the frame (R23).  Frames before frame G are published without accrual. -/
def execHallmarkAccrue (cyc : Nat) (s : State) : Host.Outcome State Fault Refusal :=
  .next (match coreFree s, workQueue s with
    | true, fr :: later =>
      let n := min (2 ^ 32 - 1) (s.bill.cyc + cyc)
      accrueFrom fr later ({ s with bill := { s.bill with cyc := n } }.putDue fr.fn (K.peak 2) n)
    | _, _ => s)

/-- A status word of a circuit with its DIRECTION bit (Table 4.8). -/
def withDirection (d w : Nat) : Nat := if d = 1 then setBit w 3 else clearBit w 3

/-- DIRECTION of circuit `c` changes in a complete frame that is not yet published, from frame `f` on. -/
def turnSnap (f c d : Nat) (p : Snap) : Snap :=
  if p.fn < f then p
  else (p.put (K.cctDirection c) d).put (K.cctStatus c) (withDirection d ((tlook p.vals (K.cctStatus c)).getD (oDefault (K.cctStatus c))))

/-- DIRECTION of circuit `c` changes with frame `f`, the last of the 1,024: in its live value, in its status, and in what is staged of
that frame already (R12, R118). -/
def turnDirection (f c d : Nat) (s : State) : State :=
  let s := (s.putDue f (K.cctDirection c) d).putDue f (K.cctStatus c) (withDirection d (s.live (K.cctStatus c)))
  { s with staging := s.staging.map (turnSnap f c d), sealed := s.sealed.map (turnSnap f c d) }

/-- DIRECTION_CHANGE (R118): DIRECTION follows 1,024 frames of the opposite sign; the event carries the first of them. -/
def execDirectionChange (c : Fin 256) (s : State) : Host.Outcome State Fault Refusal :=
  let x := getC s c.val
  .next (if 1024 ≤ x.dirCnt then
    let d := 1 - s.live (K.cctDirection c.val) % 2
    let s := setC c.val { x with dirCnt := 0 } s
    let s := (turnDirection x.dirFn c.val d s).bump (K.cctReversals c.val)
    s.eventAt x.dirFirst (openCode 118) [c.val, d, x.dirFirst, s.timeOf x.dirFirst]
  else s)

/-- BOUNDARY_FRAME (R190): steps 2 to 4 of the next frame are taken before its first entry. -/
def execBoundaryFrame (s : State) : Host.Outcome State Fault Refusal :=
  .next (match coreFree s, workQueue s, s.bill.g with
    | true, fr :: _, some g =>
      if g ≤ fr.fn then beginFrame fr.fn s else s
    | _, _, _ => s)

/-- No store of a circuit's pages waits or is in progress. -/
def rollDone (s : State) (c : Nat) : Bool :=
  let ps := [256 + 2 * c, 257 + 2 * c, 928 + c / 32] ++ mdPagesOf c
  ps.all (fun p => decide (p ∉ s.rollq) && s.jobs.all (fun j => decide (j.page ≠ p)))

/-- The circuits that a wait concerns. -/
def waitCcts (s : State) (w : Wait) : List Nat := if w.kind = 1 then [w.id] else schedCcts s s.bill.next w.id

/-- FORCED_ROLL_COMPLETE (R191): the roll of a wait is sealed; its event takes effect at the next frame, and TOTAL is checked. -/
def execForcedRollComplete (s : State) : Host.Outcome State Fault Refusal :=
  .next (let ready := s.bill.waits.filter (fun w => !w.ready && (waitCcts s w).all (rollDone s))
    let cs := (ready.map (waitCcts s)).flatten.eraseDups
    let s := cs.foldl (fun s c => checkTotals (s.bill.next - 1) c s) s
    { s with bill := { s.bill with waits := s.bill.waits.map (fun w => if w ∈ ready then { w with ready := true } else w) } })

/-- A gap record (R15, R353): COUNT 0 and the number of lost records in GEN. (DEDUCED, log 46) -/
def gapRecord (s : State) (seq lost : Nat) : Bytes :=
  profRecord seq (s.timeOf s.fn) s.fn lost (s.cfg s.fn K.profileKinds) (s.cfg s.fn K.profileMin) 0 []

/-- RING-7 takes a record. -/
def put7 (r : Nat × Bytes) (s : State) : State := { s with bill := { s.bill with ring7 := s.bill.ring7 ++ [r] } }

/-- The oldest record of RING-7 has been taken. -/
def drop7 (s : State) : State := { s with bill := { s.bill with ring7 := s.bill.ring7.drop 1 } }

/-- The overflow list takes its next form. -/
def setOver7 (l : List (Nat × Bytes)) (gap : Nat) (s : State) : State := { s with bill := { s.bill with over7 := l, profGap := gap } }

/-- The overflow list takes a record: its 64 entries full, the two oldest become a gap record. (DEDUCED, log 46) -/
def overPost (r : Nat × Bytes) (s : State) : State :=
  if s.bill.over7.length < 64 then setOver7 (s.bill.over7 ++ [r]) s.bill.profGap s
  else
    let lost := s.bill.profGap + (if s.bill.profGap = 0 then 2 else 1)
    let seq := (s.bill.over7.headD (0, [])).1
    setOver7 ((seq, gapRecord s seq lost) :: s.bill.over7.drop 2 ++ [r]) lost s

/-- A profile record is posted to RING-7, or to the overflow list, whose oldest records become a gap record (R15). (DEDUCED, log 46) -/
def profPost (r : Nat × Bytes) (s : State) : State :=
  if s.bill.over7 = [] ∧ s.bill.ring7.length < 8 then put7 r s else overPost r (s.bump (K.stalls 7))

/-- Records of the overflow list are posted in order as RING-7 has room. -/
def profPump (s : State) : State :=
  match s.bill.over7 with
  | r :: l => if s.bill.ring7.length < 8 then setOver7 l 0 (put7 r s) else s
  | [] => s

/-- PROFILE_INTERVAL_END (R353): the record of the interval that has ended is posted to RING-7. -/
def execProfileIntervalEnd (s : State) : Host.Outcome State Fault Refusal :=
  .next (match coreFree s, s.bill.profDue with
    | true, r :: l => profPost r { s with bill := { s.bill with profDue := l } }
    | _, _ => s)

/-! ### Stale state (R196, R197) -/

/-- A stale-state cause arises (R196): logged on entry and for each cause not yet recorded; stale state holds from the next
frame. (DEDUCED, log 52) -/
def raiseStale (b : Nat) (s : State) : State :=
  let c := s.get K.cause
  if bit c b then s
  else
    let s := (s.put K.cause (setBit c b)).put K.staleFn s.fn
    let s := match s.bill.staleAt, s.bill.staleTo with
      | some _, none => s
      | _, _ => { s with bill := { s.bill with staleAt := some (s.fn + 1), staleTo := none } }
    s.event 0x0206 [setBit c b]

/-- The wiring of this moment (Table 6.17): band, angles in 1/256 turn, present mask, ANGLE_REF. -/
def wiringBytes (s : State) : Bytes :=
  let ref := s.cfg s.fn K.pqAngleRef
  let lock := fun v => (tget {} s.tan.zc v).locked
  let on := (List.range 12).map (fun v => lock v && lock ref && decide ((tget {} s.tan.zc v).angle ≠ none))
  let ang := (List.range 12).map (fun v =>
    if on.getD v false then ((odiv (((tget {} s.tan.zc v).angle.getD 0 : Nat) : Int) 256).toNat) % 256 else 0)
  let mask := sumN ((List.range 12).map (fun v => if on.getD v false then 2 ^ v else 0))
  let band := if s.tan.bandSet || decide (s.cfg s.fn K.pqBand ≠ 0) then s.live K.pqBandInEffect else 0xFF
  le 1 band ++ ang.flatMap (le 1) ++ le 2 mask ++ le 1 ref

/-- A band byte of 0xFF on either side is not compared (R196). -/
def bandDiffers (ref now : Bytes) : Bool :=
  let a := at_ ref 0 1
  let b := at_ now 0 1
  decide (a ≠ 0xFF) && decide (b ≠ 0xFF) && decide (a ≠ b)

/-- The distance of two angles in 1/65,536 turn, the shorter way. -/
def turnDist (a b : Nat) : Nat := min ((a + 65536 - b) % 65536) ((b + 65536 - a) % 65536)

/-- A LOCKED channel's angle (R140) is more than 11/256 turn from WIRING_REF (R196); channels absent on either side are not
compared. -/
def anglesDiffer (s : State) (ref now : Bytes) : Bool :=
  (List.range 12).any (fun v =>
    bit (at_ ref 13 2) v && bit (at_ now 13 2) v &&
      decide (11 * 256 < turnDist (256 * at_ ref (1 + v) 1) ((tget {} s.tan.zc v).angle.getD 0)))

/-- WIRING_REF holds a reference (R196, R198): a factory-fresh unit has 0xFF in every byte. -/
def hasWiringRef (ref : Bytes) : Bool := ref.any (fun b => decide (b ≠ 0xFF))

/-- The check may run: the band is decided and every channel in WIRING_REF is LOCKED, or 10 s have passed since the first aligned
frame (R196). -/
def wiringDue (s : State) : Bool :=
  match s.acq.first with
  | some f0 =>
    let ref := le 16 (s.get K.wiringRef)
    decide (f0 + 2 + 10240 ≤ s.fn) ||
    ((s.tan.bandSet || decide (s.cfg s.fn K.pqBand ≠ 0)) &&
     (List.range 12).all (fun v => !bit (if hasWiringRef ref then at_ ref 13 2 else 0) v || (tget {} s.tan.zc v).locked))
  | none => false

/-- The check has been made, and WIRING_NOW shows what it found. -/
def wiringMade (now : Bytes) (s : State) : State :=
  { s with bill := { s.bill with wired := true } }.putV K.wiringNow (ofLe now)

/-- WIRING_REF takes the wiring of this moment. -/
def wiringTaken (now : Bytes) (s : State) : State :=
  { s with bill := { s.bill with wireRef := false } }.put K.wiringRef (ofLe now)

/-- WIRING_CHECK (R196): once per start. -/
def execWiringCheck (s : State) : Host.Outcome State Fault Refusal :=
  .next (if coreRuns s && !s.bill.wired && wiringDue s then
    let now := wiringBytes s
    let ref := le 16 (s.get K.wiringRef)
    if s.bill.wireRef then wiringTaken now (wiringMade now s)
    else if hasWiringRef ref && (bandDiffers ref now || anglesDiffer s ref now) then raiseStale 1 (wiringMade now s)
    else wiringMade now s
  else s)

end Sys2Proof.Machine
end

