-- ==== Sys2Proof/Machine/PlcBase.lean ====
section
/-! DEFINITION. The tables of the power-line port and what the end of a frame does to them (R300, R315, R317, Table 11.10): neighbours with
their link costs, routes with their ages, the conditions of the repeater offer. -/

namespace Sys2Proof.Machine

/-- The power-line port is set. -/
def setPlc (f : Plc → Plc) (s : State) : State := { s with plc := f s.plc }

/-- The modem and its rings work: RUN, the port enabled. -/
def plcOn (s : State) : Bool := decide (s.mode = .run) && !portOff s .plc

/-- The stack works: RUN, the operational core up, the port enabled. -/
def plcUp (s : State) : Bool := decide (s.mode = .run) && s.ready && !portOff s .plc

/-- STATE: 0 disabled, 1 scanning, 2 bootstrapping, 3 joined. -/
def plcState (s : State) : Nat := s.live K.plcState

/-- The stack works and Ozmar is in a PAN. -/
def plcJoined (s : State) : Bool := plcUp s && decide (plcState s = 3)

/-! ### Neighbours -/

/-- The neighbour table entries in use. -/
def nbrs (s : State) : List (Nat × Nbr) := s.plc.nbr.filterMap (fun e => e.2.map (fun n => (e.1, n)))

/-- The entry of a short address. -/
def nbrOf (s : State) (a : Nat) : Option (Nat × Nbr) := (nbrs s).find? (fun e => decide (e.2.addr = a))

/-- The link cost to a neighbour (R315). -/
def linkCost (s : State) (n : Nbr) : Nat :=
  let lqi := match n.fwd with | some f => min f n.rev | none => n.rev
  let kp := match n.phase with | some k => if k ∈ [1, 2, 4, 5] then s.cfg s.fn K.lfKp else 0 | none => 0
  min 255 (s.cfg s.fn K.lfLcHop + s.cfg s.fn K.lfKq * (s.cfg s.fn K.lfLqiRef - lqi) / 16 + s.cfg s.fn K.lfKr * sumN n.rtx / 32 + kp)

/-- The attenuation of a transmission to a neighbour, dB: TX_ATTEN, moved within 0 to 21 by the gain that the neighbour asked for, in steps
of 3 dB (R303). (DEDUCED, log 96) -/
def attenTo (s : State) (a : Nat) : Nat :=
  let g := match nbrOf s a with | some e => e.2.gain | none => 0
  (min 21 (max 0 ((s.cfg s.fn K.plcTxAtten : Int) - g))).toNat / 3 * 3

/-- A neighbour is blacklisted: adpBlacklistTableEntryTTL, 10 min, after a route reply to it failed (R300). (PRESUMED, log 94) -/
def blackNow (s : State) (a : Nat) : Bool :=
  match nbrOf s a with
  | some e => (match e.2.black with | some f => decide (s.fn < f + 614400) | none => false)
  | none => false

/-- The objects of neighbour entry `j` follow it (Table 11.10). -/
def showNbr (j : Nat) (s : State) : State :=
  match tget none s.plc.nbr j with
  | some n =>
    let s := (((s.putLive (K.nbNAddr j) n.addr).putLive (K.nbNLqiFwd j) (n.fwd.getD 0)).putLive (K.nbNLqiRev j) n.rev).putLive (K.nbNRtx j)
      (sumN n.rtx)
    (((s.putLive (K.nbNPhase j) (n.phase.getD 0xFF)).putLive (K.nbNCost j) (linkCost s n)).putLive (K.nbNState j) n.state).putLive
      (K.nbNLastFn j) n.lastFn
  | none =>
    let s := (((s.putLive (K.nbNAddr j) 0xFFFF).putLive (K.nbNLqiFwd j) 0).putLive (K.nbNLqiRev j) 0).putLive (K.nbNRtx j) 0
    (((s.putLive (K.nbNPhase j) 0xFF).putLive (K.nbNCost j) 0).putLive (K.nbNState j) 0).putLive (K.nbNLastFn j) 0

/-- The link costs of all neighbours as the frame ends: a commit of a term of R315 shows in the next snapshot. -/
def costTick (s : State) : State :=
  if plcOn s then (nbrs s).foldl (fun s e => s.putLive (K.nbNCost e.1) (linkCost s e.2)) s else s

/-- A neighbour entry is set. -/
def setNbr (j : Nat) (n : Option Nbr) (s : State) : State := showNbr j (setPlc (fun p => { p with nbr := tset none p.nbr j n }) s)

/-- The entry of a sender, or a new one in a free place, else in place of the one heard longest ago. (DEDUCED, log 77) -/
def nbrFor (s : State) (a : Nat) : Nat × Nbr :=
  match nbrOf s a with
  | some e => e
  | none =>
    let free := (List.range 64).find? (fun j => decide (tget none s.plc.nbr j = none))
    let old := (nbrs s).foldl (fun (b : Nat × Nat) e => if e.2.lastFn < b.2 then (e.1, e.2.lastFn) else b) (0, 2 ^ 60)
    (free.getD old.1, { addr := a, toneFn := s.fn })

/-! ### Routes -/

/-- The route table entries in use. -/
def routes (s : State) : List (Nat × Route) := s.plc.route.filterMap (fun e => e.2.map (fun r => (e.1, r)))

/-- The objects of route entry `k` follow it. -/
def showRoute (k : Nat) (s : State) : State :=
  match tget none s.plc.route k with
  | some r =>
    ((((s.putLive (K.rtRDest k) r.dest).putLive (K.rtRNext k) r.next).putLive (K.rtRCost k) r.cost).putLive (K.rtRHops k) r.hops).putLive
      (K.rtRAge k) (min 0xFFFF ((s.fn - r.fn) / 61440))
  | none =>
    ((((s.putLive (K.rtRDest k) 0xFFFF).putLive (K.rtRNext k) 0xFFFF).putLive (K.rtRCost k) 0).putLive (K.rtRHops k) 0).putLive (K.rtRAge k) 0

/-- A route entry is set. -/
def setRoute (k : Nat) (r : Option Route) (s : State) : State := showRoute k (setPlc (fun p => { p with route := tset none p.route k r }) s)

/-- Frames for which a route entry lives: adpRoutingTableEntryTTL, 90 min (Table 11.2). -/
def routeLife : Nat := 5529600

/-- Neighbours with a link cost of at most OFFER_COST. -/
def cheapNbrs (s : State) : Nat := ((nbrs s).filter (fun e => decide (linkCost s e.2 ≤ s.cfg s.fn K.lfOfferCost))).length

/-- The conditions of the offer as the frame ends: the occupancy of RING-14 is summed, and judged once a second. (DEDUCED, log 77) -/
def offerTick (s : State) : State :=
  if plcUp s then
    let o := s.plc.offer
    let occ := o.occ + s.plc.ring14.length
    if s.fn % 1024 = 1023 then
      let enough := decide (3 ≤ cheapNbrs s)
      let calm := decide (occ < 4096)
      let next := fun (b : Bool) (n : Nat) => if b then min 61 (n + 1) else 0
      setPlc (fun p => { p with offer := { o with occ := 0, good := next (enough && calm) o.good, few := next (!enough) o.few,
                                                  full := next (!calm) o.full } }) s
    else setPlc (fun p => { p with offer := { o with occ := occ } }) s
  else s

/-- The ages of routes as the frame ends; entries past their life are removed. -/
def routeTick (s : State) : State :=
  (routes s).foldl (fun s e => if e.2.fn + routeLife ≤ s.fn then setRoute e.1 none s else s.putLive (K.rtRAge e.1)
    (min 0xFFFF ((s.fn - e.2.fn) / 61440))) s

end Sys2Proof.Machine
end

