-- ==== Sys2Proof/Machine/Spectrum.lean ====
section
/-! DEFINITION. The spectrum stage on core 1 (R145 to R150): the transform of a closed window, its correction, distortion, and the
harmonic power and fundamental energy of circuits. -/

namespace Sys2Proof.Machine

/-- Real or imaginary part of X_k over the points of a window (R145), in units of 2^-79 of full scale. -/
def dftPart (tw : Nat → Int) (k : Nat) (pts : List Int) : Int :=
  rshift ((pts.foldl (fun (a : Nat × Int) x => (a.1 + 1, a.2 + x * tw (16 * (k * a.1 % 4096)))) (0, 0)).2) 64

/-- X_k as its real and imaginary parts. -/
def dft (pts : List Int) (k : Nat) : Int × Int := (dftPart cosTurn k pts, -(dftPart sinTurn k pts))

/-- |X|² of a bin. -/
def power2 (x : Int × Int) : Nat := (x.1 * x.1 + x.2 * x.2).toNat

/-- Points of a window, oldest first. -/
def winPts (w : HWin) : List Int := w.pts.reverse

/-- Bin of order 1 (R145). -/
def binOf (hz : Nat) : Nat := if hz = 60 then 12 else 10

/-- ω τ of a window in units of 2^-96 (R146): the mean f_t over its points, AAF_TAU in ns. -/
def omegaTau (w : HWin) (tau : Nat) : Int := odiv (2 * piFx * w.fsum * tau) (4096 * 2 ^ 20 * 1000000000)

/-- The correction factor of order `h`, squared, as numerator and denominator in units of 2^-192 (R146). -/
def corr2 (wt : Int) (h : Nat) : Nat × Nat :=
  ((fx * fx + (h : Int) * wt * ((h : Int) * wt)).toNat, (fx * fx + wt * wt).toNat)

/-- The RMS value √2 |X|/4096 of a power sum, corrected, in Q1.47 (R145, R146). -/
def binRms (p2 : Nat) (c : Nat × Nat) : Nat := osqrt (2 * p2 * c.1) (2 ^ 88 * c.2)

/-- C_h in Q1.47, signed for h = 0. -/
def orderMag (pts : List Int) (b h : Nat) (wt : Int) : Int :=
  if h = 0 then
    let m := sumI pts
    let c := corr2 wt 0
    let r : Int := (osqrt ((m * m).toNat * c.1) (c.2 * 2 ^ 24) : Nat)
    if m < 0 then -r else r
  else (binRms (power2 (dft pts (b * h))) (corr2 wt h) : Nat)

/-- Y_h in Q1.47 (R145); order 0 reads 0. -/
def orderSub (pts : List Int) (b h : Nat) (wt : Int) : Nat :=
  if h = 0 then 0
  else binRms (power2 (dft pts (b * h - 1)) + power2 (dft pts (b * h)) + power2 (dft pts (b * h + 1))) (corr2 wt h)

/-- arg X_k in units of 2^-96 rad. -/
def orderArg (pts : List Int) (k : Nat) : Int := let x := dft pts k; atan2Fx x.2 x.1

/-- θ_h in 1/65,536 turn (R145, R146), from the reference's order-1 argument. -/
def orderPhase (pts : List Int) (b h : Nat) (refArg wt : Int) : Nat :=
  let a := orderArg pts (b * h) - (h : Int) * refArg + atan2Fx ((h : Int) * wt) fx - (h : Int) * atan2Fx wt fx
  (odiv (a * 65536) (2 * piFx) % 65536).toNat

/-- A distortion in 0.01 %: the orders 2 … 50 against order 1 (R147). -/
def distortion (vals : List Nat) : Nat :=
  let a := vals.getD 1 0
  min 65535 (osqrt (sumN ((vals.drop 2).map (fun c => c * c)) * 100000000) (a * a))

/-- The order-1 argument of the reference of an input over the instants of the input's window (R143, R145). (DEDUCED, log 39) -/
def refArgOf (b : Nat) (w : HWin) : Int := orderArg w.ref.reverse b

/-- A window's results: C_h, θ_h, Y_h, THD, THDS and STATUS. -/
structure WinRes where
  mags : List Int
  phs  : List Nat
  subs : List Nat
  thd  : Nat
  thds : Nat
  st   : Nat
  deriving DecidableEq, Repr

/-- The results of a window (R145 to R148). (DEDUCED, log 39) -/
def winRes (w : HWin) (b tau : Nat) (refArg : Int) : WinRes :=
  let pts := winPts w
  let wt := omegaTau w tau
  let mags := (List.range 51).map (fun h => orderMag pts b h wt)
  let phs := (List.range 51).map (fun h => orderPhase pts b h refArg wt)
  let subs := (List.range 51).map (fun h => orderSub pts b h wt)
  let noFund := decide (ati mags 1 * 1000 < one47)
  { mags := mags, phs := phs, subs := subs,
    thd := if noFund then 0 else distortion (mags.map Int.toNat),
    thds := if noFund then 0 else distortion subs,
    st := 4096 * b2n w.est + 2048 * b2n w.clip + 1024 * b2n w.unsync + 512 * b2n noFund }

/-- The objects of an input's window result (Table 5.11). -/
def spectrumVals (k : Nat) (w : HWin) (r : WinRes) : List (Nat × Nat) :=
  let key := fun (cur vol : Nat) => if k < 256 then cur + 256 * k else vol + 256 * (k - 256)
  ((List.range 51).map (fun h => (key (K.spMag 0 0) (K.spvMag 0 0) + h, ofInt 48 (ati r.mags h)))) ++
  ((List.range 51).map (fun h => (key (K.spPhase 0 0) (K.spvPhase 0 0) + h, r.phs.getD h 0))) ++
  ((List.range 51).map (fun h => (key (K.spSubgroup 0 0) (K.spvSubgroup 0 0) + h, r.subs.getD h 0))) ++
  [(key (K.spThd 0) (K.spvThd 0), r.thd), (key (K.spThds 0) (K.spvThds 0), r.thds),
   (key (K.spWinLen 0) (K.spvWinLen 0), (odiv (w.len : Int) (5 * 2 ^ 22)).toNat), (key (K.spStatus 0) (K.spvStatus 0), r.st)]

/-- P_h,k of a phase in units of 2^-190 of mean power, from the last windows of its inputs (R149). -/
def phasePower (s : State) (h : Nat) (p : Phase) : Int :=
  let i := tget {} s.tan.harm p.ch
  let v := tget {} s.tan.harm (256 + followV s p.v)
  let th := (v.phs.getD h 0 + 65536 - i.phs.getD h 0) % 65536
  let x := toInt 48 (v.mags.getD h 0) * toInt 48 (i.mags.getD h 0) * cosTurn th
  if p.neg then -x else x

/-- P_h of a circuit. -/
def cctPower (s : State) (ps : List Phase) (h : Nat) : Int := sumI (ps.map (phasePower s h))

/-- FUND_ENERGY (R150): the fundamental energy of phase A's window enters FUND_AI or FUND_AE, in the unit that the registers have been
rescaled to (R122). -/
def fundEnergy (f c : Nat) (p1 : Int) (len : Nat) (s : State) : State :=
  let unit := fun (g : Nat) => s.cfg g (K.cctEnergyUnit c)
  let e := rescaleI (odiv (p1 * len * (s.cfg f (K.cctEnergyK c) : Int)) (5 * 2 ^ 212)) (unit f) (unit (max f (s.bill.next - 1)))
  let key := if 0 ≤ e then K.cctFundAi c else K.cctFundAe c
  putTotal (f + 2) key (regTotal s key + (mag e).toNat) s

/-- The harmonic powers of a circuit are published with its status two frames after the frame values (R12), LATE when that frame is
staged already (R15); of one that has no harmonic window on every phase by then nothing is (R20, R38). -/
def publishPower (f c : Nat) (mw : List Int) (s : State) : State :=
  let g := max (f + 2) (nextStaged s)
  let ins := harmIns s (phasesOf s g c)
  if s.cfg g (K.cctKind c) = 0 ∨ ins.all (harmOn s g) = false then s
  else
    let st := cctHarmStatus s f (phasesOf s f c)
    let s := (List.range 51).foldl (fun s h => s.putDueI g (K.cctPH c h) (ati mw h)) s
    let s := (s.putDueI g (K.cctPHarm c) (sumI (mw.drop 2))).putDue g (K.cctHStatus c) (if f + 2 < g then setBit st 13 else st)
    { s with tan := { s.tan with powDue := s.tan.powDue ++ [(g, c)] } }

/-- HARMONIC_POWER (R149): the harmonic power of a circuit as phase A's window closes, when every phase has a valid window (R160). -/
def cctHarmonics (f c len : Nat) (s : State) : State :=
  let ps := phasesOf s f c
  if harmValid s f ps then
    let k : Int := (s.cfg f (K.cctEnergyK c) : Int) * 589824 * 10 ^ s.cfg f (K.cctEnergyUnit c)
    let mw := (List.range 51).map (fun h => rdiv (cctPower s ps h * k) (10 * 2 ^ 214))
    let s := publishPower f c mw (setCwin c { tget {} s.tan.cwin c with hv := true } s)
    fundEnergy f c (cctPower s ps 1) len s
  else s

/-- The circuits whose phase A's window has closed, as far as core 1 has finished the windows of their phases that closed with it
(R149). (DEDUCED, log 39) -/
def formPowers (s : State) : State :=
  s.tan.cwin.foldl (fun s e => match e.2.hdue with
    | some (f, len) =>
      if (harmIns s (phasesOf s f e.1)).all (fun k => (tget {} s.tan.harm k).ready.all (fun w => decide (f < w.fn))) then
        cctHarmonics f e.1 len (setCwin e.1 { e.2 with hdue := none } s)
      else s
    | none => s) s

/-- The window of input `k` closed in frame `f`: the power of the circuits whose phase A it is will be formed. -/
def noteClosed (f k len : Nat) (s : State) : State :=
  (definedCcts s f).foldl (fun s c =>
    if s.cfg f (K.cctChA c) = k then setCwin c { tget {} s.tan.cwin c with hdue := some (f, len) } s else s) s

/-- The number of an input: n for CH-n, 256 + v for V-v. -/
def inputNum : Input → Nat
  | .cur n => n.val
  | .volt v => 256 + v.val

/-- Core 1 finishes the oldest closed window of an input. -/
def closeWindow (k : Nat) (w : HWin) (ws : List HWin) (s : State) : State :=
  let b := binOf (nominalHz s)
  let r := winRes w b (s.cfg w.fn K.pqAafTau) (refArgOf b w)
  let h := { (tget {} s.tan.harm k) with
    ready := ws, mags := r.mags.map (ofInt 48), phs := r.phs, wlen := w.len, wfn := w.fn, flags := r.st }
  let h := if w.fn < h.from_ then { h with old := true } else { h with valid := true }
  let s := { s with tan := { s.tan with
    harm := tset {} s.tan.harm k h, ring4 := s.tan.ring4 ++ [{ inp := k, fn := w.fn, vals := spectrumVals k w r : SpecRes }] } }
  formPowers (noteClosed w.fn k w.len s)

/-- A window gives values (R38, R160): harmonics are computed, its reference was LOCKED at its end, and has not lost the lock since. -/
def winCounts (s : State) (k : Nat) (w : HWin) : Bool :=
  harmOn s w.fn k && w.sync && decide ((tget {} s.tan.harm k).warm < w.fn)

/-- The entries of RING-4 whose credit has not returned: results not yet published (R15). -/
def ring4Used (s : State) : Nat := s.tan.ring4.length + sumN (s.tan.ring4Held.map (fun e => e.2))

/-- HARMONIC_WINDOW_CLOSE (R145): core 1 finishes the oldest closed window of an input, when RING-4 has room; a window of an input
whose harmonics are off or WARMING is dropped (R160). (DEDUCED, log 39) -/
def execHarmonicWindowClose (inp : Input) (s : State) : Host.Outcome State Fault Refusal :=
  let k := inputNum inp
  let h := tget {} s.tan.harm k
  .next (match h.ready with
    | w :: ws =>
      if s.mode ≠ .run then s
      else if winCounts s k w then
        (if ring4Used s < 2 * harmInputs s w.fn then closeWindow k w ws s else s.bump (K.stalls 4))
      else formPowers { s with tan := { s.tan with harm := tset {} s.tan.harm k { h with ready := ws } } }
    | [] => s)

end Sys2Proof.Machine
end

