-- ==== Sys2Proof/Machine/Frame.lean ====
section
/-! DEFINITION. The frame tick (R11): the advance of FN and time, stepping of coefficients, publication, subscriptions, the pulse
train; sealing of the staging buffer and the transitions of calibration state (R17, R23, R29, R92 to R98, R210, R258, R262). -/

namespace Sys2Proof.Machine

/-! ### What the ending frame shows -/

/-- The words of the V objects of one session slot (Table 10.13). -/
def showSlot (k : Nat) (s : State) : State :=
  match getSess s k with
  | some x =>
    let peer := if x.port = .spi then 0 else x.addr % 2 ^ 128 + 2 ^ 128 * (x.sport % 65536)
    ((((s.putLive (K.slotPort k) (portNo x.port)).putLive (K.slotRole k) x.role).putLive (K.slotPeer k) peer).putLive
      (K.slotOpenedFn k) x.opened).putLive (K.slotLastFn k) x.last
  | none =>
    ((((s.putLive (K.slotPort k) 0xFF).putLive (K.slotRole k) 0).putLive (K.slotPeer k) 0).putLive
      (K.slotOpenedFn k) 0).putLive (K.slotLastFn k) 0

/-- The V objects of tags, transactions, sessions and ports as they stand at the end of the frame (Tables 9.13, 10.13).
(DEDUCED, log 27) -/
def showServer (s : State) : State :=
  let used := usedTags s
  let ofPort := fun (p : Port) => (used.filter (fun e => decide (e.2.port = p))).length
  let s := s.putLive K.tagsFree (48 - used.length)
  let s := [Port.spi, .t1s, .plc, .internal].foldl (fun s p => s.putLive (K.tagsUsed (portNo p)) (ofPort p)) s
  let s := s.putLive K.floatUsed ((used.filter (fun e => decide (40 ≤ e.1))).length)
  let s := (s.putLive K.txnTxnOpen s.srv.txns.length).putLive K.txnPins s.pins.length
  let s := (s.putLive K.txnWaiting (waiting s).length).putLive K.subscriptions s.srv.subs.length
  let open_ := (s.srv.sess.filter (fun e => match e.2 with | some x => decide (x.port ≠ .spi) | none => false)).length
  let s := (s.putLive K.sesSessionsOpen open_).putLive K.sesSpiRole (spiRole s)
  (List.range 16).foldl (fun s k => showSlot k s) (s.putLive K.spiCauses (causesWord s))

/-- LEASE_IDLE: seconds since the last update method (Table 13.10). -/
def showLease (s : State) : State :=
  match s.img.lease with
  | some l => s.putLive K.leaseIdle (min 0xFFFF ((s.fn - l.lastFn) / 1024))
  | none => s.putLive K.leaseIdle 0

/-! ### Time (R6, R262) -/

/-- TIME48 and SLEW_LEFT after one tick: while a slew is in progress, TIME48 advances by 2 or by 0 (R262). -/
def timeUnit (t : Nat) (slew : Int) : Nat × Int :=
  if t = noTime then (noTime, 0)
  else if 0 < slew then ((t + 2) % 2 ^ 48, slew - 1)
  else if slew < 0 then (t, slew + 1)
  else ((t + 1) % 2 ^ 48, 0)

/-- TIME48 and SLEW_LEFT that the tick of the current frame gives, with an accepted setting whose K it is; a step waits for
CLOCK_STEP_APPLY. (DEDUCED, log 80) -/
def nextTime (s : State) : Nat × Int :=
  let other := timeUnit s.time (s.liveI K.timeSlewLeft)
  match s.dev.tset with
  | some x =>
    if x.k ≤ s.fn ∧ x.kind = 1 then
      let t1 : Nat := (s.time + 1) % 2 ^ 48
      let c := (x.val : Int) - t1
      if 0 < c then ((t1 + 1) % 2 ^ 48, c - 1) else if c < 0 then (s.time, c + 1) else (t1, 0)
    else if x.k ≤ s.fn ∧ x.kind = 0 then (other.1, 0)
    else other
  | none => other

/-- The wall clock of a tick enters the history of ticks; local time follows it (R162, R163). -/
def noteTime (s : State) : State :=
  let t := s.time
  let l := if t = noTime then noTime else ofInt 48 (localOf s s.fn t)
  let dst := t ≠ noTime ∧ dstActive s s.fn ((t : Int) + utcFrames s s.fn) = true
  let s := { s with times := ((s.fn, t, l) :: s.times.filter (fun e => decide (e.1 ≠ s.fn))).take 8192 }
  (s.put K.calLocalTime l).putLive K.calDstActive (b2n (decide dst))

/-- Time advances by the tick of the current frame. (DEDUCED, log 80) -/
def tickTime (s : State) : State :=
  let n := nextTime s
  let s := match s.dev.tset with
    | some x => if x.k ≤ s.fn ∧ x.kind ≠ 2 then { s with dev := { s.dev with tset := none } } else s
    | none => s
  let s := (s.put K.timeTime48 n.1).putLive K.timeSlewLeft (ofInt 32 n.2)
  let s := noteTime s
  if s.fn % 1024 = 0 then { s with dev := { s.dev with rtcTime := s.time, rtcFn := s.fn } } else s

/-! ### CAL_EN (R94) -/

/-- CAL_EN is sampled at the tick, and the run of equal samples is counted. -/
def calSample (level : Bool) (s : State) : State :=
  let run := if s.live K.calEnLevel = b2n level then s.dev.calRun + 1 else 1
  { s.putLive K.calEnLevel (b2n level) with dev := { s.dev with calRun := run } }

/-- The value that an object has before the first commit to come that changes it is replaced. -/
def setBefore (f k v : Nat) : List Commit → List Commit
  | [] => []
  | c :: l => if f < c.b ∧ c.chg.any (fun g => decide (g.key = k)) then
      { c with chg := c.chg.map (fun g => if g.key = k then { g with old := v } else g) } :: l
    else c :: setBefore f k v l

/-- BG_HOLD is released with calibration state (R98); an acknowledged COMMIT that writes it still takes effect at its B (R35). -/
def releaseHold (s : State) : State :=
  if s.commits.any (fun c => decide (s.fn < c.b) && c.chg.any (fun g => decide (g.key = K.bgHold))) then
    { s with commits := setBefore s.fn K.bgHold 0 s.commits }
  else s.putV K.bgHold 0

/-- CAL_STATE_CHANGE (R94, R97, R98): after 16 equal samples of CAL_EN, calibration state is entered or left. -/
def execCalStateChange (s : State) : Host.Outcome State Fault Refusal :=
  .next (if 16 ≤ s.dev.calRun ∧ s.live K.calEnLevel ≠ s.live K.calState then
    let on := decide (s.live K.calEnLevel = 1)
    let s := setCause 8 (s.putLive K.calState (b2n on))
    if on then
      let s := (s.bump K.calEntries).event (openCode 94) [1]
      let s := if s.get K.repaired = 0 then
          ((s.put K.repaired 1).put K.repairedTime s.time).put K.repairedFn s.fn
        else s
      raiseStale 2 s
    else (releaseHold s).event (openCode 94) [0]
  else s)

/-! ### Coefficients (R92, R93) -/

/-- A gain after one frame of its way: a ramp of at most 1 ppm while the rest is below 0.1 %, or the whole step. -/
def gainStep (e t : Nat) : Nat :=
  let d := if e ≤ t then t - e else e - t
  if d * 1000 < e then
    let r := max 1 (e / 2 ^ 20)
    if d ≤ r then t else if e < t then e + r else e - r
  else t

/-- A delay after one frame of its way: one tap. -/
def delayStep (e t : Int) : Int := if e < t then e + 1 else if t < e then e - 1 else e

/-- Committed coefficient, effective one, whether it is a delay: of CH-n, or V-v as 256 + v. -/
def coefs (k : Nat) : List (Nat × Nat × Bool) :=
  if k < 256 then
    [(K.chGainCalLow k, K.chGainEffLow k, false), (K.chGainCalHigh k, K.chGainEffHigh k, false),
     (K.chDelayLow k, K.chDelayEffLow k, true), (K.chDelayHigh k, K.chDelayEffHigh k, true)]
  else [(K.vGain (k - 256), K.vGainEff (k - 256), false), (K.vDelay (k - 256), K.vDelayEff (k - 256), true)]

/-- One coefficient moves in the current frame. -/
def coefStep (c : Nat × Nat × Bool) (s : State) : State :=
  if c.2.2 then s.putLive c.2.1 (ofInt (oBits c.2.1) (delayStep (s.liveI c.2.1) (s.cfgI s.fn c.1)))
  else s.putLive c.2.1 (gainStep (s.live c.2.1) (s.cfg s.fn c.1))

/-- The coefficients of an input that are not at their targets. -/
def unsettled (s : State) (k : Nat) : Nat :=
  ((coefs k).filter (fun c => decide (s.live c.2.1 ≠ s.cfg s.fn c.1))).length

/-- The input whose coefficient an object is. -/
def coefInput (k : Nat) : Option Nat :=
  let i := k / 256
  if 0x2400 ≤ i ∧ i < 0x2500 then some (i - 0x2400)
  else if 0x2200 ≤ i ∧ i < 0x220C then some (256 + (i - 0x2200)) else none

/-- The inputs with a coefficient that changes at frame `f`. -/
def coefsAt (s : State) (f : Nat) : List Nat :=
  ((s.commits.filter (fun c => decide (c.b = f))).flatMap (fun c => c.chg.filterMap (fun g => coefInput g.key))).eraseDups

/-- The delays in effect, by the keys of the aligner. -/
def delayTable (s : State) : Tab Int :=
  let cur := (List.range 256).foldl (fun t n =>
    tset 0 (tset 0 t (2 * n) (s.liveI (K.chDelayEffLow n))) (2 * n + 1) (s.liveI (K.chDelayEffHigh n))) []
  (List.range 12).foldl (fun t v => tset 0 t (512 + v) (s.liveI (K.vDelayEff v))) cur

/-- Each frame, delays and ramped gains move one step toward their committed targets (R92); STEPPING counts those not there. -/
def coefFrame (s : State) : State :=
  let ks := (s.aln.moving ++ coefsAt s s.fn).eraseDups
  if ks = [] then s
  else
    let s := ks.foldl (fun s k => (coefs k).foldl (fun s c => coefStep c s) s) s
    let left := ks.filter (fun k => decide (0 < unsettled s k))
    let s := s.putLive K.stepping (sumN (left.map (unsettled s)))
    { s with aln := { s.aln with moving := left, dly := ((s.fn, delayTable s) :: s.aln.dly).take 64 } }

/-! ### Publication (R17, R29) -/

/-- The flag LATE in the status words of a frame's values, and of the window values that it is the first to publish. -/
def markLate (p : Snap) : Snap :=
  let keys := (List.range 256).map K.cctStatus ++ (List.range 12).map K.vStatus ++ p.wins
  { p with late := true, vals := keys.foldl (fun t k =>
      if bit (snapVal p k) 15 then t else tins t k (setBit (snapVal p k) 13)) p.vals }

/-- Window values published late stay so marked in the later snapshots that hold them, up to their next window: in what is staged
already, and in the objects that are left to. -/
def lateWindows : List Nat → List Snap → List Snap × List Nat
  | ks, [] => ([], ks)
  | ks, p :: l =>
    let ks := ks.filter (fun k => decide (k ∉ p.wins))
    let p := ks.foldl (fun p k => if bit (snapVal p k) 15 then p else p.put k (setBit (snapVal p k) 13)) p
    let r := lateWindows ks l
    (p :: r.1, r.2)

/-- The window values of a LATE snapshot are marked in what follows it. -/
def markWindows (ks : List Nat) (s : State) : State :=
  let r := lateWindows ks s.sealed
  let t := lateWindows r.2 s.staging
  t.2.foldl (fun s k => if bit (s.get k) 15 then s else s.putBoth k (setBit (s.get k) 13)) { s with sealed := r.1, staging := t.1 }

/-- A LATE frame of a health check counts for it (R383). -/
def lateHealth (f : Nat) (s : State) : State :=
  match s.img.hand with
  | some h => if h.b ≤ f then { s with img := { s.img with hand := some { h with lates := h.lates + 1 } } } else s
  | none => s

/-- A sealed frame becomes CURRENT, the old CURRENT becomes PREVIOUS; after its own tick it is LATE. -/
def publishOne (p : Snap) (s : State) : State :=
  let late := decide (p.fn + 2 < s.fn)
  let s := if late then lateHealth p.fn (markWindows p.wins (s.bump K.lateFrames)) else s
  let s := { s with tan := { s.tan with ring4Held := s.tan.ring4Held.filter (fun e => decide (p.fn < e.1)) } }
  { s with current := some (if late then markLate p else p), previous := s.current }

/-- The frames whose publication is due at the current tick, in order; a lost frame waits for its successor (R19). -/
def dueFrames (s : State) : List Snap :=
  ((s.sealed.filter (fun p => decide (p.fn + 2 ≤ s.fn))).reverse.dropWhile (fun p => p.lost)).reverse

/-! ### Subscriptions (R258) -/

/-- The raw integer of an object in a snapshot, sign-extended for signed types. -/
def rawInt (p : Snap) (k : Nat) : Int :=
  match rowOf k with
  | some r => (match r.ty with | .i b => toInt b (snapVal p k) | _ => (snapVal p k : Int))
  | none => 0

/-- What a subscription sees in a snapshot. -/
def subSeen (p : Snap) (x : Subn) : List (Nat × Nat) := x.objs.map (fun k => (snapVal p k, statusFlags p k))

/-- A trigger fires in a snapshot, and its arming after it. (DEDUCED, log 33) -/
def subFires (p : Snap) (x : Subn) : Bool × Option Bool :=
  let k := x.objs.headD 0
  let v := rawInt p k
  match x.trig with
  | 0 => (decide (subSeen p x ≠ x.seen), none)
  | 1 => (decide (x.param ≠ 0 ∧ p.fn % x.param = 0), none)
  | t =>
    if noNumber p k then (false, x.armed)
    else
      let ovr := if t = 2 then decide (x.level ≤ v) else decide (v ≤ x.level)
      let back := if t = 2 then decide (v < x.level - x.hyst) else decide (x.level + x.hyst < v)
      match x.armed with
      | none => (false, some back)
      | some true => (ovr, some (!ovr))
      | some false => (false, some back)

/-- The notification of a subscription (R273). (DEDUCED, log 33) -/
def subFrame (p : Snap) (x : Subn) : OutFrame :=
  let body := x.objs.flatMap (fun k => match rowOf k with
    | some r => entryBytes (k / 256) (k % 256) 0 (valBytes r.ty (snapVal p k))
    | none => [])
  { port := x.port, sess := x.sess, kind := 2, tag := 0xFF, fn := p.fn,
    data := opBytes ⟨0x50, 0, 0, 0, le 1 x.id ++ le 2 x.seq ++ body⟩ }

/-- A notification enters RING-13, or is dropped and counted (R15). (DEDUCED, log 33) -/
def push13 (f : OutFrame) (s : State) : State :=
  if sumN (s.srv.ring13.map outUnits) + outUnits f ≤ 1024 then setSrv (fun v => { v with ring13 := v.ring13 ++ [f] }) s
  else (s.bumpLive (K.notifyDrops (portNo f.port))).bump (K.stalls 13)

/-- A subscription is set. -/
def setSub (x : Subn) (s : State) : State :=
  setSrv (fun v => { v with subs := v.subs.map (fun y => if y.id = x.id then x else y) }) s

/-- One subscription is evaluated on one published frame; a firing within PARAM frames of the last notification is deferred. -/
def subEval (p : Snap) (x : Subn) (s : State) : State :=
  if p.fn < x.from_ then s
  else
    let (fires, armed) := subFires p x
    let gap := if x.trig = 1 then 0 else x.param
    let clear := match x.last with | some f => decide (f + gap ≤ p.fn) | none => true
    if fires || x.fired then
      if clear then
        push13 (subFrame p x) (setSub { x with
          armed := armed, seen := subSeen p x, fired := false, last := some p.fn, seq := (x.seq + 1) % 65536 } s)
      else setSub { x with armed := armed, fired := true } s
    else setSub { x with armed := armed } s

/-- Every subscription is evaluated once for a published frame. -/
def subsEval (p : Snap) (s : State) : State :=
  s.srv.subs.foldl (fun s x => match s.srv.subs.find? (fun y => decide (y.id = x.id)) with
    | some y => subEval p y s
    | none => s) s

/-! ### The tick -/

/-- The frame that ends: its V objects, and FRAME-LOST when the lanes did not run all its periods (R18). -/
def endOfFrame (s : State) : State :=
  let s := (costTick (routeTick (offerTick (showLease (showServer s))))).endFrame
  match s.acq.first with
  | some f0 => if f0 ≤ s.fn ∧ s.acq.period < 16 ∧ s.fn ∉ s.acq.lost then frameLost s.fn s else s
  | none => s

/-- Writes of V objects take effect at the tick (R249). -/
def applyVput (s : State) : State := setSrv (fun v => { v with vput := [] }) (s.puts s.srv.vput)

/-- The frames sealed in time or late are published in order, each followed by its subscriptions (R17, R29, R258). -/
def publish (s : State) : State :=
  let due := dueFrames s
  let s := { s with sealed := s.sealed.drop due.length }
  let s := due.foldl (fun s p =>
    let s := publishOne p s
    match s.current with | some q => subsEval q s | none => s) s
  trainFrame (due.map (fun p => p.fn)) (due.any (fun p => decide (p.fn + 2 < s.fn))) (s.fn - 2) s

/-- The next frame begins, at its first sample period; FN has 48 bits. -/
def nextFrame (s : State) : State := { s.setFn ((s.fn + 1) % 2 ^ 48) with acq := { s.acq with period := 0 } }

/-- No sample period of the frame has been lost yet. -/
def noneLost (s : State) : State := { s with acq := { s.acq with lost := [] } }

/-- FRAME_TICK (R11): the metrology tick starts a new frame.  In ROM recovery FN advances and the baseline path goes on (R125, R388).
(DESIGN CHOICE, log 83) -/
def execFrameTick (calEn : Bool) (s : State) : Host.Outcome State Fault Refusal :=
  .next (if s.mode = .run then
    let s := applyVput (coefFrame (calSample calEn (tickTime (nextFrame (endOfFrame s)))))
    storeLegal ((List.range 8).foldl (fun s i => showPending i s) (publish s))
  else if s.mode = .recovery then
    storeLegal (coefFrame (nextFrame (noneLost (((showLease s).endFrame.applyDue s.fn).put K.timeTime48 s.dev.rtcTime))))
  else s)

/-- The credits of a ring in use (Table 1.5 units); of RING-2 the frames of points of each input that core 1 has not finished.
(DESIGN CHOICE, log 8) -/
def ringUsed (s : State) (r : Nat) : Nat :=
  let units := fun (p : Port) => sumN (s.srv.inq.filterMap (fun f => if f.port = p then some f.units else none))
  match r with
  | 0 => s.acq.ring0L.length + s.acq.ring0V.length
  | 1 => ring1Used s
  | 2 => ring2Used s
  | 3 => ring3Used s
  | 4 => ring4Used s
  | 5 => s.ring5.length
  | 6 => hallJobs s
  | 7 => s.bill.ring7.length
  | 8 => s.cap.ring8.length
  | 9 => units .spi
  | 10 => units .t1s
  | 11 => units .plc
  | 12 => sumN (s.srv.ring12.map outUnits)
  | 13 => sumN (s.srv.ring13.map outUnits)
  | 14 => s.plc.ring14.length
  | 15 => s.plc.ring15.length
  | _ => 0

/-- The credit count of a ring in the configuration of frame `f` (R14). -/
def ringCredit (s : State) (f r : Nat) : Nat :=
  match r with
  | 0 => s.acq.credit0
  | 1 => 3 * enabledInputs s f
  | 2 => ring2Credit s f
  | 3 => 4 * (definedCcts s f).length
  | 4 => 2 * harmInputs s f
  | _ => ringDepth r

/-- PUBLISHER_SEAL (R23): the publisher samples the free credits of each ring and seals the oldest complete staging buffer. -/
def execPublisherSeal (s : State) : Host.Outcome State Fault Refusal :=
  .next (if s.mode = .run then
    match s.staging with
    | p :: l =>
      let s := (List.range 16).foldl (fun s r => s.put (K.credits r) (ringCredit s s.fn r - ringUsed s r)) s
      let vals := (List.range 16).foldl (fun t r =>
        putVal (K.credits r) (s.get (K.credits r)) t) p.vals
      { s with staging := l, sealed := s.sealed ++ [{ p with vals := vals }] }
    | [] => s
  else s)

end Sys2Proof.Machine
end

