-- ==== Sys2Proof/Machine/Methods.lean ====
section
/-! DEFINITION. EXEC of methods (R246): the shared checks, the note of a legal method, and the methods and events of time, capture and
billing that take effect without a commit: TIME_SET, CLOCK_STEP_APPLY, CAPTURE_NOW, CLOSE_NOW (R157, R184, R187, R261, R262). -/

namespace Sys2Proof.Machine

/-- A method that changes an L object; RESOLVE is what ends the lock of R349. -/
def legalMethod (k : Nat) : Bool := decide (k ≠ K.resolve) && (match rowOf k with | some r => r.has 1 | none => false)

/-- The EXEC of a method by the next operation of a slot: checked by R246, then `f`. -/
def runMethods (i : Nat) (keys : List Nat) (len : Nat → Bool) (f : Tag → Op → State → State) (s : State) : State :=
  runOp i (fun o => decide (o.code = 0x40) && decide (o.key ∈ keys)) (fun t o s =>
    let c := checkExec (roleOf s t) o.key o.data len
    if c ≠ 0 then answer i c [] s
    else if legalMethod o.key && legalLocked s then answer i 0x20 [] s
    else f t o s) s

/-- The same for a method of a single object. -/
def runMethod (i key : Nat) (len : Nat → Bool) (f : Tag → Op → State → State) (s : State) : State := runMethods i [key] len f s

/-- A method or commit that changes legal data is counted and logged (R244, Table 9.13). (DEDUCED, log 22) -/
def legalNote (txn b port role count first : Nat) (s : State) : State :=
  (s.bump K.txnLegalCommits).event 0x0400 [txn, b, port, role, count, first]

/-- 2025-01-01T00:00:00 UTC as TIME48 (R261). -/
def time2025 : Nat := 0x00BC1D080000

/-- An accepted time setting (R261, R262): K is the next tick; kind, correction, and the setting on its way. (DEDUCED, log 80) -/
def acceptTime (source time atFn : Nat) (s : State) : TimeSetting × Int × State :=
  let k := s.fn + 1
  let val : Nat := (time + (k - (if atFn = 0 then k else atFn))) % 2 ^ 48
  let other := (timeUnit s.time (s.liveI K.timeSlewLeft)).1
  let c : Int := if other = noTime then 0 else (val : Int) - other
  let kind := if other = noTime then 2 else if c = 0 then 0 else if mag c ≤ 2048 then 1 else 2
  let x : TimeSetting := { k := k, kind := kind, val := val }
  let s := { s with dev := { s.dev with tset := some x } }
  let s := ((s.put K.timeLastSource source).put K.timeLastSetFn k).putV K.rtcValid 1
  let s := s.putV K.supSupplyStatus (setBit (s.get K.supSupplyStatus) 1)
  (x, c, if kind = 1 then s.event 0x0401 [source, ofInt 48 c, k] else s)

/-- TIME_SET (R261): the host sets the wall clock from the next tick. (DEDUCED, log 80) -/
def execTimeSet (slot : Fin 48) (s : State) : Host.Outcome State Fault Refusal :=
  .next (runMethod slot.val K.timeTimeSet (fun n => decide (n = 12)) (fun t o s =>
    let time := at_ o.data 0 6
    let atFn := at_ o.data 6 6
    if bit (s.cfg s.fn K.timeSourceMask) 0 = false then answer slot.val 0x20 [] s
    else if time < time2025 ∨ time = noTime ∨ s.fn < atFn ∨ (atFn ≠ 0 ∧ atFn + 4096 < s.fn) then answer slot.val 0x32 [] s
    else
      let r := acceptTime 1 time atFn s
      let s := if r.1.kind = 0 then r.2.2 else legalNote 0 r.1.k (portNo t.port) (roleOf s t) 1 K.timeTimeSet r.2.2
      answer slot.val 0 (le 6 r.1.k ++ le 6 (ofInt 48 r.2.1) ++ le 1 r.1.kind) s) s)

/-- CLOCK_STEP_APPLY (R187, R262): a step that was accepted takes effect at the tick of frame K. -/
def execClockStepApply (s : State) : Host.Outcome State Fault Refusal :=
  .next (match s.dev.tset with
    | some x =>
      if x.kind = 2 ∧ x.k ≤ s.fn then
        let old := s.timeOf x.k
        let s := { s with dev := { s.dev with tset := none },
                          times := s.times.map (fun (e : Nat × Nat × Nat) =>
                             if x.k ≤ e.1 then (e.1, (x.val + (e.1 - x.k)) % 2 ^ 48, e.2.2) else e),
                          bill := { s.bill with steps := s.bill.steps ++ [(x.k, old, x.val)] } }
        noteTime ((s.put K.timeTime48 ((x.val + (s.fn - x.k)) % 2 ^ 48)).putLive K.timeSlewLeft 0)
      else s
    | none => s)

/-- CAPTURE_NOW (R157): a capture is promised an ID and triggers at the first sample of the next frame, while the engine is armed;
one answered BUSY counts in MISSED. (DEDUCED, log 41) -/
def execCaptureNow (slot : Fin 48) (s : State) : Host.Outcome State Fault Refusal :=
  .next (runMethod slot.val K.capCaptureNow (fun n => decide (n = 0)) (fun _ _ s =>
    if s.live K.capState = 3 ∨ s.cfg s.fn K.capEnable ≠ 1 then answer slot.val 0x20 [] s
    else if s.live K.capState ≠ 0 ∨ s.cap.cur ≠ none ∨ s.cap.now ≠ none then answer slot.val 0x10 [] (s.bump K.capMissed)
    else
      let id := (s.cap.lastId + 1) % 2 ^ 32
      let trig := 16 * (s.fn + 1)
      answer slot.val 0 (le 4 id) { s with cap := { s.cap with lastId := id, now := some (id, trig) } }) s)

/-- CLOSE_NOW (R184): the schedules of a mask close their periods at the next frame. (DEDUCED, log 22; DEDUCED, log 47) -/
def execCloseNow (slot : Fin 48) (s : State) : Host.Outcome State Fault Refusal :=
  .next (runMethods slot.val ((List.range 4).map K.bpCloseNow) (fun n => decide (n = 1)) (fun t o s =>
    let mask := at_ o.data 0 1
    if mask = 0 ∨ 16 ≤ mask then answer slot.val 0x32 [] s
    else
      let x := s.fn + 1
      let s := { s with bill := { s.bill with closes := s.bill.closes ++ [(mask, x)] } }
      answer slot.val 0 (le 6 x) (legalNote 0 x (portNo t.port) (roleOf s t) 1 o.key s)) s)

end Sys2Proof.Machine
end

