-- ==== Sys2Proof/Machine/Tackroom.lean ====
section
/-! DEFINITION. The Tackroom's writer (R231, R352 to R357, R158, R377): sectors, programming in ring order, verification and retirement,
and the step that ends an erase or a program. -/

namespace Sys2Proof.Machine

/-! ### Sectors and bytes -/

/-- The Tackroom is set. -/
def setTk (f : Tk → Tk) (s : State) : State := { s with tk := f s.tk }

/-- A byte of an erased sector. (DESIGN CHOICE, log 13) -/
def erasedByte : Nat := 0xFF

/-- A byte of the image installed at manufacture, in slot A. (DESIGN CHOICE, log 13) -/
def factoryByte (a : Nat) : Nat := Config.setAtTest (0x5000000 + a) % 256

/-- A byte of the Tackroom. (DESIGN CHOICE, log 13) -/
def tkByte (s : State) (a : Nat) : Nat :=
  if s.tk.fac ≤ a / 65536 ∧ a < 0x800000 then factoryByte a else tget erasedByte s.tk.mem a

/-- Bytes of the Tackroom from an address. -/
def tkBytes (s : State) (a n : Nat) : Bytes := (List.range n).map (fun i => BitVec.ofNat 8 (tkByte s (a + i)))

/-- The writer skips a sector: it is RETIRED, or reinstated and not yet erased and verified (R231, R235). -/
def secRetired (s : State) (sec : Nat) : Bool :=
  let u := tget {} s.units (unitKey 4 sec)
  decide (u.state = 2) || u.out

/-- The good sectors among `n` from `lo`, ascending. -/
def goodSecs (s : State) (lo n : Nat) : List Nat := ((List.range n).map (fun i => lo + i)).filter (fun k => !secRetired s k)

/-- A sector holds programmed bytes. -/
def secDirty (s : State) (sec : Nat) : Bool :=
  decide (s.tk.fac ≤ sec ∧ sec < 128) || s.tk.mem.any (fun e => decide (e.1 / 65536 = sec))

/-- The partition of a writer: first sector and number of sectors (Table 12.11). -/
structure Part where
  lo : Nat
  n  : Nat
  deriving DecidableEq, Repr

def evPart : Part := ⟨768, 64⟩
def profPart : Part := ⟨256, 512⟩
def capPart : Part := ⟨832, 128⟩
def histPart : Part := ⟨1000, 24⟩
def backPart : Part := ⟨960, 40⟩

/-- The sector that follows in ring order, RETIRED ones skipped. -/
def nextSec (s : State) (p : Part) (sec : Nat) : Nat :=
  (((List.range p.n).map (fun i => p.lo + (sec - p.lo + 1 + i) % p.n)).find? (fun k => !secRetired s k)).getD sec

/-- Where the writer stands: an address in a RETIRED sector moves to the next one. -/
def standAt (s : State) (p : Part) (a : Nat) : Nat := if secRetired s (a / 65536) then 65536 * nextSec s p (a / 65536) else a

/-- The address after one byte. -/
def stepAddr (s : State) (p : Part) (a : Nat) : Nat := if (a + 1) % 65536 = 0 then 65536 * nextSec s p (a / 65536) else a + 1

/-- The addresses of `n` bytes in ring order from `a`, and the address after them. -/
def ringAddrs (s : State) (p : Part) : Nat → Nat → List Nat × Nat
  | 0, a => ([], a)
  | n + 1, a => let r := ringAddrs s p n (stepAddr s p a); (a :: r.1, r.2)

/-- Bytes are programmed at addresses. -/
def progAt (as_ : List Nat) (b : Bytes) (s : State) : State :=
  setTk (fun t => { t with mem := (as_.zip b).foldl (fun m e => tset erasedByte m e.1 e.2.toNat) t.mem }) s

/-! ### Image slots (R361, R377) -/

/-- The sectors of image slot `k`. -/
def slotSecs (s : State) (k : Nat) : List Nat := goodSecs s (128 * k) 128

/-- The address of an image offset in slot `k`: offsets map onto the good sectors in ascending order. -/
def imgAddr (s : State) (k off : Nat) : Option Nat := (slotSecs s k)[off / 65536]?.map (fun sec => 65536 * sec + off % 65536)

/-- A byte of the image in slot `k`. -/
def imgByte (s : State) (k off : Nat) : Byte :=
  match imgAddr s k off with | some a => BitVec.ofNat 8 (tkByte s a) | none => BitVec.ofNat 8 erasedByte

/-- Bytes of the image in slot `k`. -/
def imgBytes (s : State) (k off n : Nat) : Bytes := (List.range n).map (fun i => imgByte s k (off + i))

/-- What slot `k` holds. -/
def getSlot (s : State) (k : Nat) : SlotS := tget {} s.img.slots k

/-- It is set. -/
def setSlot (k : Nat) (x : SlotS) (s : State) : State := { s with img := { s.img with slots := tset {} s.img.slots k x } }

/-- The target slot of an update: the one that is not ACTIVE_SLOT, or slot A in ROM recovery without a valid slot (R374, R389). -/
def targetSlot (s : State) : Nat := if s.img.noneValid then 0 else 1 - s.get K.activeSlot

/-- BLOCK_MAP and UNITS_WRITTEN show the units of the target slot while a lease is open (Table 13.11). -/
def showUnits (s : State) : State :=
  match s.img.lease with
  | some _ =>
    let u := (getSlot s (targetSlot s)).units
    (s.putLive K.unitsWritten u.length).putLive K.blockMap (sumN (u.map (fun n => 2 ^ n)))
  | none => (s.putLive K.unitsWritten 0).putLive K.blockMap 0

/-- MANIFEST and SLOT_CHECK of slot `k` follow its header. -/
def showManifest (k : Nat) (s : State) : State :=
  let has := decide (0 ∈ (getSlot s k).units) || (decide (k = 0) && decide (s.tk.fac = 0))
  let m := if has then imgBytes s k 0 256 else []
  (s.put (K.imManifest k) (ofLe m)).put (K.imSlotCheck k) (ofLe ((m.drop 40).take 4))

/-- Units of an image are programmed into slot `k`. -/
def progUnits (k : Nat) (us : List (Nat × Bytes)) (s : State) : State :=
  let s := us.foldl (fun s u =>
    match imgAddr s k (256 * u.1) with
    | some a => progAt ((List.range u.2.length).map (fun i => a + i)) u.2 s
    | none => s) s
  let x := getSlot s k
  let s := setSlot k { x with units := us.foldl (fun l u => insN u.1 l) x.units } s
  let s := if us.any (fun u => decide (u.1 = 0)) then showManifest k s else s
  showUnits s

/-- A sector of slot `k` leaves the good ones: the image keeps its offsets on those that remain. -/
def relaySlot (k : Nat) (retire : State → State) (s : State) : State :=
  let x := getSlot s k
  let data := x.units.map (fun u => (u, imgBytes s k (256 * u) 256))
  let s := retire s
  let s := setTk (fun t => { t with mem := t.mem.filter (fun e => decide (e.1 / 8388608 ≠ k)) }) s
  progUnits k (data.filter (fun e => decide (imgAddr s k (256 * e.1) ≠ none))) (setSlot k { x with units := [] } s)

/-! ### Erasing -/

/-- A stretch of bytes has a byte in a sector, RETIRED sectors that it skips aside. -/
def inSec (s : State) (p : Part) (sec addr len : Nat) : Bool := ((ringAddrs s p len addr).1).any (fun a => decide (a / 65536 = sec))

/-- EVENT_OLDEST, PROFILE_OLDEST, BACKUP_GEN and STORED follow what the partitions hold. -/
def showLogs (s : State) : State :=
  let s := s.put K.eventOldest (match s.tk.evs with | e :: _ => e.seq | [] => 0)
  let s := s.put K.profileOldest (match s.tk.profs with | e :: _ => e.num | [] => 0)
  let s := s.put K.backupGen (s.tk.backs.foldl (fun g b => if b.valid then max g b.gen else g) 0)
  s.put K.capStored ((s.tk.caps.filter (fun c => c.header)).length)

/-- The history of a schedule loses its oldest entries that are no longer held (R185, R356). -/
def showHistory (s : State) : State :=
  (List.range 4).foldl (fun s c =>
    let n := (s.tk.hists.filter (fun e => decide (e.1 = c))).length
    let held := s.get (K.historyHeld c)
    ((List.range (held - n)).foldl (fun s i => s.put (K.history (24 * c + n + i)) 0) s).put (K.historyHeld c) n) s

/-- A sector is erased: the records that it holds a part of are gone, but for the period records when `keep`. -/
def eraseWith (keep : Bool) (sec : Nat) (s : State) : State :=
  let t := s.tk
  let t := { t with
    evs := t.evs.filter (fun e => match e.addr with | some a => !inSec s evPart sec a (32 * e.entries.length) | none => true),
    profs := t.profs.filter (fun e => !inSec s profPart sec e.addr e.len),
    caps := t.caps.filter (fun c => decide (c.addr / 65536 ≠ sec)),
    hists := if keep then t.hists else t.hists.filter (fun e => !inSec s histPart sec e.2.addr e.2.len),
    backs := t.backs.filter (fun b => decide (sec ∉ b.sects)),
    mem := t.mem.filter (fun e => decide (e.1 / 65536 ≠ sec)),
    fac := if sec < 128 then max t.fac (sec + 1) else t.fac }
  let s := showHistory (showLogs { s with tk := t })
  if sec < 256 then
    let k := sec / 128
    let x := getSlot s k
    let us := x.units.filter (fun u => decide (imgAddr s k (256 * u) = none) ||
      decide ((imgAddr s k (256 * u)).map (fun a => a / 65536) ≠ some sec))
    showUnits (showManifest k (setSlot k { x with units := us } s))
  else s

/-- A sector reads erased, and its records are lost. -/
def eraseSec (sec : Nat) (s : State) : State := eraseWith false sec s

/-! ### The queue -/

/-- The sectors that must be erased before an operation. -/
def tkNeeds (s : State) : TkOp → List Nat
  | .image k us _ => us.filterMap (fun u => (imgAddr s k (256 * u.1)).map (fun a => a / 65536))
  | _ => []

/-- The place of an operation in the queue: behind every program, and behind the erases that it needs. -/
def tkPlace (need : List Nat) : List TkJob → Nat
  | [] => 0
  | j :: l =>
    let r := tkPlace need l
    if r ≠ 0 then r + 1
    else match j.op with
      | .erase sec => if sec ∈ need then 1 else 0
      | _ => 1

/-- An operation joins the queue; the one in progress is not disturbed. -/
def tkPush (op : TkOp) (s : State) : State :=
  let n := match op with
    | .erase _ => s.tk.queue.length
    | _ => max (min 1 s.tk.queue.length) (tkPlace (tkNeeds s op) s.tk.queue)
  setTk (fun t => { t with queue := t.queue.take n ++ [⟨op, 0⟩] ++ t.queue.drop n }) s

/-- The writer takes the oldest entry of RING-7, RING-8 and of the period records, one of each at a time. (DEDUCED, log 64) -/
def tkPump (s : State) : State :=
  let has := fun (p : TkOp → Bool) => s.tk.queue.any (fun j => p j.op)
  let s := match s.cap.ring8 with
    | b :: _ => if has (fun o => match o with | .capture _ => true | _ => false) then s else tkPush (.capture b) s
    | [] => s
  let s := match s.bill.hist with
    | h :: _ => if has (fun o => match o with | .history _ => true | _ => false) then s else tkPush (.history h) s
    | [] => s
  match s.bill.ring7 with
  | r :: _ => if has (fun o => match o with | .profile _ _ => true | _ => false) then s else tkPush (.profile r.1 r.2) s
  | [] => s

/-! ### What is programmed -/

/-- The payload of an event: its fields in order, little-endian (R4, R354). (DESIGN CHOICE, log 11) -/
def evPayload (e : Event) : Bytes :=
  (List.range e.fields.length).flatMap (fun i => le (Config.eventWidth e.code i) (e.fields.getD i 0))

/-- The entries of an event (Table 12.14). -/
def evEntries (seq : Nat) (e : Event) : List Bytes :=
  let pay := evPayload e
  let n := max 1 ((pay.length + 9) / 10)
  (List.range n).map (fun i =>
    let b := le 4 seq ++ le 6 e.fn ++ le 6 e.time ++ le 2 e.code ++ le 1 (b2n (decide (i + 1 < n)) + 2 * b2n e.tail) ++ le 1 i ++
      slice pay (10 * i) 10
    b ++ le 2 (crc16 b))

/-- A register and its wrap count in a period record (R356). -/
def histReg (regs wraps : List Nat) (i : Nat) : Bytes := le 2 (wraps.getD i 0) ++ le 6 (regs.getD i 0)

/-- The entry of a circuit in a period record. -/
def histEntryBytes (s : State) (f : Nat) (e : Nat × List Nat × List Nat × List Nat × Nat) : Bytes :=
  let (c, regs, wraps, md, flags) := e
  let used := (List.range 8).filter (fun t =>
    (List.range 8).any (fun k => decide (regs.getD (8 * t + k) 0 ≠ 0) || decide (wraps.getD (8 * t + k) 0 ≠ 0)) ||
    decide (md.getD (4 * t) 0 ≠ 0) || decide (md.getD (4 * t + 2) 0 ≠ 0))
  le 1 c ++ le 1 (s.cfg (f - 1) (K.cctEnergyUnit c)) ++ le 2 flags ++ le 1 (sumN (used.map (fun t => 2 ^ t))) ++ le 1 0 ++
    (List.range 8).flatMap (fun k => histReg regs wraps (64 + k)) ++
    used.flatMap (fun t => (List.range 8).flatMap (fun k => histReg regs wraps (8 * t + k)) ++
      le 4 (md.getD (4 * t) 0) ++ le 6 (md.getD (4 * t + 1) 0) ++ le 4 (md.getD (4 * t + 2) 0) ++ le 6 (md.getD (4 * t + 3) 0))

/-- A period record (R356); its CRC covers the record with that field taken as 0. -/
def histBytes (s : State) (h : HistRec) : Bytes :=
  let body := h.ccts.flatMap (histEntryBytes s h.fn)
  let head := fun (crc : Nat) => le 2 1 ++ le 1 h.sched ++ le 1 h.cause ++ le 4 h.period ++ le 4 h.bsn ++ le 6 h.fn ++ le 6 h.time ++
    le 2 h.ccts.length ++ le 4 (48 + body.length) ++ le 8 (s.get K.idUnitId) ++ le 4 crc ++ le 6 0
  head (crc32 (head 0 ++ body)) ++ body

/-- A directory entry (Table 6.8). -/
def histDir (h : HistRec) (r : LogRec) : Nat :=
  let flags := h.ccts.foldl (fun a e => Nat.lor a e.2.2.2.2) 0
  ofLe (le 4 h.period ++ le 1 h.sched ++ le 1 h.cause ++ le 2 flags ++ le 6 h.fn ++ le 6 h.time ++ le 4 h.bsn ++ le 4 r.addr ++ le 4 r.len)

/-- The data of a page in a backup. (DESIGN CHOICE, log 10) -/
def backPage (b : Backup) (p : Nat) : Bytes :=
  match b.raws.find? (fun e => decide (e.1 = p)) with
  | some e => slice e.2 0 256
  | none => slice (Config.pageImage p (b.vals.filter (fun e => decide (pageOf e.1 = p)))) 0 256

/-- A sector of a backup generation (R357): its header, then 255 pages; the digest covers the 1,024 pages. (DESIGN CHOICE, log 11) -/
def backBytes (b : Backup) (part : Nat) : Bytes :=
  let ps := (List.range 255).map (fun i => 255 * part + i) |>.filter (fun p => decide (p < 1024))
  let digest := sha3_256 ((List.range 1024).flatMap (backPage b))
  let stat := ps.map (fun p => b.stats.getD p 0)
  let head := le (Config.backupWidth 0) Config.backupVersion ++ le 4 b.gen ++ le (Config.backupWidth 1) part ++ le 6 b.fn ++
    le 6 b.time ++ le (Config.backupWidth 2) b.count
  slice (head ++ digest ++ Config.packedStatus stat) 0 256 ++ ps.flatMap (backPage b)

/-- The sectors of a backup generation: five good ones, generations going round. -/
def backSecs (s : State) (gen : Nat) : List Nat :=
  let g := goodSecs s backPart.lo backPart.n
  let n := max 1 (g.length / 5)
  (g.drop (5 * ((gen - 1) % n))).take 5

/-- Where an operation writes: addresses and the address after them. -/
def tkWhere (s : State) : TkOp → List Nat × Nat
  | .event q =>
    let n := match s.tk.evs.find? (fun e => decide (e.seq = q)) with | some e => 32 * e.entries.length | none => 0
    ringAddrs s evPart n (standAt s evPart s.tk.evPos)
  | .profile _ b => ringAddrs s profPart b.length (standAt s profPart s.tk.profPos)
  | .history h => ringAddrs s histPart (histBytes s h).length (standAt s histPart s.tk.histPos)
  | .keep _ _ b => ringAddrs s histPart b.length (standAt s histPart s.tk.histPos)
  | .capture b =>
    let have_ := s.tk.caps.find? (fun c => decide (c.id = b.id))
    let a := standAt s capPart s.tk.capPos
    (match have_, b.seq with
     | some c, 0 => ((List.range 4096).map (fun i => c.addr + i), s.tk.capPos)
     | some _, _ => ringAddrs s capPart 4096 a
     | none, 0 => ringAddrs s capPart 4096 a
     | none, _ => ringAddrs s capPart 4096 ((ringAddrs s capPart 4096 a).2))
  | .backup g i =>
    (match (backSecs s g)[i]? with | some sec => ((List.range 65536).map (fun j => 65536 * sec + j), 0) | none => ([], 0))
  | .image k us _ => (us.flatMap (fun u => match imgAddr s k (256 * u.1) with
      | some a => (List.range u.2.length).map (fun i => a + i) | none => []), 0)
  | .erase sec => ([65536 * sec], 0)
  | .renew sec => ([65536 * sec], 0)
  | .refresh sec => ([65536 * sec], 0)

/-- The sectors that an operation writes, in the order of writing. -/
def opSecs (s : State) (op : TkOp) : List Nat := ((tkWhere s op).1.map (fun a => a / 65536)).eraseDups

/-- The sector that an operation begins in. -/
def tkSector (s : State) (op : TkOp) : Nat := ((tkWhere s op).1.headD 0) / 65536

/-- The sectors that a program enters and that are not erased yet: those beyond the one in which its writer stands. -/
def tkDirty (s : State) (op : TkOp) : List Nat :=
  let w := (tkWhere s op).1
  let entered := (w.map (fun a => a / 65536)).eraseDups
  let fresh := fun (pos : Nat) => entered.filter (fun k => (decide (pos % 65536 = 0) || decide (k ≠ pos / 65536)) && secDirty s k)
  match op with
  | .event _ => fresh (standAt s evPart s.tk.evPos)
  | .profile _ _ => fresh (standAt s profPart s.tk.profPos)
  | .history _ => fresh (standAt s histPart s.tk.histPos)
  | .keep _ _ _ => fresh (standAt s histPart s.tk.histPos)
  | .capture b => if b.seq = 0 ∧ s.tk.caps.any (fun c => decide (c.id = b.id)) then [] else fresh (standAt s capPart s.tk.capPos)
  | .backup _ _ => entered.filter (secDirty s)
  | _ => []

/-- Erases that the operation at the front needs go before it. (DEDUCED, log 64) -/
def tkAhead (s : State) : State :=
  match s.tk.queue with
  | j :: l =>
    let d := tkDirty s j.op
    if d = [] then s else setTk (fun t => { t with queue := d.map (fun k => ⟨.erase k, 0⟩) ++ j :: l }) s
  | [] => s

/-- After a program the writer erases the next sector ahead of use (R352). (DEDUCED, log 64) -/
def eraseAhead (p : Part) (pos : Nat) (s : State) : State :=
  let k := if pos % 65536 = 0 then pos / 65536 else nextSec s p (pos / 65536)
  if secDirty s k ∧ s.tk.queue.all (fun j => decide (j.op ≠ .erase k)) then
    setTk (fun t => { t with queue := ⟨.erase k, 0⟩ :: t.queue }) s
  else s

/-! ### The end of an operation -/

/-- A capture block is programmed; with its header the capture is stored (R158). -/
def doneCapture (b : CapBlock) (s : State) : State :=
  let a0 := standAt s capPart s.tk.capPos
  let w := tkWhere s (.capture b)
  let known := s.tk.caps.find? (fun c => decide (c.id = b.id))
  let at_ := w.1.headD 0
  let s := progAt w.1 b.bytes s
  let s := setTk (fun t => { t with capPos := w.2 }) s
  let base : CapRec := known.getD { id := b.id, addr := if b.seq = 0 then at_ else a0 }
  let c : CapRec := if b.seq = 0 then { base with header := true } else { base with data := base.data ++ [at_] }
  let s := setTk (fun t => { t with caps := if known = none then t.caps ++ [c] else t.caps.map (fun x => if x.id = c.id then c else x) }) s
  let s := if b.seq = 0 then
      (showLogs ((s.put K.capLastId b.id).put K.capLastAddr c.addr)).event 0x0131 [b.id, c.addr, b.cause, b.flags]
    else s
  let s := { s with cap := { s.cap with ring8 := s.cap.ring8.erase b } }
  eraseAhead capPart s.tk.capPos s

/-- Bytes of period records that the partition holds beside the sector being written and the one erased ahead. -/
def histRoom (s : State) : Nat := 65536 * ((goodSecs s histPart.lo histPart.n).length - 2)

/-- The period records without the oldest one of the schedule that takes the most bytes. -/
def histTrim (l : List (Nat × LogRec)) : List (Nat × LogRec) :=
  let size := fun (sc : Nat) => sumN ((l.filter (fun e => decide (e.1 = sc))).map (fun e => e.2.len))
  let top := (List.range 4).foldl (fun m sc => if size m < size sc then sc else m) 0
  match l.find? (fun e => decide (e.1 = top)) with | some e => l.erase e | none => l

/-- The records that are kept (R356): the newest 24 of every schedule, or as many of each schedule's newest as fit. (DESIGN CHOICE, log 100) -/
def histKept (room : Nat) : Nat → List (Nat × LogRec) → List (Nat × LogRec)
  | 0, l => l
  | n + 1, l =>
    match (List.range 4).find? (fun sc => decide (24 < (l.filter (fun e => decide (e.1 = sc))).length)) with
    | some sc => histKept room n ((l.find? (fun e => decide (e.1 = sc))).elim l (fun e => l.erase e))
    | none => if room < sumN (l.map (fun e => e.2.len)) ∧ 1 < l.length then histKept room n (histTrim l) else l

/-- A period record is programmed and enters the directory (R185, R356). -/
def doneHistory (h : HistRec) (s : State) : State :=
  let b := histBytes s h
  let w := tkWhere s (.history h)
  let r : LogRec := { num := h.period, addr := w.1.headD 0, len := b.length }
  let s := progAt w.1 b s
  let kept := histKept (histRoom s) (s.tk.hists.length + 1) (s.tk.hists ++ [(h.sched, r)])
  let s := setTk (fun t => { t with histPos := w.2, hists := kept }) s
  let old := (List.range 23).map (fun i => s.get (K.history (24 * h.sched + i)))
  let s := (histDir h r :: old).zipIdx.foldl (fun s e => s.put (K.history (24 * h.sched + e.2)) e.1) s
  let s := showHistory (s.put (K.historyHeld h.sched) (min 24 (s.get (K.historyHeld h.sched) + 1)))
  eraseAhead histPart w.2 (letSlots h.sched h.period { s with bill := { s.bill with hist := s.bill.hist.erase h } })

/-- The period records that a sector's erase would take are read first, and programmed again behind it (R356). (DESIGN CHOICE, log 100) -/
def eraseKeep (sec : Nat) (s : State) : State :=
  let mine := s.tk.hists.filter (fun e => inSec s histPart sec e.2.addr e.2.len)
  let ops := mine.map (fun e => (e, ((ringAddrs s histPart e.2.len e.2.addr).1).map (fun a => BitVec.ofNat 8 (tkByte s a))))
  ops.foldl (fun s e => tkPush (.keep e.1.1 e.1.2.num e.2) s) (eraseWith true sec s)

/-- A period record is programmed again: its directory entry takes the new address. -/
def doneKeep (sc num : Nat) (b : Bytes) (s : State) : State :=
  let w := tkWhere s (.keep sc num b)
  let a := w.1.headD 0
  let mine := (s.tk.hists.filter (fun e => decide (e.1 = sc))).reverse
  if mine.all (fun e => decide (e.2.num ≠ num)) then s
  else
    let i := mine.findIdx (fun e => decide (e.2.num = num))
    let d := le 32 (s.get (K.history (24 * sc + i)))
    let s := (progAt w.1 b s).put (K.history (24 * sc + i)) (ofLe (d.take 24 ++ le 4 a ++ d.drop 28))
    let s := setTk (fun t => { t with histPos := w.2, hists := t.hists.map (fun e =>
      if e.1 = sc ∧ e.2.num = num then (sc, { e.2 with addr := a }) else e) }) s
    eraseAhead histPart w.2 s

/-- A profile record is programmed (R353). -/
def doneProfile (q : Nat) (b : Bytes) (s : State) : State :=
  let w := tkWhere s (.profile q b)
  let s := progAt w.1 b s
  let s := setTk (fun t => { t with profPos := w.2, profs := t.profs ++ [⟨q, w.1.headD 0, b.length⟩] }) s
  let s := showLogs (s.put K.profileAddr (w.1.headD 0))
  eraseAhead profPart w.2 (profPump (drop7 s))

/-- An event is programmed (R354). -/
def doneEvent (q : Nat) (s : State) : State :=
  let w := tkWhere s (.event q)
  let bytes := match s.tk.evs.find? (fun e => decide (e.seq = q)) with | some e => e.entries.flatten | none => []
  let s := progAt w.1 bytes s
  let s := setTk (fun t => { t with evPos := w.2, evs := t.evs.map (fun e => if e.seq = q then { e with addr := w.1.head? } else e) }) s
  eraseAhead evPart w.2 s

/-- A sector of a backup is programmed; with the fifth the generation is valid (R357). -/
def doneBackup (g i : Nat) (s : State) : State :=
  match s.tk.backs.find? (fun b => decide (b.gen = g)) with
  | none => s
  | some b =>
    let sec := tkSector s (.backup g i)
    let s := progAt (tkWhere s (.backup g i)).1 (backBytes b i) s
    let b := { b with sects := b.sects ++ [sec], valid := decide (i = 4) }
    let s := setTk (fun t => { t with backs := t.backs.map (fun x => if x.gen = g then b else x) }) s
    if i = 4 then (s.put K.backupGen g).event 0x0609 [g, b.fn] else s

/-- Units of an image are programmed, and the WRITE-BLOCK that waits is answered (R377). -/
def doneImage (k : Nat) (us : List (Nat × Bytes)) (tag : Option Nat) (s : State) : State :=
  let s := progUnits k us s
  match tag with
  | some i => answer i 0 (le 2 (getSlot s k).units.length) s
  | none => s

/-- The state of a sector is set. -/
def setSec (sec : Nat) (u : UnitS) (s : State) : State := { s with units := tset {} s.units (unitKey 4 sec) u }

/-- A sector of an image slot leaves the good ones or returns to them: the image and GOOD_SECTORS follow (R231, R235). -/
def shiftSlot (sec : Nat) (mark : State → State) (s : State) : State :=
  if sec < 256 then
    let s := relaySlot (sec / 128) mark s
    s.put (K.imGoodSectors (sec / 128)) (slotSecs s (sec / 128)).length
  else mark s

/-- A reinstated sector is back in its partition once its erase is verified (R235). -/
def sectorIn (sec : Nat) (s : State) : State :=
  let u := tget {} s.units (unitKey 4 sec)
  if u.out then shiftSlot sec (fun s => setSec sec { u with out := false } s) s else s

/-- What a verified erase or program brings about. -/
def tkDone (op : TkOp) (s : State) : State :=
  match op with
  | .erase sec => sectorIn sec (eraseKeep sec s)
  | .renew _ => s
  | .refresh _ => s
  | .image k us tag => doneImage k us tag s
  | .event q => doneEvent q s
  | .profile q b => doneProfile q b s
  | .capture b => doneCapture b s
  | .history h => doneHistory h s
  | .keep sc num b => doneKeep sc num b s
  | .backup g i => doneBackup g i s

/-- A sector is RETIRED: its partition shrinks, and an image slot shows one good sector less (R231). -/
def retireSec (sec : Nat) (s : State) : State :=
  let u := tget {} s.units (unitKey 4 sec)
  let s := shiftSlot sec (fun s => setSec sec { u with state := 2, fail := 0, since := s.fn, out := false } s) s
  (s.bump K.sectorsRetired).event 0x0302 [4, sec, 9, s.fn]

/-- A verified program makes the SUSPECT sectors that it wrote OK (Table 8.2); an erase does not, but ends its own run of failures. -/
def secPassed (op : TkOp) (s : State) : State :=
  match op with
  | .erase sec =>
    let u := tget {} s.units (unitKey 4 sec)
    if u.fail = 0 then s else setSec sec { u with fail := 0 } s
  | .renew _ => s
  | _ => (opSecs s op).foldl (fun s sec =>
    let u := tget {} s.units (unitKey 4 sec)
    if u.state = 1 then (setSec sec { u with state := 0, fail := 0, since := s.fn } s).event 0x0301 [4, sec] else s) s

/-- The sector in which a verification failed: of several that an operation wrote, one that the die reports. (DESIGN CHOICE, log 92) -/
def failedSec (op : TkOp) (s : State) : Nat × State :=
  let l := opSecs s op
  if l.length ≤ 1 then (l.headD 0, s)
  else let (v, s) := s.draw; (l.getD (v % l.length) 0, s)

/-- The queue with the failed operation repeated (R231): an erase alone, a program with an erase before it.  What else the sector held is
programmed with it again. (DEDUCED, log 99) -/
def retryJobs (sec : Nat) (j : TkJob) (l : List TkJob) : List TkJob :=
  let n := j.tries + 1
  match j.op with
  | .erase _ => { j with tries := n } :: l
  | .renew _ => { j with tries := n } :: (match l with | p :: l => { p with tries := n } :: l | [] => [])
  | _ => ⟨.renew sec, n⟩ :: { j with tries := n } :: l

/-- A program is that of a sector's refresh. -/
def isRefresh (j : TkJob) : Bool := match j.op with | .refresh _ => true | _ => false

/-- The queue once the sector is RETIRED: a program starts anew in the sector that follows; a refresh is over. -/
def movedJobs (j : TkJob) (l : List TkJob) : List TkJob :=
  match j.op with
  | .erase _ => l
  | .renew _ => (match l with | p :: l => if isRefresh p then l else { p with tries := 0 } :: l | [] => [])
  | _ => if isRefresh j then l else { j with tries := 0 } :: l

/-- A sector reads erased between the erase and the program of a refresh: its records are lost and counted (R351). -/
def loseSec (sec : Nat) (s : State) : State :=
  let gone := s.tk.evs.filter (fun e => match e.addr with | some a => inSec s evPart sec a (32 * e.entries.length) | none => false)
  eraseSec sec (s.bumpBy K.eventsLost (sumN (gone.map (fun e => e.entries.length))))

/-- The refresh that an operation and the one behind it belong to. -/
def refreshOf (j : TkJob) (l : List TkJob) : Bool :=
  isRefresh j || (match j.op with | .renew _ => (match l with | p :: _ => isRefresh p | [] => false) | _ => false)

/-- A failed verification (R231): the sector is SUSPECT, and erase and program are repeated, at most three times for each sector; then it is
RETIRED, and a program goes to the next sector. -/
def secFailed (j : TkJob) (l : List TkJob) (s : State) : State :=
  let (sec, s) := failedSec j.op s
  let u := tget {} s.units (unitKey 4 sec)
  if u.fail < 3 then
    let v := { u with fail := u.fail + 1 }
    let s := if u.state = 0 then (setSec sec { v with state := 1, since := s.fn } s).event 0x0300 [4, sec, 9] else setSec sec v s
    setTk (fun t => { t with queue := retryJobs sec j l }) (s.bump K.sectorRetries)
  else setTk (fun t => { t with queue := movedJobs j l }) (retireSec sec (if refreshOf j l then loseSec sec s else s))

/-- A sector found weak is erased and programmed again with what it held (R351), behind the operations that wait. -/
def refreshSec (sec : Nat) (s : State) : State :=
  if s.tk.queue.any (fun j => decide (j.op = .refresh sec)) then s
  else setTk (fun t => { t with queue := t.queue ++ [⟨.renew sec, 0⟩, ⟨.refresh sec, 0⟩] }) s

/-- Period records that wait to be programmed again are lost with the queue (R356). -/
def dropKeeps (s : State) : State :=
  let waits := fun (e : Nat × LogRec) => s.tk.queue.any (fun j => match j.op with | .keep sc n _ => decide (sc = e.1 ∧ n = e.2.num) | _ => false)
  if s.tk.hists.any waits then showHistory (setTk (fun t => { t with hists := t.hists.filter (fun e => !waits e) }) s) else s

/-- A profile record in progress is partly programmed: how far is open, and the writer skips it (R398). (DESIGN CHOICE, log 100) -/
def profileCut (q : Nat) (b : Bytes) (s : State) : State :=
  let (v, s) := s.draw
  let n := v % max 1 b.length
  let w := tkWhere s (.profile q b)
  if n = 0 then s else setTk (fun t => { t with profPos := w.2 }) (progAt (w.1.take n) (b.take n) s)

/-- Power fails: the operation in progress is abandoned.  Between the erase and the program of a refresh the sector reads erased, and its
records are lost and counted (R351); a profile record may be partly programmed (R398). -/
def refreshCut (s : State) : State :=
  let s := dropKeeps (tkAhead (tkPump s))
  match s.tk.queue with
  | j :: _ =>
    (match j.op with
     | .refresh sec => loseSec sec s
     | .profile q b => profileCut q b s
     | _ => s)
  | [] => s

/-- The Tackroom's die has power, and its operations are verified: in RUN, and in ROM recovery (R216). (DESIGN CHOICE, log 114) -/
def tkPowered (s : State) : Bool := decide (s.mode = .run) || decide (s.mode = .recovery)

/-- TACKROOM_OP_COMPLETE (R231): the erase or program in progress ends and is verified. -/
def execTackroomOpComplete (verified : Bool) (s : State) : Host.Outcome State Fault Refusal :=
  .next (if tkPowered s then
    let s := tkAhead (tkPump s)
    match s.tk.queue with
    | j :: l =>
      if verified || decide ((tkWhere s j.op).1 = []) then
        tkDone j.op (secPassed j.op (setTk (fun t => { t with queue := l }) s))
      else secFailed j l s
    | [] => s
  else s)

end Sys2Proof.Machine
end

