-- ==== Sys2Proof/Machine/Lease.lean ====
section
/-! DEFINITION. Image validation, owner keys and the update lease (R361 to R369, R374 to R379). -/

namespace Sys2Proof.Machine

/-! ### Validation (R362, R368) -/

/-- The manifest of the image in slot `k`. -/
def manifestOf (s : State) (k : Nat) : Bytes := imgBytes s k 0 256

/-- The slot holds the image installed at manufacture, whole. -/
def isFactory (s : State) (k : Nat) : Bool := decide (k = 0) && decide (s.tk.fac = 0)

/-- A field of a byte string is all zeros. -/
def zeros (b : Bytes) (a n : Nat) : Bool := decide (at_ b a n = 0)

/-- State of owner slot `k` and its hash (R363). -/
def ownerState (s : State) (k : Nat) : Nat := s.get (K.owner k) % 256
def ownerHash (s : State) (k : Nat) : Bytes := (le 33 (s.get (K.owner k))).drop 1

/-- A public key is that of a signer: the root key for 0, an INSTALLED owner slot for 1 to 4 (R365, R368). -/
def signerOk (s : State) (signer : Nat) (key : Bytes) : Bool :=
  let h := sha3_256 key
  if signer = 0 then decide (h = le 32 (s.get K.rootHash))
  else decide (signer ≤ 4) && decide (ownerState s (signer - 1) = 1) && decide (h = ownerHash s (signer - 1))

/-- Check 9 of Table 13.6: while SEALED_COUNT is above 0, the legal core must be the sealed one. -/
def sealFits (s : State) (k : Nat) : Bool :=
  decide (s.get K.sealedCount = 0) || decide (at_ (manifestOf s k) 40 32 = s.get K.sealedDigest)

/-- The sizes of R361 and check 7. -/
def sizesOk (s : State) (m : Bytes) : Bool :=
  let legal := at_ m 24 4
  let op := at_ m 28 4
  decide (at_ m 18 2 ≤ s.get K.idRomRev) && decide (legal ≤ 1048576) && decide (op ≤ 6815744) && decide (legal % 4096 = 0) &&
    decide (op % 4096 = 0) && decide (4096 + legal + op ≤ 7864320) && decide (at_ m 32 4 + at_ m 36 4 ≤ legal)

/-- Checks 1 to 8 of Table 13.6 on slot `k`: the REASON of the first that fails, or 0.  The image installed at manufacture passes the
checks that its own bytes decide. -/
def bootCheck (s : State) (k : Nat) : Nat :=
  let m := manifestOf s k
  let svnBad := decide (at_ m 16 1 < s.get K.svnCounter)
  if isFactory s k then (if svnBad then 6 else 0)
  else
    let key := imgBytes s k 256 1312
    let legal := at_ m 24 4
    if at_ m 0 2 ≠ 1 ∨ at_ m 2 2 ≠ 4096 ∨ zeros m 104 152 = false ∨ zeros (imgBytes s k 3988 108) 0 108 = false then 1
    else if at_ m 4 4 ≠ 0x2561 then 2
    else if at_ m 8 8 ≠ 0 ∧ at_ m 8 8 ≠ s.get K.idUnitId then 3
    else if signerOk s (at_ m 17 1) key = false then 4
    else if Config.mldsaVerify key (sha3_256 m) (imgBytes s k 1568 2420) = false then 5
    else if svnBad then 6
    else if sizesOk s m = false then 7
    else if sha3_256 (imgBytes s k 4096 legal) ≠ slice m 40 32 then 8
    else if sha3_256 (imgBytes s k (4096 + legal) (at_ m 28 4)) ≠ slice m 72 32 then 9
    else 0

/-- All checks of Table 13.6. -/
def imageCheck (s : State) (k : Nat) : Nat :=
  let c := bootCheck s k
  if c ≠ 0 then c else if sealFits s k then 0 else 10

/-! ### The lease (R374 to R379) -/

/-- LEASE_STATE. -/
def leaseState (s : State) : Nat := s.live K.leaseState

/-- The first eight bytes of a digest as a number. -/
def digest8 (d : Bytes) : Nat := at_ d 0 8

/-- The lease objects follow the lease (Table 13.11). -/
def showHolders (s : State) : State :=
  let s := match s.img.lease with
    | some l => (((s.putLive K.leasePort (match l.holders with | h :: _ => h.port | [] => 0xFF)).putLive K.leaseDigest (ofLe l.digest)).putLive
        K.leaseSize l.size).putLive K.leaseHolders l.holders.length
    | none => (((s.putLive K.leasePort 0xFF).putLive K.leaseDigest 0).putLive K.leaseSize 0).putLive K.leaseHolders 0
  showUnits s

/-- The lease is set, with its state. -/
def setLease (l : Option Lease) (st : Nat) (s : State) : State :=
  showHolders ({ s with img := { s.img with lease := l } }.putLive K.leaseState st)

/-- The lease ends; written units stay in the slot (R379). -/
def endLease (s : State) : State := setLease none 0 s

/-- The caller of a method as a holder (R375). -/
def callerOf (t : Tag) : Holder := { port := portNo t.port, sess := t.sess.getD 0 }

/-- The caller holds the lease. -/
def holds (s : State) (t : Tag) : Bool := match s.img.lease with | some l => decide (callerOf t ∈ l.holders) | none => false

/-- An update method of a holder restarts the 120 s. -/
def touchLease (t : Tag) (s : State) : State :=
  match s.img.lease with
  | some l => if holds s t then { s with img := { s.img with lease := some { l with lastFn := s.fn } } } else s
  | none => s

/-- The answer LEASE-HELD with the port of the first holder and the first bytes of the digest (R376). -/
def answerHeld (i : Nat) (s : State) : State :=
  match s.img.lease with
  | some l => answer i 0x50 (le 1 (match l.holders with | h :: _ => h.port | [] => 0xFF) ++ slice l.digest 0 8) s
  | none => answer i 0x20 [] s

/-- An image is refused: REASON kept and logged (R368, R390). -/
def noteReject (reason port : Nat) (digest : Bytes) (s : State) : State :=
  (s.put K.lastReject reason).event 0x0702 [reason, port, digest8 digest]

/-- The answer IMAGE-REJECTED. -/
def answerReject (i reason port : Nat) (digest : Bytes) (s : State) : State :=
  answer i 0x51 (le 1 reason) (noteReject reason port digest s)

/-- A holder's session ends, or its port is disabled or RETIRED: the last one ends an OPEN or VERIFIED lease (R379). -/
def dropHolders (gone : Holder → Bool) (s : State) : State :=
  match s.img.lease with
  | none => s
  | some l =>
    if leaseState s = 1 ∨ leaseState s = 2 then
      let left := l.holders.filter (fun h => !gone h)
      if left = [] then endLease s else if left = l.holders then s else setLease (some { l with holders := left }) (leaseState s) s
    else s

/-- Erases of every sector of a slot that is not erased are queued. -/
def eraseSlot (k : Nat) (s : State) : State :=
  (slotSecs s k).foldl (fun s sec => if secDirty s sec then tkPush (.erase sec) s else s) s

/-- The WRITE-BLOCKs of an earlier lease that still wait to be programmed into slot `k`: their tag slots. -/
def imageTags (k : Nat) (s : State) : List Nat :=
  s.tk.queue.filterMap (fun j => match j.op with | .image k' _ tag => if k' = k then tag else none | _ => none)

/-- The operation in progress without its units, where it programs slot `k`. -/
def stripImage (k : Nat) (op : TkOp) : TkOp :=
  match op with
  | .image k' us tag => if k' = k then .image k [] none else .image k' us tag
  | x => x

/-- The units of an earlier lease that wait to be programmed into slot `k` are dropped (R375); the operation in progress ends without
counting its units, and its sectors are erased after it. (DEDUCED, log 65) -/
def dropImages (k : Nat) (s : State) : State :=
  match s.tk.queue with
  | [] => s
  | j :: rest =>
    let secs := match j.op with
      | .image k' us _ =>
        if k' = k then (us.filterMap (fun (u : Nat × Bytes) => (imgAddr s k (256 * u.1)).map (fun a => a / 65536))).eraseDups else []
      | _ => []
    let rest := rest.filter (fun x => match x.op with | .image k' _ _ => decide (k' ≠ k) | _ => true)
    let s := setTk (fun t => { t with queue := { j with op := stripImage k j.op } :: rest }) s
    (secs.filter (fun sec => !secDirty s sec)).foldl (fun s sec => tkPush (.erase sec) s) s

/-- A WRITE-BLOCK that still waits for a lease that is gone is answered LEASE-HELD. (DEDUCED, log 65) -/
def lateHeld (i : Nat) (s : State) : State :=
  match getTag s i with
  | some t => if t.wait then answerHeld i s else s
  | none => s

/-- A new lease with one holder: units written under the same DIGEST and SIZE are kept, else the slot is erased (R375); a WRITE-BLOCK of
an earlier lease that waited is then answered LEASE-HELD. (DEDUCED, log 65) -/
def openLease (i : Nat) (t : Tag) (size : Nat) (digest : Bytes) (s : State) : State :=
  let k := targetSlot s
  if size % 4096 ≠ 0 ∨ size < 4096 ∨ 7864320 < size then answer i 0x32 [] s
  else if (slotSecs s k).length < (size + 65535) / 65536 then answerReject i 11 (portNo t.port) digest s
  else
    let x := getSlot s k
    let same := decide (x.size = size ∧ x.digest = digest)
    let gone := if same then [] else imageTags k s
    let s := if same then s
      else eraseSlot k (showManifest k (setSlot k { size := size, digest := digest, units := [] } (dropImages k s)))
    let s := s.put (K.imSlotState k) 1
    let s := setLease (some { holders := [callerOf t], size := size, digest := digest, lastFn := s.fn }) 1 s
    let s := gone.foldl (fun s j => lateHeld j s) s
    answer i 0 (le 1 k ++ le 2 (getSlot s k).units.length) s

/-- The activation is past recall: from B − 16 on, and in the health check (R379). -/
def handFixed (s : State) : Bool :=
  match s.img.hand with
  | some h => decide (leaseState s = 4) || decide (h.b ≤ s.fn + 16)
  | none => decide (leaseState s = 4)

/-- UPDATE_OPEN (R375, R376): opens, joins or forces the lease. (DEDUCED, log 65) -/
def execUpdateOpen (slot : Fin 48) (s : State) : Host.Outcome State Fault Refusal :=
  .next (runMethod slot.val K.updateOpen (fun n => decide (n = 37)) (fun t o s =>
    let i := slot.val
    let size := at_ o.data 0 4
    let digest := slice o.data 4 32
    let flags := at_ o.data 36 1
    let ok := fun (s : State) => answer i 0 (le 1 (targetSlot s) ++ le 2 (getSlot s (targetSlot s)).units.length) s
    if 4 ≤ flags then answer i 0x32 [] s
    else if bit flags 1 ∧ ¬(t.port = .spi ∧ roleOf s t = 5) then answer i 0x20 [] s
    else if handFixed s then answer i 0x10 [] s
    else match s.img.lease with
      | none => openLease i t size digest s
      | some l =>
        if bit flags 1 ∧ (leaseState s = 1 ∨ leaseState s = 2) then
          let s := s.event 0x0704 [match l.holders with | h :: _ => h.port | [] => 0xFF, digest8 l.digest]
          openLease i t size digest (endLease s)
        else if holds s t then ok (touchLease t s)
        else if bit flags 0 ∧ leaseState s = 1 ∧ l.size = size ∧ l.digest = digest then
          (if 4 ≤ l.holders.length then answer i 0x10 [] s
           else ok (setLease (some { l with holders := l.holders ++ [callerOf t], lastFn := s.fn }) 1 s))
        else answerHeld i s) s)

/-- The data of a unit that is written, or on its way to the slot. -/
def unitData (s : State) (k u : Nat) : Option Bytes :=
  if u ∈ (getSlot s k).units then some (imgBytes s k (256 * u) 256)
  else s.tk.queue.findSome? (fun j => match j.op with
    | .image k' us _ => if k' = k then (us.find? (fun e => decide (e.1 = u))).map (fun e => e.2) else none
    | _ => none)

/-- A block cut into units. -/
def blockUnits (off : Nat) (d : Bytes) : List (Nat × Bytes) :=
  (List.range ((d.length + 255) / 256)).map (fun i => (off / 256 + i, slice d (256 * i) 256))

/-- WRITE_BLOCK (R377): a block of the image; units already written with identical data are skipped. -/
def execWriteBlock (slot : Fin 48) (s : State) : Host.Outcome State Fault Refusal :=
  .next (runMethod slot.val K.writeBlock (fun n => decide (5 ≤ n ∧ n ≤ 4100)) (fun t o s =>
    let i := slot.val
    let off := at_ o.data 0 4
    let d := o.data.drop 4
    let past := match s.img.lease with | some l => decide (l.size < off + d.length) || (decide (d.length % 256 ≠ 0) && decide (off + d.length ≠ l.size))
                                       | none => decide (d.length % 256 ≠ 0)
    if decide (off % 256 ≠ 0) || past then answer i 0x32 [] s
    else if holds s t = false then answerHeld i s
    else if leaseState s ≠ 1 then answer i 0x10 [] s
    else
      let s := touchLease t s
      let k := targetSlot s
      let us := blockUnits off d
      if us.any (fun u => match unitData s k u.1 with | some x => decide (x ≠ u.2) | none => false) then
        answerReject i 12 (portNo t.port) (match s.img.lease with | some l => l.digest | none => []) s
      else
        let fresh := us.filter (fun u => decide (unitData s k u.1 = none))
        if us.all (fun u => decide (u.1 ∈ (getSlot s k).units)) then answer i 0 (le 2 (getSlot s k).units.length) s
        else tkPush (.image k fresh (some i)) (holdTag i s)) s)

/-- VERIFY (R378): the slot is read back and checked; on failure it is erased. (DEDUCED, log 65) -/
def execVerify (slot : Fin 48) (s : State) : Host.Outcome State Fault Refusal :=
  .next (runMethod slot.val K.verify (fun n => decide (n = 0)) (fun t _ s =>
    let i := slot.val
    if holds s t = false then answerHeld i s
    else if leaseState s ≠ 1 ∧ leaseState s ≠ 2 then answer i 0x10 [] s
    else
      let s := touchLease t s
      let k := targetSlot s
      match s.img.lease with
      | none => s
      | some l =>
        let x := getSlot s k
        if x.units.length < l.size / 256 then answerReject i 13 (portNo t.port) l.digest s
        else
          let c := imageCheck s k
          let m := manifestOf s k
          if c = 0 then
            let s := (setLease (some { l with lastFn := s.fn }) 2 s).put (K.imSlotState k) 2
            answer i 0 (slice m 40 4 ++ slice m 16 1 ++ slice m 17 1) s
          else
            let s := eraseSlot k (setSlot k { x with units := [] } s)
            let s := setLease (some { l with lastFn := s.fn }) 1 ((showManifest k s).put (K.imSlotState k) 1)
            answerReject i c (portNo t.port) l.digest s) s)

/-- A scheduled activation is taken back: its commit goes, and the image is VERIFIED again. (DEDUCED, log 65) -/
def cancelHand (s : State) : State :=
  let s := { s with commits := s.commits.filter (fun c => c.done || (match c.eff with | .activate _ => false | _ => true)) }
  let s := { s with img := { s.img with hand := none } }
  (s.putLive K.activateB 0).putLive K.leaseState 2

/-- ABORT (R379): ends an OPEN or VERIFIED lease, or cancels an activation up to B − 16; past that it is BUSY for every caller.
(DEDUCED, log 65) -/
def execAbort (slot : Fin 48) (s : State) : Host.Outcome State Fault Refusal :=
  .next (runMethod slot.val K.abort (fun n => decide (n = 0)) (fun t _ s =>
    let i := slot.val
    if handFixed s then answer i 0x10 [] s
    else if holds s t = false then answerHeld i s
    else if leaseState s = 3 then answer i 0 [] (cancelHand (touchLease t s))
    else answer i 0 [] (endLease s)) s)

/-- LEASE_EXPIRY (R379): 120 s without an update method from any holder. -/
def execLeaseExpiry (s : State) : Host.Outcome State Fault Refusal :=
  .next (match s.img.lease with
    | some l =>
      if (leaseState s = 1 ∨ leaseState s = 2) ∧ l.lastFn + 122880 ≤ s.fn then
        endLease (s.event 0x0703 [match l.holders with | h :: _ => h.port | [] => 0xFF, (getSlot s (targetSlot s)).units.length])
      else s
    | none => s)

/-! ### Owner keys (R363 to R366) -/

/-- The four slot states as STATE_BEFORE holds them. -/
def ownerStates (s : State) : Nat := sumN ((List.range 4).map (fun k => 4 ^ k * ownerState s k))

/-- The number of the first check of R365 that a key command fails, 0 when it passes. -/
def keyCheck (s : State) (d : Bytes) : Nat :=
  let op := at_ d 2 1
  let k := at_ d 3 1
  let signer := at_ d 13 1
  let key := slice d 48 1312
  if at_ d 0 2 ≠ 1 ∨ (op ≠ 1 ∧ op ≠ 2) ∨ 3 < k ∨ (at_ d 4 8 ≠ 0 ∧ at_ d 4 8 ≠ s.get K.idUnitId) then 1
  else if at_ d 12 1 ≠ ownerStates s then 2
  else if signerOk s signer key = false then 3
  else if Config.mldsaVerify key (sha3_256 (slice d 0 48)) (slice d 1360 2420) = false then 4
  else if op = 1 then (if ownerState s k = 0 then 0 else 5)
  else if ownerState s k = 1 ∧ at_ (manifestOf s (s.get K.activeSlot)) 17 1 ≠ k + 1 then 0 else 5

/-- KEY_COMMAND (R364, R365): installs or revokes an owner key. -/
def execKeyCommand (slot : Fin 48) (s : State) : Host.Outcome State Fault Refusal :=
  .next (runMethod slot.val K.keyCommand (fun n => decide (n = 3780)) (fun t o s =>
    let d := o.data
    let c := keyCheck s d
    if c ≠ 0 then answer slot.val 0x20 (le 1 c) s
    else
      let op := at_ d 2 1
      let k := at_ d 3 1
      let s := s.put (K.owner k) (if op = 1 then 1 + 256 * at_ d 16 32 else 2 + 256 * (s.get (K.owner k) / 256))
      let other := 1 - s.get K.activeSlot
      let s := if op = 2 ∧ s.get (K.imSlotState other) ≠ 0 ∧ at_ (manifestOf s other) 17 1 = k + 1 then s.put (K.imSlotState other) 5 else s
      let s := s.event 0x0706 [op, k, at_ d 13 1]
      answer slot.val 0 [] (legalNote 0 s.fn (portNo t.port) (roleOf s t) 1 K.keyCommand s)) s)

end Sys2Proof.Machine
end

