-- ==== Sys2Proof/Machine/Handover.lean ====
section
/-! DEFINITION. The handover to a new image, its health check and the revert (R369, R380 to R386). -/

namespace Sys2Proof.Machine

/-- The identity objects of the image that governs from frame `f`: CHECK, LEGAL_DIGEST, OP_VERSION (R263, R362). -/
def showImage (f k : Nat) (s : State) : State :=
  let m := manifestOf s k
  ((s.putDue f K.idCheck (at_ m 40 4)).putDue f K.idLegalDigest (at_ m 40 32)).putDue f K.idOpVersion (at_ m 20 4)

/-- A request that the restart of the operational core catches (Table 13.8): not started, it gets frame status RETRY; started, each
operation that it has not executed is answered RETRY. -/
def retryTag (i : Nat) (t : Tag) (s : State) : State :=
  if t.fin ≠ none then s
  else if t.begun then
    finishTag i { t with res := t.res ++ (t.ops.drop t.res.length).map (fun o => ⟨o.code, o.idx, o.sub, 0x11, []⟩) } s
  else failTag i t 0x11 s

/-- The operational core restarts from a slot (R381, R382): requests are answered, transactions, pins and subscriptions end, handshakes,
frames not parsed, notifications in RING-13 and those in operational-core memory are lost; sessions, PLC membership and RING-5, RING-7 and
RING-8 persist. (DEDUCED, log 66) -/
def restartCore (s : State) : State :=
  let s := (usedTags s).foldl (fun s e => retryTag e.1 e.2 s) s
  let s := endTxns (fun _ => true) s
  let s := setSrv (fun v => { v with subs := [], ring13 := [], inq := [], net := [], hello := [], hands := [], busy := false }) s
  let s := { s with plc := { s.plc with queue := [], wait := [], frags := [], asked := [] }, t1s := { s.t1s with cache := [] } }
  { s with ready := false, jobs := s.jobs.map (fun j => { j with ack := .none }) }

/-- HANDOVER_PREPARED (R381): the idle banks hold the new legal core and microcode, or the activation is cancelled. -/
def execHandoverPrepared (ok : Bool) (s : State) : Host.Outcome State Fault Refusal :=
  .next (match s.img.hand with
    | some h =>
      if h.prepared = false ∧ s.fn + 16 < h.b then
        if ok then setHand (some { h with prepared := true }) s
        else
          let l := s.img.lease
          cancelHand (noteReject 8 (match l with | some x => (match x.holders with | a :: _ => a.port | [] => 0xFF) | none => 0xFF)
            (match l with | some x => x.digest | none => []) s)
      else s
    | none => s)

/-- HANDOVER_QUIESCE (R381): from B − 16 the object server starts no request and begins no COMMIT validation. (DEDUCED, log 66) -/
def execHandoverQuiesce (s : State) : Host.Outcome State Fault Refusal :=
  .next (match s.img.hand with
    | some h => if h.prepared ∧ h.quiet = false ∧ h.b ≤ s.fn + 16 then setHand (some { h with quiet := true }) s else s
    | none => s)

/-- HANDOVER_AT_B (R381): frame B begins; the operational core restarts from the new slot. (DEDUCED, log 66) -/
def execHandoverAtB (s : State) : Host.Outcome State Fault Refusal :=
  .next (match s.img.hand with
    | some h =>
      if h.quiet ∧ h.begun = false ∧ h.b ≤ s.fn then
        let s := restartCore (setHand (some { h with begun := true }) s)
        ((s.putLive K.leaseState 4).put (K.imSlotState h.slot) 4).putLive K.healthLeft 1024
      else s
    | none => s)

/-- HANDOVER_BANK_SWITCH (R381): at B + 1 the Hallmark core and the Tannery switch banks; frame B carries the new CHECK. -/
def execHandoverBankSwitch (s : State) : Host.Outcome State Fault Refusal :=
  .next (match s.img.hand with
    | some h =>
      if h.begun ∧ h.switched = false ∧ h.b + 1 ≤ s.fn then showImage h.b h.slot (setHand (some { h with switched := true }) s) else s
    | none => s)

/-- The lease is FREE and no activation is pending. -/
def clearHand (s : State) : State := ((endLease (setHand none s)).putLive K.activateB 0).putLive K.healthLeft 0

/-- SVN_COUNTER advances to the SVN of an image that passed (R369). -/
def advanceSvn (svn : Nat) (s : State) : State :=
  let old := s.get K.svnCounter
  if old < svn then (s.put K.svnCounter svn).event 0x0707 [old, svn] else s

/-- HEALTH_CHECK_PASS (R384): the image becomes active, and the old slot the fallback unless its SVN is now too low. -/
def execHealthCheckPass (s : State) : Host.Outcome State Fault Refusal :=
  .next (match s.img.hand with
    | some h =>
      if h.pass then
        let old := s.get K.activeSlot
        let mo := manifestOf s old
        let mn := manifestOf s h.slot
        let s := advanceSvn (at_ mn 16 1) ((s.put K.activeSlot h.slot).put (K.imSlotState h.slot) 3)
        let s := s.put (K.imSlotState old) (if at_ mo 16 1 < s.get K.svnCounter then 5 else 2)
        let s := (s.bump K.activations).event 0x0700 [h.slot, at_ mo 40 4, at_ mn 40 4, at_ mo 20 4, at_ mn 20 4, h.b]
        clearHand s
      else s
    | none => s)

/-- IMAGE_REVERT (R385): at B' = H + 2 Ozmar hands back to the old image; the new slot is INVALID. -/
def execImageRevert (s : State) : Host.Outcome State Fault Refusal :=
  .next (match s.img.hand with
    | some h =>
      match h.fail with
      | some (cause, f) =>
        if f + 2 ≤ s.fn then
          let old := s.get K.activeSlot
          let s := showImage s.fn old (restartCore (s.put (K.imSlotState h.slot) 5))
          clearHand ((s.bump K.reverts).event 0x0701 [old, cause, f])
        else s
      | none => s
    | none => s)

end Sys2Proof.Machine
end

