-- ==== Sys2Proof/Machine/Ports.lean ====
section
/-! DEFINITION. Sessions of the ports (R243, R255, R257, R259, R291 to R295): HELLO, the end of a session, authentication of network
frames, subscriptions. -/

namespace Sys2Proof.Machine

/-! ### Retry runs of the ports (R215, R233) -/

/-- The state of a port that no object shows (Table 8.1). -/
def portUnit (s : State) (p : Nat) : UnitS := tget {} s.units (unitKey 6 p)

/-- It is set. -/
def setPortUnit (p : Nat) (u : UnitS) (s : State) : State := { s with units := tset {} s.units (unitKey 6 p) u }

/-- A port changes state, and the change is logged. -/
def portSet (p st cause : Nat) (s : State) : State :=
  let s := s.putV (K.portState p) st
  if st = 0 then s.event 0x0301 [6, p] else if st = 1 then s.event 0x0300 [6, p, cause] else s.event 0x0302 [6, p, cause, s.fn]

/-! ### The end of a session -/

/-- Frames that wait for a session are discarded with its keys (R292); the slots of responses among them are free. -/
def dropFrames (p : Port) (sess : Option Nat) (s : State) : State :=
  let gone := s.srv.ring12.filter (fun f => decide (f.port = p) && decide (f.sess = sess))
  let s := gone.foldl (fun s f => leave12 f s) s
  setSrv (fun v => { v with ring13 := v.ring13.filter (fun f => !(decide (f.port = p) && decide (f.sess = sess))) }) s

/-- Requests of a session that are bound and not started complete CANCELLED, and those responses are discarded: their slots are free at
once (R292). -/
def cancelReqs (p : Port) (sess : Option Nat) (s : State) : State :=
  ((usedTags s).filter (fun e => e.2.of p sess && !e.2.begun && decide (e.2.fin = none))).foldl (fun s e => freeTag e.1 s) s

/-- Transactions are rolled back and subscriptions removed (R243). -/
def dropWork (p : Port) (sess : Option Nat) (s : State) : State :=
  let s := endTxns (fun x => decide (x.port = p) && decide (x.sess = sess)) s
  setSrv (fun v => { v with subs := v.subs.filter (fun x => !(decide (x.port = p) && decide (x.sess = sess))) }) s

/-- The session in slot `k` ends (R292, R293, R379). -/
def endSess (k : Nat) (s : State) : State :=
  match getSess s k with
  | none => s
  | some x =>
    if x.port = .spi then
      let s := cancelReqs .spi none (dropWork .spi none (setSess k none s))
      dropHolders (fun h => decide (h.port = 0)) s
    else
      let s := dropWork x.port (some k) (cancelReqs x.port (some k) s)
      let s := dropFrames x.port (some k) (setSess k none s)
      let s := setSrv (fun v => { v with inq := v.inq.filter (fun r => !(decide (r.port = x.port) && decide (r.sess = some k))) }) s
      dropHolders (fun h => decide (h.port = portNo x.port) && decide (h.sess = k)) s

/-- The open sessions. -/
def openSess (s : State) : List (Nat × Sess) := s.srv.sess.filterMap (fun e => e.2.map (fun x => (e.1, x)))

/-- The session of a network host, by address and UDP port (R293). -/
def sessOf (s : State) (p : Port) (addr sport : Nat) : Option (Nat × Sess) :=
  (openSess s).find? (fun e => decide (e.2.port = p) && decide (e.2.addr = addr) && decide (e.2.sport = sport))

/-- Sessions of a port end. -/
def endPort (p : Port) (s : State) : State :=
  ((openSess s).filter (fun e => decide (e.2.port = p))).foldl (fun s e => endSess e.1 s) s

/-- The session after a frame: the first frame of a message takes the counters of all its frames (R271). -/
def sentFrame (x : Sess) (f : OutFrame) : Sess :=
  let rest := x.held.filter (fun e => decide (e.1 ≠ f.tag))
  { x with next := if f.part = 0 then x.next + max 1 f.parts else x.next,
           held := if bit f.flags 1 = false then rest else if f.part = 0 then (f.tag, x.next) :: rest else x.held }

/-- The sender's counter advances with a protected frame; the session ends before the counter reaches 2^64 − 1 (R294). -/
def stepCounter (f : OutFrame) (s : State) : State :=
  if f.clear then s
  else match f.sess with
    | some k => (match getSess s k with
      | some x => if x.port = .spi then s
        else if 2 ^ 64 - 1 ≤ (sentFrame x f).next then endSess k s else setSess k (some (sentFrame x f)) s
      | none => s)
    | none => s

/-- SESSION_TIMEOUT (R293): a network session without an authenticated request for SESSION_TIMEOUT seconds ends. (DEDUCED, log 29) -/
def execSessionTimeout (k : Fin 16) (s : State) : Host.Outcome State Fault Refusal :=
  .next (match getSess s k.val with
    | some x => if x.port ≠ .spi ∧ x.last + 1024 * s.cfg s.fn K.sesSessionTimeout ≤ s.fn then endSess k.val s else s
    | none => s)

/-- END_SESSION (R293): the session in a given slot ends. (DEDUCED, log 29) -/
def execEndSession (slot : Fin 48) (s : State) : Host.Outcome State Fault Refusal :=
  .next (runMethod slot.val K.sesEndSession (fun n => decide (n = 1)) (fun _ o s =>
    let k := at_ o.data 0 1
    if getSess s k = none then answer slot.val 0x32 [] s else endSess k (answer slot.val 0 [] s)) s)

/-! ### HELLO (R291, R292) -/

/-- The data of a HELLO frame. -/
def helloData (r : ReqFrame) : Bytes := match opsOf (r.bytes.drop 16) with | some [o] => o.data | _ => []

/-- The oldest HELLO frame of a port with a step that its FN does not hold (R268). -/
def nextHello (p : Port) (want : Bytes → Bool) (s : State) : Option ReqFrame :=
  s.srv.hello.find? (fun r => decide (r.port = p) && want (helloData r) && decide ((hdrOf r.bytes).fn ≤ s.fn))

/-- A HELLO frame is taken from the queue. -/
def dropHello (r : ReqFrame) (s : State) : State := setSrv (fun v => { v with hello := v.hello.erase r }) s

/-- The handshakes in progress. -/
def openHands (s : State) : List (Nat × Handshake) := s.srv.hands.filterMap (fun e => e.2.map (fun x => (e.1, x)))

/-- The handshake that a host opened. -/
def handOf (s : State) (p : Port) (addr sport : Nat) : Option (Nat × Handshake) :=
  (openHands s).find? (fun e => decide (e.2.port = p) && (decide (p = .spi) || (decide (e.2.addr = addr) && decide (e.2.sport = sport))))

/-- A handshake slot is set. -/
def setHandshake (i : Nat) (x : Option Handshake) (s : State) : State := setSrv (fun v => { v with hands := tset none v.hands i x }) s

/-- The session that a HELLO of this host would replace. -/
def oldSess (s : State) (p : Port) (addr sport : Nat) : Option (Nat × Sess) := if p = .spi then spiSess s else sessOf s p addr sport

/-- The ports of the sessions that hosts other than this one hold or have begun to open: a handshake in progress that replaces no
session counts as one (R293). (DEDUCED, log 30) -/
def otherSess (s : State) (p : Port) (addr sport : Nat) : List Port :=
  let own := (oldSess s p addr sport).map (fun o => o.1)
  let mine := (handOf s p addr sport).map (fun h => h.1)
  ((openSess s).filter (fun e => decide (some e.1 ≠ own))).map (fun e => e.2.port) ++
    ((openHands s).filter (fun e => decide (some e.1 ≠ mine) && decide (oldSess s e.2.port e.2.addr e.2.sport = none))).map (fun e => e.2.port)

/-- A step 1 finds no room for its session (R293). -/
def sessFull (s : State) (p : Port) (addr sport : Nat) : Bool :=
  let others := otherSess s p addr sport
  decide (16 ≤ others.length) || (decide (p ≠ .spi) && decide (8 ≤ (others.filter (fun q => decide (q = p))).length))

/-- A device ID: non-zero and unlike those in use, from a free number. (DESIGN CHOICE, log 4) -/
def deviceId (s : State) (v : Nat) : Nat :=
  let used := (openSess s).map (fun e => e.2.dev) ++ (openHands s).map (fun e => e.2.dev)
  (((List.range 32).map (fun i => (v + i) % 2 ^ 32)).find? (fun n => decide (n ≠ 0) && decide (n ∉ used))).getD 1

/-- The answer to a HELLO. -/
def helloFrame (r : ReqFrame) (s : State) (sess : Option Nat) (clear : Bool) (data : Bytes) : OutFrame :=
  { port := r.port, sess := sess, addr := r.addr, sport := r.sport, tag := 0xFF, fn := s.fn, data := opBytes ⟨0x60, 0, 0, 0, data⟩,
    clear := clear && decide (r.port ≠ .spi) }

/-- No completed response of a port waits for room in its share (R275). -/
def noneDone (s : State) (p : Port) : Bool :=
  s.srv.done.all (fun i => match getTag s i with | some t => decide (t.port ≠ p) | none => true)

/-- The share of a port has room for an answer to HELLO, and no response that completed before it waits (R275). (DEDUCED, log 30) -/
def helloRoom (s : State) (p : Port) : Bool := decide (shareUsed s p false + 6 ≤ shareOf p - 16) && noneDone s p

/-- The handshake that a step 1 opens, with its device ID and device nonce from free values. (DESIGN CHOICE, log 4) -/
def openHand (r : ReqFrame) (v n : Nat) (s : State) : Handshake :=
  let d := helloData r
  ⟨r.port, r.addr, r.sport, at_ d 1 1, at_ d 2 4, deviceId s v, slice d 6 16, le 16 n, s.fn⟩

/-- The answer to a step 1, and its handshake in slot `i`. -/
def answerStep1 (r : ReqFrame) (i : Nat) (h : Handshake) (s : State) : State :=
  push12 (helloFrame r s none true (le 1 1 ++ le 1 h.role ++ le 4 h.dev ++ h.dn)) (setHandshake i (some h) s)

/-- A step 1 is answered or refused. (DEDUCED, log 30) -/
def helloOne (r : ReqFrame) (s : State) : State :=
  let d := helloData r
  let old := handOf s r.port r.addr r.sport
  if d.length ≠ 22 then refuse r 0xFF 0x31 s
  else if at_ d 0 1 ≠ 1 ∨ 5 < at_ d 1 1 ∨ at_ d 2 4 = 0 then refuse r 0xFF 0x32 s
  else if (old = none ∧ 8 ≤ (openHands s).length) ∨ sessFull s r.port r.addr r.sport then refuse r 0xFF 0x10 s
  else
    let i := match old with | some e => e.1 | none => ((List.range 8).find? (fun i => decide (tget none s.srv.hands i = none))).getD 0
    let (v, s) := s.draw
    let (n, s) := s.drawBytes 16
    answerStep1 r i (openHand r v n s) s

/-- HELLO_STEP1 (R291): a handshake opens, and the device ID and nonce are returned. -/
def execHelloStep1 (port : Port) (s : State) : Host.Outcome State Fault Refusal :=
  .next (if serverRuns s ∧ helloRoom s port then
    match nextHello port (fun d => decide (at_ d 0 1 ≠ 2)) s with
    | none => s
    | some r => helloOne r (dropHello r s)
  else s)

/-- HANDSHAKE_EXPIRY (R291): 1,024 frames after its step-1 response. -/
def execHandshakeExpiry (i : Fin 8) (s : State) : Host.Outcome State Fault Refusal :=
  .next (match tget none s.srv.hands i.val with
    | some h => if h.fn + 1024 ≤ s.fn then setHandshake i.val none s else s
    | none => s)

/-- The key of a role: 32 zero bytes for PUB; none while it is not installed (R292). -/
def roleKey (s : State) (r : Nat) : Option Bytes :=
  if r = 0 then some (List.replicate 32 0)
  else
    let k := s.cfg s.fn (K.sesRoleKey (r - 1))
    if k = 0 then none else some (le 32 k)

/-- "BRIDLE-SESSION-2". -/
def helloLabel : Bytes := [0x42, 0x52, 0x49, 0x44, 0x4C, 0x45, 0x2D, 0x53, 0x45, 0x53, 0x53, 0x49, 0x4F, 0x4E, 0x2D, 0x32]

/-- The 96 bytes that both ends derive (R292). -/
def okmOf (s : State) (h : Handshake) : Option Bytes :=
  (roleKey s h.role).map (fun k => shake256 (k ++ helloLabel ++ le 1 h.role ++ le 4 h.host ++ le 4 h.dev ++ h.hn ++ h.dn) 96)

/-- A proof that fails opens nothing (R292). -/
def helloDenied (r : ReqFrame) (s : State) : State := refuse r 0xFF 0x20 (s.bump K.sesHelloDenied)

/-- A session opens in the lowest free slot; H and the window begin with the counter of step 2 (R295). -/
def openSession (r : ReqFrame) (h : Handshake) (okm : Bytes) (s : State) : State :=
  let s := match oldSess s r.port r.addr r.sport with
    | some e => endSess e.1 s
    | none => if r.port = .spi then dropWork .spi none s else s
  let k := ((List.range 16).find? (fun k => decide (getSess s k = none))).getD 0
  let x : Sess := { port := r.port, addr := r.addr, sport := r.sport, role := h.role, host := h.host, dev := h.dev, kin := slice okm 0 32,
                    kout := slice okm 32 32, high := r.ctr, win := [r.ctr], last := s.fn, opened := s.fn }
  let s := setSess k (some x) s
  push12 (helloFrame r s (if r.port = .spi then none else some k) false
    (le 1 2 ++ slice okm 80 16 ++ le 1 k ++ le 2 (s.cfg s.fn K.sesSessionTimeout))) s

/-- A step 2 opens its session, or is refused. (DEDUCED, log 30) -/
def helloTwo (r : ReqFrame) (s : State) : State :=
  let d := helloData r
  if d.length ≠ 17 then refuse r 0xFF 0x31 s
  else match handOf s r.port r.addr r.sport with
    | none => helloDenied r s
    | some (i, h) =>
      match okmOf s h with
      | some okm =>
        if slice okm 64 16 ≠ d.drop 1 then helloDenied r (setHandshake i none s)
        else if sessFull s r.port r.addr r.sport then refuse r 0xFF 0x10 (setHandshake i none s)
        else openSession r h okm (setHandshake i none s)
      | none => helloDenied r (setHandshake i none s)

/-- HELLO_STEP2 (R292): the host's proof is checked, and a session with the requested role opens. -/
def execHelloStep2 (port : Port) (s : State) : Host.Outcome State Fault Refusal :=
  .next (if serverRuns s ∧ helloRoom s port then
    match nextHello port (fun d => decide (at_ d 0 1 = 2)) s with
    | none => s
    | some r => helloTwo r (dropHello r s)
  else s)

/-! ### Network frames (R294, R295) -/

/-- A payload is that of a HELLO with the given step. -/
def isHello (step : Nat) (pay : Bytes) : Bool :=
  match opsOf pay with | some [o] => decide (o.code = 0x60) && decide (at_ o.data 0 1 = step) | _ => false

/-- A frame is a HELLO step 1: unprotected, with a zero trailer; one with a TAG other than 0xFF is answered RANGE (R266). -/
def isStep1 (pay trailer : Bytes) : Bool := isHello 1 pay && trailer.all (fun b => decide (b = 0))

/-- An authenticated frame enters its request ring, or is refused BUSY (R15). -/
def acceptNet (r : ReqFrame) (n : Nat) (s : State) : State :=
  let s := if r.port = .plc then s else s.bumpLive K.t1sRxFrames
  let ring := if r.port = .plc then 11 else 10
  let used := sumN (s.srv.inq.filterMap (fun f => if f.port = r.port then some f.units else none))
  if used + creditUnits r.port n ≤ 1024 then
    setSrv (fun v => { v with inq := v.inq ++ [{ r with units := creditUnits r.port n, ord := v.ord }], ord := v.ord + 1 }) s
  else refuse r (at_ r.bytes 2 1) 0x10 (s.bump (K.stalls ring))

/-- A counter was received, or lies below the window (R295). -/
def isReplay (x : Sess) (c : Nat) : Bool := decide (c + 64 ≤ x.high) || decide (c ∈ x.win)

/-- A frame of an open session: its tag is verified, then its counter is checked against the window. -/
def netSession (r : ReqFrame) (k : Nat) (y : Sess) (head body tag : Bytes) (ctr n : Nat) (s : State) : State :=
  match gcmOpen y.kin (le 4 y.host ++ le 8 ctr) head body tag with
  | none => s.bump K.sesAuthFails
  | some p =>
    if isReplay y ctr then s.bump K.sesReplays
    else if ctr = 2 ^ 64 - 1 then endSess k s
    else
      let hi := max y.high ctr
      let y := { y with high := hi, win := (ctr :: y.win).filter (fun c => decide (hi < c + 64)), last := s.fn }
      acceptNet { r with bytes := head ++ p, sess := some k, ctr := ctr } n (setSess k (some y) s)

/-- The payload of a HELLO frame with TAG 0xFF under the key of its handshake, where the tag verifies. -/
def openHello (s : State) (tg : Nat) (x : Handshake) (head body tag : Bytes) (ctr : Nat) : Option Bytes :=
  if tg = 0xFF then
    (match okmOf s x with
     | some okm => gcmOpen (slice okm 0 32) (le 4 x.host ++ le 8 ctr) head body tag
     | none => none)
  else none

/-- A frame without handshake: one of a session, or discarded. -/
def netPlain (r : ReqFrame) (head body tag : Bytes) (ctr n : Nat) (s : State) : State :=
  match sessOf s r.port r.addr r.sport with
  | some e => netSession r e.1 e.2 head body tag ctr n s
  | none => s.bumpLive (rxDiscarded r.port)

/-- A frame of a host with handshake `i`: a step 2 under the new key, or one of its older session, or discarded; a failed step 2 counts in
AUTH_FAILS, and any other frame under the new key is one of no session (R295). -/
def netHand (r : ReqFrame) (i : Nat) (opened : Option Bytes) (tg : Nat) (head body tag : Bytes) (ctr n : Nat) (s : State) : State :=
  match opened with
  | some p => if isHello 2 p then acceptNet { r with bytes := head ++ p, hs := some i, ctr := ctr } n s else s.bumpLive (rxDiscarded r.port)
  | none =>
    if sessOf s r.port r.addr r.sport = none ∧ tg = 0xFF then s.bump K.sesAuthFails else netPlain r head body tag ctr n s

/-- A network frame is authenticated (R295). -/
def netAccept (r : ReqFrame) (s : State) : State :=
  let h := hdrOf r.bytes
  let head := r.bytes.take 16
  let body := slice r.bytes 16 h.len
  let trailer := r.bytes.drop (16 + h.len)
  let ctr := at_ trailer 0 8
  let tag := slice trailer 8 16
  if r.bytes.length ≠ 40 + h.len then s.bumpLive (rxDiscarded r.port)
  else if isStep1 body trailer then acceptNet { r with bytes := head ++ body } h.len s
  else match handOf s r.port r.addr r.sport with
    | some e => netHand r e.1 (openHello s h.tag e.2 head body tag ctr) h.tag head body tag ctr h.len s
    | none => netPlain r head body tag ctr h.len s

/-- BRIDLE_NETWORK_FRAME (R295): the oldest frame received on a network port is authenticated, and accepted or discarded. -/
def execBridleNetworkFrame (port : Port) (s : State) : Host.Outcome State Fault Refusal :=
  .next (match s.srv.net.find? (fun r => decide (r.port = port)) with
    | none => s
    | some r =>
      let s := setSrv (fun v => { v with net := v.net.erase r }) s
      if serverRuns s && !portOff s port then netAccept r s else s)

/-! ### Subscriptions (R257, R259) -/

/-- The first watched object refused, with its status (R257). -/
def subRefused (s : State) (t : Tag) (trig : Nat) (ks : List Nat) : Option (Nat × Nat) :=
  (ks.findSome? (fun k => match rowOf k with
    | none => some (0x30, k)
    | some r => if r.ty = .method ∨ r.has 4 = false then some (0x31, k) else if roleOf s t < r.rd then some (0x20, k) else none)).orElse fun _ =>
  if trig = 2 ∨ trig = 3 then
    (match rowOf (ks.headD 0) with
     | some r => (match r.ty with | .u _ => none | .i _ => none | _ => some (0x31, ks.headD 0))
     | none => none)
  else none

/-- SUBSCRIBE (R257, R259): a subscription on up to 16 V objects. -/
def execSubscribe (slot : Fin 48) (s : State) : Host.Outcome State Fault Refusal :=
  .next (runOp slot.val (fun o => decide (o.code = 0x50)) (fun t o s =>
    let i := slot.val
    let d := o.data
    let n := at_ d 1 1
    let trig := at_ d 0 1
    let param := at_ d 2 2
    if d.length < 16 ∨ d.length ≠ 16 + 3 * n then answer i 0x31 [] s
    else if 3 < trig ∨ n < 1 ∨ 16 < n ∨ (trig = 1 ∧ param = 0) then answer i 0x32 [] s
    else
      let ks := listedKeys (d.drop 16) n
      match subRefused s t trig ks with
      | some (st, k) => answer i st (le 2 (k / 256) ++ le 1 (k % 256)) s
      | none =>
        let mine := s.srv.subs.filter (fun x => decide (x.port = t.port) && decide (x.sess = t.sess))
        if 8 ≤ mine.length ∨ 64 ≤ s.srv.subs.length then answer i 0x10 [] s
        else
          let id := ((List.range 64).find? (fun n => s.srv.subs.all (fun x => decide (x.id ≠ n)))).getD 0
          let first := match s.current with | some p => p.fn + 1 | none => s.fn
          let x : Subn := { id := id, port := t.port, sess := t.sess, trig := trig, param := param, level := toInt 64 (at_ d 4 8),
                            hyst := at_ d 12 4, objs := ks, from_ := first }
          answer i 0 (le 1 id ++ le 6 first) (setSrv (fun v => { v with subs := v.subs ++ [x] }) s)) s)

/-- UNSUBSCRIBE (R256): one subscription of the session, or all of them. (DEDUCED, log 33) -/
def execUnsubscribe (slot : Fin 48) (s : State) : Host.Outcome State Fault Refusal :=
  .next (runOp slot.val (fun o => decide (o.code = 0x51)) (fun t o s =>
    if o.data.length ≠ 1 then answer slot.val 0x31 [] s
    else
      let id := at_ o.data 0 1
      let gone := fun (x : Subn) => decide (x.port = t.port) && decide (x.sess = t.sess) && (decide (id = 0xFF) || decide (x.id = id))
      let n := (s.srv.subs.filter gone).length
      answer slot.val 0 (le 1 n) (setSrv (fun v => { v with subs := v.subs.filter (fun x => !gone x) }) s)) s)

end Sys2Proof.Machine
end

