-- ==== Sys2Proof/Machine/Ethernet.lean ====
section
/-! DEFINITION. The Ethernet port (R288 to R290): the IPv6 functions that Ozmar implements, transmission of waiting frames, and the end
of the port after a disable. -/

namespace Sys2Proof.Machine

/-- The Ethernet port is set. -/
def setT1s (f : T1s → T1s) (s : State) : State := { s with t1s := f s.t1s }

/-- The two fields of DAD_STATE: of the link-local address, of the unicast address; 0 testing, 1 in use, 2 duplicate, 3 none. -/
def dadField (s : State) (unicast : Bool) : Nat := s.live K.t1sDadState / (if unicast then 4 else 1) % 4

/-- A field of DAD_STATE is set. -/
def setDad (unicast : Bool) (v : Nat) (s : State) : State :=
  let d := s.live K.t1sDadState
  s.putLive K.t1sDadState (if unicast then d % 4 + 4 * v else d / 4 * 4 + v)

/-- Duplicate address detection of the unicast address starts; all zeros is none, and ROM recovery uses the link-local address only
(R289, R388). -/
def dadUnicast (f : Nat) (s : State) : State :=
  setDad true (if s.cfg f K.t1sUnicastAddr = 0 ∨ s.mode = .recovery then 3 else 0) s

/-- The port starts as from power-up (R39, R290): PHY on, addresses under test. -/
def t1sStart (f : Nat) (s : State) : State := dadUnicast f (setDad false 0 (setT1s (fun _ => { phy := true }) s))

/-- The port is up: PHY on, and not past its disable. -/
def t1sUp (s : State) : Bool := s.t1s.phy && !portOff s .t1s && (decide (s.mode = .run) || decide (s.mode = .recovery))

/-- An IPv6 address, kept with its first byte lowest, as a number with its first byte highest. (DEDUCED, log 30) -/
def addrBe (a : Nat) : Nat := (le 16 a).foldl (fun x b => 256 * x + b.toNat) 0

/-- An address is link-local: fe80::/10. -/
def isLinkLocal (a : Nat) : Bool := decide (addrBe a / 2 ^ 118 = 0x3FA)

/-- An address is one of the unit's own that is in use. -/
def ownAddr (s : State) (a : Nat) : Bool :=
  (decide (dadField s false = 1) && decide (a = s.get K.t1sLinkLocal)) ||
  (decide (dadField s true = 1) && decide (a = s.cfg s.fn K.t1sUnicastAddr))

/-- A destination is reached directly or through ROUTER (R289). -/
def reachable (s : State) (a : Nat) : Bool :=
  let n := s.cfg s.fn K.t1sPrefixLen
  isLinkLocal a ||
  (decide (dadField s true = 1) && decide (addrBe a / 2 ^ (128 - n) = addrBe (s.cfg s.fn K.t1sUnicastAddr) / 2 ^ (128 - n))) ||
  (decide (s.cfg s.fn K.t1sRouter ≠ 0) && decide (s.mode ≠ .recovery))

/-- The neighbour cache of 16 entries takes an entry. -/
def noteNeighbour (a mac : Nat) (s : State) : State :=
  setT1s (fun t => { t with cache := ((a, mac) :: t.cache.filter (fun e => decide (e.1 ≠ a))).take 16 }) s

/-- A datagram is one that Ozmar discards and counts (R289). -/
def badDatagram (d : Datagram) : Bool := !d.ipv6 || !d.udp || d.fragment || d.extension || decide (d.dstPort ≠ 49256) || d.multicast

/-- T1S_DATAGRAM_RECEIVE (R289): a datagram is filtered, and a Bridle datagram waits for its authentication. -/
def execT1sDatagramReceive (d : Datagram) (s : State) : Host.Outcome State Fault Refusal :=
  .next (if t1sUp s then
    if badDatagram d then s.bumpLive K.t1sRxDiscarded
    else if serverRuns s && ownAddr s d.dst then
      setSrv (fun v => { v with net := v.net ++
        [{ port := .t1s, addr := d.src, sport := d.srcPort, bytes := d.payload, units := 0, ord := 0, fn := s.fn }] }) s
    else s
  else s)

/-- NEIGHBOUR_SOLICITATION (R289): answered with an advertisement for an address in use; the sender enters the neighbour cache. -/
def execNeighbourSolicitation (target src mac : Nat) (s : State) : Host.Outcome State Fault Refusal :=
  .next (if t1sUp s && ownAddr s target then
    let s := if src = 0 then s else noteNeighbour src mac s
    setT1s (fun t => { t with sent := some (.advert target src) }) s
  else s)

/-- ECHO_REQUEST (R289): answered while ECHO_EN is 1. -/
def execEchoRequest (src : Nat) (s : State) : Host.Outcome State Fault Refusal :=
  .next (if t1sUp s && decide (s.cfg s.fn K.t1sEchoEn = 1) && (decide (dadField s false = 1) || decide (dadField s true = 1)) &&
      reachable s src then
    setT1s (fun t => { t with sent := some (.echoReply src) }) s
  else s)

/-- DUPLICATE_ADDRESS_DETECTION (R289): the test of an address ends; it is used, or marked duplicate. -/
def execDuplicateAddressDetection (unicast duplicate : Bool) (s : State) : Host.Outcome State Fault Refusal :=
  .next (if t1sUp s && decide (dadField s unicast = 0) then setDad unicast (if duplicate then 2 else 1) s else s)

/-- A network port has transmitted a frame. -/
def noteWire (p : Port) (b : Bytes) (s : State) : State :=
  setSrv (fun v => { v with wire := (p, b) :: v.wire.filter (fun e => decide (e.1 ≠ p)) }) s

/-- Where a waiting frame goes: its session's host, or the address that it carries. (DEDUCED, log 31) -/
def outAddr (s : State) (f : OutFrame) : Nat :=
  match f.sess.bind (getSess s) with | some x => x.addr | none => f.addr

/-- A frame leaves RING-12 or RING-13. -/
def leaveRing (r12 : Bool) (f : OutFrame) (s : State) : State := if r12 then leave12 f s else leave13 f s

/-- The oldest frame of a ring that waits for a port. -/
def oldestOut (s : State) (r12 : Bool) (p : Port) : Option OutFrame :=
  (if r12 then s.srv.ring12 else s.srv.ring13).find? (fun f => decide (f.port = p))

/-- The address that a frame for `a` is handed to on the segment: `a` itself on-link, else ROUTER (R289). -/
def nextHop (s : State) (a : Nat) : Nat :=
  let n := s.cfg s.fn K.t1sPrefixLen
  if isLinkLocal a ||
    (decide (dadField s true = 1) && decide (addrBe a / 2 ^ (128 - n) = addrBe (s.cfg s.fn K.t1sUnicastAddr) / 2 ^ (128 - n)))
  then a else s.cfg s.fn K.t1sRouter

/-- An address without an entry in the neighbour cache is solicited.  Whether an advertisement comes back is the segment's, and so is the
MAC address that it gives (R289, RFC 4861). (DESIGN CHOICE, log 93) -/
def resolveHop (a : Nat) (s : State) : Bool × State :=
  if s.t1s.cache.any (fun e => decide (e.1 = a)) then (true, s)
  else
    let (v, s) := s.draw
    let s := setT1s (fun t => { t with sent := some (.solicit a) }) s
    if v % 2 = 0 then (true, noteNeighbour a (v / 2 % 2 ^ 48) s) else (false, s)

/-- The Ethernet port transmits the oldest waiting frame of a ring; one for a host that cannot be reached, or whose neighbour does not
answer, is discarded (R289).
(DEDUCED, log 31) -/
def t1sSend (r12 : Bool) (s : State) : State :=
  match oldestOut s r12 .t1s with
  | none => s
  | some f =>
    if s.t1s.phy && decide (s.mode = .run ∨ s.mode = .recovery) then
      if reachable s (outAddr s f) then
        let h := resolveHop (nextHop s (outAddr s f)) s
        if h.1 then stepCounter f (leaveRing r12 f ((noteWire .t1s (netFrame h.2 f) h.2).bumpLive K.t1sTxFrames))
        else leaveRing r12 f h.2
      else leaveRing r12 f s
    else s

/-- T1S_POWER_DOWN (R290): within 2 frames of B the waiting responses are out; sessions close and the PHY powers down. -/
def execT1sPowerDown (s : State) : Host.Outcome State Fault Refusal :=
  .next (match s.t1s.closeAt with
    | some b =>
      if b ≤ s.fn ∧ (b + 2 ≤ s.fn ∨ (s.srv.ring12.all (fun f => decide (f.port ≠ .t1s)) && noneDone s .t1s)) then
        setT1s (fun _ => {}) (endPort .t1s s)
      else s
    | none => s)

end Sys2Proof.Machine
end

