-- ==== Sys2Proof/Machine/Plc.lean ====
section
/-! DEFINITION. The power-line port (R297 to R303, R315 to R322): membership, neighbours and link costs, routes, frames to and from the
modem, the repeater offer, the stranger detector, and the retirement of routes (R232). -/

namespace Sys2Proof.Machine

/-- The route to a destination: not expired, its neighbour not RETIRED (R232, R315). -/
def routeTo (s : State) (dest : Nat) : Option (Nat × Route) :=
  (routes s).find? (fun e => decide (e.2.dest = dest) && decide (s.fn < e.2.fn + routeLife) &&
    (match nbrOf s e.2.next with | some n => decide (n.2.state ≠ 2) | none => true))

/-- Routes that satisfy a test are removed. -/
def dropRoutes (gone : Route → Bool) (s : State) : State :=
  ((routes s).filter (fun e => gone e.2)).foldl (fun s e => setRoute e.1 none s) s

/-- The modem starts the oldest frame of RING-14, at the level of that moment (R303). (DEDUCED, log 77; DEDUCED, log 96) -/
def forceTx (s : State) : State :=
  match s.plc.ring14 with
  | t :: l => if t.on then s else setPlc (fun p => { p with ring14 := { t with on := true, atten := attenTo s t.next } :: l }) s
  | [] => s

/-- While the channel is busy-foreign no new transmission starts (R318); otherwise the oldest frame of RING-14 does.
(DEDUCED, log 77) -/
def startTx (s : State) : State := if s.plc.str.busy then s else forceTx s

/-- Frames enter RING-14 from operational-core memory as it has room (R15). -/
def pump14 (s : State) : State :=
  let n := 16 - s.plc.ring14.length
  startTx (setPlc (fun p => { p with ring14 := p.ring14 ++ p.queue.take n, queue := p.queue.drop n }) s)

/-- A frame is handed to the modem, or queued for it. -/
def queue14 (t : PTx) (s : State) : State :=
  pump14 (setPlc (fun p => { p with queue := p.queue ++ [t] }) (if s.plc.ring14.length < 16 then s else s.bump (K.stalls 14)))

/-- A broadcast is sent. -/
def sendAll (m : PMsg) (s : State) : State := queue14 { dest := none, msg := m, fn := s.fn } s

/-- The neighbour with a short address is RETIRED: it is never chosen as next hop (R232). -/
def nbrRetired (s : State) (a : Nat) : Bool := match nbrOf s a with | some n => decide (n.2.state = 2) | none => false

/-- A frame goes straight to a neighbour; to a RETIRED one nothing is sent (R232). -/
def sendNext (a : Nat) (m : PMsg) (s : State) : State :=
  if nbrRetired s a then s else queue14 { dest := some a, next := a, msg := m, fn := s.fn } s

/-- Ozmar's short address. -/
def ownShort (s : State) : Nat := s.live K.plcShortAddr

/-- adpMaxHops: the hops that a frame, a route request or a route may make (R300). -/
def maxHops (s : State) : Nat := s.cfg s.fn K.plcMaxHops

/-- A route discovery starts, its request with the unicast flag (adpUnicastRREQGenEnable, R300). -/
def discover (dest : Nat) (s : State) : State :=
  let asked := s.plc.asked.filter (fun e => decide (e.1 ≠ dest) && decide (s.fn < e.2 + 20480))
  sendAll (.routeRequest (ownShort s) dest 0 0 true) (setPlc (fun p => { p with asked := (dest, s.fn) :: asked }) s)

/-- A frame goes to a destination by its route, or waits for one that is then discovered (R315, R316). -/
def sendTo (dest : Nat) (m : PMsg) (s : State) : State :=
  match routeTo s dest with
  | some e => queue14 { dest := some dest, next := e.2.next, msg := m, fn := s.fn, hops := maxHops s } s
  | none =>
    let asked := s.plc.wait.any (fun t => decide (t.dest = some dest))
    let s := setPlc (fun p => { p with wait := p.wait ++ [{ dest := some dest, msg := m, fn := s.fn, hops := maxHops s }] }) s
    if asked then s else discover dest s

/-- A route error goes back to an originator by the route to it, else to the neighbour that the frame came from (R316, R317). -/
def sendError (orig from_ dest : Nat) (s : State) : State :=
  match routeTo s orig with
  | some e => queue14 { dest := some orig, next := e.2.next, msg := .routeError dest, fn := s.fn, hops := maxHops s } s
  | none => sendNext from_ (.routeError dest) s

/-- Frames that wait for a route to a destination go out. -/
def releaseWait (dest : Nat) (s : State) : State :=
  let out := s.plc.wait.filter (fun t => decide (t.dest = some dest))
  out.foldl (fun s t => sendTo dest t.msg s) (setPlc (fun p => { p with wait := p.wait.filter (fun t => decide (t.dest ≠ some dest)) }) s)

/-- The link cost to a short address. -/
def linkTo (s : State) (a : Nat) : Nat := match nbrOf s a with | some n => linkCost s n.2 | none => 255

/-- A route that a request or a reply shows (R315): its cost with the link cost to the neighbour that sent it; the lowest cost is kept,
then the fewest hops. -/
def takeRoute (dest next cost hops : Nat) (s : State) : State :=
  if (match nbrOf s next with | some n => decide (n.2.state = 2) | none => false) || decide (maxHops s < hops + 1) then s
  else
    let link := linkTo s next
    let r : Route := { dest := dest, next := next, cost := min 0xFFFF (cost + link), hops := hops + 1, fn := s.fn }
    let s := match (routes s).find? (fun e => decide (e.2.dest = dest)) with
      | some e =>
        let better := decide (r.cost < e.2.cost) || (decide (r.cost = e.2.cost) && decide (r.hops < e.2.hops))
        if better || decide (e.2.next = next) || decide (routeTo s dest = none) then setRoute e.1 (some { r with relay := e.2.relay }) s else s
      | none =>
        let free := (List.range 128).find? (fun k => decide (tget none s.plc.route k = none))
        let old := (routes s).foldl (fun (b : Nat × Nat) e => if e.2.fn < b.2 then (e.1, e.2.fn) else b) (0, 2 ^ 60)
        setRoute (free.getD old.1) (some r) s
    releaseWait dest s

/-- A route reply for this unit counts within adpNetTraversalTime, 20 s, of its request (R300). (PRESUMED, log 94) -/
def takeReply (dest next cost hops : Nat) (s : State) : State :=
  if s.plc.asked.any (fun e => decide (e.1 = dest) && decide (s.fn < e.2 + 20480)) then takeRoute dest next cost hops s else s

/-! ### Membership (R298, R299, R301, R322) -/

/-- The route table and the neighbour table are erased. -/
def eraseTables (s : State) : State :=
  let s := dropRoutes (fun _ => true) s
  (nbrs s).foldl (fun s e => setNbr e.1 none s) s

/-- The PAN is left without notice: key, address, tables and frames waiting are erased; PLC-LEFT is logged when Ozmar had joined.  The
frame on the wire, the oldest of RING-14, finishes. (DEDUCED, log 77) -/
def leavePan (cause : Option Nat) (st : Nat) (s : State) : State :=
  let s := match cause with
    | some c => if plcState s = 3 then s.event 0x0501 [c] else s
    | none => s
  let s := eraseTables s
  let s := setPlc (fun p => { p with gmk := none, ring14 := (p.ring14.take 1).filter (fun t => t.on), ring15 := [], queue := [], wait := [], retry := none,
                                     ann := none, pans := [], cand := none, frags := [], asked := [],
                                     offer := { p.offer with hold := none } }) s
  ((s.putLive K.plcState st).putLive K.plcPanId 0xFFFF).putLive K.plcShortAddr 0xFFFF

/-- A pre-shared key is installed; without one Ozmar only scans (R299). -/
def hasPsk (s : State) : Bool := decide (s.cfg s.fn K.plcPsk ≠ 0)

/-- The PAN and the LBA with the lowest route cost to the coordinator, the first heard among equals (R299). -/
def bestBeacon (l : List Beacon) : Option Beacon :=
  l.foldl (fun b x => match b with | some y => if x.cost < y.cost then some x else some y | none => some x) none

/-- A scan ends: the PANs found are reported, and with a pre-shared key the bootstrap begins at the best of them (R299). -/
def scanEnds (l : List Beacon) (s : State) : State :=
  let go := decide (l ≠ []) && hasPsk s
  (setPlc (fun p => { p with pans := l, cand := if go then bestBeacon l else none }) s).putLive K.plcState (if go then 2 else 1)

/-- PLC_JOIN (R299): a scan ends, a bootstrap failed, or Ozmar has joined the PAN chosen. (DEDUCED, log 77) -/
def execPlcJoin (r : JoinResult) (s : State) : Host.Outcome State Fault Refusal :=
  .next (if plcUp s ∧ plcState s ≠ 3 ∧ s.plc.retry = none then
    match r, s.plc.cand with
    | .noPan, _ => scanEnds [] s
    | .beacons l, _ => scanEnds l s
    | .failed, some _ => setPlc (fun p => { p with retry := some (s.fn + 20480) }) s
    | .joined short, some c =>
      if hasPsk s then
        let (key, s) := s.drawBytes 16
        let s := setPlc (fun p => { p with gmk := some key }) (eraseTables s)
        let s := ((s.putLive K.plcState 3).putLive K.plcPanId (c.pan % 65536)).putLive K.plcShortAddr (short % 65536)
        (s.bump K.plcJoins).event 0x0500 [c.pan % 65536, short % 65536, s.cfg s.fn K.plcBand]
      else s
    | _, none => s
  else s)

/-- JOIN_RETRY (R299): adpMaxJoinWaitTime, 20 s, after a failed bootstrap it is repeated. -/
def execJoinRetry (s : State) : Host.Outcome State Fault Refusal :=
  .next (match s.plc.retry with
    | some f => if plcUp s ∧ f ≤ s.fn then (setPlc (fun p => { p with retry := none }) s).putLive K.plcState 2 else s
    | none => s)

/-- Stale state clears the routes (R197, R322): the route table, the rtx histories and the phase classes. -/
def clearRoutes (s : State) : State :=
  let s := dropRoutes (fun _ => true) s
  (nbrs s).foldl (fun s e => setNbr e.1 (some { e.2 with rtx := [], phase := none, state := 0 }) s) s

/-! ### Transmission (R15, R316, R318, R320) -/

/-- The short address that an interface identifier of the PAN holds: its last two bytes (R321). -/
def shortOf (addr : Nat) : Nat := addr / 2 ^ 112 % 256 * 256 + addr / 2 ^ 120 % 256

/-- The 6LoWPAN fragments that carry a Bridle datagram of `len` bytes: at least one; G.9903 fixes their size. (DESIGN CHOICE, log 97) -/
def plcParts (len : Nat) : Nat := max 1 (Config.openResult 321 [len]).toNat

/-- The times that run from the answer to a step 1 run from the MAC acknowledgement of its last fragment (R291, R321). -/
def ackedAnswer (t : PTx) (s : State) : State :=
  match t.msg with
  | .bridle _ i n true =>
    if i + 1 = n then
      setSrv (fun v => { v with hands := v.hands.map (fun e => (e.1, e.2.map (fun h =>
        if h.port = .plc ∧ t.dest = some (shortOf h.addr) then { h with fn := s.fn } else h))) }) s
    else s
  | _ => s

/-- The power-line port takes the oldest waiting frame of a ring for the modem. (DEDUCED, log 77) -/
def plcSend (r12 : Bool) (s : State) : State :=
  match oldestOut s r12 .plc with
  | none => s
  | some f =>
    if plcJoined s then
      let b := netFrame s f
      let a := shortOf (outAddr s f)
      let n := plcParts b.length
      stepCounter f (leaveRing r12 f ((List.range n).foldl (fun s i => sendTo a (.bridle b i n f.clear) s) (noteWire .plc b s)))
    else s

/-- Broadcasts at the front of RING-14 that have started end with their transmission, and the next frame starts. (DEDUCED, log 77) -/
def endBroadcasts : Nat → State → State
  | 0, s => s
  | k + 1, s =>
    match s.plc.ring14 with
    | t :: l => if t.dest = none ∧ t.on = true then endBroadcasts k (pump14 (setPlc (fun p => { p with ring14 := l }) (countTx s))) else s
    | [] => s

/-- Frames in operational-core memory for the route of a failed frame wait there for the new one (R316). (DEDUCED, log 77) -/
def holdRoute (t : PTx) (s : State) : State :=
  let mine := fun (q : PTx) => decide (q.dest = t.dest) && decide (q.next = t.next)
  setPlc (fun p => { p with queue := p.queue.filter (fun q => !mine q),
                            wait := p.wait ++ (p.queue.filter mine).map (fun q => { q with fn := s.fn }) }) s

/-- The route of a failed frame goes, the frames waiting for it are held, and its originator starts a new discovery (R316). -/
def newRoute (t : PTx) (d : Nat) (s : State) : State :=
  discover d (holdRoute t (dropRoutes (fun r => decide (r.dest = d) && decide (r.next = t.next)) s))

/-- A unicast transmission has failed after every retransmission (R232, R316): the route is SUSPECT, the frame is dropped; a route error
goes to the originator, or a new discovery starts. -/
def txFailed (t : PTx) (s : State) : State :=
  let s := match nbrOf s t.next with
    | some (j, n) =>
      let s := setNbr j (some { n with state := if n.state = 0 then 1 else n.state, since := if n.state = 0 then s.fn else n.since }) s
      if n.state = 0 then s.event 0x0300 [5, j, 10] else s
    | none => s
  let s := s.putLive K.plcTxFailed ((s.live K.plcTxFailed + 1) % 2 ^ 32)
  if plcJoined s then
    match t.dest, t.msg with
    | some d, .forward orig => sendError orig orig d (dropRoutes (fun r => decide (r.dest = d) && decide (r.next = t.next)) s)
    | some d, .bridle .. => newRoute t d s
    | some d, .echoReply => newRoute t d s
    | some d, .panIdConflict _ => newRoute t d s
    | some d, .lbpUp _ => newRoute t d s
    | some _, .routeReply .. =>
      (match nbrOf s t.next with
       | some (j, n) => setNbr j (some { n with black := some s.fn }) s
       | none => s)
    | _, _ => s
  else s

/-- PLC_TX_COMPLETE (R316, R232, R300): the unicast transmission in progress ends, acknowledged or not; one on the wire at a disable
finishes too (R298).  A frame that the modem has not started (R318) does not end. -/
def execPlcTxComplete (acked : Bool) (retries : Fin 6) (s : State) : Host.Outcome State Fault Refusal :=
  .next (if s.mode = .run then
    let s := endBroadcasts 16 s
    match s.plc.ring14 with
    | t :: l =>
      if t.on = false then s else
      let s := setPlc (fun p => { p with ring14 := l, str := { p.str with wait := 0 } }) (countTx s)
      let s := s.putLive K.plcRetransmissions ((s.live K.plcRetransmissions + retries.val) % 2 ^ 32)
      let s := match nbrOf s t.next with
        | some (j, n) =>
          let s := if acked && decide (n.state = 1) then s.event 0x0301 [5, j] else s
          let n := { n with rtx := (retries.val :: n.rtx).take 32, state := if acked && decide (n.state = 1) then 0 else n.state }
          if plcJoined s ∧ 2 ≤ retries.val ∧ t.msg ≠ .toneMapRequest then sendNext t.next .toneMapRequest (setNbr j (some { n with toneFn := s.fn }) s)
          else setNbr j (some n) s
        | none => s
      pump14 (if acked then ackedAnswer t s else txFailed t s)
    | [] => s
  else s)

/-- ROUTE_WAIT_EXPIRY (R316): frames that have waited for a route for adpRREQWait, 30 s, are dropped and counted. -/
def execRouteWaitExpiry (s : State) : Host.Outcome State Fault Refusal :=
  .next (if plcUp s then
    let gone := s.plc.wait.filter (fun t => decide (t.fn + 30720 ≤ s.fn))
    if gone = [] then s
    else (setPlc (fun p => { p with wait := p.wait.filter (fun t => !decide (t.fn + 30720 ≤ s.fn)) }) s).putLive K.plcTxFailed
      ((s.live K.plcTxFailed + gone.length) % 2 ^ 32)
  else s)

/-- TONE_MAP_REFRESH (R300): 120 s after the last refresh of its tone map, a neighbour is asked again. -/
def execToneMapRefresh (j : Fin 64) (s : State) : Host.Outcome State Fault Refusal :=
  .next (match tget none s.plc.nbr j.val with
    | some n =>
      if plcJoined s ∧ n.toneFn + 122880 ≤ s.fn then sendNext n.addr .toneMapRequest (setNbr j.val (some { n with toneFn := s.fn }) s)
      else s
    | none => s)

/-- ROUTE_RETIRE (R232): a neighbour SUSPECT for ROUTE_TIMEOUT without interruption is RETIRED and never a next hop. -/
def execRouteRetire (j : Fin 64) (s : State) : Host.Outcome State Fault Refusal :=
  .next (match tget none s.plc.nbr j.val with
    | some n =>
      if s.mode = .run ∧ n.state = 1 ∧ n.since + 1024 * s.cfg s.fn K.routeTimeout ≤ s.fn then
        let s := setNbr j.val (some { n with state := 2 }) s
        dropRoutes (fun r => decide (r.next = n.addr)) ((s.bump K.routesRetired).event 0x0302 [5, j.val, 10, s.fn])
      else s
    | none => s)

/-! ### Reception (R297, R303, R308, R309, R315 to R321) -/

/-- The phase class of a lag `e` in a period `p` (R309). -/
def phaseClass (e p : Int) : Nat := if p ≤ 0 then 0 else ((rdiv (6 * e) p.toNat) % 6).toNat

/-- The place of the own crossing nearest to an instant. -/
def nearestCross (s : State) (y : Int) : Int :=
  if s.tb.p ≤ 0 then 0 else
    let j := rdiv (y - s.tb.used.headD 0) s.tb.p.toNat
    ([j - 1, j, j + 1].foldl (fun (b : Int) k => if mag (tbInstant s k - y) < mag (tbInstant s b - y) then k else b) j)

/-- The class of a sender whose crossing lies at `x` (R309); none while the time base has no crossing of its own. -/
def classAt (s : State) (x : Int) : Option Nat :=
  if s.tb.used = [] ∨ s.tb.p ≤ 0 then none else some (phaseClass (tbInstant s (nearestCross s x) - x) s.tb.p)

/-- Ozmar forwards on a route: it offers itself, or keeps established routes after a withdrawal (R317). -/
def forwards (s : State) (r : Route) : Bool := decide (s.live K.lfOffering = 1) || (r.relay && decide (s.plc.offer.hold ≠ none))

/-- A frame of a neighbour updates its entry. -/
def hearNbr (f : PlcFrame) (s : State) : State :=
  if plcState s = 3 then
    let e := nbrFor s f.sender
    let n := { e.2 with rev := f.lqi % 256, lastFn := s.fn,
                        phase := match classAt s ((f.a - f.q) * tbTap) with | some k => some k | none => e.2.phase }
    setNbr e.1 (some n) s
  else s

/-- A frame whose part of G.9903 is secured with the GMK: all but beacons, conflict notices and the LBP of devices that join (Table 11.1).
(PRESUMED, log 94) -/
def needsSecurity (k : PlcKind) : Bool :=
  match k with
  | .unimplemented | .foreignBeacon | .panIdConflict _ | .beaconRequest | .lbpUp _ | .other => false
  | _ => true

/-- The interface identifier on the PAN (R321): PAN ID, 00FF:FE00, short address, first byte lowest; G.9903 clears two bits of the
PAN ID's first byte. (PRESUMED, log 94) -/
def plcIid (s : State) : Nat :=
  let pan := s.live K.plcPanId
  let a := ownShort s
  pan / 256 % 256 / 4 * 4 + pan % 256 * 2 ^ 8 + 0xFF * 2 ^ 24 + 0xFE * 2 ^ 32 + a / 256 * 2 ^ 48 + a % 256 * 2 ^ 56

/-- Ozmar's link-local address on the PAN (R321). -/
def plcLinkLocal (s : State) : Nat := 0xFE + 0x80 * 2 ^ 8 + plcIid s * 2 ^ 64

/-- Ozmar's further address from PLC_PREFIX, unless that is all zeros (R321). -/
def plcGlobal (s : State) : Option Nat :=
  let p := s.cfg s.fn K.plcPlcPrefix
  if p = 0 then none else some (p + plcIid s * 2 ^ 64)

/-- An address is one of Ozmar's own on the PAN. -/
def plcOwn (s : State) (a : Nat) : Bool := decide (a = plcLinkLocal s) || decide (plcGlobal s = some a)

/-- A datagram from the PAN (R321): the limits of R289 apply; a Bridle datagram for this unit waits for its authentication. -/
def takeDatagram (d : Datagram) (s : State) : State :=
  if badDatagram d then s.bumpLive K.plcRxDiscarded
  else if plcOwn s d.dst then
    setSrv (fun v => { v with net := v.net ++
      [{ port := .plc, addr := d.src, sport := d.srcPort, bytes := d.payload, units := 0, ord := 0, fn := s.fn }] }) s
  else s

/-- A 6LoWPAN fragment joins its datagram; a complete one is taken, one not complete 60 s after its first fragment is given up. (PRESUMED, log 94) -/
def takeFragment (h : Datagram) (tag size off : Nat) (s : State) : State :=
  let live := s.plc.frags.filter (fun d => decide (s.fn < d.fn + 61440))
  let mine := fun (d : Frag) => decide (d.head.src = h.src) && decide (d.tag = tag) && decide (d.size = size)
  let d := (live.find? mine).getD { head := { h with payload := [] }, tag := tag, size := size, parts := [], fn := s.fn }
  let parts := if d.parts.any (fun x => decide (x.1 = off)) then d.parts
    else d.parts.filter (fun x => decide (x.1 < off)) ++ [(off, h.payload)] ++ d.parts.filter (fun x => decide (off < x.1))
  let all := parts.flatMap (fun x => x.2)
  let rest := live.filter (fun d => !mine d)
  if size ≤ all.length then takeDatagram { d.head with payload := all } (setPlc (fun p => { p with frags := rest }) s)
  else setPlc (fun p => { p with frags := rest ++ [{ d with parts := parts }] }) s

/-- A route request (R315, R317): it shows the way back to its originator; a discovery of Ozmar itself is answered, another is forwarded
while Ozmar offers itself, along the route it knows if the request has the unicast flag.  Requests of a blacklisted neighbour are ignored.
(PRESUMED, log 94) -/
def takeRequest (sender orig dest cost hops : Nat) (unicast : Bool) (s : State) : State :=
  if blackNow s sender then s
  else
    let link := linkTo s sender
    let s := takeRoute orig sender cost hops s
    if dest = ownShort s then sendNext sender (.routeReply orig dest 0 0) s
    else if s.live K.lfOffering = 1 ∧ hops + 1 < maxHops s then
      let m := PMsg.routeRequest orig dest (min 0xFFFF (cost + link)) (hops + 1) unicast
      match routeTo s dest with
      | some e => if unicast then sendNext e.2.next m s else sendAll m s
      | none => sendAll m s
    else s

/-- The route to a destination is established through Ozmar for others (R317). -/
def relayRoute (dest : Nat) (s : State) : State :=
  match routeTo s dest with
  | some e => setRoute e.1 (some { e.2 with relay := true }) s
  | none => s

/-- A route reply for another unit goes on towards the originator of its request, and shows a route (R315); the route between the two is
established through Ozmar (R317). -/
def passReply (sender orig dest cost hops : Nat) (s : State) : State :=
  let link := linkTo s sender
  let s := takeRoute dest sender cost hops s
  match routeTo s orig with
  | some e =>
    if hops + 1 < maxHops s then
      sendNext e.2.next (.routeReply orig dest (min 0xFFFF (cost + link)) (hops + 1)) (relayRoute orig (relayRoute dest s))
    else s
  | none => s

/-- A broadcast of another device is relayed once while Ozmar offers itself (Table 11.1, R317); one is known again for
adpBroadcastLogTableEntryTTL, 2 min. (PRESUMED, log 94) -/
def takeBroadcast (orig seq hops : Nat) (s : State) : State :=
  let known := s.plc.seen.filter (fun e => decide (s.fn < e.2.2 + 122880))
  if s.live K.lfOffering = 1 ∧ 1 < hops ∧ orig ≠ ownShort s ∧ known.any (fun e => decide (e.1 = orig) && decide (e.2.1 = seq)) = false then
    queue14 { dest := none, msg := .broadcast orig seq, fn := s.fn, hops := hops - 1 }
      (setPlc (fun p => { p with seen := (orig, seq, s.fn) :: known }) s)
  else s

/-- What a received frame brings about, by its kind. -/
def plcTake (f : PlcFrame) (s : State) : State :=
  let joined := decide (plcState s = 3)
  match f.kind with
  | .unimplemented => s.bumpLive K.plcRxDiscarded
  | .foreignBeacon => if joined then s.bumpLive K.plcForeignBeacons else s
  | .panIdConflict pan => if joined then sendTo 0 (.panIdConflict pan) ((s.bump K.plcPanidConflicts).event 0x0502 [pan % 65536])
      else (s.bump K.plcPanidConflicts).event 0x0502 [pan % 65536]
  | .beaconRequest => if joined then sendAll .beacon s else s
  | .datagram d => if joined then takeDatagram d s else s.bumpLive K.plcRxDiscarded
  | .fragment d tag size off => if joined then takeFragment d tag size off s else s.bumpLive K.plcRxDiscarded
  | .broadcast orig seq hops => if joined then takeBroadcast orig seq hops s else s
  | .echo src => if joined ∧ s.cfg s.fn K.t1sEchoEn = 1 then sendTo (shortOf src) .echoReply s else s
  | .toneMapRequest => if joined then sendNext f.sender (.toneMapResponse (f.lqi % 256)) s else s
  | .txGain db =>
    (match nbrOf s f.sender with
     | some (j, n) => setNbr j (some { n with gain := db }) s
     | none => s)
  | .toneMapResponse lqi =>
    (match nbrOf s f.sender with
     | some (j, n) => setNbr j (some { n with fwd := some (lqi % 256), toneFn := s.fn }) s
     | none => s)
  | .routeRequest orig dest cost hops unicast => if joined then takeRequest f.sender orig dest cost hops unicast s else s
  | .routeReply orig dest cost hops =>
    if joined = false then s
    else if orig = ownShort s then takeReply dest f.sender cost hops s else passReply f.sender orig dest cost hops s
  | .routeError dest => dropRoutes (fun r => decide (r.dest = dest)) s
  | .routePath _ => if joined then sendNext f.sender .pathReply s else s
  | .forward orig dest hops =>
    if joined = false ∨ hops ≤ 1 then s
    else match routeTo s dest with
      | some (k, r) =>
        if forwards s r then queue14 { dest := some dest, next := r.next, msg := .forward orig, fn := s.fn, hops := hops - 1 }
          (setRoute k (some { r with relay := true }) s)
        else sendError orig f.sender dest s
      | none => sendError orig f.sender dest s
  | .lbpUp eui => if joined ∧ s.live K.lfOffering = 1 then sendTo 0 (.lbpUp eui) s else s
  | .lbpDown eui => if joined ∧ s.live K.lfOffering = 1 then sendNext 0xFFFF (.lbpDown eui) s else s
  | .kicked cause => if joined then leavePan (some cause) 1 s else s
  | .other => s

/-- A frame that leaves no trace in the neighbour table: it is discarded, or ignored as a foreign beacon (R297, R319). -/
def unheard (k : PlcKind) : Bool :=
  match k with
  | .unimplemented | .foreignBeacon => true
  | _ => false

/-- The stack processes a frame: one that lacks MAC security where it needs it, and one of a part that is not implemented, is discarded and
counted (R297). -/
def plcFrame (f : PlcFrame) (s : State) : State :=
  let s := s.bumpLive K.plcRxFrames
  if needsSecurity f.kind && !f.secured then s.bumpLive K.plcRxDiscarded
  else plcTake f (if unheard f.kind then s else hearNbr f s)

/-- The stack takes frames from RING-15 (R15). -/
def drain15 : Nat → State → State
  | 0, s => s
  | k + 1, s =>
    match s.plc.ring15 with
    | f :: l => drain15 k (plcFrame f (setPlc (fun p => { p with ring15 := l }) s))
    | [] => s

/-- The stack takes frames from RING-15 while it works; they wait while the operational core is not ready. -/
def pump15 (s : State) : State := if plcUp s then drain15 16 s else s

/-- PLC_FRAME_RECEIVE (R15, R297): a MAC frame from the modem enters RING-15, or is discarded without an acknowledgement where no credit is
free; the stack processes what waits. (DEDUCED, log 77) -/
def execPlcFrameReceive (f : PlcFrame) (s : State) : Host.Outcome State Fault Refusal :=
  .next (if plcOn s then
    if s.plc.ring15.length < 16 then pump15 (setPlc (fun p => { p with ring15 := p.ring15 ++ [f] }) s)
    else pump15 (s.bump (K.stalls 15))
  else s)

/-! ### The repeater offer (R317) -/

/-- Ozmar ought to offer itself. -/
def wantsOffer (s : State) : Bool :=
  let o := s.plc.offer
  match s.cfg s.fn K.lfRepeater with
  | 0 => false
  | 1 => if s.live K.lfOffering = 1 then !(decide (60 ≤ o.few) || decide (60 ≤ o.full)) else decide (60 ≤ o.good)
  | _ => true

/-- REPEATER_OFFER_CHANGE (R317): OFFERING follows REPEATER and its conditions; a withdrawal keeps established routes for ROUTE_HOLD. -/
def execRepeaterOfferChange (s : State) : Host.Outcome State Fault Refusal :=
  .next (if plcUp s ∧ b2n (wantsOffer s) ≠ s.live K.lfOffering then
    let on := wantsOffer s
    let hold := if on then none else some (s.fn + 1024 * s.cfg s.fn K.lfRouteHold)
    ((setPlc (fun p => { p with offer := { p.offer with hold := hold } }) s).putLive K.lfOffering (b2n on)).event 0x0507 [b2n on]
  else s)

/-- ROUTE_HOLD_EXPIRY (R317): ROUTE_HOLD after a withdrawal, frames on routes through Ozmar are answered with a route error. -/
def execRouteHoldExpiry (s : State) : Host.Outcome State Fault Refusal :=
  .next (match s.plc.offer.hold with
    | some f => if f ≤ s.fn then setPlc (fun p => { p with offer := { p.offer with hold := none } }) s else s
    | none => s)

/-! ### Strangers (R318) -/

/-- An announcement that waits for the channel may start (R307, R318). -/
def annMay (s : State) : State := setPlc (fun p => { p with ann := p.ann.map (fun a => { a with may := true }) }) s

/-- A busy-foreign episode ends, and what waits may start. (DEDUCED, log 78) -/
def strangerEnd (x : Stranger) (s : State) : State :=
  let s := s.putLive K.plcStrangerDeferMs ((s.live K.plcStrangerDeferMs + x.len) % 2 ^ 32)
  let free := match x.logFn with | some f => decide (f + 61440 ≤ s.fn) | none => true
  annMay (startTx (if 1000 ≤ x.len ∧ free = true then setPlc (fun p => { p with str := { logFn := some s.fn } }) (s.event 0x0508 [x.len])
    else setPlc (fun p => { p with str := { logFn := x.logFn } }) s))

/-- A frame or an announcement waits to start: none of those on the wire. -/
def plcWaits (s : State) : Bool :=
  (match s.plc.ring14 with | t :: _ => !t.on | [] => false) || (match s.plc.ann with | some a => !a.may | none => false)

/-- STRANGER_BLOCK (R318): the in-band RMS of a 1 ms block without preamble synchronisation. (DEDUCED, log 78) -/
def execStrangerBlock (mv : Nat) (s : State) : Host.Outcome State Fault Refusal :=
  .next (if plcUp s then
    let x := s.plc.str
    let lvl := s.cfg s.fn K.plcStrangerLvl
    if x.busy then
      let x := { x with len := x.len + 1, lo := if 10 * mv < 7 * lvl then x.lo + 1 else 0, wait := if plcWaits s then x.wait + 1 else 0 }
      if 5 ≤ x.lo then strangerEnd x s else setPlc (fun p => { p with str := x }) s
    else
      let hi := if lvl ≤ mv then x.hi + 1 else 0
      setPlc (fun p => { p with str := if 2 ≤ hi then { busy := true, logFn := x.logFn } else { x with hi := hi } }) s
  else s)

/-- STRANGER_FORCED (R318): a transmission deferred for STRANGER_MAX starts and is counted: the oldest frame of RING-14, else the
announcement. -/
def execStrangerForced (s : State) : Host.Outcome State Fault Refusal :=
  .next (if plcUp s ∧ s.plc.str.busy = true ∧ plcWaits s = true ∧ s.cfg s.fn K.plcStrangerMax ≤ s.plc.str.wait then
    let s := setPlc (fun p => { p with str := { p.str with wait := 0 } }) (s.bumpLive K.plcStrangerForced)
    if (match s.plc.ring14 with | t :: _ => !t.on | [] => false) then forceTx s else annMay s
  else s)

end Sys2Proof.Machine
end

