-- ==== Sys2Proof/Machine/PortState.lean ====
section
/-! DEFINITION. The end and the start of a port (R38, R39, R290, R298, Table 1.7), and the watchdog of the port blocks (R233). -/

namespace Sys2Proof.Machine

/-- What a disable of either network port does at once (Table 1.7): requests not started complete CANCELLED, transactions are rolled
back, subscriptions and waiting notifications go, frames not parsed are discarded, a lease through the port ends. -/
def portCut (p : Port) (s : State) : State :=
  let s := setSrv (fun v => { v with inq := v.inq.filter (fun r => decide (r.port ≠ p)), net := v.net.filter (fun r => decide (r.port ≠ p)),
                                     hello := v.hello.filter (fun r => decide (r.port ≠ p)) }) s
  let s := setSrv (fun v => { v with hands := v.hands.filter (fun e => match e.2 with | some h => decide (h.port ≠ p) | none => true) }) s
  let s := ((usedTags s).filter (fun e => decide (e.2.port = p) && !e.2.begun && decide (e.2.fin = none))).foldl
    (fun s e => failTag e.1 e.2 0x12 s) s
  let s := endTxns (fun x => decide (x.port = p)) s
  let drops := (s.srv.ring13.filter (fun f => decide (f.port = p))).length
  let s := setSrv (fun v => { v with subs := v.subs.filter (fun x => decide (x.port ≠ p)),
                                     ring13 := v.ring13.filter (fun f => decide (f.port ≠ p)) }) s
  let k := K.notifyDrops (portNo p)
  dropHolders (fun h => decide (h.port = portNo p)) (s.putLive k ((s.live k + drops) % 2 ^ oBits k))

/-- The Ethernet port stops at frame `b` (R290); its waiting responses are still transmitted. -/
def t1sStop (b : Nat) (s : State) : State := setT1s (fun t => { t with closeAt := some b }) (portCut .t1s s)

/-- The power-line port stops at frame `b` (R298): sessions close, the PAN is left, a busy-foreign episode ends, the time base is off. -/
def plcStop (b : Nat) (s : State) : State :=
  let s := tbOff b (leavePan (some 0) 0 (endPort .plc (portCut .plc s)))
  if s.plc.str.busy then strangerEnd s.plc.str s else s

/-- The time base starts: SEARCHING, or OFF by its role (R305). -/
def tbStart_ (f : Nat) (s : State) : State :=
  if s.cfg f K.tbTbRole = 2 then tbOff f s else tbSearch f s

/-- The power-line port starts as from power-up (R39, R298, R299); a frame still on the wire finishes. -/
def plcStart (f : Nat) (s : State) : State :=
  let s := setPlc (fun p => { ring14 := p.ring14 }) (leavePan none 1 s)
  tbStart_ f (setTb (fun _ => {}) (s.putLive K.lfOffering 0))

/-- A block self-test fails (R233): the port is SUSPECT, and RETIRED after the third failure in a row, then treated as disabled. -/
def selfTestFailed (p : Nat) (s : State) : State :=
  let u := portUnit s p
  let s := setPortUnit p { u with fail := u.fail + 1, pass := 0 } s
  if 3 ≤ u.fail + 1 then
    let s := portSet p 2 12 s
    if p = 1 then t1sStop s.fn s else plcStop s.fn s
  else s

/-- PORT_WATCHDOG (R233): a block of T1S or PLC fails its watchdog or self-test; it is reset, and a self-test follows.
(DEDUCED, log 57) -/
def execPortWatchdog (port : Port) (selfTest : Bool) (s : State) : Host.Outcome State Fault Refusal :=
  let p := portNo port
  .next (if (port = .t1s ∨ port = .plc) ∧ s.mode = .run ∧ portOff s port = false then
    let s := if s.get (K.portState p) = 0 then portSet p 1 12 s else s
    if selfTest then portSet p 0 0 (setPortUnit p { portUnit s p with fail := 0, pass := 0 } s) else selfTestFailed p s
  else s)

end Sys2Proof.Machine
end

