-- ==== Sys2Proof/Machine/EventLog.lean ====
section
/-! DEFINITION. The event log (R354, R236, R281, R287): the step from RING-5 into the log, and EVENT_READ. -/

namespace Sys2Proof.Machine

/-- The bit of the legacy EVENTS word that an event sets (Table 10.10), on mapped channels and circuits where it names one. -/
def legacyBit (e : Event) : Option Nat :=
  let first := e.fields.headD 0
  if e.code = 0x0110 then some 0 else if e.code = 0x0112 then some 1 else if e.code = 0x0114 then some 2
  else if e.code = 0x0120 ∧ first < 64 then some 3
  else if e.code = openCode 118 ∧ first < 64 then some 4
  else if e.code = 0x0302 ∧ (first ≠ 1 ∨ e.fields.getD 1 0 < 64) then some 5
  else if e.code = 0x0201 then some 6
  else none

/-- An event enters the log: it takes the next number, and its program is queued (R354). -/
def logEvent (e : Event) (s : State) : State :=
  let q := (s.get K.eventSeq + 1) % 2 ^ 32
  let s := setTk (fun t => { t with evs := t.evs ++ [{ seq := q, entries := evEntries q e }] }) s
  tkPush (.event q) (showLogs (s.put K.eventSeq q))

/-- An event of Table 8.6. -/
def isFault (e : Event) : Bool := decide (0x0300 ≤ e.code ∧ e.code ≤ 0x0309)

/-- An event takes its number in the log; FAULT_EVENTS counts those of Table 8.6 (R237). -/
def numberEvent (e : Event) (s : State) : State := logEvent e (if isFault e then s.bump K.faultEvents else s)

/-- What the logging of an event raises: FAULT for the events of Table 8.6, and the legacy event bits. (DEDUCED, log 56) -/
def eventFlags (e : Event) (s : State) : State :=
  let s := if isFault e then setCause 4 s else s
  match legacyBit e with
  | some b => legacyEvent b s
  | none => s

/-- The operational core writes the event log: it is up, or ROM recovery runs. -/
def logRuns (s : State) : Bool := (decide (s.mode = .run) && s.ready) || decide (s.mode = .recovery)

/-- The oldest record of RING-5 has been taken. -/
def drop5 (s : State) : State := { s with ring5 := s.ring5.drop 1 }

/-- EVENT_LOG_WRITE (R354): the oldest record of RING-5 enters the event log, and its credit returns. -/
def execEventLogWrite (s : State) : Host.Outcome State Fault Refusal :=
  .next (if logRuns s then
    match s.ring5 with
    | e :: _ => eventFlags e (numberEvent e (drop5 s))
    | [] => s
  else s)

/-- EVENT_READ (R354): up to `count` entries of the log from a given SEQ. -/
def execEventRead (slot : Fin 48) (s : State) : Host.Outcome State Fault Refusal :=
  .next (runMethod slot.val K.eventRead (fun n => decide (n = 5)) (fun _ o s =>
    let from_ := at_ o.data 0 4
    let n := at_ o.data 4 1
    if n < 1 ∨ 120 < n then answer slot.val 0x32 [] s
    else answer slot.val 0 (((s.tk.evs.filter (fun e => decide (from_ ≤ e.seq))).flatMap (fun e => e.entries)).take n).flatten s) s)

/-- The read level of the partition that holds an address (Table 12.11). -/
def tkLevel (a : Nat) : Nat := if a < 0x1000000 then 5 else if 0x3C00000 ≤ a ∧ a < 0x3E80000 then 5 else 1

/-- TK_READ (R352): up to 4,000 bytes from any address, at the partition's read level. -/
def execTkRead (slot : Fin 48) (s : State) : Host.Outcome State Fault Refusal :=
  .next (runMethod slot.val K.tkRead (fun n => decide (n = 6)) (fun t o s =>
    let a := at_ o.data 0 4
    let n := at_ o.data 4 2
    if 4000 < n ∨ 0x4000000 < a + n then answer slot.val 0x32 [] s
    else if roleOf s t < max (tkLevel a) (tkLevel (a + n - 1)) then answer slot.val 0x20 [] s
    else answer slot.val 0 (tkBytes s a n) s) s)

end Sys2Proof.Machine
end

