-- ==== Sys2Proof/Machine/Twin.lean ====
section
/-! DEFINITION. Pages as the host sees them and twin records (R325, R334, R346 to R349): raw bytes, which copy serves, and the objects of
Table 12.17. -/

namespace Sys2Proof.Machine

/-! ### Pages -/

/-- The objects of a page take what its raw bytes say; the arrangement is Ozmar's own (R333, R334). (DESIGN CHOICE, log 10) -/
def loadRaw (p : Nat) (b : Bytes) (s : State) : State :=
  (pageKeys p).foldl (fun s k =>
    let v := Config.pageObject p b k % 2 ^ oBits k
    let s := if isRolled k then s.put (liveKey k) v else s
    s.put k v) s

/-! ### Twin records -/

/-- Twin record resolution (Table 12.10): TWIN_STATE, and whether copy B serves; none when no copy does. -/
def twinServe (s : State) (pa pb : Nat) : Nat × Option Bool :=
  if !copyStored s pa && !copyStored s pb then (2, none)
  else match copyUsable s pa, copyUsable s pb with
    | true, false => (0, some false)
    | false, true => (0, some true)
    | false, false => (3, none)
    | true, true =>
      let qa := copySeq s pa
      let qb := copySeq s pb
      let ca := (tget {} s.seals (servingFrame s pa)).count
      let cb := (tget {} s.seals (servingFrame s pb)).count
      if qa < qb then (0, some true) else if qb < qa then (0, some false)
      else if ca < cb then (0, some true) else if cb < ca then (0, some false) else (1, some false)

/-- Copies A and B of host record `r` (R347). -/
def hostCopy (r : Nat) (b : Bool) : Nat := 984 + 2 * r + b2n b

/-- The objects of host record `r` show the copy that serves (Table 12.17). -/
def showTwin (r : Nat) (s : State) : State :=
  let x := if r < s.cfg s.fn K.twinCount then twinServe s (hostCopy r false) (hostCopy r true) else (2, none)
  let s := s.putV (K.twinState r) x.1
  match x.2 with
  | some b =>
    let d := pageBytes s (hostCopy r b)
    ((s.putV (K.twinData r) (ofLe ((slice d 8 248)))).putV (K.twinLen r) (at_ d 4 2)).putV (K.twinSeq r) (at_ d 0 4)
  | none => ((s.putV (K.twinData r) 0).putV (K.twinLen r) 0).putV (K.twinSeq r) 0

/-- A record's resolution at a recall or a RESTORE: a CONFLICT or LOST is logged (R348). -/
def judgeTwin (r : Nat) (s : State) : State :=
  let s := showTwin r s
  let st := s.get (K.twinState r)
  if st = 1 ∨ st = 3 then s.event 0x0604 [0, r, st] else s

/-- The values of a legal record that are served from memory from now on (R349). -/
def noteServed (i : Nat) (s : State) : State :=
  { s with pwr := { s.pwr with legalBase := tset [] s.pwr.legalBase i ((pageKeys (legalCopy i false)).map (fun k => (k, s.get k))) } }

/-- The changes made to the served values since then are applied to the winner's: a count takes the same increments, any other object that
has changed its present value (R349). (DEDUCED, log 60) -/
def reapply (was : List (Nat × Nat)) (old s : State) : State :=
  was.foldl (fun s e =>
    let v := old.get e.1
    if v = e.2 then s
    else s.put e.1 (if oBits e.1 = 32 then (s.get e.1 + v + 2 ^ 32 - e.2) % 2 ^ 32 else v)) s

/-- The objects of legal record `i` take those of the copy in page `p` (R349). -/
def loadCopy (i p : Nat) (s : State) : State :=
  let x := tget {} s.pages p
  let pa := legalCopy i false
  match x.raw, x.own with
  | some d, _ => loadRaw pa d s
  | none, some o => (pageKeys pa).foldl (fun s k => s.put k ((tlook o.2 k).getD (oDefault k))) s
  | none, none => (pageKeys pa).foldl (fun s k => s.put k (oDefault k)) s

/-- A legal record is resolved at a recall (R348, R349): the copy that serves gives its objects, unless SRAM's are those of its last store.
(DEDUCED, log 60) -/
def judgeLegal (i : Nat) (s : State) : State :=
  let pa := legalCopy i false
  let pb := legalCopy i true
  let x := twinServe s pa pb
  let s := s.putV (K.legalTwinState i) x.1
  let s := if x.1 = 1 ∨ x.1 = 3 then s.event 0x0604 [1, i, x.1] else s
  let s := match x.2 with
    | some b =>
      let p := legalCopy i b
      if (tget {} s.pages p).raw ≠ none ∨ copySeq s p < copySeq s (legalCopy i (!b)) then loadCopy i p s else s
    | none => if x.1 = 3 then (pageKeys pa).foldl (fun s k => s.put k (oDefault k)) s else s
  if x.1 = 1 ∨ x.1 = 3 then noteServed i s else s

/-- Every host record is judged, and a CONFLICT or loss logged, or only shown. -/
def judgeTwins (log : Bool) (s : State) : State := (List.range 20).foldl (fun s r => if log then judgeTwin r s else showTwin r s) s

/-- Raw bytes enter a page (R334): its objects take what the bytes say, those of a legal record when it is the copy that serves it.
(DESIGN CHOICE, log 10; DEDUCED, log 60) -/
def rawObjects (p : Nat) (d : Bytes) (s : State) : State :=
  if 984 ≤ p then s
  else if legalPage p then
    let i := (p - 160) / 2
    if (twinServe s (legalCopy i false) (legalCopy i true)).2.map (legalCopy i) = some p then loadRaw (legalCopy i false) d s else s
  else loadRaw p d s

/-- A page holds raw bytes and the objects that they give. -/
def setRaw (p : Nat) (d : Bytes) (s : State) : State :=
  let s := rawObjects p d s
  modPage p (fun x => { x with raw := some d, rawVals := rawBase s p, own := none }) s

/-- The copy that a TWIN_WRITE goes to, and its SEQ (R347, R348): none when it would need SEQ 2^32. -/
def twinTarget (s : State) (r : Nat) : Option (Bool × Nat) :=
  let t := olderCopy s (hostCopy r false) (hostCopy r true)
  if t.2 < 2 ^ 32 then some t else none

/-- A store of a page is posted or in progress. (DEDUCED, log 60) -/
def storeWaits (s : State) (p : Nat) : Bool := s.jobs.any (fun j => decide (j.page = p))

/-- TWIN_WRITE (R347): the data goes to the older copy of a host record, and is acknowledged once its store is sealed.
(DEDUCED, log 60) -/
def execTwinWrite (slot : Fin 48) (s : State) : Host.Outcome State Fault Refusal :=
  .next (runMethod slot.val K.twinWrite (fun n => decide (2 ≤ n ∧ n ≤ 249)) (fun _ o s =>
    let r := at_ o.data 0 1
    if s.cfg s.fn K.twinCount ≤ r then answer slot.val 0x32 [] s
    else if storeWaits s (hostCopy r false) || storeWaits s (hostCopy r true) then s
    else match twinTarget s r with
      | none => answer slot.val 0x32 [] s
      | some (b, q) =>
        let p := hostCopy r b
        let d := copyBytes q (o.data.drop 1)
        postWrite { page := p, fn := s.fn, raw := some d, ack := .twin slot.val q } (holdTag slot.val s)) s)

/-- RESOLVE (R349): the winner of a twin record in CONFLICT or LOST, taking effect at a frame B. -/
def execResolve (slot : Fin 48) (s : State) : Host.Outcome State Fault Refusal :=
  .next (runMethod slot.val K.resolve (fun n => decide (n = 3)) (fun t o s =>
    let kind := at_ o.data 0 1
    let r := at_ o.data 1 1
    let w := at_ o.data 2 1
    if 1 < kind ∨ 1 < w ∨ (if kind = 0 then s.cfg s.fn K.twinCount else 8) ≤ r then answer slot.val 0x32 [] s
    else if copyUsable s (if kind = 0 then hostCopy r (w == 1) else legalCopy r (w == 1)) = false then answer slot.val 0x43 [] s
    else if mayCommit slot.val s then
      postCommit slot.val 0 0 (portNo t.port) (roleOf s t) (.resolve (decide (kind = 1)) r w) [] s
    else waitTurn slot.val s) s)

/-- A legal record takes the winner's values, with the changes since its detection, and is stored to copy A and then copy B (R349). -/
def resolveLegal (r w : Nat) (s : State) : State :=
  let q := (max (copySeq s (legalCopy r false)) (copySeq s (legalCopy r true)) + 1) % 2 ^ 32
  let s := reapply (tget [] s.pwr.legalBase r) s (loadCopy r (legalCopy r (w == 1)) s)
  let o := some (q, recVals s r)
  let s := [false, true].foldl (fun s b =>
    postWrite { page := legalCopy r b, fn := s.fn, own := o } (modPage (legalCopy r b) (fun x => { x with stat := 0 }) s)) s
  { s with pwr := { s.pwr with legalBase := tset [] s.pwr.legalBase r [], legalWas := s.dict.filter (fun e => isLegalRec e.1) } }

/-- A host record simply takes the winner's data, with SEQ + 1 in the winner's copy (R349). (DEDUCED, log 60) -/
def resolveHost (r w : Nat) (s : State) : State :=
  let p := hostCopy r (w == 1)
  let q := (max (copySeq s (hostCopy r false)) (copySeq s (hostCopy r true)) + 1) % 2 ^ 32
  postWrite { page := p, fn := s.fn, raw := some (le 4 q ++ (pageBytes s p).drop 4), ack := .judge false }
    (modPage p (fun x => { x with stat := 0 }) s)

/-- What RESOLVE does at its frame B: the winner's values become the record, which is stored with SEQ + 1; a host record simply takes the
winner's data. -/
def resolveNow (legal : Bool) (r w : Nat) (s : State) : State :=
  let s := (if legal then resolveLegal r w s else resolveHost r w s).event 0x0605 [b2n legal, r, w]
  if legal then s.putV (K.legalTwinState r) 0 else showTwin r s

end Sys2Proof.Machine
end

