-- ==== Sys2Proof/Machine/Store.lean ====
section
/-! DEFINITION. The Saddlebag's steps (R91, R325 to R336, R350, R357, R358): the end of a store, the rotation, the hourly store, the
scrub, backups, and the page and host journal methods. -/

namespace Sys2Proof.Machine

/-- The sealing of a store acknowledges what waited for it (R34, R334, R347). -/
def runAck (a : Ack) (s : State) : State :=
  match a with
  | .none => s
  | .commit i txn nb port role eff vals => ackCommit i txn nb port role eff vals s
  | .page i ks => answer i 0 [] (noteAcked ks s)
  | .twin i q => answer i 0 (le 4 q) (judgeTwins false s)
  | .judge log => judgeTwins log s

/-- LEGAL_TWIN_STATE follows a store of one of the record's copies, but for a CONFLICT or loss, which RESOLVE ends (R348, R349). -/
def showLegal (p : Nat) (s : State) : State :=
  let i := (p - 160) / 2
  let st := s.get (K.legalTwinState i)
  if legalPage p = true ∧ st ≠ 1 ∧ st ≠ 3 then
    s.putV (K.legalTwinState i) (twinServe s (legalCopy i false) (legalCopy i true)).1
  else s

/-- PAGE_STORE_COMPLETE (R326, R230): the store in progress has written its rows and its seal, and is read back, in
ROM recovery too (R216). (DESIGN CHOICE, log 114) -/
def execPageStoreComplete (verified : Bool) (s : State) : Host.Outcome State Fault Refusal :=
  .next (if s.mode = .run ∨ s.mode = .recovery then
    match s.jobs with
    | j :: js =>
      let s := writeFrame verified j s
      if verified then runAck j.ack (showLegal j.page (showPage j.page (storeSealed j js s))) else showPage j.page (storeFailed j js s)
    | [] => s
  else s)

/-! ### The rotation (R335) -/

/-- The SRAM content of a page has changed since its last store. (DEDUCED, log 58) -/
def pageChanged (s : State) (p : Nat) : Bool :=
  let x := servingSeal s p
  let now := pageImg s { page := p, fn := 0 }
  if x.count = 0 then decide (now.vals ≠ [] ∨ now.raw ≠ none) || now.ivl.any (fun e => decide (e.2.1 ≠ none)) else decide (x.img ≠ now)

/-- The maximum-demand pages whose last circuit is CCT-c (R335). -/
def mdPagesEnding (c : Nat) : List Nat := ((List.range 160).filter (fun m => decide ((256 * m + 255) / 160 = c))).map (fun m => 768 + m)

/-- The baseline page that position `c` stores. -/
def basePages (c : Nat) : List Nat := if c % 16 = 15 then [128 + c / 16] else []

/-- The pages that position `c` stores in order while billing runs; those of FUND_AI and FUND_AE go with their circuit (R150). -/
def positionPages (c : Nat) : List Nat :=
  [256 + 2 * c, 257 + 2 * c] ++ mdPagesEnding c ++ (if c % 32 = 31 then [928 + c / 32] else []) ++ basePages c ++
    [pageOf (K.cctFundAi c), pageOf (K.cctFundAe c)]

/-- The rotation reaches a position. -/
def rollPosition (c : Nat) (s : State) : State :=
  let tRoll := s.cfg s.fn K.rollPeriod
  let s := s.putLive K.rollPosition c
  if s.bill.run then
    let skip := let r := (tget {} s.pages (256 + 2 * c)).rolled; decide (r ≠ 0) && decide (s.fn < r + 512 * tRoll)
    let s := if skip then s else checkTotals (s.bill.next - 1) c (keepRatios c s)
    let ps := if skip then basePages c ++ [pageOf (K.cctFundAi c), pageOf (K.cctFundAe c)] else positionPages c
    (ps.eraseDups.filter (pageChanged s)).foldl (fun s p => postRoll p s) s
  else ((basePages c).filter (pageChanged s)).foldl (fun s p => postJob { page := p, fn := s.fn } s) s

/-- ROLL_POSITION (R335): positions fall 4 × T_roll frames apart, 256 to a roll period. (DEDUCED, log 58) -/
def execRollPosition (s : State) : Host.Outcome State Fault Refusal :=
  .next (if (s.mode = .run ∨ s.mode = .recovery) ∧ s.fn % (4 * s.cfg s.fn K.rollPeriod) = 0 ∧ s.pwr.rollAt ≠ some s.fn then
    rollPosition (s.fn / (4 * s.cfg s.fn K.rollPeriod) % 256) { s with pwr := { s.pwr with rollAt := some s.fn } }
  else s)

/-! ### Hourly store (R91) -/

/-- The effective lane values that are stored. -/
def bgKeys : List Nat :=
  (List.range 32).flatMap (fun l => (List.range 6).map (fun g => K.bgOffset g l) ++ (List.range 6).map (fun g => K.bgGain g l))

/-- BG_STORE (R91): every 3,686,400 frames the effective offsets and gains of every lane are stored. (DEDUCED, log 62) -/
def execBgStore (s : State) : Host.Outcome State Fault Refusal :=
  .next (if s.mode = .run ∧ s.get K.bgStoreFn + 3686400 ≤ s.fn then
    let now := bgKeys.foldl (fun t k => tset (oDefault k) t k (s.live k)) []
    let s := { s with pwr := { s.pwr with bg := some now } }.put K.bgStoreFn s.fn
    postJob { page := pageOf K.bgStoreFn, fn := s.fn } s
  else s)

/-! ### Scrub (R350, R351) -/

/-- The page and half that a frame serves. -/
def frameOwner (s : State) (fr : Nat) : Option (Nat × Bool) :=
  if fr < 2048 ∧ frameOf s (fr / 2) (fr % 2 == 1) = fr then some (fr / 2, fr % 2 == 1)
  else (s.pages.findSome? (fun e => if e.2.a = some fr then some (e.1, false) else if e.2.b = some fr then some (e.1, true) else none))

/-- A weak frame is renewed by storing its page, twice when it is the serving one; found weak for the third time in a row it counts as a
failed verify. (DEDUCED, log 63) -/
def renewFrame (fr : Nat) (s : State) : State :=
  match frameOwner s fr with
  | none => s
  | some (p, h) =>
    let u := tget {} s.units (unitKey 3 fr)
    let n := u.weak + 1
    let v := { u with weak := if n < 3 then n else 0, state := if n < 3 then u.state else if u.state = 0 then 1 else u.state }
    let s := { s with units := tset {} s.units (unitKey 3 fr) v }
    let s := if 3 ≤ n ∧ u.state = 0 then s.event 0x0300 [3, fr, 8] else s
    let s := (s.bump K.scrubRestores).event 0x0606 [0, fr]
    let post := fun (s : State) => postJob { page := p, fn := s.fn } s
    if (tget {} s.pages p).serveB = h then post (post s) else post s

/-- SCRUB (R350, R351): every 24 h every page frame and sector is read; weak ones are renewed. (DEDUCED, log 63) -/
def execScrub (weakFrames weakSectors : List Nat) (s : State) : Host.Outcome State Fault Refusal :=
  .next (if s.mode = .run ∧ s.get K.scrubFn + 88473600 ≤ s.fn then
    let read := fun (f : Nat) => match frameOwner s f with | some o => !pageBusy s o.1 | none => true
    let fs := (weakFrames.filter (fun f => decide (f < 2112) && read f)).eraseDups
    let strong := (s.units.map (fun (e : Nat × UnitS) => e.1)).filter (fun k => decide (k / 65536 = 3 ∧ k % 65536 ∉ fs) && read (k % 65536))
    let units := strong.foldl (fun (t : Tab UnitS) k => tmod ({} : UnitS) t k (fun u => { u with weak := 0 })) s.units
    let s := { s with units := units }
    let s := fs.foldl (fun s f => renewFrame f s) s
    let ws := (weakSectors.filter (fun k => decide (k < 1024) && !secRetired s k && secDirty s k)).eraseDups
    let s := ws.foldl (fun s k => refreshSec k ((s.bump K.scrubRestores).event 0x0606 [1, k])) s
    s.put K.scrubFn s.fn
  else s)

/-! ### Backups (R357, R358) -/

/-- The generation of the next backup. -/
def nextGen (s : State) : Nat := max s.tk.lastGen (s.get K.backupGen) + 1

/-- All pages are copied, and their programming into the oldest generation is queued, which each sector's erase ends (R357). -/
def takeBackup (s : State) : State :=
  let g := nextGen s
  let kept := s.dict.filter (fun e => match rowOf (objKey e.1) with | some r => r.has 3 | none => decide (0x4000000 ≤ e.1))
  let plain := fun (p : Nat) => decide (pageRaw s p = none) && !(legalPage p && decide ((tget {} s.pages p).own ≠ none)) && decide (pageEvents s p = [])
  let raws := (((s.pages.map (fun (e : Nat × PageS) => e.1)) ++ [972, 973]).eraseDups.filter (fun p => !plain p)).map (fun p => (p, pageBytes s p))
  let ivl := s.bill.cct.map (fun (e : Nat × BCct) => (e.1, e.2.ivl, e.2.subs))
  let ratio := s.bill.cct.map (fun (e : Nat × BCct) => (e.1, e.2.ratioI, e.2.ratioE))
  let unit := s.bill.cct.map (fun (e : Nat × BCct) => (e.1, e.2.unit))
  let stats := (List.range 1024).map (fun p => pageStatusOf s p)
  let b := Backup.mk g s.fn s.time (s.get K.storeCount) kept raws ivl ratio [] false s.pwr.bg unit stats
  let s := setTk (fun t => { t with backs := t.backs ++ [b], lastGen := g }) s
  (List.range 5).foldl (fun s i => tkPush (.backup g i) s) s

/-- Local standard time of now, in frames. -/
def stdNow (s : State) : Int := (s.time : Int) + utcFrames s s.fn

/-- BACKUP (R357): at BACKUP_MINUTE of local standard time, or every 88,473,600 frames of FN while time is INVALID. (DEDUCED, log 61) -/
def execBackup (s : State) : Host.Outcome State Fault Refusal :=
  .next (if s.mode = .run ∧ s.ready then
    if s.timeValid then
      let day := stdNow s / perDay
      if (stdNow s % perDay) / perMin = s.cfg s.fn K.backupMinute ∧ s.tk.lastDay ≠ some day then
        takeBackup (setTk (fun t => { t with lastDay := some day }) s)
      else s
    else if s.fn % 88473600 = 0 ∧ s.tk.lastFn ≠ some s.fn then takeBackup (setTk (fun t => { t with lastFn := some s.fn }) s)
    else s
  else s)

/-- BACKUP_NOW (R357): a backup on demand; the answer is its generation. (DEDUCED, log 61) -/
def execBackupNow (slot : Fin 48) (s : State) : Host.Outcome State Fault Refusal :=
  .next (runMethod slot.val K.backupNow (fun n => decide (n = 0)) (fun _ _ s =>
    answer slot.val 0 (le 4 (nextGen s)) (takeBackup s)) s)

/-- The settings of the operational configuration area that a generation changes. (DEDUCED, log 61) -/
def restoredVals (s : State) (b : Backup) : List (Nat × Nat) :=
  let keys := ((s.dict ++ b.vals).map (fun e => e.1)).eraseDups.filter (fun k => decide (936 ≤ pageOf k ∧ pageOf k < 984) &&
    (match rowOf k with | some r => isConfig r | none => false))
  (keys.map (fun k => (k, match tlook b.vals k with | some v => v | none => oDefault k))).filter (fun e => decide (s.get e.1 ≠ e.2))

/-- RESTORE (R358): the host area or the operational configuration takes the values of a backup generation at a frame B. -/
def execRestore (slot : Fin 48) (s : State) : Host.Outcome State Fault Refusal :=
  .next (runMethod slot.val K.restore (fun n => decide (n = 5)) (fun t o s =>
    let g := at_ o.data 0 4
    let mask := at_ o.data 4 1
    match s.tk.backs.find? (fun b => b.valid && decide (b.gen = g)) with
    | none => answer slot.val 0x32 [] s
    | some b =>
      if mask = 0 ∨ 4 ≤ mask then answer slot.val 0x32 [] s
      else if mayCommit slot.val s then
        postCommit slot.val 0 0 (portNo t.port) (roleOf s t) (.restore g mask) (if bit mask 1 then restoredVals s b else []) s
      else waitTurn slot.val s) s)

/-- What RESTORE does at its frame B beyond its settings: host pages take their bytes and are stored, and the twin records are judged once
they are (R348); restored pages say so.
(DEDUCED, log 61) -/
def restoreNow (g mask : Nat) (s : State) : State :=
  let mark := fun (lo n : Nat) (s : State) =>
    (List.range n).foldl (fun s i => showPage (lo + i) (modPage (lo + i) (fun x => { x with restored := true }) s)) s
  let s := if bit mask 0 then
      (match s.tk.backs.find? (fun b => decide (b.gen = g)) with
       | some b =>
         let s := (List.range 40).foldl (fun s i =>
           let p := 984 + i
           let d := backPage b p
           let d := match b.raws.find? (fun e => decide (e.1 = p)) with | some _ => d | none => List.replicate 256 0
           postWrite { page := p, fn := s.fn, raw := some d, ack := if i = 39 then .judge true else .none } s) s
         mark 984 40 s
       | none => s)
    else s
  if bit mask 1 then
    let bg := match s.tk.backs.find? (fun b => decide (b.gen = g)) with | some b => b.bg | none => s.pwr.bg
    mark 936 48 { s with pwr := { s.pwr with bg := bg } }
  else s

/-! ### Page methods (R334) -/

/-- PAGE_READ (R334): the status, the seal's fields and the bytes of a page as they stand in SRAM. -/
def execPageRead (slot : Fin 48) (s : State) : Host.Outcome State Fault Refusal :=
  .next (runMethod slot.val K.pageRead (fun n => decide (n = 2)) (fun _ o s =>
    let p := at_ o.data 0 2
    if 1024 ≤ p then answer slot.val 0x32 [] s
    else
      let x := servingSeal s p
      answer slot.val 0 (le 1 (pageStatusOf s p) ++ le 6 x.count ++ le 6 x.fn ++ pageBytes s p) s) s)

/-- The conditions of Table 12.6 for a raw write of page `p`. -/
def mayRawWrite (s : State) (role p : Nat) : Bool :=
  let bp := s.cfg s.fn K.bp
  let empty := decide ((tget {} s.pages p).stat ∈ [1, 4])
  if p < 256 then decide (5 ≤ role) && decide (s.live K.calState = 1) && decide (bp = 0)
  else if p < 512 then decide (5 ≤ role) && empty && decide (bp < 2)
  else if p < 936 then decide (5 ≤ role) && empty && decide (bp < 3)
  else if p < 984 then decide (5 ≤ role) && decide (bp < 3)
  else decide (3 ≤ role) && decide (s.cfg s.fn K.twinCount * 2 ≤ p - 984) && decide (bp < 3)

/-- The configuration objects that raw bytes change in page `p` (R252). -/
def rawChanges (p : Nat) (d : Bytes) (s : State) : List Nat :=
  let t := rawObjects p d s
  (pageKeys (if legalPage p then legalCopy ((p - 160) / 2) false else p)).filter (fun k => decide (t.get k ≠ s.get k) && (match rowOf k with | some r => isTracked k r | none => false))

/-- PAGE_WRITE (R334): 256 bytes into one page, acknowledged once its store is sealed; a page of QUARTER-0 counts as a legal commit.
(DEDUCED, log 60) -/
def execPageWrite (slot : Fin 48) (s : State) : Host.Outcome State Fault Refusal :=
  .next (runMethod slot.val K.pageWrite (fun n => decide (n = 258)) (fun t o s =>
    let p := at_ o.data 0 2
    let d := o.data.drop 2
    if 1024 ≤ p then answer slot.val 0x32 [] s
    else if mayRawWrite s (roleOf s t) p = false then answer slot.val 0x20 [] s
    else if pageBusy s p then s
    else
      let s := holdTag slot.val s
      let ks := if p < 984 then rawChanges p d s else []
      let s := setRaw p d s
      let s := if p < 256 then legalNote 0 s.fn (portNo t.port) (roleOf s t) 1 K.pageWrite s else s
      postJob { page := p, fn := s.fn, raw := some d, ack := .page slot.val ks } s) s)

/-! ### The host journal buffer (R341) -/

/-- Bytes of the host journal buffer: 69 pages. (DEDUCED, log 64) -/
def hjSize : Nat := 17664

/-- HJ_WRITE (R341): bytes enter the host journal buffer. -/
def execHjWrite (slot : Fin 48) (s : State) : Host.Outcome State Fault Refusal :=
  .next (runMethod slot.val K.hjWrite (fun n => decide (3 ≤ n ∧ n ≤ 4002)) (fun _ o s =>
    let a := at_ o.data 0 2
    let d := o.data.drop 2
    if hjSize < a + d.length then answer slot.val 0x32 [] s
    else
      let m := d.zipIdx.foldl (fun m e => tset 0 m (a + e.2) e.1.toNat) s.pwr.hj
      answer slot.val 0 [] { s with pwr := { s.pwr with hj := m } }) s)

/-- HJ_READ (R341): bytes of the host journal buffer. -/
def execHjRead (slot : Fin 48) (s : State) : Host.Outcome State Fault Refusal :=
  .next (runMethod slot.val K.hjRead (fun n => decide (n = 4)) (fun _ o s =>
    let a := at_ o.data 0 2
    let n := at_ o.data 2 2
    if 4000 < n ∨ hjSize < a + n then answer slot.val 0x32 [] s
    else answer slot.val 0 ((List.range n).map (fun i => BitVec.ofNat 8 (tget 0 s.pwr.hj (a + i)))) s) s)

end Sys2Proof.Machine
end

