-- ==== Sys2Proof/Machine/LastGasp.lean ====
section
/-! DEFINITION. The power-fail warning and the last gasp (R192, R330, R339 to R344, R398 to R400): closing the frame, the Stirrup
journal, and the mode that follows. -/

namespace Sys2Proof.Machine

/-! ### Supply status (Table 14.8) -/

/-- A bit of SUPPLY_STATUS is set or cleared. -/
def supBit (b : Nat) (on : Bool) (s : State) : State :=
  let w := s.get K.supSupplyStatus
  s.putV K.supSupplyStatus (if on then setBit w b else clearBit w b)

/-- RTC_VALID, which bit 1 of SUPPLY_STATUS shows too. -/
def setRtcValid (on : Bool) (s : State) : State := supBit 1 on (s.putV K.rtcValid (b2n on))

/-- Mode numbers of LAST_MODE (Table 14.9); RUN and ROM recovery read 0 in tamper events. -/
def Mode.num : Mode → Nat
  | .run | .recovery => 0
  | .lastGasp => 1
  | .gecko => 2
  | .sleep => 3
  | .off => 4

/-- Every live value reaches its object. -/
def flushLive (s : State) : State := s.endFrame.applyDue s.fn

/-! ### Closing the frame (R399) -/

/-- Entries in the proportion `num / den`. -/
def scaleEnts (num den : Nat) (es : List Ent) : List Ent :=
  es.map (fun e => { e with amt := odiv (e.amt * num) den, pamt := odiv (e.pamt * num) den })

/-- Frame `g` of circuit `c` is entered with the entries of its last frame in the proportion `num / den`. -/
def gaspFrame (g c num den : Nat) (s : State) : State :=
  let es := scaleEnts num den (getC s c).ents
  let s := enterAll g c es (gaspKeys g c s)
  demandAdd c (entPart 0 es) (entPart 1 es) false s

/-- The last frame that circuit `c` has accrued. -/
def lastAccrued (s : State) (c : Nat) : Nat :=
  let partly := match workQueue s with
    | fr :: _ => decide (fr.fn = s.bill.next) && (fr.ccts.take fr.done).any (fun r => decide (r.c = c))
    | [] => false
  if partly then s.bill.next else s.bill.next - 1

/-- Circuit `c` closes at `us` µs after the tick of frame `F` (R399). -/
def gaspCct (us c : Nat) (s : State) : State :=
  if (getC s c).ents = [] then s
  else
    let l := lastAccrued s c
    let s := (List.range (s.fn - (l + 1))).foldl (fun s i => gaspFrame (l + 1 + i) c 1 1 s) s
    setFlag s.fn c 13 (gaspFrame s.fn c (us * 10000) 9765625 s)

/-- The baseline of channel `n` closes in the same way from its own last frame. -/
def gaspBase (us n : Nat) (s : State) : State :=
  match s.tan.baseFn with
  | none => s
  | some l =>
    let e := tget 0 s.tan.baseEnt n
    let d := mag e * (s.fn - 1 - l : Nat) + odiv (mag e * us * 10000) 9765625
    let key := if 0 ≤ e then K.chAiBase n else K.chAeBase n
    if d = 0 then s else putTotal s.fn key (regTotal s key + d.toNat) s

/-- The baselines of every channel close. -/
def gaspBases (us : Nat) (s : State) : State := s.tan.baseEnt.foldl (fun s e => gaspBase us e.1 s) s

/-! ### The journal (R341, R342) -/

/-- The unit that page `p` holds circuit `c` in. -/
def pageUnit (s : State) (p c : Nat) : Nat :=
  match (storedImg s p).unit.find? (fun e => decide (e.1 = c)) with
  | some e => e.2
  | none => (getC s c).unit

/-- The billing page of a tariff. -/
def billPage (c t : Nat) : Nat := 256 + 2 * c + (if t < 4 then 0 else 1)

/-- What a slot holds beyond the last sealed store, by kind, in 2^-40 of that store's unit. -/
def slotD (s : State) (c : Nat) (y : Slot) : List Int :=
  (List.range 6).map (fun i => rescaleI (ati y.d i) (getC s c).unit (pageUnit s (billPage c y.tariff) c))

/-- Two intervals are one and the same. -/
def sameIvl (v w : Ivl) : Bool := decide (v.timed = w.timed) && decide (v.start = w.start) && decide (v.len = w.len)

/-- The interval of circuit `c` that the last sealed store holds. -/
def storedIvl (s : State) (c : Nat) : Option Ivl :=
  match (storedImg s (928 + c / 32)).ivl.find? (fun e => decide (e.1 = c)) with
  | some e => e.2.1
  | none => none

/-- Import and export of an interval beyond the last sealed store. -/
def ivlD (s : State) (c : Nat) (v : Ivl) : Int × Int :=
  let r := fun y => rescaleI y (getC s c).unit (pageUnit s (928 + c / 32) c)
  match storedIvl s c with
  | some w => if sameIvl v w then (r v.imp - w.imp, r v.exp - w.exp) else (r v.imp, r v.exp)
  | none => (r v.imp, r v.exp)

/-- A number of 2^-40 units in quanta of 2^j units, rounded (R342). -/
def quanta (j : Nat) (d : Int) : Int := rdiv d (2 ^ (40 + j))

/-- A field of 24 bits holds a number of quanta (R342). -/
def fits24 (signed : Bool) (q : Int) : Bool :=
  if signed then decide (-(2 ^ 23) ≤ q) && decide (q < 2 ^ 23) else decide (0 ≤ q) && decide (q < 2 ^ 24)

/-- The smallest J from 0 to 15 for which everything fits. -/
def findJ (ok : Nat → Bool) : Nat := ((List.range 16).find? ok).getD 15

/-- The field that a number of quanta gives; what one that does not fit gives is open. -/
def field24 (signed : Bool) (q : Int) : Int := if fits24 signed q then q else Config.openResult 342 [q] % 2 ^ 23

/-- What the journal holds of circuit `c` (R341, R342). (DEDUCED, log 68) -/
def journalCct (s : State) (c : Nat) : JCct :=
  let x := getC s c
  let signed := decide (s.get (K.cctMode c) = 1)
  let ds := fun (o : Option Slot) => match o with | some y => slotD s c y | none => []
  let iv := match x.ivl with | some v => ivlD s c v | none => (0, 0)
  let cl := match x.closing with | some k => ivlD s c k.ivl | none => (0, 0)
  let okS := fun (j : Nat) (l : List Int) => l.zipIdx.all (fun e => fits24 (signed && decide (e.2 = 0)) (quanta j e.1))
  let j := findJ (fun j => okS j (ds x.slotA) && okS j (ds x.slotB) &&
    [iv.1, iv.2, cl.1, cl.2].all (fun d => fits24 false (quanta j d)))
  let f := fun (l : List Int) => l.zipIdx.map (fun e => field24 (signed && decide (e.2 = 0)) (quanta j e.1))
  { c := c, j := j, keyA := x.slotA.map (fun y => (y.tariff, y.period)), keyB := x.slotB.map (fun y => (y.tariff, y.period)),
    a := f (ds x.slotA), b := f (ds x.slotB), keptA := (x.slotA.map (fun y => y.kept)).getD [],
    keptB := (x.slotB.map (fun y => y.kept)).getD [],
    closing := x.closing.map (fun k => (k, field24 false (quanta j cl.1), field24 false (quanta j cl.2))),
    ivl := x.ivl.map (fun v => (v, field24 false (quanta j iv.1), field24 false (quanta j iv.2))),
    subs := x.subs, tariff := x.tariff, susp := x.susp, est := decide (x.ents ≠ []) }

/-- A register of the last sealed store of its page, with its fraction. -/
def storedTotal (s : State) (key : Nat) : Nat :=
  let l := (storedImg s (pageOf key)).vals
  ((tlook l (liveKey key)).getD 0) * 2 ^ 40 + (tlook l (fracKey key)).getD 0

/-- The baseline deltas, in 1 mWh. -/
def journalBase (s : State) : List JBase :=
  let d := fun key => (rdiv ((regTotal s key : Int) - storedTotal s key) (2 ^ 40)).toNat % 2 ^ 24
  ((List.range 256).map (fun n => JBase.mk n (d (K.chAiBase n)) (d (K.chAeBase n)))).filter (fun b => decide (b.ai ≠ 0 ∨ b.ae ≠ 0))

/-- The marks of the channels, as the model keeps them. (DEDUCED, log 68) -/
def marksNow (s : State) : List (Nat × Nat × Nat) :=
  ((List.range 256).map (fun n => (n, s.get (markKey n 0), s.get (markKey n 1)))).filter (fun e => decide (e.2 ≠ (0, 0)))

/-! ### The bytes of the journal (R341, Tables 12.7 and 12.8): the last gasp writes them and the replay reads them -/

/-- A field of 24 bits. -/
def field3 (q : Int) : Bytes := le 3 (ofInt 24 q)

/-- What the journal holds of circuit `c`. -/
def inJournal (j : Journal) (c : Nat) : Option JCct := j.ccts.find? (fun b => decide (b.c = c))

/-- The circuit part: slot A and slot B of each circuit, 36 bytes. -/
def cctPart (j : Journal) : Bytes :=
  (List.range 256).flatMap (fun c => match inJournal j c with
    | some b => (List.range 6).flatMap (fun i => field3 (ati b.a i)) ++ (List.range 6).flatMap (fun i => field3 (ati b.b i))
    | none => List.replicate 36 0)

/-- The interval part: the closing and the current interval of each circuit, 12 bytes. -/
def ivlPart (j : Journal) : Bytes :=
  (List.range 256).flatMap (fun c =>
    let b := inJournal j c
    let cl := match b.bind (fun b => b.closing) with | some k => k.2 | none => (0, 0)
    let iv := match b.bind (fun b => b.ivl) with | some v => v.2 | none => (0, 0)
    field3 cl.1 ++ field3 cl.2 ++ field3 iv.1 ++ field3 iv.2)

/-- The baseline part: 6 bytes a channel. -/
def deltaPart (j : Journal) : Bytes :=
  (List.range 256).flatMap (fun n => match j.base.find? (fun b => decide (b.n = n)) with
    | some b => le 3 b.ai ++ le 3 b.ae
    | none => List.replicate 6 0)

/-- A slot key of a schedule: that of its first circuit with the slot in use; the period is the incoming one where the other slot holds
an earlier one. (DEDUCED, log 68) -/
def slotKeyByte (s : State) (j : Journal) (sc : Nat) (inB : Bool) : Nat :=
  let mine := j.ccts.filter (fun b => decide (s.cfg j.pfwFn (K.cctSchedule b.c) = sc))
  match mine.findSome? (fun b => (if inB then b.keyB else b.keyA).map (fun k => (k, if inB then b.keyA else b.keyB))) with
  | some ((t, p), o) => 128 + 8 * b2n (match o with | some (_, q) => decide (q < p) | none => false) + t % 8
  | none => 0

/-- The boundary record in the journal: 28 bytes at byte 34 of page 0. -/
def boundBytes (b : Bound) : Bytes :=
  le 4 b.bsn ++ le 6 b.fn ++ le 6 b.time ++ (List.range 4).flatMap (fun i => le 1 (b.kinds.getD i 0)) ++
    (List.range 4).flatMap (fun i => le 1 (b.outs.getD i 0 % 16 + 16 * (b.incs.getD i 0 % 16))) ++ le 1 b.steps ++ le 3 0

/-- Journal page 0 (Table 12.8). -/
def journalHead (s : State) (j : Journal) : Bytes :=
  let jOf := fun (c : Nat) => match inJournal j c with | some b => b.j % 16 | none => 0
  let shut := fun (c : Nat) => b2n (match inJournal j c with | some b => decide (b.closing ≠ none) | none => false)
  le 2 1 ++ le 6 j.pfwFn ++ le 2 j.pfwUs ++ le 6 j.pfwTime ++ le 6 j.sPfw ++ le 6 j.sBase ++ le 4 (ofInt 32 j.slew) ++
    le 1 (b2n j.valid + 2 * b2n j.stale + 4 * b2n j.running) ++ le 1 j.pages ++ boundBytes j.bound ++
    (List.range 4).flatMap (fun sc => le 1 (slotKeyByte s j sc false) ++ le 1 (slotKeyByte s j sc true)) ++
    le 32 (sumN ((List.range 256).map (fun c => 2 ^ c * shut c))) ++
    (List.range 128).flatMap (fun i => le 1 (jOf (2 * i) + 16 * jOf (2 * i + 1))) ++ le 4 j.lost ++ le 2 j.hjLen ++ List.replicate 20 0

/-- Page `n` of the journal (Table 12.7). (DEDUCED, log 68) -/
def journalPage (s : State) (j : Journal) (n : Nat) : Bytes :=
  if n = 0 then journalHead s j
  else if n < 37 then slice (cctPart j) (256 * (n - 1)) 256
  else if n < 49 then slice (ivlPart j) (256 * (n - 37)) 256
  else if n < 55 then slice (deltaPart j) (256 * (n - 49)) 256
  else if n < 59 then slice (j.tail.flatMap (fun e => e.2)) (256 * (n - 55)) 256
  else (List.range 256).map (fun i => BitVec.ofNat 8 (tget 0 j.hj (256 * (n - 59) + i)))

/-! ### Events (R155, R355) -/

/-- Detectors in an event give their end records, with cause 2 (R155). (DEDUCED, log 41) -/
def endDetectors (s : State) : State :=
  let at_ := frameTaps s.fn
  let s := s.tan.gdet.foldl (fun s e => if e.2.on then groupEnd s.fn (e.1 / 4) (e.1 % 4) at_ 2 s else s) s
  let s := s.tan.idet.foldl (fun s e => if e.2.on then ocEnd s.fn e.1 at_ 2 s else s) s
  let s := s.tan.ndet.foldl (fun s e => if e.2.on then niEnd s.fn e.1 2 s else s) s
  s.tan.pdet.foldl (fun s e => if e.2.on then plEnd s.fn e.1 2 s else s) s

/-- Every record of RING-5 takes its number in the log. -/
def numberEvents (s : State) : State := s.ring5.foldl (fun s e => numberEvent e s) { s with ring5 := [] }

/-- The entries of events that are numbered and not programmed, in order. -/
def tailEntries (s : State) : List (Nat × Bytes) :=
  (s.tk.evs.filter (fun e => decide (e.addr = none))).flatMap (fun e => e.entries.map (fun b => (e.seq, b)))

/-- The log keeps what is programmed. -/
def dropUnlogged (s : State) : State := showLogs (setTk (fun t => { t with evs := t.evs.filter (fun e => decide (e.addr ≠ none)) }) s)

/-! ### The store in progress (R330, R331, R340) -/

/-- Rows of the old content below those of the new one that were written. (DESIGN CHOICE, log 12; DEDUCED, log 58) -/
def mixRows (rows : Nat) (new old : Bytes) : Bytes := slice new 0 (32 * rows) ++ (slice old 0 256).drop (32 * rows)

/-- The store in progress is abandoned after its row in progress, but that of a ONE-FRAME page; the others are dropped (R330, R340).
(DEDUCED, log 59; DEDUCED, log 69) -/
def abandonStores (us : Nat) (s : State) : State :=
  match s.jobs with
  | j :: _ =>
    if (tget ({} : PageS) s.pages j.page).oneFrame then { s with jobs := [j], rollq := [] }
    else
      let fr := frameOf s j.page j.half
      let x : Seal := tget {} s.seals fr
      let rows := max 1 (min 8 (Config.rowsWritten s.fn us))
      let mix := mixRows rows (imgBytesOf j.page (j.img.getD {})) (imgBytesOf j.page x.img)
      let img := if j.single then { x.img with raw := some mix, own := none } else x.img
      { s with seals := tset {} s.seals fr { x with ok := false, img := img }, jobs := [], rollq := [] }
  | [] => { s with rollq := [] }

/-- The abandoned store of a ONE-FRAME page is completed once the journal has been computed (R331, R340). -/
def completeOne (s : State) : State :=
  match s.jobs with
  | j :: _ => { storeSealed j [] (writeFrame true j s) with jobs := [], rollq := [] }
  | [] => s

/-! ### The warning (R396, R398) -/

/-- Billing is running: frame G of this start has been accrued. -/
def billingRuns (s : State) : Bool := decide (s.mode = .run) && s.bill.run

/-- Everything that the loss of power ends: the data plane, requests, sessions, ports and the Tackroom's writer. -/
def powerCut (s : State) : State :=
  let est := (List.range 32).flatMap (fun l => (List.range 6).map (fun g => (8 * l + g, ({ offDue := false, gainDue := false } : GainEst))))
  let lanes := (s.acq.lanes.filter (fun (e : Nat × LaneS) => e.2.serves)).map (fun (e : Nat × LaneS) => (e.1, ({ serves := true } : LaneS)))
  let s := { s with acq := { est := est, lanes := lanes }, aln := {}, tan := {}, pulse := {}, cap := { lastId := s.cap.lastId }, ring5 := [],
                    staging := [], sealed := [], current := none, previous := none, pins := [], ready := false,
                    srv := { lastId := s.srv.lastId }, t1s := {}, plc := {}, tb := {},
                    dev := { s.dev with calRun := 0, tset := none } }
  setTk (fun t => { t with queue := [], backs := t.backs.filter (fun b => b.valid) }) s

/-- The interval of circuit `c` ends at frame `x`, in its normal course or in the closing slot that the last gasp has filled. -/
def endsAt (s : State) (x c : Nat) : Bool :=
  (match (getC s c).closing with | some k => !k.done && decide (k.fn = x) | none => false) ||
  (match (getC s c).ivl with | some v => decide (v.born ≤ x) && ivlEnds s x v | none => false)

/-- A boundary has come with frame `x`: an interval ends, a period closes, a tariff switches or the clock steps (R189). -/
def boundKindsDue (s : State) (x : Nat) : List Nat :=
  let ends := (definedCcts s x).filter (endsAt s x)
  let step := s.bill.steps.any (fun e => decide (e.1 ≤ x))
  (List.range 4).map (fun sc =>
    b2n (ends.any (fun c => decide (s.cfg x (K.cctSchedule c) = sc))) + 2 * b2n (decide (closeCause s x sc step ≠ none)) +
    4 * b2n (decide (s.bill.sched.getD sc none ≠ some (tariffOf s x sc))) + 8 * b2n step)

/-- The first frame whose boundary steps have not been taken. -/
def stepsFrom (s : State) : Nat := if s.bill.begun then s.bill.next + 1 else s.bill.next

/-- The boundary record of the journal (R192): that of the first boundary frame up to the warning's whose steps have not been taken, with
step 1, which the frames in hand complete, done; or the last one. -/
def gaspBound (s : State) : Bound :=
  let xs := (List.range (s.fn + 1 - stepsFrom s)).map (fun i => stepsFrom s + i)
  match xs.find? (fun x => (boundKindsDue s x).any (fun k => decide (k ≠ 0))) with
  | some x => { boundOf s x ((s.get K.bsn + 1) % 2 ^ 32) (boundKindsDue s x) [] with incs := (List.range 4).map (tariffOf s x), steps := 1 }
  | none => s.bill.bound

/-- The circuit parts of the journal, or those of the earlier stop (R344). -/
def fullJournal (us : Nat) (s : State) : Journal :=
  let tail := tailEntries s
  { pfwFn := s.fn, pfwUs := us, pfwTime := s.time, sPfw := s.get K.storeCount, sBase := s.get K.storeCount,
    slew := s.liveI K.timeSlewLeft, valid := s.timeValid, stale := decide (s.get K.cause ≠ 0), running := true, runFn := s.fn,
    from_ := stepsFrom s, pages := s.get K.stirrupPages, sealed := 0, baseOk := 0,
    count := 0, ccts := s.bill.cct.map (fun (e : Nat × BCct) => journalCct s e.1), base := journalBase s, marks := none,
    tail := tail.drop (tail.length - 32), lost := tail.length - 32, bound := gaspBound s,
    hj := s.pwr.hj.filter (fun (e : Nat × Nat) => decide (e.1 < s.get K.hjLen)), hjLen := s.get K.hjLen }

/-- A journal that no running billing has written. -/
def blankJournal : Journal :=
  { pfwFn := 0, pfwUs := 0, pfwTime := noTime, sPfw := 0, sBase := 0, slew := 0, valid := false, stale := false, running := false,
    runFn := 0, from_ := 0, pages := 0, sealed := 0, baseOk := 0, count := 0, ccts := [], base := [], marks := some [], tail := [],
    lost := 0, hj := [], hjLen := 0 }

/-- The journal that the last gasp writes (R344): before frame G only the warning's fields and the baseline part change.
(DEDUCED, log 68) -/
def gaspJournal (us : Nat) (s : State) : Journal :=
  if billingRuns s then fullJournal us s
  else { (s.pwr.journal.getD blankJournal) with pfwFn := s.fn, pfwUs := us, pfwTime := s.time, sBase := s.get K.storeCount, base := journalBase s,
                                                marks := some (marksNow s) }

/-- The RTC domain keeps the time of the warning. -/
def keepClock (s : State) : State := { s with dev := { s.dev with rtcTime := if s.mode = .run then s.time else s.dev.rtcTime, rtcFn := s.fn } }

/-- Events that were not programmed before billing ran are lost. (DEDUCED, log 69) -/
def loseEvents (s : State) : State := { s with ring5 := [] }.bumpBy K.eventsLost s.ring5.length

/-- The last gasp has its journal to write. -/
def setJournal (j : Journal) (s : State) : State := { s with pwr := { s.pwr with journal := some j, torn := false, done := false } }

/-- What a power-fail warning brings about (R396, R398). -/
def startGasp (us : Nat) (vld vdd33 : Bool) (s : State) : State :=
  let s := setCause 6 (setSpi (fun p => { p with pfwN := true }) s)
  let s := abandonStores us (keepClock ((s.bump K.supPfwCount).put K.supPfwCause (b2n vld + 2 * b2n vdd33)))
  let s := if billingRuns s then numberEvents (endDetectors ((definedCcts s s.fn).foldl (fun s c => gaspCct us c s) s)) else loseEvents s
  let s := gaspBases us s
  setJournal (gaspJournal us s) ((powerCut (refreshCut (dropUnlogged (flushLive (completeOne s))))).setMode .lastGasp)

/-- POWER_FAIL_WARNING (R396, R398): `us` µs after the tick of frame F, VLD, VDD33 or both have fallen. -/
def execPowerFailWarning (us : Nat) (vld vdd33 : Bool) (s : State) : Host.Outcome State Fault Refusal :=
  .next (if s.mode = .run ∨ s.mode = .recovery then startGasp us vld vdd33 s else s)

/-! ### Leaving RUN (R400) -/

/-- The mode after the last gasp (Table 14.3). (DEDUCED, log 72) -/
def modeAfter (s : State) : Mode :=
  if s.cfg s.fn K.geckoEn = 1 ∧ s.cfg s.fn K.geckoVbatMin ≤ s.pwr.vbat then .gecko else if 2200 ≤ s.pwr.vbat then .sleep else .off

/-- The pages that the last gasp of this stop writes: all, or page 0 and the baseline part. -/
def gaspPages (j : Journal) : Nat := if j.runFn = j.pfwFn ∧ j.running then j.pages else 7

/-- The journal with `n` pages sealed in the order of Table 12.7. -/
def sealJournal (n top : Nat) (j : Journal) : Journal :=
  let full := decide (j.runFn = j.pfwFn) && j.running
  { j with sealed := if full then n else j.sealed, baseOk := min 6 (if full then n - 49 else n - 1), count := top }

/-- GECKO begins (R404): lanes that are not RETIRED are in their scan mode, and the first scan is due after GECKO_INTERVAL. -/
def enterGecko (s : State) : State :=
  let every := 1024 * s.cfg s.fn K.geckoInterval
  let s := (List.range 32).foldl (fun s l => if s.get (K.laneMode l) = 2 then s else s.put (K.laneMode l) 3) s
  { s with pwr := { s.pwr with gecko := { since := s.dev.rtcFn, next := s.dev.rtcFn + every, events := s.pwr.gecko.events } } }

/-- OFF keeps nothing alive. (DEDUCED, log 70) -/
def enterOff (s : State) : State :=
  setRtcValid false { s with pwr := { s.pwr with tamper := [], samples := [], accepted := [] } }

/-- A mode is entered. -/
def enterMode (m : Mode) (s : State) : State :=
  let s := s.setMode m
  match m with
  | .gecko => enterGecko s
  | .off => enterOff s
  | _ => s

/-- The pages of the journal that `n` seals in the order of Table 12.7 are of: all parts, or page 0 and the baseline part (R344). -/
def gaspOrder (j : Journal) (n : Nat) : List Nat :=
  if j.runFn = j.pfwFn ∧ j.running then List.range n else (0 :: (List.range 6).map (fun i => 49 + i)).take n

/-- The sealed pages hold their bytes; a whole journal leaves nothing of an earlier one. (DEDUCED, log 68) -/
def writeStirrup (j : Journal) (n : Nat) (s : State) : State :=
  let was := if j.runFn = j.pfwFn ∧ j.running then [] else s.pwr.stirrup
  { s with pwr := { s.pwr with stirrup := (gaspOrder j n).foldl (fun t i => tset [] t i (journalPage s j i)) was } }

/-- The journal as the last gasp leaves it, and POWER-DOWN for the log. -/
def gaspEnd (j : Journal) (n : Nat) (m : Mode) (powerGood : Bool) (s : State) : State :=
  let s := writeStirrup j n s
  let j := sealJournal n (s.get K.storeCount) j
  let s := (s.put K.lastGaspFn j.pfwFn).put K.lastGaspPages n
  let s := if j.runFn = j.pfwFn then s.put K.jMax (j.ccts.foldl (fun m c => max m c.j) 0) else s
  let s := s.put K.supLastMode m.num
  let down : Event := { code := 0x0800, fields := [j.pfwFn, s.get K.supPfwCause, m.num, n], fn := j.pfwFn, time := j.pfwTime }
  { s with pwr := { s.pwr with journal := some j, torn := decide (n = 0), done := powerGood, late := s.pwr.late ++ [down] } }

/-- LAST_GASP_COMPLETE (R398, R400): the journal is sealed as far as the hold-up energy that is fitted allows. (DEDUCED, log 69) -/
def execLastGaspComplete (fittedPages : Nat) (powerGood : Bool) (s : State) : Host.Outcome State Fault Refusal :=
  .next (if s.mode = .lastGasp ∧ s.pwr.done = false then
    match s.pwr.journal with
    | none => s
    | some j =>
      let n := min fittedPages (gaspPages j)
      let s := s.bumpBy K.storeCount n
      if powerGood then gaspEnd j n .lastGasp true s else enterMode (modeAfter s) (gaspEnd j n (modeAfter s) false s)
  else s)

/-- PFW_N_RELEASE (R424): once VHOUT has fallen below 1.5 V, PFW_N is at high impedance. -/
def execPfwNRelease (s : State) : Host.Outcome State Fault Refusal :=
  .next (if s.mode = .gecko ∨ s.mode = .sleep ∨ s.mode = .off then setSpi (fun p => { p with pfwN := false }) s else s)

end Sys2Proof.Machine
end

