-- ==== Sys2Proof/Machine/Reinstate.lean ====
section
/-! DEFINITION. Reinstatement of RETIRED units (R234, R235). -/

namespace Sys2Proof.Machine

/-- Units of a kind (Table 8.1). -/
def unitCount (kind : Nat) : Nat := [32, 256, 12, 2112, 1024, 64, 3].getD kind 0

/-- A unit is RETIRED. -/
def unitRetired (s : State) (kind num : Nat) : Bool :=
  match kind with
  | 0 | 1 | 2 => decide (s.get (unitKeys kind num).state = 2)
  | 3 | 4 => decide ((tget {} s.units (unitKey kind num)).state = 2)
  | 5 => (match tget none s.plc.nbr num with | some n => decide (n.state = 2) | none => false)
  | 6 => decide (s.get (K.portState num) = 2)
  | _ => false

/-- A current channel whose lane and partner are both RETIRED cannot be reinstated (R234). -/
def laneGone (s : State) (kind num : Nat) : Bool :=
  decide (kind = 1) && decide (s.get (K.laneFState (num / 8)) = 2) && decide (s.get (K.laneFState (partner (num / 8))) = 2)

/-- REINSTATE (R234): kinds 0 to 2 need METROLOGIST and calibration state, kinds 3 to 6 OWNER; stored like a commit. (DEDUCED, log 54) -/
def execReinstate (slot : Fin 48) (s : State) : Host.Outcome State Fault Refusal :=
  .next (runMethod slot.val K.reinstate (fun n => decide (n = 3)) (fun t o s =>
    let i := slot.val
    let kind := at_ o.data 0 1
    let num := at_ o.data 1 2
    if 6 < kind then answer i 0x32 [] s
    else if 3 ≤ kind ∧ roleOf s t < 5 then answer i 0x20 [] s
    else if kind < 3 ∧ s.live K.calState ≠ 1 then answer i 0x22 [] s
    else if unitCount kind ≤ num ∨ unitRetired s kind num = false then answer i 0x32 [] s
    else if laneGone s kind num then answer i 0x43 (failData (K.laneFState (num / 8)) 0) s
    else if mayCommit i s then postCommit i 0 0 (portNo t.port) (roleOf s t) (.reinstate kind num) [] s
    else waitTurn i s) s)

/-- A unit of kinds 0 to 2 becomes SUSPECT at `b`, both runs 0. -/
def unitBack (kind num b : Nat) (s : State) : State :=
  let u := unitKeys kind num
  ((((s.put u.state 1).put u.cause causeReinstate).put u.fail 0).put u.pass 0).put u.sfn b

/-- Estimators and effective values of a lane restart as from a BLANK store (R91, R235). -/
def blankLane (l : Nat) (s : State) : State :=
  let s := (List.range 6).foldl (fun s g =>
    setEst l g {} ((s.putLive (K.bgOffset g l) 0).putLive (K.bgGain g l) 0x40000000)) s
  setLane l { settle := true } s

/-- A lane runs its committed table from frame `b`. -/
def tableBack (b l : Nat) (s : State) : State :=
  ((s.putLive (K.laneMode l) 0).putLive (K.laneRotStep l) 0).put (K.laneTableFn l) b

/-- The partner of a reinstated lane leaves DEGRADED-SERVING; a RETIRED one stays so. (DEDUCED, log 54) -/
def partnerBack (b p : Nat) (s : State) : State :=
  if s.get (K.laneFState p) = 2 then s
  else
    let x : LaneS := tget {} s.acq.lanes p
    let s := setLane p { x with serves := false, serveHi := if x.serves then b + 2 else x.serveHi } (tableBack b p s)
    if s.get (K.laneFState p) = 3 then unitSet 0 p 0 0 b s else s

/-- Lane `l` is reinstated at `b` (R235). -/
def laneBack (b l : Nat) (s : State) : State :=
  let s := blankLane l (tableBack b l (unitBack 0 l b s))
  let s := partnerBack b (partner l) s
  let s := { s with acq := { s.acq with takeovers := s.acq.takeovers.filter (fun t => decide (t.lane ≠ l)) } }
  let s := restartStreams b (enabledOf s b l) (lowRange (enabledOf s b l ++ enabledOf s b (partner l)) s)
  recredit0 b (addSpan l b (b + 1) s)

/-- A page frame is tested with a pattern: it is SUSPECT and a spare again when it verifies, and stays RETIRED when it does not; which of
the two is open (R235). (DESIGN CHOICE, log 92) -/
def frameBack (b num : Nat) (s : State) : State :=
  let (v, s) := s.draw
  if v % 2 = 0 then
    let u : UnitS := { state := 1, spare := decide (num < 2048), since := b }
    ({ s with units := tset {} s.units (unitKey 3 num) u }.put K.sparesFree (s.get K.sparesFree + 1)).put K.framesRetired
      (s.get K.framesRetired - 1)
  else s

/-- What REINSTATE does at its frame B (R234, R235). (DEDUCED, log 54) -/
def reinstateNow (b kind num : Nat) (s : State) : State :=
  let s := match kind with
    | 0 => laneBack b num s
    | 1 | 2 => unitBack kind num b s
    | 3 => frameBack b num s
    | 4 => tkPush (.erase num) (setSec num { state := 1, since := b, out := true } (s.put K.sectorsRetired (s.get K.sectorsRetired - 1)))
    | 5 => (match tget none s.plc.nbr num with
        | some n => setNbr num (some { n with state := 1, since := b, rtx := [] }) s
        | none => s)
    | _ =>
      let s := setPortUnit num { state := 1, since := b } (s.putV (K.portState num) 1)
      if num = 1 ∧ s.cfg b K.t1sEnable = 1 then t1sStart b s else if num = 2 ∧ s.cfg b K.plcEnable = 1 then plcStart b s else s
  s.event 0x0303 [kind, num, b]

end Sys2Proof.Machine
end

