-- ==== Sys2Proof/Machine/PowerUp.lean ====
section
/-! DEFINITION. Power good and the cold start (R329 to R332, R345 step 1, R387, R393, R402, R408): the recall of the Saddlebag, FN and
time, the image that runs, and the front end's first frame. -/

namespace Sys2Proof.Machine

/-! ### Recall (R329, Table 12.2) -/

/-- A frame has never been stored, and no store of it was cut short. -/
def sealNew (x : Seal) : Bool := decide (x.count = 0) && x.ok

/-- Table 12.2 for a page: the half it is loaded from, and RECALL; a frame that a cut store has begun for the first time counts as
invalid beside a valid one (Table 12.3). (DEDUCED, log 58) -/
def recallOf (s : State) (p : Nat) : Bool × Nat :=
  let ps : PageS := tget {} s.pages p
  let a : Seal := tget {} s.seals (frameOf s p false)
  let b : Seal := tget {} s.seals (frameOf s p true)
  if ps.oneFrame || ps.single then
    let h := ps.oneFrame && ps.serveB
    let x := if h then b else a
    (h, if sealValid x then 0 else if sealNew x then 1 else 3)
  else match sealValid a, sealValid b with
    | true, true => (decide (a.count < b.count), 0)
    | true, false => (false, if sealNew b then 0 else 2)
    | false, true => (true, if sealNew a then 0 else 2)
    | false, false => (ps.serveB, if a.count = 0 ∧ b.count = 0 then 1 else 4)

/-- FLAGS of a circuit: a bit leaves it at a period close alone, so that no stop takes one away (R174). (DEDUCED, log 90) -/
def flagsKey (k : Nat) : Bool := decide (0x4000 ≤ objKey k / 256) && decide (objKey k / 256 < 0x4100) && decide (objKey k % 256 = 0x48)

/-- Registers that a start takes from the last sealed stores: those of the rotated pages. -/
def rollKey (k : Nat) : Bool :=
  let o := objKey k
  let i := o / 256
  let sub := o % 256
  decide (k < 0x4000000) && isRolled k && !flagsKey k &&
  (if 0x3600 ≤ i ∧ i < 0x3700 then decide (sub = 0x41 ∨ sub = 0x42)
   else match rowOf o with | some r => decide (r.fl / 16 % 2 = 1) | none => false)

/-- A value of a page's stored content enters SRAM; live values and their objects agree. -/
def loadVal (e : Nat × Nat) (s : State) : State :=
  if 0x2000000 ≤ e.1 ∧ e.1 < 0x4000000 then (s.put e.1 e.2).put (e.1 - 0x2000000) e.2
  else if rollKey e.1 ∧ e.1 < 0x1000000 ∧ isV e.1 = true ∧ ¬ (0x3600 ≤ e.1 / 256 ∧ e.1 / 256 < 0x3700) then s
  else s.put e.1 e.2

/-- What page `p` gives SRAM: the numbers of its objects. -/
def recallVals (s : State) (p half : Nat) (st : Nat) : List (Nat × Nat) :=
  if st = 1 then []
  else if st = 4 then
    (match newestBackup s with | some b => (backImg b p).vals | none => [])
  else (tget ({} : Seal) s.seals (frameOf s p (half == 1))).img.vals

/-- The settings of a page that it holds no longer are forgotten. -/
def forgetPage (p : Nat) (s : State) : State :=
  let gone := (s.dict.filter (fun e => decide (pageOf e.1 = p) && !rollKey e.1 && !flagsKey e.1 && decide (e.1 < 0x4000000) &&
    (match rowOf (objKey e.1) with | some r => r.has 3 | none => false))).map (fun e => e.1)
  { s with dict := s.dict.filter (fun e => decide (e.1 ∉ gone)) }

/-- Another frame serves the page than before. -/
def pageMoved (p : Nat) (ps : PageS) (h : Bool) (st : Nat) : Bool :=
  decide (p < 984) && (decide (h ≠ ps.serveB ∨ 3 ≤ st) || (decide (st = 1) && decide (ps.stat ≠ 1)))

/-- The status, the serving half and the raw bytes of a recalled page. -/
def recallState (p : Nat) (h : Bool) (st : Nat) (back : Bool) (s : State) : State :=
  let x : Img := if st = 1 then {} else if st = 4 then (match back, newestBackup s with | true, some b => backImg b p | _, _ => {})
    else (tget ({} : Seal) s.seals (frameOf s p h)).img
  { s with pages := tmod ({} : PageS) s.pages p (fun ps =>
             { ps with serveB := h, stat := st, restored := back, raw := x.raw, rawVals := x.rawVals, own := x.own, dirty := false }),
           pwr := if 972 ≤ p ∧ p < 974 then { s.pwr with evPages := tset [] s.pwr.evPages p x.evs } else s.pwr }

/-- A page restored from a backup is logged. -/
def restoreEvent (p : Nat) (back : Bool) (s : State) : State :=
  match back, newestBackup s with
  | true, some b => s.event 0x0603 [p, b.gen]
  | _, _ => s

/-- The hourly store of the lane values comes back with its page (R91). -/
def recallBg (p st : Nat) (h : Bool) (s : State) : State :=
  if p = pageOf K.bgStoreFn then
    let bg := if st = 1 then none else if st = 4 then (newestBackup s).bind (fun b => b.bg)
      else (tget ({} : Seal) s.seals (frameOf s p h)).img.bg
    { s with pwr := { s.pwr with bg := bg } }
  else s

/-- A page holds P objects of Ozmar's own that have changed and are stored as they change, so that it is not BLANK. (DEDUCED, log 58) -/
def ownStored (s : State) (p : Nat) : Bool :=
  s.dict.any (fun e => decide (pageOf e.1 = p) && decide (e.1 < 0x1000000) && !isRolled e.1 && (match rowOf e.1 with | some r => r.has 3 | none => false))

/-- One page is recalled.  Its status and raw bytes; the settings of a page that another frame serves than before. (DEDUCED, log 90) -/
def recallPage (p : Nat) (s : State) : State :=
  let hs := recallOf s p
  let moved := pageMoved p (tget {} s.pages p) hs.1 hs.2 && !legalPage p
  let vals := recallVals s p (b2n hs.1) hs.2
  let back := decide (hs.2 = 4) && decide (p < 984) && decide (newestBackup s ≠ none)
  let own := vals.filter (fun e => !rollKey e.1 && !flagsKey e.1 && decide (e.1 < 0x4000000))
  let s := recallBg p hs.2 hs.1 (recallState p hs.1 hs.2 back s)
  let s := if moved then own.foldl (fun s e => loadVal e s) (forgetPage p s) else s
  restoreEvent p back ((vals.filter (fun e => rollKey e.1)).foldl (fun s e => loadVal e s) s)

/-- Objects that power-on reset leaves as they are: P objects, one-time-programmable ones and those the seal state derives from. -/
def keptKey (k : Nat) : Bool :=
  let o := objKey k
  decide (0x4000000 ≤ k) ||
  (match rowOf o with | some r => r.has 3 | none => false) ||
  decide (o ∈ [K.svnCounter, K.owner 0, K.owner 1, K.owner 2, K.owner 3, K.sealedCount])

/-- The pages of QUARTER-0 to QUARTER-3 that a restored page concerns circuits by: billing, maximum-demand and interval pages (R332). -/
def pageCcts (p : Nat) : List Nat :=
  if 256 ≤ p ∧ p < 768 then [(p - 256) / 2]
  else if 768 ≤ p ∧ p < 928 then (List.range 256).filter (fun c => decide (p ∈ mdPagesOf c))
  else ivlCcts p

/-- Pages that some frame or status is kept of. -/
def knownPages (s : State) : List Nat :=
  ((s.pages.map (fun (e : Nat × PageS) => e.1)) ++ (s.seals.map (fun (e : Nat × Seal) => e.1 / 2)).filter (fun p => decide (p < 1024)) ++
    ((s.dict.map (fun e => pageOf e.1)).filter (fun p => decide (p < 984) && ownStored s p)).eraseDups).eraseDups

/-- Pages that hold only P objects of Ozmar's own had been stored as these changed: the store of one that no other store has reached is
made up for before the recall. (DEDUCED, log 58) -/
def storeOwn (s : State) : State :=
  ((knownPages s).filter (fun p => decide (p < 984) && !legalPage p && decide ((recallOf s p).2 = 1) && ownStored s p)).foldl (fun s p =>
    let j := beginJob s { page := p, fn := s.fn }
    modPage p (fun x => { x with serveB := j.half, single := j.single, stat := 0 }) (writeFrame true j s)) s

/-- The highest FRAME_WEAR (Table 12.16). -/
def topWear (s : State) : Nat :=
  s.dict.foldl (fun m e => if K.frameWear 0 0 ≤ e.1 ∧ e.1 < K.frameWear 0 2112 then max m e.2 else m) 0

/-- Page frames whose seal a brown-out has torn are not valid (R330). -/
def tearFrames (fs : List Nat) (s : State) : State :=
  fs.foldl (fun s f => { s with seals := tmod ({} : Seal) s.seals f (fun x => if x.count = 0 then x else { x with ok := false }) }) s

/-- SRAM and core memory forget what no page holds. -/
def dropVolatile (s : State) : State := { s with dict := s.dict.filter (fun e => keptKey e.1 && !rollKey e.1) }

/-- The recall (R329): pages, their counts, and STORE_COUNT (R327). -/
def recallPages (bad : List Nat) (s : State) : State :=
  let s := tearFrames bad s
  let ps := knownPages s
  let s := ps.foldl (fun s p => recallPage p s) s
  let count := fun (r : Nat) => (s.pages.filter (fun (e : Nat × PageS) => decide (e.2.stat = r))).length
  let s := ((s.put K.recallRolledBack (count 2)).put K.recallTorn (count 3)).put K.recallLost (count 4)
  let s := if count 2 + count 3 + count 4 = 0 then s else s.event 0x0600 [count 2, count 3, count 4]
  let top := s.seals.foldl (fun m (e : Nat × Seal) => if e.2.ok then max m e.2.count else m) (match s.pwr.journal with | some j => j.count | none => 0)
  let s := (s.put K.wearMax (topWear s)).put K.storeCount top
  let s := s.put K.stirrupPages (stirrupPagesOf (s.get K.stirrupCap))
  let s := ps.foldl (fun s p => showPage p s) s
  let s := judgeTwins true s
  (List.range 8).foldl (fun s i => judgeLegal i s) s

/-! ### The baseline part (R345 step 1, R128) -/

/-- The journal's page of the baseline part that holds the whole entry of channel `n` is sealed. -/
def basePart (j : Journal) (n : Nat) : Bool := decide ((6 * n + 5) / 256 < j.baseOk)

/-- A page still stands where the journal measured from: not restored, and not stored since (R345). -/
def pageAsOf (s : State) (p count : Nat) : Bool :=
  !(tget ({} : PageS) s.pages p).restored && decide ((servingSeal s p).count ≤ count)

/-- A baseline register takes a total before the first aligned frame. -/
def setTotal (k t : Nat) (s : State) : State :=
  let v := t / 2 ^ 40 % 2 ^ oBits k
  ((s.put (liveKey k) v).put k v).put (fracKey k) (t % 2 ^ 40)

/-- A 3-byte field of the Stirrup journal, at byte `a` of the part that begins with page `first` (R341). -/
def stirrupField (s : State) (first a : Nat) : Nat :=
  ofLe ((List.range 3).map (fun i => (tget [] s.pwr.stirrup (first + (a + i) / 256)).getD ((a + i) % 256) 0))

/-- One entry of the baseline part. -/
def replayBase (j : Journal) (n : Nat) (s : State) : State :=
  if basePart j n && pageAsOf s (128 + n / 16) j.sBase then
    setTotal (K.chAeBase n) (regTotal s (K.chAeBase n) + stirrupField s 49 (6 * n + 3) * 2 ^ 40)
      (setTotal (K.chAiBase n) (regTotal s (K.chAiBase n) + stirrupField s 49 (6 * n) * 2 ^ 40) s)
  else s

/-- The mark of channel `n` after the replay: what billing had reached, never beyond the baseline (R128). -/
def markBack (j : Option Journal) (n : Nat) (s : State) : State :=
  let ai := regTotal s (K.chAiBase n)
  let ae := regTotal s (K.chAeBase n)
  let dict := (s.get (markKey n 0), s.get (markKey n 1))
  let own := s.get (K.chMarkFn n)
  let m : (Nat × Nat) × Nat := match j with
    | some x => (match x.marks with
      | none => ((ai, ae), x.runFn)
      | some l => (match l.find? (fun (e : Nat × Nat × Nat) => decide (e.1 = n)) with | some e => (e.2, own) | none => ((0, 0), own)))
    | none => (dict, own)
  ((s.put (markKey n 0) (min m.1.1 ai)).put (markKey n 1) (min m.1.2 ae)).put (K.chMarkFn n) m.2

/-- A circuit with a restored page absorbs since the backup: its channels' marks are those of the backup (R332). (DEDUCED, log 68) -/
def markRestored (f : Nat) (s : State) : State :=
  match newestBackup s with
  | none => s
  | some b =>
    let ps := (s.pages.filter (fun (e : Nat × PageS) => e.2.restored)).map (fun (e : Nat × PageS) => e.1)
    let cs := (ps.flatMap pageCcts).eraseDups
    let ns := (cs.flatMap (fun c => (phasesOf s f c).map (fun p => p.ch))).eraseDups
    ns.foldl (fun s n =>
      let g := fun (i : Nat) => (tlook b.vals (markKey n i)).getD 0
      ((s.put (markKey n 0) (min (g 0) (regTotal s (K.chAiBase n)))).put (markKey n 1)
        (min (g 1) (regTotal s (K.chAeBase n)))).put (K.chMarkFn n) b.fn) s

/-- The journal, unless its page 0 failed its seal. -/
def goodJournal (s : State) : Option Journal := if s.pwr.torn then none else s.pwr.journal

/-- Step 1 of Table 12.9, and the marks. -/
def replayBaseline (f : Nat) (s : State) : State :=
  let j := goodJournal s
  let s := match j with | some x => x.base.foldl (fun s b => replayBase x b.n s) s | none => s
  let ns := (List.range 256).filter (fun n =>
    decide (regTotal s (K.chAiBase n) ≠ 0 ∨ regTotal s (K.chAeBase n) ≠ 0 ∨ s.get (markKey n 0) ≠ 0 ∨ s.get (markKey n 1) ≠ 0))
  markRestored f (ns.foldl (fun s n => markBack j n s) s)

/-! ### FN and time (R402) -/

/-- The highest FN in the page seals, the journal and the backups. (DEDUCED, log 71) -/
def highestFn (s : State) : Nat :=
  let a := s.seals.foldl (fun m (e : Nat × Seal) => if sealValid e.2 then max m e.2.fn else m) 0
  let b := match goodJournal s with | some j => max a j.pfwFn | none => a
  s.tk.backs.foldl (fun m x => if x.valid then max m x.fn else m) b

/-- TIME48 is taken as the start's. -/
def startTime (t : Nat) (slew : Int) (s : State) : State :=
  let s := (s.put K.timeTime48 t).put K.timeTimeValid (b2n (decide (t ≠ noTime)))
  let s := if t = noTime then s else (s.put (liveKey K.timeSlewLeft) (ofInt 32 slew)).put K.timeSlewLeft (ofInt 32 slew)
  noteTime s

/-- The FN of frame S (R402): RTC_FN, and above the frame of the warning (R5); or one above the highest FN found. (DEDUCED, log 71) -/
def startFn (s : State) : Nat :=
  if s.get K.rtcValid = 1 then max s.dev.rtcFn (match goodJournal s with | some x => x.pfwFn + 1 | none => s.dev.rtcFn)
  else highestFn s + 1

/-- The RTC domain takes the frame and the time of a start. -/
def setRtc (f t : Nat) (s : State) : State := { s with dev := { s.dev with rtcFn := f, rtcTime := t } }

/-- FN, TIME48 and DOWN_FRAMES at a start (R402). (DEDUCED, log 70) -/
def decideTime (s : State) : State :=
  let j := goodJournal s
  let pfw := match j with | some x => x.pfwFn | none => 0
  let f := startFn s
  if s.get K.rtcValid = 1 then
    let t := match j with
      | some x => if x.valid then (s.dev.rtcTime + (f - s.dev.rtcFn)) % 2 ^ 48 else noTime
      | none => noTime
    startTime t (match j with | some x => x.slew | none => 0) ((setRtc f t (s.setFn f)).put K.supDownFrames (f - pfw))
  else
    let s := startTime noTime 0 ((((setRtc f noTime (s.setFn f)).put K.supDownFrames 0).put K.timeInvalidFn f).bump K.rtcLosses)
    legacyEvent 7 (setCause 10 (s.event 0x0807 [f]))

/-! ### The front end (R54, R76, R91, R92) -/

/-- A lane runs its committed table, its degraded table for a RETIRED partner, or nothing. -/
def startLane (f l : Nat) (s : State) : State :=
  let own := decide (s.get (K.laneFState l) = 2)
  let other := decide (s.get (K.laneFState (partner l)) = 2)
  let m := if own then 2 else if other then 1 else 0
  let s := ((s.put (liveKey (K.laneMode l)) m).put (K.laneMode l) m)
  if m = 1 then
    let s := (setLane l { (tget {} s.acq.lanes l) with serves := true } s).put (K.laneTableFn l) f
    if s.get (K.laneFState l) = 0 then unitSet 0 l 3 0 f s else s
  else s

/-- Some lane converts channel `n`. -/
def channelRuns (s : State) (n : Nat) : Bool := decide (s.live (K.laneMode (n / 8)) ≠ 2) || decide (s.live (K.laneMode (partner (n / 8))) ≠ 2)

/-- A coefficient is in effect as committed. -/
def settleCoef (f : Nat) (c : Nat × Nat × Bool) (s : State) : State := (s.put (liveKey c.2.1) (s.cfg f c.1)).put c.2.1 (s.cfg f c.1)

/-- The lanes and modulators run from frame `f`, the first frame S of the start. -/
def startFront (f : Nat) (s : State) : State :=
  let s := { s with acq := { s.acq with first := some f, period := 0, lanes := [], est :=
    if s.pwr.bg = none then [] else s.acq.est }, aln := { next := 16 * f - 3 } }
  let s := bgKeys.foldl (fun s k =>
    let v := (s.pwr.bg.bind (fun t => tlook t k)).getD (oDefault k)
    (s.put (liveKey k) v).put k v) s
  let s := (List.range 32).foldl (fun s l => startLane f l s) s
  let s := allInputs.foldl (fun s k => (coefs k).foldl (fun s c => settleCoef f c s) s) s
  let ks := (List.range 256).filter (fun n => decide (s.cfg f (K.chEnable n) = 1) && channelRuns s n)
  let vs := (List.range 12).filter (fun v => decide (s.cfg f (K.vEnable v) = 1))
  let s := recredit0 f (restartStreams f (ks ++ vs.map (fun v => 256 + v)) s)
  { s with aln := { s.aln with dly := [(f, delayTable s)] } }

/-! ### The image that runs (R386, R387) -/

/-- An activation that power cut short is undone: the record was TRIAL (R386).  A revert of a boot (R387) that was still to come is made
good: the start runs the other slot. (DEDUCED, log 66) -/
def dropTrial (s : State) : State :=
  let s := { s with commits := s.commits.filter (fun c => match c.eff with | .activate _ => false | _ => true) }
  match s.img.hand with
  | some h =>
    let s := { s with img := { s.img with hand := none } }
    match h.fail with
    | some (7, f) => ((s.put (K.imSlotState h.slot) 5).bump K.reverts).event 0x0701 [s.get K.activeSlot, 7, f]
    | _ => ((s.put (K.imSlotState h.slot) 2).bump K.reverts).event 0x0701 [s.get K.activeSlot, 6, h.b]
  | none => s

/-- Only OP_DIGEST of a slot fails, and the other slot passes (R387). -/
def opFails (s : State) (a : Nat) : Bool := decide (bootCheck s a = 9) && sealFits s a && decide (imageCheck s (1 - a) = 0)

/-- The slot that a start runs and the reason for ROM recovery, 0 for none (R387, R388). -/
def bootSlot (recover : Bool) (s : State) : Nat × Nat :=
  let a := s.get K.activeSlot
  if recover then (a, 2)
  else if opFails s a then (a, 0)
  else if imageCheck s a = 0 then (a, 0)
  else if imageCheck s (1 - a) = 0 then (1 - a, 0)
  else (a, 1)

/-- The image that a start runs; an image that fails the checks is passed over for the other one (R387). (DEDUCED, log 67) -/
def pickSlot (k why : Nat) (s : State) : State :=
  let a := s.get K.activeSlot
  let s := if k = a then s
    else
      let s := ((s.put (K.imSlotState a) 5).put (K.imSlotState k) 3).put K.activeSlot k
      (s.bump K.reverts).event 0x0701 [k, 7, s.fn]
  { s with pwr := { s.pwr with booted := k }, img := { s.img with noneValid := decide (why ≠ 0 ∧ imageCheck s 0 ≠ 0 ∧ imageCheck s 1 ≠ 0) } }

/-- Where only OP_DIGEST of the slot that runs fails, the other slot is to be active, and Ozmar reverts to it at the next frame boundary
(R385, R387). (DEDUCED, log 67) -/
def opRevert (k : Nat) (s : State) : State :=
  if opFails s k then
    let h : Handover := { slot := k, b := s.fn, prepared := true, quiet := true, begun := true, switched := true, fail := some (7, s.fn - 1) }
    ((setHand (some h) s).put K.activeSlot (1 - k)).put (K.imSlotState (1 - k)) 3
  else s

/-- The ROM's decision: RUN with a slot, or ROM recovery. (DEDUCED, log 67) -/
def boot (recover : Bool) (s : State) : State :=
  let b := bootSlot recover s
  let s := pickSlot b.1 b.2 s
  if b.2 = 0 then opRevert b.1 (showImage s.fn b.1 (s.setMode .run)) else ((s.setMode .recovery).bump K.recoveries).event 0x0708 [b.2]

/-! ### Ports, engines and the log -/

/-- The ports that are enabled start (R39); the PLC port stays off in ROM recovery (R388), and the time base is OFF without
it (R305). -/
def startPorts (f : Nat) (s : State) : State :=
  let s := { s with units := s.units.map (fun (e : Nat × UnitS) => if 5 * 65536 ≤ e.1 then (e.1, { e.2 with fail := 0, pass := 0 }) else e) }
  let s := if portOff s .t1s then s else t1sStart f s
  if portOff s .plc || decide (s.mode = .recovery) then tbOff f s else plcStart f s

/-- The hash bits that a cut install has left in EMPTY owner slots (R366). (DESIGN CHOICE, log 101) -/
def cutKeys (l : List (Fin 4 × BitVec 256)) (s : State) : State :=
  l.foldl (fun s e => if s.get (K.owner e.1) = 0 then s.put (K.owner e.1) (256 * e.2.toNat) else s) s

/-- Owner slots that an interrupted install left as hash bits without a state become DAMAGED (R366). -/
def damagedSlots (s : State) : State :=
  (List.range 4).foldl (fun s k =>
    let w := s.get (K.owner k)
    if w % 256 = 0 ∧ w ≠ 0 then s.put (K.owner k) (w + 3) else s) s

/-- Acknowledged commits whose B the outage has passed take effect at S (R37); those in effect are forgotten. -/
def carryCommits (f : Nat) (s : State) : State :=
  { s with commits := (s.commits.filter (fun c => !c.done)).map (fun c => { c with b := max c.b f }),
           gens := s.gens.take 1 }

/-- What Gecko leaves for the log at the end of an outage (R406, R407): GECKO-CURRENT, GECKO-EXIT and a GECKO-END per circuit. -/
def geckoLate (g : Gecko) : List Event :=
  match g.exit with
  | none => g.events
  | some (cause, fn, time) =>
    g.events ++ { code := 0x0804, fields := [cause, g.scans], fn := fn, time := time } ::
      g.above.map (fun e =>
        { code := 0x0803, fields := [e.1, (odiv (tget 0 g.mah e.1 : Nat) (2 ^ 40)).toNat, (odiv (tget 0 g.e e.1 : Nat) (2 ^ 40)).toNat, e.2],
          fn := fn, time := time })

/-- Gecko ends (R407): its cause and the RTC counts of the moment. -/
def geckoExit (cause : Nat) (s : State) : State :=
  let g := s.pwr.gecko
  { s with pwr := { s.pwr with gecko := { g with exit := some (cause, s.dev.rtcFn, s.dev.rtcTime) } } }.put K.geckoLastScans g.scans

/-- The records of tamper changes (R403, R411). -/
def tamperLate (l : List Tamper) : List Event :=
  l.map (fun t => { code := 0x0805 + t.kind, fields := [t.st, t.mode], fn := t.fn, time := t.time })

/-- Circuits exist for the Hallmark core once billing resumes; what the profile interval in progress has seen of them stays (R7, R353), and
the stop makes it SHORT. (DEDUCED, log 46) -/
def freshBill (f : Nat) (b : Bill) : Bill :=
  { staleAt := b.staleAt, staleTo := b.staleTo, closes := b.closes, steps := b.steps, hist := b.hist, closedAt := b.closedAt, sched := b.sched, next := f + 2,
    wireRef := b.wireRef, bound := b.bound,
    cct := b.cct.map (fun (e : Nat × BCct) => (e.1, { prof := e.2.prof ||| 16 })) }

/-- Billing starts anew. -/
def startBill (f : Nat) (s : State) : State := { s with bill := freshBill f s.bill }

/-- What is volatile and not yet cleared starts anew. -/
def freshStart (s : State) : State :=
  { s with chg := [], due := [], olds := [], times := s.times.take 64, spi := {}, img := { s.img with lease := none },
           pwr := { s.pwr with done := false, replayed := false, hjBack := true, hj := [], vbatLow := false, vbatFn := none, gap := none,
                               rollAt := none, bg := none } }

/-- The computed loads of the configuration of frame `f` (R22, R23, Table 9.12). -/
def showLoads (f : Nat) (s : State) : State :=
  let l := loads s f
  let s := ((s.putLive K.loadCore0 l.1).putLive K.loadCore1 l.2.1).putLive K.loadHallmarkCyc l.2.2
  (s.putLive K.loadTannery ((rdiv (max l.1 l.2.1 * 10000 : Nat) 390625).toNat % 65536)).putLive K.loadHallmark
    ((rdiv (l.2.2 * 20000 : Nat) 390625).toNat % 65536)

/-- S, for START_MS and the times that count from it. (DEDUCED, log 71) -/
def noteStart (f : Nat) (s : State) : State := { s with pwr := { s.pwr with startFn := f } }

/-- The band at a start (R139): that of BAND; under automatic the 50 Hz band until it is decided. -/
def startBand (f : Nat) (s : State) : State := s.putLive K.pqBandInEffect (if s.cfg f K.pqBand = 2 then 2 else 1)

/-- A start from frame S (R408): the same for power-up and a warm reset. -/
def startRun (recover : Bool) (s : State) : State :=
  let f := s.fn
  let s := boot recover (startBill f (carryCommits f s))
  let s := showLoads f (startPorts f (startFront f (damagedSlots s)))
  noteStart f (startBand f ((showManifest 1 (showManifest 0 s)).putLive K.capState (if s.cfg f K.capEnable = 1 then 0 else 3)))

/-- What the outage left for the log waits for the operational core; Gecko is over. -/
def takeLate (s : State) : State :=
  let late := s.pwr.late ++ tamperLate s.pwr.tamper ++ geckoLate s.pwr.gecko
  let evs := [972, 973].foldl (fun t p => tset [] t p (pageEvents s p)) s.pwr.evPages
  { s with pwr := { s.pwr with late := late, tamper := [], gecko := {}, evPages := evs } }

/-- The start is under way: POWER-UP will be logged, and the hold-up charge is awaited. -/
def upWaits (timed : Bool) (s : State) : State :=
  { s with pwr := { s.pwr with upDue := true, holdTimed := timed, holdFrom := some s.fn } }

/-- Reinstated sectors whose erase the outage has undone are erased (R235). -/
def eraseOut (s : State) : State :=
  ((s.units.filter (fun e => e.2.out)).map (fun e => e.1 - unitKey 4 0)).foldl (fun s k => tkPush (.erase k) s) s

/-- A cold start: the recall, the time, the baselines, and the start from frame S. -/
def coldStart (p : PowerGood) (s : State) : State :=
  let s := setRtcValid (decide (s.get K.rtcValid = 1)) (dropVolatile (freshStart (takeLate (storeOwn s))))
  let s := decideTime (recallPages p.badFrames (s.setFn (startFn s)))
  let s := dropTrial (cutKeys p.keysCut (((replayBaseline s.fn s).bump K.supStarts).put K.supStartCause 0))
  eraseOut (upWaits p.vholdLow (startRun p.recover s))

/-- POWER_GOOD (R393, R408): power good holds for 10 ms, and a cold start runs from the recall to the first frame S. -/
def execPowerGood (p : PowerGood) (s : State) : Host.Outcome State Fault Refusal :=
  .next (if s.mode = .off ∨ s.mode = .sleep ∨ s.mode = .gecko ∨ (s.mode = .lastGasp ∧ s.pwr.done = true) then
    coldStart p (if s.mode = .gecko then geckoExit 0 s else s)
  else s)

end Sys2Proof.Machine
end

