-- ==== Sys2Proof/Machine/BillingResume.lean ====
section
/-! DEFINITION. The resumption of billing (R193 to R195, R342 to R345, R395): the replay of the Stirrup journal, the boundaries that the stop
has cut or passed, and frame G. -/

namespace Sys2Proof.Machine

/-! ### Circuits as the stored pages give them -/

/-- The demand state of circuit `c` in its interval page. -/
def storedDemand (s : State) (c : Nat) : Option Ivl × List Sub :=
  match (storedImg s (928 + c / 32)).ivl.find? (fun e => decide (e.1 = c)) with
  | some e => e.2
  | none => (none, [])

/-- The ratios of the last roll of circuit `c` (R343). (DESIGN CHOICE, log 45) -/
def storedRatio (s : State) (c : Nat) : (Nat × Nat) × (Nat × Nat) :=
  match (storedImg s (256 + 2 * c)).ratio.find? (fun e => decide (e.1 = c)) with
  | some e => e.2
  | none => ((1, 1), (1, 1))

/-- Circuit `c` before the replay. -/
def recallCct (f c : Nat) (s : State) : State :=
  let d := storedDemand s c
  let r := storedRatio s c
  let x : BCct := { prof := (getC s c).prof, ivl := d.1, subs := d.2, ratioI := r.1, ratioE := r.2, unit := s.cfg f (K.cctEnergyUnit c),
                    period := periodNow s (s.cfg f (K.cctSchedule c)),
                    base := [regTot s c 70, regTot s c 64, regTot s c 71, regTot s c 65] }
  setC c x s

/-! ### Replay (R342 to R345) -/

/-- Journal page `n` was sealed. -/
def partSealed (j : Journal) (n : Nat) : Bool := decide (n < j.sealed)

/-- SI and SE estimated from a slot's AI and AE quanta (R343), in units. -/
def ratioSplit (signed : Bool) (j : Nat) (q : List Int) (ri re : Nat × Nat) : Int × Int :=
  let v := fun (d : Int) (r : Nat × Nat) => rdiv (mag d * 2 ^ j * r.1) r.2
  if signed then (if 0 ≤ ati q 0 then (v (ati q 0) ri, 0) else (0, v (ati q 0) ri))
  else (v (ati q 0) ri, v (ati q 1) re)

/-- A field of 24 bits as a number: two's complement where it is signed (R342). -/
def signed24 (signed : Bool) (v : Nat) : Int := if signed = true ∧ 2 ^ 23 ≤ v then (v : Int) - 2 ^ 24 else v

/-- The six quanta of a slot of a circuit, from the circuit part (Table 12.7). -/
def slotQuanta (s : State) (signed : Bool) (at_ : Nat) : List Int :=
  (List.range 6).map (fun i => signed24 (signed && decide (i = 0)) (stirrupField s 1 (at_ + 3 * i)))

/-- One slot of circuit `c`, at byte `at_` of the circuit part, is replayed: its registers and the slot itself, which no store holds yet. -/
def replaySlot (f : Nat) (j : Journal) (b : JCct) (key : Option (Nat × Nat)) (kept : List Int) (at_ : Nat) (s : State) : Option Slot × State :=
  match key with
  | none => (none, s)
  | some (t, p) =>
    if partSealed j (1 + (at_ + 17) / 256) && pageAsOf s (billPage b.c t) j.sPfw then
      let x := getC s b.c
      let q := slotQuanta s (decide (s.cfg f (K.cctMode b.c) = 1)) at_
      let e := ratioSplit (decide (s.cfg f (K.cctMode b.c) = 1)) b.j q x.ratioI x.ratioE
      let d := (List.range 6).map (fun i => ati q i * 2 ^ (40 + b.j)) ++ [e.1 * 2 ^ 40, e.2 * 2 ^ 40]
      let s := (List.range 8).foldl (fun s k => if ati d k = 0 then s else regAdd f b.c (8 * t + k) (ati d k) s) s
      let s := if e = (0, 0) then s else setFlag f b.c 13 s
      (some { tariff := t, period := p, d := d, kept := kept }, s)
    else (Slot.orFree { tariff := t, period := p, d := [], kept := kept }, s)

/-- An interval of the journal on the base of its stored page. (DEDUCED, log 68) -/
def replayIvl (s : State) (c j : Nat) (v : Ivl) (imp exp : Int) : Ivl :=
  let b := match storedIvl s c with | some w => if sameIvl v w then (w.imp, w.exp) else (0, 0) | none => (0, 0)
  { v with imp := b.1 + imp * 2 ^ (40 + j), exp := b.2 + exp * 2 ^ (40 + j) }

/-- The circuit and interval parts of one circuit. (DEDUCED, log 68) -/
def replayCct (f : Nat) (j : Journal) (b : JCct) (s : State) : State :=
  let ra := replaySlot f j b b.keyA b.keptA (36 * b.c) s
  let rb := replaySlot f j b b.keyB b.keptB (36 * b.c + 18) ra.2
  let s := rb.2
  let x := getC s b.c
  let on := partSealed j (37 + (12 * b.c + 11) / 256) && pageAsOf s (928 + b.c / 32) j.sPfw
  let x := { x with slotA := ra.1, slotB := rb.1, tariff := b.tariff, susp := b.susp }
  let q := fun (i : Nat) => (stirrupField s 37 (12 * b.c + 3 * i) : Int)
  let x := if on then
      { x with
        ivl := b.ivl.map (fun e => replayIvl s b.c b.j e.1 (q 2) (q 3)), subs := b.subs,
        closing := b.closing.map (fun e => { e.1 with ivl := replayIvl s b.c b.j e.1.ivl (q 0) (q 1), held := false }) }
    else x
  let s := setC b.c x s
  if b.est && pageAsOf s (257 + 2 * b.c) j.sPfw then setFlag f b.c 13 s else s

/-- Entries of one event of the tail, flagged as from the tail (Table 12.14). -/
def tailMark (b : Bytes) : Bytes :=
  let e := b.take 18 ++ [(b.getD 18 0) ||| 2] ++ slice b 19 11
  e ++ le 2 (crc16 e)

/-- The event tail (R345 step 2, R355): events above the newest one logged that sealed pages hold are programmed; TAIL_LOST is counted
once for each journal. -/
def replayTail (j : Journal) (s : State) : State :=
  let top := s.tk.evs.foldl (fun m e => max m e.seq) 0
  let new := (j.tail.zipIdx.filter (fun e => decide (top < e.1.1) && partSealed j (55 + e.2 / 8))).map (fun e => e.1)
  let seqs := (new.map (fun e => e.1)).eraseDups
  let s := seqs.foldl (fun s q =>
    let es := (new.filter (fun e => decide (e.1 = q))).map (fun e => tailMark e.2)
    tkPush (.event q) (setTk (fun t => { t with evs := t.evs ++ [{ seq := q, entries := es }] }) s)) s
  let s := showLogs s
  if j.lost = 0 ∨ s.pwr.tailDone = j.runFn then s
  else ({ s with pwr := { s.pwr with tailDone := j.runFn } }.bumpBy K.eventsLost j.lost).event 0x0607 [j.lost]

/-- The frame whose data the last store of a page holds, or the backup that it was restored from. -/
def storedFn (s : State) (p : Nat) : Nat :=
  let x := servingSeal s p
  if sealValid x then x.fn else (match newestBackup s with | some b => b.fn | none => x.fn)

/-- A period close that came after the last store of a page is done again on what the page held (R193 step 3). (DEDUCED, log 49) -/
def redoClose (f c : Nat) (s : State) : State :=
  match tlook s.bill.closedAt (s.cfg f (K.cctSchedule c)) with
  | none => s
  | some x =>
    if (mdPagesOf c).any (fun p => decide (storedFn s p < x)) then clearMaxima f c s else s

/-- TOTAL of every kind is derived from the sets (R173, R345 step 6). (DEDUCED, log 51) -/
def deriveTotals (f c : Nat) (s : State) : State := (List.range 8).foldl (fun s k => putReg f c (64 + k) (setSum s c k) s) s

/-- What the replay has entered into the sets of a kind (R345). -/
def replayedSum (x : BCct) (kind : Nat) : Int :=
  sumI ([x.slotA, x.slotB].map (fun o => match o with | some y => ati y.d kind | none => 0))

/-- The stored TOTAL of circuit `c` and its stored sets are of one moment: of one roll, or the sets of the page not stored with TOTAL have
not changed since. (DEDUCED, log 51) -/
def totalStands (s : State) (c : Nat) : Bool :=
  let lo := storedFn s (256 + 2 * c)
  let hi := storedFn s (257 + 2 * c)
  let x := getC s c
  decide (lo = hi) || (decide (lo < hi) && [x.slotA, x.slotB].all (fun o => match o with
    | some y => decide (4 ≤ y.tariff) || y.d.all (fun v => decide (v = 0)) | none => true))

/-- TOTAL after the replay (R173, R345 step 6): the stored value takes what the sets have taken and is checked; one that was stored apart
from the sets is derived from them. (DEDUCED, log 51) -/
def totalsBack (f c : Nat) (s : State) : State :=
  if totalStands s c then
    checkTotals f c ((List.range 8).foldl (fun s k =>
      let v := replayedSum (getC s c) k
      if v = 0 then s else regAdd f c (64 + k) v s) s)
  else deriveTotals f c s

/-- Registers of circuit `c`, recalled in the units of their pages, are expressed in the unit in effect (R191). -/
def unitBack_ (f c : Nat) (s : State) : State :=
  let u := s.cfg f (K.cctEnergyUnit c)
  let signed := decide (s.cfg f (K.cctMode c) = 1)
  let half := fun (t : Nat) => pageUnit s (billPage c t) c
  let s := if half 0 = u ∧ half 4 = u then s
    else deriveTotals f c ((List.range 64).foldl (fun s i => rescaleReg f c i (half (i / 8)) u (signed && decide (i % 8 = 0)) s) s)
  let x := getC s c
  let r := fun (o : Nat) (y : Int) => rescaleI y o u
  let sl := fun (y : Slot) => { y with d := y.d.map (r (half y.tariff)), kept := y.kept.map (r (half y.tariff)) }
  let iu := pageUnit s (928 + c / 32) c
  let iv := fun (v : Ivl) => { v with imp := r iu v.imp, exp := r iu v.exp }
  let sb := fun (b : Sub) => { b with imp := r iu b.imp, exp := r iu b.exp }
  setC c { x with slotA := x.slotA.map sl, slotB := x.slotB.map sl, ivl := x.ivl.map iv, subs := x.subs.map sb,
                  closing := x.closing.map (fun k => { k with ivl := iv k.ivl, prev := k.prev.map sb }) } s

/-- Records of periods that closed before the stop and are not programmed are built again (R195). (DEDUCED, log 49) -/
def rebuildHist (s : State) : State :=
  let one := fun (h : HistRec) => { h with ccts := h.ccts.map (fun e =>
    let r := histRegs s h.sched h.period e.1
    (e.1, r.1, r.2, e.2.2.2.1, e.2.2.2.2)) }
  { s with bill := { s.bill with hist := s.bill.hist.map one } }

/-- JOURNAL-SHORT (R344). -/
def journalShort (j : Journal) (s : State) : State := (s.bump K.journalShort).event 0x0602 [j.pfwFn, j.sealed, j.pages]

/-- Steps 2 to 6 of Table 12.9: the circuits of the journal and of the pages, in the state of frame `f`, the one before G. -/
def replayJournal (f : Nat) (s : State) : State :=
  let j := goodJournal s
  let cs := (definedCcts s f ++ (match j with | some x => x.ccts.map (fun b => b.c) | none => [])).eraseDups
  let s := cs.foldl (fun s c => redoClose f c (recallCct f c s)) s
  let s := match j with
    | some x =>
      if x.running then
        let s := replayTail x { s with bill := { s.bill with bound := x.bound } }
        let s := x.ccts.foldl (fun s b => replayCct f x b s) s
        let s := (s.bump K.replays).event 0x0601 [x.pfwFn, x.sealed, x.ccts.foldl (fun m b => max m b.j) 0]
        if x.sealed < x.pages then journalShort x s else s
      else s
    | none => (match s.pwr.journal with | some x => journalShort { x with sealed := 0 } s | none => s)
  let again : Bool := match j with | some x => x.running | none => false
  let s := cs.foldl (fun s c => unitBack_ f c (if again then totalsBack f c s else s)) s
  rebuildHist { s with pwr := { s.pwr with replayed := true } }

/-! ### Steps 2 to 8 of R193 -/

/-- Step 2: the closing interval is evaluated, or its maxima are taken again, unless its period has closed since. (DEDUCED, log 49) -/
def evalClosing (f c : Nat) (s : State) : State :=
  let x := getC s c
  match x.closing with
  | none => s
  | some k =>
    let closed := match tlook s.bill.closedAt (s.cfg f (K.cctSchedule c)) with | some g => decide (k.fn ≤ g) | none => false
    let s := setC c { x with closing := some { k with done := true } } s
    if k.done = false then evalIvl f c k.tariff k.time k.ivl k.prev s
    else if closed then s
    else (evalMaxima f c k.tariff k.time k.ivl k.prev s).2

/-- Step 4: the stale-state causes that a start decides (Table 6.10b). -/
def startCauses (s : State) : State :=
  let s := if s.get K.installToken = 0 then raiseStale 0 s else s
  let s := if s.get K.repaired = 1 then raiseStale 2 s else s
  let was := match goodJournal s with | some j => j.valid | none => false
  if was && !s.timeValid then raiseStale 3 s else s

/-- A page is stored at once, before frame G accrues (R191). -/
def storeNow (p : Nat) (s : State) : State :=
  let j := beginJob s { page := p, fn := s.bill.next - 1, hall := true }
  storeSealed j s.jobs (writeFrame true j (holdSlots p s))

/-- The forced roll of one circuit, which its rotation position then skips (R336). -/
def rollOne (f c : Nat) (s : State) : State :=
  let s := modPage (256 + 2 * c) (fun p => { p with rolled := s.fn }) (checkTotals f c (keepRatios c s))
  ([256 + 2 * c, 257 + 2 * c] ++ mdPagesOf c ++ [928 + c / 32]).foldl (fun s p => storeNow p s) s

/-- A forced roll that completes before frame G: circuits in ascending order, counted once (R336). (DEDUCED, log 49) -/
def rollNow (f : Nat) (cs : List Nat) (s : State) : State :=
  if cs = [] then s else cs.foldl (fun s c => rollOne f c s) (s.bump K.forcedRolls)

/-- Circuits whose journal has no slot for the key of frame `g` are rolled first, so that nothing waits (R191). (DEDUCED, log 49) -/
def makeRoom (g : Nat) (s : State) : State :=
  rollNow (g - 1) ((definedCcts s (g - 1)).filter (fun c =>
    let sc := s.cfg g (K.cctSchedule c)
    let p := periodKey sc (s.get (K.bpPeriodNo sc) + b2n (decide (closeCause s g sc true ≠ none)))
    !slotRoom (tariffOf s g sc) p (getC s c))) s

/-- The circuits whose closing interval ended at frame `x`. -/
def closedAt (s : State) (x : Nat) : List Nat :=
  (s.bill.cct.map (fun e => e.1)).filter (fun c => match (getC s c).closing with | some k => decide (k.fn = x) | none => false)

/-- Step 3: boundary steps of the last frames before the stop that were not done (R192); a frame at which only intervals ended is a
boundary frame too (R189). -/
def finishSteps (j : Journal) (s : State) : State :=
  (List.range (j.runFn + 1 - j.from_)).foldl (fun s i =>
    let x := j.from_ + i
    (boundaries x false false (closedAt s x) (makeRoom x s)).2) s

/-- Step 5: the interval interrupted by the stop continues SHORT, or closes SHORT and another one starts. -/
def resumeIvl (g c : Nat) (s : State) : Bool × State :=
  let x := getC s c
  let w := newIvl s g c true
  match x.ivl with
  | none => (false, setC c { x with ivl := some w } s)
  | some v =>
    if sameIvl v w && decide (v.mins = w.mins) && (v.slide == w.slide) then
      (false, setC c { x with ivl := some { v with short := true, tinv := v.tinv || w.tinv } } s)
    else if x.susp then (false, setC c { x with ivl := some w, subs := [] } s)
    else
      let s := if x.closing = none then s else rollNow (g - 1) [c] s
      (true, closeIvl g c true false s)

/-- Step 5 over the circuits; those whose interval closed. -/
def resumeIvls (g : Nat) : List Nat → State → List Nat × State
  | [], s => ([], s)
  | c :: cs, s =>
    let a := resumeIvl g c s
    let b := resumeIvls g cs a.2
    (if a.1 then c :: b.1 else b.1, b.2)

/-- Step 8: what frame G absorbs, the baselines at the end of G − 1 less the marks (R128). (DEDUCED, log 68) -/
def absorbTable (s : State) : Tab (Nat × Nat) :=
  (List.range 256).foldl (fun t n => tset (0, 0) t n
    (regTotal s (K.chAiBase n) - s.get (markKey n 0), regTotal s (K.chAeBase n) - s.get (markKey n 1))) []

/-- The frame at which billing goes on. -/
def setNext (g : Nat) (s : State) : State := { s with bill := { s.bill with next := g, begun := false } }

/-- Billing runs from frame `g`; circuits take what stands on their channels. -/
def setRunning (g : Nat) (s : State) : State := { s with bill := { s.bill with g := some g, absorb := absorbTable s } }

/-- The journal is replayed once per start. -/
def replayOnce (f : Nat) (s : State) : State := if s.pwr.replayed then s else replayJournal f s

/-- The closing intervals, and the steps that the stop had left undone. (DEDUCED, log 49) -/
def redoSteps (f : Nat) (fresh : Bool) (s : State) : State :=
  let s := (definedCcts s f).foldl (fun s c => evalClosing f c s) s
  match fresh, goodJournal s with
  | true, some j => if j.running then finishSteps j s else s
  | _, _ => s

/-- The boundaries that frame `g` passes. -/
def resumeBounds (g : Nat) (s : State) : State :=
  let (closed, s) := resumeIvls g (definedCcts s (g - 1)) s
  (boundaries g true false closed (makeRoom g s)).2

/-- The steps of R193 before frame `g`. (DEDUCED, log 50; DEDUCED, log 51) -/
def resumeAt (g : Nat) (s : State) : State :=
  let s := startCauses (redoSteps (g - 1) (!s.pwr.replayed) (replayOnce (g - 1) (setNext g s)))
  let s := showCalendar g true (resumeBounds g s)
  setRunning g (s.put K.supStartMs (min 65535 (6 + (g - s.pwr.startFn) * 1000 / 1024)))

/-- BILLING_RESUME (R193, R395): the legal core is verified and HOLD_OK is set; frame G is the first one that the Tannery has not computed
yet. (DEDUCED, log 50) -/
def execBillingResume (s : State) : Host.Outcome State Fault Refusal :=
  .next (if coreRuns s ∧ s.bill.g = none ∧ bit (s.get K.supSupplyStatus) 7 = true then
    match s.acq.first with
    | some f0 => resumeAt (max (f0 + 2) (match s.tan.baseFn with | some b => b + 1 | none => f0 + 2)) s
    | none => s
  else s)

end Sys2Proof.Machine
end

