-- ==== Sys2Proof/Machine/Checks.lean ====
section
/-! DEFINITION. Checks of current and voltage channels (R215, R216, R224 to R227): the scheduled check, the extra check after a failure,
retirement, modulator resets. -/

namespace Sys2Proof.Machine

/-- A stream has run into identical codes in the last 1,024 frames (R225). -/
def stuckFails (s : State) (f k : Nat) : Bool :=
  match (tget {} s.aln.streams k).stuck with | some g => decide (f < g + 1024) | none => false

/-- A modulator has reported instability in the last 1,024 frames (R227). -/
def unstableFails (s : State) (f v : Nat) : Bool :=
  match (tget {} s.aln.streams (256 + v)).unstable with | some g => decide (f < g + 1024) | none => false

/-- The check of a unit is noted, so that a frame decides it once. -/
def noteCheck (k f : Nat) (s : State) : State := { s with acq := { s.acq with lastChk := tset 0 s.acq.lastChk k (f + 1) } }

/-- The extra check after a failure is due 16 frames later. (DEDUCED, log 53) -/
def extraDue (k f : Nat) (s : State) : State := { s with acq := { s.acq with extra := s.acq.extra ++ [(k, f + 16)] } }

/-- A check of kind 1 or 2 in frame `f`, with the cause of its first failed part, or 0: counted, retried, and retired at the third
failure in a row (R215, R226, R227). (DEDUCED, log 53) -/
def unitCheck (kind num k cause f : Nat) (s : State) : State :=
  let s := noteCheck k f s
  if cause = 0 then unitPass kind num f (s.cfg f K.chOkRun) s
  else
    let r := unitFail kind num cause f (s.cfg f K.chRetireRun) s
    if r.2 then r.1 else extraDue k f r.1

/-- The check of CH-n in frame `f` (R226): open input, then stuck code. (DEDUCED, log 53) -/
def chanCheck (f n : Nat) (s : State) : State :=
  let stuck := stuckFails s f n
  let s := if stuck then s.bump (K.chFStuckFails n) else s
  unitCheck 1 n n (if n ∈ s.acq.openFail then 5 else if stuck then 6 else 0) f s

/-- A current channel may be checked: RUN, enabled, not RETIRED, its lane running, and sample period 8 of the frame past. -/
def chanReady (s : State) (n : Nat) : Bool :=
  decide (s.mode = .run) && decide (s.cfg s.fn (K.chEnable n) = 1) && decide (s.get (K.chFState n) ≠ 2) &&
  decide (s.live (K.laneMode (n / 8)) ≠ 2) && decide (8 < s.acq.period)

/-- CHANNEL_CHECK (R224, R226): the scheduled check, in frames with FN mod 128 = 0 for input (FN / 128) mod 8 of each lane. -/
def execChannelCheck (ch : Fin 256) (s : State) : Host.Outcome State Fault Refusal :=
  .next (if chanReady s ch.val ∧ s.fn % 128 = 0 ∧ s.fn / 128 % 8 = ch.val % 8 ∧ tget 0 s.acq.lastChk ch.val ≠ s.fn + 1 then
    chanCheck s.fn ch.val s
  else s)

/-- The extra check of a channel can still come: enabled, not RETIRED, its lane running (R226). -/
def extraLive (s : State) (n : Nat) : Bool :=
  decide (n < 256) && decide (s.cfg s.fn (K.chEnable n) = 1) && decide (s.get (K.chFState n) ≠ 2) &&
    decide (s.live (K.laneMode (n / 8)) ≠ 2)

/-- The extra check of CH-n is due now (R226): not in a frame of a scheduled test, nor beside one of a lower channel of its lane. -/
def extraNow (s : State) (n : Nat) : Bool :=
  s.acq.extra.any (fun e => decide (e.1 = n) && decide (e.2 ≤ s.fn)) && decide (s.fn % 128 ≠ 0) &&
  s.acq.extra.all (fun e => decide (e.1 / 8 ≠ n / 8) || decide (n ≤ e.1) || decide (s.fn < e.2) || !extraLive s e.1) &&
  (List.range 8).all (fun i => decide (tget 0 s.acq.lastChk (8 * (n / 8) + i) ≠ s.fn + 1))

/-- The extra check of a unit is taken off the list. -/
def extraDone (k : Nat) (s : State) : State :=
  { s with acq := { s.acq with extra := s.acq.extra.filter (fun e => decide (e.1 ≠ k) || decide (s.fn < e.2)) } }

/-- CHANNEL_EXTRA_CHECK (R226): a fresh open-input test 16 frames after a failure, and the check that it decides. -/
def execChannelExtraCheck (ch : Fin 256) (cmMv : Int) (s : State) : Host.Outcome State Fault Refusal :=
  .next (if chanReady s ch.val && extraNow s ch.val then
    chanCheck s.fn ch.val (openTest s.fn ch.val cmMv (extraDone ch.val s))
  else s)

/-- VOLTAGE_CHECK (R227): open input, stuck code and modulator stability, in frames with FN mod 1,024 = 512 + 8 v and 16 frames after
a failure. (DEDUCED, log 53) -/
def execVoltageCheck (v : Fin 12) (cmMv : Int) (s : State) : Host.Outcome State Fault Refusal :=
  let f := s.fn
  let k := 256 + v.val
  let extra := s.acq.extra.any (fun e => decide (e.1 = k) && decide (e.2 ≤ f))
  .next (if s.mode = .run ∧ s.cfg f (K.vEnable v.val) = 1 ∧ s.get (K.vFState v.val) ≠ 2 ∧ 8 < s.acq.period ∧
      (f % 1024 = 512 + 8 * v.val ∨ extra = true) ∧ tget 0 s.acq.lastChk k ≠ f + 1 then
    let cause := if (s.cfg f K.cmLimit : Int) < mag cmMv then 5 else if stuckFails s f k then 6
      else if unstableFails s f v.val then 7 else 0
    unitCheck 2 v.val k cause f (extraDone k s)
  else s)

/-- MODULATOR_INSTABILITY (R227): the modulator is reset at once; the periods that the reset disturbs come flagged (R221). -/
def execModulatorInstability (v : Fin 12) (s : State) : Host.Outcome State Fault Refusal :=
  let k := 256 + v.val
  .next (if s.mode = .run ∧ s.cfg s.fn (K.vEnable v.val) = 1 then
    { s with aln := { s.aln with streams := tmod {} s.aln.streams k (fun st => { st with unstable := some s.fn }) } }
  else s)

end Sys2Proof.Machine
end

