-- ==== Sys2Proof/Machine/Credit.lean ====
section
/-! DEFINITION. The return of ring credit where a consumer outside the cores finishes with an entry (R14, R15, Table 1.5). -/

namespace Sys2Proof.Machine

/-- A network port hands out the oldest frame of RING-12 or RING-13. -/
def portSend (r12 : Bool) (port : Port) (s : State) : State :=
  match port with
  | .t1s => t1sSend r12 s
  | .plc => plcSend r12 s
  | _ => s

/-- RING_CREDIT_AVAILABLE (R15): a consumer is done with an entry of a ring, and what waited for its room goes on.  The networks take
frames from RING-12 and RING-13, the modem ends a broadcast of RING-14, the posts that waited for RING-6 and RING-7 are made.  Other
rings get their credit back in the step that consumes the entry. -/
def execRingCreditAvailable (ring : Fin 16) (port : Port) (s : State) : Host.Outcome State Fault Refusal :=
  .next (match ring.val with
    | 6 => pumpRolls s
    | 7 => profPump s
    | 12 => portSend true port s
    | 13 => portSend false port s
    | 14 => pump14 (endBroadcasts 1 s)
    | 15 => pump15 s
    | _ => s)

end Sys2Proof.Machine
end

