-- ==== Sys2Proof/Machine/Supply.lean ====
section
/-! DEFINITION. Supplies, the RTC, the tamper inputs, the operational core's start and the warm reset (R345 step 7, R394, R397,
R401 to R403, R408, R409). -/

namespace Sys2Proof.Machine

/-! ### The hold-up charger (R394) -/

/-- HOLD_OK (R394): VHOLD first reaches 11.8 V after power good, `chargeUs` µs after it passed 9.0 V. -/
def execHoldOk (chargeUs : Nat) (s : State) : Host.Outcome State Fault Refusal :=
  .next (if (s.mode = .run ∨ s.mode = .recovery) ∧ bit (s.get K.supSupplyStatus) 7 = false then
    let s := supBit 7 true s
    if s.pwr.holdTimed then
      let cap := min 65535 (odiv (chargeUs : Nat) 28).toNat
      let s := s.put K.supHoldCap cap
      if cap * 10 < 8 * s.get K.stirrupCap then (supBit 6 true s).event 0x0809 [cap, s.get K.stirrupCap] else s
    else s
  else s)

/-- HOLD_FAULT (R394): VHOLD stays below 11.8 V for 10 s in RUN. (DEDUCED, log 72) -/
def execHoldFault (mv : Nat) (s : State) : Host.Outcome State Fault Refusal :=
  .next (if s.mode = .run ∧ mv < 11800 ∧ bit (s.get K.supSupplyStatus) 5 = false ∧ s.pwr.startFn + 10240 ≤ s.fn then
    (supBit 5 true s).event 0x080A [mv]
  else s)

/-! ### VBAT and the RTC (R397, R401, R402) -/

/-- VBAT_OK, VBAT_LOW and VBAT_ABSENT follow a measurement. -/
def vbatBits (mv : Nat) (s : State) : State :=
  supBit 2 (decide (mv < 2200)) (supBit 3 (decide (mv < 2600)) (supBit 4 (decide (s.cfg s.fn K.geckoVbatMin ≤ mv)) s))

/-- A measurement of VBAT in RUN; VBAT-LOW is logged once per start. -/
def noteVbat (mv : Nat) (s : State) : State :=
  let s := vbatBits mv { s with pwr := { s.pwr with vbat := mv, vbatFn := some s.fn } }
  if mv < 2600 ∧ s.pwr.vbatLow = false then { s with pwr := { s.pwr with vbatLow := true } }.event 0x0808 [mv] else s

/-- VBAT_MEASURE (R397, Table 14.9): once per second in RUN. (DEDUCED, log 72) -/
def execVbatMeasure (vdd33 vld vhold vbat : Nat) (s : State) : Host.Outcome State Fault Refusal :=
  let due := match s.pwr.vbatFn with | some f => decide (s.fn < f) || decide (f + 1024 ≤ s.fn) | none => true
  .next (if s.mode = .run ∧ due = true then
    let s := ((s.putLive K.supVdd33Mv (min 65535 vdd33)).putLive K.supVldMv (min 65535 vld)).putLive K.supVholdMv (min 65535 vhold)
    noteVbat vbat (s.putLive K.supVbatMv (min 65535 vbat))
  else s)

/-- VBAT_COLLAPSE (R402): VBAT falls below 2,200 mV while the device is not powered from VDD33. (DEDUCED, log 70) -/
def execVbatCollapse (s : State) : Host.Outcome State Fault Refusal :=
  .next (if s.mode = .gecko ∨ s.mode = .sleep ∨ s.mode = .off ∨ s.mode = .lastGasp then setRtcValid false s else s)

/-- RTC_COUNT_ADVANCE (R401): RTC_FN and RTC_TIME advance by one, in every mode but OFF. -/
def execRtcCountAdvance (s : State) : Host.Outcome State Fault Refusal :=
  .next (if s.mode = .off then s
  else
    let t := s.dev.rtcTime
    { s with dev := { s.dev with rtcFn := (s.dev.rtcFn + 1) % 2 ^ 48, rtcTime := if t = noTime then noTime else (t + 1) % 2 ^ 48 } })

/-! ### Tamper inputs (R403) -/

/-- An accepted change: logged at once in RUN, else buffered in the VBAT domain. (DEDUCED, log 67) -/
def tamperChange (kind st : Nat) (s : State) : State :=
  let s := if st = 1 then s.bump (if kind = 0 then K.coverOpens else K.magDetects) else s
  if s.mode = .run ∨ s.mode = .recovery then s.event (0x0805 + kind) [st, s.mode.num]
  else if s.pwr.tamper.length < 16 then
    { s with pwr := { s.pwr with tamper := s.pwr.tamper ++ [⟨kind, st, s.mode.num, s.dev.rtcTime, s.dev.rtcFn⟩] } }
  else s.bump K.tamperLost

/-- One input is sampled: two equal consecutive samples are accepted.  The accepted state lives in the VBAT domain, and a sample that
confirms it shows it in COVER_STATE or MAG_STATE, which a start has set to their default (R244, R403). (DEDUCED, log 67) -/
def tamperInput (kind : Nat) (high : Bool) (s : State) : State :=
  let pol := s.cfg s.fn (if kind = 0 then K.coverPol else K.magPol)
  let st := b2n (high != decide (pol = 1))
  let same := decide (tlook s.pwr.samples kind = some st)
  let s := { s with pwr := { s.pwr with samples := tins s.pwr.samples kind st } }
  if same then
    let moved := decide (tget 0 s.pwr.accepted kind ≠ st)
    let s := (s.putV (if kind = 0 then K.coverState else K.magState) st)
    let s := { s with pwr := { s.pwr with accepted := tset 0 s.pwr.accepted kind st } }
    if moved then tamperChange kind st s else s
  else s

/-- TAMPER_SAMPLE (R403): the levels of COVER and MAGTAMP, every 31.25 ms in every mode but OFF. -/
def execTamperSample (cover mag : Bool) (s : State) : Host.Outcome State Fault Refusal :=
  .next (if s.mode = .off then s else tamperInput 1 mag (tamperInput 0 cover s))

/-! ### The operational core (R408, R159, R345 step 7) -/

/-- An event takes its place among those of its frame and earlier ones. -/
def insEvent (e : Event) : List Event → List Event
  | [] => [e]
  | x :: l => if e.fn < x.fn then e :: x :: l else x :: insEvent e l

/-- Events in FN order, those of one frame as they came. -/
def sortEvents (l : List Event) : List Event := l.foldl (fun a e => insEvent e a) []

/-- A deferred event is logged; GECKO-END clears the circuit's GECKO_FLAGS (R407). -/
def logLate (e : Event) (s : State) : State :=
  let s := eventFlags e (numberEvent e s)
  if e.code = 0x0803 then s.put (K.geckoFlags (e.fields.headD 0)) 0 else s

/-- Free bytes of a capture header that its data blocks do not give. (DESIGN CHOICE, log 88) -/
def lostBytes (id at_ n : Nat) : Bytes :=
  (List.range n).map (fun (i : Nat) => BitVec.ofNat 8 (Config.openResult 159 [(id : Int), ((at_ + i : Nat) : Int)]).toNat)

/-- The number of channels of a capture (R158): that of which a full first block holds `rows` rows, else a free one of 1 to 28.
(DESIGN CHOICE, log 88) -/
def lostCount (id rows : Nat) (full : Bool) : Nat :=
  match (List.range 28).find? (fun i => full && decide (rowsPerBlock (i + 1) = rows)) with
  | some i => i + 1
  | none => 1 + (Config.openResult 159 [(id : Int)]).toNat % 28

/-- Blocks of a capture that wait for the writer in RING-8. -/
def waitingBlocks (s : State) (id : Nat) : List CapBlock := s.cap.ring8.filter (fun b => decide (b.id = id))

/-- The header block that is programmed from the data blocks of a capture cut short, programmed or waiting (R159, Table 5.5): what no data
block gives is free. (DEDUCED, log 74; DESIGN CHOICE, log 88) -/
def lostHeader (s : State) (c : CapRec) : Bytes :=
  let rows := c.data.map (fun a => at_ (tkBytes s a 16) 6 2) ++ (waitingBlocks s c.id).map (fun b => at_ b.bytes 6 2)
  let n := lostCount c.id (rows.headD 0) (decide (2 ≤ rows.length))
  let free := fun (i k : Nat) => lostBytes c.id i k
  padBlock (le 2 1 ++ le 2 (rows.length + 1) ++ le 4 c.id ++ free 8 23 ++ le 1 n ++ free 32 4 ++
    le 2 (1 + 2 * ((Config.openResult 159 [(c.id : Int), 36]).toNat % 8)) ++ le 2 (sumN rows) ++ free 40 4 ++ le 4 0 ++
    free 48 (2 * n) ++ List.replicate (2 * (28 - n)) 0xFF)

/-- The header of a capture that power or a reset cut short is programmed behind its data blocks, marked TRUNCATED, and CAPTURE-STORED
gives its CAUSE and FLAGS (R159); one that is still in progress, or whose header waits, is left alone. -/
def closeCapture (c : CapRec) (s : State) : State :=
  let mine := waitingBlocks s c.id
  if c.header || mine.any (fun b => decide (b.seq = 0)) || s.cap.cur.any (fun x => decide (x.id = c.id)) ||
      s.tk.queue.any (fun j => match j.op with | .capture b => decide (b.id = c.id ∧ b.seq = 0) | _ => false) then s
  else
    let h := lostHeader s c
    let b : CapBlock := { id := c.id, seq := 0, cause := at_ h 28 2, flags := at_ h 36 2, bytes := h }
    if mine ≠ [] ∧ s.cap.ring8.length < 64 then { s with cap := { s.cap with ring8 := s.cap.ring8 ++ [b] } } else tkPush (.capture b) s

/-- The captures that have data blocks, programmed or waiting. -/
def capturesOf (s : State) : List CapRec :=
  let known := s.tk.caps
  let ids := ((s.cap.ring8.map (fun b => b.id)).filter (fun i => known.all (fun c => decide (c.id ≠ i)))).eraseDups
  known ++ ids.map (fun i => { id := i, addr := 0 })

/-- The host journal is restored from its sealed pages (R345 step 7). (DEDUCED, log 74) -/
def hostJournal (s : State) : State :=
  match s.pwr.hjBack, goodJournal s with
  | true, some j =>
    let m := j.hj.filter (fun (e : Nat × Nat) => partSealed j (59 + e.1 / 256))
    let s := { s with pwr := { s.pwr with hj := m, hjBack := false } }
    if j.running then s.put K.hjFn j.pfwFn else s
  | _, _ => { s with pwr := { s.pwr with hjBack := false } }

/-- POWER-UP of a start that has come this far (R408). (DEDUCED, log 56) -/
def powerUpEvent (s : State) : List Event :=
  if s.pwr.upDue then
    [{ code := 0x0801, fields := [s.get K.supStartCause, s.get K.supDownFrames, s.get K.rtcValid], fn := s.fn, time := s.time }]
  else []

/-- OPERATIONAL_CORE_READY (R30, R408): once the first frame of this start has been published, deferred events are logged in FN order,
READY becomes 1 and BOOT is raised; after a start, not after an image activation, the legacy event word says so (R281, R287). -/
def execOperationalCoreReady (s : State) : Host.Outcome State Fault Refusal :=
  .next (if s.mode = .run ∧ s.ready = false ∧ s.current ≠ none then
    let up := s.pwr.upDue
    let s := (sortEvents s.pwr.late ++ powerUpEvent s).foldl (fun s e => logLate e s) { s with pwr := { s.pwr with late := [], upDue := false } }
    let s := hostJournal s
    let s := (capturesOf s).foldl (fun s c => closeCapture c s) s
    let s := setCause 7 { s with ready := true }
    if up then legacyEvent 8 s else s
  else s)

/-! ### Warm reset (R409) -/

/-- SRAM, the RTC domain and the supervisor keep their objects, with SLEW_LEFT, the page and twin record objects that the last recall has
judged, STIRRUP_PAGES and HJ_FN; so do counts since power-up.  Measurements of the supplies and ROLL_POSITION start at their defaults
(R244, R409). (DEDUCED, log 74) -/
def keptWarm (k : Nat) : Bool :=
  let o := objKey k
  keptKey k || rollKey k || decide (o ∈ [K.supSupplyStatus, K.supStartCause, K.rtcValid, K.timeSlewLeft, K.stirrupPages, K.hjFn]) ||
  (decide (0x7000 ≤ o / 256 ∧ o / 256 < 0x7040) && decide (o ≠ K.rollPosition)) ||
  decide (0x2300 ≤ o / 256 ∧ o / 256 < 0x2400 ∧ 8 ≤ o % 256)

/-- A store in progress completes before the reset takes effect, and the writes that it has held enter SRAM (R328, R329). -/
def finishStore (s : State) : State :=
  match s.jobs with
  | j :: js =>
    let s := { storeSealed j [] (writeFrame true j { s with jobs := [j], rollq := [] }) with jobs := [], rollq := [] }
    (js.filter (fun k => decide (k.page = j.page))).foldl (fun s k => takeWrite k s) s
  | [] => { s with rollq := [] }

/-- Operations of the Tackroom's writer survive in SRAM; nobody waits for them any more. -/
def untag (j : TkJob) : TkJob := match j.op with | .image k us _ => { j with op := .image k us none } | _ => j

/-- The core state that a warm reset keeps, since SRAM holds it. (DEDUCED, log 74) -/
def warmCut (s : State) : State :=
  let l := s.bill.next - 1
  let runs := billingRuns s
  let done := s.bill.cct.filterMap (fun (e : Nat × BCct) => if lastAccrued s e.1 = l then none else some e.1)
  let ring5 := s.ring5
  let queue := s.tk.queue.map untag
  let backs := s.tk.backs
  let cap : Cap := { lastId := s.cap.lastId, ring8 := s.cap.ring8 }
  let fn := s.tan.baseFn
  let ents := s.tan.baseEnt
  let s := powerCut s
  { s with ring5 := ring5, cap := cap, tk := { s.tk with queue := queue, backs := backs },
           tan := { baseFn := fn, baseEnt := ents }, spi := { pfwN := s.spi.pfwN },
           pwr := { s.pwr with gap := if runs then some l else none, gapDone := if runs then done else [], gapBase := fn } }

/-- A gap of more than 1,024 frames is counted, not estimated: that of billing and that of the baseline each for itself (R409). -/
def checkGap (f : Nat) (s : State) : State :=
  let long := fun (o : Option Nat) => match o with | some l => decide (1024 < f + 1 - l) | none => false
  let n := match long s.pwr.gap, long s.pwr.gapBase with
    | true, _ => f + 1 - s.pwr.gap.getD 0
    | false, true => f + 1 - s.pwr.gapBase.getD 0
    | false, false => 0
  let p := if long s.pwr.gap then { s.pwr with gap := none, gapDone := [] } else s.pwr
  let s := { s with pwr := if long s.pwr.gapBase then { p with gapBase := none } else p }
  s.put K.supResetGapFrames ((s.get K.supResetGapFrames + n) % 2 ^ 32)

/-- The circuits that the Hallmark core keeps in SRAM, without what the frames in hand were for. (DEDUCED, log 74) -/
def warmBill (f : Nat) (b : Bill) : Bill :=
  { freshBill f b with cct := b.cct.map (fun (e : Nat × BCct) => (e.1, { e.2 with dirCnt := 0, prof := e.2.prof ||| 16 })), ring7 := b.ring7, over7 := b.over7,
                       profGap := b.profGap, certs := b.certs, profDue := b.profDue, profAt := b.profAt }

/-- Billing keeps what SRAM holds. -/
def keepBill (f : Nat) (b : Bill) (s : State) : State := { s with bill := warmBill f b }

/-- An activation whose image is on trial goes on after a watchdog reset, whose health check then fails (R383); any other one is
undone (R386). (DEDUCED, log 66) -/
def warmHand (watchdog : Bool) (s : State) : State :=
  match s.img.hand with
  | some h => if watchdog && h.begun then setHand (some { h with wdog := true }) s else dropTrial s
  | none => dropTrial s

/-- What a warm reset forgets. -/
def warmClear (s : State) : State :=
  { s with dict := s.dict.filter (fun e => keptWarm e.1), chg := [], due := [], olds := [], img := { s.img with lease := none },
           pwr := { s.pwr with done := false, rollAt := none, vbatLow := false, legalWas := [] } }

/-- FN and TIME48 continue from the RTC counts; a slew in progress goes on from SLEW_LEFT, which SRAM has kept (R402, R409). -/
def warmTime (s : State) : State :=
  let f := max s.dev.rtcFn (s.fn + 1)
  let t := if s.dev.rtcTime = noTime then noTime else (s.dev.rtcTime + (f - s.dev.rtcFn)) % 2 ^ 48
  let s := (setRtc f t (s.setFn f)).put K.timeTime48 t
  noteTime (if t = noTime then (s.put (liveKey K.timeSlewLeft) 0).put K.timeSlewLeft 0 else s)

/-- The trial of an image goes on. (DEDUCED, log 66) -/
def trialOn (h : Option Handover) (cause : Nat) (s : State) : State :=
  match h with
  | some h => if h.begun = true ∧ cause = 2 ∧ s.mode = .run then
      showImage s.fn h.slot { s with pwr := { s.pwr with booted := h.slot } }
    else s
  | none => s

/-- The start's own marks. -/
def markUp (s : State) : State := { s with pwr := { s.pwr with upDue := true } }

/-- A start without recall. -/
def warmStart (cause : Nat) (recover : Bool) (s : State) : State :=
  let b := s.bill
  let s := warmTime (warmClear (warmCut (flushLive (finishStore s))))
  let s := supBit 0 false ((s.bump K.supStarts).put K.supStartCause cause)
  let h := s.img.hand
  let s := startRun recover (warmHand (decide (cause = 2)) s)
  let s := trialOn h cause (keepBill s.fn b s)
  checkGap s.fn (markUp s)

/-- WARM_RESET (R409): RESET_N (START_CAUSE 1) or the watchdog (2); the RECOVER strap is sampled. -/
def execWarmReset (watchdog recover : Bool) (s : State) : Host.Outcome State Fault Refusal :=
  .next (if s.mode = .run ∨ s.mode = .recovery then warmStart (if watchdog then 2 else 1) recover s else s)

/-! ### ACTIVATE (R380, R389) -/

/-- The slot objects of an activation in ROM recovery, and its answer. (DEDUCED, log 67) -/
def romSlot (i : Nat) (s : State) : State :=
  let k := targetSlot s
  let old := s.get K.activeSlot
  let s := answer i 0 [] s
  let s := ((s.put K.activeSlot k).put (K.imSlotState k) 3).put (K.imSlotState old) (if old = k then 3 else s.get (K.imSlotState old))
  { s with img := { s.img with noneValid := false } }

/-- The level of the RECOVER strap at the start that an ACTIVATE brings about (R389): a host may have removed it before, or not; open.
(DESIGN CHOICE, log 102) -/
def strapNow (s : State) : Bool := decide (Config.openResult 389 [s.fn] % 2 = 1)

/-- ACTIVATE in ROM recovery (R389): ACTIVE_SLOT is written and a start into the new image follows, which samples the strap.
(DEDUCED, log 67) -/
def romActivate (i : Nat) (s : State) : State := warmStart ((romSlot i s).get K.supStartCause) (strapNow s) (romSlot i s)

/-- ACTIVATE past the checks of R246. -/
def activateOp (i : Nat) (t : Tag) (o : Op) (s : State) : State :=
  let at_ := at_ o.data 0 6
  match s.img.lease with
  | none => answer i 0x10 [] s
  | some l =>
    if leaseState s ≠ 2 then answer i 0x10 [] s
    else if holds s t = false then answerHeld i s
    else if sealFits s (targetSlot s) = false then answerReject i 10 (portNo t.port) l.digest s
    else if s.mode = .recovery then romActivate i s
    else if t.fn + 3686400 < at_ then answer i 0x32 [] s
    else if mayCommit i s then postCommit i 0 at_ (portNo t.port) (roleOf s t) (.activate (targetSlot s)) [] (touchLease t s)
    else waitTurn i s

/-- ACTIVATE (R380): the verified image of the lease is to run from a frame B, at or after AT_FN. -/
def execActivate (slot : Fin 48) (s : State) : Host.Outcome State Fault Refusal :=
  .next (runMethod slot.val K.activate (fun n => decide (n = 6)) (fun t o s => activateOp slot.val t o s) s)

end Sys2Proof.Machine
end

