-- ==== Sys2Proof/Machine/Gecko.lean ====
section
/-! DEFINITION. Gecko, the theft watch while the mains is away (R70, R71, R91, R404 to R407). -/

namespace Sys2Proof.Machine

/-- The range in which Gecko scans a channel, and its gain code (R70): the high one, or the low one of a channel fixed low. -/
def scanRange (s : State) (f n : Nat) : Bool × Nat :=
  if s.cfg f (K.chRangeMode n) = 1 then (false, s.cfg f (K.chGainLow n)) else (true, s.cfg f (K.chGainHigh n))

/-- The inputs that lane `l` scans, in the order of its table (R70): its own, and after them those of a retired partner that it serves. -/
def scanInputs (s : State) (f l : Nat) : List Nat :=
  if s.live (K.laneMode l) = 2 then []
  else enabledOf s f l ++ (if s.live (K.laneMode l) = 1 then enabledOf s f (partner l) else [])

/-- The distinct gain codes of a lane's scan, ascending: its ZERO entry goes round them (R70). -/
def scanGains (s : State) (f l : Nat) : List Nat :=
  let used := (scanInputs s f l).map (fun n => (scanRange s f n).2)
  (List.range 6).filter (fun g => decide (g ∈ used))

/-- Codes of a pass from a slot on, and whether one of them has a parity error. -/
def scanCodes (conv : LaneConv) (slot n : Nat) : List Int × Bool :=
  ((List.range n).map (fun i => ati conv.codes (slot + i)), (List.range n).any (fun i => conv.parity.getD (slot + i) false))

/-- The result of entry `i` of a pass, for channel `n` (R70): slots 5 i + 1 to 5 i + 4 are kept, and the skew is 10 i + 5 (R77); with the
coefficients of its range (R71). -/
def scanRes (s : State) (f n i : Nat) (conv : LaneConv) : LRes :=
  let r := scanRange s f n
  let cs := scanCodes conv (5 * i + 1) 4
  let sat := saturatedCodes cs.1
  { src := n % 8, gain := r.2, rep := 4, shift := 2, high := r.1, value := entryResult cs.1 2, sat := sat, clip := sat, par := cs.2,
    gap := false, skew := 2 * (5 * i + 1) + 3, off := s.cfgI f (if r.1 then K.chOffsetHigh n else K.chOffsetLow n),
    gr := r.2, gcal := s.cfg f (if r.1 then K.chGainCalHigh n else K.chGainCalLow n),
    intK := s.cfg f (if r.1 then K.chIntKHigh n else K.chIntKLow n), rog := decide (s.cfg f (K.chSensor n) = 1) }

/-- What a scan has gathered of one channel: its integrator, the raw sample before, the sum of squares of its samples in Q14.82, and
whether any was saturated. -/
structure ScanAcc where
  st   : Stream := {}
  prev : Int := 0
  sq   : Int := 0
  sat  : Bool := false
  deriving DecidableEq, Repr

/-- One sample of a channel joins its scan, corrected by the lane values of its frame (Table 3.2, R71). -/
def scanTake (l m : Nat) (r : LRes) (s : State) (a : ScanAcc) : ScanAcc :=
  let x := rawOf m l false r s
  let o := integrate a.st a.prev x
  { st := o.1, prev := x.x, sq := a.sq + rshift (o.2.y * o.2.y) 12, sat := a.sat || x.sat }

/-- The inputs of a lane in pass `m` of a scan; their skews are published (R77). (DEDUCED, log 73) -/
def scanLane (f m l : Nat) (conv : LaneConv) (acc : Tab ScanAcc) (s : State) : Tab ScanAcc × State :=
  let ns := scanInputs s f l
  (List.range ns.length).foldl (fun (a : Tab ScanAcc × State) i =>
    let n := ns.getD i 0
    let r := scanRes s f n i conv
    (tmod {} a.1 n (scanTake l m r s), a.2.putLive (K.chSkew n) r.skew)) (acc, s)

/-- The ZERO entry of a lane in pass `m`, after its inputs: DISCARD 1, REPEAT 7, SHIFT 3 (R70).  A valid result feeds its estimator
(R90); a lane without inputs scans nothing. (DEDUCED, log 73) -/
def scanZero (f m l : Nat) (conv : LaneConv) (s : State) : State :=
  let gains := scanGains s f l
  if gains = [] then s
  else
    let cs := scanCodes conv (5 * (scanInputs s f l).length + 1) 7
    let r := gapResult { gap := true, rot := false, dr := false, rep := 7, shift := 3, discard := 1, gain := 0, src := 16 } 16
      (gains.getD (m % gains.length) 0) cs.1 cs.2
    if r.par || decide (gapCause f l r s ≠ 0) || decide (s.get (K.laneFState l) = 1) then s else gapFeed l r s

/-- One pass of every lane. (DEDUCED, log 73) -/
def scanPass (f m : Nat) (convs : List LaneConv) (acc : Tab ScanAcc) (s : State) : Tab ScanAcc × State :=
  (List.range 32).foldl (fun (a : Tab ScanAcc × State) l =>
    let conv := convs.getD l ⟨[], [], false, none⟩
    let b := scanLane f m l conv a.1 a.2
    (b.1, scanZero f m l conv b.2)) (acc, s)

/-- The lane offsets move at the end of a frame of the scan, as in RUN (R89, R91). -/
def scanStep (f : Nat) (s : State) : State :=
  (List.range 32).foldl (fun s l => (scanGains s f l).foldl (fun s g => estStep f l g (decide (s.cfg f K.bgHold = 1)) s) s) s

/-- The 16 frames of a scan: what it gathers of every channel, and the lane offsets after it. (DEDUCED, log 73) -/
def scanFrames (f : Nat) (passes : List (List LaneConv)) (s : State) : Tab ScanAcc × State :=
  (List.range 16).foldl (fun (a : Tab ScanAcc × State) i =>
    let b := (List.range 16).foldl (fun (a : Tab ScanAcc × State) k =>
      scanPass f (16 * i + k) (passes.getD (16 * i + k) []) a.1 a.2) a
    (b.1, scanStep f b.2)) ([], s)

/-- The channel is above the threshold: I ≥ GECKO_LVL × I_FS, or saturated (R405). -/
def scanAbove (s : State) (f n : Nat) (r : Nat × Bool) : Bool :=
  let g := 2 ^ s.cfg f (K.chGainLow n)
  r.2 || decide ((s.cfg f K.geckoLvl * 2 ^ 31) ^ 2 * 256 ≤ 2 * (r.1 * 4096) * g ^ 2)

/-- A register with its fraction takes an amount in 2^-40, modulo its width (R405). -/
def scanAdd (key amt : Nat) (s : State) : State :=
  let t := s.get key * 2 ^ 40 + s.get (fracKey key) + amt
  (s.put key (t / 2 ^ 40 % 2 ^ oBits key)).put (fracKey key) (t % 2 ^ 40)

/-- One phase channel above the threshold: GECKO_E, CWV_MAH, GECKO_FLAGS and the outage's amounts (R405). -/
def scanPhase (present : List Nat) (f c : Nat) (ph : Phase) (r : Nat × Bool) (s : State) : State :=
  let i := rmsOf { s := (r.1 : Int), n := 256 }
  let p := s.cfg f K.geckoInterval * s.cfg f (K.vUDin ph.v) * i * s.cfg f (K.cctEnergyK c) * 16384
  let e := (odiv (p : Nat) (2 ^ 46)).toNat
  let there := decide (ph.v ∈ present)
  let m := if there then 0 else (odiv (p * 10 ^ s.cfg f (K.cctEnergyUnit c) : Nat) (max 1 (s.cfg f (K.nominalV ph.v)) * 100 * 2 ^ 46 : Nat)).toNat
  let g := s.pwr.gecko
  let flags := s.get (K.geckoFlags c) ||| (if there then 2 else 1) ||| (if r.2 then 4 else 0)
  let s := (scanAdd (K.cwvMah c) m (scanAdd (K.geckoE c) e s)).put (K.geckoFlags c) flags
  { s with pwr := { s.pwr with gecko := { g with mah := tmod 0 g.mah c (fun x => x + m), e := tmod 0 g.e c (fun x => x + e) } } }

/-- An event enters Gecko's page of 16 entries, or is counted as lost (R406). (DEDUCED, log 73) -/
def geckoEvent (e : Event) (s : State) : State :=
  if s.pwr.gecko.events.length < 16 then
    { s with pwr := { s.pwr with gecko := { s.pwr.gecko with events := s.pwr.gecko.events ++ [e] } } }
  else s.put K.geckoEventsLost (min 65535 (s.get K.geckoEventsLost + 1))

/-- A circuit with channels above the threshold: its scan is counted, and the first of the outage is an event (R406). (DEDUCED, log 73) -/
def scanCct (present : List Nat) (acc : Tab ScanAcc) (f c : Nat) (s : State) : State :=
  let phs := (phasesOf s f c).filter (fun ph =>
    decide (s.cfg f (K.chEnable ph.ch) = 1) && decide (s.get (K.chFState ph.ch) ≠ 2) && channelRuns s ph.ch)
  let hits := phs.filterMap (fun ph =>
    let a := tget {} acc ph.ch
    if scanAbove s f ph.ch (a.sq.toNat, a.sat) then some (ph, (a.sq.toNat, a.sat)) else none)
  if hits = [] then s
  else
    let s := hits.foldl (fun s h => scanPhase present f c h.1 h.2 s) s
    let g := s.pwr.gecko
    let first := decide (tget 0 g.above c = 0)
    let s := { s with pwr := { s.pwr with gecko := { g with above := tmod 0 g.above c (fun n => n + 1) } } }
    let mask := sumN ((((phasesOf s f c).map (fun p => p.v)).eraseDups.filter (fun v => decide (v ∈ present))).map (fun v => 2 ^ v))
    if first then geckoEvent { code := 0x0802, fields := [c, mask], fn := s.dev.rtcFn, time := s.dev.rtcTime } s else s

/-- Gecko ends, and SLEEP follows (R407). -/
def geckoSleep (cause : Nat) (s : State) : State := (geckoExit cause s).setMode .sleep

/-- The tamper buffer moves into the event page (R403). -/
def geckoTamper (s : State) : State :=
  (tamperLate s.pwr.tamper).foldl (fun s e => geckoEvent e s) { s with pwr := { s.pwr with tamper := [] } }

/-- VBAT under load (R397): VBAT-LOW, once per start, enters the event page with the RTC counts of the moment (R411). (DEDUCED, log 72) -/
def vbatSeen (mv : Nat) (s : State) : State :=
  let s := vbatBits mv { s with pwr := { s.pwr with vbat := mv } }
  if mv < 2600 ∧ s.pwr.vbatLow = false then
    geckoEvent { code := 0x0808, fields := [mv], fn := s.dev.rtcFn, time := s.dev.rtcTime } { s with pwr := { s.pwr with vbatLow := true } }
  else s

/-- A page is stored in low-current mode, without a verify (R326). -/
def lowStore (p : Nat) (s : State) : State :=
  let j := beginJob s { page := p, fn := s.dev.rtcFn }
  showPage p (modPage p (fun x => { x with serveB := j.half, single := j.single, stat := 0 }) (writeFrame true j s))

/-- The pages of registers, PAGE-960 to PAGE-971, and of events, PAGE-972 and PAGE-973, that a scan has changed (R406). -/
def scanPages (was s : State) : List Nat :=
  let keys := (definedCcts s s.fn).flatMap (fun c => [K.cwvMah c, K.geckoE c, K.geckoFlags c])
  let regs := (keys.filter (fun k => decide (s.get k ≠ was.get k) || decide (s.get (fracKey k) ≠ was.get (fracKey k)))).map pageOf
  let evs := ((List.range s.pwr.gecko.events.length).filter (fun i => decide (was.pwr.gecko.events.length ≤ i))).map (fun i => 972 + i / 8)
  ((List.range 14).map (fun i => 960 + i)).filter (fun p => decide (p ∈ regs ++ evs))

/-- After a scan the changed pages are stored (R406). -/
def scanStore (ps : List Nat) (s : State) : State := ps.foldl (fun s p => lowStore p s) s

/-- The scan is counted, and the next one is due GECKO_INTERVAL later. -/
def scanCounted (s : State) : State :=
  let g := s.pwr.gecko
  { s with pwr := { s.pwr with gecko := { g with scans := g.scans + 1, next := g.next + 1024 * s.cfg s.fn K.geckoInterval } } }.bump K.geckoScans

/-- The offsets, the tamper buffer and every circuit after a scan. -/
def scanAll (d : GeckoData) (s : State) : State :=
  let r := scanFrames s.fn d.passes s
  let s := geckoTamper r.2
  (definedCcts s s.fn).foldl (fun s c => scanCct d.present r.1 s.fn c s) s

/-- A scan with VBAT under load at `d.vbatMv`; below GECKO_VBAT_MIN − 100 mV it ends Gecko (R407). -/
def scanNow (d : GeckoData) (s : State) : State :=
  if d.vbatMv + 100 < s.cfg s.fn K.geckoVbatMin then geckoSleep 1 (vbatSeen d.vbatMv s)
  else scanAll d (scanCounted (vbatSeen d.vbatMv s))

/-- GECKO_SCAN (R404 to R407): a scan that is due; VBAT under load below GECKO_VBAT_MIN − 100 mV ends Gecko. -/
def execGeckoScan (d : GeckoData) (s : State) : Host.Outcome State Fault Refusal :=
  .next (if s.mode = .gecko ∧ s.pwr.gecko.next ≤ s.dev.rtcFn then
    let t := scanNow d s
    scanStore (scanPages s t) t
  else s)

/-- GECKO_LIMIT_EXPIRY (R407): GECKO_LIMIT hours have passed in GECKO. -/
def execGeckoLimitExpiry (s : State) : Host.Outcome State Fault Refusal :=
  let h := s.cfg s.fn K.geckoLimit
  .next (if s.mode = .gecko ∧ h ≠ 0 ∧ s.pwr.gecko.since + h * 3686400 ≤ s.dev.rtcFn then geckoSleep 2 s else s)

end Sys2Proof.Machine
end

