-- ==== Sys2Proof/Machine/PlcTime.lean ====
section
/-! DEFINITION. Announcements of the time base (R306 to R314): sending, the mapping of a received one to a cycle start, phase classes, the
adoption and check of the numbering, wall time from the leader, and CYCLE_MAP. -/

namespace Sys2Proof.Machine

/-! ### Sending (R306, R307) -/

/-- The instant that the block has reached: the sample period begun last. -/
def nowInstant (s : State) : Int := (4096 * (s.fn : Int) + 256 * s.acq.period) * tbTap

/-- The wall time of an instant ahead of the current tick, in taps; none while time is INVALID. -/
def wallAhead (s : State) (c : Int) : Option Int :=
  if s.timeValid then some (odiv ((s.time : Int) * tbFrameLen + (c - (s.fn : Int) * tbFrameLen)) tbTap) else none

/-- WALL of the announcements that Ozmar sends is valid (R306, R311). -/
def wallGood (s : State) : Bool := s.timeValid && (tbLeader s s.fn || decide (s.get K.timeLastSource = 2))

/-- Ozmar announces (R306, R311): a leader, through holdover too, or a LOCKED follower that offers itself at a DEPTH of at most 6. -/
def announces (s : State) : Bool :=
  plcJoined s && decide (s.tb.num ≠ none) &&
  (if tbLeader s s.fn then decide (tbState s = 2) || decide (tbState s = 3)
   else decide (tbState s = 2) && decide (s.live K.lfOffering = 1) && decide (s.live K.tbDepth ≤ 6))

/-- 2 ms in units of the time base. -/
def twoMs : Int := 549755814

/-- The announcement for cycle `n` (Table 11.5). (DESIGN CHOICE, log 12; DEDUCED, log 76) -/
def buildAnn (s : State) (num n : Int) (seq : Nat) : Ann :=
  let start := tbStart s num n
  let wall := match wallAhead s start with
    | some w => if wallGood s then w else Config.openResult 306 [n]
    | none => Config.openResult 306 [n]
  { cycle := n.toNat, deadline := start - twoMs, may := !s.plc.str.busy, atten := attenTo s 0xFFFF,
    bytes := le 1 1 ++ le 1 (if tbLeader s s.fn then 0 else s.live K.tbDepth) ++ le 1 (b2n (wallGood s)) ++ le 1 0 ++ le 6 (ofInt 48 n) ++
      le 4 (ofInt 32 (odiv s.tb.delta tbTap)) ++ le 8 (ofInt 64 wall) ++ le 8 (s.live K.tbLeaderId) ++ le 2 seq }

/-- The start of cycle `n` lies at most one frame back: directly after it an announcement is built (R307). (DEDUCED, log 76) -/
def justStarted (s : State) (m n : Int) : Bool := decide (nowInstant s < tbStart s m n + tbFrameLen)

/-- ANNOUNCE_SEND (R306, R307): every ANNOUNCE_PERIOD, directly after the start of cycle N − 1 and before
its deadline, the announcement of N goes to the modem. (DEDUCED, log 76) -/
def execAnnounceSend (s : State) : Host.Outcome State Fault Refusal :=
  let due := match s.plc.annFn with | some f => decide (f + 1024 * s.cfg s.fn K.tbAnnouncePeriod ≤ s.fn) | none => true
  .next (match s.tb.num with
    | some m =>
      let n := tbCurrent s m (nowInstant s) + 1
      if announces s && due && decide (s.plc.ann = none) && justStarted s m (n - 1) && decide (nowInstant s < tbStart s m n - twoMs) then
        let seq := (s.plc.annSeq + 1) % 65536
        setPlc (fun p => { p with ann := some (buildAnn s m n seq), annSeq := seq, annFn := some s.fn }) s
      else s
    | none => s)

/-- ANNOUNCE_ABANDON (R307): an announcement that has not started by its deadline is built again for the next cycle. -/
def execAnnounceAbandon (s : State) : Host.Outcome State Fault Refusal :=
  .next (match s.plc.ann, s.tb.num with
    | some a, some m =>
      if nowInstant s < a.deadline then s
      else setPlc (fun p => { p with ann := if announces s then some (buildAnn s m ((a.cycle : Int) + 1) p.annSeq) else none }) s
    | some _, none => setPlc (fun p => { p with ann := none }) s
    | none, _ => s)

/-! ### Mapping (R308, R309) -/

/-- The instant `y` at which the announced cycle starts: a < y ≤ a + p and y ≡ s + delta (mod p) (R308). -/
def cycleInstant (s : State) (a : Announcement) : Int :=
  let at_ := a.a * tbTap
  let base := (a.a - a.q + a.delta) * tbTap
  base + ((at_ - base) / s.tb.p + 1) * s.tb.p

/-- The lag of TIME_PHASE behind the leader's phase in 1/65,536 turn (R309 step 3): 65,536 × e / P, and the lead of the channel in use over
TIME_PHASE after a move, without which no channel could be found twice. (DEDUCED, log 75) -/
def lagUnits (s : State) (e : Int) : Int := (odiv (65536 * e) s.tb.p.toNat + s.tb.lead) % 65536

/-- The lead of channel `w` over TIME_PHASE, from their last positive crossings (R140, R309); none without them. (DEDUCED, log 75) -/
def leadOf (s : State) (w : Nat) : Option Nat :=
  let r := tget ({} : Zc) s.tan.zc (s.cfg s.fn K.tbTimePhase)
  let z := tget ({} : Zc) s.tan.zc w
  match r.lastPos, z.lastPos with
  | some a, some b => if r.locked && z.locked then some (angleOf a b z.p) else none
  | _, _ => none

/-- The channel to which the phase fall-back moves (R309 step 3). -/
def fallBack (s : State) (u : Int) : Option (Nat × Nat) :=
  let tp := s.cfg s.fn K.tbTimePhase
  (List.range 12).findSome? (fun w =>
    if s.cfg s.fn (K.vGroup w) = s.cfg s.fn (K.vGroup tp) ∧ s.cfg s.fn (K.vEnable w) = 1 ∧ s.get (K.vFState w) = 0 then
      match leadOf s w with
      | some l =>
        let d := ((l : Int) - u) % 65536
        if d ≤ 1820 ∨ 65536 - 1820 ≤ d then some (w, l) else none
      | none => none
    else none)

/-- The loop is on channel `w`, seeded anew after a move. (DEDUCED, log 75) -/
def tbSeat (w lead : Nat) (s : State) : State :=
  if w = tbChan s then setTb (fun t => { t with comp := false, delta := 0, errs := [], lead := lead }) s
  else
    let z := tget ({} : Zc) s.tan.zc w
    let c := (z.lastPos.getD 0) * tbTap
    (setTb (fun t => { t with p := (z.p : Int), x := c + (z.p : Int), used := [c], num := none, lead := lead, comp := false,
                              delta := 0, errs := [] }) s).putLive K.tbTbChannel w

/-- e of R309: the own crossing nearest to `y`, less `y`. -/
def lagAt (s : State) (y : Int) : Int := tbInstant s (nearestCross s y) - y

/-- The time base stands on channel `w` for class `cls`; with `comp`, δ compensates its lag (R309 steps 3 and 4).  A move of channel logs
PHASE-CHANGED. (DEDUCED, log 75) -/
def tbMove (w lead cls : Nat) (comp : Bool) (y : Int) (s : State) : State :=
  let old := tbChan s
  let s := tbSeat w lead s
  let s := if comp then setTb (fun t => { t with comp := true, errs := [lagAt s y], delta := -(lagAt s y) }) s else s
  if w = old then s else s.event 0x0506 [cls, w, ofInt 32 (odiv s.tb.delta tbTap)]

/-- The mean of e, negated: δ without a channel on the leader's phase (R309 step 4). -/
def meanDelta (errs : List Int) : Int := if errs = [] then 0 else -(odiv (sumI errs) errs.length)

/-- DELTA shows δ. -/
def showDelta (s : State) : State := s.putLive K.tbDelta (ofInt 32 (odiv s.tb.delta tbTap))

/-- A class is adopted from an announcement (R309): δ or a move of channel, then the numbering; SEARCHING becomes LOCKED. -/
def tbAdopt (a : Announcement) (cls : Nat) (e : Int) (s : State) : State :=
  let y := cycleInstant s a
  let s := if cls = 0 then setTb (fun t => { t with comp := false, delta := 0, errs := [] }) s
    else match fallBack s (lagUnits s e) with
      | some (w, l) => tbMove w l cls false y s
      | none => tbMove (s.cfg s.fn K.tbTimePhase) 0 cls true y s
  let c := nearestCross s (y - s.tb.delta)
  let s := setTb (fun t => { t with num := some ((a.cycle : Int) - c), cls := cls, from_ := a.sender, slip := false }) s
  let depth := min 0xFE (a.depth + 1)
  let s := showDelta (((s.putLive K.tbDepth depth).putLive K.tbPhaseClass cls).putLive K.tbLeaderId a.leader)
  if tbState s = 1 then
    (setTb (fun t => { t with acc := s.fn }) (s.putLive K.tbTbState 2)).event 0x0503 [a.leader, depth, cls, tbChan s]
  else s

/-- A further announcement is checked against the count (R311); two in a row that differ are adopted, and TB-SLIP is logged.
(DEDUCED, log 75) -/
def tbCheck (a : Announcement) (e y : Int) (m : Int) (s : State) : State :=
  let s := if s.tb.comp then
      let errs := (e :: s.tb.errs).take 16
      showDelta (setTb (fun t => { t with errs := errs, delta := meanDelta errs }) s)
    else s
  let j := nearestCross s (y - s.tb.delta)
  let d := (a.cycle : Int) - (m + j)
  let s := (s.putLive K.tbDepth (min 0xFE (a.depth + 1))).putLive K.tbLeaderId a.leader
  if d = 0 then setTb (fun t => { t with slip := false, from_ := a.sender }) s
  else if s.tb.slip then
    (setTb (fun t => { t with slip := false, num := some (m + d), from_ := a.sender }) s).event 0x0505 [ofInt 48 d]
  else setTb (fun t => { t with slip := true, from_ := a.sender }) s

/-- A LEADER_ID with its first byte highest. -/
def idBe (x : Nat) : Nat := (le 8 x).foldl (fun n b => 256 * n + b.toNat) 0

/-- The order of senders (R311): the lowest LEADER_ID, then the lowest DEPTH. -/
def heardBefore (x y : Heard) : Bool :=
  decide (idBe x.leader < idBe y.leader) || (decide (idBe x.leader = idBe y.leader) && decide (x.depth < y.depth))

/-- A sender is noted, and those not heard in the last 3 announcement periods are forgotten. -/
def noteHeard (a : Announcement) (s : State) : State :=
  let keep := s.tb.heard.filter (fun h => decide (h.sender ≠ a.sender) &&
    decide (s.fn < h.fn + 3072 * s.cfg s.fn K.tbAnnouncePeriod))
  setTb (fun t => { t with heard := { sender := a.sender, leader := a.leader, depth := a.depth, fn := s.fn } :: keep }) s

/-- No other sender heard stands before this one; among equals the one followed already. -/
def mayFollow (s : State) (a : Announcement) : Bool :=
  let me : Heard := ⟨a.sender, a.leader, a.depth, s.fn⟩
  s.tb.heard.all (fun h => decide (h.sender = a.sender) || !(heardBefore h me || (!heardBefore me h && decide (h.sender = s.tb.from_))))

/-- PLC_TIME_SETTING (R313): the leader's WALL sets the time of a LOCKED follower, at most once per 60 s and only to change it; it is applied
as a TIME_SET, which writes legal data. (DEDUCED, log 79) -/
def wallTime (a : Announcement) (y : Int) (s : State) : State :=
  let y := odiv y tbTap
  let atFn := (y / 4096 + 1).toNat
  let time := ((a.wall : Int) + (atFn : Int) * 4096 - y) / 4096
  let free := match s.tb.wallFn with | some f => decide (f + 61440 ≤ s.fn) | none => true
  if a.wallOk && bit (s.cfg s.fn K.timeSourceMask) 1 && free && decide (tbState s = 2) then
    if time < (time2025 : Int) ∨ (noTime : Int) ≤ time ∨ s.fn < atFn ∨ atFn + 4096 < s.fn then s
    else
      let r := acceptTime 2 time.toNat atFn s
      if r.1.kind = 0 ∨ legalLocked s = true then s
      else setTb (fun t => { t with wallFn := some s.fn }) (legalNote 0 r.1.k (portNo .plc) 0 1 K.timeTimeSet r.2.2)
  else s

/-- A follower takes an announcement (R308 to R311, R313): the numbering of the sender it follows, the wall time of any. (DEDUCED, log 79) -/
def follow (a : Announcement) (s : State) : State :=
  let s := noteHeard a s
  if s.tb.used = [] ∨ s.tb.p ≤ 0 then s
  else if mayFollow s a = false then wallTime a (cycleInstant s a) s
  else
    let y := cycleInstant s a
    let e := lagAt s y
    let k := phaseClass e s.tb.p
    let twice := decide (s.tb.prev = some (a.leader, k))
    let s := setTb (fun t => { t with prev := some (a.leader, k) }) s
    let s := match s.tb.num with
      | some m => if k ≠ s.tb.cls ∧ twice = true then tbAdopt a k e s else tbCheck a e y m s
      | none => if twice then tbAdopt a k e s else s
    wallTime a y s

/-- ANNOUNCEMENT_RECEIVE (R306, R308 to R313): discarded without MAC security; ignored and counted by a leader; else followed.
Before Ozmar has joined it has no key for it, and discards it. -/
def execAnnouncementReceive (a : Announcement) (s : State) : Host.Outcome State Fault Refusal :=
  .next (if plcUp s then
    let s := s.bumpLive K.plcRxFrames
    if a.secured = false ∨ plcState s ≠ 3 then s.bumpLive K.plcRxDiscarded
    else
      let (j, n) := nbrFor s a.sender
      let ph := (classAt s ((a.a - a.q) * tbTap)).orElse (fun _ => n.phase)
      let s := setNbr j (some { n with rev := a.lqi % 256, lastFn := s.fn, phase := ph }) s
      if tbState s = 0 then s
      else if tbLeader s s.fn then
        (if a.leader = s.get K.plcEui64 then s else s.bumpLive K.tbForeignLeaders)
      else follow a s
  else s)

/-- CYCLE_MAP (R314): the frame and the instant in which a network cycle starts. -/
def execCycleMap (slot : Fin 48) (s : State) : Host.Outcome State Fault Refusal :=
  .next (runMethod slot.val K.tbCycleMap (fun n => decide (n = 6)) (fun _ o s =>
    let n : Int := at_ o.data 0 6
    match s.tb.num with
    | none => answer slot.val 0x32 [] s
    | some m =>
      if (tbState s ≠ 2 ∧ tbState s ≠ 3) ∨ (2 : Int) ^ 20 < mag (n - tbCurrent s m (nowInstant s)) then answer slot.val 0x32 [] s
      else
        let t := odiv (tbStart s m n) tbTap
        answer slot.val 0 (le 6 (ofInt 48 (t / 4096)) ++ le 8 (ofInt 64 t)) s) s)

end Sys2Proof.Machine
end

