-- ==== Sys2Proof/Machine/Resume.lean ====
section
/-! DEFINITION. Stale state as the host meets it (R196 to R198): the entry, HOST_TOKEN, RESUME, and signed readings (R199 to R201). -/

namespace Sys2Proof.Machine

/-- STALE_ENTER (R197): the first frame of stale state; PLC routes are cleared. (DEDUCED, log 52) -/
def execStaleEnter (s : State) : Host.Outcome State Fault Refusal :=
  .next (match s.bill.staleAt, s.bill.staleTo with
    | some a, none =>
      if coreRuns s ∧ a ≤ s.fn ∧ s.live K.stale = 0 then (setCause 9 (clearRoutes s)).putLive K.stale 1 else s
    | _, _ => s)

/-- The slot's response says at which tick a V object takes its value. -/
def tickTag (i f : Nat) (s : State) : State :=
  match getTag s i with | some t => setTag i (some { t with tick := some f }) s | none => s

/-- HOST_TOKEN_WRITE (R196, R249): the token takes effect at the next tick; TOKEN arises when none is installed or another one is. -/
def execHostTokenWrite (slot : Fin 48) (s : State) : Host.Outcome State Fault Refusal :=
  .next (runOp slot.val (fun o => decide (o.code = 0x20) && decide (o.key = K.hostToken)) (fun t o s =>
    let c := checkWrite s (roleOf s t) o.key o.data
    if c.1 ≠ 0 then answer slot.val c.1 [] s
    else if inReadOnly s t then answer slot.val 0x33 [] s
    else
      let inst := s.cfg s.fn K.installToken
      let s := setSrv (fun v => { v with vput := v.vput.filter (fun e => decide (e.1 ≠ K.hostToken)) ++ [(K.hostToken, c.2)] }) s
      let s := if inst = 0 ∨ inst ≠ c.2 then raiseStale 0 s else s
      answer slot.val 0 (le 6 (s.fn + 1)) (tickTag slot.val (s.fn + 1) s)) s)

/-- RESUME (R198): stored like a commit; INSTALL_TOKEN is set to the argument, and stale state ends at B. -/
def execResume (slot : Fin 48) (s : State) : Host.Outcome State Fault Refusal :=
  .next (runMethod slot.val K.resume (fun n => decide (n = 8)) (fun t o s =>
    if s.live K.calState = 1 then answer slot.val 0x20 [] s
    else if mayCommit slot.val s then
      postCommit slot.val 0 0 (portNo t.port) (roleOf s t) .resume [(K.installToken, at_ o.data 0 8)] s
    else waitTurn slot.val s) s)

/-- The wiring can be taken now: the band is decided and ANGLE_REF is LOCKED (R196, R198). -/
def wiringNowKnown (s : State) : Bool :=
  (s.tan.bandSet || decide (s.cfg s.fn K.pqBand ≠ 0)) && (tget {} s.tan.zc (s.cfg s.fn K.pqAngleRef)).locked

/-- What RESUME does at its frame B (R198). (DEDUCED, log 52) -/
def resumeNow (b : Nat) (s : State) : State :=
  let old := s.get K.cause
  let s := if s.bill.staleAt = none then s else { s with bill := { s.bill with staleTo := some b } }
  let s := if wiringNowKnown s then s.put K.wiringRef (ofLe (wiringBytes s)) else { s with bill := { s.bill with wireRef := true } }
  let s := (((s.putLive K.stale 0).put K.cause 0).put K.repaired 0).put K.resumeFn b
  s.event 0x0207 [b, old]

/-! ### Signed readings -/

/-- Objects that a certificate may name (R199). -/
def signable (k : Nat) : Bool :=
  let i := k / 256
  (decide (0x4000 ≤ i) && decide (i < 0x4200)) ||
  (decide (0x4500 ≤ i) && decide (i < 0x4600) && (decide (k = K.chAiBase (i - 0x4500)) || decide (k = K.chAeBase (i - 0x4500))))

/-- The circuit of a billing object in a snapshot: a channel's objects belong to the circuit of the channel, if it has one. -/
def signCct (p : Snap) (k : Nat) : Option Nat :=
  let i := k / 256
  if i < 0x4500 then some (i % 256)
  else
    let c := snapVal p (K.chCircuit (i - 0x4500))
    if c < 256 then some c else none

/-- An entry of a certificate (Table 6.11): every value is of the snapshot (R199, R201). (DEDUCED, log 34) -/
def signEntry (p : Snap) (k : Nat) : Bytes :=
  let fl := match signCct p k with | some c => field (snapVal p (K.cctFlags c)) 15 12 | none => 0
  let wrap := if k / 256 < 0x4100 ∧ k % 256 < 0x48 then snapVal p (k + 0x80) else 0
  le 2 (k / 256) ++ le 1 (k % 256) ++ le 1 fl ++ le 6 (snapVal p k) ++ le 2 wrap

/-- The certificate without its signature (Table 6.11). (DEDUCED, log 34) -/
def certBody (s : State) (p : Snap) (seq nonce : Nat) (ks : List Nat) : Bytes :=
  let t := snapVal p K.timeTime48
  le 2 1 ++ le 2 ks.length ++ le 8 (s.get K.idUnitId) ++ le 6 p.fn ++ le 6 t ++ le 4 (snapVal p K.idCheck) ++ le 4 p.gen ++
    le 4 seq ++ le 8 nonce ++ le 2 (b2n (decide (t = noTime)) + 2 * snapVal p K.stale + 4 * b2n p.late) ++ le 2 0 ++
    ks.flatMap (signEntry p)

/-- The status of the objects that a request names: the first that fails decides. -/
def signStatus (role : Nat) (ks : List Nat) : Nat :=
  if ks.any (fun k => !signable k) then 0x32
  else (ks.findSome? (fun k => match rowOf k with
    | none => some 0x30
    | some r => if role < r.rd then some 0x20 else none)).getD 0

/-- READ_SIGNED (R199 to R201): a certificate over values of one snapshot, at most 50 in any 1,024 frames. (DEDUCED, log 34) -/
def execReadSigned (slot : Fin 48) (s : State) : Host.Outcome State Fault Refusal :=
  .next (runOp slot.val (fun o => decide (o.code = 0x12)) (fun t o s =>
    let n := at_ o.data 8 1
    if o.data.length < 9 then answer slot.val 0x31 [] s
    else if n < 1 ∨ 120 < n then answer slot.val 0x32 [] s
    else if o.data.length ≠ 9 + 3 * n then answer slot.val 0x31 [] s
    else
      let ks := listedKeys (o.data.drop 9) n
      let st := signStatus (roleOf s t) ks
      let certs := s.bill.certs.filter (fun f => decide (s.fn < f + 1024))
      if st ≠ 0 then answer slot.val st [] s
      else if 50 ≤ certs.length then answer slot.val 0x11 [] (s.bump K.signedRefused)
      else match t.snap with
        | none => answer slot.val 0x11 [] s
        | some p =>
          let seq := (s.get K.signedCount + 1) % 2 ^ 32
          let body := certBody s p seq (at_ o.data 0 8) ks
          let sig := slice (Config.identitySign (sha3_256 body)) 0 2420
          let s := { s with bill := { s.bill with certs := s.fn :: certs } }
          let s := (s.put K.signedCount seq).put K.lastSignedFn p.fn
          answer slot.val 0 (body ++ sig) (markUsed slot.val true s)) s)

end Sys2Proof.Machine
end

