-- ==== Sys2Proof/Machine/Spi.lean ====
section
/-! DEFINITION. The SPI port and the legacy window (R276 to R287). -/

namespace Sys2Proof.Machine

/-- The SPI pins are powered: in RUN, in the last gasp and in ROM recovery (R400). -/
def spiUp (s : State) : Bool := decide (s.mode = .run) || decide (s.mode = .lastGasp) || decide (s.mode = .recovery)

/-- The bytes that Ozmar sends in a transaction. -/
def spiSend (b : Bytes) (s : State) : State := setSpi (fun p => { p with out := b }) s

/-- A request frame passed or failed its CRC: after 16 bad ones in a row the port is SUSPECT, after 16 good ones it is OK (R233).
(DEDUCED, log 28)  It counts in ROM recovery as in RUN (R216). (DESIGN CHOICE, log 114) -/
def spiFrameCheck (good : Bool) (s : State) : State :=
  let u := portUnit s 0
  let u := if good then { u with pass := u.pass + 1, fail := 0 } else { u with fail := u.fail + 1, pass := 0 }
  let s := setPortUnit 0 u s
  let st := s.get (K.portState 0)
  if good ∧ st = 1 ∧ 16 ≤ u.pass then portSet 0 0 11 s else if good = false ∧ st = 0 ∧ 16 ≤ u.fail then portSet 0 1 11 s else s

/-- A PUT is refused (R278, R280). -/
def putRefused (s : State) : State := setCause 3 (s.bump K.spiPutRefused)

/-- SPI_PUT (R278): one request frame, checked at the rise of CS-1. -/
def execSpiPut (bytes : Bytes) (s : State) : Host.Outcome State Fault Refusal :=
  .next (if spiUp s = false then s
  else
    let s := spiSend [] s
    let n := at_ bytes 4 2
    if serverRuns s = false then putRefused s
    else if bytes.length ≠ 20 + n ∨ crc32 (bytes.take (16 + n)) ≠ at_ bytes (16 + n) 4 then
      setCause 2 ((spiFrameCheck false s).bump K.spiCrcErrors)
    else
      let s := spiFrameCheck true s
      if 1024 < ringUsed s 9 + creditUnits .spi n then putRefused (s.bump (K.stalls 9))
      else
        let r : ReqFrame := { port := .spi, bytes := bytes.take (16 + n), units := creditUnits .spi n, ord := s.srv.ord, fn := s.fn }
        setSrv (fun v => { v with inq := v.inq ++ [r], ord := v.ord + 1 }) s)

/-- SPI_TAKE (R279): the oldest frame that waits, completions first; it leaves its ring once its last byte is clocked out. -/
def execSpiTake (clocked : Nat) (s : State) : Host.Outcome State Fault Refusal :=
  .next (if spiUp s = false then s
  else match (if serverRuns s then nextOut s .spi else none) with
    | none => spiSend ((le 2 0).take clocked) s
    | some (f, done) =>
      let b := spiFrame s f
      let s := spiSend ((le 2 b.length ++ b).take clocked) s
      if 2 + b.length ≤ clocked then (if done then leave12 f s else leave13 f s) else s)

/-- The eight bytes of STATUS (Table 10.8). -/
def statusBytes (s : State) : Bytes :=
  le 2 (1024 - ringUsed s 9) ++ le 1 (creditsOf s .spi) ++
    le 1 (min 255 (s.srv.ring12.filter (fun f => decide (f.port = .spi))).length) ++
    le 1 (min 255 (s.srv.ring13.filter (fun f => decide (f.port = .spi))).length) ++ le 2 (causesWord s) ++ le 1 (statusState s)

/-- SPI_STATUS (R280). -/
def execSpiStatus (s : State) : Host.Outcome State Fault Refusal := .next (if spiUp s then spiSend (statusBytes s) s else s)

/-- SPI_CLEAR (R281): latched causes in the mask are cleared, but for those that recurred in this frame. (DEDUCED, log 27) -/
def execSpiClear (mask : BitVec 16) (s : State) : Host.Outcome State Fault Refusal :=
  .next (if spiUp s then
    let held := fun (b : Nat) => s.spi.again.any (fun e => decide (e.1 = b) && decide (e.2 = s.fn))
    let c := (List.range 9).foldl (fun c i => if bit mask.toNat (2 + i) && !held (2 + i) then clearBit c (2 + i) else c) s.spi.causes
    spiSend [] (setSpi (fun p => { p with causes := c }) s)
  else s)

/-- The code of a CS-1 command byte (Table 10.6): 1 PUT, 2 TAKE, 3 STATUS, 4 CLEAR, whether QUAD is set or not; none when a reserved
bit is set or the code is reserved. -/
def spiCode (cmd : Byte) : Option Nat :=
  let c := cmd.toNat % 128
  if 1 ≤ c ∧ c ≤ 4 then some c else none

/-- SPI_RESERVED_COMMAND (R277): the transaction is ignored. -/
def execSpiReservedCommand (cmd : Byte) (s : State) : Host.Outcome State Fault Refusal :=
  .next (if spiUp s ∧ spiCode cmd = none then spiSend [] s else s)

/-- CS_COLLISION (R276): both chip selects low together are ignored until both rise, and counted. -/
def execCsCollision (s : State) : Host.Outcome State Fault Refusal :=
  .next (if spiUp s then spiSend [] (s.bump K.spiCsCollisions) else s)

/-! ### The legacy window (R284 to R287) -/

/-- A CS-0 command (R284): whether it reads, how many words, and the first word address. -/
def legacyCommand (w : BitVec 16) : Bool × Nat × Nat := (bit w.toNat 15, field w.toNat 14 11 + 1, field w.toNat 10 0)

/-- The addresses of `n` words from `a`: they increase by one and wrap from 0x7FF to 0x000 (R284). -/
def legacyAddrs (a n : Nat) : List Nat := (List.range n).map (fun i => (a + i) % 2048)

/-- STATUS of the legacy window (Table 10.10). -/
def legacyStatus (s : State) (p : Snap) : Nat :=
  let any := fun (b : Nat) => (List.range 64).any (fun c => bit (snapVal p (K.cctStatus c)) b)
  b2n s.ready + 2 * b2n (decide (snapVal p K.timeTimeValid = 1)) + 4 * b2n (decide (snapVal p K.calState = 1)) +
    8 * b2n (decide (snapVal p K.stale = 1)) + 16 * b2n (any 9) + 32 * b2n (any 10)

/-- The high word of a 48-bit value. -/
def hi24 (v : Nat) : Nat := v / 2 ^ 24 % 2 ^ 24

/-- The low word. -/
def lo24 (v : Nat) : Nat := v % 2 ^ 24

/-- The 48-bit value whose high or low word stands at an address, and whether it is the high one. -/
def legacyPair (s : State) (p : Snap) (a : Nat) : Option (Nat × Bool) :=
  if a = 5 ∨ a = 6 then some (p.fn, decide (a = 5))
  else if a = 7 ∨ a = 8 then some (snapVal p K.timeTime48, decide (a = 7))
  else if 0x40 ≤ a ∧ a < 0x240 then
    let n := (a - 0x40) / 8
    let i := a % 8
    let off := bit (snapVal p (K.chStatus n)) 15
    if i = 3 ∨ i = 4 then some (if off then 0 else s.get (K.chCalTime n), decide (i = 3))
    else if i = 5 ∨ i = 6 then some (if off then 0 else snapVal p (K.chAiBase n), decide (i = 5)) else none
  else if 0x240 ≤ a ∧ a < 0x640 then
    let c := (a - 0x240) / 16
    let k := (a - 0x240) % 16 / 2
    some (if bit (snapVal p (K.cctStatus c)) 15 then 0 else snapVal p (K.cctReg c (64 + k)), decide (a % 2 = 0))
  else none

/-- A word that is no half of a pair (Table 10.10). -/
def legacyWord (s : State) (p : Snap) (a : Nat) : Nat :=
  let id := s.get K.idUnitId
  let chk := snapVal p K.idCheck
  if a = 0 then 0x025600 else if a = 1 then s.get K.idRomRev
  else if a = 2 then id / 2 ^ 48 else if a = 3 then id / 2 ^ 24 % 2 ^ 24 else if a = 4 then id % 2 ^ 24
  else if a = 9 then legacyStatus s p
  else if a = 10 then s.spi.events
  else if a = 11 then s.get K.spiLegacyEventMask
  else if a = 12 then chk % 256 * 256 + chk / 256 % 256
  else if a = 13 then chk / 65536 % 256 * 256 + chk / 2 ^ 24 % 256
  else if 0x40 ≤ a ∧ a < 0x240 then
    let n := (a - 0x40) / 8
    let st := snapVal p (K.chStatus n)
    let i := a % 8
    if i = 1 then st
    else if bit st 15 then 0
    else if i = 0 then hi24 (snapVal p (K.chIRms n))
    else if i = 2 then s.get (K.chCalCount n)
    else snapVal p (K.chFState n) + 256 * snapVal p (K.laneFState (n / 8))
  else 0

/-- The word at an address, all zero until READY (R286). (DEDUCED, log 28) -/
def legacyAt (s : State) (a : Nat) : Nat :=
  match s.current with
  | some p => if s.ready && decide (s.mode = .run) then
      (match legacyPair s p a with
       | some (v, true) => hi24 v
       | some (v, false) => lo24 v
       | none => legacyWord s p a % 2 ^ 24)
    else 0
  | none => 0

/-- An address holds a high word. -/
def isHigh (s : State) (a : Nat) : Bool :=
  match s.current with | some p => (match legacyPair s p a with | some (_, true) => true | _ => false) | none => false

/-- The latch after a read of `n` words from `a` (R286): a single high word latches its low word; another high word ends a latch.
(DEDUCED, log 28) -/
def legacyLatch (s : State) (a n : Nat) : Option (Nat × Nat × Nat) :=
  if n = 1 then
    (if isHigh s a then some (a + 1, legacyAt s (a + 1), s.fn) else s.spi.latch)
  else
    let own := match s.spi.latch with | some (x, _, _) => x - 1 | none => 0
    if (legacyAddrs a n).any (fun i => isHigh s i && decide (i ≠ own)) then none else s.spi.latch

/-- LEGACY_READ (R284 to R286): words of the CURRENT snapshot, most significant byte first. -/
def execLegacyRead (addr : BitVec 11) (count : Fin 16) (s : State) : Host.Outcome State Fault Refusal :=
  .next (if spiUp s = false then s
  else
    let a := addr.toNat
    let n := count.val + 1
    let held := match s.spi.latch with
      | some (x, w, f) => if n = 1 ∧ x = a ∧ s.fn ≤ f + 1024 ∧ s.ready then some w else none
      | none => none
    let words := match held with | some w => [w] | none => (legacyAddrs a n).map (legacyAt s)
    let l := legacyLatch s a n
    let s := spiSend (words.flatMap (fun w => (le 3 w).reverse)) (s.bumpLive K.spiLegacyReads)
    setSpi (fun p => { p with latch := l }) s)

/-- The window takes writes in RUN. -/
def legacyOpen (s : State) : Bool := decide (s.mode = .run)

/-- LEGACY_WRITE_EVENTS (R287): the bits that are 1 in the word are cleared in EVENTS. -/
def execLegacyWriteEvents (w : BitVec 24) (s : State) : Host.Outcome State Fault Refusal :=
  .next (if legacyOpen s then
    setSpi (fun p => { p with events := (List.range 9).foldl (fun e b => if bit w.toNat b then clearBit e b else e) p.events }) (spiSend [] s)
  else s)

/-- LEGACY_WRITE_EVENT_MASK (R287): EVENT_MASK takes bits 8:0. -/
def execLegacyWriteEventMask (w : BitVec 24) (s : State) : Host.Outcome State Fault Refusal :=
  .next (if legacyOpen s then (spiSend [] s).put K.spiLegacyEventMask (w.toNat % 512) else s)

/-- LEGACY_WRITE_IGNORED (R287): a word written elsewhere is ignored and counted. -/
def execLegacyWriteIgnored (addr : BitVec 11) (_w : BitVec 24) (s : State) : Host.Outcome State Fault Refusal :=
  .next (if legacyOpen s ∧ addr.toNat ≠ 10 ∧ addr.toNat ≠ 11 then (spiSend [] s).bump K.spiLegacyWritesIgnored else s)

end Sys2Proof.Machine
end

