-- ==== Sys2Proof/Machine/Takes.lean ====
section
/-! DEFINITION. COMMIT_TAKES_EFFECT (R35): what the frame B of commits and methods brings about outside the Tannery and the Hallmark core,
which take the settings of B when they begin to compute it. -/

namespace Sys2Proof.Machine

/-! ### Counting and logging -/

/-- The keys that a commit writes and a test picks out, in the order of writing. -/
def Commit.picked (c : Commit) (p : Nat → Bool) : List Nat := (c.chg.map (fun g => g.key)).filter p

/-- An object that carries L (Table 9.5). -/
def isLegal (k : Nat) : Bool := match rowOf k with | some r => r.has 1 | none => false

/-- The method object of an effect, where it carries L. -/
def effObject (eff : Eff) : Option Nat :=
  match eff with
  | .write => none
  | .resume => some K.resume
  | .reinstate .. => some K.reinstate
  | .resolve legal _ _ => if legal then some K.resolve else none
  | .restore .. => some K.restore
  | .activate _ => some K.activate

/-- The commit or method is counted and logged where it writes legal data (R244). (DEDUCED, log 22; DEDUCED, log 23) -/
def noteLegal (c : Commit) (s : State) : State :=
  match effObject c.eff with
  | some k => if isLegal k then legalNote c.txn c.b c.port c.role 1 k s else s
  | none =>
    match c.picked isLegal with
    | [] => s
    | k :: l => legalNote c.txn c.b c.port c.role (l.length + 1) k s

/-- A calibration object of current channel `n` (R99). -/
def chCalKey (n k : Nat) : Bool := decide (k / 256 = 0x2400 + n) && decide (1 ≤ k % 256) && decide (k % 256 ≤ 8)

/-- A calibration object of voltage channel `v` (R99). -/
def vCalKey (v k : Nat) : Bool := decide (k / 256 = 0x2200 + v) && decide (2 ≤ k % 256) && decide (k % 256 ≤ 4)

/-- CAL_STATUS, CAL_COUNT and CAL_TIME of the channels that a transaction calibrates (R99, R100), and CAL_COMMITS. (DEDUCED, log 24) -/
def noteCal (c : Commit) (s : State) : State :=
  let ks := c.picked (fun k => decide (0x2000 ≤ k / 256) && decide (k / 256 ≤ 0x25FF))
  if c.eff ≠ .write ∨ ks = [] then s
  else
    let s := (List.range 256).foldl (fun s n =>
      if ks.any (chCalKey n) then ((s.put (K.chCalStatus n) 1).bump (K.chCalCount n)).put (K.chCalTime n) (s.timeOf c.b) else s) s
    let s := (List.range 12).foldl (fun s v => if ks.any (vCalKey v) then s.put (K.vCalStatus v) 1 else s) s
    if ks.any isLegal then s.bump K.calCommits else s

/-- The generation advances by one for the commit or method, which has taken effect (R33). -/
def noteGen (c : Commit) (s : State) : State :=
  { s with gens := (c.b, (s.genOf c.b + 1) % 2 ^ 32) :: s.gens }

/-! ### Settings of frame B -/

/-- The gain pair or the range mode of channel `n` changes at `b`. -/
def gainTouched (s : State) (b n : Nat) : Bool :=
  changesAt s b (K.chGainLow n) || changesAt s b (K.chGainHigh n) || changesAt s b (K.chRangeMode n)

/-- The committed table of lane `l` changes at `b`. -/
def tableTouched (s : State) (b l : Nat) : Bool :=
  changesAt s b (K.laneTableLen l) || (List.range 64).any (fun e => changesAt s b (K.laneEntry l e))

/-- The table that lane `l` runs changes at `b`: its committed one, or the degraded one that a change of either table, of an enabled
input or of a gain of the pair rebuilds (R53, R69). -/
def runTouched (s : State) (b l : Nat) : Bool :=
  if s.live (K.laneMode l) = 2 then false
  else if s.live (K.laneMode l) = 1 then
    [l, partner l].any (fun x => tableTouched s b x ||
      ((List.range 8).map (fun e => 8 * x + e)).any (fun n => gainTouched s b n || changesAt s b (K.chEnable n)))
  else tableTouched s b l

/-- A gain that the table of lane `l` uses changes at `b`. -/
def gainsTouched (s : State) (b l : Nat) : Bool :=
  decide (s.live (K.laneMode l) ≠ 2) && (tableOf s b l).any (fun e => !e.gap && gainTouched s b (srcCh l e.src))

/-- A channel starts `b` in its low range, and a pending switch is cancelled; its controller goes on watching (R53, R66).  The change
to the low range at `b` does not count in SWITCHES. (DEDUCED, log 25; DESIGN CHOICE, log 84) -/
def lowAgain (c : RangeCtl) : RangeCtl := { c with now := false, next := false, want := false, clip := false }

/-- The lanes at `b` (R53, R57, R66, R69, R76): tables and rotation steps restart, channels with new gains start in their low range,
streams of newly enabled inputs restart, and RING-0's credit count is computed again. (DEDUCED, log 24; DEDUCED, log 25) -/
def lanesTake (b : Nat) (s : State) : State :=
  let ran := (List.range 32).filter (runTouched s b)
  let rot := (List.range 32).filter (fun l => runTouched s b l || gainsTouched s b l)
  let s := rot.foldl (fun s l => s.putLive (K.laneRotStep l) 0) s
  let s := ran.foldl (fun s l => s.put (K.laneTableFn l) b) s
  let s := { s with acq := { s.acq with rng := s.acq.rng.map (fun e => if gainTouched s b e.1 then (e.1, lowAgain e.2) else e) } }
  let on := (List.range 256).filter (fun n => changesAt s b (K.chEnable n) && decide (s.cfg b (K.chEnable n) = 1))
  let von := (List.range 12).filter (fun v => changesAt s b (K.vEnable v) && decide (s.cfg b (K.vEnable v) = 1))
  let s := dropExtra (fun k => decide (s.cfg b (if k < 256 then K.chEnable k else K.vEnable (k - 256)) ≠ 1)) s
  recredit0 b (restartStreams b (on ++ von.map (fun v => 256 + v)) (lowRange on s))

/-- A circuit's definition changes at `b` (Table 4.9). -/
def defTouched (s : State) (b c : Nat) : Bool := (List.range 0x13).any (fun i => changesAt s b (K.cctKind c + i))

/-- DEF_FN of the circuits whose definition changes. (DEDUCED, log 24) -/
def defsTake (b : Nat) (s : State) : State :=
  ((List.range 256).filter (defTouched s b)).foldl (fun s c => s.put (K.cctDefFn c) b) s

/-- The circuits that are SEALED in frame `f`. -/
def sealedIn (s : State) (f : Nat) : List Nat := (List.range 256).filter (fun c => decide (s.cfg f (K.cctRegime c) = 1))

/-- REGIME changes at `b` (R372): SEALED_COUNT, SEALED_DIGEST where it rises from 0, and SEAL-CHANGED for each. -/
def regimesTake (b : Nat) (s : State) : State :=
  let cs := (List.range 256).filter (fun c => changesAt s b (K.cctRegime c))
  if cs = [] then s
  else
    let n := (sealedIn s b).length
    let s := if s.get K.sealedCount = 0 ∧ n ≠ 0 then s.put K.sealedDigest (s.live K.idLegalDigest) else s
    cs.foldl (fun s c => (s.bump K.sealChanges).event 0x0705 [c, s.cfg b (K.cctRegime c), s.live K.idCheck]) (s.putV K.sealedCount n)

/-- The Ethernet port at `b` (R39, R289, R290). -/
def ethTakes (b : Nat) (s : State) : State :=
  if changesAt s b K.t1sEnable then
    (if s.cfg b K.t1sEnable = 0 then t1sStop b s else if portOff s .t1s then s else t1sStart b s)
  else if changesAt s b K.t1sUnicastAddr ∧ portOff s .t1s = false then dadUnicast b s
  else s

/-- The power-line port and the time base at `b` (R39, R298, R305). -/
def lineTakes (b : Nat) (s : State) : State :=
  if changesAt s b K.plcEnable then
    (if s.cfg b K.plcEnable = 0 then plcStop b s else if portOff s .plc then s else plcStart b s)
  else if portOff s .plc then s
  else
    let band := changesAt s b K.plcBand
    let s := if band then leavePan (some 1) 1 s else s
    if band || changesAt s b K.tbTbRole || changesAt s b K.tbTimePhase then tbStart_ b s else s

/-- The role of the SPI port without a HELLO changes with the OWN key (R243). -/
def spiTake (b : Nat) (s : State) : State :=
  if decide (s.cfg b (K.sesRoleKey 4) = 0) ≠ decide (s.cfg (b - 1) (K.sesRoleKey 4) = 0) ∧ spiSess s = none then dropWork .spi none s else s

/-- Storage at `b`: STIRRUP_PAGES (R339), host twin records (R347), pages stored in place (R325). -/
def storesTake (b : Nat) (s : State) : State :=
  let s := if changesAt s b K.stirrupCap then s.putV K.stirrupPages (stirrupPagesOf (s.cfg b K.stirrupCap)) else s
  let s := if changesAt s b K.twinCount then
      (List.range 40).foldl (fun s i => showPage (984 + i) s) ((List.range 20).foldl (fun s r => showTwin r s) s) else s
  ((List.range 40).filter (fun i => changesAt s b (K.pageMode i))).foldl (fun s i => showPage (984 + i) s) s

/-- Every setting of frame `b`. (DEDUCED, log 23) -/
def settingsTake (b : Nat) (s : State) : State :=
  showLoads b (storesTake b (spiTake b (lineTakes b (ethTakes b (regimesTake b (defsTake b (lanesTake b s)))))))

/-! ### Methods -/

/-- What a method does at its B; an activation is carried on by the handover (R381). -/
def effTake (c : Commit) (s : State) : State :=
  match c.eff with
  | .write => s
  | .resume => resumeNow c.b s
  | .reinstate kind num => reinstateNow c.b kind num s
  | .resolve legal r w => resolveNow legal r w s
  | .restore g mask => restoreNow g mask s
  | .activate _ => s

/-- One commit or method takes effect; its settings govern already by their frame (R35). (DEDUCED, log 23) -/
def takeOne (c : Commit) (s : State) : State := effTake c (noteCal c (noteLegal c (noteGen c s)))

/-- The frames B that commits share, each once, ascending. -/
def framesOf (cs : List Commit) : List Nat := cs.foldl (fun l c => insN c.b l) []

/-- The commits whose B has begun and that have not taken effect. -/
def dueCommits (s : State) : List Commit := s.commits.filter (fun c => !c.done && decide (c.b ≤ s.fn))

/-- They have taken effect. -/
def markDone (s : State) : State := { s with commits := s.commits.map (fun c => if c.b ≤ s.fn then { c with done := true } else c) }

/-- COMMIT_TAKES_EFFECT (R33, R35, R36): every commit and method whose B has begun, in the order of their acknowledgements;
none while the lanes do not run (R37). (DEDUCED, log 23) -/
def execCommitTakesEffect (s : State) : Host.Outcome State Fault Refusal :=
  .next (if s.mode = .run ∨ s.mode = .recovery then
    (dueCommits s).foldl (fun s c => takeOne c s) ((framesOf (dueCommits s)).foldl (fun s b => settingsTake b s) (markDone s))
  else s)

end Sys2Proof.Machine
end

