-- ==== Sys2Proof/Machine/Dispatch.lean ====
section
/-! DEFINITION. The meaning of every command: one arm per row of spec/opcode_table.json. -/

namespace Sys2Proof.Machine

/-- The effect of a command on everything but the queue. -/
def exec (i : Instr) (s : State) : Host.Outcome State Fault Refusal :=
  match i with
  | .frameTick calEn => Sys2Proof.Machine.execFrameTick calEn s
  | .calStateChange => Sys2Proof.Machine.execCalStateChange s
  | .samplePeriod lanes volts => Sys2Proof.Machine.execSamplePeriod lanes volts s
  | .rangeCrossingTimeout ch => Sys2Proof.Machine.execRangeCrossingTimeout ch s
  | .alignerSample => Sys2Proof.Machine.execAlignerSample s
  | .laneTakeover lane => Sys2Proof.Machine.execLaneTakeover lane s
  | .tanneryFrameCompute cyc0 cyc1 => Sys2Proof.Machine.execTanneryFrameCompute cyc0 cyc1 s
  | .halfCycleTimeout v => Sys2Proof.Machine.execHalfCycleTimeout v s
  | .harmonicWindowClose inp => Sys2Proof.Machine.execHarmonicWindowClose inp s
  | .freq10sIntervalEnd => Sys2Proof.Machine.execFreq10sIntervalEnd s
  | .hallmarkAccrue cyc => Sys2Proof.Machine.execHallmarkAccrue cyc s
  | .directionChange c => Sys2Proof.Machine.execDirectionChange c s
  | .balanceRate => Sys2Proof.Machine.execBalanceRate s
  | .healthCheckPass => Sys2Proof.Machine.execHealthCheckPass s
  | .publisherSeal => Sys2Proof.Machine.execPublisherSeal s
  | .ringCreditAvailable ring port => Sys2Proof.Machine.execRingCreditAvailable ring port s
  | .commitTakesEffect => Sys2Proof.Machine.execCommitTakesEffect s
  | .pinExpiry txn => Sys2Proof.Machine.execPinExpiry txn s
  | .txnTimeout txn => Sys2Proof.Machine.execTxnTimeout txn s
  | .requestParse port => Sys2Proof.Machine.execRequestParse port s
  | .requestStartDeferred slot => Sys2Proof.Machine.execRequestStartDeferred slot s
  | .continuationTimeout slot => Sys2Proof.Machine.execContinuationTimeout slot s
  | .responseEnqueue port => Sys2Proof.Machine.execResponseEnqueue port s
  | .read slot => Sys2Proof.Machine.execRead slot s
  | .readSet slot => Sys2Proof.Machine.execReadSet slot s
  | .readSigned slot => Sys2Proof.Machine.execReadSigned slot s
  | .write slot => Sys2Proof.Machine.execWrite slot s
  | .begin_ slot => Sys2Proof.Machine.execBegin slot s
  | .commit slot => Sys2Proof.Machine.execCommit slot s
  | .rollback slot => Sys2Proof.Machine.execRollback slot s
  | .subscribe slot => Sys2Proof.Machine.execSubscribe slot s
  | .unsubscribe slot => Sys2Proof.Machine.execUnsubscribe slot s
  | .helloStep1 port => Sys2Proof.Machine.execHelloStep1 port s
  | .helloStep2 port => Sys2Proof.Machine.execHelloStep2 port s
  | .handshakeExpiry n => Sys2Proof.Machine.execHandshakeExpiry n s
  | .sessionTimeout k => Sys2Proof.Machine.execSessionTimeout k s
  | .unknownOpcode slot => Sys2Proof.Machine.execUnknownOpcode slot s
  | .timeSet slot => Sys2Proof.Machine.execTimeSet slot s
  | .clockStepApply => Sys2Proof.Machine.execClockStepApply s
  | .captureNow slot => Sys2Proof.Machine.execCaptureNow slot s
  | .captureComplete => Sys2Proof.Machine.execCaptureComplete s
  | .captureHoldoffExpiry => Sys2Proof.Machine.execCaptureHoldoffExpiry s
  | .closeNow slot => Sys2Proof.Machine.execCloseNow slot s
  | .boundaryFrame => Sys2Proof.Machine.execBoundaryFrame s
  | .profileIntervalEnd => Sys2Proof.Machine.execProfileIntervalEnd s
  | .forcedRollComplete => Sys2Proof.Machine.execForcedRollComplete s
  | .staleEnter => Sys2Proof.Machine.execStaleEnter s
  | .wiringCheck => Sys2Proof.Machine.execWiringCheck s
  | .hostTokenWrite slot => Sys2Proof.Machine.execHostTokenWrite slot s
  | .resume slot => Sys2Proof.Machine.execResume slot s
  | .reinstate slot => Sys2Proof.Machine.execReinstate slot s
  | .pulseStart n => Sys2Proof.Machine.execPulseStart n s
  | .pulseEnd n => Sys2Proof.Machine.execPulseEnd n s
  | .channelCheck ch => Sys2Proof.Machine.execChannelCheck ch s
  | .channelExtraCheck ch cmMv => Sys2Proof.Machine.execChannelExtraCheck ch cmMv s
  | .voltageCheck v cmMv => Sys2Proof.Machine.execVoltageCheck v cmMv s
  | .modulatorInstability v => Sys2Proof.Machine.execModulatorInstability v s
  | .portWatchdog port selfTest => Sys2Proof.Machine.execPortWatchdog port selfTest s
  | .routeRetire j => Sys2Proof.Machine.execRouteRetire j s
  | .spiPut bytes => Sys2Proof.Machine.execSpiPut bytes s
  | .spiTake clocked => Sys2Proof.Machine.execSpiTake clocked s
  | .spiStatus => Sys2Proof.Machine.execSpiStatus s
  | .spiClear mask => Sys2Proof.Machine.execSpiClear mask s
  | .spiReservedCommand cmd => Sys2Proof.Machine.execSpiReservedCommand cmd s
  | .csCollision => Sys2Proof.Machine.execCsCollision s
  | .legacyRead addr count => Sys2Proof.Machine.execLegacyRead addr count s
  | .legacyWriteEvents w => Sys2Proof.Machine.execLegacyWriteEvents w s
  | .legacyWriteEventMask w => Sys2Proof.Machine.execLegacyWriteEventMask w s
  | .legacyWriteIgnored addr w => Sys2Proof.Machine.execLegacyWriteIgnored addr w s
  | .t1sDatagramReceive d => Sys2Proof.Machine.execT1sDatagramReceive d s
  | .neighbourSolicitation target src mac => Sys2Proof.Machine.execNeighbourSolicitation target src mac s
  | .echoRequest src => Sys2Proof.Machine.execEchoRequest src s
  | .duplicateAddressDetection unicast duplicate => Sys2Proof.Machine.execDuplicateAddressDetection unicast duplicate s
  | .bridleNetworkFrame port => Sys2Proof.Machine.execBridleNetworkFrame port s
  | .t1sPowerDown => Sys2Proof.Machine.execT1sPowerDown s
  | .endSession slot => Sys2Proof.Machine.execEndSession slot s
  | .plcFrameReceive f => Sys2Proof.Machine.execPlcFrameReceive f s
  | .plcJoin r => Sys2Proof.Machine.execPlcJoin r s
  | .joinRetry => Sys2Proof.Machine.execJoinRetry s
  | .plcTxComplete acked retries => Sys2Proof.Machine.execPlcTxComplete acked retries s
  | .routeWaitExpiry => Sys2Proof.Machine.execRouteWaitExpiry s
  | .toneMapRefresh j => Sys2Proof.Machine.execToneMapRefresh j s
  | .announceSend => Sys2Proof.Machine.execAnnounceSend s
  | .announceAbandon => Sys2Proof.Machine.execAnnounceAbandon s
  | .announcementReceive a => Sys2Proof.Machine.execAnnouncementReceive a s
  | .tbHoldoverExpiry => Sys2Proof.Machine.execTbHoldoverExpiry s
  | .cycleMap slot => Sys2Proof.Machine.execCycleMap slot s
  | .repeaterOfferChange => Sys2Proof.Machine.execRepeaterOfferChange s
  | .routeHoldExpiry => Sys2Proof.Machine.execRouteHoldExpiry s
  | .strangerBlock mv => Sys2Proof.Machine.execStrangerBlock mv s
  | .strangerForced => Sys2Proof.Machine.execStrangerForced s
  | .pageStoreComplete verified => Sys2Proof.Machine.execPageStoreComplete verified s
  | .rollPosition => Sys2Proof.Machine.execRollPosition s
  | .bgStore => Sys2Proof.Machine.execBgStore s
  | .tackroomOpComplete verified => Sys2Proof.Machine.execTackroomOpComplete verified s
  | .eventLogWrite => Sys2Proof.Machine.execEventLogWrite s
  | .scrub weakFrames weakSectors => Sys2Proof.Machine.execScrub weakFrames weakSectors s
  | .backup => Sys2Proof.Machine.execBackup s
  | .backupNow slot => Sys2Proof.Machine.execBackupNow slot s
  | .pageRead slot => Sys2Proof.Machine.execPageRead slot s
  | .pageWrite slot => Sys2Proof.Machine.execPageWrite slot s
  | .restore slot => Sys2Proof.Machine.execRestore slot s
  | .twinWrite slot => Sys2Proof.Machine.execTwinWrite slot s
  | .resolve slot => Sys2Proof.Machine.execResolve slot s
  | .hjWrite slot => Sys2Proof.Machine.execHjWrite slot s
  | .hjRead slot => Sys2Proof.Machine.execHjRead slot s
  | .tkRead slot => Sys2Proof.Machine.execTkRead slot s
  | .eventRead slot => Sys2Proof.Machine.execEventRead slot s
  | .keyCommand slot => Sys2Proof.Machine.execKeyCommand slot s
  | .updateOpen slot => Sys2Proof.Machine.execUpdateOpen slot s
  | .writeBlock slot => Sys2Proof.Machine.execWriteBlock slot s
  | .verify slot => Sys2Proof.Machine.execVerify slot s
  | .activate slot => Sys2Proof.Machine.execActivate slot s
  | .abort slot => Sys2Proof.Machine.execAbort slot s
  | .leaseExpiry => Sys2Proof.Machine.execLeaseExpiry s
  | .handoverPrepared ok => Sys2Proof.Machine.execHandoverPrepared ok s
  | .handoverQuiesce => Sys2Proof.Machine.execHandoverQuiesce s
  | .handoverAtB => Sys2Proof.Machine.execHandoverAtB s
  | .handoverBankSwitch => Sys2Proof.Machine.execHandoverBankSwitch s
  | .imageRevert => Sys2Proof.Machine.execImageRevert s
  | .operationalCoreReady => Sys2Proof.Machine.execOperationalCoreReady s
  | .powerGood p => Sys2Proof.Machine.execPowerGood p s
  | .holdOk chargeUs => Sys2Proof.Machine.execHoldOk chargeUs s
  | .holdFault mv => Sys2Proof.Machine.execHoldFault mv s
  | .billingResume => Sys2Proof.Machine.execBillingResume s
  | .warmReset watchdog recover => Sys2Proof.Machine.execWarmReset watchdog recover s
  | .powerFailWarning us vld vdd33 => Sys2Proof.Machine.execPowerFailWarning us vld vdd33 s
  | .lastGaspComplete fittedPages powerGood => Sys2Proof.Machine.execLastGaspComplete fittedPages powerGood s
  | .vbatMeasure vdd33 vld vhold vbat => Sys2Proof.Machine.execVbatMeasure vdd33 vld vhold vbat s
  | .vbatCollapse => Sys2Proof.Machine.execVbatCollapse s
  | .tamperSample cover mag => Sys2Proof.Machine.execTamperSample cover mag s
  | .geckoScan d => Sys2Proof.Machine.execGeckoScan d s
  | .geckoLimitExpiry => Sys2Proof.Machine.execGeckoLimitExpiry s
  | .rtcCountAdvance => Sys2Proof.Machine.execRtcCountAdvance s
  | .pfwNRelease => Sys2Proof.Machine.execPfwNRelease s

end Sys2Proof.Machine
end

