-- ==== Sys2Proof/Machine/Step.lean ====
section
/-! DEFINITION. One step: the command at the front of the queue acts on the machine with the rest of the queue; on an empty queue
the block idles (DESIGN CHOICE, log 1). -/

namespace Sys2Proof.Machine

/-- One step of the block. (DESIGN CHOICE, log 1; DESIGN CHOICE, log 83) -/
def step (s : State) : Host.Outcome State Fault Refusal :=
  match s.pending with
  | [] => .next s
  | c :: q => exec c { s with pending := q }

/-- The state with the command that a word spells at the front of its queue; a word that spells none changes nothing.
(DESIGN CHOICE, log 14) -/
def State.withFetchWord (s : State) (nbits w : Nat) : State :=
  match Sys2Proof.decodeTableWord nbits w with
  | some c => { s with pending := c :: s.pending }
  | none => s

end Sys2Proof.Machine
end

