-- ==== Sys2Proof/Safety.lean ====
section
/-! DEFINITION. What claims call a safe step, and the form that every step keeps: tables in canonical form, rings within their depths,
and at most 16 sample periods to a frame. -/

namespace Sys2Proof.Machine

/-- The step answers a next state: it neither faults nor refuses. -/
def Completes (s : State) : Prop := ∃ t, step s = .next t

/-- The canonical form of the object dictionary: keys rise strictly and no listed object holds its default (R245). -/
def dictWf (t : Tab Nat) : Bool := Tab.risingFrom 0 t && t.all (fun e => decide (e.2 ≠ oDefault e.1))

/-- The form of a state that every step keeps.  Objects, pages and page frames stand in one canonical form each; RING-5 and RING-7 hold
no more than their depths (R14, R15); a frame has at most 16 sample periods (R10). -/
structure Sound (s : State) : Prop where
  dict   : dictWf s.dict = true
  pages  : Tab.wf ({} : PageS) s.pages = true
  seals  : Tab.wf ({} : Seal) s.seals = true
  ring5  : s.ring5.length ≤ 1024
  ring7  : s.bill.ring7.length ≤ 8
  period : s.acq.period ≤ 16

/-! ### Frames -/

/-- The pieces of a state: its fields. -/
inductive Piece where
  | fn | mode | dict | commits | times | chg | due | olds | gens | acq | aln | tan | cap | bill | pulse | img | tk | pwr | srv |
  spi | t1s | plc | tb | dev | ready | ring5 | staging | sealed | current | previous | pins | jobs | rollq | pages | seals | units
  | draws | pending
  deriving DecidableEq, Repr

/-- The number of a part. -/
def Piece.num : Piece → Nat
  | .fn => 0 | .mode => 1 | .dict => 2 | .commits => 3 | .times => 4 | .chg => 5 | .due => 6 | .olds => 7 | .gens => 8
  | .acq => 9 | .aln => 10 | .tan => 11 | .cap => 12 | .bill => 13 | .pulse => 14 | .img => 15 | .tk => 16 | .pwr => 17
  | .srv => 18 | .spi => 19 | .t1s => 20 | .plc => 21 | .tb => 22 | .dev => 23 | .ready => 24 | .ring5 => 25 | .staging => 26
  | .sealed => 27 | .current => 28 | .previous => 29 | .pins => 30 | .jobs => 31 | .rollq => 32 | .pages => 33 | .seals => 34
  | .units => 35 | .draws => 36 | .pending => 37

/-- Two states agree in a part. -/
def Piece.same (s t : State) : Piece → Prop
  | .fn => t.fn = s.fn
  | .mode => t.mode = s.mode
  | .dict => t.dict = s.dict
  | .commits => t.commits = s.commits
  | .times => t.times = s.times
  | .chg => t.chg = s.chg
  | .due => t.due = s.due
  | .olds => t.olds = s.olds
  | .gens => t.gens = s.gens
  | .acq => t.acq = s.acq
  | .aln => t.aln = s.aln
  | .tan => t.tan = s.tan
  | .cap => t.cap = s.cap
  | .bill => t.bill = s.bill
  | .pulse => t.pulse = s.pulse
  | .img => t.img = s.img
  | .tk => t.tk = s.tk
  | .pwr => t.pwr = s.pwr
  | .srv => t.srv = s.srv
  | .spi => t.spi = s.spi
  | .t1s => t.t1s = s.t1s
  | .plc => t.plc = s.plc
  | .tb => t.tb = s.tb
  | .dev => t.dev = s.dev
  | .ready => t.ready = s.ready
  | .ring5 => t.ring5 = s.ring5
  | .staging => t.staging = s.staging
  | .sealed => t.sealed = s.sealed
  | .current => t.current = s.current
  | .previous => t.previous = s.previous
  | .pins => t.pins = s.pins
  | .jobs => t.jobs = s.jobs
  | .rollq => t.rollq = s.rollq
  | .pages => t.pages = s.pages
  | .seals => t.seals = s.seals
  | .units => t.units = s.units
  | .draws => t.draws = s.draws
  | .pending => t.pending = s.pending

/-- Nothing but the listed parts changes from `s` to `t`. -/
def Frame (ps : List Piece) (s t : State) : Prop := ∀ p, p ∉ ps → p.same s t

/-- The parts that a command may change. -/
def writes : Instr → List Piece
  | .frameTick _ => [.fn, .dict, .times, .chg, .due, .olds, .acq, .aln, .tan, .bill, .pulse, .img, .pwr, .srv, .plc, .dev, .ring5,
    .staging, .sealed, .current, .previous, .jobs, .pages]
  | .calStateChange => [.dict, .commits, .chg, .olds, .bill, .spi, .ring5]
  | .samplePeriod _ _ => [.dict, .chg, .due, .acq, .aln, .ring5]
  | .rangeCrossingTimeout _ => [.dict, .chg, .acq]
  | .alignerSample => [.dict, .chg, .due, .acq, .aln, .ring5]
  | .laneTakeover _ => [.dict, .chg, .acq, .aln, .ring5]
  | .tanneryFrameCompute _ _ => [.dict, .chg, .due, .acq, .aln, .tan, .cap, .pwr, .plc, .tb, .ring5]
  | .halfCycleTimeout _ => [.dict, .chg, .due, .tan, .cap, .ring5]
  | .harmonicWindowClose _ => [.dict, .due, .tan]
  | .freq10sIntervalEnd => [.dict, .due, .tan]
  | .hallmarkAccrue _ => [.dict, .commits, .due, .olds, .acq, .tan, .bill, .pulse, .img, .pwr, .ring5, .staging, .jobs, .rollq,
    .pages]
  | .directionChange _ => [.dict, .due, .bill, .ring5, .staging, .sealed]
  | .balanceRate => [.dict, .due, .bill, .ring5, .staging, .sealed]
  | .healthCheckPass => [.dict, .chg, .img, .ring5]
  | .publisherSeal => [.dict, .staging, .sealed]
  | .ringCreditAvailable _ _ => [.dict, .chg, .bill, .img, .srv, .t1s, .plc, .ring5, .pins, .jobs, .rollq, .draws]
  | .commitTakesEffect => [.dict, .commits, .chg, .due, .olds, .gens, .acq, .aln, .bill, .img, .tk, .pwr, .srv, .t1s, .plc, .tb,
    .ring5, .pins, .jobs, .pages, .units, .draws]
  | .pinExpiry _ => [.dict, .srv, .pins]
  | .txnTimeout _ => [.dict, .srv, .pins]
  | .requestParse _ => [.dict, .chg, .srv]
  | .requestStartDeferred _ => [.srv]
  | .continuationTimeout _ => [.srv]
  | .responseEnqueue _ => [.dict, .srv]
  | .read _ => [.srv]
  | .readSet _ => [.srv]
  | .readSigned _ => [.dict, .bill, .srv]
  | .write _ => [.dict, .bill, .srv, .jobs, .pages]
  | .begin_ _ => [.srv, .pins]
  | .commit _ => [.dict, .bill, .srv, .pins, .jobs, .pages]
  | .rollback _ => [.srv, .pins]
  | .subscribe _ => [.srv]
  | .unsubscribe _ => [.srv]
  | .helloStep1 _ => [.dict, .srv, .draws]
  | .helloStep2 _ => [.dict, .chg, .img, .srv, .pins]
  | .handshakeExpiry _ => [.srv]
  | .sessionTimeout _ => [.dict, .chg, .img, .srv, .pins]
  | .unknownOpcode _ => [.srv]
  | .timeSet _ => [.dict, .olds, .srv, .dev, .ring5]
  | .clockStepApply => [.dict, .times, .chg, .bill, .dev]
  | .captureNow _ => [.dict, .cap, .srv]
  | .captureComplete => [.dict, .chg, .cap]
  | .captureHoldoffExpiry => [.dict, .chg]
  | .closeNow _ => [.dict, .bill, .srv, .ring5]
  | .boundaryFrame => [.dict, .due, .bill, .pulse, .ring5, .jobs, .rollq, .pages]
  | .profileIntervalEnd => [.dict, .bill]
  | .forcedRollComplete => [.dict, .due, .bill, .ring5]
  | .staleEnter => [.dict, .chg, .spi, .plc]
  | .wiringCheck => [.dict, .olds, .bill, .ring5]
  | .hostTokenWrite _ => [.dict, .bill, .srv, .ring5]
  | .resume _ => [.bill, .srv, .jobs, .pages]
  | .reinstate _ => [.bill, .srv, .jobs, .pages]
  | .pulseStart _ => [.dict, .olds, .pulse]
  | .pulseEnd _ => [.pulse]
  | .channelCheck _ => [.dict, .acq, .ring5]
  | .channelExtraCheck _ _ => [.dict, .due, .acq, .ring5]
  | .voltageCheck _ _ => [.dict, .acq, .ring5]
  | .modulatorInstability _ => [.aln]
  | .portWatchdog _ _ => [.dict, .chg, .due, .olds, .img, .srv, .t1s, .plc, .tb, .ring5, .pins, .units]
  | .routeRetire _ => [.dict, .chg, .plc, .ring5]
  | .spiPut _ => [.dict, .olds, .srv, .spi, .ring5, .units]
  | .spiTake _ => [.srv, .spi]
  | .spiStatus => [.spi]
  | .spiClear _ => [.spi]
  | .spiReservedCommand _ => [.spi]
  | .csCollision => [.dict, .spi]
  | .legacyRead _ _ => [.dict, .chg, .spi]
  | .legacyWriteEvents _ => [.spi]
  | .legacyWriteEventMask _ => [.dict, .spi]
  | .legacyWriteIgnored _ _ => [.dict, .spi]
  | .t1sDatagramReceive _ => [.dict, .chg, .srv]
  | .neighbourSolicitation _ _ _ => [.t1s]
  | .echoRequest _ => [.t1s]
  | .duplicateAddressDetection _ _ => [.dict, .chg]
  | .bridleNetworkFrame _ => [.dict, .chg, .img, .srv, .pins]
  | .t1sPowerDown => [.dict, .chg, .img, .srv, .t1s, .pins]
  | .endSession _ => [.dict, .chg, .img, .srv, .pins]
  | .plcFrameReceive _ => [.dict, .chg, .srv, .plc, .ring5]
  | .plcJoin _ => [.dict, .chg, .plc, .ring5, .draws]
  | .joinRetry => [.dict, .chg, .plc]
  | .plcTxComplete _ _ => [.dict, .chg, .srv, .plc, .ring5]
  | .routeWaitExpiry => [.dict, .chg, .plc]
  | .toneMapRefresh _ => [.dict, .chg, .plc]
  | .announceSend => [.plc]
  | .announceAbandon => [.plc]
  | .announcementReceive _ => [.dict, .chg, .olds, .plc, .tb, .dev, .ring5]
  | .tbHoldoverExpiry => [.dict, .due, .tb, .ring5]
  | .cycleMap _ => [.srv]
  | .repeaterOfferChange => [.dict, .chg, .plc, .ring5]
  | .routeHoldExpiry => [.plc]
  | .strangerBlock _ => [.dict, .chg, .plc, .ring5]
  | .strangerForced => [.dict, .chg, .plc]
  | .pageStoreComplete _ => [.dict, .commits, .chg, .olds, .bill, .img, .srv, .ring5, .jobs, .rollq, .pages, .seals, .units]
  | .rollPosition => [.dict, .chg, .due, .bill, .pwr, .ring5, .jobs, .rollq]
  | .bgStore => [.dict, .bill, .pwr, .jobs]
  | .tackroomOpComplete _ => [.dict, .chg, .cap, .bill, .img, .tk, .srv, .ring5, .units, .draws]
  | .eventLogWrite => [.dict, .tk, .spi, .ring5]
  | .scrub _ _ => [.dict, .bill, .tk, .ring5, .jobs, .units]
  | .backup => [.tk]
  | .backupNow _ => [.tk, .srv]
  | .pageRead _ => [.srv]
  | .pageWrite _ => [.dict, .bill, .srv, .ring5, .jobs, .pages]
  | .restore _ => [.bill, .srv, .jobs, .pages]
  | .twinWrite _ => [.bill, .srv, .jobs, .pages]
  | .resolve _ => [.bill, .srv, .jobs, .pages]
  | .hjWrite _ => [.pwr, .srv]
  | .hjRead _ => [.srv]
  | .tkRead _ => [.srv]
  | .eventRead _ => [.srv]
  | .keyCommand _ => [.dict, .srv, .ring5]
  | .updateOpen _ => [.dict, .chg, .img, .tk, .srv, .ring5]
  | .writeBlock _ => [.dict, .img, .tk, .srv, .ring5]
  | .verify _ => [.dict, .chg, .img, .tk, .srv, .ring5]
  | .activate _ => [.fn, .mode, .dict, .commits, .times, .chg, .due, .olds, .gens, .acq, .aln, .tan, .cap, .bill, .pulse, .img, .tk,
    .pwr, .srv, .spi, .t1s, .plc, .tb, .dev, .ready, .ring5, .staging, .sealed, .current, .previous, .pins, .jobs, .rollq, .pages,
    .seals, .units]
  | .abort _ => [.dict, .commits, .chg, .img, .srv]
  | .leaseExpiry => [.dict, .chg, .img, .ring5]
  | .handoverPrepared _ => [.dict, .commits, .chg, .img, .ring5]
  | .handoverQuiesce => [.img]
  | .handoverAtB => [.dict, .chg, .img, .srv, .t1s, .plc, .ready, .pins, .jobs]
  | .handoverBankSwitch => [.dict, .due, .img]
  | .imageRevert => [.dict, .chg, .due, .img, .srv, .t1s, .plc, .ready, .ring5, .pins, .jobs]
  | .operationalCoreReady => [.dict, .cap, .tk, .pwr, .spi, .ready]
  | .powerGood _ => [.fn, .mode, .dict, .commits, .times, .chg, .due, .olds, .gens, .acq, .aln, .bill, .img, .tk, .pwr, .spi, .t1s,
    .plc, .tb, .dev, .ring5, .pages, .seals, .units]
  | .holdOk _ => [.dict, .olds, .ring5]
  | .holdFault _ => [.dict, .olds, .ring5]
  | .billingResume => [.dict, .due, .olds, .bill, .tk, .pwr, .ring5, .jobs, .rollq, .pages, .seals, .units]
  | .warmReset _ _ => [.fn, .mode, .dict, .commits, .times, .chg, .due, .olds, .gens, .acq, .aln, .tan, .cap, .bill, .pulse, .img,
    .tk, .pwr, .srv, .spi, .t1s, .plc, .tb, .dev, .ready, .ring5, .staging, .sealed, .current, .previous, .pins, .jobs, .rollq,
    .pages, .seals, .units]
  | .powerFailWarning _ _ _ => [.mode, .dict, .chg, .due, .olds, .acq, .aln, .tan, .cap, .bill, .pulse, .img, .tk, .pwr, .srv, .spi,
    .t1s, .plc, .tb, .dev, .ready, .ring5, .staging, .sealed, .current, .previous, .pins, .jobs, .rollq, .pages, .seals, .units,
    .draws]
  | .lastGaspComplete _ _ => [.mode, .dict, .olds, .pwr]
  | .vbatMeasure _ _ _ _ => [.dict, .chg, .olds, .pwr, .ring5]
  | .vbatCollapse => [.dict, .olds]
  | .tamperSample _ _ => [.dict, .olds, .pwr, .ring5]
  | .geckoScan _ => [.mode, .dict, .chg, .due, .olds, .acq, .pwr, .ring5, .pages, .seals]
  | .geckoLimitExpiry => [.mode, .dict, .pwr]
  | .rtcCountAdvance => [.dev]
  | .pfwNRelease => [.spi]

/-! ### Operations of requests -/

/-- The object server is about to execute operation `o` of the request `t` in slot `i`: the server runs, and the request's transaction,
if it names one, is open (R255, R267, R269). -/
structure Serves (s : State) (i : Nat) (t : Tag) (o : Op) : Prop where
  runs : serverRuns s = true
  mode : s.mode ≠ .recovery
  tag  : getTag s i = some t
  next : nextOp t = some o
  txn  : t.txn = 0 ∨ findTxn s t.txn t.port t.sess ≠ none

/-- The request in slot `i` was `t`; operation `o` of it has been answered with a status and data. -/
def Replies (u : State) (i : Nat) (t : Tag) (o : Op) (st : Nat) (data : Bytes) : Prop :=
  ∃ t', getTag u i = some t' ∧ t'.res = t.res ++ [⟨o.code, o.idx, o.sub, st, data⟩]

/-- The slot, the objects and the argument lengths of a command that is the EXEC of a method (Table 9.12 and the chapters of the methods). -/
def methodCall : Instr → Option (Fin 48 × List Nat × (Nat → Bool))
  | .eventRead i => some (i, [K.eventRead], fun n => decide (n = 5))
  | .tkRead i => some (i, [K.tkRead], fun n => decide (n = 6))
  | .updateOpen i => some (i, [K.updateOpen], fun n => decide (n = 37))
  | .writeBlock i => some (i, [K.writeBlock], fun n => decide (5 ≤ n ∧ n ≤ 4100))
  | .verify i => some (i, [K.verify], fun n => decide (n = 0))
  | .abort i => some (i, [K.abort], fun n => decide (n = 0))
  | .keyCommand i => some (i, [K.keyCommand], fun n => decide (n = 3780))
  | .timeSet i => some (i, [K.timeTimeSet], fun n => decide (n = 12))
  | .captureNow i => some (i, [K.capCaptureNow], fun n => decide (n = 0))
  | .closeNow i => some (i, ((List.range 4).map K.bpCloseNow), fun n => decide (n = 1))
  | .cycleMap i => some (i, [K.tbCycleMap], fun n => decide (n = 6))
  | .endSession i => some (i, [K.sesEndSession], fun n => decide (n = 1))
  | .reinstate i => some (i, [K.reinstate], fun n => decide (n = 3))
  | .resume i => some (i, [K.resume], fun n => decide (n = 8))
  | .backupNow i => some (i, [K.backupNow], fun n => decide (n = 0))
  | .restore i => some (i, [K.restore], fun n => decide (n = 5))
  | .pageRead i => some (i, [K.pageRead], fun n => decide (n = 2))
  | .pageWrite i => some (i, [K.pageWrite], fun n => decide (n = 258))
  | .hjWrite i => some (i, [K.hjWrite], fun n => decide (3 ≤ n ∧ n ≤ 4002))
  | .hjRead i => some (i, [K.hjRead], fun n => decide (n = 4))
  | .activate i => some (i, [K.activate], fun n => decide (n = 6))
  | .twinWrite i => some (i, [K.twinWrite], fun n => decide (2 ≤ n ∧ n ≤ 249))
  | .resolve i => some (i, [K.resolve], fun n => decide (n = 3))
  | _ => none

/-- The request `t` in slot `i` executes the method of command `c` next: it passes the checks of R246, and no legal twin record in CONFLICT or LOST
stands in the way (R349). -/
structure Calls (s : State) (c : Instr) (i : Fin 48) (t : Tag) (o : Op) : Prop where
  serves : Serves s i.val t o
  code   : o.code = 0x40
  method : ∃ ks len, methodCall c = some (i, ks, len) ∧ o.key ∈ ks ∧ checkExec (roleOf s t) o.key o.data len = 0
  free   : legalMethod o.key = true → legalLocked s = false

/-- The page of the record of a commit or method: for an activation the copy of its legal record that the next store goes to (R349, R380).
(DESIGN CHOICE, log 10) -/
def recordPage (s : State) (eff : Eff) : Nat :=
  match eff with
  | .activate _ => legalCopy (Config.pageWithin 1 % 8) (legalTarget s (Config.pageWithin 1 % 8)).1
  | _ => 936 + Config.pageWithin 0 % 48

/-- A commit or method has been posted between `s` and `t` for the request `q` in slot `i` (R34, R253, R432): one store for each page of its P
objects, the commit record last, whose sealing acknowledges it; the server takes up no second one, no object changes yet, and the
request waits. -/
structure Posted (s t : State) (i txn nb : Nat) (q : Tag) (eff : Eff) (vals : List (Nat × Nat)) : Prop where
  busy    : t.srv.busy = true
  objects : ∀ k, t.get k = s.get k
  commits : t.commits = s.commits
  stores  : t.jobs.map (fun j => j.page) = s.jobs.map (fun j => j.page) ++ storePages vals ++ [recordPage s eff]
  record  : ∃ j, t.jobs.getLast? = some j ∧ j.ack = .commit i txn nb (portNo q.port) (roleOf s q) eff vals
  waits   : ∃ q', getTag t i = some q' ∧ q'.wait = true ∧ q'.res = q.res

end Sys2Proof.Machine
end

