-- ==== Sys2Proof/Certificates/Slice0/Obligations.lean ====
section
/-! DEFINITION. The statements about the model: what the block is, what its commands do and where they complete, and what they leave
alone. -/

open Sys2Proof Sys2Proof.Machine

/-! ### The block -/

/-- A step takes the command at the front of the queue and lets it act on the machine with the rest of the queue.  On an empty queue the
block idles, which is the model's choice (log 1). -/
def Obligations.StepRunsFront : Prop :=
  (∀ (c : Instr) (q : List Instr) (s : State), s.pending = c :: q → step s = exec c { s with pending := q }) ∧
  (∀ s : State, s.pending = [] → step s = .next s)

/-- No command of the block stops: from every state, sound or not, each of the 135 commands answers a next state (none faults, none is
refused). -/
def Obligations.EveryCommandCompletes : Prop :=
  ∀ (c : Instr) (s : State), ∃ t, exec c s = .next t

/-- The state right after reset has the form that every step keeps: canonical object dictionary, pages and page frames, rings within
their depths, no more than 16 sample periods. -/
def Obligations.ResetSound : Prop := Sound State.reset

/-- Every step keeps that form (R10, R14, R245). -/
def Obligations.StepKeepsSound : Prop :=
  ∀ s t : State, Sound s → step s = .next t → Sound t

/-- The frame of every command: nothing but the pieces of the state listed for it in `writes` changes.  So, among others, no command touches
the queue; only the store engine, the scrub and a start change page frames; a READ changes nothing but the object server; no measuring
command reaches the image slots, the Tackroom or the sessions. -/
def Obligations.CommandsChangeOnlyTheirPieces : Prop :=
  ∀ (c : Instr) (s t : State), exec c s = .next t → Frame (writes c) s t

/-- FN moves by one at a metrology tick, and else only at a start (R5, R11).  The mode changes only where the supply, RESET_N, the watchdog, Gecko
or an activation in ROM recovery changes it.  The commands that wait survive every command unchanged, and the count of free values
never falls. -/
def Obligations.WhatMovesFnAndMode : Prop :=
  (∀ (en : Bool) (s : State), Sound s → s.mode = .run ∨ s.mode = .recovery →
    ∃ t, exec (.frameTick en) s = .next t ∧ t.fn = (s.fn + 1) % 2 ^ 48 ∧ t.mode = s.mode ∧ t.pending = s.pending ∧
      Frame (writes (.frameTick en)) s t) ∧
  (∀ (en : Bool) (s : State), s.mode ≠ .run → s.mode ≠ .recovery → exec (.frameTick en) s = .next s) ∧
  (∀ (c : Instr) (s t : State), exec c s = .next t → t.pending = s.pending ∧
    (t.fn = s.fn ∨ (∃ en, c = .frameTick en) ∨ (∃ p, c = .powerGood p) ∨ (∃ w r, c = .warmReset w r) ∨ (∃ i, c = .activate i)) ∧
    (t.mode = s.mode ∨ (∃ p, c = .powerGood p) ∨ (∃ w r, c = .warmReset w r) ∨ (∃ i, c = .activate i) ∨
     (∃ us a b, c = .powerFailWarning us a b) ∨ (∃ n p, c = .lastGaspComplete n p) ∨ (∃ d, c = .geckoScan d) ∨ c = .geckoLimitExpiry)) ∧
  (∀ (c : Instr) (s t : State), Sound s → exec c s = .next t → s.draws ≤ t.draws)

/-- A factory-fresh unit: every object holds its default (R245), time is INVALID and TIME48 reads 0xFFFF_FFFF_FFFF (R260).  The frame number
0, the mode and the empty memories are the model's choice (log 2). -/
def Obligations.ResetValues : Prop :=
  (∀ k, State.reset.get k = oDefault k) ∧ State.reset.get K.timeTime48 = 0xFFFFFFFFFFFF ∧ State.reset.timeValid = false ∧
  State.reset.fn = 0 ∧ State.reset.mode = .off ∧ State.reset.pending = [] ∧ State.reset.ring5 = [] ∧ State.reset.jobs = []

/-! ### Numbers, frames and tables -/

/-- Numbers on the wire: a multi-byte field holds its number least significant byte first (R4, R240); a signed value within its width is read
back from its two's complement, which fits (R240, R241); and rounding half away from zero lies within one half of the quotient, mirrors signs
and takes halves away from zero. -/
def Obligations.NumbersOnTheWire : Prop :=
  (∀ k n, (le k n).length = k ∧ ofLe (le k n) = n % 256 ^ k) ∧
  (∀ (k n i : Nat), i < k → (le k n)[i]? = some (BitVec.ofNat 8 (n / 256 ^ i))) ∧
  (∀ b : Bytes, le b.length (ofLe b) = b ∧ ofLe b < 256 ^ b.length) ∧
  (∀ (w : Nat) (x : Int), 0 < w → -(2 ^ (w - 1) : Int) ≤ x → x < 2 ^ (w - 1) → toInt w (ofInt w x) = x ∧ ofInt w x < 2 ^ w) ∧
  (∀ n d : Int, 0 < d → rdiv (-n) d = -rdiv n d ∧ (0 ≤ n → 2 * n - d < 2 * d * rdiv n d ∧ 2 * d * rdiv n d ≤ 2 * n + d))

/-- Frames and operations on the wire.  A frame header survives its 16 bytes (Table 10.1, R265): every field at every value that its bytes
carry.  The operations of a request - OPCODE, INDEX, SUBINDEX, two bytes 0, LENGTH, and the data (Table 10.2) - are read back from their bytes, and a
payload that they do not exactly fill is no request (R266, R267). -/
def Obligations.FramesRoundTrip : Prop :=
  (∀ (h : Hdr) (pay : Bytes), h.ver < 256 → h.kind < 256 → h.tag < 256 → h.st < 256 → h.len < 65536 → h.txn < 65536 → h.fn < 2 ^ 48 →
    h.cred < 256 → h.flags < 256 → (hdrBytes h).length = 16 ∧ hdrOf (hdrBytes h ++ pay) = h) ∧
  (∀ l : List Op, (∀ o ∈ l, o.code < 256 ∧ o.idx < 65536 ∧ o.sub < 256 ∧ o.data.length < 65536) →
    opsOf (l.flatMap (fun o => le 1 o.code ++ le 2 o.idx ++ le 1 o.sub ++ le 2 0 ++ le 2 o.data.length ++ o.data)) = some l) ∧
  (∀ (o : Op) (cut : Nat), o.code < 256 → o.idx < 65536 → o.sub < 256 → o.data.length < 65536 → 0 < cut → cut < 8 + o.data.length →
    opsOf ((le 1 o.code ++ le 2 o.idx ++ le 1 o.sub ++ le 2 0 ++ le 2 o.data.length ++ o.data).take cut) = none)

/-- The object dictionary: two canonical tables that read alike at every number are the same list, and writing keeps a table canonical.  An object that
takes a value reads as that value and every other object as before; one put back to its default is no longer listed, so that the
dictionary stays canonical (R245). -/
def Obligations.ObjectsReadAsWritten : Prop :=
  (∀ (d : Nat) (t u : Tab Nat), Tab.wf d t = true → Tab.wf d u = true → (∀ k, tget d t k = tget d u k) → t = u) ∧
  (∀ (d : Nat) (t : Tab Nat) (k a : Nat), Tab.wf d t = true →
    Tab.wf d (tset d t k a) = true ∧ tget d (tset d t k a) k = a ∧ ∀ j, j ≠ k → tget d (tset d t k a) j = tget d t j) ∧
  (∀ (s : State) (k v : Nat), Sound s →
    (s.put k v).get k = v ∧ (∀ j, j ≠ k → (s.put k v).get j = s.get j) ∧ Sound (s.put k v) ∧ (s.put k (oDefault k)).get k = oDefault k ∧
    ((s.put k v).put k (s.get k)).dict = s.dict)

/-- A setting committed for frame B governs all data of frame B and later, whatever stage processes it (R35): after a last commit of
value `new` at B, frames from B on see `new`, and frames before B what governed them before. -/
def Obligations.SettingGovernsFromB : Prop :=
  ∀ (k b old new : Nat) (l : List Commit) (c : Commit), c.b = b → Chg.before k c.chg = some old → (∀ x ∈ l, x.b ≤ b) →
    (∀ f, b ≤ f → cfgGo k f new (l ++ [c]) = new) ∧ (∀ f, f < b → cfgGo k f new (l ++ [c]) = cfgGo k f old l)

/-- A record of RING-5 (R15, R354): with credit it enters at the end with its frame and that frame's TIME48, and nothing else changes; without
credit it is dropped and counted, and the ring stays as it was. -/
def Obligations.EventsEnterRing5 : Prop :=
  ∀ (s : State) (f code : Nat) (l : List Nat),
    (s.ring5.length < 1024 → s.eventAt f code l = { s with ring5 := s.ring5 ++ [{ code := code, fields := l, fn := f, time := s.timeOf f }] }) ∧
    (1024 ≤ s.ring5.length → (s.eventAt f code l).ring5 = s.ring5 ∧ Frame [.dict] s (s.eventAt f code l) ∧
      (s.eventAt f code l).get (K.stalls 5) = (s.get (K.stalls 5) + 1) % 2 ^ oBits (K.stalls 5) ∧
      (s.eventAt f code l).get K.eventsLost = (s.get K.eventsLost + 1) % 2 ^ oBits K.eventsLost ∧
      ∀ k, k ≠ K.stalls 5 → k ≠ K.eventsLost → (s.eventAt f code l).get k = s.get k)


/-! ### SPI and the legacy window -/

/-- STATUS answers its eight bytes (R280); a transaction with a reserved command code is ignored (R277); both chip selects low together are
ignored and counted (R276).  CLEAR (R281): a latched cause goes when its bit of the mask is 1, unless its event recurred in this very frame; every
other bit of CAUSES stays, COMPLETION and NOTIFICATION among them.  Nothing else changes. -/
def Obligations.SpiStatusAndClear : Prop :=
  (∀ s : State, spiUp s = true →
    (exec .spiStatus s = .next { s with spi := { s.spi with out := statusBytes s } } ∧ (statusBytes s).length = 8) ∧
    (∀ cmd : Byte, cmd.toNat % 128 ∉ [1, 2, 3, 4] → exec (.spiReservedCommand cmd) s = .next { s with spi := { s.spi with out := [] } }) ∧
    (∃ t, exec .csCollision s = .next t ∧ t.get K.spiCsCollisions = (s.get K.spiCsCollisions + 1) % 2 ^ oBits K.spiCsCollisions ∧
      t.spi = { s.spi with out := [] } ∧ (∀ k, k ≠ K.spiCsCollisions → t.get k = s.get k) ∧ Frame [.dict, .spi] s t)) ∧
  (∀ (mask : BitVec 16) (s : State), spiUp s = true →
    ∃ t, exec (.spiClear mask) s = .next t ∧
      (∀ b, bit t.spi.causes b = (bit s.spi.causes b &&
        !(decide (2 ≤ b ∧ b ≤ 10) && bit mask.toNat b && !s.spi.again.any (fun e => decide (e.1 = b) && decide (e.2 = s.fn))))) ∧
      t = { s with spi := { s.spi with causes := t.spi.causes, out := [] } })

/-- PUT (R278, R280): a frame whose length and CRC-32 are right enters RING-9 at its end when there is room; one with a wrong CRC enters
nothing, is counted and raises its cause; one that finds no room is refused, with its cause, and so is every one while READY is 0. -/
def Obligations.SpiPutChecksFrames : Prop :=
  (∀ (bytes : Bytes) (s : State), spiUp s = true → s.ready = false → serverRuns s = false →
    ∃ t, exec (.spiPut bytes) s = .next t ∧ Frame (writes (.spiPut bytes)) s t ∧ t.srv = s.srv ∧ bit t.spi.causes 3 = true ∧
      t.get K.spiPutRefused = (s.get K.spiPutRefused + 1) % 2 ^ oBits K.spiPutRefused) ∧
  ∀ (bytes : Bytes) (s : State), s.mode = .run → s.ready = true →
    ∃ t, exec (.spiPut bytes) s = .next t ∧ Frame (writes (.spiPut bytes)) s t ∧ t.spi.out = [] ∧
      (bytes.length = 20 + at_ bytes 4 2 → crc32 (bytes.take (16 + at_ bytes 4 2)) = at_ bytes (16 + at_ bytes 4 2) 4 →
        (ringUsed s 9 + creditUnits .spi (at_ bytes 4 2) ≤ 1024 →
          ∃ r, t.srv = { s.srv with inq := s.srv.inq ++ [r], ord := s.srv.ord + 1 } ∧ r.port = .spi ∧
            r.bytes = bytes.take (16 + at_ bytes 4 2) ∧ r.fn = s.fn ∧ t.spi = { s.spi with out := [] }) ∧
        (1024 < ringUsed s 9 + creditUnits .spi (at_ bytes 4 2) → t.srv = s.srv ∧ bit t.spi.causes 3 = true ∧
          t.get K.spiPutRefused = (s.get K.spiPutRefused + 1) % 2 ^ oBits K.spiPutRefused)) ∧
      (bytes.length ≠ 20 + at_ bytes 4 2 ∨ crc32 (bytes.take (16 + at_ bytes 4 2)) ≠ at_ bytes (16 + at_ bytes 4 2) 4 →
        t.srv = s.srv ∧ bit t.spi.causes 2 = true ∧ t.get K.spiCrcErrors = (s.get K.spiCrcErrors + 1) % 2 ^ oBits K.spiCrcErrors)

/-- TAKE (R279): LEN is 0 when nothing waits; the oldest frame is handed out, completions before notifications, and leaves its ring only
when its last byte has been clocked out. -/
def Obligations.SpiTakeHandsOut : Prop :=
  ∀ (n : Nat) (s : State), spiUp s = true → serverRuns s = true →
    ∃ t, exec (.spiTake n) s = .next t ∧ Frame [.srv, .spi] s t ∧
      (nextOut s .spi = none → t = { s with spi := { s.spi with out := (le 2 0).take n } }) ∧
      (∀ f done, nextOut s .spi = some (f, done) →
        t.spi = { s.spi with out := (le 2 (spiFrame s f).length ++ spiFrame s f).take n } ∧
        (n < 2 + (spiFrame s f).length → t.srv = s.srv) ∧
        (2 + (spiFrame s f).length ≤ n →
          (done = true → t.srv.ring12 = s.srv.ring12.erase f ∧ t.srv.ring13 = s.srv.ring13) ∧
          (done = false → t.srv = { s.srv with ring13 := s.srv.ring13.erase f })))

/-- The legacy window.  Reads (R286): until READY every word reads 0; a single-word read of a high word latches the low word of the pair, and a
single-word read of that low word within 1,024 frames returns the latched word; each read is counted.  Writes (R287): only EVENTS and EVENT_MASK are
writable.  The bits that are 1 in the word leave EVENTS, EVENT_MASK takes bits 8:0, and any other word is ignored and counted. -/
def Obligations.LegacyWindow : Prop :=
  (∀ (a : BitVec 11) (n : Fin 16) (s : State), spiUp s = true →
    ∃ t, exec (.legacyRead a n) s = .next t ∧ Frame [.dict, .chg, .spi] s t ∧
      t.live K.spiLegacyReads = (s.live K.spiLegacyReads + 1) % 2 ^ oBits K.spiLegacyReads ∧
      (s.ready = false → t.spi.out = List.replicate (3 * (n.val + 1)) 0) ∧
      (n = 0 → isHigh s a.toNat = true → t.spi.latch = some (a.toNat + 1, legacyAt s (a.toNat + 1), s.fn)) ∧
      (∀ w f, n = 0 → s.ready = true → s.spi.latch = some (a.toNat, w, f) → s.fn ≤ f + 1024 → t.spi.out = (le 3 w).reverse)) ∧
  (∀ (w : BitVec 24) (s : State), s.mode = .run →
    (∃ t, exec (.legacyWriteEvents w) s = .next t ∧ (∀ b, b < 9 → bit t.spi.events b = (bit s.spi.events b && !bit w.toNat b)) ∧
      t = { s with spi := { s.spi with events := t.spi.events, out := [] } }) ∧
    (∃ t, exec (.legacyWriteEventMask w) s = .next t ∧ t.get K.spiLegacyEventMask = w.toNat % 512 ∧
      t.spi = { s.spi with out := [] } ∧ (∀ k, k ≠ K.spiLegacyEventMask → t.get k = s.get k) ∧ Frame [.dict, .spi] s t) ∧
    (∀ a : BitVec 11, a.toNat ≠ 10 → a.toNat ≠ 11 →
      ∃ t, exec (.legacyWriteIgnored a w) s = .next t ∧
        t.get K.spiLegacyWritesIgnored = (s.get K.spiLegacyWritesIgnored + 1) % 2 ^ oBits K.spiLegacyWritesIgnored ∧
        t.spi = { s.spi with out := [] } ∧ (∀ k, k ≠ K.spiLegacyWritesIgnored → t.get k = s.get k) ∧ Frame [.dict, .spi] s t))


/-! ### Requests, responses and transactions -/

/-- A request frame that stands first in the request rings leaves its ring when it is parsed (R266).  When it spells operations, with a tag
that is free, of version 2, without continuation, transaction or FN, it takes a free tag slot and its operations, in order, become the
operations of the slot's request (R24, R267). -/
def Obligations.RequestsAreParsed : Prop :=
  ∀ (p : Port) (r : ReqFrame) (l : List ReqFrame) (s : State), serverRuns s = true → s.srv.inq = r :: l → r.port = p →
    ∃ t, exec (.requestParse p) s = .next t ∧ t.srv.inq = l ∧ Frame (writes (.requestParse p)) s t ∧
      (∀ (ops : List Op) (i : Nat), (hdrOf r.bytes).kind = 0 → (hdrOf r.bytes).ver = 2 → (hdrOf r.bytes).flags = 0 → (hdrOf r.bytes).txn = 0 →
        (hdrOf r.bytes).fn = 0 → (hdrOf r.bytes).tag ≤ 47 → tagBusy s r (hdrOf r.bytes).tag = false → (r.bytes.drop 16).length ≤ frameMax p →
        opsOf (r.bytes.drop 16) = some ops → (∀ o ∈ ops, o.code ≠ 0x60) → freeSlot s p = some i → i < 48 →
        ∃ q, getTag t i = some q ∧ q.tag = (hdrOf r.bytes).tag ∧ q.ops = ops ∧ q.res = [] ∧ q.full = true ∧ q.port = p ∧ q.sess = r.sess)

/-- A frame of a KIND other than a request is discarded and counted; a request whose tag is out of range, or that of an outstanding request,
is refused with RANGE in the refusal reserve of its port when that has room (R266, R274). -/
def Obligations.RequestsAreRefused : Prop :=
  ∀ (p : Port) (r : ReqFrame) (l : List ReqFrame) (s : State), serverRuns s = true → s.srv.inq = r :: l → r.port = p →
    ∃ t, exec (.requestParse p) s = .next t ∧
      ((hdrOf r.bytes).kind ≠ 0 → t.srv.ring12 = s.srv.ring12 ∧ t.live (rxDiscarded p) = (s.live (rxDiscarded p) + 1) % 2 ^ oBits (rxDiscarded p) ∧
        ∀ k, k ≠ liveKey (rxDiscarded p) → t.get k = s.get k) ∧
      ((hdrOf r.bytes).kind = 0 → (hdrOf r.bytes).ver = 2 → (hdrOf r.bytes).flags = 0 →
        (47 < (hdrOf r.bytes).tag ∧ (hdrOf r.bytes).tag ≠ 0xFF) ∨ ((hdrOf r.bytes).tag ≤ 47 ∧ tagBusy s r (hdrOf r.bytes).tag = true) →
        shareUsed s p true + creditUnits p 0 ≤ 16 →
        ∃ f, t.srv.ring12 = s.srv.ring12 ++ [f] ∧ f.port = p ∧ f.tag = (hdrOf r.bytes).tag ∧ f.st = 0x32 ∧ f.data = [] ∧ f.ref = true)

/-- A request held by its FN starts at the tick of that frame (R268), on the snapshot that is CURRENT then (R30); a request message whose
next frame has not come for more than 1,024 frames completes CANCELLED, without operations (R271). -/
def Obligations.DeferredAndBrokenRequests : Prop :=
  (∀ (i : Fin 48) (q : Tag) (s : State), mayStart s = true → getTag s i.val = some q → nextStart s = some (i.val, q) → q.txn = 0 → q.ops ≠ [] →
    q.fnf ≠ 0 → q.fnf ≤ s.fn →
    ∃ t q', exec (.requestStartDeferred i) s = .next t ∧ Frame [.srv] s t ∧ getTag t i.val = some q' ∧ q'.begun = true ∧ q'.snap = s.current ∧
      q'.ops = q.ops ∧ q'.res = q.res) ∧
  (∀ (i : Fin 48) (q : Tag) (s : State), getTag s i.val = some q → q.full = false → q.fin = none → q.fn + 1024 < s.fn →
    ∃ t q', exec (.continuationTimeout i) s = .next t ∧ Frame [.srv] s t ∧ getTag t i.val = some q' ∧ q'.fst = 0x12 ∧ q'.left = some [] ∧
      q'.fin = some s.fn ∧ t.srv.done = s.srv.done ++ [i.val] ∧ (∀ j, j ≠ i.val → getTag t j = getTag s j)) ∧
  (∀ (i : Fin 48) (q : Tag) (s : State), getTag s i.val = some q → s.fn ≤ q.fn + 1024 → exec (.continuationTimeout i) s = .next s)

/-- The response that completed first enters its port's share of RING-12 once it fits (R275): a response of one frame enters whole, in order,
and its slot leaves the completions; without room it stays and waits, and the wait is counted once. -/
def Obligations.ResponsesEnterRing12 : Prop :=
  ∀ (p : Port) (i : Nat) (q : Tag) (b : Bytes) (s : State), serverRuns s = true →
    s.srv.done.find? (fun j => match getTag s j with | some t => decide (t.port = p) | none => true) = some i → getTag s i = some q →
    orphan s q = false → q.left = some b → b.length ≤ frameMax q.port → b ≠ [] →
    ∃ t, exec (.responseEnqueue p) s = .next t ∧ Frame [.dict, .srv] s t ∧
      (shareUsed s q.port false + creditUnits q.port b.length ≤ shareOf q.port - 16 →
        (∃ f, t.srv.ring12 = s.srv.ring12 ++ [f] ∧ f.data = b ∧ f.tag = q.tag ∧ f.st = q.fst ∧ f.port = q.port ∧ f.slot = some i) ∧
        t.srv.done = s.srv.done.erase i ∧ ∀ k, t.get k = s.get k) ∧
      (shareOf q.port - 16 < shareUsed s q.port false + creditUnits q.port b.length → t.srv.ring12 = s.srv.ring12 ∧ t.srv.done = s.srv.done ∧
        t.get (K.stalls 12) = (if q.stall then s.get (K.stalls 12) else (s.get (K.stalls 12) + 1) % 2 ^ oBits (K.stalls 12)))

/-- READ (R30, R247): without data it answers the value that `readObj` finds and changes nothing but the request; with data it answers BAD-TYPE.
A published object is served from the request's snapshot, a configuration object outside a transaction as last committed; an object the
role may not read is answered DENIED, an undefined one NO-OBJECT, a method BAD-TYPE. -/
def Obligations.ReadAnswers : Prop :=
  ∀ (i : Fin 48) (q : Tag) (o : Op) (s : State), Serves s i.val q o → o.code = 0x10 →
    ∃ t, exec (.read i) s = .next t ∧ Frame [.srv] s t ∧ (∀ k, t.get k = s.get k) ∧
      (o.data ≠ [] → Replies t i.val q o 0x31 []) ∧
      (o.data = [] →
        (rowOf o.key = none → Replies t i.val q o 0x30 []) ∧
        (∀ r, rowOf o.key = some r → r.ty = .method → Replies t i.val q o 0x31 []) ∧
        (∀ r, rowOf o.key = some r → r.ty ≠ .method → roleOf s q < r.rd → Replies t i.val q o 0x20 []) ∧
        (∀ r p, rowOf o.key = some r → r.ty ≠ .method → r.rd ≤ roleOf s q → isPublished r = true → q.snap = some p →
          Replies t i.val q o 0 (valBytes r.ty (snapVal p o.key))) ∧
        (∀ r, rowOf o.key = some r → r.ty ≠ .method → r.rd ≤ roleOf s q → isPublished r = false → findTxn s q.txn q.port q.sess = none →
          Replies t i.val q o 0 (valBytes r.ty (s.get o.key))))

/-- READ-SET (R31, R272): the entries of all listed objects, in order, each with the status and value that a READ of it would answer on the same
snapshot; a list of more than 2,048 objects, or more than 16,384 bytes of entries, is answered TOO-LARGE.  An operation with an opcode that no
table lists is answered BAD-TYPE (R267). -/
def Obligations.ReadSetAnswers : Prop :=
  (∀ (i : Fin 48) (q : Tag) (o : Op) (s : State), Serves s i.val q o → o.code = 0x11 →
    ∃ t, exec (.readSet i) s = .next t ∧ Frame [.srv] s t ∧
      (2 ≤ o.data.length → 2048 < at_ o.data 0 2 → Replies t i.val q o 0x60 []) ∧
      (2 ≤ o.data.length → at_ o.data 0 2 ≤ 2048 → o.data.length ≠ 2 + 3 * at_ o.data 0 2 → Replies t i.val q o 0x31 []) ∧
      (at_ o.data 0 2 ≤ 2048 → o.data.length = 2 + 3 * at_ o.data 0 2 →
        ∀ body, body = (listedKeys (o.data.drop 2) (at_ o.data 0 2)).flatMap
            (fun k => entryBytes (k / 256) (k % 256) (readObj s q k).1 (readObj s q k).2.1) →
          Replies t i.val q o (if 16384 < body.length then 0x60 else 0) (if 16384 < body.length then [] else body))) ∧
  (∀ (i : Fin 48) (q : Tag) (o : Op) (s : State), Serves s i.val q o →
    o.code ∉ [0x10, 0x11, 0x12, 0x20, 0x30, 0x31, 0x32, 0x40, 0x50, 0x51, 0x60] →
    ∃ t, exec (.unknownOpcode i) s = .next t ∧ Frame [.srv] s t ∧ Replies t i.val q o 0x31 [])

/-- WRITE (R248, R249, R251): a write that passes Table 9.6 to an object with T, in a read-write transaction with room, is answered OK and its value
joins what the transaction has staged, in place of an earlier one of that object, with no value changed; outside a transaction it is answered
NO-TRANSACTION, in a read-only one READ-ONLY.  One to a P object without T is stored as a transaction of that single write.  A write that
fails a check answers that check's status, and to an undefined object NO-OBJECT. -/
def Obligations.WritesAreStaged : Prop :=
  ∀ (i : Fin 48) (q : Tag) (o : Op) (s : State), Serves s i.val q o → o.code = 0x20 → o.key ≠ K.hostToken →
    ∃ t, exec (.write i) s = .next t ∧ Frame (writes (.write i)) s t ∧
      (rowOf o.key = none → Replies t i.val q o 0x30 []) ∧
      (∀ r, rowOf o.key = some r → (checkWrite s (roleOf s q) o.key o.data).1 ≠ 0 →
        Replies t i.val q o (checkWrite s (roleOf s q) o.key o.data).1 [] ∧ ∀ k, t.get k = s.get k) ∧
      (∀ r, rowOf o.key = some r → (checkWrite s (roleOf s q) o.key o.data).1 = 0 → r.has 0 = true →
        (∀ k, t.get k = s.get k) ∧ t.jobs = s.jobs ∧
        (findTxn s q.txn q.port q.sess = none → Replies t i.val q o 0x40 []) ∧
        (∀ x, findTxn s q.txn q.port q.sess = some x → x.rw = false → Replies t i.val q o 0x33 []) ∧
        (∀ x, findTxn s q.txn q.port q.sess = some x → x.rw = true →
          (∀ e ∈ x.stage, e.key = o.key → e.val = none) → x.used + 8 + o.data.length ≤ 16384 →
            Replies t i.val q o 0 [] ∧ ∃ y, findTxn t q.txn q.port q.sess = some y ∧ y.rw = true ∧
              y.stage = x.stage ++ [⟨o.key, some (checkWrite s (roleOf s q) o.key o.data).2, 8 + o.data.length⟩]) ∧
        (∀ x e, findTxn s q.txn q.port q.sess = some x → x.rw = true → e ∈ x.stage → e.key = o.key → e.val ≠ none →
          Replies t i.val q o 0 [] ∧ ∃ y, findTxn t q.txn q.port q.sess = some y ∧ y.rw = true ∧
            y.stage = x.stage.map (fun e => if e.key = o.key ∧ e.val ≠ none then
              ⟨o.key, some (checkWrite s (roleOf s q) o.key o.data).2, e.size⟩ else e)) ∧
        (∀ x, findTxn s q.txn q.port q.sess = some x → x.rw = true → (∀ e ∈ x.stage, e.key = o.key → e.val = none) →
          16384 < x.used + 8 + o.data.length → Replies t i.val q o 0x60 [] ∧ t.srv.txns.map (fun y => y.stage) = s.srv.txns.map (fun y => y.stage))) ∧
      (∀ r v, rowOf o.key = some r → checkWrite s (roleOf s q) o.key o.data = (0, v) → r.has 0 = false →
        (∀ x, findTxn s q.txn q.port q.sess = some x → x.rw = true) → mayCommit i.val s = true → stagesBad s [(o.key, v)] = none →
        wouldWait s 0 = false → Posted s t i.val 0 0 q .write [(o.key, v)])

/-- BEGIN (R32, R250): with fewer than four transactions open, a read-write one opens with the next ID and an empty staging of 16,384 bytes; a
read-only one pins CURRENT; a fifth transaction is answered TXN-FULL, and a third pinned frame BUSY. -/
def Obligations.BeginOpensTransactions : Prop :=
  ∀ (i : Fin 48) (q : Tag) (o : Op) (s : State), Serves s i.val q o → o.code = 0x30 → o.data.length = 1 →
    ∃ t, exec (.begin_ i) s = .next t ∧ Frame [.srv, .pins] s t ∧
      (at_ o.data 0 1 ≤ 1 → 4 ≤ s.srv.txns.length → Replies t i.val q o 0x42 []) ∧
      (at_ o.data 0 1 = 0 → s.srv.txns.length < 4 → s.current = none → Replies t i.val q o 0x10 []) ∧
      (∀ p, at_ o.data 0 1 = 0 → s.srv.txns.length < 4 → s.current = some p → (∀ e ∈ s.pins, e.1 ≠ p.fn) → 2 ≤ s.pins.length →
        Replies t i.val q o 0x10 [] ∧ t.pins = s.pins) ∧
      (at_ o.data 0 1 = 1 → s.srv.txns.length < 4 → Replies t i.val q o 0 (le 6 0 ++ le 4 (s.genOf s.fn) ++ le 2 16384) ∧ t.pins = s.pins ∧
        t.srv.txns.map (fun x => x.id) = s.srv.txns.map (fun x => x.id) ++ [nextTxnId s] ∧ t.srv.lastId = nextTxnId s) ∧
      (∀ p, at_ o.data 0 1 = 0 → s.srv.txns.length < 4 → s.current = some p → s.pins.length < 2 →
        Replies t i.val q o 0 (le 6 p.fn ++ le 4 p.gen ++ le 2 0) ∧ (∃ e ∈ t.pins, e.1 = p.fn) ∧
        t.srv.txns.map (fun x => x.id) = s.srv.txns.map (fun x => x.id) ++ [nextTxnId s])

/-- ROLLBACK (R255) ends its transaction with nothing committed and answers OK; a request without transaction is answered NO-TRANSACTION.  COMMIT
of a read-only transaction, or of one without staged writes, ends it with OK, B 0 and the generation, and stores nothing (R253).  A COMMIT that
fails a stage is answered with the status, object and stage of its failure and stores nothing (R254). -/
def Obligations.TransactionsEnd : Prop :=
  (∀ (i : Fin 48) (q : Tag) (o : Op) (s : State), Serves s i.val q o → o.code = 0x32 → o.data = [] →
    ∃ t, exec (.rollback i) s = .next t ∧ Frame [.srv, .pins] s t ∧ (q.txn = 0 → Replies t i.val q o 0x40 [] ∧ t.pins = s.pins) ∧
      (q.txn ≠ 0 → Replies t i.val q o 0 [] ∧
        t.srv.txns.map (fun x => x.id) = (s.srv.txns.map (fun x => x.id)).filter (fun n => decide (n ≠ q.txn)))) ∧
  (∀ (i : Fin 48) (q : Tag) (o : Op) (x : Txn) (s : State), Serves s i.val q o → o.code = 0x31 → o.data = [] → findTxn s q.txn q.port q.sess = some x →
    ∃ t, exec (.commit i) s = .next t ∧ Frame (writes (.commit i)) s t ∧
      (x.rw = false ∨ (x.ovr = none ∧ stagedVals x = []) →
        Replies t i.val q o 0 (le 6 0 ++ le 4 (match x.snap with | some p => p.gen | none => s.genOf s.fn)) ∧ t.jobs = s.jobs ∧ ∀ k, t.get k = s.get k) ∧
      (∀ f, x.rw = true → x.ovr = none → stagedVals x ≠ [] → mayCommit i.val s = true →
        commitFails s (roleOf s q) x (stagedVals x) q.fnf q.fn = some f →
        Replies t i.val q o f.st (failData f.key f.stage) ∧ t.jobs = s.jobs ∧ t.commits = s.commits))

/-- A COMMIT that passes every stage of Table 9.7 is stored (R253, R432): its transaction ends, the server takes up no second one, and one store for
each page of its P objects is posted, the commit record last; no object changes yet. -/
def Obligations.CommitPostsItsStores : Prop :=
  ∀ (i : Fin 48) (q : Tag) (o : Op) (x : Txn) (s : State), Serves s i.val q o → o.code = 0x31 → o.data = [] → findTxn s q.txn q.port q.sess = some x →
    x.rw = true → x.ovr = none → stagedVals x ≠ [] → mayCommit i.val s = true →
    commitFails s (roleOf s q) x (stagedVals x) q.fnf q.fn = none →
    ∃ t, exec (.commit i) s = .next t ∧ Frame (writes (.commit i)) s t ∧ Posted s t i.val x.id q.fnf q .write (stagedVals x) ∧
      t.srv.txns = s.srv.txns.filter (fun y => !decide (y.id = x.id))

/-- The tick limits of transactions: a read-only one is closed 2,048 frames after its BEGIN (R32), and a read-write one 30,720 frames after its
last request (R255); each is counted, and before that nothing happens. -/
def Obligations.TransactionsTimeOut : Prop :=
  ∀ (n : Nat) (x : Txn) (s : State), s.srv.txns.find? (fun x => decide (x.id = n)) = some x →
    (x.rw = false → x.fn + 2048 ≤ s.fn → ∃ t, exec (.pinExpiry n) s = .next t ∧ Frame [.dict, .srv, .pins] s t ∧
      t.srv = { s.srv with txns := s.srv.txns.filter (fun y => !decide (y.id = n)) } ∧
      t.get K.txnTimeouts = (s.get K.txnTimeouts + 1) % 2 ^ oBits K.txnTimeouts ∧ ∀ k, k ≠ K.txnTimeouts → t.get k = s.get k) ∧
    (x.rw = true → x.last + 30720 ≤ s.fn → ∃ t, exec (.txnTimeout n) s = .next t ∧ Frame [.dict, .srv, .pins] s t ∧
      t.srv = { s.srv with txns := s.srv.txns.filter (fun y => !decide (y.id = n)) } ∧
      t.get K.txnTimeouts = (s.get K.txnTimeouts + 1) % 2 ^ oBits K.txnTimeouts ∧ ∀ k, k ≠ K.txnTimeouts → t.get k = s.get k) ∧
    (s.fn < x.fn + 2048 → exec (.pinExpiry n) s = .next s) ∧ (s.fn < x.last + 30720 → exec (.txnTimeout n) s = .next s)

/-- SUBSCRIBE (R257) adds one subscription and answers its ID and the first frame it looks at; UNSUBSCRIBE (R256) removes the one named, or with
0xFF all of the session, and answers how many. -/
def Obligations.SubscriptionsComeAndGo : Prop :=
  (∀ (i : Fin 48) (q : Tag) (o : Op) (s : State), Serves s i.val q o → o.code = 0x50 → 16 ≤ o.data.length →
    o.data.length = 16 + 3 * at_ o.data 1 1 → at_ o.data 0 1 ≤ 3 → 1 ≤ at_ o.data 1 1 → at_ o.data 1 1 ≤ 16 →
    (at_ o.data 0 1 = 1 → at_ o.data 2 2 ≠ 0) → subRefused s q (at_ o.data 0 1) (listedKeys (o.data.drop 16) (at_ o.data 1 1)) = none →
    (s.srv.subs.filter (fun x => decide (x.port = q.port) && decide (x.sess = q.sess))).length < 8 → s.srv.subs.length < 64 →
    ∃ t x, exec (.subscribe i) s = .next t ∧ Frame [.srv] s t ∧ t.srv.subs = s.srv.subs ++ [x] ∧
      x.objs = listedKeys (o.data.drop 16) (at_ o.data 1 1) ∧ x.trig = at_ o.data 0 1 ∧ x.param = at_ o.data 2 2 ∧ x.port = q.port ∧ x.sess = q.sess ∧
      (∀ y ∈ s.srv.subs, y.id ≠ x.id) ∧ Replies t i.val q o 0 (le 1 x.id ++ le 6 x.from_)) ∧
  (∀ (i : Fin 48) (q : Tag) (o : Op) (s : State), Serves s i.val q o → o.code = 0x51 → o.data.length = 1 →
    ∃ t, exec (.unsubscribe i) s = .next t ∧ Frame [.srv] s t ∧
      (∀ x, x ∈ t.srv.subs ↔ x ∈ s.srv.subs ∧ ¬(x.port = q.port ∧ x.sess = q.sess ∧ (at_ o.data 0 1 = 0xFF ∨ x.id = at_ o.data 0 1))) ∧
      Replies t i.val q o 0 (le 1 (s.srv.subs.length - t.srv.subs.length)))


/-! ### Sessions and the networks -/

/-- A HELLO step 1 (R291) from a host without handshake opens one, with the role and host ID asked for and a device ID that is not 0, and answers
in RING-12 with that ID and the device nonce.  The device ID and the nonce are free values: the statement holds for every one (log 4). -/
def Obligations.HelloStep1OpensHandshake : Prop :=
  ∀ (p : Port) (r : ReqFrame) (s : State), serverRuns s = true → helloRoom s p = true →
    nextHello p (fun d => decide (at_ d 0 1 ≠ 2)) s = some r →
    ∃ t, exec (.helloStep1 p) s = .next t ∧ Frame (writes (.helloStep1 p)) s t ∧ t.srv.hello = s.srv.hello.erase r ∧ t.srv.sess = s.srv.sess ∧
      ((helloData r).length = 22 → at_ (helloData r) 0 1 = 1 → at_ (helloData r) 1 1 ≤ 5 → at_ (helloData r) 2 4 ≠ 0 →
        handOf s r.port r.addr r.sport = none → (openHands s).length < 8 → sessFull s r.port r.addr r.sport = false →
        ∃ j h f, tget none t.srv.hands j = some h ∧ h.role = at_ (helloData r) 1 1 ∧ h.host = at_ (helloData r) 2 4 ∧ h.dev ≠ 0 ∧ h.fn = s.fn ∧
          t.srv.ring12 = s.srv.ring12 ++ [f] ∧ f.port = r.port ∧ f.tag = 0xFF ∧
          f.data = opBytes ⟨0x60, 0, 0, 0, le 1 1 ++ le 1 h.role ++ le 4 h.dev ++ h.dn⟩) ∧
      ((helloData r).length ≠ 22 → t.srv.hands = s.srv.hands)

/-- A HELLO step 2 (R292, R293) whose proof is right opens a session with the role and IDs of its handshake and fresh counters; a wrong proof opens
nothing and is counted in HELLO_DENIED, and where no session is left nothing opens. -/
def Obligations.HelloStep2OpensSession : Prop :=
  ∀ (p : Port) (r : ReqFrame) (j : Nat) (h : Handshake) (okm : Bytes) (s : State), serverRuns s = true → helloRoom s p = true →
    nextHello p (fun d => decide (at_ d 0 1 = 2)) s = some r → (helloData r).length = 17 → handOf s r.port r.addr r.sport = some (j, h) →
    okmOf s h = some okm →
    ∃ t, exec (.helloStep2 p) s = .next t ∧ Frame (writes (.helloStep2 p)) s t ∧
      (slice okm 64 16 = (helloData r).drop 1 → sessFull s r.port r.addr r.sport = true → t.srv.sess = s.srv.sess) ∧
      (slice okm 64 16 = (helloData r).drop 1 → sessFull s r.port r.addr r.sport = false →
        ∃ k x, getSess t k = some x ∧ x.port = r.port ∧ x.role = h.role ∧ x.host = h.host ∧ x.dev = h.dev ∧ x.kin = slice okm 0 32 ∧
          x.kout = slice okm 32 32 ∧ x.next = 1 ∧ x.high = r.ctr ∧ x.win = [r.ctr] ∧ x.last = s.fn) ∧
      (slice okm 64 16 ≠ (helloData r).drop 1 → t.srv.sess = s.srv.sess ∧
        (r.port ≠ .internal → t.get K.sesHelloDenied = (s.get K.sesHelloDenied + 1) % 2 ^ oBits K.sesHelloDenied))

/-- The ends of handshakes and sessions (R291, R293): a handshake goes 1,024 frames after its step-1 response, a network session
SESSION_TIMEOUT seconds after its last authenticated request, with its subscriptions; before that nothing happens. -/
def Obligations.HandshakesAndSessionsExpire : Prop :=
  (∀ (i : Fin 8) (h : Handshake) (s : State), tget none s.srv.hands i.val = some h →
    (h.fn + 1024 ≤ s.fn → exec (.handshakeExpiry i) s = .next { s with srv := { s.srv with hands := tset none s.srv.hands i.val none } }) ∧
    (s.fn < h.fn + 1024 → exec (.handshakeExpiry i) s = .next s)) ∧
  (∀ (k : Fin 16) (x : Sess) (s : State), getSess s k.val = some x → x.port ≠ .spi →
    (x.last + 1024 * s.cfg s.fn K.sesSessionTimeout ≤ s.fn →
      ∃ t, exec (.sessionTimeout k) s = .next t ∧ Frame (writes (.sessionTimeout k)) s t ∧ t.srv.sess = tset none s.srv.sess k.val none ∧
        (∀ y, y ∈ t.srv.subs ↔ y ∈ s.srv.subs ∧ ¬(y.port = x.port ∧ y.sess = some k.val))) ∧
    (s.fn < x.last + 1024 * s.cfg s.fn K.sesSessionTimeout → exec (.sessionTimeout k) s = .next s)) ∧
  (∀ (i : Fin 48) (q : Tag) (o : Op) (s : State), Calls s (.endSession i) i q o →
    ∃ t, exec (.endSession i) s = .next t ∧ Frame (writes (.endSession i)) s t ∧
      (getSess s (at_ o.data 0 1) = none → Replies t i.val q o 0x32 [] ∧ t.srv.sess = s.srv.sess) ∧
      (getSess s (at_ o.data 0 1) ≠ none → t.srv.sess = tset none s.srv.sess (at_ o.data 0 1) none))

/-- A frame of a session (R295): the oldest frame that a network port received is taken; one whose tag verifies and whose counter is new enters the
port's request ring, with the opened payload, when there is room, and moves the window; one that was received before is counted in REPLAYS and
discarded, one whose tag fails in AUTH_FAILS; the session ends where its counter would reach 2^64 − 1 (R294). -/
def Obligations.NetworkFramesAreAuthenticated : Prop :=
  ∀ (p : Port) (r : ReqFrame) (k : Nat) (y : Sess) (s : State), serverRuns s = true → portOff s p = false →
    s.srv.net.find? (fun r => decide (r.port = p)) = some r → r.bytes.length = 40 + (hdrOf r.bytes).len →
    isStep1 (slice r.bytes 16 (hdrOf r.bytes).len) (r.bytes.drop (16 + (hdrOf r.bytes).len)) = false →
    handOf s r.port r.addr r.sport = none → sessOf s r.port r.addr r.sport = some (k, y) →
    ∃ t, exec (.bridleNetworkFrame p) s = .next t ∧ Frame (writes (.bridleNetworkFrame p)) s t ∧ (∀ r', r' ∈ t.srv.net → r' ∈ s.srv.net.erase r) ∧
      ∀ ctr, ctr = at_ (r.bytes.drop (16 + (hdrOf r.bytes).len)) 0 8 →
      ∀ v, v = gcmOpen y.kin (le 4 y.host ++ le 8 ctr) (r.bytes.take 16) (slice r.bytes 16 (hdrOf r.bytes).len)
          (slice (r.bytes.drop (16 + (hdrOf r.bytes).len)) 8 16) →
        (v = none → t.srv.inq = s.srv.inq ∧ t.srv.sess = s.srv.sess ∧ t.get K.sesAuthFails = (s.get K.sesAuthFails + 1) % 2 ^ oBits K.sesAuthFails) ∧
        (v ≠ none → isReplay y ctr = true →
          t.srv.inq = s.srv.inq ∧ t.srv.sess = s.srv.sess ∧ t.get K.sesReplays = (s.get K.sesReplays + 1) % 2 ^ oBits K.sesReplays) ∧
        (v ≠ none → isReplay y ctr = false → ctr = 2 ^ 64 - 1 → getSess s k = some y → y.port ≠ .spi → t.srv.inq = s.srv.inq.filter (fun r' =>
            !(decide (r'.port = y.port) && decide (r'.sess = some k))) ∧ getSess t k = none) ∧
        (∀ pl, v = some pl → isReplay y ctr = false → ctr ≠ 2 ^ 64 - 1 →
          sumN (s.srv.inq.filterMap (fun f => if f.port = r.port then some f.units else none)) + creditUnits r.port (hdrOf r.bytes).len ≤ 1024 →
          ∃ f z, t.srv.inq = s.srv.inq ++ [f] ∧ f.bytes = r.bytes.take 16 ++ pl ∧ f.port = r.port ∧ f.sess = some k ∧
            getSess t k = some z ∧ z.high = max y.high ctr ∧ ctr ∈ z.win ∧ z.last = s.fn)

/-- A datagram on the Ethernet segment (R289): one that is no plain unicast UDP datagram over IPv6 to port 49,256 is discarded and counted, whether READY
is 1 or not; a good one to an address in use waits for its authentication. -/
def Obligations.DatagramsAreFiltered : Prop :=
  ∀ (d : Datagram) (s : State), t1sUp s = true →
    ∃ t, exec (.t1sDatagramReceive d) s = .next t ∧ Frame [.dict, .chg, .srv] s t ∧
      (d.ipv6 = false ∨ d.udp = false ∨ d.fragment = true ∨ d.extension = true ∨ d.dstPort ≠ 49256 ∨ d.multicast = true →
        t.srv = s.srv ∧ t.live K.t1sRxDiscarded = (s.live K.t1sRxDiscarded + 1) % 2 ^ oBits K.t1sRxDiscarded ∧
        ∀ k, k ≠ liveKey K.t1sRxDiscarded → t.get k = s.get k) ∧
      (d.ipv6 = true → d.udp = true → d.fragment = false → d.extension = false → d.dstPort = 49256 → d.multicast = false → ownAddr s d.dst = true →
        serverRuns s = true → ∃ r, t = { s with srv := { s.srv with net := s.srv.net ++ [r] } } ∧ r.port = .t1s ∧ r.addr = d.src ∧
          r.sport = d.srcPort ∧ r.bytes = d.payload ∧ r.fn = s.fn)

/-- The IPv6 functions of the Ethernet port (R289): a solicitation of an address in use is answered with an advertisement and its sender enters the
neighbour cache of 16 entries, an echo request is answered while ECHO_EN is 1, and duplicate address detection leaves its address in use or
marked duplicate; R290: once its waiting responses are out, or 2 frames after B, a disabled port's PHY powers down. -/
def Obligations.EthernetFunctions : Prop :=
  (∀ (a b mac : Nat) (s : State), t1sUp s = true → ownAddr s a = true →
    ∃ t, exec (.neighbourSolicitation a b mac) s = .next t ∧ t = { s with t1s := t.t1s } ∧ t.t1s.sent = some (.advert a b) ∧
      t.t1s.phy = s.t1s.phy ∧ (b = 0 → t.t1s.cache = s.t1s.cache) ∧ (b ≠ 0 → t.t1s.cache.head? = some (b, mac) ∧ t.t1s.cache.length ≤ 16)) ∧
  (∀ (a b mac : Nat) (s : State), t1sUp s = true → ownAddr s a = false → exec (.neighbourSolicitation a b mac) s = .next s) ∧
  (∀ (a : Nat) (s : State), t1sUp s = true → dadField s false = 1 → reachable s a = true →
    (s.cfg s.fn K.t1sEchoEn = 1 → exec (.echoRequest a) s = .next { s with t1s := { s.t1s with sent := some (.echoReply a) } }) ∧
    (s.cfg s.fn K.t1sEchoEn ≠ 1 → exec (.echoRequest a) s = .next s)) ∧
  (∀ (u dup : Bool) (s : State), t1sUp s = true → dadField s u = 0 → s.live K.t1sDadState < 16 →
    ∃ t, exec (.duplicateAddressDetection u dup) s = .next t ∧ Frame [.dict, .chg] s t ∧ dadField t u = (if dup then 2 else 1) ∧
      dadField t (!u) = dadField s (!u) ∧ ∀ k, k ≠ liveKey K.t1sDadState → t.get k = s.get k) ∧
  (∀ (b : Nat) (s : State), s.t1s.closeAt = some b → b + 2 ≤ s.fn →
    ∃ t, exec .t1sPowerDown s = .next t ∧ Frame (writes .t1sPowerDown) s t ∧ t.t1s = {}) ∧
  (∀ (b : Nat) (s : State), s.t1s.closeAt = some b → s.fn < b → exec .t1sPowerDown s = .next s)


/-! ### Methods -/

/-- Every method is checked before it acts (R246): arguments of the wrong length are answered BAD-TYPE, a role that may not execute it DENIED; and
while a legal twin record is in CONFLICT or LOST, every method that changes legal data but RESOLVE is answered DENIED (R349). -/
def Obligations.MethodsAreChecked : Prop :=
  ∀ (c : Instr) (i : Fin 48) (ks : List Nat) (len : Nat → Bool) (q : Tag) (o : Op) (s : State), methodCall c = some (i, ks, len) →
    Serves s i.val q o → o.code = 0x40 → o.key ∈ ks →
    (len o.data.length = false → ∃ t, exec c s = .next t ∧ Frame [.srv] s t ∧ Replies t i.val q o 0x31 []) ∧
    (∀ r, rowOf o.key = some r → len o.data.length = true → roleOf s q < r.wr →
      ∃ t, exec c s = .next t ∧ Frame [.srv] s t ∧ Replies t i.val q o 0x20 []) ∧
    (checkExec (roleOf s q) o.key o.data len = 0 → legalMethod o.key = true → legalLocked s = true →
      ∃ t, exec c s = .next t ∧ Frame [.srv] s t ∧ Replies t i.val q o 0x20 [])

/-- The methods that only read change nothing but their request.  EVENT_READ (R354) answers the entries of the events from SEQ on, at most `count`;
TK_READ (R352) bytes of the Tackroom, at the read level of their partition; HJ_READ (R341) bytes of the host journal buffer; PAGE_READ (R334)
the status, the seal's fields and the 256 bytes of a page; CYCLE_MAP (R314) frame and instant of a network cycle, while the time base is
TRACKING or in HOLDOVER.  What lies out of range is answered RANGE. -/
def Obligations.ReadingMethodsAnswer : Prop :=
  (∀ (i : Fin 48) (q : Tag) (o : Op) (s : State), Calls s (.eventRead i) i q o →
    ∃ t, exec (.eventRead i) s = .next t ∧ Frame [.srv] s t ∧
      (at_ o.data 4 1 < 1 ∨ 120 < at_ o.data 4 1 → Replies t i.val q o 0x32 []) ∧
      (1 ≤ at_ o.data 4 1 → at_ o.data 4 1 ≤ 120 →
        ∃ es, Replies t i.val q o 0 es.flatten ∧ es.length ≤ at_ o.data 4 1 ∧
          es = ((s.tk.evs.filter (fun e => decide (at_ o.data 0 4 ≤ e.seq))).flatMap (fun e => e.entries)).take (at_ o.data 4 1))) ∧
  (∀ (i : Fin 48) (q : Tag) (o : Op) (s : State) (a n : Nat), Calls s (.tkRead i) i q o → a = at_ o.data 0 4 → n = at_ o.data 4 2 →
    ∃ t, exec (.tkRead i) s = .next t ∧ Frame [.srv] s t ∧
      (4000 < n ∨ 0x4000000 < a + n → Replies t i.val q o 0x32 []) ∧
      (n ≤ 4000 → a + n ≤ 0x4000000 → roleOf s q < max (tkLevel a) (tkLevel (a + n - 1)) → Replies t i.val q o 0x20 []) ∧
      (n ≤ 4000 → a + n ≤ 0x4000000 → max (tkLevel a) (tkLevel (a + n - 1)) ≤ roleOf s q →
        ∃ d, Replies t i.val q o 0 d ∧ d.length = n ∧ ∀ j, j < n → d[j]? = some (BitVec.ofNat 8 (tkByte s (a + j))))) ∧
  (∀ (i : Fin 48) (q : Tag) (o : Op) (s : State) (a n : Nat), Calls s (.hjRead i) i q o → a = at_ o.data 0 2 → n = at_ o.data 2 2 →
    ∃ t, exec (.hjRead i) s = .next t ∧ Frame [.srv] s t ∧
      (4000 < n ∨ hjSize < a + n → Replies t i.val q o 0x32 []) ∧
      (n ≤ 4000 → a + n ≤ hjSize →
        ∃ d, Replies t i.val q o 0 d ∧ d.length = n ∧ ∀ j, j < n → d[j]? = some (BitVec.ofNat 8 (tget 0 s.pwr.hj (a + j))))) ∧
  (∀ (i : Fin 48) (q : Tag) (o : Op) (s : State) (p : Nat), Calls s (.pageRead i) i q o → p = at_ o.data 0 2 →
    ∃ t, exec (.pageRead i) s = .next t ∧ Frame [.srv] s t ∧
      (1024 ≤ p → Replies t i.val q o 0x32 []) ∧
      (p < 1024 → Replies t i.val q o 0 (le 1 (pageStatusOf s p) ++ le 6 (servingSeal s p).count ++ le 6 (servingSeal s p).fn ++ pageBytes s p) ∧
        (pageBytes s p).length = 256)) ∧
  (∀ (i : Fin 48) (q : Tag) (o : Op) (s : State), Calls s (.cycleMap i) i q o →
    ∃ t, exec (.cycleMap i) s = .next t ∧ Frame [.srv] s t ∧
      (s.tb.num = none ∨ (tbState s ≠ 2 ∧ tbState s ≠ 3) → Replies t i.val q o 0x32 []) ∧
      (∀ m, s.tb.num = some m → tbState s = 2 ∨ tbState s = 3 →
        ∀ n : Int, n = at_ o.data 0 6 → ∀ c, c = tbCurrent s m (nowInstant s) →
          ((2 : Int) ^ 20 < mag (n - c) → Replies t i.val q o 0x32 []) ∧
          ((mag (n - c) : Int) ≤ 2 ^ 20 → ∀ x, x = odiv (tbStart s m n) tbTap →
            Replies t i.val q o 0 (le 6 (ofInt 48 (x / 4096)) ++ le 8 (ofInt 64 x)))))

/-- HJ_WRITE (R341) writes its bytes, and no others, into the host journal buffer, or is answered RANGE.  A backup (R357) - on demand, at BACKUP_MINUTE
of local standard time, or every 24 hours of FN while time is INVALID - takes the next generation, and is valid only once it is programmed; the
generations before it stay until the sectors of the oldest are erased for it.  BACKUP_NOW answers its generation. -/
def Obligations.HostJournalAndBackups : Prop :=
  (∀ (i : Fin 48) (q : Tag) (o : Op) (s : State) (a : Nat), Calls s (.hjWrite i) i q o → a = at_ o.data 0 2 →
    ∃ t, exec (.hjWrite i) s = .next t ∧ Frame [.pwr, .srv] s t ∧
      (hjSize < a + (o.data.length - 2) → Replies t i.val q o 0x32 [] ∧ t.pwr = s.pwr) ∧
      (a + (o.data.length - 2) ≤ hjSize → Replies t i.val q o 0 [] ∧ t.pwr = { s.pwr with hj := t.pwr.hj } ∧
        ∀ j, tget 0 t.pwr.hj j =
          if a ≤ j ∧ j < a + (o.data.length - 2) then at_ o.data (2 + (j - a)) 1 else tget 0 s.pwr.hj j)) ∧
  (∀ (i : Fin 48) (q : Tag) (o : Op) (s : State), Calls s (.backupNow i) i q o →
    ∃ t b, exec (.backupNow i) s = .next t ∧ Frame [.tk, .srv] s t ∧ Replies t i.val q o 0 (le 4 (nextGen s)) ∧
      t.tk.backs = s.tk.backs ++ [b] ∧ b.gen = nextGen s ∧ b.fn = s.fn ∧ b.valid = false ∧ t.tk.lastGen = nextGen s) ∧
  (∀ s : State, s.get K.backupGen < nextGen s ∧ s.tk.lastGen < nextGen s) ∧
  (∀ s : State, s.mode = .run → s.ready = true →
    (s.timeValid = true → (stdNow s % perDay) / perMin = s.cfg s.fn K.backupMinute ∧ s.tk.lastDay ≠ some (stdNow s / perDay)) →
    (s.timeValid = false → s.fn % 88473600 = 0 ∧ s.tk.lastFn ≠ some s.fn) →
    ∃ t b, exec .backup s = .next t ∧ Frame [.tk] s t ∧
      t.tk.backs = s.tk.backs ++ [b] ∧ b.gen = nextGen s ∧ b.fn = s.fn ∧ b.valid = false ∧ t.tk.lastGen = nextGen s ∧
      t.tk.lastDay = (if s.timeValid then some (stdNow s / perDay) else s.tk.lastDay) ∧
      t.tk.lastFn = (if s.timeValid then s.tk.lastFn else some s.fn)) ∧
  (∀ s : State, s.mode = .run → s.ready = true →
    (s.timeValid = true → s.tk.lastDay = some (stdNow s / perDay)) → (s.timeValid = false → s.tk.lastFn = some s.fn) → exec .backup s = .next s)

/-- Captures: CAPTURE_NOW (R157) is refused with DENIED while captures are off and BUSY, which MISSED counts, while the engine is not armed; else it answers the ID of
the capture that triggers at the first sample of the next frame.  A capture whose samples are all in ends with its header block in RING-8
and hold-off begins (R158); after HOLDOFF frames the engine is armed again, or off. -/
def Obligations.CapturesRun : Prop :=
  (∀ (i : Fin 48) (q : Tag) (o : Op) (s : State), Calls s (.captureNow i) i q o →
    ∃ t, exec (.captureNow i) s = .next t ∧ Frame (writes (.captureNow i)) s t ∧
      (s.live K.capState = 3 ∨ s.cfg s.fn K.capEnable ≠ 1 → Replies t i.val q o 0x20 [] ∧ t.cap = s.cap) ∧
      (s.live K.capState ≠ 3 → s.cfg s.fn K.capEnable = 1 → s.live K.capState ≠ 0 ∨ s.cap.now ≠ none → Replies t i.val q o 0x10 [] ∧ t.cap = s.cap ∧
        t.get K.capMissed = (s.get K.capMissed + 1) % 2 ^ oBits K.capMissed) ∧
      (s.live K.capState = 0 → s.cfg s.fn K.capEnable = 1 → s.cap.now = none →
        ∀ id, id = (s.cap.lastId + 1) % 2 ^ 32 →
          Replies t i.val q o 0 (le 4 id) ∧ t.cap = { s.cap with lastId := id, now := some (id, 16 * (s.fn + 1)) })) ∧
  (∀ (c : Capt) (s : State), s.cap.cur = some c → c.closed = true → s.cap.ring8.length < 63 →
    ∃ t b, exec .captureComplete s = .next t ∧ Frame [.dict, .chg, .cap] s t ∧ t.live K.capState = 2 ∧ t.cap.cur = none ∧
      t.cap.hold = (c.next - 1) / 16 + s.cfg s.fn K.capHoldoff ∧
      t.cap.ring8.getLast? = some b ∧ b.id = c.id ∧ b.seq = 0 ∧ ∀ k, k ≠ liveKey K.capState → t.get k = s.get k) ∧
  (∀ s : State, s.live K.capState = 2 →
    (s.cap.hold < s.fn → ∃ t, exec .captureHoldoffExpiry s = .next t ∧ Frame [.dict, .chg] s t ∧
      t.live K.capState = (if s.get K.capEnable = 1 then 0 else 3) ∧ ∀ k, k ≠ liveKey K.capState → t.get k = s.get k) ∧
    (s.fn ≤ s.cap.hold → exec .captureHoldoffExpiry s = .next s))

/-- TIME_SET (R261): refused with DENIED when host setting is masked and with RANGE for a time before 2025, none, or an AT_FN of the future or more
than 4,096 frames ago; else it takes effect at the next tick K, is answered with K, the correction and its kind, and is the last setting.  A step
takes effect at the tick of its frame (R262): TIME48 counts on from its value, and a slew ends.  Local standard time is TIME48 and UTC_OFFSET in
minutes of 61,440 frames, local time adds DST_SHIFT while daylight saving time is active, which it never is with DST_EN 0; their
defaults and ranges are those of R162. -/
def Obligations.TimeIsSetAndStepped : Prop :=
  (∀ (s : State) (f t : Nat),
    localOf s f t = t + s.cfgI f K.calUtcOffset * 61440 +
      (if dstActive s f (t + s.cfgI f K.calUtcOffset * 61440) = true then (s.cfg f K.calDstShift : Int) * 61440 else 0) ∧
    (s.cfg f K.calDstEn = 0 → ∀ std, dstActive s f std = false)) ∧
  (State.reset.get K.calUtcOffset = 0 ∧ State.reset.get K.calDstShift = 60 ∧ State.reset.get K.calDstEn = 0 ∧
    (∀ v, v < 2 ^ oBits K.calUtcOffset →
      (outOfRange K.calUtcOffset v = false ↔ -720 ≤ toInt (oBits K.calUtcOffset) v ∧ toInt (oBits K.calUtcOffset) v ≤ 840)) ∧
    (∀ v, outOfRange K.calDstShift v = false ↔ 1 ≤ v ∧ v ≤ 120)) ∧
  (∀ (i : Fin 48) (q : Tag) (o : Op) (s : State) (time atFn : Nat), Calls s (.timeSet i) i q o → time = at_ o.data 0 6 → atFn = at_ o.data 6 6 →
    ∃ t, exec (.timeSet i) s = .next t ∧ Frame (writes (.timeSet i)) s t ∧
      (bit (s.cfg s.fn K.timeSourceMask) 0 = false → Replies t i.val q o 0x20 [] ∧ t.dev = s.dev) ∧
      (bit (s.cfg s.fn K.timeSourceMask) 0 = true →
        time < time2025 ∨ time = noTime ∨ s.fn < atFn ∨ (atFn ≠ 0 ∧ atFn + 4096 < s.fn) → Replies t i.val q o 0x32 [] ∧ t.dev = s.dev) ∧
      (bit (s.cfg s.fn K.timeSourceMask) 0 = true → time2025 ≤ time → time ≠ noTime → atFn ≤ s.fn → (atFn ≠ 0 → s.fn ≤ atFn + 4096) →
        ∃ x corr, t.dev = { s.dev with tset := some x } ∧ x.k = s.fn + 1 ∧
          x.val = (time + (if atFn = 0 then 0 else s.fn + 1 - atFn)) % 2 ^ 48 ∧ x.kind ≤ 2 ∧ (s.timeValid = false → x.kind = 2) ∧
          Replies t i.val q o 0 (le 6 (s.fn + 1) ++ le 6 (ofInt 48 corr) ++ le 1 x.kind) ∧
          t.get K.timeLastSource = 1 ∧ t.get K.timeLastSetFn = s.fn + 1)) ∧
  (∀ (x : TimeSetting) (s : State), s.dev.tset = some x → x.kind = 2 →
    (x.k ≤ s.fn → ∃ t, exec .clockStepApply s = .next t ∧ Frame (writes .clockStepApply) s t ∧ t.dev = { s.dev with tset := none } ∧
      t.get K.timeTime48 = (x.val + (s.fn - x.k)) % 2 ^ 48 ∧ t.live K.timeSlewLeft = 0 ∧
      t.bill.steps = s.bill.steps ++ [(x.k, s.timeOf x.k, x.val)]) ∧
    (s.fn < x.k → exec .clockStepApply s = .next s))


/-! ### Methods that are stored like a commit, and raw writes -/

/-- RESUME (R198), REINSTATE (R234), RESOLVE (R349), RESTORE (R358) and ACTIVATE (R380), once their own conditions hold and a COMMIT may be
taken up, are posted like a commit and take their B from its acknowledgement (R34); where a condition fails they are answered its status and
post nothing. -/
def Obligations.MethodsPostStores : Prop :=
  (∀ (i : Fin 48) (q : Tag) (o : Op) (s : State), Calls s (.resume i) i q o →
    ∃ t, exec (.resume i) s = .next t ∧ Frame [.bill, .srv, .jobs] s t ∧
      (s.live K.calState = 1 → Replies t i.val q o 0x20 [] ∧ t.jobs = s.jobs) ∧
      (s.live K.calState ≠ 1 → mayCommit i.val s = true → Posted s t i.val 0 0 q .resume [(K.installToken, at_ o.data 0 8)])) ∧
  (∀ (i : Fin 48) (q : Tag) (o : Op) (s : State) (kind num : Nat), Calls s (.reinstate i) i q o → kind = at_ o.data 0 1 → num = at_ o.data 1 2 →
    ∃ t, exec (.reinstate i) s = .next t ∧ Frame [.bill, .srv, .jobs] s t ∧
      (6 < kind → Replies t i.val q o 0x32 [] ∧ t.jobs = s.jobs) ∧
      (3 ≤ kind → kind ≤ 6 → roleOf s q < 5 → Replies t i.val q o 0x20 [] ∧ t.jobs = s.jobs) ∧
      (kind < 3 → s.live K.calState ≠ 1 → Replies t i.val q o 0x22 [] ∧ t.jobs = s.jobs) ∧
      (kind ≤ 6 → (3 ≤ kind → 5 ≤ roleOf s q) → (kind < 3 → s.live K.calState = 1) →
        (unitCount kind ≤ num ∨ unitRetired s kind num = false → Replies t i.val q o 0x32 [] ∧ t.jobs = s.jobs) ∧
        (num < unitCount kind → unitRetired s kind num = true →
          (laneGone s kind num = true → Replies t i.val q o 0x43 (failData (K.laneFState (num / 8)) 0) ∧ t.jobs = s.jobs) ∧
          (laneGone s kind num = false → mayCommit i.val s = true → Posted s t i.val 0 0 q (.reinstate kind num) [])))) ∧
  (∀ (i : Fin 48) (q : Tag) (o : Op) (s : State) (kind r w : Nat), Calls s (.resolve i) i q o → kind = at_ o.data 0 1 → r = at_ o.data 1 1 →
    w = at_ o.data 2 1 →
    ∃ t, exec (.resolve i) s = .next t ∧ Frame [.bill, .srv, .jobs] s t ∧
      (1 < kind ∨ 1 < w ∨ (kind = 0 ∧ s.cfg s.fn K.twinCount ≤ r) ∨ (kind = 1 ∧ 8 ≤ r) → Replies t i.val q o 0x32 [] ∧ t.jobs = s.jobs) ∧
      (kind ≤ 1 → w ≤ 1 → (kind = 0 → r < s.cfg s.fn K.twinCount) → (kind = 1 → r < 8) →
        ∀ p, p = (if kind = 0 then hostCopy r (w == 1) else legalCopy r (w == 1)) →
          (copyUsable s p = false → Replies t i.val q o 0x43 [] ∧ t.jobs = s.jobs) ∧
          (copyUsable s p = true → mayCommit i.val s = true → Posted s t i.val 0 0 q (.resolve (decide (kind = 1)) r w) []))) ∧
  (∀ (i : Fin 48) (q : Tag) (o : Op) (s : State) (g mask : Nat), Calls s (.restore i) i q o → g = at_ o.data 0 4 → mask = at_ o.data 4 1 →
    ∃ t, exec (.restore i) s = .next t ∧ Frame [.bill, .srv, .jobs] s t ∧
      ((∀ b ∈ s.tk.backs, b.gen = g → b.valid = false) ∨ mask = 0 ∨ 4 ≤ mask → Replies t i.val q o 0x32 [] ∧ t.jobs = s.jobs) ∧
      (∀ b, s.tk.backs.find? (fun b => b.valid && decide (b.gen = g)) = some b → mask ≠ 0 → mask < 4 → mayCommit i.val s = true →
        Posted s t i.val 0 0 q (.restore g mask) (if bit mask 1 then restoredVals s b else []))) ∧
  (∀ (i : Fin 48) (q : Tag) (o : Op) (s : State), Calls s (.activate i) i q o →
    ∃ t, exec (.activate i) s = .next t ∧
      (s.img.lease = none ∨ leaseState s ≠ 2 → Replies t i.val q o 0x10 [] ∧ Frame [.srv] s t) ∧
      (∀ l, s.img.lease = some l → leaseState s = 2 → holds s q = true → sealFits s (targetSlot s) = true →
        (q.fn + 3686400 < at_ o.data 0 6 → Replies t i.val q o 0x32 [] ∧ Frame [.srv] s t) ∧
        (at_ o.data 0 6 ≤ q.fn + 3686400 → mayCommit i.val s = true →
          Posted s t i.val 0 (at_ o.data 0 6) q (.activate (targetSlot s)) [] ∧ Frame [.img, .bill, .srv, .jobs, .pages] s t ∧
          t.img.lease = some { l with lastFn := s.fn })))

/-- PAGE_WRITE (R334): RANGE for a page that does not exist, DENIED where Table 12.6 forbids it; it waits while a store of its page is in progress;
else the page takes the 256 bytes and one store of it is posted, which answers the request.  TWIN_WRITE (R347) stores DATA with the next SEQ in
the copy that does not serve, and waits while a copy is being stored. -/
def Obligations.RawWritesAreStored : Prop :=
  (∀ (i : Fin 48) (q : Tag) (o : Op) (s : State) (p : Nat), Calls s (.pageWrite i) i q o → p = at_ o.data 0 2 →
    ∃ t, exec (.pageWrite i) s = .next t ∧ Frame (writes (.pageWrite i)) s t ∧
      (1024 ≤ p → Replies t i.val q o 0x32 [] ∧ Frame [.srv] s t) ∧
      (p < 1024 → mayRawWrite s (roleOf s q) p = false → Replies t i.val q o 0x20 [] ∧ Frame [.srv] s t) ∧
      (p < 1024 → mayRawWrite s (roleOf s q) p = true →
        (pageBusy s p = true → t = s) ∧
        (pageBusy s p = false → (tget {} t.pages p).raw = some (o.data.drop 2) ∧ (∀ x, x ≠ p → tget {} t.pages x = tget {} s.pages x) ∧
          t.jobs.map (fun j => j.page) = s.jobs.map (fun j => j.page) ++ [p] ∧
          (∃ j ks, t.jobs.getLast? = some j ∧ j.raw = some (o.data.drop 2) ∧ j.ack = .page i.val ks) ∧
          (984 ≤ p → ∀ k, t.get k = s.get k) ∧ ∃ q', getTag t i.val = some q' ∧ q'.wait = true ∧ q'.res = q.res))) ∧
  (∀ (i : Fin 48) (q : Tag) (o : Op) (s : State) (r : Nat), Calls s (.twinWrite i) i q o → r = at_ o.data 0 1 →
    ∃ t, exec (.twinWrite i) s = .next t ∧ Frame [.bill, .srv, .jobs, .pages] s t ∧
      (s.cfg s.fn K.twinCount ≤ r ∨ (storeWaits s (hostCopy r false) = false ∧ storeWaits s (hostCopy r true) = false ∧ twinTarget s r = none) →
        Replies t i.val q o 0x32 [] ∧ Frame [.srv] s t) ∧
      (r < s.cfg s.fn K.twinCount → storeWaits s (hostCopy r false) = true ∨ storeWaits s (hostCopy r true) = true → t = s) ∧
      (∀ b n, r < s.cfg s.fn K.twinCount → storeWaits s (hostCopy r false) = false → storeWaits s (hostCopy r true) = false →
        twinTarget s r = some (b, n) →
        (tget {} t.pages (hostCopy r b)).raw = some (copyBytes n (o.data.drop 1)) ∧
        tget {} t.pages (hostCopy r (!b)) = tget {} s.pages (hostCopy r (!b)) ∧
        t.jobs.map (fun j => j.page) = s.jobs.map (fun j => j.page) ++ [hostCopy r b] ∧
        ∃ j, t.jobs.getLast? = some j ∧ j.raw = some (copyBytes n (o.data.drop 1)) ∧ j.ack = .twin i.val n))

/-! ### Updates -/

/-- UPDATE_OPEN (R375, R376): reserved flags are answered RANGE, FORCE but by the owner on SPI DENIED, and a lease past recall BUSY; a FREE lease opens
for the caller with the size and digest given, or is answered RANGE for a size that no image has and IMAGE-REJECTED 11 when too few good
sectors are left; a caller that does not hold the lease is answered LEASE-HELD with its first holder's port and the digest's first bytes; with JOIN and the same image it joins up to four holders, and with FORCE the
owner opens a lease anew. -/
def Obligations.LeasesOpen : Prop :=
  ∀ (i : Fin 48) (q : Tag) (o : Op) (s : State) (size flags : Nat) (digest : Bytes), Calls s (.updateOpen i) i q o → size = at_ o.data 0 4 →
    digest = slice o.data 4 32 → flags = at_ o.data 36 1 →
    ∃ t, exec (.updateOpen i) s = .next t ∧ Frame (writes (.updateOpen i)) s t ∧
      (4 ≤ flags → Replies t i.val q o 0x32 [] ∧ Frame [.srv] s t) ∧
      (flags < 4 → bit flags 1 = true → ¬(q.port = .spi ∧ roleOf s q = 5) → Replies t i.val q o 0x20 [] ∧ Frame [.srv] s t) ∧
      (flags < 4 → (bit flags 1 = true → q.port = .spi ∧ roleOf s q = 5) →
        (handFixed s = true → Replies t i.val q o 0x10 [] ∧ Frame [.srv] s t) ∧
        (handFixed s = false → s.img.lease = none →
          (size % 4096 ≠ 0 ∨ size < 4096 ∨ 7864320 < size → Replies t i.val q o 0x32 [] ∧ Frame [.srv] s t) ∧
          (size % 4096 = 0 → 4096 ≤ size → size ≤ 7864320 → (slotSecs s (targetSlot s)).length < (size + 65535) / 65536 →
            Replies t i.val q o 0x51 (le 1 11) ∧ t.img = s.img) ∧
          (size % 4096 = 0 → 4096 ≤ size → size ≤ 7864320 → (size + 65535) / 65536 ≤ (slotSecs s (targetSlot s)).length →
            t.img.lease = some ⟨[callerOf q], size, digest, s.fn⟩ ∧ leaseState t = 1 ∧
            Replies t i.val q o 0 (le 1 (targetSlot s) ++ le 2 (getSlot t (targetSlot s)).units.length))) ∧
        (∀ l, handFixed s = false → s.img.lease = some l → bit flags 1 = true → leaseState s = 1 ∨ leaseState s = 2 → size % 4096 = 0 → 4096 ≤ size →
          size ≤ 7864320 → (size + 65535) / 65536 ≤ (slotSecs s (targetSlot s)).length →
          t.img.lease = some ⟨[callerOf q], size, digest, s.fn⟩ ∧ leaseState t = 1) ∧
        (∀ l, handFixed s = false → s.img.lease = some l → flags = 1 → holds s q = false → leaseState s = 1 → l.size = size → l.digest = digest →
          (4 ≤ l.holders.length → Replies t i.val q o 0x10 [] ∧ Frame [.srv] s t) ∧
          (l.holders.length < 4 → t.img.lease = some { l with holders := l.holders ++ [callerOf q], lastFn := s.fn })) ∧
        (∀ l, handFixed s = false → s.img.lease = some l → flags = 0 →
          (holds s q = true → t.img = { s.img with lease := some { l with lastFn := s.fn } } ∧
            Replies t i.val q o 0 (le 1 (targetSlot s) ++ le 2 (getSlot s (targetSlot s)).units.length)) ∧
          (holds s q = false → Frame [.srv] s t ∧
            Replies t i.val q o 0x50 (le 1 (match l.holders with | h :: _ => h.port | [] => 0xFF) ++ slice l.digest 0 8))))

/-- WRITE_BLOCK (R377) of a holder into an OPEN lease: the units that are new are programmed in one operation, which answers the request; units already
written with identical data are skipped, and other data on a written unit is answered IMAGE-REJECTED 12.  VERIFY (R378): an incomplete image is
answered IMAGE-REJECTED 13, one that passes Table 13.6 is VERIFIED and its versions are answered, any other is refused with its reason and must be
written again. -/
def Obligations.ImagesAreWritten : Prop :=
  (∀ (i : Fin 48) (q : Tag) (o : Op) (l : Lease) (s : State) (off : Nat) (d : Bytes), Calls s (.writeBlock i) i q o → off = at_ o.data 0 4 →
    d = o.data.drop 4 → s.img.lease = some l →
    ∃ t, exec (.writeBlock i) s = .next t ∧ Frame (writes (.writeBlock i)) s t ∧
      (off % 256 ≠ 0 ∨ l.size < off + d.length ∨ (d.length % 256 ≠ 0 ∧ off + d.length ≠ l.size) → Replies t i.val q o 0x32 [] ∧ Frame [.srv] s t) ∧
      (off % 256 = 0 → off + d.length ≤ l.size → (d.length % 256 = 0 ∨ off + d.length = l.size) →
        (holds s q = false → Frame [.srv] s t ∧
          Replies t i.val q o 0x50 (le 1 (match l.holders with | h :: _ => h.port | [] => 0xFF) ++ slice l.digest 0 8)) ∧
        (holds s q = true → leaseState s ≠ 1 → Replies t i.val q o 0x10 [] ∧ Frame [.srv] s t) ∧
        (holds s q = true → leaseState s = 1 →
          t.img = { s.img with lease := some { l with lastFn := s.fn } } ∧
          ((∃ u ∈ blockUnits off d, ∃ x, unitData s (targetSlot s) u.1 = some x ∧ x ≠ u.2) → Replies t i.val q o 0x51 (le 1 12) ∧ t.tk = s.tk) ∧
          ((∀ u ∈ blockUnits off d, unitData s (targetSlot s) u.1 = none ∨ unitData s (targetSlot s) u.1 = some u.2) →
            ((∀ u ∈ blockUnits off d, u.1 ∈ (getSlot s (targetSlot s)).units) →
              Replies t i.val q o 0 (le 2 (getSlot s (targetSlot s)).units.length) ∧ t.tk = s.tk) ∧
            ((∃ u ∈ blockUnits off d, u.1 ∉ (getSlot s (targetSlot s)).units) →
              (∃ j ∈ t.tk.queue, j.op = .image (targetSlot s) ((blockUnits off d).filter (fun u => decide (unitData s (targetSlot s) u.1 = none))) (some i.val)) ∧
              t.tk.queue.length = s.tk.queue.length + 1 ∧ ∃ q', getTag t i.val = some q' ∧ q'.wait = true ∧ q'.res = q.res))))) ∧
  (∀ (i : Fin 48) (q : Tag) (o : Op) (l : Lease) (s : State), Calls s (.verify i) i q o → s.img.lease = some l → holds s q = true →
    ∃ t, exec (.verify i) s = .next t ∧ Frame (writes (.verify i)) s t ∧
      (leaseState s ≠ 1 → leaseState s ≠ 2 → Replies t i.val q o 0x10 [] ∧ Frame [.srv] s t) ∧
      (leaseState s = 1 ∨ leaseState s = 2 →
        ((getSlot s (targetSlot s)).units.length < l.size / 256 → Replies t i.val q o 0x51 (le 1 13) ∧ leaseState t = leaseState s) ∧
        (l.size / 256 ≤ (getSlot s (targetSlot s)).units.length → ∀ c, c = imageCheck s (targetSlot s) →
          (c = 0 → leaseState t = 2 ∧ t.img.lease = some { l with lastFn := s.fn } ∧
            Replies t i.val q o 0 (slice (manifestOf s (targetSlot s)) 40 4 ++ slice (manifestOf s (targetSlot s)) 16 1 ++
              slice (manifestOf s (targetSlot s)) 17 1)) ∧
          (c ≠ 0 → leaseState t = 1 ∧ (getSlot t (targetSlot s)).units = [] ∧ Replies t i.val q o 0x51 (le 1 c)))))

/-- A lease ends (R379): by ABORT of a holder, which also takes back a scheduled activation until 16 frames before its B and is BUSY after, or 122,880
frames after the last update method of a holder; before that nothing happens. -/
def Obligations.LeasesEnd : Prop :=
  (∀ (i : Fin 48) (q : Tag) (o : Op) (s : State), Calls s (.abort i) i q o → holds s q = true →
    ∃ t, exec (.abort i) s = .next t ∧ Frame (writes (.abort i)) s t ∧
      (handFixed s = true → Replies t i.val q o 0x10 [] ∧ Frame [.srv] s t) ∧
      (handFixed s = false → leaseState s = 3 → Replies t i.val q o 0 [] ∧ t.img.hand = none ∧ leaseState t = 2 ∧
        ∀ c ∈ t.commits, c.done = false → ∀ k, c.eff ≠ .activate k) ∧
      (handFixed s = false → leaseState s ≠ 3 → Replies t i.val q o 0 [] ∧ t.img = { s.img with lease := none } ∧ leaseState t = 0 ∧
        t.commits = s.commits)) ∧
  (∀ (l : Lease) (s : State), s.img.lease = some l → leaseState s = 1 ∨ leaseState s = 2 →
    (l.lastFn + 122880 ≤ s.fn → ∃ t, exec .leaseExpiry s = .next t ∧ Frame (writes .leaseExpiry) s t ∧
      t.img = { s.img with lease := none } ∧ leaseState t = 0) ∧
    (s.fn < l.lastFn + 122880 → exec .leaseExpiry s = .next s))

/-- KEY_COMMAND (R365): a command that fails a check is answered DENIED with the number of the first check that fails, and changes nothing; one that
passes installs the hash of a key in its slot, or revokes the slot's key, whose hash stays (R363). -/
def Obligations.OwnerKeysChange : Prop :=
  ∀ (i : Fin 48) (q : Tag) (o : Op) (s : State), Calls s (.keyCommand i) i q o →
    ∃ t, exec (.keyCommand i) s = .next t ∧ Frame [.dict, .srv, .ring5] s t ∧
      (keyCheck s o.data ≠ 0 → Replies t i.val q o 0x20 (le 1 (keyCheck s o.data)) ∧ Frame [.srv] s t) ∧
      (keyCheck s o.data = 0 → ∀ k, k = at_ o.data 3 1 → Replies t i.val q o 0 [] ∧
        (at_ o.data 2 1 = 1 → ownerState t k = 1 ∧ t.get (K.owner k) / 256 = at_ o.data 16 32) ∧
        (at_ o.data 2 1 = 2 → ownerState t k = 2 ∧ t.get (K.owner k) / 256 = s.get (K.owner k) / 256) ∧
        (∀ j, j < 4 → j ≠ k → t.get (K.owner j) = s.get (K.owner j)))

/-- The handover to a new image (R381): its banks are prepared, or the activation is cancelled and the lease is VERIFIED again; from B − 16 the server
starts no request; at B the operational core restarts without transactions and subscriptions, and the health check of 1,024 frames
begins (R382, R383); at B + 1 the legal core switches.  A passed check makes the image the active one and frees the lease (R384); a failed one
hands back to the old image and marks the new slot INVALID (R385). -/
def Obligations.HandoversRun : Prop :=
  ∀ (h : Handover) (s : State), s.img.hand = some h →
    (h.prepared = false → s.fn + 16 < h.b →
      exec (.handoverPrepared true) s = .next { s with img := { s.img with hand := some { h with prepared := true } } } ∧
      ∃ t, exec (.handoverPrepared false) s = .next t ∧ Frame (writes (.handoverPrepared false)) s t ∧ t.img = { s.img with hand := none } ∧
        leaseState t = 2 ∧ t.get K.lastReject = 8) ∧
    (h.prepared = true → h.quiet = false → h.b ≤ s.fn + 16 →
      exec .handoverQuiesce s = .next { s with img := { s.img with hand := some { h with quiet := true } } }) ∧
    (s.fn + 16 < h.b → exec .handoverQuiesce s = .next s) ∧
    (h.quiet = true → h.begun = false → h.b ≤ s.fn → h.slot < 2 →
      ∃ t, exec .handoverAtB s = .next t ∧ Frame (writes .handoverAtB) s t ∧ t.img = { s.img with hand := some { h with begun := true } } ∧
        t.ready = false ∧ t.srv.txns = [] ∧ t.srv.subs = [] ∧ t.srv.sess = s.srv.sess ∧ leaseState t = 4 ∧ t.get (K.imSlotState h.slot) = 4 ∧
        t.live K.healthLeft = 1024) ∧
    (h.begun = true → h.switched = false → h.b + 1 ≤ s.fn →
      ∃ t, exec .handoverBankSwitch s = .next t ∧ Frame [.dict, .due, .img] s t ∧ t.img = { s.img with hand := some { h with switched := true } } ∧
        t.live K.idCheck = at_ (manifestOf s h.slot) 40 4 ∧ t.live K.idOpVersion = at_ (manifestOf s h.slot) 20 4) ∧
    (h.pass = true → h.slot < 2 → s.get K.activeSlot = 1 - h.slot →
      ∃ t, exec .healthCheckPass s = .next t ∧ Frame (writes .healthCheckPass) s t ∧ t.get K.activeSlot = h.slot ∧ t.get (K.imSlotState h.slot) = 3 ∧
        t.img = { s.img with hand := none, lease := none } ∧ leaseState t = 0) ∧
    (∀ c f, h.fail = some (c, f) → h.slot < 2 → s.get K.activeSlot = 1 - h.slot →
      (f + 2 ≤ s.fn → ∃ t, exec .imageRevert s = .next t ∧ Frame (writes .imageRevert) s t ∧ t.get K.activeSlot = s.get K.activeSlot ∧
        t.get (K.imSlotState h.slot) = 5 ∧ t.img = { s.img with hand := none, lease := none } ∧ t.ready = false ∧ leaseState t = 0) ∧
      (s.fn < f + 2 → exec .imageRevert s = .next s))

/-- READ_SIGNED (R199 to R201): certificates of 1 to 120 objects from one snapshot, fewer than 50 in any 1,024 frames, each with the next SEQ; the
signature is over the SHA3-256 of the body.  A HOST_TOKEN (R196, R249) is accepted for the next tick and answered with its frame; one that differs
from INSTALL_TOKEN, or meets none installed, raises TOKEN; in a read-only transaction it is answered READ-ONLY (R250). -/
def Obligations.CertificatesAndTokens : Prop :=
  (∀ (i : Fin 48) (q : Tag) (o : Op) (s : State) (n : Nat), Serves s i.val q o → o.code = 0x12 → n = at_ o.data 8 1 →
    ∃ t, exec (.readSigned i) s = .next t ∧ Frame [.dict, .bill, .srv] s t ∧
      (o.data.length < 9 → Replies t i.val q o 0x31 [] ∧ Frame [.srv] s t) ∧
      (9 ≤ o.data.length → n < 1 ∨ 120 < n → Replies t i.val q o 0x32 [] ∧ Frame [.srv] s t) ∧
      (1 ≤ n → n ≤ 120 → o.data.length = 9 + 3 * n → ∀ ks, ks = listedKeys (o.data.drop 9) n →
        (signStatus (roleOf s q) ks ≠ 0 → Replies t i.val q o (signStatus (roleOf s q) ks) [] ∧ Frame [.srv] s t) ∧
        (signStatus (roleOf s q) ks = 0 → 50 ≤ (s.bill.certs.filter (fun f => decide (s.fn < f + 1024))).length →
          Replies t i.val q o 0x11 [] ∧ t.bill = s.bill ∧ t.get K.signedRefused = (s.get K.signedRefused + 1) % 2 ^ oBits K.signedRefused) ∧
        (∀ p, signStatus (roleOf s q) ks = 0 → (s.bill.certs.filter (fun f => decide (s.fn < f + 1024))).length < 50 → q.snap = some p →
          ∀ seq body, seq = (s.get K.signedCount + 1) % 2 ^ 32 → body = certBody s p seq (at_ o.data 0 8) ks →
            Replies t i.val q o 0 (body ++ slice (Config.identitySign (sha3_256 body)) 0 2420) ∧ t.get K.signedCount = seq ∧
            t.get K.lastSignedFn = p.fn ∧ s.fn ∈ t.bill.certs))) ∧
  (∀ (i : Fin 48) (q : Tag) (o : Op) (s : State), Serves s i.val q o → o.code = 0x20 → o.key = K.hostToken →
    ∃ t, exec (.hostTokenWrite i) s = .next t ∧ Frame (writes (.hostTokenWrite i)) s t ∧
      ∀ c, c = checkWrite s (roleOf s q) o.key o.data →
        (c.1 ≠ 0 → Replies t i.val q o c.1 [] ∧ Frame [.srv] s t) ∧
        (c.1 = 0 → inReadOnly s q = true → Replies t i.val q o 0x33 [] ∧ Frame [.srv] s t) ∧
        (c.1 = 0 → inReadOnly s q = false → Replies t i.val q o 0 (le 6 (s.fn + 1)) ∧ (K.hostToken, c.2) ∈ t.srv.vput ∧
          (s.cfg s.fn K.installToken = 0 ∨ s.cfg s.fn K.installToken ≠ c.2 → bit (t.get K.cause) 0 = true) ∧
          (s.cfg s.fn K.installToken ≠ 0 → s.cfg s.fn K.installToken = c.2 → t.bill = s.bill ∧ ∀ k, t.get k = s.get k)))


/-! ### Measurement -/

/-- The front end and the aligner.  A sample period of a frame that has not had its 16 counts one more (R10); without the front end, or after the
sixteenth, nothing happens.  An aligned sample that is due is emitted, and the last of a frame completes the frame in RING-1, from the second
frame after the first (R74, R76); without credit for the channel-frames of the
frame in RING-1 the aligner waits and its stalls count (R14, R15).  A takeover that is due makes the
partner run the degraded table from its first rotation step and marks it DEGRADED-SERVING (R67).  After 400 periods without a crossing a range
controller decides as at a crossing at the result of the last one: by the peak of those before it, and the peak starts anew with it (R59); where that result is at 98 % or more, the low
range stays decided (R63).  The filter (R82) multiplies Q1.47 samples by Q1.23 coefficients, no product and no partial sum leaves
96 bits, the sum is rounded half away from zero to Q1.47, and a result beyond Q1.47 is saturated and flagged CLIP; the coefficients of every phase
add up to one, so that a constant comes out as it is. -/
def Obligations.SamplesAreTakenAndAligned : Prop :=
  (∀ phi, phi < 256 → (coeff phi).length = 16 ∧ sumI (coeff phi) = 2 ^ 23 ∧ ∀ h ∈ coeff phi, -(2 ^ 23) ≤ h ∧ h ≤ 2 ^ 23) ∧
  (∀ (hist : List RawS) (n i phi : Nat) (y : Int) (gov : Option RawS) (x : Nat → Int),
    i = (max 1792 y).toNat / 256 - 7 → phi = (max 1792 y).toNat % 256 →
    (∀ t, t < 16 → ∃ r, histAt hist (n - i - t) = some r ∧ r.y = x t ∧ -(2 ^ 47) ≤ x t ∧ x t < 2 ^ 47) →
    (∀ k, k ≤ 16 → -(2 ^ 95) ≤ sumI ((List.range k).map (fun t => ati (coeff phi) t * x t)) ∧
      sumI ((List.range k).map (fun t => ati (coeff phi) t * x t)) < 2 ^ 95) ∧
    (∀ t, t < 16 → -(2 ^ 95) ≤ ati (coeff phi) t * x t ∧ ati (coeff phi) t * x t < 2 ^ 95) ∧
    (∀ z, z = rdiv (sumI ((List.range 16).map (fun t => ati (coeff phi) t * x t))) (2 ^ 23) →
      (-(2 ^ 47) ≤ z → z < 2 ^ 47 → (alignOut hist n y gov).1 = z ∧
        (alignOut hist n y gov).2.1 = (match gov with | some r => r.clip | none => false)) ∧
      (z < -(2 ^ 47) → (alignOut hist n y gov).1 = -(2 ^ 47) ∧ (alignOut hist n y gov).2.1 = true) ∧
      (2 ^ 47 ≤ z → (alignOut hist n y gov).1 = 2 ^ 47 - 1 ∧ (alignOut hist n y gov).2.1 = true)) ∧
    (∀ c, (∀ t, t < 16 → x t = c) → (alignOut hist n y gov).1 = c)) ∧
  (∀ (ls : List LaneConv) (vs : List VoltConv) (s : State), s.mode = .run ∨ s.mode = .recovery → s.acq.first ≠ none →
    (s.acq.period < 16 → ∃ t, exec (.samplePeriod ls vs) s = .next t ∧ Frame (writes (.samplePeriod ls vs)) s t ∧
      t.acq.period = s.acq.period + 1) ∧
    (16 ≤ s.acq.period → exec (.samplePeriod ls vs) s = .next s)) ∧
  (∀ s : State, alignDue s = true →
    (ring1Full s (s.aln.next / 16) = true → exec .alignerSample s = .next (s.bump (K.stalls 1))) ∧
    (ring1Full s (s.aln.next / 16) = false → ∃ t, exec .alignerSample s = .next t ∧ Frame (writes .alignerSample) s t ∧ t.aln.next = s.aln.next + 1 ∧
      (s.aln.next % 16 ≠ 15 → t.aln.ring1 = s.aln.ring1) ∧
      (∀ f, s.aln.next % 16 = 15 → s.acq.first = some f → f + 2 ≤ s.aln.next / 16 →
        ∃ a, t.aln.ring1 = s.aln.ring1 ++ [a] ∧ a.fn = s.aln.next / 16 ∧ a.lost = decide (s.aln.next / 16 ∈ t.acq.lost)))) ∧
  (∀ s : State, alignDue s = false → exec .alignerSample s = .next s) ∧
  (∀ (l : Fin 32) (x : Takeover) (s : State), s.acq.takeovers.find? (fun t => decide (t.lane = l.val)) = some x →
    (x.frm ≤ s.fn → ∃ t, exec (.laneTakeover l) s = .next t ∧ Frame (writes (.laneTakeover l)) s t ∧
      t.live (K.laneMode (partner l.val)) = 1 ∧ t.live (K.laneRotStep (partner l.val)) = 0 ∧ t.get (K.laneTableFn (partner l.val)) = x.frm ∧
      (s.get (K.laneFState (partner l.val)) < 2 → t.get (K.laneFState (partner l.val)) = 3) ∧
      t.acq.takeovers = s.acq.takeovers.filter (fun y => decide (y.lane ≠ l.val))) ∧
    (s.fn < x.frm → exec (.laneTakeover l) s = .next s)) ∧
  (∀ (ch : Fin 256) (s : State) (c : RangeCtl), c = tget {} s.acq.rng ch.val →
    (400 ≤ c.since → s.cfg s.fn (K.chRangeMode ch.val) = 0 →
      ∃ t, exec (.rangeCrossingTimeout ch) s = .next t ∧ Frame (writes (.rangeCrossingTimeout ch)) s t ∧
        (∀ w, w = rangeDecide c.want c.before (s.cfg s.fn (K.chGainLow ch.val)) (s.cfg s.fn (K.chGainHigh ch.val)) →
          t.acq = { s.acq with rng := tset {} s.acq.rng ch.val { c with want := w && !c.clip, crossed := true, since := 0, peak := c.last } }) ∧
        t.live (K.chLastPeak ch.val) = lastPeak c.before (s.cfg s.fn (K.chGainLow ch.val))) ∧
    (c.since < 400 → exec (.rangeCrossingTimeout ch) s = .next s))

/-- The Tannery.  In RUN the oldest aligned frame leaves RING-1 and its results enter RING-3, with the cycles that the cores took (R111, R23); without
credit in RING-3 or RING-2 it waits and the stall counts (R15).  The end of a half-cycle window that the timer made is handled and leaves its
list (R110).  Core 1 posts the result of the oldest closed harmonic window of an input into RING-4, counts a stall without room, and drops a
window of an input whose harmonics are off or whose reference is not locked (R145, R160, R14).  A 10 s interval ends with a frequency for each channel that was locked through it, from
its whole cycles, and 0 for the others (R142). -/
def Obligations.TanneryComputesFrames : Prop :=
  (∀ (c0 c1 : Nat) (fr : AFrame) (l : List AFrame) (s : State), s.aln.ring1 = fr :: l → s.mode = .run →
    (tanneryStall s fr.fn = none → ∃ t, exec (.tanneryFrameCompute c0 c1) s = .next t ∧ Frame (writes (.tanneryFrameCompute c0 c1)) s t ∧
      t.aln = { s.aln with ring1 := l } ∧ (∃ r, t.tan.ring3.getLast? = some r ∧ r.fn = fr.fn ∧ r.lost = fr.lost ∧ r.done = 0) ∧
      t.live (K.peak 0) = c0 % 2 ^ 32 ∧ t.live (K.peak 1) = c1 % 2 ^ 32) ∧
    (∀ r, tanneryStall s fr.fn = some r → exec (.tanneryFrameCompute c0 c1) s = .next (s.bump (K.stalls r)))) ∧
  (∀ (c0 c1 : Nat) (fr : AFrame) (l : List AFrame) (s : State), s.aln.ring1 = fr :: l → s.mode = .recovery →
    ∃ t, exec (.tanneryFrameCompute c0 c1) s = .next t ∧ Frame (writes (.tanneryFrameCompute c0 c1)) s t ∧ t.aln = { s.aln with ring1 := l } ∧
      t.tan.ring3 = s.tan.ring3) ∧
  (∀ (v : Fin 12) (e : HalfEnd) (l : List HalfEnd) (s : State), (tget {} s.tan.zc v.val).due = e :: l →
    ∃ t, exec (.halfCycleTimeout v) s = .next t ∧ Frame (writes (.halfCycleTimeout v)) s t ∧ (tget {} t.tan.zc v.val).due = l ∧
      (tget {} t.tan.zc v.val).openZc = some e.at_) ∧
  (∀ (i : Input) (w : HWin) (ws : List HWin) (s : State), s.mode = .run → (tget {} s.tan.harm (inputNum i)).ready = w :: ws →
    (winCounts s (inputNum i) w = true → ring4Used s < 2 * harmInputs s w.fn →
      ∃ t r, exec (.harmonicWindowClose i) s = .next t ∧ Frame (writes (.harmonicWindowClose i)) s t ∧ t.tan.ring4 = s.tan.ring4 ++ [r] ∧ r.inp = inputNum i ∧
        r.fn = w.fn ∧ (tget {} t.tan.harm (inputNum i)).ready = ws) ∧
    (winCounts s (inputNum i) w = true → 2 * harmInputs s w.fn ≤ ring4Used s → exec (.harmonicWindowClose i) s = .next (s.bump (K.stalls 4))) ∧
    (winCounts s (inputNum i) w = false →
      ∃ t, exec (.harmonicWindowClose i) s = .next t ∧ Frame (writes (.harmonicWindowClose i)) s t ∧ t.tan.ring4 = s.tan.ring4 ∧
        (tget {} t.tan.harm (inputNum i)).ready = ws)) ∧
  (∀ (e : Nat) (s : State), s.tan.ivalEnd = some e →
    ∃ t, exec .freq10sIntervalEnd s = .next t ∧ Frame [.dict, .due, .tan] s t ∧ t.tan.ivalEnd = none ∧
      ∀ v z, v < 12 → z = tget {} s.tan.zc v →
        (tget {} t.tan.zc v).f10Cnt = 0 ∧ (tget {} t.tan.zc v).f10Bad = !z.locked ∧
        (∀ a b, z.f10First = some a → z.f10Last = some b → z.f10Bad = false → a < b →
          t.live (K.vFreq10s v) = (odiv (((z.f10Cnt : Int) - 1) * tapsPerS * 1000000) (b - a)).toNat) ∧
        (z.f10Bad = true ∨ z.f10First = none ∨ z.f10Last = none → t.live (K.vFreq10s v) = 0)) ∧
  (∀ s : State, s.tan.ivalEnd = none → exec .freq10sIntervalEnd s = .next s)


/-- Lanes and voltage channels.  The degraded table of a partner fills the 128 conversions of a sample period exactly, whatever inputs are enabled
(R67, R51).  The rotation list has three steps for each gain in use and two more (R57), and some gain is always in use.  A voltage sample is held
within Q1.47 and flagged CLIP exactly at magnitude 1.0 (R45); with credit it enters RING-0, and without credit its frame is FRAME-LOST and counted
(R15, R18).  A coefficient moves toward its target by no more than its step and stops there (R89). -/
def Obligations.LanesAndVoltages : Prop :=
  (∀ (s : State) (f p : Nat), sumN ((degradedTable s f p).map (fun e => e.discard + e.rep)) = 128) ∧
  (∀ gains : List Nat, (rotationList gains).length = 3 * gains.length + 2) ∧
  (∀ (s : State) (f l : Nat) (tab : List Entry), gainsInUse s f l tab ≠ [] ∧ ∀ g ∈ gainsInUse s f l tab, g < 6) ∧
  (∀ x : Int, -(2 ^ 47) ≤ (voltClamp x).1 ∧ (voltClamp x).1 < 2 ^ 47 ∧ ((voltClamp x).2 = true ↔ 2 ^ 47 ≤ x ∨ x ≤ -(2 ^ 47)) ∧
    (-(2 ^ 47) ≤ x → x < 2 ^ 47 → (voltClamp x).1 = x)) ∧
  (∀ (f g v : Nat) (c : VoltConv) (s : State), s.cfg f (K.vEnable v) = 1 →
    (0 < free0 s → ∃ e, voltEmit f g v c s = { s with acq := { s.acq with ring0V := s.acq.ring0V ++ [e] } } ∧ e.g = g ∧ e.v = v ∧
      e.value = (voltClamp c.value).1 ∧ e.clip = (voltClamp c.value).2) ∧
    (free0 s = 0 → f ∉ s.acq.lost → f ∈ (voltEmit f g v c s).acq.lost ∧ (voltEmit f g v c s).acq.ring0V = s.acq.ring0V ∧
      (voltEmit f g v c s).get K.lostFrames = (s.get K.lostFrames + 1) % 2 ^ oBits K.lostFrames)) ∧
  (∀ x t d : Int, 0 ≤ d → x - d ≤ stepTo x t d ∧ stepTo x t d ≤ x + d ∧ (x - d ≤ t → t ≤ x + d → stepTo x t d = t) ∧
    (x ≤ t → x ≤ stepTo x t d ∧ stepTo x t d ≤ t) ∧ (t ≤ x → t ≤ stepTo x t d ∧ stepTo x t d ≤ x))

/-- TOTAL is the sum of the tariff sets (R115, R116, R173): where a circuit's TOTAL of every kind equals the sum of its sets, it still does
after any entries of a frame, and has grown by exactly the entries of that kind, modulo 2^104; the registers of other circuits stay. -/
def Obligations.TotalIsSumOfSets : Prop :=
  ∀ (f c : Nat) (es : List Ent) (s : State), c < 256 → (getC s c).tariff.getD 0 < 8 → (∀ e ∈ es, e.kind < 8) →
    (∀ k, k < 8 → setSum s c k = regTot s c (64 + k)) →
    (∀ k, k < 8 → setSum (enterAll f c es s) c k = regTot (enterAll f c es s) c (64 + k) ∧
      (regTot (enterAll f c es s) c (64 + k) : Int) =
        ((regTot s c (64 + k) : Int) + sumI (es.map (fun e => if e.kind = k then e.amt else 0))) % 2 ^ 104) ∧
    (∀ d i, d < 256 → d ≠ c → i < 72 → regTot (enterAll f c es s) d i = regTot s d i)

/-- The Hallmark core works on the oldest frame.  Before frame G a frame is published without accrual (R125, R193).  From frame G on its next
result is accrued: each entry of its decision units, after the gate and creep, reaches the register of its kind in the circuit's tariff set and in
TOTAL, and no register of another circuit changes (R112, R115, R116, R119, R120); the last one completes the frame, which leaves the queue for the
publisher, and the core turns to the next frame (R11).  BOUNDARY_FRAME takes the boundary steps of a frame once, before its first entry: a period
that CLOSE_NOW has marked, and that has room for its circuits, closes with its record and its number, and the boundary record shows steps 1 to 4 done
(R184, R189, R190).  While a page-store request of the core waits for RING-6 it does nothing (R15). -/
def Obligations.FramesAreAccrued : Prop :=
  (∀ (cyc : Nat) (s : State), s.rollq ≠ [] → exec (.hallmarkAccrue cyc) s = .next s ∧ exec .boundaryFrame s = .next s) ∧
  (∀ (cyc : Nat) (fr : R3) (later : List R3) (s : State), s.mode = .run → s.rollq = [] → workQueue s = fr :: later →
    (s.bill.g = none ∨ (∃ g, s.bill.g = some g ∧ fr.fn < g) → s.pwr.gap = none →
      ∃ t p, exec (.hallmarkAccrue cyc) s = .next t ∧ Frame (writes (.hallmarkAccrue cyc)) s t ∧ t.staging = s.staging ++ [p] ∧ p.fn = fr.fn ∧
        p.late = false ∧ workQueue t = later ∧ t.bill.cct = s.bill.cct) ∧
    (∀ g r, s.bill.g = some g → g ≤ fr.fn → s.bill.begun = true → fr.ccts[fr.done]? = some r → r.missing = false →
      (fr.done + 1 < fr.ccts.length → ∃ t x, exec (.hallmarkAccrue cyc) s = .next t ∧ Frame (writes (.hallmarkAccrue cyc)) s t ∧
        workQueue t = x :: later ∧ x.fn = fr.fn ∧ x.ccts = fr.ccts ∧ x.done = fr.done + 1 ∧ t.staging = s.staging) ∧
      (fr.ccts.length ≤ fr.done + 1 → ∃ t p, exec (.hallmarkAccrue cyc) s = .next t ∧ Frame (writes (.hallmarkAccrue cyc)) s t ∧
        workQueue t = later ∧ t.bill.next = fr.fn + 1 ∧ t.bill.begun = false ∧ t.staging = s.staging ++ [p] ∧ p.fn = fr.fn)) ∧
    (∀ g r, s.bill.g = some g → g < fr.fn → s.bill.begun = true → fr.ccts[fr.done]? = some r → r.missing = false → r.c < 256 →
      fr.done + 1 < fr.ccts.length → (getC s r.c).tariff.getD 0 < 8 → (∀ i, i < 72 → regTot s r.c i < 2 ^ 104) →
      ∀ vs es, vs = (if gateOpen s fr.fn r.c (getC s r.c).since then
          (unitsOf s fr.fn r).map (unitVal (s.cfg fr.fn (K.cctEnergyK r.c)) (s.cfg fr.fn (K.cctCreep r.c)))
        else (unitsOf s fr.fn r).map (fun _ => ⟨0, 0, 0, false, false⟩)) →
      es = (vs.map (fun v => unitEnts (s.cfg fr.fn (K.cctMode r.c)) v.ep v.eq v.es)).flatten →
      ∃ t, exec (.hallmarkAccrue cyc) s = .next t ∧ Frame (writes (.hallmarkAccrue cyc)) s t ∧
        (∀ k, k < 8 → ∀ i, i = 64 + k ∨ i = 8 * (getC s r.c).tariff.getD 0 + k →
          (regTot t r.c i : Int) = ((regTot s r.c i : Int) + sumI (es.map (fun e => if e.kind = k then e.amt else 0))) % 2 ^ 104) ∧
        (∀ d i, d < 256 → d ≠ r.c → i < 72 → regTot t d i = regTot s d i)) ∧
    (∀ g, s.bill.g = some g → g ≤ fr.fn → s.bill.begun = false →
      ∃ t, exec .boundaryFrame s = .next t ∧ Frame (writes .boundaryFrame) s t ∧ t.bill.begun = true ∧ t.bill.next = fr.fn ∧
        ∀ sc, sc < 4 → (∃ e ∈ s.bill.closes, bit e.1 sc = true ∧ e.2 ≤ fr.fn) → (∀ w ∈ s.bill.waits, ¬(w.kind = 0 ∧ w.id = sc)) →
          commitAt s fr.fn = false → s.bill.steps = [] →
          (∀ c ∈ schedCcts s fr.fn sc, (getC s c).slotA = none ∨ (getC s c).slotB = none) →
          (∃ h ∈ t.bill.hist, h.sched = sc ∧ h.period = s.get (K.bpPeriodNo sc) ∧ h.fn = fr.fn) ∧
          t.get (K.bpPeriodNo sc) = (s.get (K.bpPeriodNo sc) + 1) % 2 ^ 32 ∧
          (∀ e ∈ t.bill.closes, e.2 ≤ fr.fn → bit e.1 sc = false) ∧ t.get K.boundaryFn = fr.fn ∧ t.get K.stepsDone = 15) ∧
    (∀ g, s.bill.g = some g → fr.fn < g ∨ s.bill.begun = true → exec .boundaryFrame s = .next s))

/-- Events of metering.  DIRECTION flips after 1,024 frames of the opposite sign, and REVERSALS counts it (R118).  BALANCE RATE is four times the
increase of UNACCOUNTED over 900 s in W, held to 32 bits (R132).  The WIRING check runs once per start, shows WIRING_NOW, and raises the WIRING
cause where the wiring differs from WIRING_REF, or records it after a RESUME (R196, R198).  Stale state begins with the frame after its cause
(R197).  CAL_EN stable for 16 samples enters or leaves calibration state; leaving releases BG_HOLD but for a COMMIT of it whose
B is still to come (R94, R97, R98, R35).  CLOSE_NOW closes the schedules of its mask at the next
frame, and is answered RANGE for a mask of none or more than four (R184). -/
def Obligations.MeteringEvents : Prop :=
  (∀ (c : Fin 256) (s : State),
    (1024 ≤ (getC s c.val).dirCnt → ∃ t, exec (.directionChange c) s = .next t ∧ Frame (writes (.directionChange c)) s t ∧
      t.live (K.cctDirection c.val) = 1 - s.live (K.cctDirection c.val) % 2 ∧ (getC t c.val).dirCnt = 0 ∧
      t.get (K.cctReversals c.val) = (s.get (K.cctReversals c.val) + 1) % 2 ^ oBits (K.cctReversals c.val)) ∧
    ((getC s c.val).dirCnt < 1024 → exec (.directionChange c) s = .next s)) ∧
  (∀ (a b : Int) (s : State), s.bill.rateDue = true → s.bill.unacc.head? = some a → s.bill.unacc[900]? = some b → s.live K.balState ≠ 0 →
    ∃ t, exec .balanceRate s = .next t ∧ Frame (writes .balanceRate) s t ∧ t.bill = { s.bill with rateDue := false } ∧
      ∀ rate th : Int, rate = clampI (-(2 ^ 31)) (2 ^ 31 - 1) (odiv ((a - b) * 4) (1000 * 2 ^ 40)) →
        th = s.cfg (s.bill.next - 1) K.balThreshold → t.live K.balRate = ofInt 32 rate ∧
        (th < rate → t.live K.balState = 2) ∧ (rate < -th → t.live K.balState = 3) ∧
        (5 * mag rate ≤ 4 * th → t.live K.balState = (if s.live K.balState = 2 ∨ s.live K.balState = 3 then 1 else s.live K.balState))) ∧
  (∀ s : State, s.mode = .run → s.bill.wired = false → wiringDue s = true → ∀ now ref, now = wiringBytes s → ref = le 16 (s.get K.wiringRef) →
    ∃ t, exec .wiringCheck s = .next t ∧ Frame (writes .wiringCheck) s t ∧ t.bill.wired = true ∧ t.get K.wiringNow = ofLe now ∧
      (s.bill.wireRef = true → t.get K.wiringRef = ofLe now ∧ t.bill.wireRef = false ∧ t.get K.cause = s.get K.cause) ∧
      (s.bill.wireRef = false → hasWiringRef ref = true → bandDiffers ref now = true ∨ anglesDiffer s ref now = true →
        bit (t.get K.cause) 1 = true ∧ t.get K.wiringRef = s.get K.wiringRef) ∧
      (s.bill.wireRef = false → hasWiringRef ref = false ∨ (bandDiffers ref now = false ∧ anglesDiffer s ref now = false) →
        t.get K.cause = s.get K.cause ∧ t.bill.staleAt = s.bill.staleAt)) ∧
  (∀ s : State, s.mode ≠ .run ∨ s.bill.wired = true ∨ wiringDue s = false → exec .wiringCheck s = .next s) ∧
  (∀ (a : Nat) (s : State), s.bill.staleAt = some a → s.bill.staleTo = none → s.mode = .run → s.live K.stale = 0 →
    (a ≤ s.fn → ∃ t, exec .staleEnter s = .next t ∧ Frame (writes .staleEnter) s t ∧ t.live K.stale = 1 ∧ bit t.spi.causes 9 = true) ∧
    (s.fn < a → exec .staleEnter s = .next s)) ∧
  (∀ s : State, 16 ≤ s.dev.calRun → s.live K.calEnLevel ≠ s.live K.calState →
    ∃ t, exec .calStateChange s = .next t ∧ Frame (writes .calStateChange) s t ∧ bit t.spi.causes 8 = true ∧
      (s.live K.calEnLevel = 1 → t.live K.calState = 1 ∧ t.get K.repaired ≠ 0 ∧ bit (t.get K.cause) 2 = true ∧
        t.get K.calEntries = (s.get K.calEntries + 1) % 2 ^ oBits K.calEntries) ∧
      (s.live K.calEnLevel ≠ 1 → t.live K.calState = 0 ∧ t.get K.calEntries = s.get K.calEntries ∧
        ((∀ c ∈ s.commits, s.fn < c.b → ∀ g ∈ c.chg, g.key ≠ K.bgHold) → t.get K.bgHold = 0) ∧
        ((∃ c ∈ s.commits, s.fn < c.b ∧ ∃ g ∈ c.chg, g.key = K.bgHold) → t.get K.bgHold = s.get K.bgHold))) ∧
  (∀ s : State, s.dev.calRun < 16 ∨ s.live K.calEnLevel = s.live K.calState → exec .calStateChange s = .next s) ∧
  (∀ (i : Fin 48) (q : Tag) (o : Op) (s : State) (m : Nat), Calls s (.closeNow i) i q o → m = at_ o.data 0 1 →
    ∃ t, exec (.closeNow i) s = .next t ∧ Frame (writes (.closeNow i)) s t ∧
      (m = 0 ∨ 16 ≤ m → Replies t i.val q o 0x32 [] ∧ Frame [.srv] s t) ∧
      (m ≠ 0 → m < 16 → Replies t i.val q o 0 (le 6 (s.fn + 1)) ∧ t.bill = { s.bill with closes := s.bill.closes ++ [(m, s.fn + 1)] } ∧
        t.get K.txnLegalCommits = (s.get K.txnLegalCommits + 1) % 2 ^ oBits K.txnLegalCommits))

/-- Consumers of the Hallmark core.  A boundary event whose forced roll is sealed is ready, and others wait on (R191).  The record of a profile interval
enters RING-7, or the overflow list with the stall counted (R353, R15).  The publisher seals the oldest complete staging buffer with the credit
that each ring has left (R23, R14).  Credit that returns lets posts go on (R15).  A pulse starts once it is due and the inactive time is over, lasts
WIDTH, and is followed by at least WIDTH of inactive time (R209). -/
def Obligations.RollsPulsesAndRings : Prop :=
  (∀ s : State, ∃ t, exec .forcedRollComplete s = .next t ∧ Frame (writes .forcedRollComplete) s t ∧
    t.bill = { s.bill with waits := s.bill.waits.map (fun w =>
      if (waitCcts s w).all (rollDone s) then { w with ready := true } else w) }) ∧
  (∀ (r : Nat × Bytes) (l : List (Nat × Bytes)) (s : State), s.mode = .run → s.rollq = [] → s.bill.profDue = r :: l →
    ∃ t, exec .profileIntervalEnd s = .next t ∧ Frame [.dict, .bill] s t ∧ t.bill.profDue = l ∧
      (s.bill.over7 = [] → s.bill.ring7.length < 8 → t.bill = { s.bill with profDue := l, ring7 := s.bill.ring7 ++ [r] } ∧ t.dict = s.dict) ∧
      (s.bill.over7 ≠ [] ∨ 8 ≤ s.bill.ring7.length → t.bill.ring7 = s.bill.ring7 ∧ t.bill.over7.getLast? = some r ∧
        t.get (K.stalls 7) = (s.get (K.stalls 7) + 1) % 2 ^ oBits (K.stalls 7))) ∧
  (∀ (q : Snap) (l : List Snap) (s : State), s.mode = .run → s.staging = q :: l →
    ∃ t vals, exec .publisherSeal s = .next t ∧ Frame (writes .publisherSeal) s t ∧ t.staging = l ∧
      t.sealed = s.sealed ++ [{ q with vals := vals }] ∧
      ∀ r, r < 16 → t.get (K.credits r) = ringCredit s s.fn r - ringUsed s r) ∧
  (∀ (p : Port) (s : State),
    (∀ r, r.val ∉ [6, 7, 12, 13, 14, 15] → exec (.ringCreditAvailable r p) s = .next s) ∧
    (∀ r l, s.bill.over7 = r :: l → s.bill.ring7.length < 8 →
      exec (.ringCreditAvailable 7 p) s = .next { s with bill := { s.bill with over7 := l, profGap := 0, ring7 := s.bill.ring7 ++ [r] } }) ∧
    (∃ t, exec (.ringCreditAvailable 6 p) s = .next t ∧ Frame (writes (.ringCreditAvailable 6 p)) s t ∧
      t.rollq = s.rollq.drop (128 - hallJobs s) ∧ t.jobs.map (fun j => j.page) = s.jobs.map (fun j => j.page) ++ s.rollq.take (128 - hallJobs s)) ∧
    (∀ x l, s.plc.ring14 = x :: l → x.dest = none → x.on = true →
      ∃ t, exec (.ringCreditAvailable 14 p) s = .next t ∧ Frame (writes (.ringCreditAvailable 14 p)) s t ∧
        (t.plc.ring14 ++ t.plc.queue).map (fun y => (y.dest, y.next, y.msg, y.fn, y.hops)) =
          (l ++ s.plc.queue).map (fun y => (y.dest, y.next, y.msg, y.fn, y.hops)) ∧
        (s.plc.str.busy = true → t.plc.ring14 ++ t.plc.queue = l ++ s.plc.queue) ∧ t.live K.plcTxFrames = (s.live K.plcTxFrames + 1) % 2 ^ oBits K.plcTxFrames)) ∧
  (∀ (i : Fin 8) (s : State) (o : PulseOut), o = tget {} s.pulse.out i.val → s.mode = .run → s.cfg s.fn (K.poEnable i.val) = 1 →
    (∀ e es, o.due = e :: es → e ≤ nowPeriod s → o.high = none → o.idle ≤ nowPeriod s →
      ∃ t, exec (.pulseStart i) s = .next t ∧ Frame [.dict, .olds, .pulse] s t ∧
        tget {} t.pulse.out i.val =
          { o with due := es, high := some (nowPeriod s + widthPeriods (s.cfg s.fn (K.poWidth i.val)) false) } ∧
        t.get (K.poCount i.val) = (s.get (K.poCount i.val) + 1) % 2 ^ oBits (K.poCount i.val)) ∧
    (∀ e es, o.due = e :: es → nowPeriod s < e ∨ o.high ≠ none ∨ nowPeriod s < o.idle → exec (.pulseStart i) s = .next s)) ∧
  (∀ (i : Fin 8) (s : State) (o : PulseOut) (e : Nat), o = tget {} s.pulse.out i.val → o.high = some e →
    (e ≤ nowPeriod s → ∃ t, exec (.pulseEnd i) s = .next t ∧ Frame [.pulse] s t ∧
      tget {} t.pulse.out i.val = { o with high := none, idle := e + widthPeriods (s.cfg s.fn (K.poWidth i.val)) true }) ∧
    (nowPeriod s < e → exec (.pulseEnd i) s = .next s))


/-! ### Checks of units -/

/-- Scheduled and extra checks (R215, R224, R226, R227): a failed check lets FAIL_RUN grow and PASS_RUN fall to 0; an OK unit becomes SUSPECT with the
cause of its first failed part, an extra check follows 16 frames later, and at RETIRE_RUN failures in a row the unit is RETIRED.  A passed check
is the reverse, and at OK_RUN passes a SUSPECT unit is OK again.  A modulator that reports instability is noted (R227).  A port block that fails
its watchdog is SUSPECT until its self-test passes, and RETIRED after three failures in a row (R233).  A power-line neighbour SUSPECT for
ROUTE_TIMEOUT is RETIRED and no next hop any more (R232). -/
def Obligations.ChecksRetireUnits : Prop :=
  (∀ (ch : Fin 256) (s : State) (n : Nat) (stuck : Bool), n = ch.val → chanReady s n = true → s.fn % 128 = 0 → s.fn / 128 % 8 = n % 8 →
    tget 0 s.acq.lastChk n ≠ s.fn + 1 → stuck = stuckFails s s.fn n →
    ∃ t, exec (.channelCheck ch) s = .next t ∧ Frame (writes (.channelCheck ch)) s t ∧
      (n ∉ s.acq.openFail → stuck = false → t.get (K.chFFailRun n) = 0 ∧
        (s.get (K.chFState n) = 1 → s.cfg s.fn K.chOkRun ≤ s.get (K.chFPassRun n) + 1 → t.get (K.chFState n) = 0) ∧
        (s.get (K.chFState n) ≠ 1 ∨ s.get (K.chFPassRun n) + 1 < s.cfg s.fn K.chOkRun → t.get (K.chFState n) = s.get (K.chFState n))) ∧
      (n ∈ s.acq.openFail ∨ stuck = true → t.get (K.chFPassRun n) = 0 ∧
        t.get (K.chFFailRun n) = (s.get (K.chFFailRun n) + 1) % 2 ^ oBits (K.chFFailRun n) ∧
        (s.cfg s.fn K.chRetireRun ≤ s.get (K.chFFailRun n) + 1 → t.get (K.chFState n) = 2 ∧ t.get (K.chFStateFn n) = s.fn) ∧
        (s.get (K.chFFailRun n) + 1 < s.cfg s.fn K.chRetireRun → t.acq.extra = s.acq.extra ++ [(n, s.fn + 16)] ∧ t.get (K.chFState n) = 1 ∧
          (s.get (K.chFState n) ≠ 1 → t.get (K.chFCause n) = (if n ∈ s.acq.openFail then 5 else 6))))) ∧
  (∀ (ch : Fin 256) (cm : Int) (s : State) (n : Nat), n = ch.val → chanReady s n = true → extraNow s n = true →
    ∃ t, exec (.channelExtraCheck ch cm) s = .next t ∧ Frame (writes (.channelExtraCheck ch cm)) s t ∧
      t.live (K.chFCmLast n) = ofInt (oBits (K.chFCmLast n)) cm ∧
      (mag cm ≤ s.cfg s.fn K.cmLimit → stuckFails s s.fn n = false → t.get (K.chFFailRun n) = 0 ∧
        ∀ e ∈ t.acq.extra, e.1 = n → s.fn < e.2) ∧
      ((s.cfg s.fn K.cmLimit : Int) < mag cm → n ∈ t.acq.openFail ∧ t.get (K.chFPassRun n) = 0 ∧
        (s.cfg s.fn K.chRetireRun ≤ s.get (K.chFFailRun n) + 1 → t.get (K.chFState n) = 2))) ∧
  (∀ (v : Fin 12) (cm : Int) (s : State) (cause : Nat), s.mode = .run → s.cfg s.fn (K.vEnable v.val) = 1 → s.get (K.vFState v.val) ≠ 2 →
    8 < s.acq.period → s.fn % 1024 = 512 + 8 * v.val → tget 0 s.acq.lastChk (256 + v.val) ≠ s.fn + 1 →
    cause = (if (s.cfg s.fn K.cmLimit : Int) < mag cm then 5 else if stuckFails s s.fn (256 + v.val) then 6
      else if unstableFails s s.fn v.val then 7 else 0) →
    ∃ t, exec (.voltageCheck v cm) s = .next t ∧ Frame (writes (.voltageCheck v cm)) s t ∧
      (cause = 0 → t.get (K.vFFailRun v.val) = 0) ∧
      (cause ≠ 0 → t.get (K.vFPassRun v.val) = 0 ∧
        (s.cfg s.fn K.chRetireRun ≤ s.get (K.vFFailRun v.val) + 1 → t.get (K.vFState v.val) = 2 ∧ t.get (K.vFCause v.val) = cause) ∧
        (s.get (K.vFFailRun v.val) + 1 < s.cfg s.fn K.chRetireRun → t.get (K.vFState v.val) = 1 ∧ (256 + v.val, s.fn + 16) ∈ t.acq.extra))) ∧
  (∀ (v : Fin 12) (s : State), s.mode = .run → s.cfg s.fn (K.vEnable v.val) = 1 →
    ∃ t, exec (.modulatorInstability v) s = .next t ∧ Frame [.aln] s t ∧ (tget {} t.aln.streams (256 + v.val)).unstable = some s.fn ∧
      ∀ k, k ≠ 256 + v.val → tget {} t.aln.streams k = tget {} s.aln.streams k) ∧
  (∀ (p : Port) (s : State), p = .t1s ∨ p = .plc → s.mode = .run → portOff s p = false →
    (∃ t, exec (.portWatchdog p true) s = .next t ∧ Frame (writes (.portWatchdog p true)) s t ∧ t.get (K.portState (portNo p)) = 0 ∧
      (portUnit t (portNo p)).fail = 0 ∧ t.t1s = s.t1s ∧ t.plc = s.plc) ∧
    (∃ t, exec (.portWatchdog p false) s = .next t ∧ Frame (writes (.portWatchdog p false)) s t ∧
      ((portUnit s (portNo p)).fail < 2 → s.get (K.portState (portNo p)) = 0 → t.get (K.portState (portNo p)) = 1 ∧
        (portUnit t (portNo p)).fail = (portUnit s (portNo p)).fail + 1) ∧
      (2 ≤ (portUnit s (portNo p)).fail → t.get (K.portState (portNo p)) = 2))) ∧
  (∀ (j : Fin 64) (n : Nbr) (s : State), tget none s.plc.nbr j.val = some n → s.mode = .run → n.state = 1 →
    (n.since + 1024 * s.cfg s.fn K.routeTimeout ≤ s.fn →
      ∃ t, exec (.routeRetire j) s = .next t ∧ Frame (writes (.routeRetire j)) s t ∧ tget none t.plc.nbr j.val = some { n with state := 2 } ∧
        t.get K.routesRetired = (s.get K.routesRetired + 1) % 2 ^ oBits K.routesRetired ∧
        ∀ k r, tget none t.plc.route k = some r → r.next ≠ n.addr) ∧
    (s.fn < n.since + 1024 * s.cfg s.fn K.routeTimeout → exec (.routeRetire j) s = .next s))

/-! ### The power line -/

/-- The power-line port.  A frame enters RING-15 and waits there while the operational core is not ready; without credit it is discarded and the stall
counted (R15).  The stack counts frames and takes them by their kind: those without the MAC security that they need, and unimplemented ones, are
discarded, Bridle datagrams for a joined unit await their authentication and others are discarded, a coordinator's removal leaves the PAN and erases its key, and a route error
removes the routes to its destination (R297, R316, R321, R322).  Which kinds need MAC security is presumed (log 94).  A scan reports the PANs found and,
with a pre-shared key, chooses the one of the lowest route cost; joining gives its PAN and the address, a failed bootstrap is repeated after 20 s, and
without a pre-shared key Ozmar only scans (R299).  Transmissions that have started end acknowledged or failed, and are counted (R316, R232);
frames that wait 30 s for a route are dropped (R316); tone maps are asked for every 120 s (R300), but of no RETIRED neighbour.  OFFERING follows its conditions, and established routes are kept for ROUTE_HOLD after it (R317).  Two 1 ms
blocks at STRANGER_LVL begin a busy-foreign episode, in which no frame starts, five below 70 % end it, and a transmission deferred for
STRANGER_MAX starts (R318). -/
def Obligations.PowerLineWorks : Prop :=
  (∀ (f : PlcFrame) (s : State), plcOn s = true → s.ready = false →
    (s.plc.ring15.length < 16 → exec (.plcFrameReceive f) s = .next { s with plc := { s.plc with ring15 := s.plc.ring15 ++ [f] } }) ∧
    (16 ≤ s.plc.ring15.length → exec (.plcFrameReceive f) s = .next (s.bump (K.stalls 15)))) ∧
  (∀ (f : PlcFrame) (s : State), plcUp s = true → s.plc.ring15 = [] →
    ∃ t, exec (.plcFrameReceive f) s = .next t ∧ Frame (writes (.plcFrameReceive f)) s t ∧ t.plc.ring15 = [] ∧
      (f.secured = false → needsSecurity f.kind = true → t.live K.plcRxFrames = (s.live K.plcRxFrames + 1) % 2 ^ oBits K.plcRxFrames ∧
        t.live K.plcRxDiscarded = (s.live K.plcRxDiscarded + 1) % 2 ^ oBits K.plcRxDiscarded ∧ t.srv = s.srv ∧ t.plc = s.plc) ∧
      (f.kind = .unimplemented → t.live K.plcRxFrames = (s.live K.plcRxFrames + 1) % 2 ^ oBits K.plcRxFrames ∧
        t.live K.plcRxDiscarded = (s.live K.plcRxDiscarded + 1) % 2 ^ oBits K.plcRxDiscarded ∧ t.srv = s.srv) ∧
      (∀ d, f.kind = .datagram d → f.secured = true → plcState s = 3 →
        (badDatagram d = true → t.live K.plcRxDiscarded = (s.live K.plcRxDiscarded + 1) % 2 ^ oBits K.plcRxDiscarded ∧ t.srv = s.srv) ∧
        (badDatagram d = false → plcOwn s d.dst = false → t.srv = s.srv) ∧
        (badDatagram d = false → plcOwn s d.dst = true →
          ∃ r, t.srv = { s.srv with net := s.srv.net ++ [r] } ∧ r.port = .plc ∧ r.addr = d.src ∧ r.sport = d.srcPort ∧ r.bytes = d.payload ∧
            r.fn = s.fn)) ∧
      (f.kind = .other → plcState s = 3 → ∃ j n, tget none t.plc.nbr j = some n ∧ n.addr = f.sender ∧ n.rev = f.lqi % 256 ∧ n.lastFn = s.fn) ∧
      (∀ c, f.kind = .kicked c → f.secured = true → plcState s = 3 → t.live K.plcState = 1 ∧ t.live K.plcPanId = 0xFFFF ∧ t.plc.gmk = none ∧
        t.plc.ring14 = (s.plc.ring14.take 1).filter (fun x => x.on)) ∧
      (∀ d, f.kind = .routeError d → f.secured = true → ∀ k r, tget none t.plc.route k = some r → r.dest ≠ d)) ∧
  (∀ (r : JoinResult) (s : State), plcUp s = true → plcState s ≠ 3 → s.plc.retry = none →
    ∃ t, exec (.plcJoin r) s = .next t ∧ Frame (writes (.plcJoin r)) s t ∧
      (r = .noPan → t.live K.plcState = 1 ∧ t.plc = { s.plc with pans := [], cand := none }) ∧
      (∀ l, r = .beacons l → t.plc.pans = l ∧
        (l = [] ∨ hasPsk s = false → t.live K.plcState = 1 ∧ t.plc.cand = none) ∧
        (l ≠ [] → hasPsk s = true → t.live K.plcState = 2 ∧ ∃ b ∈ l, t.plc.cand = some b ∧ ∀ c ∈ l, b.cost ≤ c.cost)) ∧
      (r = .failed → s.plc.cand ≠ none → t = { s with plc := { s.plc with retry := some (s.fn + 20480) } }) ∧
      (∀ a c, r = .joined a → s.plc.cand = some c → hasPsk s = true → t.live K.plcState = 3 ∧ t.live K.plcPanId = c.pan % 65536 ∧
        t.live K.plcShortAddr = a % 65536 ∧ t.plc.gmk ≠ none ∧ t.get K.plcJoins = (s.get K.plcJoins + 1) % 2 ^ oBits K.plcJoins) ∧
      (∀ a, r = .joined a → s.plc.cand = none ∨ hasPsk s = false → t = s)) ∧
  (∀ (f : Nat) (s : State), s.plc.retry = some f → plcUp s = true →
    (f ≤ s.fn → ∃ t, exec .joinRetry s = .next t ∧ Frame [.dict, .chg, .plc] s t ∧ t.plc = { s.plc with retry := none } ∧
      t.live K.plcState = 2) ∧
    (s.fn < f → exec .joinRetry s = .next s)) ∧
  (∀ (ack : Bool) (n : Fin 6) (x : PTx) (l : List PTx) (s : State), s.mode = .run → s.plc.ring14 = x :: l → x.dest ≠ none → x.on = true →
    ∃ t, exec (.plcTxComplete ack n) s = .next t ∧ Frame (writes (.plcTxComplete ack n)) s t ∧
      t.live K.plcTxFrames = (s.live K.plcTxFrames + 1) % 2 ^ oBits K.plcTxFrames ∧
      t.live K.plcRetransmissions = (s.live K.plcRetransmissions + n.val) % 2 ^ 32 ∧
      (ack = true → t.live K.plcTxFailed = s.live K.plcTxFailed ∧ ∀ j m, nbrOf s x.next = some (j, m) →
        ∃ m', tget none t.plc.nbr j = some m' ∧ m'.rtx = (n.val :: m.rtx).take 32 ∧ m'.state = (if m.state = 1 then 0 else m.state)) ∧
      (ack = false → t.live K.plcTxFailed = (s.live K.plcTxFailed + 1) % 2 ^ 32)) ∧
  (∀ (ack : Bool) (n : Fin 6) (s : State), (∀ x ∈ s.plc.ring14.head?, x.on = false) → exec (.plcTxComplete ack n) s = .next s) ∧
  (∀ s : State, plcUp s = true →
    ∃ t, exec .routeWaitExpiry s = .next t ∧ Frame [.dict, .chg, .plc] s t ∧
      t.plc = { s.plc with wait := s.plc.wait.filter (fun x => decide (s.fn < x.fn + 30720)) } ∧
      ((∃ x ∈ s.plc.wait, x.fn + 30720 ≤ s.fn) → t.live K.plcTxFailed =
        (s.live K.plcTxFailed + (s.plc.wait.length - t.plc.wait.length)) % 2 ^ 32) ∧
      ((∀ x ∈ s.plc.wait, s.fn < x.fn + 30720) → t = s)) ∧
  (∀ (j : Fin 64) (n : Nbr) (s : State), tget none s.plc.nbr j.val = some n → plcJoined s = true →
    (n.toneFn + 122880 ≤ s.fn → ∃ t, exec (.toneMapRefresh j) s = .next t ∧ Frame (writes (.toneMapRefresh j)) s t ∧
      tget none t.plc.nbr j.val = some { n with toneFn := s.fn } ∧
      (nbrRetired s n.addr = true → t.plc.ring14 = s.plc.ring14 ∧ t.plc.queue = s.plc.queue) ∧
      (nbrRetired s n.addr = false → ∃ x, x.dest = some n.addr ∧ x.next = n.addr ∧ x.msg = .toneMapRequest ∧ x.on = false ∧
        (t.plc.ring14 ++ t.plc.queue).map (fun y => { y with on := false, atten := 0 }) =
          (s.plc.ring14 ++ s.plc.queue ++ [x]).map (fun y => { y with on := false, atten := 0 }) ∧
        (s.plc.str.busy = true → t.plc.ring14 ++ t.plc.queue = s.plc.ring14 ++ s.plc.queue ++ [x]))) ∧
    (s.fn < n.toneFn + 122880 → exec (.toneMapRefresh j) s = .next s)) ∧
  (∀ s : State, plcUp s = true →
    (b2n (wantsOffer s) ≠ s.live K.lfOffering → ∃ t, exec .repeaterOfferChange s = .next t ∧ Frame (writes .repeaterOfferChange) s t ∧
      t.live K.lfOffering = b2n (wantsOffer s) ∧
      t.plc.offer.hold = (if wantsOffer s then none else some (s.fn + 1024 * s.cfg s.fn K.lfRouteHold))) ∧
    (b2n (wantsOffer s) = s.live K.lfOffering → exec .repeaterOfferChange s = .next s)) ∧
  (∀ (f : Nat) (s : State), s.plc.offer.hold = some f →
    (f ≤ s.fn → exec .routeHoldExpiry s = .next { s with plc := { s.plc with offer := { s.plc.offer with hold := none } } }) ∧
    (s.fn < f → exec .routeHoldExpiry s = .next s)) ∧
  (∀ (mv : Nat) (s : State), plcUp s = true → ∀ x lvl, x = s.plc.str → lvl = s.cfg s.fn K.plcStrangerLvl →
    ∃ t, exec (.strangerBlock mv) s = .next t ∧ Frame (writes (.strangerBlock mv)) s t ∧
      (x.busy = false → mv < lvl → t.plc.str = { x with hi := 0 }) ∧
      (x.busy = false → lvl ≤ mv → x.hi = 0 → t.plc.str = { x with hi := 1 }) ∧
      (x.busy = false → lvl ≤ mv → 1 ≤ x.hi → t.plc.str.busy = true ∧ t.plc.str.len = 0) ∧
      (x.busy = true → 7 * lvl ≤ 10 * mv → t.plc.str.busy = true ∧ t.plc.str.len = x.len + 1 ∧ t.plc.str.lo = 0) ∧
      (x.busy = true → 10 * mv < 7 * lvl → 4 ≤ x.lo → t.plc.str.busy = false ∧
        t.live K.plcStrangerDeferMs = (s.live K.plcStrangerDeferMs + (x.len + 1)) % 2 ^ 32)) ∧
  (∀ s : State, plcUp s = true → s.plc.str.busy = true → plcWaits s = true →
    (s.cfg s.fn K.plcStrangerMax ≤ s.plc.str.wait → ∃ t, exec .strangerForced s = .next t ∧ Frame [.dict, .chg, .plc] s t ∧
      t.plc.str = { s.plc.str with wait := 0 } ∧
      (∀ x l, s.plc.ring14 = x :: l → x.on = false →
        t.plc.ring14 = { x with on := true, atten := attenTo s x.next } :: l ∧ t.plc.ann = s.plc.ann) ∧
      (∀ a, (∀ x ∈ s.plc.ring14.head?, x.on = true) → s.plc.ann = some a →
        t.plc.ring14 = s.plc.ring14 ∧ t.plc.ann = some { a with may := true }) ∧
      t.live K.plcStrangerForced = (s.live K.plcStrangerForced + 1) % 2 ^ oBits K.plcStrangerForced) ∧
    (s.plc.str.wait < s.cfg s.fn K.plcStrangerMax → exec .strangerForced s = .next s))

/-- The network time base.  While Ozmar announces, an announcement of the next cycle, of 32 bytes, goes to the modem every ANNOUNCE_PERIOD (R306, R307),
directly after a cycle starts and before its deadline, and one that could not start by it is built again for the cycle after (R307).  An
announcement received without MAC security, or before Ozmar has joined, is discarded, a leader ignores those of other leaders and counts them,
and any other unit notes their sender (R306, R311).  Ten seconds without an accepted crossing
end HOLDOVER: the time base searches again (R305). -/
def Obligations.NetworkTimeBase : Prop :=
  (∀ (m : Int) (s : State), s.tb.num = some m → announces s = true → s.plc.ann = none →
    (justStarted s m (tbCurrent s m (nowInstant s) + 1 - 1) = true →
      nowInstant s < tbStart s m (tbCurrent s m (nowInstant s) + 1) - twoMs →
      s.plc.annFn = none ∨ (∃ f, s.plc.annFn = some f ∧ f + 1024 * s.cfg s.fn K.tbAnnouncePeriod ≤ s.fn) →
      ∃ t a, exec .announceSend s = .next t ∧ Frame [.plc] s t ∧
        t.plc = { s.plc with ann := some a, annSeq := (s.plc.annSeq + 1) % 65536, annFn := some s.fn } ∧
        a.cycle = (tbCurrent s m (nowInstant s) + 1).toNat ∧ a.bytes.length = 32) ∧
    (justStarted s m (tbCurrent s m (nowInstant s) + 1 - 1) = false → exec .announceSend s = .next s) ∧
    (tbStart s m (tbCurrent s m (nowInstant s) + 1) - twoMs ≤ nowInstant s → exec .announceSend s = .next s) ∧
    (∀ f, s.plc.annFn = some f → s.fn < f + 1024 * s.cfg s.fn K.tbAnnouncePeriod → exec .announceSend s = .next s)) ∧
  (∀ (a : Ann) (m : Int) (s : State), s.plc.ann = some a → s.tb.num = some m →
    (nowInstant s < a.deadline → exec .announceAbandon s = .next s) ∧
    (a.deadline ≤ nowInstant s → announces s = true → ∃ t b, exec .announceAbandon s = .next t ∧ t = { s with plc := { s.plc with ann := some b } } ∧
      b.cycle = a.cycle + 1 ∧ b.bytes.length = 32) ∧
    (a.deadline ≤ nowInstant s → announces s = false → exec .announceAbandon s = .next { s with plc := { s.plc with ann := none } })) ∧
  (∀ s : State, s.plc.ann = none → exec .announceAbandon s = .next s) ∧
  (∀ (a : Announcement) (s : State), plcUp s = true →
    ∃ t, exec (.announcementReceive a) s = .next t ∧ Frame (writes (.announcementReceive a)) s t ∧
      t.live K.plcRxFrames = (s.live K.plcRxFrames + 1) % 2 ^ oBits K.plcRxFrames ∧
      (a.secured = false ∨ plcState s ≠ 3 → t.live K.plcRxDiscarded = (s.live K.plcRxDiscarded + 1) % 2 ^ oBits K.plcRxDiscarded ∧
        t.tb = s.tb ∧ t.plc = s.plc) ∧
      (a.secured = true → plcState s = 3 →
        ∃ j n, tget none t.plc.nbr j = some n ∧ n.addr = a.sender ∧ n.rev = a.lqi % 256 ∧ n.lastFn = s.fn) ∧
      (a.secured = true → plcState s = 3 → tbState s ≠ 0 → tbLeader s s.fn = true → t.tb = s.tb ∧
        t.live K.tbForeignLeaders = (if a.leader = s.get K.plcEui64 then s.live K.tbForeignLeaders
          else (s.live K.tbForeignLeaders + 1) % 2 ^ oBits K.tbForeignLeaders)) ∧
      (a.secured = true → plcState s = 3 → tbState s ≠ 0 → tbLeader s s.fn = false → ∃ h ∈ t.tb.heard, h.sender = a.sender ∧ h.leader = a.leader ∧ h.fn = s.fn)) ∧
  (∀ (a : Announcement) (s : State), plcUp s = false → exec (.announcementReceive a) s = .next s) ∧
  (∀ s : State, s.mode = .run →
    (s.tb.acc + 10240 ≤ s.fn → tbState s = 3 → ∃ t, exec .tbHoldoverExpiry s = .next t ∧ Frame (writes .tbHoldoverExpiry) s t ∧
      tbState t = 1 ∧ t.tb.num = none ∧ t.tb.used = [] ∧ t.live K.tbDepth = 0xFF) ∧
    (s.fn < s.tb.acc + 10240 → exec .tbHoldoverExpiry s = .next s))


/-! ### Stores, logs and the scrub -/

/-- What the engines of the memories bring about.  The end of a store writes the rows, the count and the seal of the frame that does not serve; verified, it
serves from now on and what waited is acknowledged - a commit with its frame B, from which it counts as committed (R34) - and not
verified it is repeated, at most three times (R230, R325 to R327).  A commit takes effect once, at its B, and advances the generation (R33).  The rotation
reaches position FN / (4 T_roll) modulo 256 (R335); the hourly store keeps the effective lane values (R91).  The Tackroom's operations end
in order and are repeated when they fail, a program with the erase before it (R231); the oldest event leaves RING-5 for the log with the next SEQ, and raises FAULT where Table 8.6 lists
it (R354, R281).  The scrub runs every 24 h (R350). -/
def Obligations.StoresTakeEffect : Prop :=
  (∀ (s : State) (j : Job) (js : List Job) (fr : Nat), Sound s → s.mode = .run ∨ s.mode = .recovery → s.jobs = j :: js → j.page < 1024 →
    fr = frameOf s j.page j.half → fr < 2112 →
    (∃ t, exec (.pageStoreComplete true) s = .next t ∧ Frame (writes (.pageStoreComplete true)) s t ∧
      (tget {} t.seals fr).fn = j.fn ∧ (tget {} t.seals fr).ok = true ∧ (tget {} t.seals fr).img = j.img.getD {} ∧
      (tget {} t.seals fr).count = (s.get K.storeCount + 1) % 2 ^ oBits K.storeCount ∧
      (∀ f, f ≠ fr → tget {} t.seals f = tget {} s.seals f) ∧
      (tget {} t.pages j.page).serveB = j.half ∧ (tget {} t.pages j.page).stat = 0 ∧
      (∃ l, t.jobs.map (fun x => x.page) = js.map (fun x => x.page) ++ l) ∧
      (j.ack = .none → t.commits = s.commits ∧ t.get K.storeCount = (s.get K.storeCount + 1) % 2 ^ oBits K.storeCount) ∧
      (∀ i txn nb port role k vals, j.ack = .commit i txn nb port role (.activate k) vals → s.img.lease = none ∨ leaseState s ≠ 2 →
        t.commits = s.commits ∧ t.srv.busy = false) ∧
      (∀ i txn nb port role eff vals, j.ack = .commit i txn nb port role eff vals →
        (∀ k, eff = .activate k → s.img.lease ≠ none ∧ leaseState s = 2) →
        ∃ c, t.commits = s.commits ++ [c] ∧ c.d = s.fn ∧ c.txn = txn ∧ c.eff = eff ∧ c.done = false ∧
          c.chg.map (fun g => (g.key, g.new)) = vals ∧
          c.b = max (s.fn + (match eff with | .activate _ => 64 | _ => 2)) (max nb (s.get K.lastCommitB)) ∧ t.srv.busy = false ∧
          ∀ k v r, vals = [(k, v)] → rowOf k = some r → r.has 0 = true → t.get k = v)) ∧
    (∃ t, exec (.pageStoreComplete false) s = .next t ∧ Frame (writes (.pageStoreComplete false)) s t ∧ t.commits = s.commits ∧
      (tget {} t.seals fr).ok = false ∧
      (j.tries < 3 → t.jobs = { j with tries := j.tries + 1 } :: js ∧ t.pages = s.pages ∧
        t.get K.frameRetries = (s.get K.frameRetries + 1) % 2 ^ oBits K.frameRetries) ∧
      (3 ≤ j.tries → t.jobs = { j with tries := 0, half := if (tget {} t.pages j.page).oneFrame then !j.half else j.half } :: js ∧
        t.get K.framesRetired = (s.get K.framesRetired + 1) % 2 ^ oBits K.framesRetired))) ∧
  (∀ s : State, s.mode = .run ∨ s.mode = .recovery →
    ∃ t, exec .commitTakesEffect s = .next t ∧ Frame (writes .commitTakesEffect) s t ∧ t.commits = (markDone s).commits ∧
      t.gens.length = s.gens.length + (dueCommits s).length ∧
      (∀ c, dueCommits s = [c] → t.gens = (c.b, (s.genOf c.b + 1) % 2 ^ 32) :: s.gens) ∧
      (dueCommits s = [] → Frame [.commits] s t)) ∧
  (∀ (s : State) (T : Nat), Sound s → T = s.cfg s.fn K.rollPeriod → s.mode = .run ∨ s.mode = .recovery →
    (s.fn % (4 * T) = 0 → s.pwr.rollAt ≠ some s.fn →
      ∃ t, exec .rollPosition s = .next t ∧ Frame (writes .rollPosition) s t ∧ t.live K.rollPosition = s.fn / (4 * T) % 256 ∧
        t.pwr.rollAt = some s.fn) ∧
    (s.fn % (4 * T) ≠ 0 ∨ s.pwr.rollAt = some s.fn → exec .rollPosition s = .next s)) ∧
  (∀ s : State, Sound s → s.mode = .run →
    (s.get K.bgStoreFn + 3686400 ≤ s.fn →
      ∃ t, exec .bgStore s = .next t ∧ Frame (writes .bgStore) s t ∧ t.get K.bgStoreFn = s.fn ∧
        (∃ b, t.pwr.bg = some b ∧ ∀ k ∈ bgKeys, tget (oDefault k) b k = s.live k) ∧
        t.jobs.map (fun x => x.page) = s.jobs.map (fun x => x.page) ++ [pageOf K.bgStoreFn]) ∧
    (s.fn < s.get K.bgStoreFn + 3686400 → exec .bgStore s = .next s)) ∧
  (∀ (s u : State) (j : TkJob) (l : List TkJob), Sound s → s.mode = .run ∨ s.mode = .recovery → u = tkAhead (tkPump s) → u.tk.queue = j :: l →
    ((tkWhere u j.op).1 ≠ [] → ∃ t sec, exec (.tackroomOpComplete false) s = .next t ∧
      Frame (writes (.tackroomOpComplete false)) s t ∧ sec = (failedSec j.op u).1 ∧
      ((tget {} s.units (unitKey 4 sec)).fail < 3 → t.tk.queue = retryJobs sec j l ∧
        (tget {} t.units (unitKey 4 sec)).fail = (tget {} s.units (unitKey 4 sec)).fail + 1 ∧
        t.get K.sectorRetries = (s.get K.sectorRetries + 1) % 2 ^ oBits K.sectorRetries) ∧
      (3 ≤ (tget {} s.units (unitKey 4 sec)).fail → t.tk.queue = movedJobs j l)) ∧
    (∃ t, exec (.tackroomOpComplete true) s = .next t ∧ Frame (writes (.tackroomOpComplete true)) s t ∧
      (∀ b, j.op = .capture b → t.cap.ring8 = s.cap.ring8.erase b) ∧
      (∀ h, j.op = .history h → t.bill.hist = s.bill.hist.erase h) ∧
      (∀ q, j.op = .event q → Tab.wf ({} : UnitS) s.units = true → t.tk.evPos = (tkWhere u j.op).2))) ∧
  (∀ (s : State) (e : Event) (l : List Event), Sound s → logRuns s = true → s.ring5 = e :: l →
    ∃ t q, exec .eventLogWrite s = .next t ∧ Frame (writes .eventLogWrite) s t ∧ t.ring5 = l ∧ q = (s.get K.eventSeq + 1) % 2 ^ 32 ∧
      t.get K.eventSeq = q ∧ t.tk.evs = s.tk.evs ++ [{ seq := q, entries := evEntries q e }] ∧
      (0x0300 ≤ e.code → e.code ≤ 0x0309 → bit t.spi.causes 4 = true ∧
        t.get K.faultEvents = (s.get K.faultEvents + 1) % 2 ^ oBits K.faultEvents)) ∧
  (∀ s : State, s.ring5 = [] ∨ logRuns s = false → exec .eventLogWrite s = .next s) ∧
  (∀ (fs ks : List Nat) (s : State), Sound s → s.mode = .run →
    (s.get K.scrubFn + 88473600 ≤ s.fn → ∃ t, exec (.scrub fs ks) s = .next t ∧ Frame (writes (.scrub fs ks)) s t ∧ t.get K.scrubFn = s.fn ∧
      (fs = [] → ks = [] → t.jobs = s.jobs ∧ t.ring5 = s.ring5)) ∧
    (s.fn < s.get K.scrubFn + 88473600 → exec (.scrub fs ks) s = .next s))

/-! ### Supplies, Gecko, stops and starts -/

/-- Supplies, the RTC, the tamper inputs and Gecko.  VHOLD at 11.8 V sets HOLD_OK, gives HOLD_CAP where the charge was timed, and HOLD_LOW below
80 % of STIRRUP_CAP; 10 s without it is HOLD_FAULT (R394).  VBAT is measured once a second and shown with its bits (R397), and its collapse while
the device is not powered ends RTC_VALID (R402).  The RTC counts in every mode but OFF (R401).  An input level sampled twice is
accepted (R403).  A due Gecko scan is counted; low VBAT, or GECKO_LIMIT hours, end Gecko for SLEEP with their cause (R404, R407).  PFW_N is
released once the last gasp is over (R424). -/
def Obligations.PowerStatesRun : Prop :=
  (∀ (us : Nat) (s : State), Sound s →
    (s.mode = .run ∨ s.mode = .recovery → bit (s.get K.supSupplyStatus) 7 = false →
      ∃ t, exec (.holdOk us) s = .next t ∧ Frame (writes (.holdOk us)) s t ∧ bit (t.get K.supSupplyStatus) 7 = true ∧
        (s.pwr.holdTimed = true → ∀ cap, cap = min 65535 (odiv (us : Nat) 28).toNat → t.get K.supHoldCap = cap ∧
          (cap * 10 < 8 * s.get K.stirrupCap → bit (t.get K.supSupplyStatus) 6 = true))) ∧
    (bit (s.get K.supSupplyStatus) 7 = true → exec (.holdOk us) s = .next s)) ∧
  (∀ (mv : Nat) (s : State), Sound s → s.mode = .run → bit (s.get K.supSupplyStatus) 5 = false →
    (mv < 11800 → s.pwr.startFn + 10240 ≤ s.fn →
      ∃ t, exec (.holdFault mv) s = .next t ∧ Frame (writes (.holdFault mv)) s t ∧ bit (t.get K.supSupplyStatus) 5 = true) ∧
    (11800 ≤ mv ∨ s.fn < s.pwr.startFn + 10240 → exec (.holdFault mv) s = .next s)) ∧
  (∀ (a b c mv : Nat) (s : State), Sound s → s.mode = .run →
    (s.pwr.vbatFn = none ∨ (∃ f, s.pwr.vbatFn = some f ∧ (s.fn < f ∨ f + 1024 ≤ s.fn)) →
      ∃ t, exec (.vbatMeasure a b c mv) s = .next t ∧ Frame (writes (.vbatMeasure a b c mv)) s t ∧
        t.live K.supVdd33Mv = min 65535 a ∧ t.live K.supVldMv = min 65535 b ∧ t.live K.supVholdMv = min 65535 c ∧
        t.live K.supVbatMv = min 65535 mv ∧ t.pwr.vbat = mv ∧ t.pwr.vbatFn = some s.fn ∧
        bit (t.get K.supSupplyStatus) 4 = decide (s.cfg s.fn K.geckoVbatMin ≤ mv) ∧
        bit (t.get K.supSupplyStatus) 3 = decide (mv < 2600) ∧ bit (t.get K.supSupplyStatus) 2 = decide (mv < 2200)) ∧
    (∀ f, s.pwr.vbatFn = some f → f ≤ s.fn → s.fn < f + 1024 → exec (.vbatMeasure a b c mv) s = .next s)) ∧
  (∀ s : State, Sound s →
    (s.mode = .gecko ∨ s.mode = .sleep ∨ s.mode = .off ∨ s.mode = .lastGasp →
      ∃ t, exec .vbatCollapse s = .next t ∧ Frame (writes .vbatCollapse) s t ∧ t.get K.rtcValid = 0 ∧ bit (t.get K.supSupplyStatus) 1 = false) ∧
    (s.mode = .run ∨ s.mode = .recovery → exec .vbatCollapse s = .next s)) ∧
  (∀ s : State,
    (s.mode ≠ .off → ∃ t, exec .rtcCountAdvance s = .next t ∧ Frame [.dev] s t ∧ t.dev.rtcFn = (s.dev.rtcFn + 1) % 2 ^ 48 ∧
      t.dev.rtcTime = (if s.dev.rtcTime = 0xFFFFFFFFFFFF then 0xFFFFFFFFFFFF else (s.dev.rtcTime + 1) % 2 ^ 48)) ∧
    (s.mode = .off → exec .rtcCountAdvance s = .next s)) ∧
  (∀ (cover mag : Bool) (s : State), Sound s →
    (s.mode ≠ .off → ∀ st, st = b2n (cover != decide (s.cfg s.fn K.coverPol = 1)) →
      ∃ t, exec (.tamperSample cover mag) s = .next t ∧ Frame (writes (.tamperSample cover mag)) s t ∧
        (tlook s.pwr.samples 0 = some st → t.get K.coverState = st) ∧
        (tlook s.pwr.samples 0 ≠ some st → t.get K.coverState = s.get K.coverState)) ∧
    (s.mode = .off → exec (.tamperSample cover mag) s = .next s)) ∧
  (∀ (d : GeckoData) (s : State), Sound s → s.mode = .gecko →
    (s.pwr.gecko.next ≤ s.dev.rtcFn → d.vbatMv + 100 < s.cfg s.fn K.geckoVbatMin →
      ∃ t, exec (.geckoScan d) s = .next t ∧ Frame (writes (.geckoScan d)) s t ∧ t.mode = .sleep ∧
        t.pwr.gecko.exit = some (1, s.dev.rtcFn, s.dev.rtcTime) ∧ t.get K.geckoLastScans = s.pwr.gecko.scans) ∧
    (s.pwr.gecko.next ≤ s.dev.rtcFn → s.cfg s.fn K.geckoVbatMin ≤ d.vbatMv + 100 →
      ∃ t, exec (.geckoScan d) s = .next t ∧ Frame (writes (.geckoScan d)) s t ∧ t.mode = .gecko ∧
        t.pwr.gecko.scans = s.pwr.gecko.scans + 1 ∧ t.pwr.gecko.next = s.pwr.gecko.next + 1024 * s.cfg s.fn K.geckoInterval ∧
        t.pwr.vbat = d.vbatMv) ∧
    (s.dev.rtcFn < s.pwr.gecko.next → exec (.geckoScan d) s = .next s)) ∧
  (∀ (s : State) (h : Nat), Sound s → s.mode = .gecko → h = s.cfg s.fn K.geckoLimit →
    (h ≠ 0 → s.pwr.gecko.since + h * 3686400 ≤ s.dev.rtcFn →
      ∃ t, exec .geckoLimitExpiry s = .next t ∧ Frame (writes .geckoLimitExpiry) s t ∧ t.mode = .sleep ∧
        t.pwr.gecko.exit = some (2, s.dev.rtcFn, s.dev.rtcTime) ∧ t.get K.geckoLastScans = s.pwr.gecko.scans) ∧
    (h = 0 ∨ s.dev.rtcFn < s.pwr.gecko.since + h * 3686400 → exec .geckoLimitExpiry s = .next s)) ∧
  (∀ s : State,
    (s.mode = .gecko ∨ s.mode = .sleep ∨ s.mode = .off → exec .pfwNRelease s = .next { s with spi := { s.spi with pfwN := false } }) ∧
    (s.mode = .run ∨ s.mode = .recovery ∨ s.mode = .lastGasp → exec .pfwNRelease s = .next s))

/-- Stops and starts.  The power-fail warning asserts PFW_N with its cause, keeps the instant in the journal and in the RTC domain, and leaves RUN for
LAST-GASP (R396, R398, R282); the last gasp ends in GECKO, SLEEP or OFF by what VBAT allows, or waits for the start when power is good again, and
LAST_GASP_PAGES tells how much was sealed (R400).  Power good and a warm reset lead to RUN or, with the strap, to ROM recovery, from a frame S that is
noted (R393, R408, R409).  When the operational core is up and a first frame is published, READY is 1, BOOT is raised, and deferred events are logged (R30, R408); billing
resumes from a frame G once HOLD_OK is set, and START_MS tells the time from S (R193, R395). -/
def Obligations.StartsAndStops : Prop :=
  (∀ (us : Nat) (vld vdd33 : Bool) (s : State),
    (s.mode = .run ∨ s.mode = .recovery →
      ∃ t j, exec (.powerFailWarning us vld vdd33) s = .next t ∧ Frame (writes (.powerFailWarning us vld vdd33)) s t ∧
        t.mode = .lastGasp ∧ t.ready = false ∧ t.spi.pfwN = true ∧ bit t.spi.causes 6 = true ∧ t.pwr.done = false ∧
        t.pwr.journal = some j ∧ j.pfwFn = s.fn ∧ j.pfwUs = us ∧ t.dev.rtcFn = s.fn ∧ t.fn = s.fn ∧ t.current = none ∧ t.ring5 = []) ∧
    (s.mode ≠ .run → s.mode ≠ .recovery → exec (.powerFailWarning us vld vdd33) s = .next s)) ∧
  (∀ (fitted n : Nat) (j : Journal) (s : State), Sound s → s.mode = .lastGasp → s.pwr.done = false → s.pwr.journal = some j →
    n = min fitted (gaspPages j) →
    (∃ t, exec (.lastGaspComplete fitted true) s = .next t ∧ Frame (writes (.lastGaspComplete fitted true)) s t ∧ t.mode = .lastGasp ∧
      t.pwr.done = true ∧ t.get K.lastGaspPages = n ∧ t.get K.supLastMode = 1) ∧
    (∃ t, exec (.lastGaspComplete fitted false) s = .next t ∧ Frame (writes (.lastGaspComplete fitted false)) s t ∧ t.mode = modeAfter s ∧
      t.get K.lastGaspPages = n ∧ t.get K.supLastMode = (modeAfter s).num ∧
      (modeAfter s = .gecko → t.pwr.gecko.since = s.dev.rtcFn ∧
        t.pwr.gecko.next = s.dev.rtcFn + 1024 * s.cfg s.fn K.geckoInterval) ∧
      (modeAfter s = .off → t.get K.rtcValid = 0))) ∧
  (∀ (n : Nat) (p : Bool) (s : State), s.mode ≠ .lastGasp ∨ s.pwr.done = true → exec (.lastGaspComplete n p) s = .next s) ∧
  (∀ (p : PowerGood) (s : State),
    (s.mode = .off ∨ s.mode = .sleep ∨ s.mode = .gecko ∨ (s.mode = .lastGasp ∧ s.pwr.done = true) →
      ∃ t, exec (.powerGood p) s = .next t ∧ Frame (writes (.powerGood p)) s t ∧ (t.mode = .run ∨ t.mode = .recovery) ∧
        (p.recover = true → t.mode = .recovery) ∧ t.pwr.startFn = t.fn ∧ t.pwr.upDue = true ∧ t.pwr.holdTimed = p.vholdLow) ∧
    (s.mode = .run ∨ s.mode = .recovery ∨ (s.mode = .lastGasp ∧ s.pwr.done = false) → exec (.powerGood p) s = .next s)) ∧
  (∀ (wd recover : Bool) (s : State),
    (s.mode = .run ∨ s.mode = .recovery →
      ∃ t, exec (.warmReset wd recover) s = .next t ∧ Frame (writes (.warmReset wd recover)) s t ∧ (t.mode = .run ∨ t.mode = .recovery) ∧
        (recover = true → t.mode = .recovery) ∧ t.fn = max s.dev.rtcFn (s.fn + 1) ∧ t.pwr.startFn = t.fn ∧ t.pwr.upDue = true ∧
        t.ready = false) ∧
    (s.mode ≠ .run → s.mode ≠ .recovery → exec (.warmReset wd recover) s = .next s)) ∧
  (∀ s : State,
    (s.mode = .run → s.ready = false → s.current ≠ none →
      ∃ t, exec .operationalCoreReady s = .next t ∧ Frame (writes .operationalCoreReady) s t ∧ t.ready = true ∧ bit t.spi.causes 7 = true ∧
        t.pwr.late = [] ∧ t.pwr.upDue = false) ∧
    (s.mode ≠ .run ∨ s.ready = true ∨ s.current = none → exec .operationalCoreReady s = .next s)) ∧
  (∀ s : State,
    (∀ f0 g, Sound s → s.mode = .run → s.bill.g = none → bit (s.get K.supSupplyStatus) 7 = true → s.acq.first = some f0 →
      g = max (f0 + 2) (match s.tan.baseFn with | some b => b + 1 | none => f0 + 2) →
      ∃ t, exec .billingResume s = .next t ∧ Frame (writes .billingResume) s t ∧ t.bill.g = some g ∧
        t.get K.supStartMs = min 65535 (6 + (g - s.pwr.startFn) * 1000 / 1024)) ∧
    (s.mode ≠ .run ∨ s.bill.g ≠ none ∨ bit (s.get K.supSupplyStatus) 7 = false ∨ s.acq.first = none → exec .billingResume s = .next s))
end

