-- ==== Sys2Proof/Laws/Tab.lean ====
section
/-! SUPPORT. Laws of sparse tables: a read after a write, and that every operation keeps the canonical form. -/

namespace Sys2Proof.Machine

variable {α : Type}

theorem risingFrom_mono {lo lo' : Nat} {t : Tab α} (h : lo' ≤ lo) (w : Tab.risingFrom lo t = true) :
    Tab.risingFrom lo' t = true := by
  cases t with
  | nil => rfl
  | cons e t =>
    obtain ⟨j, a⟩ := e
    simp only [Tab.risingFrom, Bool.and_eq_true, decide_eq_true_eq] at w ⊢
    exact ⟨Nat.le_trans h w.1, w.2⟩

theorem risingFrom_tins {lo k : Nat} {t : Tab α} {a : α} (hk : lo ≤ k) (w : Tab.risingFrom lo t = true) :
    Tab.risingFrom lo (tins t k a) = true := by
  induction t generalizing lo with
  | nil => simp [tins, Tab.risingFrom, hk]
  | cons e t ih =>
    obtain ⟨j, b⟩ := e
    simp only [Tab.risingFrom, Bool.and_eq_true, decide_eq_true_eq] at w
    unfold tins
    split
    · simp only [Tab.risingFrom, Bool.and_eq_true, decide_eq_true_eq]
      exact ⟨hk, by omega, w.2⟩
    · split
      · subst k
        simp only [Tab.risingFrom, Bool.and_eq_true, decide_eq_true_eq]
        exact ⟨hk, w.2⟩
      · simp only [Tab.risingFrom, Bool.and_eq_true, decide_eq_true_eq]
        exact ⟨w.1, ih (by omega) w.2⟩

theorem risingFrom_tdel {lo k : Nat} {t : Tab α} (w : Tab.risingFrom lo t = true) :
    Tab.risingFrom lo (tdel t k) = true := by
  induction t generalizing lo with
  | nil => rfl
  | cons e t ih =>
    obtain ⟨j, b⟩ := e
    simp only [Tab.risingFrom, Bool.and_eq_true, decide_eq_true_eq] at w
    unfold tdel
    split
    · exact risingFrom_mono (by omega) (ih w.2)
    · simp only [Tab.risingFrom, Bool.and_eq_true, decide_eq_true_eq]
      exact ⟨w.1, ih w.2⟩

theorem risingFrom_filter {lo : Nat} {t : Tab α} {p : Nat × α → Bool} (w : Tab.risingFrom lo t = true) :
    Tab.risingFrom lo (t.filter p) = true := by
  induction t generalizing lo with
  | nil => rfl
  | cons e t ih =>
    obtain ⟨j, b⟩ := e
    simp only [Tab.risingFrom, Bool.and_eq_true, decide_eq_true_eq] at w
    by_cases hp : p (j, b)
    · simp only [List.filter_cons, hp, if_true, Tab.risingFrom, Bool.and_eq_true, decide_eq_true_eq]
      exact ⟨w.1, ih w.2⟩
    · simp only [List.filter_cons, hp]
      exact risingFrom_mono (by omega) (ih w.2)

theorem mem_tins {t : Tab α} {k : Nat} {a : α} {e : Nat × α} (h : e ∈ tins t k a) : e = (k, a) ∨ e ∈ t := by
  induction t with
  | nil => simpa [tins] using h
  | cons f t ih =>
    obtain ⟨j, b⟩ := f
    unfold tins at h
    split at h
    · simpa using h
    · split at h
      · rcases List.mem_cons.mp h with h | h
        · exact .inl h
        · exact .inr (List.mem_cons_of_mem _ h)
      · rcases List.mem_cons.mp h with h | h
        · exact .inr (h ▸ List.mem_cons_self ..)
        · rcases ih h with h | h
          · exact .inl h
          · exact .inr (List.mem_cons_of_mem _ h)

theorem mem_tdel {t : Tab α} {k : Nat} {e : Nat × α} (h : e ∈ tdel t k) : e ∈ t := by
  induction t with
  | nil => exact h
  | cons f t ih =>
    obtain ⟨j, b⟩ := f
    unfold tdel at h
    split at h
    · exact List.mem_cons_of_mem _ (ih h)
    · simp only [List.mem_cons] at h ⊢
      rcases h with h | h
      · exact .inl h
      · exact .inr (ih h)

/-- The write of an entry keeps the canonical form. -/
theorem wf_tset [DecidableEq α] {d : α} {t : Tab α} {k : Nat} {a : α} (w : Tab.wf d t = true) : Tab.wf d (tset d t k a) = true := by
  simp only [Tab.wf, Bool.and_eq_true, List.all_eq_true, decide_eq_true_eq] at w ⊢
  unfold tset
  split
  · exact ⟨risingFrom_tdel w.1, fun e he => w.2 e (mem_tdel he)⟩
  · rename_i h
    refine ⟨risingFrom_tins (Nat.zero_le _) w.1, fun e he => ?_⟩
    rcases mem_tins he with rfl | he
    · exact h
    · exact w.2 e he

/-- The update of an entry keeps the canonical form. -/
theorem wf_tmod [DecidableEq α] {d : α} {t : Tab α} {k : Nat} {f : α → α} (w : Tab.wf d t = true) : Tab.wf d (tmod d t k f) = true :=
  wf_tset w

/-- The value that an object takes keeps the dictionary canonical. -/
theorem dictWf_put {t : Tab Nat} {k v : Nat} (w : dictWf t = true) :
    dictWf (if v = oDefault k then tdel t k else tins t k v) = true := by
  simp only [dictWf, Bool.and_eq_true, List.all_eq_true, decide_eq_true_eq] at w ⊢
  split
  · exact ⟨risingFrom_tdel w.1, fun e he => w.2 e (mem_tdel he)⟩
  · rename_i h
    refine ⟨risingFrom_tins (Nat.zero_le _) w.1, fun e he => ?_⟩
    rcases mem_tins he with rfl | he
    · exact h
    · exact w.2 e he

/-- Objects that are forgotten leave the dictionary canonical. -/
theorem dictWf_filter {t : Tab Nat} {p : Nat × Nat → Bool} (w : dictWf t = true) : dictWf (t.filter p) = true := by
  simp only [dictWf, Bool.and_eq_true, List.all_eq_true, decide_eq_true_eq] at w ⊢
  exact ⟨risingFrom_filter w.1, fun e he => w.2 e ((List.mem_filter.mp he).1)⟩

theorem tlook_tins {t : Tab α} {k j : Nat} {a : α} : tlook (tins t k a) j = if k = j then some a else tlook t j := by
  induction t with
  | nil => simp [tins, tlook]
  | cons f t ih =>
    obtain ⟨i, b⟩ := f
    unfold tins
    split
    · simp only [tlook]
    · split
      · subst k; simp only [tlook]; split <;> simp_all
      · simp only [tlook, ih]
        by_cases h1 : i = j <;> by_cases h2 : k = j <;> simp_all

theorem tlook_tdel_ne {t : Tab α} {k j : Nat} (h : k ≠ j) : tlook (tdel t k) j = tlook t j := by
  induction t with
  | nil => rfl
  | cons f t ih =>
    obtain ⟨i, b⟩ := f
    unfold tdel
    split
    · subst i; simp [tlook, h, ih]
    · simp only [tlook, ih]

/-- A number below the first entry is not listed. -/
theorem tlook_of_rising {lo j : Nat} {t : Tab α} (w : Tab.risingFrom lo t = true) (h : j < lo) : tlook t j = none := by
  induction t generalizing lo with
  | nil => rfl
  | cons f t ih =>
    obtain ⟨i, b⟩ := f
    simp only [Tab.risingFrom, Bool.and_eq_true, decide_eq_true_eq] at w
    simp only [tlook]
    rw [if_neg (by omega), ih w.2 (by omega)]

theorem tlook_tdel {t : Tab α} {k : Nat} : tlook (tdel t k) k = none := by
  induction t with
  | nil => rfl
  | cons f t ih =>
    obtain ⟨i, b⟩ := f
    unfold tdel
    split
    · exact ih
    · rename_i h; simp only [tlook, if_neg h]; exact ih

theorem tget_tins {d a : α} {t : Tab α} {k j : Nat} : tget d (tins t k a) j = if k = j then a else tget d t j := by
  induction t with
  | nil => simp [tins, tget]
  | cons f t ih =>
    obtain ⟨i, b⟩ := f
    unfold tins
    split
    · simp only [tget]
    · split
      · subst k; simp only [tget]; split <;> simp_all
      · simp only [tget, ih]
        by_cases h1 : i = j <;> by_cases h2 : k = j <;> simp_all

theorem tget_tdel {d : α} {t : Tab α} {k : Nat} : tget d (tdel t k) k = d := by
  induction t with
  | nil => rfl
  | cons f t ih =>
    obtain ⟨i, b⟩ := f
    unfold tdel
    split
    · exact ih
    · rename_i h; simp only [tget, if_neg h]; exact ih

theorem tget_tdel_ne {d : α} {t : Tab α} {k j : Nat} (h : k ≠ j) : tget d (tdel t k) j = tget d t j := by
  induction t with
  | nil => rfl
  | cons f t ih =>
    obtain ⟨i, b⟩ := f
    unfold tdel
    split
    · subst i; simp [tget, h, ih]
    · simp only [tget, ih]

theorem tget_tset_ne [DecidableEq α] {d a : α} {t : Tab α} {k j : Nat} (h : k ≠ j) : tget d (tset d t k a) j = tget d t j := by
  unfold tset
  split
  · exact tget_tdel_ne h
  · rw [tget_tins, if_neg h]

theorem tget_tset_self [DecidableEq α] {d a : α} {t : Tab α} {k : Nat} : tget d (tset d t k a) k = a := by
  unfold tset
  split
  · rename_i h; rw [tget_tdel, h]
  · rw [tget_tins, if_pos rfl]

end Sys2Proof.Machine
end

