-- ==== Sys2Proof/Laws/Kept.lean ====
section
/-! SUPPORT. What every operation of the model keeps: the form `Sound`, the commands that wait, the frame
number and the mode, and the count of free values, which never falls.  One lemma per operation follows in the other files of Laws; every
invariant of `step` is read off them. -/

namespace Sys2Proof.Machine

/-- The tracked parts of a state: queue `q` unchanged, at least `n` free values drawn, and `Sound`. -/
structure KeptC (q : List Instr) (n f : Nat) (m : Mode) (fn : Nat) (mode : Mode) (dict : Tab Nat)
    (pages : Tab PageS) (seals : Tab Seal) (ring5 : List Event) (ring7 : List (Nat × Bytes)) (period : Nat) (pending : List Instr) (draws : Nat) : Prop where
  dict    : dictWf dict = true
  pages   : Tab.wf ({} : PageS) pages = true
  seals   : Tab.wf ({} : Seal) seals = true
  ring5   : ring5.length ≤ 1024
  ring7   : ring7.length ≤ 8
  period  : period ≤ 16
  pending : pending = q
  draws   : n ≤ draws
  fn      : fn = f
  mode    : mode = m

/-- The same of a state. -/
def Kept (q : List Instr) (n f : Nat) (m : Mode) (s : State) : Prop :=
  KeptC q n f m s.fn s.mode s.dict s.pages s.seals s.ring5 s.bill.ring7 s.acq.period s.pending s.draws

variable {q : List Instr} {n f : Nat} {m : Mode}

theorem Kept.sound {s : State} (h : Kept q n f m s) : Sound s := ⟨h.dict, h.pages, h.seals, h.ring5, h.ring7, h.period⟩

theorem Sound.kept {s : State} (h : Sound s) : Kept s.pending s.draws s.fn s.mode s :=
  ⟨h.dict, h.pages, h.seals, h.ring5, h.ring7, h.period, rfl, Nat.le_refl _, rfl, rfl⟩

/-- The tracked parts of a state that is written out. -/
theorem Kept.of {s : State} (h : Kept q n f m s) :
    KeptC q n f m s.fn s.mode s.dict s.pages s.seals s.ring5 s.bill.ring7 s.acq.period s.pending s.draws := h

/-- A state that is written out is kept as its tracked parts are. -/
theorem Kept.mk_eq {fn mode dict commits times chg due olds gens acq aln tan cap bill pulse img tk pwr srv spi t1s plc tb dev ready ring5
    staging sealed current previous pins jobs rollq pages seals units draws pending} :
    Kept q n f m (State.mk fn mode dict commits times chg due olds gens acq aln tan cap bill pulse img tk pwr srv spi t1s plc tb dev ready ring5
      staging sealed current previous pins jobs rollq pages seals units draws pending) =
    KeptC q n f m fn mode dict pages seals ring5 bill.ring7 acq.period pending draws := propext ⟨fun h => h, fun h => h⟩

theorem Kept.foldl {α : Type} {g : State → α → State} {l : List α} {s : State}
    (hf : ∀ s a, Kept q n f m s → Kept q n f m (g s a)) (h : Kept q n f m s) : Kept q n f m (l.foldl g s) := by
  induction l generalizing s with
  | nil => exact h
  | cons a l ih => exact ih (hf s a h)

/-- A fold that carries more beside the state. -/
theorem Kept.foldl_fst {α β : Type} {g : State × β → α → State × β} {l : List α} {p : State × β}
    (hf : ∀ p a, Kept q n f m p.1 → Kept q n f m (g p a).1) (h : Kept q n f m p.1) : Kept q n f m (l.foldl g p).1 := by
  induction l generalizing p with
  | nil => exact h
  | cons a l ih => exact ih (hf p a h)

theorem Kept.foldl_snd {α β : Type} {g : β × State → α → β × State} {l : List α} {p : β × State}
    (hf : ∀ p a, Kept q n f m p.2 → Kept q n f m (g p a).2) (h : Kept q n f m p.2) : Kept q n f m (l.foldl g p).2 := by
  induction l generalizing p with
  | nil => exact h
  | cons a l ih => exact ih (hf p a h)

theorem Kept.ite {c : Prop} [Decidable c] {s t : State} (hs : c → Kept q n f m s) (ht : ¬c → Kept q n f m t) :
    Kept q n f m (if c then s else t) := by
  split
  · exact hs ‹_›
  · exact ht ‹_›

theorem Kept.ite_fst {β : Type} {c : Prop} [Decidable c] {s t : State × β} (hs : c → Kept q n f m s.1) (ht : ¬c → Kept q n f m t.1) :
    Kept q n f m (if c then s else t).1 := by
  split
  · exact hs ‹_›
  · exact ht ‹_›

theorem Kept.ite_snd {β : Type} {c : Prop} [Decidable c] {s t : β × State} (hs : c → Kept q n f m s.2) (ht : ¬c → Kept q n f m t.2) :
    Kept q n f m (if c then s else t).2 := by
  split
  · exact hs ‹_›
  · exact ht ‹_›

/-- A pair that a condition chooses. -/
theorem Kept.ite_eq {β : Type} {c : Prop} [Decidable c] {a b : β × State} {x : β} {t : State} (e : (if c then a else b) = (x, t))
    (ha : c → a = (x, t) → Kept q n f m t) (hb : ¬c → b = (x, t) → Kept q n f m t) : Kept q n f m t := by
  split at e
  · exact ha ‹_› e
  · exact hb ‹_› e

theorem Kept.pair_eq {β : Type} {b x : β} {s t : State} (e : (b, s) = (x, t)) (h : Kept q n f m s) : Kept q n f m t := by
  cases e; exact h

/-- The sample periods of a frame are counted. -/
theorem Kept.periodSet {s : State} {p : Nat} (hp : p ≤ 16) (h : Kept q n f m s) :
    KeptC q n f m s.fn s.mode s.dict s.pages s.seals s.ring5 s.bill.ring7 p s.pending s.draws :=
  ⟨h.dict, h.pages, h.seals, h.ring5, h.ring7, hp, h.pending, h.draws, h.fn, h.mode⟩

theorem State_put_ok {s : State} {k v : Nat} (h : Kept q n f m s) : Kept q n f m (s.put k v) :=
  ⟨dictWf_put h.dict, h.pages, h.seals, h.ring5, h.ring7, h.period, h.pending, h.draws, h.fn, h.mode⟩

theorem State_eventAt_ok {s : State} {x code : Nat} {fields : List Nat} (h : Kept q n f m s) : Kept q n f m (s.eventAt x code fields) := by
  unfold State.eventAt
  split
  · refine ⟨h.dict, h.pages, h.seals, ?_, h.ring7, h.period, h.pending, h.draws, h.fn, h.mode⟩
    simp only [List.length_append, List.length_cons, List.length_nil]; omega
  · exact State_put_ok (State_put_ok h)

theorem State_draw_ok {s : State} (h : Kept q n f m s) : Kept q n f m s.draw.2 :=
  ⟨h.dict, h.pages, h.seals, h.ring5, h.ring7, h.period, h.pending, Nat.le_succ_of_le h.draws, h.fn, h.mode⟩

theorem State_drawBytes_ok {s : State} {k : Nat} (h : Kept q n f m s) : Kept q n f m (s.drawBytes k).2 :=
  ⟨h.dict, h.pages, h.seals, h.ring5, h.ring7, h.period, h.pending, Nat.le_succ_of_le h.draws, h.fn, h.mode⟩

/-- A page changes. -/
theorem Kept.pagesSet {s : State} {k : Nat} {x : PageS} (h : Kept q n f m s) :
    KeptC q n f m s.fn s.mode s.dict (tset ({} : PageS) s.pages k x) s.seals s.ring5 s.bill.ring7 s.acq.period s.pending s.draws :=
  ⟨h.dict, wf_tset h.pages, h.seals, h.ring5, h.ring7, h.period, h.pending, h.draws, h.fn, h.mode⟩

theorem Kept.pagesMod {s : State} {k : Nat} {g : PageS → PageS} (h : Kept q n f m s) :
    KeptC q n f m s.fn s.mode s.dict (tmod ({} : PageS) s.pages k g) s.seals s.ring5 s.bill.ring7 s.acq.period s.pending s.draws :=
  ⟨h.dict, wf_tmod h.pages, h.seals, h.ring5, h.ring7, h.period, h.pending, h.draws, h.fn, h.mode⟩

/-- A page frame changes. -/
theorem Kept.sealsSet {s : State} {k : Nat} {x : Seal} (h : Kept q n f m s) :
    KeptC q n f m s.fn s.mode s.dict s.pages (tset ({} : Seal) s.seals k x) s.ring5 s.bill.ring7 s.acq.period s.pending s.draws :=
  ⟨h.dict, h.pages, wf_tset h.seals, h.ring5, h.ring7, h.period, h.pending, h.draws, h.fn, h.mode⟩

theorem Kept.sealsMod {s : State} {k : Nat} {g : Seal → Seal} (h : Kept q n f m s) :
    KeptC q n f m s.fn s.mode s.dict s.pages (tmod ({} : Seal) s.seals k g) s.ring5 s.bill.ring7 s.acq.period s.pending s.draws :=
  ⟨h.dict, h.pages, wf_tmod h.seals, h.ring5, h.ring7, h.period, h.pending, h.draws, h.fn, h.mode⟩

/-- Objects are forgotten. -/
theorem Kept.dictFilter {s : State} {p : Nat × Nat → Bool} (h : Kept q n f m s) :
    KeptC q n f m s.fn s.mode (s.dict.filter p) s.pages s.seals s.ring5 s.bill.ring7 s.acq.period s.pending s.draws :=
  ⟨dictWf_filter h.dict, h.pages, h.seals, h.ring5, h.ring7, h.period, h.pending, h.draws, h.fn, h.mode⟩

/-- RING-5 is emptied. -/
theorem Kept.ring5Nil {s : State} (h : Kept q n f m s) :
    KeptC q n f m s.fn s.mode s.dict s.pages s.seals [] s.bill.ring7 s.acq.period s.pending s.draws :=
  ⟨h.dict, h.pages, h.seals, Nat.zero_le _, h.ring7, h.period, h.pending, h.draws, h.fn, h.mode⟩

end Sys2Proof.Machine
end

