-- ==== Sys2Proof/Laws/Only.lean ====
section
/-! SUPPORT. Which parts of the state an operation may change: `Only m r s` says that `s` agrees with `r` in every part outside the mask `m`
(bit i of a mask stands for the i-th field of `State`).  One lemma per operation follows in the other files of Laws; the frames of all
commands are read off them. -/

namespace Sys2Proof.Machine

/-- `s` agrees with `r` in every part outside the mask. -/
structure Only (m : Nat) (r s : State) : Prop where
  fn : m.testBit 0 = false → s.fn = r.fn
  mode : m.testBit 1 = false → s.mode = r.mode
  dict : m.testBit 2 = false → s.dict = r.dict
  commits : m.testBit 3 = false → s.commits = r.commits
  times : m.testBit 4 = false → s.times = r.times
  chg : m.testBit 5 = false → s.chg = r.chg
  due : m.testBit 6 = false → s.due = r.due
  olds : m.testBit 7 = false → s.olds = r.olds
  gens : m.testBit 8 = false → s.gens = r.gens
  acq : m.testBit 9 = false → s.acq = r.acq
  aln : m.testBit 10 = false → s.aln = r.aln
  tan : m.testBit 11 = false → s.tan = r.tan
  cap : m.testBit 12 = false → s.cap = r.cap
  bill : m.testBit 13 = false → s.bill = r.bill
  pulse : m.testBit 14 = false → s.pulse = r.pulse
  img : m.testBit 15 = false → s.img = r.img
  tk : m.testBit 16 = false → s.tk = r.tk
  pwr : m.testBit 17 = false → s.pwr = r.pwr
  srv : m.testBit 18 = false → s.srv = r.srv
  spi : m.testBit 19 = false → s.spi = r.spi
  t1s : m.testBit 20 = false → s.t1s = r.t1s
  plc : m.testBit 21 = false → s.plc = r.plc
  tb : m.testBit 22 = false → s.tb = r.tb
  dev : m.testBit 23 = false → s.dev = r.dev
  ready : m.testBit 24 = false → s.ready = r.ready
  ring5 : m.testBit 25 = false → s.ring5 = r.ring5
  staging : m.testBit 26 = false → s.staging = r.staging
  sealed : m.testBit 27 = false → s.sealed = r.sealed
  current : m.testBit 28 = false → s.current = r.current
  previous : m.testBit 29 = false → s.previous = r.previous
  pins : m.testBit 30 = false → s.pins = r.pins
  jobs : m.testBit 31 = false → s.jobs = r.jobs
  rollq : m.testBit 32 = false → s.rollq = r.rollq
  pages : m.testBit 33 = false → s.pages = r.pages
  seals : m.testBit 34 = false → s.seals = r.seals
  units : m.testBit 35 = false → s.units = r.units
  draws : m.testBit 36 = false → s.draws = r.draws
  pending : m.testBit 37 = false → s.pending = r.pending

/-- Every part in the mask `a` is in the mask `m`. -/
def Within (a m : Nat) : Prop := ∀ i, a.testBit i = true → m.testBit i = true

variable {a m : Nat} {r s : State}

theorem Within.refl (m : Nat) : Within m m := fun _ h => h

/-- A smaller mask. -/
theorem Within.of {b : Nat} (w : Within a m) (e : b &&& a = b) : Within b m := fun i h => w i (by
  have h' : (b &&& a).testBit i = true := by rw [e]; exact h
  rw [Nat.testBit_and, Bool.and_eq_true] at h'
  exact h'.2)

theorem Only.refl (m : Nat) (s : State) : Only m s s := by constructor <;> intro _ <;> rfl

/-- A part outside a mask is outside a smaller one. -/
theorem Within.off {i : Nat} (w : Within a m) (h : m.testBit i = false) : a.testBit i = false := by
  cases e : a.testBit i with
  | false => rfl
  | true => rw [w i e] at h; exact h

/-- A further change inside the mask. -/
theorem Only.trans {t : State} (w : Within a m) (h : Only m r s) (k : Only a s t) : Only m r t where
  fn := fun e => (k.fn (w.off e)).trans (h.fn e)
  mode := fun e => (k.mode (w.off e)).trans (h.mode e)
  dict := fun e => (k.dict (w.off e)).trans (h.dict e)
  commits := fun e => (k.commits (w.off e)).trans (h.commits e)
  times := fun e => (k.times (w.off e)).trans (h.times e)
  chg := fun e => (k.chg (w.off e)).trans (h.chg e)
  due := fun e => (k.due (w.off e)).trans (h.due e)
  olds := fun e => (k.olds (w.off e)).trans (h.olds e)
  gens := fun e => (k.gens (w.off e)).trans (h.gens e)
  acq := fun e => (k.acq (w.off e)).trans (h.acq e)
  aln := fun e => (k.aln (w.off e)).trans (h.aln e)
  tan := fun e => (k.tan (w.off e)).trans (h.tan e)
  cap := fun e => (k.cap (w.off e)).trans (h.cap e)
  bill := fun e => (k.bill (w.off e)).trans (h.bill e)
  pulse := fun e => (k.pulse (w.off e)).trans (h.pulse e)
  img := fun e => (k.img (w.off e)).trans (h.img e)
  tk := fun e => (k.tk (w.off e)).trans (h.tk e)
  pwr := fun e => (k.pwr (w.off e)).trans (h.pwr e)
  srv := fun e => (k.srv (w.off e)).trans (h.srv e)
  spi := fun e => (k.spi (w.off e)).trans (h.spi e)
  t1s := fun e => (k.t1s (w.off e)).trans (h.t1s e)
  plc := fun e => (k.plc (w.off e)).trans (h.plc e)
  tb := fun e => (k.tb (w.off e)).trans (h.tb e)
  dev := fun e => (k.dev (w.off e)).trans (h.dev e)
  ready := fun e => (k.ready (w.off e)).trans (h.ready e)
  ring5 := fun e => (k.ring5 (w.off e)).trans (h.ring5 e)
  staging := fun e => (k.staging (w.off e)).trans (h.staging e)
  sealed := fun e => (k.sealed (w.off e)).trans (h.sealed e)
  current := fun e => (k.current (w.off e)).trans (h.current e)
  previous := fun e => (k.previous (w.off e)).trans (h.previous e)
  pins := fun e => (k.pins (w.off e)).trans (h.pins e)
  jobs := fun e => (k.jobs (w.off e)).trans (h.jobs e)
  rollq := fun e => (k.rollq (w.off e)).trans (h.rollq e)
  pages := fun e => (k.pages (w.off e)).trans (h.pages e)
  seals := fun e => (k.seals (w.off e)).trans (h.seals e)
  units := fun e => (k.units (w.off e)).trans (h.units e)
  draws := fun e => (k.draws (w.off e)).trans (h.draws e)
  pending := fun e => (k.pending (w.off e)).trans (h.pending e)

theorem Only.foldl {α : Type} {g : State → α → State} {l : List α} (hf : ∀ s a, Only m r s → Only m r (g s a)) (h : Only m r s) :
    Only m r (l.foldl g s) := by
  induction l generalizing s with
  | nil => exact h
  | cons a l ih => exact ih (hf s a h)

/-- A fold that carries more beside the state. -/
theorem Only.foldl_fst {α β : Type} {g : State × β → α → State × β} {l : List α} {p : State × β}
    (hf : ∀ p a, Only m r p.1 → Only m r (g p a).1) (h : Only m r p.1) : Only m r (l.foldl g p).1 := by
  induction l generalizing p with
  | nil => exact h
  | cons a l ih => exact ih (hf p a h)

theorem Only.foldl_snd {α β : Type} {g : β × State → α → β × State} {l : List α} {p : β × State}
    (hf : ∀ p a, Only m r p.2 → Only m r (g p a).2) (h : Only m r p.2) : Only m r (l.foldl g p).2 := by
  induction l generalizing p with
  | nil => exact h
  | cons a l ih => exact ih (hf p a h)

theorem Only.ite {c : Prop} [Decidable c] {s t : State} (hs : c → Only m r s) (ht : ¬c → Only m r t) : Only m r (if c then s else t) := by
  split
  · exact hs ‹_›
  · exact ht ‹_›

theorem Only.ite_fst {β : Type} {c : Prop} [Decidable c] {s t : State × β} (hs : c → Only m r s.1) (ht : ¬c → Only m r t.1) :
    Only m r (if c then s else t).1 := by
  split
  · exact hs ‹_›
  · exact ht ‹_›

theorem Only.ite_snd {β : Type} {c : Prop} [Decidable c] {s t : β × State} (hs : c → Only m r s.2) (ht : ¬c → Only m r t.2) :
    Only m r (if c then s else t).2 := by
  split
  · exact hs ‹_›
  · exact ht ‹_›

/-- A pair that a condition chooses. -/
theorem Only.ite_eq {β : Type} {c : Prop} [Decidable c] {a b : β × State} {x : β} {t : State} (e : (if c then a else b) = (x, t))
    (ha : c → a = (x, t) → Only m r t) (hb : ¬c → b = (x, t) → Only m r t) : Only m r t := by
  split at e
  · exact ha ‹_› e
  · exact hb ‹_› e

theorem Only.pair_eq {β : Type} {b x : β} {s t : State} (e : (b, s) = (x, t)) (h : Only m r s) : Only m r t := by
  cases e; exact h

/-! ### Updates of parts -/

/-- The same of a state that is written out. -/
def OnlyC (m : Nat) (r : State) (fn : Nat) (mode : Mode) (dict : Tab Nat) (commits : List Commit) (times : List (Nat × Nat × Nat)) (chg :
    List Nat) (due : List (Nat × Nat × Nat)) (olds : List (Nat × Nat × Nat)) (gens : List (Nat × Nat)) (acq : Acq) (aln : Aln) (tan : Tan)
    (cap : Cap) (bill : Bill) (pulse : Pulses) (img : Imgs) (tk : Tk) (pwr : Pwr) (srv : Srv) (spi : Spi) (t1s : T1s) (plc : Plc) (tb :
    Tb) (dev : Dev) (ready : Bool) (ring5 : List Event) (staging : List Snap) (sealed : List Snap) (current : Option Snap) (previous :
    Option Snap) (pins : List (Nat × Snap)) (jobs : List Job) (rollq : List Nat) (pages : Tab PageS) (seals : Tab Seal) (units : Tab
    UnitS) (draws : Nat) (pending : List Instr) : Prop :=
  Only m r (State.mk fn mode dict commits times chg due olds gens acq aln tan cap bill pulse img tk pwr srv spi t1s plc tb dev ready ring5
    staging sealed current previous pins jobs rollq pages seals units draws pending)

theorem Only.mk_eq {fn mode dict commits times chg due olds gens acq aln tan cap bill pulse img tk pwr srv spi t1s plc tb dev ready ring5
    staging sealed current previous pins jobs rollq pages seals units draws pending} :
    Only m r (State.mk fn mode dict commits times chg due olds gens acq aln tan cap bill pulse img tk pwr srv spi t1s plc tb dev ready
    ring5 staging sealed current previous pins jobs rollq pages seals units draws pending) =
    OnlyC m r fn mode dict commits times chg due olds gens acq aln tan cap bill pulse img tk pwr srv spi t1s plc tb dev ready ring5
    staging sealed current previous pins jobs rollq pages seals units draws pending := rfl

theorem Only.u_fn {x} (w : Within 1 m) (h : Only m r s) :
    OnlyC m r x s.mode s.dict s.commits s.times s.chg s.due s.olds s.gens s.acq s.aln s.tan s.cap s.bill s.pulse s.img s.tk s.pwr s.srv
    s.spi s.t1s s.plc s.tb s.dev s.ready s.ring5 s.staging s.sealed s.current s.previous s.pins s.jobs s.rollq s.pages s.seals s.units
    s.draws s.pending :=
  Only.trans w h (by constructor <;> intro e <;> first | rfl | exact absurd e (by decide))

theorem Only.u_mode {x} (w : Within 2 m) (h : Only m r s) :
    OnlyC m r s.fn x s.dict s.commits s.times s.chg s.due s.olds s.gens s.acq s.aln s.tan s.cap s.bill s.pulse s.img s.tk s.pwr s.srv
    s.spi s.t1s s.plc s.tb s.dev s.ready s.ring5 s.staging s.sealed s.current s.previous s.pins s.jobs s.rollq s.pages s.seals s.units
    s.draws s.pending :=
  Only.trans w h (by constructor <;> intro e <;> first | rfl | exact absurd e (by decide))

theorem Only.u_dict {x} (w : Within 4 m) (h : Only m r s) :
    OnlyC m r s.fn s.mode x s.commits s.times s.chg s.due s.olds s.gens s.acq s.aln s.tan s.cap s.bill s.pulse s.img s.tk s.pwr s.srv
    s.spi s.t1s s.plc s.tb s.dev s.ready s.ring5 s.staging s.sealed s.current s.previous s.pins s.jobs s.rollq s.pages s.seals s.units
    s.draws s.pending :=
  Only.trans w h (by constructor <;> intro e <;> first | rfl | exact absurd e (by decide))

theorem Only.u_dict_chg_due_olds_img_pwr {x2 x5 x6 x7 x15 x17} (w : Within 164068 m) (h : Only m r s) :
    OnlyC m r s.fn s.mode x2 s.commits s.times x5 x6 x7 s.gens s.acq s.aln s.tan s.cap s.bill s.pulse x15 s.tk x17 s.srv s.spi s.t1s s.plc
    s.tb s.dev s.ready s.ring5 s.staging s.sealed s.current s.previous s.pins s.jobs s.rollq s.pages s.seals s.units s.draws s.pending :=
  Only.trans w h (by constructor <;> intro e <;> first | rfl | exact absurd e (by decide))

theorem Only.u_commits {x} (w : Within 8 m) (h : Only m r s) :
    OnlyC m r s.fn s.mode s.dict x s.times s.chg s.due s.olds s.gens s.acq s.aln s.tan s.cap s.bill s.pulse s.img s.tk s.pwr s.srv s.spi
    s.t1s s.plc s.tb s.dev s.ready s.ring5 s.staging s.sealed s.current s.previous s.pins s.jobs s.rollq s.pages s.seals s.units s.draws
    s.pending :=
  Only.trans w h (by constructor <;> intro e <;> first | rfl | exact absurd e (by decide))

theorem Only.u_commits_gens {x3 x8} (w : Within 264 m) (h : Only m r s) :
    OnlyC m r s.fn s.mode s.dict x3 s.times s.chg s.due s.olds x8 s.acq s.aln s.tan s.cap s.bill s.pulse s.img s.tk s.pwr s.srv s.spi
    s.t1s s.plc s.tb s.dev s.ready s.ring5 s.staging s.sealed s.current s.previous s.pins s.jobs s.rollq s.pages s.seals s.units s.draws
    s.pending :=
  Only.trans w h (by constructor <;> intro e <;> first | rfl | exact absurd e (by decide))

theorem Only.u_commits_img {x3 x15} (w : Within 32776 m) (h : Only m r s) :
    OnlyC m r s.fn s.mode s.dict x3 s.times s.chg s.due s.olds s.gens s.acq s.aln s.tan s.cap s.bill s.pulse x15 s.tk s.pwr s.srv s.spi
    s.t1s s.plc s.tb s.dev s.ready s.ring5 s.staging s.sealed s.current s.previous s.pins s.jobs s.rollq s.pages s.seals s.units s.draws
    s.pending :=
  Only.trans w h (by constructor <;> intro e <;> first | rfl | exact absurd e (by decide))

theorem Only.u_times {x} (w : Within 16 m) (h : Only m r s) :
    OnlyC m r s.fn s.mode s.dict s.commits x s.chg s.due s.olds s.gens s.acq s.aln s.tan s.cap s.bill s.pulse s.img s.tk s.pwr s.srv s.spi
    s.t1s s.plc s.tb s.dev s.ready s.ring5 s.staging s.sealed s.current s.previous s.pins s.jobs s.rollq s.pages s.seals s.units s.draws
    s.pending :=
  Only.trans w h (by constructor <;> intro e <;> first | rfl | exact absurd e (by decide))

theorem Only.u_times_chg_due_olds_img_pwr_spi {x4 x5 x6 x7 x15 x17 x19} (w : Within 688368 m) (h : Only m r s) :
    OnlyC m r s.fn s.mode s.dict s.commits x4 x5 x6 x7 s.gens s.acq s.aln s.tan s.cap s.bill s.pulse x15 s.tk x17 s.srv x19 s.t1s s.plc
    s.tb s.dev s.ready s.ring5 s.staging s.sealed s.current s.previous s.pins s.jobs s.rollq s.pages s.seals s.units s.draws s.pending :=
  Only.trans w h (by constructor <;> intro e <;> first | rfl | exact absurd e (by decide))

theorem Only.u_times_bill_dev {x4 x13 x23} (w : Within 8396816 m) (h : Only m r s) :
    OnlyC m r s.fn s.mode s.dict s.commits x4 s.chg s.due s.olds s.gens s.acq s.aln s.tan s.cap x13 s.pulse s.img s.tk s.pwr s.srv s.spi
    s.t1s s.plc s.tb x23 s.ready s.ring5 s.staging s.sealed s.current s.previous s.pins s.jobs s.rollq s.pages s.seals s.units s.draws
    s.pending :=
  Only.trans w h (by constructor <;> intro e <;> first | rfl | exact absurd e (by decide))

theorem Only.u_chg {x} (w : Within 32 m) (h : Only m r s) :
    OnlyC m r s.fn s.mode s.dict s.commits s.times x s.due s.olds s.gens s.acq s.aln s.tan s.cap s.bill s.pulse s.img s.tk s.pwr s.srv
    s.spi s.t1s s.plc s.tb s.dev s.ready s.ring5 s.staging s.sealed s.current s.previous s.pins s.jobs s.rollq s.pages s.seals s.units
    s.draws s.pending :=
  Only.trans w h (by constructor <;> intro e <;> first | rfl | exact absurd e (by decide))

theorem Only.u_chg_due {x5 x6} (w : Within 96 m) (h : Only m r s) :
    OnlyC m r s.fn s.mode s.dict s.commits s.times x5 x6 s.olds s.gens s.acq s.aln s.tan s.cap s.bill s.pulse s.img s.tk s.pwr s.srv s.spi
    s.t1s s.plc s.tb s.dev s.ready s.ring5 s.staging s.sealed s.current s.previous s.pins s.jobs s.rollq s.pages s.seals s.units s.draws
    s.pending :=
  Only.trans w h (by constructor <;> intro e <;> first | rfl | exact absurd e (by decide))

theorem Only.u_due {x} (w : Within 64 m) (h : Only m r s) :
    OnlyC m r s.fn s.mode s.dict s.commits s.times s.chg x s.olds s.gens s.acq s.aln s.tan s.cap s.bill s.pulse s.img s.tk s.pwr s.srv
    s.spi s.t1s s.plc s.tb s.dev s.ready s.ring5 s.staging s.sealed s.current s.previous s.pins s.jobs s.rollq s.pages s.seals s.units
    s.draws s.pending :=
  Only.trans w h (by constructor <;> intro e <;> first | rfl | exact absurd e (by decide))

theorem Only.u_olds {x} (w : Within 128 m) (h : Only m r s) :
    OnlyC m r s.fn s.mode s.dict s.commits s.times s.chg s.due x s.gens s.acq s.aln s.tan s.cap s.bill s.pulse s.img s.tk s.pwr s.srv
    s.spi s.t1s s.plc s.tb s.dev s.ready s.ring5 s.staging s.sealed s.current s.previous s.pins s.jobs s.rollq s.pages s.seals s.units
    s.draws s.pending :=
  Only.trans w h (by constructor <;> intro e <;> first | rfl | exact absurd e (by decide))

theorem Only.u_olds_staging {x7 x26} (w : Within 67108992 m) (h : Only m r s) :
    OnlyC m r s.fn s.mode s.dict s.commits s.times s.chg s.due x7 s.gens s.acq s.aln s.tan s.cap s.bill s.pulse s.img s.tk s.pwr s.srv
    s.spi s.t1s s.plc s.tb s.dev s.ready s.ring5 x26 s.sealed s.current s.previous s.pins s.jobs s.rollq s.pages s.seals s.units s.draws
    s.pending :=
  Only.trans w h (by constructor <;> intro e <;> first | rfl | exact absurd e (by decide))

theorem Only.u_gens {x} (w : Within 256 m) (h : Only m r s) :
    OnlyC m r s.fn s.mode s.dict s.commits s.times s.chg s.due s.olds x s.acq s.aln s.tan s.cap s.bill s.pulse s.img s.tk s.pwr s.srv
    s.spi s.t1s s.plc s.tb s.dev s.ready s.ring5 s.staging s.sealed s.current s.previous s.pins s.jobs s.rollq s.pages s.seals s.units
    s.draws s.pending :=
  Only.trans w h (by constructor <;> intro e <;> first | rfl | exact absurd e (by decide))

theorem Only.u_acq {x} (w : Within 512 m) (h : Only m r s) :
    OnlyC m r s.fn s.mode s.dict s.commits s.times s.chg s.due s.olds s.gens x s.aln s.tan s.cap s.bill s.pulse s.img s.tk s.pwr s.srv
    s.spi s.t1s s.plc s.tb s.dev s.ready s.ring5 s.staging s.sealed s.current s.previous s.pins s.jobs s.rollq s.pages s.seals s.units
    s.draws s.pending :=
  Only.trans w h (by constructor <;> intro e <;> first | rfl | exact absurd e (by decide))

theorem Only.u_acq_aln {x9 x10} (w : Within 1536 m) (h : Only m r s) :
    OnlyC m r s.fn s.mode s.dict s.commits s.times s.chg s.due s.olds s.gens x9 x10 s.tan s.cap s.bill s.pulse s.img s.tk s.pwr s.srv
    s.spi s.t1s s.plc s.tb s.dev s.ready s.ring5 s.staging s.sealed s.current s.previous s.pins s.jobs s.rollq s.pages s.seals s.units
    s.draws s.pending :=
  Only.trans w h (by constructor <;> intro e <;> first | rfl | exact absurd e (by decide))

theorem Only.u_acq_aln_tan {x9 x10 x11} (w : Within 3584 m) (h : Only m r s) :
    OnlyC m r s.fn s.mode s.dict s.commits s.times s.chg s.due s.olds s.gens x9 x10 x11 s.cap s.bill s.pulse s.img s.tk s.pwr s.srv s.spi
    s.t1s s.plc s.tb s.dev s.ready s.ring5 s.staging s.sealed s.current s.previous s.pins s.jobs s.rollq s.pages s.seals s.units s.draws
    s.pending :=
  Only.trans w h (by constructor <;> intro e <;> first | rfl | exact absurd e (by decide))

theorem Only.u_acq_aln_tan_cap_pulse_srv_t1s_plc_tb_dev_ready_ring5_staging_sealed_current_previous_pins {x9 x10 x11 x12 x14 x18 x20 x21 x22 x23 x24 x25 x26 x27 x28 x29 x30} (w : Within 2146721280 m) (h : Only m r s) :
    OnlyC m r s.fn s.mode s.dict s.commits s.times s.chg s.due s.olds s.gens x9 x10 x11 x12 s.bill x14 s.img s.tk s.pwr x18 s.spi x20 x21
    x22 x23 x24 x25 x26 x27 x28 x29 x30 s.jobs s.rollq s.pages s.seals s.units s.draws s.pending :=
  Only.trans w h (by constructor <;> intro e <;> first | rfl | exact absurd e (by decide))

theorem Only.u_aln {x} (w : Within 1024 m) (h : Only m r s) :
    OnlyC m r s.fn s.mode s.dict s.commits s.times s.chg s.due s.olds s.gens s.acq x s.tan s.cap s.bill s.pulse s.img s.tk s.pwr s.srv
    s.spi s.t1s s.plc s.tb s.dev s.ready s.ring5 s.staging s.sealed s.current s.previous s.pins s.jobs s.rollq s.pages s.seals s.units
    s.draws s.pending :=
  Only.trans w h (by constructor <;> intro e <;> first | rfl | exact absurd e (by decide))

theorem Only.u_tan {x} (w : Within 2048 m) (h : Only m r s) :
    OnlyC m r s.fn s.mode s.dict s.commits s.times s.chg s.due s.olds s.gens s.acq s.aln x s.cap s.bill s.pulse s.img s.tk s.pwr s.srv
    s.spi s.t1s s.plc s.tb s.dev s.ready s.ring5 s.staging s.sealed s.current s.previous s.pins s.jobs s.rollq s.pages s.seals s.units
    s.draws s.pending :=
  Only.trans w h (by constructor <;> intro e <;> first | rfl | exact absurd e (by decide))

theorem Only.u_tan_cap_tk_pwr_spi_ring5 {x11 x12 x16 x17 x19 x25} (w : Within 34281472 m) (h : Only m r s) :
    OnlyC m r s.fn s.mode s.dict s.commits s.times s.chg s.due s.olds s.gens s.acq s.aln x11 x12 s.bill s.pulse s.img x16 x17 s.srv x19
    s.t1s s.plc s.tb s.dev s.ready x25 s.staging s.sealed s.current s.previous s.pins s.jobs s.rollq s.pages s.seals s.units s.draws
    s.pending :=
  Only.trans w h (by constructor <;> intro e <;> first | rfl | exact absurd e (by decide))

theorem Only.u_tan_bill {x11 x13} (w : Within 10240 m) (h : Only m r s) :
    OnlyC m r s.fn s.mode s.dict s.commits s.times s.chg s.due s.olds s.gens s.acq s.aln x11 s.cap x13 s.pulse s.img s.tk s.pwr s.srv
    s.spi s.t1s s.plc s.tb s.dev s.ready s.ring5 s.staging s.sealed s.current s.previous s.pins s.jobs s.rollq s.pages s.seals s.units
    s.draws s.pending :=
  Only.trans w h (by constructor <;> intro e <;> first | rfl | exact absurd e (by decide))

theorem Only.u_tan_current_previous {x11 x28 x29} (w : Within 805308416 m) (h : Only m r s) :
    OnlyC m r s.fn s.mode s.dict s.commits s.times s.chg s.due s.olds s.gens s.acq s.aln x11 s.cap s.bill s.pulse s.img s.tk s.pwr s.srv
    s.spi s.t1s s.plc s.tb s.dev s.ready s.ring5 s.staging s.sealed x28 x29 s.pins s.jobs s.rollq s.pages s.seals s.units s.draws
    s.pending :=
  Only.trans w h (by constructor <;> intro e <;> first | rfl | exact absurd e (by decide))

theorem Only.u_cap {x} (w : Within 4096 m) (h : Only m r s) :
    OnlyC m r s.fn s.mode s.dict s.commits s.times s.chg s.due s.olds s.gens s.acq s.aln s.tan x s.bill s.pulse s.img s.tk s.pwr s.srv
    s.spi s.t1s s.plc s.tb s.dev s.ready s.ring5 s.staging s.sealed s.current s.previous s.pins s.jobs s.rollq s.pages s.seals s.units
    s.draws s.pending :=
  Only.trans w h (by constructor <;> intro e <;> first | rfl | exact absurd e (by decide))

theorem Only.u_bill {x} (w : Within 8192 m) (h : Only m r s) :
    OnlyC m r s.fn s.mode s.dict s.commits s.times s.chg s.due s.olds s.gens s.acq s.aln s.tan s.cap x s.pulse s.img s.tk s.pwr s.srv
    s.spi s.t1s s.plc s.tb s.dev s.ready s.ring5 s.staging s.sealed s.current s.previous s.pins s.jobs s.rollq s.pages s.seals s.units
    s.draws s.pending :=
  Only.trans w h (by constructor <;> intro e <;> first | rfl | exact absurd e (by decide))

theorem Only.u_bill_pulse {x13 x14} (w : Within 24576 m) (h : Only m r s) :
    OnlyC m r s.fn s.mode s.dict s.commits s.times s.chg s.due s.olds s.gens s.acq s.aln s.tan s.cap x13 x14 s.img s.tk s.pwr s.srv s.spi
    s.t1s s.plc s.tb s.dev s.ready s.ring5 s.staging s.sealed s.current s.previous s.pins s.jobs s.rollq s.pages s.seals s.units s.draws
    s.pending :=
  Only.trans w h (by constructor <;> intro e <;> first | rfl | exact absurd e (by decide))

theorem Only.u_pulse {x} (w : Within 16384 m) (h : Only m r s) :
    OnlyC m r s.fn s.mode s.dict s.commits s.times s.chg s.due s.olds s.gens s.acq s.aln s.tan s.cap s.bill x s.img s.tk s.pwr s.srv s.spi
    s.t1s s.plc s.tb s.dev s.ready s.ring5 s.staging s.sealed s.current s.previous s.pins s.jobs s.rollq s.pages s.seals s.units s.draws
    s.pending :=
  Only.trans w h (by constructor <;> intro e <;> first | rfl | exact absurd e (by decide))

theorem Only.u_img {x} (w : Within 32768 m) (h : Only m r s) :
    OnlyC m r s.fn s.mode s.dict s.commits s.times s.chg s.due s.olds s.gens s.acq s.aln s.tan s.cap s.bill s.pulse x s.tk s.pwr s.srv
    s.spi s.t1s s.plc s.tb s.dev s.ready s.ring5 s.staging s.sealed s.current s.previous s.pins s.jobs s.rollq s.pages s.seals s.units
    s.draws s.pending :=
  Only.trans w h (by constructor <;> intro e <;> first | rfl | exact absurd e (by decide))

theorem Only.u_img_pwr {x15 x17} (w : Within 163840 m) (h : Only m r s) :
    OnlyC m r s.fn s.mode s.dict s.commits s.times s.chg s.due s.olds s.gens s.acq s.aln s.tan s.cap s.bill s.pulse x15 s.tk x17 s.srv
    s.spi s.t1s s.plc s.tb s.dev s.ready s.ring5 s.staging s.sealed s.current s.previous s.pins s.jobs s.rollq s.pages s.seals s.units
    s.draws s.pending :=
  Only.trans w h (by constructor <;> intro e <;> first | rfl | exact absurd e (by decide))

theorem Only.u_tk {x} (w : Within 65536 m) (h : Only m r s) :
    OnlyC m r s.fn s.mode s.dict s.commits s.times s.chg s.due s.olds s.gens s.acq s.aln s.tan s.cap s.bill s.pulse s.img x s.pwr s.srv
    s.spi s.t1s s.plc s.tb s.dev s.ready s.ring5 s.staging s.sealed s.current s.previous s.pins s.jobs s.rollq s.pages s.seals s.units
    s.draws s.pending :=
  Only.trans w h (by constructor <;> intro e <;> first | rfl | exact absurd e (by decide))

theorem Only.u_pwr {x} (w : Within 131072 m) (h : Only m r s) :
    OnlyC m r s.fn s.mode s.dict s.commits s.times s.chg s.due s.olds s.gens s.acq s.aln s.tan s.cap s.bill s.pulse s.img s.tk x s.srv
    s.spi s.t1s s.plc s.tb s.dev s.ready s.ring5 s.staging s.sealed s.current s.previous s.pins s.jobs s.rollq s.pages s.seals s.units
    s.draws s.pending :=
  Only.trans w h (by constructor <;> intro e <;> first | rfl | exact absurd e (by decide))

theorem Only.u_pwr_pages {x17 x33} (w : Within 8590065664 m) (h : Only m r s) :
    OnlyC m r s.fn s.mode s.dict s.commits s.times s.chg s.due s.olds s.gens s.acq s.aln s.tan s.cap s.bill s.pulse s.img s.tk x17 s.srv
    s.spi s.t1s s.plc s.tb s.dev s.ready s.ring5 s.staging s.sealed s.current s.previous s.pins s.jobs s.rollq x33 s.seals s.units s.draws
    s.pending :=
  Only.trans w h (by constructor <;> intro e <;> first | rfl | exact absurd e (by decide))

theorem Only.u_srv {x} (w : Within 262144 m) (h : Only m r s) :
    OnlyC m r s.fn s.mode s.dict s.commits s.times s.chg s.due s.olds s.gens s.acq s.aln s.tan s.cap s.bill s.pulse s.img s.tk s.pwr x
    s.spi s.t1s s.plc s.tb s.dev s.ready s.ring5 s.staging s.sealed s.current s.previous s.pins s.jobs s.rollq s.pages s.seals s.units
    s.draws s.pending :=
  Only.trans w h (by constructor <;> intro e <;> first | rfl | exact absurd e (by decide))

theorem Only.u_spi {x} (w : Within 524288 m) (h : Only m r s) :
    OnlyC m r s.fn s.mode s.dict s.commits s.times s.chg s.due s.olds s.gens s.acq s.aln s.tan s.cap s.bill s.pulse s.img s.tk s.pwr s.srv
    x s.t1s s.plc s.tb s.dev s.ready s.ring5 s.staging s.sealed s.current s.previous s.pins s.jobs s.rollq s.pages s.seals s.units s.draws
    s.pending :=
  Only.trans w h (by constructor <;> intro e <;> first | rfl | exact absurd e (by decide))

theorem Only.u_t1s {x} (w : Within 1048576 m) (h : Only m r s) :
    OnlyC m r s.fn s.mode s.dict s.commits s.times s.chg s.due s.olds s.gens s.acq s.aln s.tan s.cap s.bill s.pulse s.img s.tk s.pwr s.srv
    s.spi x s.plc s.tb s.dev s.ready s.ring5 s.staging s.sealed s.current s.previous s.pins s.jobs s.rollq s.pages s.seals s.units s.draws
    s.pending :=
  Only.trans w h (by constructor <;> intro e <;> first | rfl | exact absurd e (by decide))

theorem Only.u_t1s_plc {x20 x21} (w : Within 3145728 m) (h : Only m r s) :
    OnlyC m r s.fn s.mode s.dict s.commits s.times s.chg s.due s.olds s.gens s.acq s.aln s.tan s.cap s.bill s.pulse s.img s.tk s.pwr s.srv
    s.spi x20 x21 s.tb s.dev s.ready s.ring5 s.staging s.sealed s.current s.previous s.pins s.jobs s.rollq s.pages s.seals s.units s.draws
    s.pending :=
  Only.trans w h (by constructor <;> intro e <;> first | rfl | exact absurd e (by decide))

theorem Only.u_t1s_plc_ready_jobs {x20 x21 x24 x31} (w : Within 2167406592 m) (h : Only m r s) :
    OnlyC m r s.fn s.mode s.dict s.commits s.times s.chg s.due s.olds s.gens s.acq s.aln s.tan s.cap s.bill s.pulse s.img s.tk s.pwr s.srv
    s.spi x20 x21 s.tb s.dev x24 s.ring5 s.staging s.sealed s.current s.previous s.pins x31 s.rollq s.pages s.seals s.units s.draws
    s.pending :=
  Only.trans w h (by constructor <;> intro e <;> first | rfl | exact absurd e (by decide))

theorem Only.u_plc {x} (w : Within 2097152 m) (h : Only m r s) :
    OnlyC m r s.fn s.mode s.dict s.commits s.times s.chg s.due s.olds s.gens s.acq s.aln s.tan s.cap s.bill s.pulse s.img s.tk s.pwr s.srv
    s.spi s.t1s x s.tb s.dev s.ready s.ring5 s.staging s.sealed s.current s.previous s.pins s.jobs s.rollq s.pages s.seals s.units s.draws
    s.pending :=
  Only.trans w h (by constructor <;> intro e <;> first | rfl | exact absurd e (by decide))

theorem Only.u_tb {x} (w : Within 4194304 m) (h : Only m r s) :
    OnlyC m r s.fn s.mode s.dict s.commits s.times s.chg s.due s.olds s.gens s.acq s.aln s.tan s.cap s.bill s.pulse s.img s.tk s.pwr s.srv
    s.spi s.t1s s.plc x s.dev s.ready s.ring5 s.staging s.sealed s.current s.previous s.pins s.jobs s.rollq s.pages s.seals s.units
    s.draws s.pending :=
  Only.trans w h (by constructor <;> intro e <;> first | rfl | exact absurd e (by decide))

theorem Only.u_dev {x} (w : Within 8388608 m) (h : Only m r s) :
    OnlyC m r s.fn s.mode s.dict s.commits s.times s.chg s.due s.olds s.gens s.acq s.aln s.tan s.cap s.bill s.pulse s.img s.tk s.pwr s.srv
    s.spi s.t1s s.plc s.tb x s.ready s.ring5 s.staging s.sealed s.current s.previous s.pins s.jobs s.rollq s.pages s.seals s.units s.draws
    s.pending :=
  Only.trans w h (by constructor <;> intro e <;> first | rfl | exact absurd e (by decide))

theorem Only.u_ready {x} (w : Within 16777216 m) (h : Only m r s) :
    OnlyC m r s.fn s.mode s.dict s.commits s.times s.chg s.due s.olds s.gens s.acq s.aln s.tan s.cap s.bill s.pulse s.img s.tk s.pwr s.srv
    s.spi s.t1s s.plc s.tb s.dev x s.ring5 s.staging s.sealed s.current s.previous s.pins s.jobs s.rollq s.pages s.seals s.units s.draws
    s.pending :=
  Only.trans w h (by constructor <;> intro e <;> first | rfl | exact absurd e (by decide))

theorem Only.u_ready_jobs {x24 x31} (w : Within 2164260864 m) (h : Only m r s) :
    OnlyC m r s.fn s.mode s.dict s.commits s.times s.chg s.due s.olds s.gens s.acq s.aln s.tan s.cap s.bill s.pulse s.img s.tk s.pwr s.srv
    s.spi s.t1s s.plc s.tb s.dev x24 s.ring5 s.staging s.sealed s.current s.previous s.pins x31 s.rollq s.pages s.seals s.units s.draws
    s.pending :=
  Only.trans w h (by constructor <;> intro e <;> first | rfl | exact absurd e (by decide))

theorem Only.u_ring5 {x} (w : Within 33554432 m) (h : Only m r s) :
    OnlyC m r s.fn s.mode s.dict s.commits s.times s.chg s.due s.olds s.gens s.acq s.aln s.tan s.cap s.bill s.pulse s.img s.tk s.pwr s.srv
    s.spi s.t1s s.plc s.tb s.dev s.ready x s.staging s.sealed s.current s.previous s.pins s.jobs s.rollq s.pages s.seals s.units s.draws
    s.pending :=
  Only.trans w h (by constructor <;> intro e <;> first | rfl | exact absurd e (by decide))

theorem Only.u_staging_sealed {x26 x27} (w : Within 201326592 m) (h : Only m r s) :
    OnlyC m r s.fn s.mode s.dict s.commits s.times s.chg s.due s.olds s.gens s.acq s.aln s.tan s.cap s.bill s.pulse s.img s.tk s.pwr s.srv
    s.spi s.t1s s.plc s.tb s.dev s.ready s.ring5 x26 x27 s.current s.previous s.pins s.jobs s.rollq s.pages s.seals s.units s.draws
    s.pending :=
  Only.trans w h (by constructor <;> intro e <;> first | rfl | exact absurd e (by decide))

theorem Only.u_sealed {x} (w : Within 134217728 m) (h : Only m r s) :
    OnlyC m r s.fn s.mode s.dict s.commits s.times s.chg s.due s.olds s.gens s.acq s.aln s.tan s.cap s.bill s.pulse s.img s.tk s.pwr s.srv
    s.spi s.t1s s.plc s.tb s.dev s.ready s.ring5 s.staging x s.current s.previous s.pins s.jobs s.rollq s.pages s.seals s.units s.draws
    s.pending :=
  Only.trans w h (by constructor <;> intro e <;> first | rfl | exact absurd e (by decide))

theorem Only.u_current_previous {x28 x29} (w : Within 805306368 m) (h : Only m r s) :
    OnlyC m r s.fn s.mode s.dict s.commits s.times s.chg s.due s.olds s.gens s.acq s.aln s.tan s.cap s.bill s.pulse s.img s.tk s.pwr s.srv
    s.spi s.t1s s.plc s.tb s.dev s.ready s.ring5 s.staging s.sealed x28 x29 s.pins s.jobs s.rollq s.pages s.seals s.units s.draws
    s.pending :=
  Only.trans w h (by constructor <;> intro e <;> first | rfl | exact absurd e (by decide))

theorem Only.u_pins {x} (w : Within 1073741824 m) (h : Only m r s) :
    OnlyC m r s.fn s.mode s.dict s.commits s.times s.chg s.due s.olds s.gens s.acq s.aln s.tan s.cap s.bill s.pulse s.img s.tk s.pwr s.srv
    s.spi s.t1s s.plc s.tb s.dev s.ready s.ring5 s.staging s.sealed s.current s.previous x s.jobs s.rollq s.pages s.seals s.units s.draws
    s.pending :=
  Only.trans w h (by constructor <;> intro e <;> first | rfl | exact absurd e (by decide))

theorem Only.u_jobs {x} (w : Within 2147483648 m) (h : Only m r s) :
    OnlyC m r s.fn s.mode s.dict s.commits s.times s.chg s.due s.olds s.gens s.acq s.aln s.tan s.cap s.bill s.pulse s.img s.tk s.pwr s.srv
    s.spi s.t1s s.plc s.tb s.dev s.ready s.ring5 s.staging s.sealed s.current s.previous s.pins x s.rollq s.pages s.seals s.units s.draws
    s.pending :=
  Only.trans w h (by constructor <;> intro e <;> first | rfl | exact absurd e (by decide))

theorem Only.u_jobs_rollq {x31 x32} (w : Within 6442450944 m) (h : Only m r s) :
    OnlyC m r s.fn s.mode s.dict s.commits s.times s.chg s.due s.olds s.gens s.acq s.aln s.tan s.cap s.bill s.pulse s.img s.tk s.pwr s.srv
    s.spi s.t1s s.plc s.tb s.dev s.ready s.ring5 s.staging s.sealed s.current s.previous s.pins x31 x32 s.pages s.seals s.units s.draws
    s.pending :=
  Only.trans w h (by constructor <;> intro e <;> first | rfl | exact absurd e (by decide))

theorem Only.u_jobs_rollq_seals {x31 x32 x34} (w : Within 23622320128 m) (h : Only m r s) :
    OnlyC m r s.fn s.mode s.dict s.commits s.times s.chg s.due s.olds s.gens s.acq s.aln s.tan s.cap s.bill s.pulse s.img s.tk s.pwr s.srv
    s.spi s.t1s s.plc s.tb s.dev s.ready s.ring5 s.staging s.sealed s.current s.previous s.pins x31 x32 s.pages x34 s.units s.draws
    s.pending :=
  Only.trans w h (by constructor <;> intro e <;> first | rfl | exact absurd e (by decide))

theorem Only.u_jobs_pages {x31 x33} (w : Within 10737418240 m) (h : Only m r s) :
    OnlyC m r s.fn s.mode s.dict s.commits s.times s.chg s.due s.olds s.gens s.acq s.aln s.tan s.cap s.bill s.pulse s.img s.tk s.pwr s.srv
    s.spi s.t1s s.plc s.tb s.dev s.ready s.ring5 s.staging s.sealed s.current s.previous s.pins x31 s.rollq x33 s.seals s.units s.draws
    s.pending :=
  Only.trans w h (by constructor <;> intro e <;> first | rfl | exact absurd e (by decide))

theorem Only.u_rollq {x} (w : Within 4294967296 m) (h : Only m r s) :
    OnlyC m r s.fn s.mode s.dict s.commits s.times s.chg s.due s.olds s.gens s.acq s.aln s.tan s.cap s.bill s.pulse s.img s.tk s.pwr s.srv
    s.spi s.t1s s.plc s.tb s.dev s.ready s.ring5 s.staging s.sealed s.current s.previous s.pins s.jobs x s.pages s.seals s.units s.draws
    s.pending :=
  Only.trans w h (by constructor <;> intro e <;> first | rfl | exact absurd e (by decide))

theorem Only.u_pages {x} (w : Within 8589934592 m) (h : Only m r s) :
    OnlyC m r s.fn s.mode s.dict s.commits s.times s.chg s.due s.olds s.gens s.acq s.aln s.tan s.cap s.bill s.pulse s.img s.tk s.pwr s.srv
    s.spi s.t1s s.plc s.tb s.dev s.ready s.ring5 s.staging s.sealed s.current s.previous s.pins s.jobs s.rollq x s.seals s.units s.draws
    s.pending :=
  Only.trans w h (by constructor <;> intro e <;> first | rfl | exact absurd e (by decide))

theorem Only.u_seals {x} (w : Within 17179869184 m) (h : Only m r s) :
    OnlyC m r s.fn s.mode s.dict s.commits s.times s.chg s.due s.olds s.gens s.acq s.aln s.tan s.cap s.bill s.pulse s.img s.tk s.pwr s.srv
    s.spi s.t1s s.plc s.tb s.dev s.ready s.ring5 s.staging s.sealed s.current s.previous s.pins s.jobs s.rollq s.pages x s.units s.draws
    s.pending :=
  Only.trans w h (by constructor <;> intro e <;> first | rfl | exact absurd e (by decide))

theorem Only.u_units {x} (w : Within 34359738368 m) (h : Only m r s) :
    OnlyC m r s.fn s.mode s.dict s.commits s.times s.chg s.due s.olds s.gens s.acq s.aln s.tan s.cap s.bill s.pulse s.img s.tk s.pwr s.srv
    s.spi s.t1s s.plc s.tb s.dev s.ready s.ring5 s.staging s.sealed s.current s.previous s.pins s.jobs s.rollq s.pages s.seals x s.draws
    s.pending :=
  Only.trans w h (by constructor <;> intro e <;> first | rfl | exact absurd e (by decide))

theorem Only.u_draws {x} (w : Within 68719476736 m) (h : Only m r s) :
    OnlyC m r s.fn s.mode s.dict s.commits s.times s.chg s.due s.olds s.gens s.acq s.aln s.tan s.cap s.bill s.pulse s.img s.tk s.pwr s.srv
    s.spi s.t1s s.plc s.tb s.dev s.ready s.ring5 s.staging s.sealed s.current s.previous s.pins s.jobs s.rollq s.pages s.seals s.units x
    s.pending :=
  Only.trans w h (by constructor <;> intro e <;> first | rfl | exact absurd e (by decide))

end Sys2Proof.Machine
end

