-- ==== Sys2Proof/Laws/OnlyOps.lean ====
section
/-! SUPPORT. Which parts the operations of these files change: Ops, StoreOps, Lanes, CaptureOps, Detect. -/

namespace Sys2Proof.Machine

variable {m : Nat} {r : State}

/-! ### Ops -/

theorem State_put_only {s a1 a2} (w : Within 4 m) (h : Only m r s) : Only m r (State.put s a1 a2) := by
  unfold State.put
  with_reducible repeat' first
    | (simp only [Only.mk_eq]; refine Only.u_dict (w.of (by decide)) ?_) | assumption

theorem State_putI_only {s a1 a2} (w : Within 4 m) (h : Only m r s) : Only m r (State.putI s a1 a2) := by
  unfold State.putI
  with_reducible repeat' first
    | assumption | refine State_put_only (w.of (by decide)) ?_

theorem State_bumpBy_only {s a1 a2} (w : Within 4 m) (h : Only m r s) : Only m r (State.bumpBy s a1 a2) := by
  unfold State.bumpBy
  with_reducible repeat' first
    | assumption | refine State_put_only (w.of (by decide)) ?_

theorem State_bump_only {s a1} (w : Within 4 m) (h : Only m r s) : Only m r (State.bump s a1) := by
  unfold State.bump
  with_reducible repeat' first
    | assumption | refine State_bumpBy_only (w.of (by decide)) ?_

theorem State_putLive_only {s a1 a2} (w : Within 36 m) (h : Only m r s) : Only m r (State.putLive s a1 a2) := by
  unfold State.putLive
  with_reducible repeat' first
    | (simp only [Only.mk_eq]; refine Only.u_chg (w.of (by decide)) ?_) | assumption | refine State_put_only (w.of (by decide)) ?_ | split

theorem State_bumpLive_only {s a1} (w : Within 36 m) (h : Only m r s) : Only m r (State.bumpLive s a1) := by
  unfold State.bumpLive
  with_reducible repeat' first
    | assumption | refine State_putLive_only (w.of (by decide)) ?_

theorem State_putDue_only {s a1 a2 a3} (w : Within 68 m) (h : Only m r s) : Only m r (State.putDue s a1 a2 a3) := by
  unfold State.putDue
  with_reducible repeat' first
    | (simp only [Only.mk_eq]; refine Only.u_due (w.of (by decide)) ?_) | assumption | refine State_put_only (w.of (by decide)) ?_ | split

theorem State_putDueI_only {s a1 a2 a3} (w : Within 68 m) (h : Only m r s) : Only m r (State.putDueI s a1 a2 a3) := by
  unfold State.putDueI
  with_reducible repeat' first
    | assumption | refine State_putDue_only (w.of (by decide)) ?_

theorem State_dropDue_only {s a1 a2} (w : Within 64 m) (h : Only m r s) : Only m r (State.dropDue s a1 a2) := by
  unfold State.dropDue
  with_reducible repeat' first
    | (simp only [Only.mk_eq]; refine Only.u_due (w.of (by decide)) ?_) | assumption

theorem State_putBoth_only {s a1 a2} (w : Within 4 m) (h : Only m r s) : Only m r (State.putBoth s a1 a2) := by
  unfold State.putBoth
  with_reducible repeat' first
    | assumption | refine State_put_only (w.of (by decide)) ?_

theorem State_putsBoth_only {l : List (Nat × Nat)} {s} (w : Within 4 m) (h : Only m r s) : Only m r (State.putsBoth s l) := by
  induction l generalizing s with
  | nil => exact h
  | cons e l ih => exact ih (State_putBoth_only (w.of (by decide)) h)

theorem State_putV_only {s a1 a2} (w : Within 132 m) (h : Only m r s) : Only m r (State.putV s a1 a2) := by
  unfold State.putV
  with_reducible repeat' first
    | (simp only [Only.mk_eq]; refine Only.u_olds (w.of (by decide)) ?_) | assumption | refine State_put_only (w.of (by decide)) ?_
    | split

theorem State_bumpV_only {s a1} (w : Within 132 m) (h : Only m r s) : Only m r (State.bumpV s a1) := by
  unfold State.bumpV
  with_reducible repeat' first
    | assumption | refine State_putV_only (w.of (by decide)) ?_

theorem putTotal_only {a0 a1 a2 s} (w : Within 68 m) (h : Only m r s) : Only m r (putTotal a0 a1 a2 s) := by
  unfold putTotal
  with_reducible repeat' first
    | assumption | refine State_put_only (w.of (by decide)) ?_ | refine State_putDue_only (w.of (by decide)) ?_

theorem State_endFrame_only {s} (w : Within 96 m) (h : Only m r s) : Only m r (State.endFrame s) := by
  unfold State.endFrame
  with_reducible repeat' first
    | (simp only [Only.mk_eq]; refine Only.u_chg_due (w.of (by decide)) ?_) | assumption

theorem State_applyDue_only {s a1} (w : Within 68 m) (h : Only m r s) : Only m r (State.applyDue s a1) := by
  unfold State.applyDue
  with_reducible repeat' first
    | (simp only [Only.mk_eq]; refine Only.u_due (w.of (by decide)) ?_) | assumption | refine Only.foldl ?_ ?_
    | refine State_put_only (w.of (by decide)) ?_ | intro _

theorem State_setFn_only {s a1} (w : Within 1 m) (h : Only m r s) : Only m r (State.setFn s a1) := by
  unfold State.setFn
  with_reducible repeat' first
    | (simp only [Only.mk_eq]; refine Only.u_fn (w.of (by decide)) ?_) | assumption

theorem State_setMode_only {s a1} (w : Within 2 m) (h : Only m r s) : Only m r (State.setMode s a1) := by
  unfold State.setMode
  with_reducible repeat' first
    | (simp only [Only.mk_eq]; refine Only.u_mode (w.of (by decide)) ?_) | assumption

theorem State_puts_only {s l} (w : Within 4 m) (h : Only m r s) : Only m r (State.puts s l) := by
  induction l generalizing s with
  | nil => exact h
  | cons e l ih => exact ih (State_put_only w h)

theorem State_draw_only {s} (w : Within 68719476736 m) (h : Only m r s) : Only m r (State.draw s).2 := by
  unfold State.draw
  with_reducible repeat' first
    | (simp only [Only.mk_eq]; refine Only.u_draws (w.of (by decide)) ?_) | assumption

theorem State_draw_only' {s x t} (e : State.draw s = (x, t)) (w : Within 68719476736 m) (h : Only m r s) : Only m r t := by
  have k := State_draw_only (m := m) (r := r) (s := s) w h
  rw [e] at k; exact k

theorem State_drawBytes_only {s a1} (w : Within 68719476736 m) (h : Only m r s) : Only m r (State.drawBytes s a1).2 := by
  unfold State.drawBytes
  with_reducible repeat' first
    | (simp only [Only.mk_eq]; refine Only.u_draws (w.of (by decide)) ?_) | assumption

theorem State_drawBytes_only' {s a1 x t} (e : State.drawBytes s a1 = (x, t)) (w : Within 68719476736 m) (h : Only m r s) : Only m r t := by
  have k := State_drawBytes_only (m := m) (r := r) (s := s) (a1 := a1) w h
  rw [e] at k; exact k

theorem State_eventAt_only {s a1 a2 a3} (w : Within 33554436 m) (h : Only m r s) : Only m r (State.eventAt s a1 a2 a3) := by
  unfold State.eventAt
  with_reducible repeat' first
    | (simp only [Only.mk_eq]; refine Only.u_ring5 (w.of (by decide)) ?_) | assumption | refine State_bump_only (w.of (by decide)) ?_
    | split

theorem State_event_only {s a1 a2} (w : Within 33554436 m) (h : Only m r s) : Only m r (State.event s a1 a2) := by
  unfold State.event
  with_reducible repeat' first
    | assumption | refine State_eventAt_only (w.of (by decide)) ?_

theorem unitSet_only {a0 a1 a2 a3 a4 s} (w : Within 33554436 m) (h : Only m r s) : Only m r (unitSet a0 a1 a2 a3 a4 s) := by
  unfold unitSet
  with_reducible repeat' first
    | assumption | refine State_event_only (w.of (by decide)) ?_ | refine State_put_only (w.of (by decide)) ?_ | split

theorem unitFail_only {a0 a1 a2 a3 a4 s} (w : Within 33554436 m) (h : Only m r s) : Only m r (unitFail a0 a1 a2 a3 a4 s).1 := by
  unfold unitFail
  try dsimp only
  with_reducible repeat' first
    | assumption | refine State_put_only (w.of (by decide)) ?_ | refine unitSet_only (w.of (by decide)) ?_ | split

theorem unitFail_only' {a0 a1 a2 a3 a4 s x t} (e : unitFail a0 a1 a2 a3 a4 s = (t, x)) (w : Within 33554436 m) (h : Only m r s) : Only m r t := by
  have k := unitFail_only (m := m) (r := r) (a0 := a0) (a1 := a1) (a2 := a2) (a3 := a3) (a4 := a4) (s := s) w h
  rw [e] at k; exact k

theorem unitPass_only {a0 a1 a2 a3 s} (w : Within 33554436 m) (h : Only m r s) : Only m r (unitPass a0 a1 a2 a3 s) := by
  unfold unitPass
  with_reducible repeat' first
    | assumption | refine State_put_only (w.of (by decide)) ?_ | refine unitSet_only (w.of (by decide)) ?_
    | refine Only.ite (fun _ => ?_) (fun _ => ?_)

/-! ### StoreOps -/

theorem setC_only {a0 a1 s} (w : Within 8192 m) (h : Only m r s) : Only m r (setC a0 a1 s) := by
  unfold setC
  with_reducible repeat' first
    | (simp only [Only.mk_eq]; refine Only.u_bill (w.of (by decide)) ?_) | assumption

theorem modPage_only {a0 a1 s} (w : Within 8589934592 m) (h : Only m r s) : Only m r (modPage a0 a1 s) := by
  unfold modPage
  with_reducible repeat' first
    | (simp only [Only.mk_eq]; refine Only.u_pages (w.of (by decide)) ?_) | assumption

theorem holdSlots_only {a0 s} (w : Within 8192 m) (h : Only m r s) : Only m r (holdSlots a0 s) := by
  unfold holdSlots
  with_reducible repeat' first
    | assumption | refine Only.foldl ?_ ?_ | refine setC_only (w.of (by decide)) ?_ | split | intro _

theorem startHead_only {s} (w : Within 2147491840 m) (h : Only m r s) : Only m r (startHead s) := by
  unfold startHead
  with_reducible repeat' first
    | (simp only [Only.mk_eq]; refine Only.u_jobs (w.of (by decide)) ?_) | assumption | refine holdSlots_only (w.of (by decide)) ?_
    | split

theorem letSlots_only {a0 a1 s} (w : Within 8192 m) (h : Only m r s) : Only m r (letSlots a0 a1 s) := by
  unfold letSlots
  with_reducible repeat' first
    | (simp only [Only.mk_eq]; refine Only.u_bill (w.of (by decide)) ?_) | assumption

theorem dropSlots_only {a0 s} (w : Within 8192 m) (h : Only m r s) : Only m r (dropSlots a0 s) := by
  unfold dropSlots
  with_reducible repeat' first
    | assumption | refine Only.foldl ?_ ?_ | refine setC_only (w.of (by decide)) ?_ | split | intro _

theorem postJob_only {a0 s} (w : Within 2147491840 m) (h : Only m r s) : Only m r (postJob a0 s) := by
  unfold postJob
  with_reducible repeat' first
    | (simp only [Only.mk_eq]; refine Only.u_jobs (w.of (by decide)) ?_) | assumption | refine startHead_only (w.of (by decide)) ?_

theorem takeWrite_only {a0 s} (w : Within 8589934592 m) (h : Only m r s) : Only m r (takeWrite a0 s) := by
  unfold takeWrite
  with_reducible repeat' first
    | assumption | refine modPage_only (w.of (by decide)) ?_ | split

theorem postWrite_only {a0 s} (w : Within 10737426432 m) (h : Only m r s) : Only m r (postWrite a0 s) := by
  unfold postWrite
  with_reducible repeat' first
    | assumption | refine postJob_only (w.of (by decide)) ?_ | refine takeWrite_only (w.of (by decide)) ?_ | split

theorem pumpRolls_only {s} (w : Within 6442459136 m) (h : Only m r s) : Only m r (pumpRolls s) := by
  unfold pumpRolls
  with_reducible repeat' first
    | (simp only [Only.mk_eq]; refine Only.u_rollq (w.of (by decide)) ?_) | assumption | refine Only.foldl ?_ ?_
    | refine postJob_only (w.of (by decide)) ?_ | intro _

theorem postRoll_only {a0 s} (w : Within 6442459140 m) (h : Only m r s) : Only m r (postRoll a0 s) := by
  unfold postRoll
  with_reducible repeat' first
    | (simp only [Only.mk_eq]; refine Only.u_rollq (w.of (by decide)) ?_) | assumption | refine State_bump_only (w.of (by decide)) ?_
    | refine pumpRolls_only (w.of (by decide)) ?_ | split

theorem keepRatios_only {a0 s} (w : Within 8192 m) (h : Only m r s) : Only m r (keepRatios a0 s) := by
  unfold keepRatios
  with_reducible repeat' first
    | assumption | refine setC_only (w.of (by decide)) ?_

theorem putReg_only {a0 a1 a2 a3 s} (w : Within 68 m) (h : Only m r s) : Only m r (putReg a0 a1 a2 a3 s) := by
  unfold putReg
  with_reducible repeat' first
    | assumption | refine State_put_only (w.of (by decide)) ?_ | refine State_putDue_only (w.of (by decide)) ?_

theorem setFlag_only {a0 a1 a2 s} (w : Within 68 m) (h : Only m r s) : Only m r (setFlag a0 a1 a2 s) := by
  unfold setFlag
  with_reducible repeat' first
    | assumption | refine State_putDue_only (w.of (by decide)) ?_

theorem checkTotal_only {a0 a1 a2 s} (w : Within 33554500 m) (h : Only m r s) : Only m r (checkTotal a0 a1 a2 s) := by
  unfold checkTotal
  with_reducible repeat' first
    | assumption | refine State_bump_only (w.of (by decide)) ?_ | refine State_eventAt_only (w.of (by decide)) ?_
    | refine putReg_only (w.of (by decide)) ?_ | refine setFlag_only (w.of (by decide)) ?_ | refine Only.ite (fun _ => ?_) (fun _ => ?_)

theorem checkTotals_only {a0 a1 s} (w : Within 33554500 m) (h : Only m r s) : Only m r (checkTotals a0 a1 s) := by
  unfold checkTotals
  with_reducible repeat' first
    | assumption | refine Only.foldl ?_ ?_ | refine checkTotal_only (w.of (by decide)) ?_ | intro _

theorem forceRoll_only {a0 s} (w : Within 15065948228 m) (h : Only m r s) : Only m r (forceRoll a0 s) := by
  unfold forceRoll
  with_reducible repeat' first
    | (simp only [Only.mk_eq]; refine Only.u_pages (w.of (by decide)) ?_) | assumption | refine Only.foldl ?_ ?_
    | refine State_bump_only (w.of (by decide)) ?_ | refine checkTotals_only (w.of (by decide)) ?_
    | refine keepRatios_only (w.of (by decide)) ?_ | refine postRoll_only (w.of (by decide)) ?_ | intro _

theorem retireFrame_only {a0 a1 s} (w : Within 42983227396 m) (h : Only m r s) : Only m r (retireFrame a0 a1 s) := by
  unfold retireFrame
  try dsimp only
  with_reducible repeat' first
    | (simp only [Only.mk_eq]; refine Only.u_pages (w.of (by decide)) ?_)
    | (simp only [Only.mk_eq]; refine Only.u_units (w.of (by decide)) ?_) | assumption | refine State_bump_only (w.of (by decide)) ?_
    | refine State_event_only (w.of (by decide)) ?_ | refine State_put_only (w.of (by decide)) ?_ | split

theorem writeFrame_only {a0 a1 s} (w : Within 17213423748 m) (h : Only m r s) : Only m r (writeFrame a0 a1 s) := by
  unfold writeFrame
  with_reducible repeat' first
    | (simp only [Only.mk_eq]; refine Only.u_seals (w.of (by decide)) ?_) | assumption | refine State_bump_only (w.of (by decide)) ?_
    | refine State_bumpV_only (w.of (by decide)) ?_ | refine State_event_only (w.of (by decide)) ?_
    | refine State_putV_only (w.of (by decide)) ?_ | split

theorem storeFailed_only {a0 a1 s} (w : Within 45130711044 m) (h : Only m r s) : Only m r (storeFailed a0 a1 s) := by
  unfold storeFailed
  with_reducible repeat' first
    | (simp only [Only.mk_eq]; refine Only.u_jobs (w.of (by decide)) ?_)
    | (simp only [Only.mk_eq]; refine Only.u_units (w.of (by decide)) ?_) | assumption | refine State_bump_only (w.of (by decide)) ?_
    | refine State_event_only (w.of (by decide)) ?_ | refine retireFrame_only (w.of (by decide)) ?_ | split

theorem storeSealed_only {a0 a1 s} (w : Within 49425686532 m) (h : Only m r s) : Only m r (storeSealed a0 a1 s) := by
  unfold storeSealed
  with_reducible repeat' first
    | (simp only [Only.mk_eq]; refine Only.u_jobs_pages (w.of (by decide)) ?_)
    | (simp only [Only.mk_eq]; refine Only.u_units (w.of (by decide)) ?_) | assumption | refine State_event_only (w.of (by decide)) ?_
    | refine dropSlots_only (w.of (by decide)) ?_ | refine pumpRolls_only (w.of (by decide)) ?_
    | refine startHead_only (w.of (by decide)) ?_ | refine takeWrite_only (w.of (by decide)) ?_ | split

theorem storeRec_only {a0 a1 a2 s} (w : Within 10737426432 m) (h : Only m r s) : Only m r (storeRec a0 a1 a2 s) := by
  unfold storeRec
  with_reducible repeat' first
    | (simp only [Only.mk_eq]; refine Only.u_jobs (w.of (by decide)) ?_) | assumption | refine modPage_only (w.of (by decide)) ?_
    | refine postWrite_only (w.of (by decide)) ?_ | refine Only.ite (fun _ => ?_) (fun _ => ?_)

theorem storeLegal_only {s} (w : Within 10737557504 m) (h : Only m r s) : Only m r (storeLegal s) := by
  unfold storeLegal
  with_reducible repeat' first
    | (simp only [Only.mk_eq]; refine Only.u_pwr (w.of (by decide)) ?_) | assumption | refine Only.foldl ?_ ?_
    | refine storeRec_only (w.of (by decide)) ?_ | refine Only.ite (fun _ => ?_) (fun _ => ?_) | intro _

theorem showPage_only {a0 s} (w : Within 4 m) (h : Only m r s) : Only m r (showPage a0 s) := by
  unfold showPage
  with_reducible repeat' first
    | assumption | refine State_put_only (w.of (by decide)) ?_

/-! ### Lanes -/

theorem rangeCross_only {a0 a1 a2 a3 a4 s} (w : Within 36 m) (h : Only m r s) : Only m r (rangeCross a0 a1 a2 a3 a4 s).2 := by
  unfold rangeCross
  with_reducible repeat' first
    | assumption | refine State_putLive_only (w.of (by decide)) ?_

theorem rangeCross_only' {a0 a1 a2 a3 a4 s x t} (e : rangeCross a0 a1 a2 a3 a4 s = (x, t)) (w : Within 36 m) (h : Only m r s) : Only m r t := by
  have k := rangeCross_only (m := m) (r := r) (a0 := a0) (a1 := a1) (a2 := a2) (a3 := a3) (a4 := a4) (s := s) w h
  rw [e] at k; exact k

theorem rangeSee_only {a0 a1 a2 a3 a4 s} (w : Within 36 m) (h : Only m r s) : Only m r (rangeSee a0 a1 a2 a3 a4 s).2 := by
  unfold rangeSee
  with_reducible repeat' first
    | assumption | refine State_bumpLive_only (w.of (by decide)) ?_ | refine rangeCross_only (w.of (by decide)) ?_
    | refine Only.ite (fun _ => ?_) (fun _ => ?_) | split

theorem rangeSee_only' {a0 a1 a2 a3 a4 s x t} (e : rangeSee a0 a1 a2 a3 a4 s = (x, t)) (w : Within 36 m) (h : Only m r s) : Only m r t := by
  have k := rangeSee_only (m := m) (r := r) (a0 := a0) (a1 := a1) (a2 := a2) (a3 := a3) (a4 := a4) (s := s) w h
  rw [e] at k; exact k

theorem rangeLatch_only {a0 a1 s} (w : Within 36 m) (h : Only m r s) : Only m r (rangeLatch a0 a1 s).2 := by
  unfold rangeLatch
  with_reducible repeat' first
    | assumption | refine State_bumpLive_only (w.of (by decide)) ?_ | split

theorem rangeLatch_only' {a0 a1 s x t} (e : rangeLatch a0 a1 s = (x, t)) (w : Within 36 m) (h : Only m r s) : Only m r t := by
  have k := rangeLatch_only (m := m) (r := r) (a0 := a0) (a1 := a1) (s := s) w h
  rw [e] at k; exact k

theorem latchAll_only {s} (w : Within 548 m) (h : Only m r s) : Only m r (latchAll s) := by
  unfold latchAll
  with_reducible repeat' first
    | (simp only [Only.mk_eq]; refine Only.u_acq (w.of (by decide)) ?_) | assumption | refine Only.foldl ?_ ?_
    | refine rangeLatch_only (w.of (by decide)) ?_ | intro _

theorem recredit0_only {a0 s} (w : Within 512 m) (h : Only m r s) : Only m r (recredit0 a0 s) := by
  unfold recredit0
  with_reducible repeat' first
    | (simp only [Only.mk_eq]; refine Only.u_acq (w.of (by decide)) ?_) | assumption

theorem lowRange_only {a0 s} (w : Within 512 m) (h : Only m r s) : Only m r (lowRange a0 s) := by
  unfold lowRange
  with_reducible repeat' first
    | (simp only [Only.mk_eq]; refine Only.u_acq (w.of (by decide)) ?_) | assumption

theorem restartStreams_only {a0 a1 s} (w : Within 1024 m) (h : Only m r s) : Only m r (restartStreams a0 a1 s) := by
  unfold restartStreams
  with_reducible repeat' first
    | (simp only [Only.mk_eq]; refine Only.u_aln (w.of (by decide)) ?_) | assumption

theorem stopStreams_only {a0 s} (w : Within 1024 m) (h : Only m r s) : Only m r (stopStreams a0 s) := by
  unfold stopStreams
  with_reducible repeat' first
    | (simp only [Only.mk_eq]; refine Only.u_aln (w.of (by decide)) ?_) | assumption

theorem takeoverDo_only {a0 a1 s} (w : Within 33556004 m) (h : Only m r s) : Only m r (takeoverDo a0 a1 s) := by
  unfold takeoverDo
  with_reducible repeat' first
    | (simp only [Only.mk_eq]; refine Only.u_acq (w.of (by decide)) ?_) | assumption | refine State_put_only (w.of (by decide)) ?_
    | refine State_putLive_only (w.of (by decide)) ?_ | refine lowRange_only (w.of (by decide)) ?_
    | refine recredit0_only (w.of (by decide)) ?_ | refine restartStreams_only (w.of (by decide)) ?_
    | refine unitSet_only (w.of (by decide)) ?_ | split

theorem takeoversDue_only {s} (w : Within 33556004 m) (h : Only m r s) : Only m r (takeoversDue s) := by
  unfold takeoversDue
  with_reducible repeat' first
    | assumption | refine Only.foldl ?_ ?_ | refine takeoverDo_only (w.of (by decide)) ?_ | intro _

theorem execLaneTakeover_only {a0 s t} (e : execLaneTakeover a0 s = .next t) (w : Within 33556004 m) (h : Only m r s) : Only m r t := by
  unfold execLaneTakeover at e
  injection e with e
  subst e
  with_reducible repeat' first
    | assumption | refine takeoverDo_only (w.of (by decide)) ?_ | split

theorem execRangeCrossingTimeout_only {a0 s t} (e : execRangeCrossingTimeout a0 s = .next t) (w : Within 548 m) (h : Only m r s) : Only m r t := by
  unfold execRangeCrossingTimeout at e
  injection e with e
  subst e
  with_reducible repeat' first
    | (simp only [Only.mk_eq]; refine Only.u_acq (w.of (by decide)) ?_) | assumption | refine rangeCross_only (w.of (by decide)) ?_
    | split

/-! ### CaptureOps -/

theorem capStart_only {a0 a1 a2 a3 a4 s} (w : Within 4132 m) (h : Only m r s) : Only m r (capStart a0 a1 a2 a3 a4 s) := by
  unfold capStart
  with_reducible repeat' first
    | (simp only [Only.mk_eq]; refine Only.u_cap (w.of (by decide)) ?_) | assumption | refine State_putLive_only (w.of (by decide)) ?_

theorem capTrigger_only {a0 a1 a2 a3 s} (w : Within 4132 m) (h : Only m r s) : Only m r (capTrigger a0 a1 a2 a3 s) := by
  unfold capTrigger
  with_reducible repeat' first
    | assumption | refine State_bump_only (w.of (by decide)) ?_ | refine capStart_only (w.of (by decide)) ?_
    | refine Only.ite (fun _ => ?_) (fun _ => ?_)

theorem capFlush_only {a0 s} (w : Within 4100 m) (h : Only m r s) : Only m r (capFlush a0 s).2 := by
  unfold capFlush
  with_reducible repeat' first
    | (simp only [Only.mk_eq]; refine Only.u_cap (w.of (by decide)) ?_) | assumption | refine State_bump_only (w.of (by decide)) ?_
    | split

theorem capFlush_only' {a0 s x t} (e : capFlush a0 s = (x, t)) (w : Within 4100 m) (h : Only m r s) : Only m r t := by
  have k := capFlush_only (m := m) (r := r) (a0 := a0) (s := s) w h
  rw [e] at k; exact k

theorem capRow_only {a0 a1 s} (w : Within 4100 m) (h : Only m r s) : Only m r (capRow a0 a1 s).2 := by
  unfold capRow
  with_reducible repeat' first
    | assumption | refine capFlush_only (w.of (by decide)) ?_ | refine Only.ite_snd (fun _ => ?_) (fun _ => ?_)

theorem capRow_only' {a0 a1 s x t} (e : capRow a0 a1 s = (x, t)) (w : Within 4100 m) (h : Only m r s) : Only m r t := by
  have k := capRow_only (m := m) (r := r) (a0 := a0) (a1 := a1) (s := s) w h
  rw [e] at k; exact k

theorem capRows_only {a0 a1 s} (w : Within 4100 m) (h : Only m r s) : Only m r (capRows a0 a1 s).2 := by
  induction a0 generalizing s a1 with
  | nil => exact h
  | cons _ l ih =>
    have ih' : ∀ {x t u b1}, capRows l b1 u = (x, t) → Only m r u → Only m r t := fun {x t u b1} e h => by
      have k : Only m r (capRows l b1 u).2 := ih h; rw [e] at k; exact k
    unfold capRows
    with_reducible repeat' first
      | refine ih ?_ | assumption | refine capRow_only (w.of (by decide)) ?_

theorem capRows_only' {a0 a1 s x t} (e : capRows a0 a1 s = (x, t)) (w : Within 4100 m) (h : Only m r s) : Only m r t := by
  have k := capRows_only (m := m) (r := r) (a0 := a0) (a1 := a1) (s := s) w h
  rw [e] at k; exact k

theorem capCollect_only {s} (w : Within 4100 m) (h : Only m r s) : Only m r (capCollect s) := by
  unfold capCollect
  with_reducible repeat' first
    | (simp only [Only.mk_eq]; refine Only.u_cap (w.of (by decide)) ?_) | assumption | refine capRows_only (w.of (by decide)) ?_ | split

theorem capPush_only {a0 s} (w : Within 4096 m) (h : Only m r s) : Only m r (capPush a0 s) := by
  unfold capPush
  with_reducible repeat' first
    | (simp only [Only.mk_eq]; refine Only.u_cap (w.of (by decide)) ?_) | assumption

theorem capFinish_only {a0 s} (w : Within 4132 m) (h : Only m r s) : Only m r (capFinish a0 s) := by
  unfold capFinish
  with_reducible repeat' first
    | (simp only [Only.mk_eq]; refine Only.u_cap (w.of (by decide)) ?_) | assumption | refine State_putLive_only (w.of (by decide)) ?_
    | refine capFlush_only (w.of (by decide)) ?_

theorem execCaptureComplete_only {s t} (e : execCaptureComplete s = .next t) (w : Within 4132 m) (h : Only m r s) : Only m r t := by
  unfold execCaptureComplete at e
  injection e with e
  subst e
  with_reducible repeat' first
    | assumption | refine capFinish_only (w.of (by decide)) ?_ | split

theorem execCaptureHoldoffExpiry_only {s t} (e : execCaptureHoldoffExpiry s = .next t) (w : Within 36 m) (h : Only m r s) : Only m r t := by
  unfold execCaptureHoldoffExpiry at e
  injection e with e
  subst e
  with_reducible repeat' first
    | assumption | refine State_putLive_only (w.of (by decide)) ?_ | split

theorem capCut_only {a0 s} (w : Within 4132 m) (h : Only m r s) : Only m r (capCut a0 s) := by
  unfold capCut
  with_reducible repeat' first
    | (simp only [Only.mk_eq]; refine Only.u_cap (w.of (by decide)) ?_) | assumption | refine capFinish_only (w.of (by decide)) ?_ | split

/-! ### Detect -/

theorem startRecord_only {a0 a1 a2 a3 a4 a5 s} (w : Within 33558564 m) (h : Only m r s) : Only m r (startRecord a0 a1 a2 a3 a4 a5 s) := by
  unfold startRecord
  with_reducible repeat' first
    | assumption | refine State_bump_only (w.of (by decide)) ?_ | refine State_eventAt_only (w.of (by decide)) ?_
    | refine capTrigger_only (w.of (by decide)) ?_

theorem groupEnd_only {a0 a1 a2 a3 a4 s} (w : Within 33556484 m) (h : Only m r s) : Only m r (groupEnd a0 a1 a2 a3 a4 s) := by
  unfold groupEnd
  with_reducible repeat' first
    | (simp only [Only.mk_eq]; refine Only.u_tan (w.of (by decide)) ?_) | assumption | refine State_eventAt_only (w.of (by decide)) ?_

theorem groupStart_only {a0 a1 a2 a3 a4 a5 a6 a7 a8 s} (w : Within 33560612 m) (h : Only m r s) : Only m r (groupStart a0 a1 a2 a3 a4 a5 a6 a7 a8 s) := by
  unfold groupStart
  with_reducible repeat' first
    | (simp only [Only.mk_eq]; refine Only.u_tan (w.of (by decide)) ?_) | assumption | refine startRecord_only (w.of (by decide)) ?_

theorem vDetect_only {a0 a1 a2 a3 a4 a5 s} (w : Within 33560612 m) (h : Only m r s) : Only m r (vDetect a0 a1 a2 a3 a4 a5 s) := by
  unfold vDetect
  with_reducible repeat' first
    | (simp only [Only.mk_eq]; refine Only.u_tan (w.of (by decide)) ?_) | assumption | refine groupEnd_only (w.of (by decide)) ?_
    | refine groupStart_only (w.of (by decide)) ?_ | refine Only.ite (fun _ => ?_) (fun _ => ?_)

theorem vDetectAll_only {a0 a1 a2 a3 a4 s} (w : Within 33560612 m) (h : Only m r s) : Only m r (vDetectAll a0 a1 a2 a3 a4 s) := by
  unfold vDetectAll
  with_reducible repeat' first
    | assumption | refine vDetect_only (w.of (by decide)) ?_ | split

theorem ocEnd_only {a0 a1 a2 a3 s} (w : Within 33556484 m) (h : Only m r s) : Only m r (ocEnd a0 a1 a2 a3 s) := by
  unfold ocEnd
  with_reducible repeat' first
    | (simp only [Only.mk_eq]; refine Only.u_tan (w.of (by decide)) ?_) | assumption | refine State_eventAt_only (w.of (by decide)) ?_

theorem ocDetect_only {a0 a1 a2 a3 a4 s} (w : Within 33560612 m) (h : Only m r s) : Only m r (ocDetect a0 a1 a2 a3 a4 s) := by
  unfold ocDetect
  with_reducible repeat' first
    | (simp only [Only.mk_eq]; refine Only.u_tan (w.of (by decide)) ?_) | assumption | refine ocEnd_only (w.of (by decide)) ?_
    | refine startRecord_only (w.of (by decide)) ?_ | refine Only.ite (fun _ => ?_) (fun _ => ?_)

theorem niEnd_only {a0 a1 a2 s} (w : Within 33556484 m) (h : Only m r s) : Only m r (niEnd a0 a1 a2 s) := by
  unfold niEnd
  with_reducible repeat' first
    | (simp only [Only.mk_eq]; refine Only.u_tan (w.of (by decide)) ?_) | assumption | refine State_eventAt_only (w.of (by decide)) ?_

theorem niDetect_only {a0 a1 a2 a3 a4 s} (w : Within 33560612 m) (h : Only m r s) : Only m r (niDetect a0 a1 a2 a3 a4 s) := by
  unfold niDetect
  with_reducible repeat' first
    | (simp only [Only.mk_eq]; refine Only.u_tan (w.of (by decide)) ?_) | assumption | refine niEnd_only (w.of (by decide)) ?_
    | refine startRecord_only (w.of (by decide)) ?_ | refine Only.ite (fun _ => ?_) (fun _ => ?_)

theorem plEnd_only {a0 a1 a2 s} (w : Within 33556484 m) (h : Only m r s) : Only m r (plEnd a0 a1 a2 s) := by
  unfold plEnd
  with_reducible repeat' first
    | (simp only [Only.mk_eq]; refine Only.u_tan (w.of (by decide)) ?_) | assumption | refine State_eventAt_only (w.of (by decide)) ?_

theorem plDetect_only {a0 a1 a2 a3 s} (w : Within 33560612 m) (h : Only m r s) : Only m r (plDetect a0 a1 a2 a3 s) := by
  unfold plDetect
  with_reducible repeat' first
    | (simp only [Only.mk_eq]; refine Only.u_tan (w.of (by decide)) ?_) | assumption | refine plEnd_only (w.of (by decide)) ?_
    | refine startRecord_only (w.of (by decide)) ?_ | refine Only.ite (fun _ => ?_) (fun _ => ?_)

end Sys2Proof.Machine
end

