-- ==== Sys2Proof/Laws/OnlyWindows.lean ====
section
/-! SUPPORT. Which parts the operations of these files change: Windows, Accrue, Boundary, Pulse. -/

namespace Sys2Proof.Machine

variable {m : Nat} {r : State}

/-! ### Windows -/

theorem setZc_only {a0 a1 s} (w : Within 2048 m) (h : Only m r s) : Only m r (setZc a0 a1 s) := by
  unfold setZc
  with_reducible repeat' first
    | (simp only [Only.mk_eq]; refine Only.u_tan (w.of (by decide)) ?_) | assumption

theorem setSig_only {a0 a1 s} (w : Within 2048 m) (h : Only m r s) : Only m r (setSig a0 a1 s) := by
  unfold setSig
  with_reducible repeat' first
    | (simp only [Only.mk_eq]; refine Only.u_tan (w.of (by decide)) ?_) | assumption

theorem setCwin_only {a0 a1 s} (w : Within 2048 m) (h : Only m r s) : Only m r (setCwin a0 a1 s) := by
  unfold setCwin
  with_reducible repeat' first
    | (simp only [Only.mk_eq]; refine Only.u_tan (w.of (by decide)) ?_) | assumption

theorem pubInput_only {a0 a1 a2 a3 s} (w : Within 68 m) (h : Only m r s) : Only m r (pubInput a0 a1 a2 a3 s) := by
  unfold pubInput
  with_reducible repeat' first
    | assumption | refine State_putDue_only (w.of (by decide)) ?_

theorem halfClose_only {a0 a1 a2 a3 a4 a5 s} (w : Within 33560676 m) (h : Only m r s) : Only m r (halfClose a0 a1 a2 a3 a4 a5 s) := by
  unfold halfClose
  with_reducible repeat' first
    | assumption | refine ocDetect_only (w.of (by decide)) ?_ | refine pubInput_only (w.of (by decide)) ?_
    | refine setSig_only (w.of (by decide)) ?_ | refine vDetectAll_only (w.of (by decide)) ?_
    | refine Only.ite (fun _ => ?_) (fun _ => ?_) | split

theorem cycClose_only {a0 a1 a2 a3 a4 a5 s} (w : Within 2116 m) (h : Only m r s) : Only m r (cycClose a0 a1 a2 a3 a4 a5 s) := by
  unfold cycClose
  with_reducible repeat' first
    | (simp only [Only.mk_eq]; refine Only.u_tan (w.of (by decide)) ?_) | assumption | refine pubInput_only (w.of (by decide)) ?_
    | refine setSig_only (w.of (by decide)) ?_ | refine Only.ite (fun _ => ?_) (fun _ => ?_)

theorem cctClose_only {a0 a1 a2 a3 s} (w : Within 33560676 m) (h : Only m r s) : Only m r (cctClose a0 a1 a2 a3 s) := by
  unfold cctClose
  with_reducible repeat' first
    | assumption | refine Only.foldl ?_ ?_ | refine State_putDue_only (w.of (by decide)) ?_
    | refine State_putDueI_only (w.of (by decide)) ?_ | refine niDetect_only (w.of (by decide)) ?_
    | refine plDetect_only (w.of (by decide)) ?_ | refine setCwin_only (w.of (by decide)) ?_ | refine Only.ite (fun _ => ?_) (fun _ => ?_)
    | intro _

theorem cycEnd_only {a0 a1 a2 a3 s} (w : Within 33560676 m) (h : Only m r s) : Only m r (cycEnd a0 a1 a2 a3 s) := by
  unfold cycEnd
  with_reducible repeat' first
    | assumption | refine Only.foldl ?_ ?_ | refine State_putDue_only (w.of (by decide)) ?_ | refine cctClose_only (w.of (by decide)) ?_
    | refine cycClose_only (w.of (by decide)) ?_ | refine setZc_only (w.of (by decide)) ?_ | intro _

theorem popSig_only {a0 s} (w : Within 2048 m) (h : Only m r s) : Only m r (popSig a0 s).2 := by
  unfold popSig
  with_reducible repeat' first
    | assumption | refine setSig_only (w.of (by decide)) ?_

theorem popSig_only' {a0 s x t} (e : popSig a0 s = (x, t)) (w : Within 2048 m) (h : Only m r s) : Only m r t := by
  have k := popSig_only (m := m) (r := r) (a0 := a0) (s := s) w h
  rw [e] at k; exact k

theorem popCct_only {a0 a1 a2 s} (w : Within 2048 m) (h : Only m r s) : Only m r (popCct a0 a1 a2 s) := by
  unfold popCct
  with_reducible repeat' first
    | assumption | refine setCwin_only (w.of (by decide)) ?_

theorem sigEnd_only {a0 a1 a2 a3 a4 a5 a6 s} (w : Within 33560676 m) (h : Only m r s) : Only m r (sigEnd a0 a1 a2 a3 a4 a5 a6 s) := by
  unfold sigEnd
  with_reducible repeat' first
    | assumption | refine halfClose_only (w.of (by decide)) ?_ | refine popSig_only (w.of (by decide)) ?_
    | refine setSig_only (w.of (by decide)) ?_ | refine Only.ite (fun _ => ?_) (fun _ => ?_)

theorem sigLost_only {a0 a1 s} (w : Within 2116 m) (h : Only m r s) : Only m r (sigLost a0 a1 s) := by
  unfold sigLost
  with_reducible repeat' first
    | assumption | refine Only.foldl ?_ ?_ | refine State_putDue_only (w.of (by decide)) ?_ | refine setSig_only (w.of (by decide)) ?_
    | split | intro _

theorem cctLost_only {a0 a1 s} (w : Within 2116 m) (h : Only m r s) : Only m r (cctLost a0 a1 s) := by
  unfold cctLost
  with_reducible repeat' first
    | assumption | refine Only.foldl ?_ ?_ | refine State_putDue_only (w.of (by decide)) ?_ | refine setCwin_only (w.of (by decide)) ?_
    | intro _

theorem winsLost_only {a0 a1 s} (w : Within 2116 m) (h : Only m r s) : Only m r (winsLost a0 a1 s) := by
  unfold winsLost
  with_reducible repeat' first
    | assumption | refine Only.foldl ?_ ?_ | refine State_putDue_only (w.of (by decide)) ?_ | refine cctLost_only (w.of (by decide)) ?_
    | refine setZc_only (w.of (by decide)) ?_ | refine sigLost_only (w.of (by decide)) ?_ | intro _

theorem halfCount_only {a0 a1 a2 s} (w : Within 33560676 m) (h : Only m r s) : Only m r (halfCount a0 a1 a2 s) := by
  unfold halfCount
  with_reducible repeat' first
    | assumption | refine Only.foldl ?_ ?_ | refine cycEnd_only (w.of (by decide)) ?_ | refine popCct_only (w.of (by decide)) ?_
    | refine popSig_only (w.of (by decide)) ?_ | refine setZc_only (w.of (by decide)) ?_ | refine sigEnd_only (w.of (by decide)) ?_
    | refine Only.ite (fun _ => ?_) (fun _ => ?_) | intro _

theorem halfEnd_only {a0 a1 a2 s} (w : Within 33560676 m) (h : Only m r s) : Only m r (halfEnd a0 a1 a2 s) := by
  unfold halfEnd
  with_reducible repeat' first
    | assumption | refine halfCount_only (w.of (by decide)) ?_ | refine winsLost_only (w.of (by decide)) ?_ | split

theorem halfEnds_only {a0 a1 s} (w : Within 33560676 m) (h : Only m r s) : Only m r (halfEnds a0 a1 s) := by
  induction a1 generalizing s with
  | zero => exact h
  | succ _ ih =>
    unfold halfEnds
    with_reducible repeat' first
      | refine ih ?_ | assumption | refine halfEnd_only (w.of (by decide)) ?_ | split

theorem pqPublish_only {a0 s} (w : Within 68 m) (h : Only m r s) : Only m r (pqPublish a0 s) := by
  unfold pqPublish
  with_reducible repeat' first
    | assumption | refine Only.foldl ?_ ?_ | refine State_putDue_only (w.of (by decide)) ?_ | intro _

/-! ### Accrue -/

theorem regAdd_only {a0 a1 a2 a3 s} (w : Within 68 m) (h : Only m r s) : Only m r (regAdd a0 a1 a2 a3 s) := by
  unfold regAdd
  with_reducible repeat' first
    | assumption | refine Only.foldl ?_ ?_ | refine putReg_only (w.of (by decide)) ?_ | split | intro _ _ _ | intro _

theorem enterKind_only {a0 a1 a2 a3 s} (w : Within 8260 m) (h : Only m r s) : Only m r (enterKind a0 a1 a2 a3 s) := by
  unfold enterKind
  with_reducible repeat' first
    | assumption | refine Only.foldl ?_ ?_ | refine regAdd_only (w.of (by decide)) ?_ | refine setC_only (w.of (by decide)) ?_
    | refine Only.ite_snd (fun _ => ?_) (fun _ => ?_) | split | refine Only.ite_eq (by assumption) (fun _ _ => ?_) (fun _ _ => ?_)
    | intro _ _ _ | intro _

theorem demandAdd_only {a0 a1 a2 a3 s} (w : Within 8192 m) (h : Only m r s) : Only m r (demandAdd a0 a1 a2 a3 s) := by
  unfold demandAdd
  try dsimp only
  with_reducible repeat' first
    | assumption | refine Only.foldl ?_ ?_ | refine setC_only (w.of (by decide)) ?_ | split | intro _ _ _ | intro _

theorem enterAll_only {a0 a1 a2 s} (w : Within 8260 m) (h : Only m r s) : Only m r (enterAll a0 a1 a2 s) := by
  unfold enterAll
  with_reducible repeat' first
    | assumption | refine Only.foldl ?_ ?_ | refine enterKind_only (w.of (by decide)) ?_ | split | intro _ _ _ | intro _

theorem absorbDo_only {a0 a1 a2 a3 a4 s} (w : Within 8260 m) (h : Only m r s) : Only m r (absorbDo a0 a1 a2 a3 a4 s).2 := by
  unfold absorbDo
  with_reducible repeat' first
    | assumption | refine Only.foldl ?_ ?_ | refine State_put_only (w.of (by decide)) ?_ | refine demandAdd_only (w.of (by decide)) ?_
    | refine enterAll_only (w.of (by decide)) ?_ | refine setFlag_only (w.of (by decide)) ?_ | refine Only.pair_eq (by assumption) ?_
    | refine Only.ite (fun _ => ?_) (fun _ => ?_) | refine Only.ite_snd (fun _ => ?_) (fun _ => ?_) | split
    | refine Only.ite_eq (by assumption) (fun _ _ => ?_) (fun _ _ => ?_) | intro _

theorem absorbDo_only' {a0 a1 a2 a3 a4 s x t} (e : absorbDo a0 a1 a2 a3 a4 s = (x, t)) (w : Within 8260 m) (h : Only m r s) : Only m r t := by
  have k := absorbDo_only (m := m) (r := r) (a0 := a0) (a1 := a1) (a2 := a2) (a3 := a3) (a4 := a4) (s := s) w h
  rw [e] at k; exact k

theorem directionStep_only {a0 a1 a2 s} (w : Within 8192 m) (h : Only m r s) : Only m r (directionStep a0 a1 a2 s) := by
  unfold directionStep
  with_reducible repeat' first
    | assumption | refine Only.foldl ?_ ?_ | refine setC_only (w.of (by decide)) ?_ | refine Only.ite (fun _ => ?_) (fun _ => ?_) | split
    | intro _ _ _ | intro _

theorem accrueCct_only {a0 a1 s} (w : Within 8260 m) (h : Only m r s) : Only m r (accrueCct a0 a1 s).2 := by
  unfold accrueCct
  with_reducible repeat' first
    | (simp only [Only.mk_eq]; refine Only.u_bill (w.of (by decide)) ?_) | assumption | refine State_bump_only (w.of (by decide)) ?_
    | refine State_putDue_only (w.of (by decide)) ?_ | refine State_putDueI_only (w.of (by decide)) ?_
    | refine absorbDo_only (w.of (by decide)) ?_ | refine demandAdd_only (w.of (by decide)) ?_
    | refine directionStep_only (w.of (by decide)) ?_ | refine enterAll_only (w.of (by decide)) ?_
    | refine setC_only (w.of (by decide)) ?_ | refine setFlag_only (w.of (by decide)) ?_ | refine Only.ite (fun _ => ?_) (fun _ => ?_)
    | split

theorem accrueCct_only' {a0 a1 s x t} (e : accrueCct a0 a1 s = (x, t)) (w : Within 8260 m) (h : Only m r s) : Only m r t := by
  have k := accrueCct_only (m := m) (r := r) (a0 := a0) (a1 := a1) (s := s) w h
  rw [e] at k; exact k

/-! ### Boundary -/

theorem maxTake_only {a0 a1 a2 a3 a4 a5 s} (w : Within 68 m) (h : Only m r s) : Only m r (maxTake a0 a1 a2 a3 a4 a5 s) := by
  unfold maxTake
  with_reducible repeat' first
    | assumption | refine State_putDue_only (w.of (by decide)) ?_ | split

theorem maxTotals_only {a0 a1 s} (w : Within 68 m) (h : Only m r s) : Only m r (maxTotals a0 a1 s) := by
  unfold maxTotals
  with_reducible repeat' first
    | assumption | refine State_putDue_only (w.of (by decide)) ?_

theorem evalMaxima_only {a0 a1 a2 a3 a4 a5 s} (w : Within 68 m) (h : Only m r s) : Only m r (evalMaxima a0 a1 a2 a3 a4 a5 s).2 := by
  unfold evalMaxima
  with_reducible repeat' first
    | assumption | refine State_putDue_only (w.of (by decide)) ?_ | refine maxTake_only (w.of (by decide)) ?_
    | refine maxTotals_only (w.of (by decide)) ?_

theorem evalMaxima_only' {a0 a1 a2 a3 a4 a5 s x t} (e : evalMaxima a0 a1 a2 a3 a4 a5 s = (x, t)) (w : Within 68 m) (h : Only m r s) : Only m r t := by
  have k := evalMaxima_only (m := m) (r := r) (a0 := a0) (a1 := a1) (a2 := a2) (a3 := a3) (a4 := a4) (a5 := a5) (s := s) w h
  rw [e] at k; exact k

theorem evalIvl_only {a0 a1 a2 a3 a4 a5 s} (w : Within 33554500 m) (h : Only m r s) : Only m r (evalIvl a0 a1 a2 a3 a4 a5 s) := by
  unfold evalIvl
  with_reducible repeat' first
    | assumption | refine State_bump_only (w.of (by decide)) ?_ | refine State_eventAt_only (w.of (by decide)) ?_
    | refine evalMaxima_only (w.of (by decide)) ?_ | refine Only.ite (fun _ => ?_) (fun _ => ?_)

theorem closeIvl_only {a0 a1 a2 a3 s} (w : Within 33562692 m) (h : Only m r s) : Only m r (closeIvl a0 a1 a2 a3 s) := by
  unfold closeIvl
  try dsimp only
  with_reducible repeat' first
    | assumption | refine evalIvl_only (w.of (by decide)) ?_ | refine setC_only (w.of (by decide)) ?_ | split

theorem showDemand_only {a0 a1 s} (w : Within 68 m) (h : Only m r s) : Only m r (showDemand a0 a1 s) := by
  unfold showDemand
  try dsimp only
  with_reducible repeat' first
    | assumption | refine State_putDue_only (w.of (by decide)) ?_ | split

theorem rescaleReg_only {a0 a1 a2 a3 a4 a5 s} (w : Within 68 m) (h : Only m r s) : Only m r (rescaleReg a0 a1 a2 a3 a4 a5 s) := by
  unfold rescaleReg
  with_reducible repeat' first
    | assumption | refine putReg_only (w.of (by decide)) ?_

theorem rescaleGecko_only {a0 a1 a2 s} (w : Within 2147491844 m) (h : Only m r s) : Only m r (rescaleGecko a0 a1 a2 s) := by
  unfold rescaleGecko
  with_reducible repeat' first
    | assumption | refine State_put_only (w.of (by decide)) ?_ | refine postJob_only (w.of (by decide)) ?_
    | refine Only.ite (fun _ => ?_) (fun _ => ?_)

theorem rescaleCct_only {a0 a1 a2 a3 s} (w : Within 15065948228 m) (h : Only m r s) : Only m r (rescaleCct a0 a1 a2 a3 s) := by
  unfold rescaleCct
  with_reducible repeat' first
    | assumption | refine Only.foldl ?_ ?_ | refine State_eventAt_only (w.of (by decide)) ?_ | refine State_put_only (w.of (by decide)) ?_
    | refine forceRoll_only (w.of (by decide)) ?_ | refine putReg_only (w.of (by decide)) ?_ | refine putTotal_only (w.of (by decide)) ?_
    | refine rescaleGecko_only (w.of (by decide)) ?_ | refine rescaleReg_only (w.of (by decide)) ?_
    | refine setC_only (w.of (by decide)) ?_ | intro _

theorem defineCct_only {a0 a1 s} (w : Within 8260 m) (h : Only m r s) : Only m r (defineCct a0 a1 s) := by
  unfold defineCct
  with_reducible repeat' first
    | assumption | refine setC_only (w.of (by decide)) ?_ | refine showDemand_only (w.of (by decide)) ?_

theorem cutIvl_only {a0 a1 s} (w : Within 8192 m) (h : Only m r s) : Only m r (cutIvl a0 a1 s) := by
  unfold cutIvl
  with_reducible repeat' first
    | assumption | refine setC_only (w.of (by decide)) ?_

theorem undefineCct_only {a0 a1 s} (w : Within 8260 m) (h : Only m r s) : Only m r (undefineCct a0 a1 s) := by
  unfold undefineCct
  with_reducible repeat' first
    | assumption | refine Only.foldl ?_ ?_ | refine State_putDue_only (w.of (by decide)) ?_ | refine setC_only (w.of (by decide)) ?_
    | intro _

theorem cfgCct_only {a0 a1 s} (w : Within 15065948228 m) (h : Only m r s) : Only m r (cfgCct a0 a1 s) := by
  unfold cfgCct
  with_reducible repeat' first
    | assumption | refine cutIvl_only (w.of (by decide)) ?_ | refine defineCct_only (w.of (by decide)) ?_
    | refine rescaleCct_only (w.of (by decide)) ?_ | refine undefineCct_only (w.of (by decide)) ?_
    | refine Only.ite (fun _ => ?_) (fun _ => ?_)

theorem cfgOffset_only {a0 s} (w : Within 8192 m) (h : Only m r s) : Only m r (cfgOffset a0 s) := by
  unfold cfgOffset
  with_reducible repeat' first
    | (simp only [Only.mk_eq]; refine Only.u_bill (w.of (by decide)) ?_) | assumption | split

theorem cfgPulse_only {a0 a1 s} (w : Within 16388 m) (h : Only m r s) : Only m r (cfgPulse a0 a1 s) := by
  unfold cfgPulse
  with_reducible repeat' first
    | (simp only [Only.mk_eq]; refine Only.u_pulse (w.of (by decide)) ?_) | assumption | refine State_bumpBy_only (w.of (by decide)) ?_
    | split

theorem cfgTrain_only {a0 a1 s} (w : Within 16384 m) (h : Only m r s) : Only m r (cfgTrain a0 a1 s) := by
  unfold cfgTrain
  with_reducible repeat' first
    | (simp only [Only.mk_eq]; refine Only.u_pulse (w.of (by decide)) ?_) | assumption | split

theorem cfgFrame_only {a0 s} (w : Within 15065964612 m) (h : Only m r s) : Only m r (cfgFrame a0 s) := by
  unfold cfgFrame
  with_reducible repeat' first
    | assumption | refine Only.foldl ?_ ?_ | refine cfgCct_only (w.of (by decide)) ?_ | refine cfgOffset_only (w.of (by decide)) ?_
    | refine cfgPulse_only (w.of (by decide)) ?_ | refine cfgTrain_only (w.of (by decide)) ?_ | split | intro _

theorem waitStart_only {a0 a1 a2 a3 a4 s} (w : Within 15065948228 m) (h : Only m r s) : Only m r (waitStart a0 a1 a2 a3 a4 s) := by
  unfold waitStart
  with_reducible repeat' first
    | (simp only [Only.mk_eq]; refine Only.u_bill (w.of (by decide)) ?_) | assumption | refine State_bump_only (w.of (by decide)) ?_
    | refine forceRoll_only (w.of (by decide)) ?_

theorem waitEnd_only {a0 a1 a2 s} (w : Within 33562692 m) (h : Only m r s) : Only m r (waitEnd a0 a1 a2 s) := by
  unfold waitEnd
  with_reducible repeat' first
    | (simp only [Only.mk_eq]; refine Only.u_bill (w.of (by decide)) ?_) | assumption | refine Only.foldl ?_ ?_
    | refine State_bumpBy_only (w.of (by decide)) ?_ | refine State_eventAt_only (w.of (by decide)) ?_
    | refine setFlag_only (w.of (by decide)) ?_ | intro _

theorem waitLate_only {a0 s} (w : Within 8192 m) (h : Only m r s) : Only m r (waitLate a0 s) := by
  unfold waitLate
  with_reducible repeat' first
    | (simp only [Only.mk_eq]; refine Only.u_bill (w.of (by decide)) ?_) | assumption

theorem mayAct_only {a0 a1 a2 a3 a4 a5 s} (w : Within 15065948228 m) (h : Only m r s) : Only m r (mayAct a0 a1 a2 a3 a4 a5 s).2 := by
  unfold mayAct
  with_reducible repeat' first
    | assumption | refine waitEnd_only (w.of (by decide)) ?_ | refine waitStart_only (w.of (by decide)) ?_ | split

theorem mayAct_only' {a0 a1 a2 a3 a4 a5 s x t} (e : mayAct a0 a1 a2 a3 a4 a5 s = (x, t)) (w : Within 15065948228 m) (h : Only m r s) : Only m r t := by
  have k := mayAct_only (m := m) (r := r) (a0 := a0) (a1 := a1) (a2 := a2) (a3 := a3) (a4 := a4) (a5 := a5) (s := s) w h
  rw [e] at k; exact k

theorem endIvl_only {a0 a1 a2 a3 s} (w : Within 33562692 m) (h : Only m r s) : Only m r (endIvl a0 a1 a2 a3 s) := by
  unfold endIvl
  with_reducible repeat' first
    | assumption | refine closeIvl_only (w.of (by decide)) ?_ | refine setC_only (w.of (by decide)) ?_
    | refine showDemand_only (w.of (by decide)) ?_ | refine Only.ite (fun _ => ?_) (fun _ => ?_)

theorem ivlStep_only {a0 a1 a2 s} (w : Within 15065948228 m) (h : Only m r s) : Only m r (ivlStep a0 a1 a2 s).2 := by
  unfold ivlStep
  try dsimp only
  with_reducible repeat' first
    | assumption | refine cutIvl_only (w.of (by decide)) ?_ | refine endIvl_only (w.of (by decide)) ?_
    | refine mayAct_only (w.of (by decide)) ?_ | refine setC_only (w.of (by decide)) ?_ | refine setFlag_only (w.of (by decide)) ?_
    | split

theorem ivlStep_only' {a0 a1 a2 s x t} (e : ivlStep a0 a1 a2 s = (x, t)) (w : Within 15065948228 m) (h : Only m r s) : Only m r t := by
  have k := ivlStep_only (m := m) (r := r) (a0 := a0) (a1 := a1) (a2 := a2) (s := s) w h
  rw [e] at k; exact k

theorem ivlSteps_only {a0 a1 a2 s} (w : Within 15065948228 m) (h : Only m r s) : Only m r (ivlSteps a0 a1 a2 s).2 := by
  induction a2 generalizing s with
  | nil => exact h
  | cons _ l ih =>
    have ih' : ∀ {x t u}, ivlSteps a0 a1 l u = (x, t) → Only m r u → Only m r t := fun {x t u} e h => by
      have k : Only m r (ivlSteps a0 a1 l u).2 := ih h; rw [e] at k; exact k
    unfold ivlSteps
    with_reducible repeat' first
      | refine ih ?_ | assumption | refine ivlStep_only (w.of (by decide)) ?_

theorem ivlSteps_only' {a0 a1 a2 s x t} (e : ivlSteps a0 a1 a2 s = (x, t)) (w : Within 15065948228 m) (h : Only m r s) : Only m r t := by
  have k := ivlSteps_only (m := m) (r := r) (a0 := a0) (a1 := a1) (a2 := a2) (s := s) w h
  rw [e] at k; exact k

theorem clearMaxima_only {a0 a1 s} (w : Within 68 m) (h : Only m r s) : Only m r (clearMaxima a0 a1 s) := by
  unfold clearMaxima
  with_reducible repeat' first
    | assumption | refine Only.foldl ?_ ?_ | refine State_putDue_only (w.of (by decide)) ?_ | refine maxTotals_only (w.of (by decide)) ?_
    | intro _

theorem closePeriod_only {a0 a1 a2 a3 s} (w : Within 33562692 m) (h : Only m r s) : Only m r (closePeriod a0 a1 a2 a3 s) := by
  unfold closePeriod
  with_reducible repeat' first
    | (simp only [Only.mk_eq]; refine Only.u_bill (w.of (by decide)) ?_) | assumption | refine Only.foldl ?_ ?_
    | refine State_eventAt_only (w.of (by decide)) ?_ | refine State_put_only (w.of (by decide)) ?_
    | refine State_putDue_only (w.of (by decide)) ?_ | refine clearMaxima_only (w.of (by decide)) ?_ | split | intro _

theorem takeKeys_only {a0 a1 a2 s} (w : Within 8192 m) (h : Only m r s) : Only m r (takeKeys a0 a1 a2 s) := by
  unfold takeKeys
  with_reducible repeat' first
    | assumption | refine Only.foldl ?_ ?_ | refine setC_only (w.of (by decide)) ?_ | intro _

theorem schedPlan_only {a0 a1 a2 s} (w : Within 15065948228 m) (h : Only m r s) : Only m r (schedPlan a0 a1 a2 s).2 := by
  unfold schedPlan
  with_reducible repeat' first
    | assumption | refine mayAct_only (w.of (by decide)) ?_ | refine waitLate_only (w.of (by decide)) ?_
    | refine Only.ite_snd (fun _ => ?_) (fun _ => ?_) | split

theorem schedPlan_only' {a0 a1 a2 s x t} (e : schedPlan a0 a1 a2 s = (x, t)) (w : Within 15065948228 m) (h : Only m r s) : Only m r t := by
  have k := schedPlan_only (m := m) (r := r) (a0 := a0) (a1 := a1) (a2 := a2) (s := s) w h
  rw [e] at k; exact k

theorem schedPlans_only {a0 a1 a2 s} (w : Within 15065948228 m) (h : Only m r s) : Only m r (schedPlans a0 a1 a2 s).2 := by
  induction a2 generalizing s with
  | nil => exact h
  | cons _ l ih =>
    have ih' : ∀ {x t u}, schedPlans a0 a1 l u = (x, t) → Only m r u → Only m r t := fun {x t u} e h => by
      have k : Only m r (schedPlans a0 a1 l u).2 := ih h; rw [e] at k; exact k
    unfold schedPlans
    with_reducible repeat' first
      | refine ih ?_ | assumption | refine schedPlan_only (w.of (by decide)) ?_

theorem schedPlans_only' {a0 a1 a2 s x t} (e : schedPlans a0 a1 a2 s = (x, t)) (w : Within 15065948228 m) (h : Only m r s) : Only m r t := by
  have k := schedPlans_only (m := m) (r := r) (a0 := a0) (a1 := a1) (a2 := a2) (s := s) w h
  rw [e] at k; exact k

theorem closeSteps_only {a0 a1 a2 s} (w : Within 33562692 m) (h : Only m r s) : Only m r (closeSteps a0 a1 a2 s) := by
  unfold closeSteps
  with_reducible repeat' first
    | assumption | refine Only.foldl ?_ ?_ | refine closePeriod_only (w.of (by decide)) ?_ | split | intro _

theorem switchStep_only {a0 a1 a2 s} (w : Within 33562628 m) (h : Only m r s) : Only m r (switchStep a0 a1 a2 s) := by
  unfold switchStep
  with_reducible repeat' first
    | (simp only [Only.mk_eq]; refine Only.u_bill (w.of (by decide)) ?_) | assumption | refine State_bump_only (w.of (by decide)) ?_
    | refine State_eventAt_only (w.of (by decide)) ?_ | refine takeKeys_only (w.of (by decide)) ?_ | split

theorem switchSteps_only {a0 a1 a2 s} (w : Within 33562628 m) (h : Only m r s) : Only m r (switchSteps a0 a1 a2 s) := by
  unfold switchSteps
  with_reducible repeat' first
    | assumption | refine Only.foldl ?_ ?_ | refine switchStep_only (w.of (by decide)) ?_ | intro _

theorem boundaryOpen_only {a0 s} (w : Within 4 m) (h : Only m r s) : Only m r (boundaryOpen a0 s) := by
  unfold boundaryOpen
  with_reducible repeat' first
    | assumption | refine State_put_only (w.of (by decide)) ?_

theorem stepDone_only {a0 s} (w : Within 8196 m) (h : Only m r s) : Only m r (stepDone a0 s) := by
  unfold stepDone
  with_reducible repeat' first
    | (simp only [Only.mk_eq]; refine Only.u_bill (w.of (by decide)) ?_) | assumption | refine State_put_only (w.of (by decide)) ?_

theorem boundaries_only {a0 a1 a2 a3 s} (w : Within 15065948228 m) (h : Only m r s) : Only m r (boundaries a0 a1 a2 a3 s).2 := by
  unfold boundaries
  with_reducible repeat' first
    | (simp only [Only.mk_eq]; refine Only.u_bill (w.of (by decide)) ?_) | assumption | refine boundaryOpen_only (w.of (by decide)) ?_
    | refine closeSteps_only (w.of (by decide)) ?_ | refine schedPlans_only (w.of (by decide)) ?_
    | refine stepDone_only (w.of (by decide)) ?_ | refine switchSteps_only (w.of (by decide)) ?_
    | refine Only.ite_snd (fun _ => ?_) (fun _ => ?_)

theorem boundaries_only' {a0 a1 a2 a3 s x t} (e : boundaries a0 a1 a2 a3 s = (x, t)) (w : Within 15065948228 m) (h : Only m r s) : Only m r t := by
  have k := boundaries_only (m := m) (r := r) (a0 := a0) (a1 := a1) (a2 := a2) (a3 := a3) (s := s) w h
  rw [e] at k; exact k

theorem showCalendar_only {a0 a1 s} (w : Within 68 m) (h : Only m r s) : Only m r (showCalendar a0 a1 s) := by
  unfold showCalendar
  with_reducible repeat' first
    | assumption | refine Only.foldl ?_ ?_ | refine State_putDue_only (w.of (by decide)) ?_ | refine Only.ite (fun _ => ?_) (fun _ => ?_)
    | intro _

theorem profBuild_only {a0 s} (w : Within 8196 m) (h : Only m r s) : Only m r (profBuild a0 s) := by
  unfold profBuild
  with_reducible repeat' first
    | (simp only [Only.mk_eq]; refine Only.u_bill (w.of (by decide)) ?_) | assumption | refine State_put_only (w.of (by decide)) ?_

theorem profStep_only {a0 s} (w : Within 8196 m) (h : Only m r s) : Only m r (profStep a0 s) := by
  unfold profStep
  with_reducible repeat' first
    | (simp only [Only.mk_eq]; refine Only.u_bill (w.of (by decide)) ?_) | assumption | refine profBuild_only (w.of (by decide)) ?_
    | split

theorem stepsMet_only {a0 a1 s} (w : Within 33562692 m) (h : Only m r s) : Only m r (stepsMet a0 a1 s).2 := by
  unfold stepsMet
  with_reducible repeat' first
    | (simp only [Only.mk_eq]; refine Only.u_bill (w.of (by decide)) ?_) | assumption | refine Only.foldl ?_ ?_
    | refine State_bump_only (w.of (by decide)) ?_ | refine State_eventAt_only (w.of (by decide)) ?_
    | refine setC_only (w.of (by decide)) ?_ | refine setFlag_only (w.of (by decide)) ?_ | refine Only.ite (fun _ => ?_) (fun _ => ?_)
    | intro _

theorem stepsMet_only' {a0 a1 s x t} (e : stepsMet a0 a1 s = (x, t)) (w : Within 33562692 m) (h : Only m r s) : Only m r t := by
  have k := stepsMet_only (m := m) (r := r) (a0 := a0) (a1 := a1) (s := s) w h
  rw [e] at k; exact k

theorem startFrame_only {a0 a1 s} (w : Within 15065964612 m) (h : Only m r s) : Only m r (startFrame a0 a1 s) := by
  unfold startFrame
  extract_lets s1
  have h1 : Only m r s1 := profStep_only (w.of (by decide)) (cfgFrame_only (w.of (by decide)) h)
  clear_value s1
  split
  have h2 := stepsMet_only' (by assumption) (w.of (by decide)) h1
  split
  have h3 := ivlSteps_only' (by assumption) (w.of (by decide)) h2
  split
  have h4 := boundaries_only' (by assumption) (w.of (by decide)) h3
  exact Only.u_bill (w.of (by decide)) (showCalendar_only (a0 := a0) (w.of (by decide)) h4)

/-! ### Pulse -/

theorem setOut_only {a0 a1 s} (w : Within 16384 m) (h : Only m r s) : Only m r (setOut a0 a1 s) := by
  unfold setOut
  with_reducible repeat' first
    | (simp only [Only.mk_eq]; refine Only.u_pulse (w.of (by decide)) ?_) | assumption

theorem outFrame_only {a0 a1 s} (w : Within 16384 m) (h : Only m r s) : Only m r (outFrame a0 a1 s) := by
  unfold outFrame
  with_reducible repeat' first
    | assumption | refine setOut_only (w.of (by decide)) ?_ | split

theorem setPtAcc_only {a0 a1 s} (w : Within 16384 m) (h : Only m r s) : Only m r (setPtAcc a0 a1 s) := by
  unfold setPtAcc
  with_reducible repeat' first
    | (simp only [Only.mk_eq]; refine Only.u_pulse (w.of (by decide)) ?_) | assumption

theorem trainCct_only {a0 a1 s} (w : Within 16384 m) (h : Only m r s) : Only m r (trainCct a0 a1 s).2 := by
  unfold trainCct
  with_reducible repeat' first
    | assumption | refine setPtAcc_only (w.of (by decide)) ?_ | split

theorem trainCct_only' {a0 a1 s x t} (e : trainCct a0 a1 s = (x, t)) (w : Within 16384 m) (h : Only m r s) : Only m r t := by
  have k := trainCct_only (m := m) (r := r) (a0 := a0) (a1 := a1) (s := s) w h
  rw [e] at k; exact k

theorem trainCcts_only {a0 a1 s} (w : Within 16384 m) (h : Only m r s) : Only m r (trainCcts a0 a1 s).2 := by
  induction a1 generalizing s with
  | nil => exact h
  | cons _ l ih =>
    have ih' : ∀ {x t u}, trainCcts a0 l u = (x, t) → Only m r u → Only m r t := fun {x t u} e h => by
      have k : Only m r (trainCcts a0 l u).2 := ih h; rw [e] at k; exact k
    unfold trainCcts
    with_reducible repeat' first
      | refine ih ?_ | assumption | refine trainCct_only (w.of (by decide)) ?_

theorem trainCcts_only' {a0 a1 s x t} (e : trainCcts a0 a1 s = (x, t)) (w : Within 16384 m) (h : Only m r s) : Only m r t := by
  have k := trainCcts_only (m := m) (r := r) (a0 := a0) (a1 := a1) (s := s) w h
  rw [e] at k; exact k

theorem pulseFrame_only {a0 s} (w : Within 24576 m) (h : Only m r s) : Only m r (pulseFrame a0 s) := by
  unfold pulseFrame
  with_reducible repeat' first
    | (simp only [Only.mk_eq]; refine Only.u_bill_pulse (w.of (by decide)) ?_) | assumption | refine Only.foldl ?_ ?_
    | refine outFrame_only (w.of (by decide)) ?_ | refine trainCcts_only (w.of (by decide)) ?_ | intro _

theorem showPending_only {a0 s} (w : Within 132 m) (h : Only m r s) : Only m r (showPending a0 s) := by
  unfold showPending
  with_reducible repeat' first
    | assumption | refine State_putV_only (w.of (by decide)) ?_ | refine Only.ite (fun _ => ?_) (fun _ => ?_)

theorem execPulseStart_only {a0 s t} (e : execPulseStart a0 s = .next t) (w : Within 16516 m) (h : Only m r s) : Only m r t := by
  unfold execPulseStart at e
  injection e with e
  subst e
  with_reducible repeat' first
    | assumption | refine State_bumpV_only (w.of (by decide)) ?_ | refine setOut_only (w.of (by decide)) ?_
    | refine showPending_only (w.of (by decide)) ?_ | split

theorem execPulseEnd_only {a0 s t} (e : execPulseEnd a0 s = .next t) (w : Within 16384 m) (h : Only m r s) : Only m r t := by
  unfold execPulseEnd at e
  injection e with e
  subst e
  with_reducible repeat' first
    | assumption | refine setOut_only (w.of (by decide)) ?_ | split

theorem trainBytes_only {a0 a1 a2 a3 s} (w : Within 16384 m) (h : Only m r s) : Only m r (trainBytes a0 a1 a2 a3 s).2 := by
  induction a3 generalizing s with
  | nil => exact h
  | cons _ l ih =>
    have ih' : ∀ {x t u}, trainBytes a0 a1 a2 l u = (x, t) → Only m r u → Only m r t := fun {x t u} e h => by
      have k : Only m r (trainBytes a0 a1 a2 l u).2 := ih h; rw [e] at k; exact k
    unfold trainBytes
    with_reducible repeat' first
      | refine ih ?_ | (simp only [Only.mk_eq]; refine Only.u_pulse (w.of (by decide)) ?_) | assumption

theorem trainBytes_only' {a0 a1 a2 a3 s x t} (e : trainBytes a0 a1 a2 a3 s = (x, t)) (w : Within 16384 m) (h : Only m r s) : Only m r t := by
  have k := trainBytes_only (m := m) (r := r) (a0 := a0) (a1 := a1) (a2 := a2) (a3 := a3) (s := s) w h
  rw [e] at k; exact k

theorem trainDrop_only {a0 a1 s} (w : Within 16384 m) (h : Only m r s) : Only m r (trainDrop a0 a1 s) := by
  unfold trainDrop
  with_reducible repeat' first
    | (simp only [Only.mk_eq]; refine Only.u_pulse (w.of (by decide)) ?_) | assumption

theorem trainFrame_only {a0 a1 a2 s} (w : Within 16516 m) (h : Only m r s) : Only m r (trainFrame a0 a1 a2 s) := by
  unfold trainFrame
  with_reducible repeat' first
    | (simp only [Only.mk_eq]; refine Only.u_pulse (w.of (by decide)) ?_) | assumption | refine Only.foldl ?_ ?_
    | refine State_bumpV_only (w.of (by decide)) ?_ | refine trainBytes_only (w.of (by decide)) ?_
    | refine trainDrop_only (w.of (by decide)) ?_ | refine Only.ite (fun _ => ?_) (fun _ => ?_) | split | intro _

end Sys2Proof.Machine
end

