-- ==== Sys2Proof/Laws/OnlyHealth.lean ====
section
/-! SUPPORT. Which parts the operations of these files change: Health, Align, Subst, TimeBase, TanCfg, Tannery. -/

namespace Sys2Proof.Machine

variable {m : Nat} {r : State}

/-! ### Health -/

theorem setHand_only {a0 s} (w : Within 32768 m) (h : Only m r s) : Only m r (setHand a0 s) := by
  unfold setHand
  with_reducible repeat' first
    | (simp only [Only.mk_eq]; refine Only.u_img (w.of (by decide)) ?_) | assumption

theorem healthFrame_only {a0 s} (w : Within 32836 m) (h : Only m r s) : Only m r (healthFrame a0 s) := by
  unfold healthFrame
  with_reducible repeat' first
    | assumption | refine Only.foldl ?_ ?_ | refine State_putDue_only (w.of (by decide)) ?_ | refine setFlag_only (w.of (by decide)) ?_
    | refine setHand_only (w.of (by decide)) ?_ | refine Only.ite (fun _ => ?_) (fun _ => ?_) | split | intro _

/-! ### Align -/

theorem setLane_only {a0 a1 s} (w : Within 512 m) (h : Only m r s) : Only m r (setLane a0 a1 s) := by
  unfold setLane
  with_reducible repeat' first
    | (simp only [Only.mk_eq]; refine Only.u_acq (w.of (by decide)) ?_) | assumption

theorem setEst_only {a0 a1 a2 s} (w : Within 512 m) (h : Only m r s) : Only m r (setEst a0 a1 a2 s) := by
  unfold setEst
  with_reducible repeat' first
    | (simp only [Only.mk_eq]; refine Only.u_acq (w.of (by decide)) ?_) | assumption

theorem addSpan_only {a0 a1 a2 s} (w : Within 512 m) (h : Only m r s) : Only m r (addSpan a0 a1 a2 s) := by
  unfold addSpan
  with_reducible repeat' first
    | (simp only [Only.mk_eq]; refine Only.u_acq (w.of (by decide)) ?_) | assumption

theorem estStep_only {a0 a1 a2 a3 s} (w : Within 580 m) (h : Only m r s) : Only m r (estStep a0 a1 a2 a3 s) := by
  unfold estStep
  with_reducible repeat' first
    | assumption | refine State_putDue_only (w.of (by decide)) ?_ | refine State_putDueI_only (w.of (by decide)) ?_
    | refine setEst_only (w.of (by decide)) ?_ | split

theorem tempInjStep_only {a0 a1 a2 s} (w : Within 68 m) (h : Only m r s) : Only m r (tempInjStep a0 a1 a2 s) := by
  unfold tempInjStep
  with_reducible repeat' first
    | assumption | refine State_putDue_only (w.of (by decide)) ?_ | refine State_putDueI_only (w.of (by decide)) ?_
    | refine Only.ite (fun _ => ?_) (fun _ => ?_) | split

theorem settleStep_only {a0 a1 s} (w : Within 512 m) (h : Only m r s) : Only m r (settleStep a0 a1 s) := by
  unfold settleStep
  with_reducible repeat' first
    | assumption | refine setLane_only (w.of (by decide)) ?_ | refine Only.ite (fun _ => ?_) (fun _ => ?_)

theorem bgLane_only {a0 a1 a2 s} (w : Within 580 m) (h : Only m r s) : Only m r (bgLane a0 a1 a2 s) := by
  unfold bgLane
  with_reducible repeat' first
    | assumption | refine Only.foldl ?_ ?_ | refine estStep_only (w.of (by decide)) ?_ | refine settleStep_only (w.of (by decide)) ?_
    | refine tempInjStep_only (w.of (by decide)) ?_ | intro _

theorem bgFrame_only {a0 s} (w : Within 580 m) (h : Only m r s) : Only m r (bgFrame a0 s) := by
  unfold bgFrame
  with_reducible repeat' first
    | assumption | refine Only.foldl ?_ ?_ | refine bgLane_only (w.of (by decide)) ?_ | intro _

theorem gapFeed_only {a0 a1 s} (w : Within 512 m) (h : Only m r s) : Only m r (gapFeed a0 a1 s) := by
  unfold gapFeed
  with_reducible repeat' first
    | assumption | refine setEst_only (w.of (by decide)) ?_ | refine Only.ite (fun _ => ?_) (fun _ => ?_) | split

theorem gapBreak_only {a0 a1 s} (w : Within 512 m) (h : Only m r s) : Only m r (gapBreak a0 a1 s) := by
  unfold gapBreak
  with_reducible repeat' first
    | assumption | refine setEst_only (w.of (by decide)) ?_ | split

theorem gapTake_only {a0 a1 a2 s} (w : Within 512 m) (h : Only m r s) : Only m r (gapTake a0 a1 a2 s) := by
  unfold gapTake
  with_reducible repeat' first
    | assumption | refine gapBreak_only (w.of (by decide)) ?_ | refine gapFeed_only (w.of (by decide)) ?_
    | refine setLane_only (w.of (by decide)) ?_ | refine Only.ite (fun _ => ?_) (fun _ => ?_)

theorem streamTake_only {a0 a1 s} (w : Within 1092 m) (h : Only m r s) : Only m r (streamTake a0 a1 s) := by
  unfold streamTake
  with_reducible repeat' first
    | (simp only [Only.mk_eq]; refine Only.u_aln (w.of (by decide)) ?_) | assumption | refine State_putDue_only (w.of (by decide)) ?_
    | split

theorem takeStream_only {a0 a1 a2 a3 s} (w : Within 1092 m) (h : Only m r s) : Only m r (takeStream a0 a1 a2 a3 s) := by
  unfold takeStream
  with_reducible repeat' first
    | assumption | refine streamTake_only (w.of (by decide)) ?_ | refine Only.ite (fun _ => ?_) (fun _ => ?_)

theorem dropExtra_only {a0 s} (w : Within 512 m) (h : Only m r s) : Only m r (dropExtra a0 s) := by
  unfold dropExtra
  with_reducible repeat' first
    | (simp only [Only.mk_eq]; refine Only.u_acq (w.of (by decide)) ?_) | assumption

theorem channelPartner_only {a0 a1 s} (w : Within 33554948 m) (h : Only m r s) : Only m r (channelPartner a0 a1 s) := by
  unfold channelPartner
  with_reducible repeat' first
    | assumption | refine dropExtra_only (w.of (by decide)) ?_ | refine unitSet_only (w.of (by decide)) ?_ | split

theorem laneRetire_only {a0 a1 s} (w : Within 33556004 m) (h : Only m r s) : Only m r (laneRetire a0 a1 s) := by
  unfold laneRetire
  with_reducible repeat' first
    | (simp only [Only.mk_eq]; refine Only.u_acq (w.of (by decide)) ?_) | assumption | refine Only.foldl ?_ ?_
    | refine State_event_only (w.of (by decide)) ?_ | refine State_put_only (w.of (by decide)) ?_
    | refine State_putLive_only (w.of (by decide)) ?_ | refine addSpan_only (w.of (by decide)) ?_
    | refine channelPartner_only (w.of (by decide)) ?_ | refine recredit0_only (w.of (by decide)) ?_
    | refine setLane_only (w.of (by decide)) ?_ | refine stopStreams_only (w.of (by decide)) ?_ | split | intro _

theorem unreplaceUnit_only {a0 a1 a2 s} (w : Within 1024 m) (h : Only m r s) : Only m r (unreplaceUnit a0 a1 a2 s) := by
  unfold unreplaceUnit
  with_reducible repeat' first
    | (simp only [Only.mk_eq]; refine Only.u_aln (w.of (by decide)) ?_) | assumption

theorem transients_only {a0 a1 a2 a3 s} (w : Within 33555972 m) (h : Only m r s) : Only m r (transients a0 a1 a2 a3 s) := by
  unfold transients
  with_reducible repeat' first
    | assumption | refine State_bump_only (w.of (by decide)) ?_ | refine State_bumpBy_only (w.of (by decide)) ?_
    | refine State_event_only (w.of (by decide)) ?_ | refine addSpan_only (w.of (by decide)) ?_
    | refine unreplaceUnit_only (w.of (by decide)) ?_ | refine Only.ite (fun _ => ?_) (fun _ => ?_)

theorem breakRuns_only {a0 s} (w : Within 1024 m) (h : Only m r s) : Only m r (breakRuns a0 s) := by
  unfold breakRuns
  with_reducible repeat' first
    | (simp only [Only.mk_eq]; refine Only.u_aln (w.of (by decide)) ?_) | assumption

theorem gapsDo_only {a0 a1 a2 s} (w : Within 512 m) (h : Only m r s) : Only m r (gapsDo a0 a1 a2 s) := by
  unfold gapsDo
  with_reducible repeat' first
    | assumption | refine Only.foldl ?_ ?_ | refine gapTake_only (w.of (by decide)) ?_ | refine setLane_only (w.of (by decide)) ?_ | split
    | intro _

theorem laneCheck_only {a0 a1 s} (w : Within 33555972 m) (h : Only m r s) : Only m r (laneCheck a0 a1 s) := by
  unfold laneCheck
  with_reducible repeat' first
    | assumption | refine State_bump_only (w.of (by decide)) ?_ | refine State_put_only (w.of (by decide)) ?_
    | refine breakRuns_only (w.of (by decide)) ?_ | refine gapsDo_only (w.of (by decide)) ?_ | refine setLane_only (w.of (by decide)) ?_
    | refine transients_only (w.of (by decide)) ?_ | refine unitFail_only (w.of (by decide)) ?_
    | refine unitPass_only (w.of (by decide)) ?_ | refine Only.ite (fun _ => ?_) (fun _ => ?_)

theorem noteAff_only {a0 s} (w : Within 512 m) (h : Only m r s) : Only m r (noteAff a0 s) := by
  unfold noteAff
  with_reducible repeat' first
    | assumption | refine setLane_only (w.of (by decide)) ?_ | split

theorem gapsTake_only {a0 s} (w : Within 512 m) (h : Only m r s) : Only m r (gapsTake a0 s) := by
  unfold gapsTake
  with_reducible repeat' first
    | assumption | refine setLane_only (w.of (by decide)) ?_

theorem laneFrame_only {a0 s} (w : Within 33556068 m) (h : Only m r s) : Only m r (laneFrame a0 s) := by
  unfold laneFrame
  with_reducible repeat' first
    | assumption | refine Only.foldl ?_ ?_ | refine bgFrame_only (w.of (by decide)) ?_ | refine laneCheck_only (w.of (by decide)) ?_
    | refine laneRetire_only (w.of (by decide)) ?_ | refine transients_only (w.of (by decide)) ?_ | split | intro _

theorem alignTake_only {a0 s} (w : Within 33556068 m) (h : Only m r s) : Only m r (alignTake a0 s) := by
  unfold alignTake
  with_reducible repeat' first
    | (simp only [Only.mk_eq]; refine Only.u_acq (w.of (by decide)) ?_) | assumption | refine Only.foldl ?_ ?_
    | refine gapsTake_only (w.of (by decide)) ?_ | refine laneFrame_only (w.of (by decide)) ?_ | refine noteAff_only (w.of (by decide)) ?_
    | refine takeStream_only (w.of (by decide)) ?_ | split | intro _

theorem stopDisabled_only {a0 s} (w : Within 1024 m) (h : Only m r s) : Only m r (stopDisabled a0 s) := by
  unfold stopDisabled
  with_reducible repeat' first
    | assumption | refine stopStreams_only (w.of (by decide)) ?_

theorem countClips_only {a0 a1 s} (w : Within 68 m) (h : Only m r s) : Only m r (countClips a0 a1 s) := by
  unfold countClips
  with_reducible repeat' first
    | assumption | refine Only.foldl ?_ ?_ | refine State_putDue_only (w.of (by decide)) ?_ | split | intro _

theorem execAlignerSample_only {s t} (e : execAlignerSample s = .next t) (w : Within 33556068 m) (h : Only m r s) : Only m r t := by
  unfold execAlignerSample at e
  injection e with e
  subst e
  with_reducible repeat' first
    | (simp only [Only.mk_eq]; refine Only.u_aln (w.of (by decide)) ?_) | assumption | refine State_bump_only (w.of (by decide)) ?_
    | refine alignTake_only (w.of (by decide)) ?_ | refine countClips_only (w.of (by decide)) ?_
    | refine stopDisabled_only (w.of (by decide)) ?_ | refine Only.ite (fun _ => ?_) (fun _ => ?_)

/-! ### Subst -/

theorem warmSpectrum_only {a0 a1 s} (w : Within 2116 m) (h : Only m r s) : Only m r (warmSpectrum a0 a1 s) := by
  unfold warmSpectrum
  with_reducible repeat' first
    | (simp only [Only.mk_eq]; refine Only.u_tan (w.of (by decide)) ?_) | assumption | refine Only.foldl ?_ ?_
    | refine State_putDue_only (w.of (by decide)) ?_ | intro _

theorem harmLost_only {a0 a1 s} (w : Within 2116 m) (h : Only m r s) : Only m r (harmLost a0 a1 s) := by
  unfold harmLost
  with_reducible repeat' first
    | assumption | refine Only.foldl ?_ ?_ | refine warmSpectrum_only (w.of (by decide)) ?_ | intro _

theorem lockLost_only {a0 a1 a2 s} (w : Within 33556548 m) (h : Only m r s) : Only m r (lockLost a0 a1 a2 s) := by
  unfold lockLost
  with_reducible repeat' first
    | assumption | refine Only.foldl ?_ ?_ | refine State_bump_only (w.of (by decide)) ?_
    | refine State_eventAt_only (w.of (by decide)) ?_ | refine State_putDue_only (w.of (by decide)) ?_
    | refine harmLost_only (w.of (by decide)) ?_ | refine setZc_only (w.of (by decide)) ?_ | split | intro _

theorem lockRelease_only {a0 a1 s} (w : Within 33556548 m) (h : Only m r s) : Only m r (lockRelease a0 a1 s) := by
  unfold lockRelease
  with_reducible repeat' first
    | assumption | refine lockLost_only (w.of (by decide)) ?_ | refine setZc_only (w.of (by decide)) ?_
    | refine winsLost_only (w.of (by decide)) ?_ | refine Only.ite (fun _ => ?_) (fun _ => ?_)

theorem substSelect_only {a0 a1 s} (w : Within 33556516 m) (h : Only m r s) : Only m r (substSelect a0 a1 s) := by
  unfold substSelect
  with_reducible repeat' first
    | (simp only [Only.mk_eq]; refine Only.u_tan (w.of (by decide)) ?_) | assumption | refine State_event_only (w.of (by decide)) ?_
    | refine State_putLive_only (w.of (by decide)) ?_

theorem substDrop_only {a0 s} (w : Within 2084 m) (h : Only m r s) : Only m r (substDrop a0 s) := by
  unfold substDrop
  with_reducible repeat' first
    | (simp only [Only.mk_eq]; refine Only.u_tan (w.of (by decide)) ?_) | assumption | refine State_putLive_only (w.of (by decide)) ?_

theorem substChange_only {a0 a1 s} (w : Within 33556580 m) (h : Only m r s) : Only m r (substChange a0 a1 s) := by
  unfold substChange
  with_reducible repeat' first
    | assumption | refine lockRelease_only (w.of (by decide)) ?_ | refine substDrop_only (w.of (by decide)) ?_
    | refine substSelect_only (w.of (by decide)) ?_ | split

theorem substAgain_only {a0 a1 a2 s} (w : Within 33556516 m) (h : Only m r s) : Only m r (substAgain a0 a1 a2 s) := by
  unfold substAgain
  with_reducible repeat' first
    | (simp only [Only.mk_eq]; refine Only.u_tan (w.of (by decide)) ?_) | assumption | refine substSelect_only (w.of (by decide)) ?_
    | refine Only.ite (fun _ => ?_) (fun _ => ?_)

theorem substReview_only {a0 s} (w : Within 33556580 m) (h : Only m r s) : Only m r (substReview a0 s) := by
  unfold substReview
  with_reducible repeat' first
    | assumption | refine Only.foldl ?_ ?_ | refine substAgain_only (w.of (by decide)) ?_ | refine substChange_only (w.of (by decide)) ?_
    | split | intro _

/-! ### TimeBase -/

theorem setTb_only {a0 s} (w : Within 4194304 m) (h : Only m r s) : Only m r (setTb a0 s) := by
  unfold setTb
  with_reducible repeat' first
    | (simp only [Only.mk_eq]; refine Only.u_tb (w.of (by decide)) ?_) | assumption

theorem tbSetState_only {a0 a1 s} (w : Within 68 m) (h : Only m r s) : Only m r (tbSetState a0 a1 s) := by
  unfold tbSetState
  with_reducible repeat' first
    | assumption | refine State_putDue_only (w.of (by decide)) ?_

theorem tbSearch_only {a0 s} (w : Within 4194372 m) (h : Only m r s) : Only m r (tbSearch a0 s) := by
  unfold tbSearch
  with_reducible repeat' first
    | assumption | refine State_putDue_only (w.of (by decide)) ?_ | refine setTb_only (w.of (by decide)) ?_
    | refine tbSetState_only (w.of (by decide)) ?_

theorem tbLose_only {a0 s} (w : Within 37748804 m) (h : Only m r s) : Only m r (tbLose a0 s) := by
  unfold tbLose
  with_reducible repeat' first
    | assumption | refine State_event_only (w.of (by decide)) ?_ | refine tbSearch_only (w.of (by decide)) ?_

theorem tbOff_only {a0 s} (w : Within 4194372 m) (h : Only m r s) : Only m r (tbOff a0 s) := by
  unfold tbOff
  with_reducible repeat' first
    | assumption | refine setTb_only (w.of (by decide)) ?_ | refine tbSearch_only (w.of (by decide)) ?_
    | refine tbSetState_only (w.of (by decide)) ?_

theorem tbUse_only {a0 a1 s} (w : Within 4194304 m) (h : Only m r s) : Only m r (tbUse a0 a1 s) := by
  unfold tbUse
  with_reducible repeat' first
    | assumption | refine setTb_only (w.of (by decide)) ?_

theorem tbMiss_only {a0 s} (w : Within 4194372 m) (h : Only m r s) : Only m r (tbMiss a0 s) := by
  unfold tbMiss
  with_reducible repeat' first
    | assumption | refine State_bump_only (w.of (by decide)) ?_ | refine setTb_only (w.of (by decide)) ?_
    | refine tbSetState_only (w.of (by decide)) ?_ | refine tbUse_only (w.of (by decide)) ?_ | refine Only.ite (fun _ => ?_) (fun _ => ?_)

theorem tbAccept_only {a0 a1 s} (w : Within 4194372 m) (h : Only m r s) : Only m r (tbAccept a0 a1 s) := by
  unfold tbAccept
  with_reducible repeat' first
    | assumption | refine setTb_only (w.of (by decide)) ?_ | refine tbSetState_only (w.of (by decide)) ?_
    | refine tbUse_only (w.of (by decide)) ?_ | refine Only.ite (fun _ => ?_) (fun _ => ?_)

theorem tbSeed_only {a0 a1 s} (w : Within 37748804 m) (h : Only m r s) : Only m r (tbSeed a0 a1 s) := by
  unfold tbSeed
  with_reducible repeat' first
    | assumption | refine State_event_only (w.of (by decide)) ?_ | refine State_putDue_only (w.of (by decide)) ?_
    | refine setTb_only (w.of (by decide)) ?_ | refine tbSetState_only (w.of (by decide)) ?_ | refine tbUse_only (w.of (by decide)) ?_
    | refine Only.ite (fun _ => ?_) (fun _ => ?_)

theorem tbReject_only {a0 s} (w : Within 68 m) (h : Only m r s) : Only m r (tbReject a0 s) := by
  unfold tbReject
  with_reducible repeat' first
    | assumption | refine State_putDue_only (w.of (by decide)) ?_

theorem tbStep_only {a0 a1 a2 s} (w : Within 37748804 m) (h : Only m r s) : Only m r (tbStep a0 a1 a2 s) := by
  induction a0 generalizing s a1 a2 with
  | zero => exact h
  | succ _ ih =>
    unfold tbStep
    with_reducible repeat' first
      | refine ih ?_ | assumption | refine tbAccept_only (w.of (by decide)) ?_ | refine tbMiss_only (w.of (by decide)) ?_
      | refine tbReject_only (w.of (by decide)) ?_ | refine tbSeed_only (w.of (by decide)) ?_ | split

theorem tbCrossing_only {a0 a1 a2 s} (w : Within 37748804 m) (h : Only m r s) : Only m r (tbCrossing a0 a1 a2 s) := by
  unfold tbCrossing
  with_reducible repeat' first
    | assumption | refine tbStep_only (w.of (by decide)) ?_ | split

theorem tbCatchUp_only {a0 a1 s} (w : Within 4194372 m) (h : Only m r s) : Only m r (tbCatchUp a0 a1 s) := by
  induction a0 generalizing s a1 with
  | zero => exact h
  | succ _ ih =>
    unfold tbCatchUp
    with_reducible repeat' first
      | refine ih ?_ | assumption | refine tbMiss_only (w.of (by decide)) ?_ | split

theorem notePdc_only {s} (w : Within 2097152 m) (h : Only m r s) : Only m r (notePdc s) := by
  unfold notePdc
  with_reducible repeat' first
    | (simp only [Only.mk_eq]; refine Only.u_plc (w.of (by decide)) ?_) | assumption

theorem countTx_only {s} (w : Within 2097188 m) (h : Only m r s) : Only m r (countTx s) := by
  unfold countTx
  with_reducible repeat' first
    | assumption | refine State_bumpLive_only (w.of (by decide)) ?_ | refine notePdc_only (w.of (by decide)) ?_

theorem annSent_only {a0 s} (w : Within 2097188 m) (h : Only m r s) : Only m r (annSent a0 s) := by
  unfold annSent
  with_reducible repeat' first
    | (simp only [Only.mk_eq]; refine Only.u_plc (w.of (by decide)) ?_) | assumption | refine countTx_only (w.of (by decide)) ?_ | split

theorem tbFrame_only {a0 s} (w : Within 39845988 m) (h : Only m r s) : Only m r (tbFrame a0 s) := by
  unfold tbFrame
  try dsimp only
  with_reducible repeat' first
    | assumption | refine State_putDue_only (w.of (by decide)) ?_ | refine annSent_only (w.of (by decide)) ?_
    | refine tbCatchUp_only (w.of (by decide)) ?_ | refine tbLose_only (w.of (by decide)) ?_ | split

theorem execTbHoldoverExpiry_only {s t} (e : execTbHoldoverExpiry s = .next t) (w : Within 37748804 m) (h : Only m r s) : Only m r t := by
  unfold execTbHoldoverExpiry at e
  injection e with e
  subst e
  with_reducible repeat' first
    | assumption | refine setTb_only (w.of (by decide)) ?_ | refine tbLose_only (w.of (by decide)) ?_ | split

/-! ### TanCfg -/

theorem inputReset_only {a0 a1 s} (w : Within 33556548 m) (h : Only m r s) : Only m r (inputReset a0 a1 s) := by
  unfold inputReset
  with_reducible repeat' first
    | (simp only [Only.mk_eq]; refine Only.u_tan (w.of (by decide)) ?_) | assumption | refine Only.foldl ?_ ?_
    | refine State_putDue_only (w.of (by decide)) ?_ | refine lockRelease_only (w.of (by decide)) ?_ | split | intro _

theorem groupsEnd_only {a0 a1 a2 s} (w : Within 33556484 m) (h : Only m r s) : Only m r (groupsEnd a0 a1 a2 s) := by
  unfold groupsEnd
  with_reducible repeat' first
    | assumption | refine Only.foldl ?_ ?_ | refine groupEnd_only (w.of (by decide)) ?_ | split | intro _

theorem vDetCfg_only {a0 a1 s} (w : Within 33556484 m) (h : Only m r s) : Only m r (vDetCfg a0 a1 s) := by
  unfold vDetCfg
  with_reducible repeat' first
    | (simp only [Only.mk_eq]; refine Only.u_tan (w.of (by decide)) ?_) | assumption | refine groupsEnd_only (w.of (by decide)) ?_

theorem ocCfg_only {a0 s} (w : Within 33556484 m) (h : Only m r s) : Only m r (ocCfg a0 s) := by
  unfold ocCfg
  with_reducible repeat' first
    | (simp only [Only.mk_eq]; refine Only.u_tan (w.of (by decide)) ?_) | assumption | refine Only.foldl ?_ ?_
    | refine ocEnd_only (w.of (by decide)) ?_ | refine Only.ite (fun _ => ?_) (fun _ => ?_) | intro _

theorem cctTanCfg_only {a0 s} (w : Within 33556548 m) (h : Only m r s) : Only m r (cctTanCfg a0 s) := by
  unfold cctTanCfg
  with_reducible repeat' first
    | (simp only [Only.mk_eq]; refine Only.u_tan (w.of (by decide)) ?_) | assumption | refine Only.foldl ?_ ?_
    | refine State_putDue_only (w.of (by decide)) ?_ | refine niEnd_only (w.of (by decide)) ?_ | refine plEnd_only (w.of (by decide)) ?_
    | refine Only.ite (fun _ => ?_) (fun _ => ?_) | intro _

theorem baseCfg_only {a0 a1 s} (w : Within 4 m) (h : Only m r s) : Only m r (baseCfg a0 a1 s) := by
  unfold baseCfg
  with_reducible repeat' first
    | assumption | refine Only.foldl ?_ ?_ | refine State_put_only (w.of (by decide)) ?_ | refine Only.ite (fun _ => ?_) (fun _ => ?_)
    | intro _

theorem capCfg_only {a0 s} (w : Within 4196 m) (h : Only m r s) : Only m r (capCfg a0 s) := by
  unfold capCfg
  with_reducible repeat' first
    | (simp only [Only.mk_eq]; refine Only.u_cap (w.of (by decide)) ?_) | assumption | refine State_putDue_only (w.of (by decide)) ?_
    | refine capCut_only (w.of (by decide)) ?_ | refine Only.ite (fun _ => ?_) (fun _ => ?_)

theorem bandCfg_only {a0 s} (w : Within 2084 m) (h : Only m r s) : Only m r (bandCfg a0 s) := by
  unfold bandCfg
  with_reducible repeat' first
    | (simp only [Only.mk_eq]; refine Only.u_tan (w.of (by decide)) ?_) | assumption | refine State_putLive_only (w.of (by decide)) ?_
    | split

theorem setAngle_only {a0 a1 s} (w : Within 2116 m) (h : Only m r s) : Only m r (setAngle a0 a1 s) := by
  unfold setAngle
  try dsimp only
  with_reducible repeat' first
    | (simp only [Only.mk_eq]; refine Only.u_tan (w.of (by decide)) ?_) | assumption | refine State_putDue_only (w.of (by decide)) ?_
    | refine setZc_only (w.of (by decide)) ?_ | split

theorem angleCfg_only {a0 s} (w : Within 2116 m) (h : Only m r s) : Only m r (angleCfg a0 s) := by
  unfold angleCfg
  with_reducible repeat' first
    | assumption | refine Only.foldl ?_ ?_ | refine setAngle_only (w.of (by decide)) ?_ | refine setZc_only (w.of (by decide)) ?_ | split
    | intro _

theorem harmCfg_only {a0 a1 s} (w : Within 2116 m) (h : Only m r s) : Only m r (harmCfg a0 a1 s) := by
  unfold harmCfg
  with_reducible repeat' first
    | (simp only [Only.mk_eq]; refine Only.u_tan (w.of (by decide)) ?_) | assumption | refine State_putDue_only (w.of (by decide)) ?_
    | split

theorem tanCfg_only {a0 s} (w : Within 33560676 m) (h : Only m r s) : Only m r (tanCfg a0 s) := by
  unfold tanCfg
  with_reducible repeat' first
    | assumption | refine Only.foldl ?_ ?_ | refine angleCfg_only (w.of (by decide)) ?_ | refine bandCfg_only (w.of (by decide)) ?_
    | refine baseCfg_only (w.of (by decide)) ?_ | refine capCfg_only (w.of (by decide)) ?_ | refine cctTanCfg_only (w.of (by decide)) ?_
    | refine harmCfg_only (w.of (by decide)) ?_ | refine inputReset_only (w.of (by decide)) ?_ | refine ocCfg_only (w.of (by decide)) ?_
    | refine vDetCfg_only (w.of (by decide)) ?_ | refine Only.ite (fun _ => ?_) (fun _ => ?_) | intro _

/-! ### Tannery -/

theorem ownVolt_only {a0 a1 s} (w : Within 2048 m) (h : Only m r s) : Only m r (ownVolt a0 a1 s).2 := by
  unfold ownVolt
  with_reducible repeat' first
    | (simp only [Only.mk_eq]; refine Only.u_tan (w.of (by decide)) ?_) | assumption | split

theorem ownVolt_only' {a0 a1 s x t} (e : ownVolt a0 a1 s = (x, t)) (w : Within 2048 m) (h : Only m r s) : Only m r t := by
  have k := ownVolt_only (m := m) (r := r) (a0 := a0) (a1 := a1) (s := s) w h
  rw [e] at k; exact k

theorem ownVolts_only {a0 a1 s} (w : Within 2048 m) (h : Only m r s) : Only m r (ownVolts a0 a1 s).2 := by
  induction a1 generalizing s with
  | nil => exact h
  | cons _ l ih =>
    have ih' : ∀ {x t u}, ownVolts a0 l u = (x, t) → Only m r u → Only m r t := fun {x t u} e h => by
      have k : Only m r (ownVolts a0 l u).2 := ih h; rw [e] at k; exact k
    unfold ownVolts
    with_reducible repeat' first
      | refine ih ?_ | assumption | refine ownVolt_only (w.of (by decide)) ?_

theorem ownVolts_only' {a0 a1 s x t} (e : ownVolts a0 a1 s = (x, t)) (w : Within 2048 m) (h : Only m r s) : Only m r t := by
  have k := ownVolts_only (m := m) (r := r) (a0 := a0) (a1 := a1) (s := s) w h
  rw [e] at k; exact k

theorem decideBand_only {a0 a1 s} (w : Within 2084 m) (h : Only m r s) : Only m r (decideBand a0 a1 s) := by
  unfold decideBand
  with_reducible repeat' first
    | (simp only [Only.mk_eq]; refine Only.u_tan (w.of (by decide)) ?_) | assumption | refine State_putLive_only (w.of (by decide)) ?_
    | split

theorem lockAngles_only {a0 a1 s} (w : Within 2116 m) (h : Only m r s) : Only m r (lockAngles a0 a1 s) := by
  unfold lockAngles
  with_reducible repeat' first
    | assumption | refine Only.foldl ?_ ?_ | refine setAngle_only (w.of (by decide)) ?_ | split | intro _

theorem positiveCrossing_only {a0 a1 a2 s} (w : Within 37750852 m) (h : Only m r s) : Only m r (positiveCrossing a0 a1 a2 s) := by
  unfold positiveCrossing
  with_reducible repeat' first
    | assumption | refine State_putDue_only (w.of (by decide)) ?_ | refine setAngle_only (w.of (by decide)) ?_
    | refine setZc_only (w.of (by decide)) ?_ | refine tbCrossing_only (w.of (by decide)) ?_

theorem zopEffect_only {a0 a1 a2 s} (w : Within 37750884 m) (h : Only m r s) : Only m r (zopEffect a0 a1 a2 s) := by
  unfold zopEffect
  with_reducible repeat' first
    | assumption | refine State_putDue_only (w.of (by decide)) ?_ | refine decideBand_only (w.of (by decide)) ?_
    | refine lockAngles_only (w.of (by decide)) ?_ | refine lockLost_only (w.of (by decide)) ?_
    | refine positiveCrossing_only (w.of (by decide)) ?_ | split

theorem scanVolt_only {a0 a1 a2 s} (w : Within 37750884 m) (h : Only m r s) : Only m r (scanVolt a0 a1 a2 s).2 := by
  unfold scanVolt
  with_reducible repeat' first
    | assumption | refine Only.foldl ?_ ?_ | refine setZc_only (w.of (by decide)) ?_ | refine zopEffect_only (w.of (by decide)) ?_
    | refine Only.ite_snd (fun _ => ?_) (fun _ => ?_) | intro _

theorem scanVolt_only' {a0 a1 a2 s x t} (e : scanVolt a0 a1 a2 s = (x, t)) (w : Within 37750884 m) (h : Only m r s) : Only m r t := by
  have k := scanVolt_only (m := m) (r := r) (a0 := a0) (a1 := a1) (a2 := a2) (s := s) w h
  rw [e] at k; exact k

theorem scanVolts_only {a0 a1 a2 s} (w : Within 37750884 m) (h : Only m r s) : Only m r (scanVolts a0 a1 a2 s).2 := by
  induction a2 generalizing s with
  | nil => exact h
  | cons _ l ih =>
    have ih' : ∀ {x t u}, scanVolts a0 a1 l u = (x, t) → Only m r u → Only m r t := fun {x t u} e h => by
      have k : Only m r (scanVolts a0 a1 l u).2 := ih h; rw [e] at k; exact k
    unfold scanVolts
    with_reducible repeat' first
      | refine ih ?_ | assumption | refine scanVolt_only (w.of (by decide)) ?_

theorem scanVolts_only' {a0 a1 a2 s x t} (e : scanVolts a0 a1 a2 s = (x, t)) (w : Within 37750884 m) (h : Only m r s) : Only m r t := by
  have k := scanVolts_only (m := m) (r := r) (a0 := a0) (a1 := a1) (a2 := a2) (s := s) w h
  rw [e] at k; exact k

theorem sigFrame_only {a0 a1 a2 s} (w : Within 2048 m) (h : Only m r s) : Only m r (sigFrame a0 a1 a2 s) := by
  unfold sigFrame
  with_reducible repeat' first
    | assumption | refine Only.foldl ?_ ?_ | refine setSig_only (w.of (by decide)) ?_ | split | intro _

theorem cctFrame_only {a0 a1 a2 a3 s} (w : Within 2048 m) (h : Only m r s) : Only m r (cctFrame a0 a1 a2 a3 s).2 := by
  unfold cctFrame
  with_reducible repeat' first
    | assumption | refine setCwin_only (w.of (by decide)) ?_

theorem cctFrame_only' {a0 a1 a2 a3 s x t} (e : cctFrame a0 a1 a2 a3 s = (x, t)) (w : Within 2048 m) (h : Only m r s) : Only m r t := by
  have k := cctFrame_only (m := m) (r := r) (a0 := a0) (a1 := a1) (a2 := a2) (a3 := a3) (s := s) w h
  rw [e] at k; exact k

theorem cctFrames_only {a0 a1 a2 a3 s} (w : Within 2048 m) (h : Only m r s) : Only m r (cctFrames a0 a1 a2 a3 s).2 := by
  induction a3 generalizing s with
  | nil => exact h
  | cons _ l ih =>
    have ih' : ∀ {x t u}, cctFrames a0 a1 a2 l u = (x, t) → Only m r u → Only m r t := fun {x t u} e h => by
      have k : Only m r (cctFrames a0 a1 a2 l u).2 := ih h; rw [e] at k; exact k
    unfold cctFrames
    with_reducible repeat' first
      | refine ih ?_ | assumption | refine cctFrame_only (w.of (by decide)) ?_

theorem cctFrames_only' {a0 a1 a2 a3 s x t} (e : cctFrames a0 a1 a2 a3 s = (x, t)) (w : Within 2048 m) (h : Only m r s) : Only m r t := by
  have k := cctFrames_only (m := m) (r := r) (a0 := a0) (a1 := a1) (a2 := a2) (a3 := a3) (s := s) w h
  rw [e] at k; exact k

theorem baseFrame_only {a0 a1 a2 s} (w : Within 2116 m) (h : Only m r s) : Only m r (baseFrame a0 a1 a2 s) := by
  unfold baseFrame
  with_reducible repeat' first
    | (simp only [Only.mk_eq]; refine Only.u_tan (w.of (by decide)) ?_) | assumption | refine putTotal_only (w.of (by decide)) ?_
    | refine Only.ite (fun _ => ?_) (fun _ => ?_)

theorem baseAdd_only {a0 a1 a2 s} (w : Within 68 m) (h : Only m r s) : Only m r (baseAdd a0 a1 a2 s) := by
  unfold baseAdd
  with_reducible repeat' first
    | assumption | refine putTotal_only (w.of (by decide)) ?_ | split

theorem baseGap_only {a0 a1 a2 s} (w : Within 131140 m) (h : Only m r s) : Only m r (baseGap a0 a1 a2 s) := by
  unfold baseGap
  with_reducible repeat' first
    | (simp only [Only.mk_eq]; refine Only.u_pwr (w.of (by decide)) ?_) | assumption | refine Only.foldl ?_ ?_
    | refine baseAdd_only (w.of (by decide)) ?_ | split | intro _

theorem baseFrames_only {a0 a1 s} (w : Within 133188 m) (h : Only m r s) : Only m r (baseFrames a0 a1 s).2 := by
  unfold baseFrames
  with_reducible repeat' first
    | (simp only [Only.mk_eq]; refine Only.u_tan (w.of (by decide)) ?_) | assumption | refine Only.foldl ?_ ?_
    | refine baseFrame_only (w.of (by decide)) ?_ | refine baseGap_only (w.of (by decide)) ?_ | intro _

theorem baseFrames_only' {a0 a1 s x t} (e : baseFrames a0 a1 s = (x, t)) (w : Within 133188 m) (h : Only m r s) : Only m r t := by
  have k := baseFrames_only (m := m) (r := r) (a0 := a0) (a1 := a1) (s := s) w h
  rw [e] at k; exact k

theorem clockFrame_only {a0 a1 a2 s} (w : Within 2048 m) (h : Only m r s) : Only m r (clockFrame a0 a1 a2 s).2 := by
  unfold clockFrame
  with_reducible repeat' first
    | (simp only [Only.mk_eq]; refine Only.u_tan (w.of (by decide)) ?_) | assumption | refine Only.ite_snd (fun _ => ?_) (fun _ => ?_)

theorem clockFrame_only' {a0 a1 a2 s x t} (e : clockFrame a0 a1 a2 s = (x, t)) (w : Within 2048 m) (h : Only m r s) : Only m r t := by
  have k := clockFrame_only (m := m) (r := r) (a0 := a0) (a1 := a1) (a2 := a2) (s := s) w h
  rw [e] at k; exact k

theorem clockFrames_only {a0 a1 a2 s} (w : Within 2048 m) (h : Only m r s) : Only m r (clockFrames a0 a1 a2 s).2 := by
  induction a2 generalizing s with
  | nil => exact h
  | cons _ l ih =>
    have ih' : ∀ {x t u}, clockFrames a0 a1 l u = (x, t) → Only m r u → Only m r t := fun {x t u} e h => by
      have k : Only m r (clockFrames a0 a1 l u).2 := ih h; rw [e] at k; exact k
    unfold clockFrames
    with_reducible repeat' first
      | refine ih ?_ | assumption | refine clockFrame_only (w.of (by decide)) ?_

theorem clockFrames_only' {a0 a1 a2 s x t} (e : clockFrames a0 a1 a2 s = (x, t)) (w : Within 2048 m) (h : Only m r s) : Only m r t := by
  have k := clockFrames_only (m := m) (r := r) (a0 := a0) (a1 := a1) (a2 := a2) (s := s) w h
  rw [e] at k; exact k

theorem harmSamples_only {a0 a1 a2 a3 a4 s} (w : Within 2048 m) (h : Only m r s) : Only m r (harmSamples a0 a1 a2 a3 a4 s) := by
  unfold harmSamples
  with_reducible repeat' first
    | (simp only [Only.mk_eq]; refine Only.u_tan (w.of (by decide)) ?_) | assumption

theorem harmFrame_only {a0 a1 a2 a3 s} (w : Within 2116 m) (h : Only m r s) : Only m r (harmFrame a0 a1 a2 a3 s) := by
  unfold harmFrame
  with_reducible repeat' first
    | (simp only [Only.mk_eq]; refine Only.u_tan (w.of (by decide)) ?_) | assumption | refine State_putDue_only (w.of (by decide)) ?_
    | split

theorem harmWarm_only {a0 s} (w : Within 2116 m) (h : Only m r s) : Only m r (harmWarm a0 s) := by
  unfold harmWarm
  with_reducible repeat' first
    | assumption | refine Only.foldl ?_ ?_ | refine State_dropDue_only (w.of (by decide)) ?_
    | refine State_putDue_only (w.of (by decide)) ?_ | refine setCwin_only (w.of (by decide)) ?_
    | refine Only.ite (fun _ => ?_) (fun _ => ?_) | intro _

theorem hideRetired_only {a0 a1 s} (w : Within 68 m) (h : Only m r s) : Only m r (hideRetired a0 a1 s) := by
  unfold hideRetired
  with_reducible repeat' first
    | assumption | refine Only.foldl ?_ ?_ | refine State_putDue_only (w.of (by decide)) ?_ | split | intro _

theorem voltPublish_only {a0 s} (w : Within 68 m) (h : Only m r s) : Only m r (voltPublish a0 s) := by
  unfold voltPublish
  with_reducible repeat' first
    | assumption | refine Only.foldl ?_ ?_ | refine State_putDue_only (w.of (by decide)) ?_
    | refine hideRetired_only (w.of (by decide)) ?_ | refine pubInput_only (w.of (by decide)) ?_ | split | intro _

theorem chanPublish_only {a0 s} (w : Within 68 m) (h : Only m r s) : Only m r (chanPublish a0 s) := by
  unfold chanPublish
  with_reducible repeat' first
    | assumption | refine Only.foldl ?_ ?_ | refine State_putDue_only (w.of (by decide)) ?_
    | refine hideRetired_only (w.of (by decide)) ?_ | intro _

theorem emergTriggers_only {a0 s} (w : Within 4644 m) (h : Only m r s) : Only m r (emergTriggers a0 s) := by
  unfold emergTriggers
  with_reducible repeat' first
    | (simp only [Only.mk_eq]; refine Only.u_acq (w.of (by decide)) ?_) | assumption | refine Only.foldl ?_ ?_
    | refine capTrigger_only (w.of (by decide)) ?_ | split | intro _

theorem nowTrigger_only {a0 s} (w : Within 4132 m) (h : Only m r s) : Only m r (nowTrigger a0 s) := by
  unfold nowTrigger
  with_reducible repeat' first
    | (simp only [Only.mk_eq]; refine Only.u_cap (w.of (by decide)) ?_) | assumption | refine State_bump_only (w.of (by decide)) ?_
    | refine capStart_only (w.of (by decide)) ?_ | refine Only.ite (fun _ => ?_) (fun _ => ?_) | split

theorem execFreq10sIntervalEnd_only {s t} (e : execFreq10sIntervalEnd s = .next t) (w : Within 2116 m) (h : Only m r s) : Only m r t := by
  unfold execFreq10sIntervalEnd at e
  injection e with e
  subst e
  with_reducible repeat' first
    | (simp only [Only.mk_eq]; refine Only.u_tan (w.of (by decide)) ?_) | assumption | refine Only.foldl ?_ ?_
    | refine State_putDue_only (w.of (by decide)) ?_ | refine setZc_only (w.of (by decide)) ?_ | split | intro _

theorem execHalfCycleTimeout_only {a0 s t} (e : execHalfCycleTimeout a0 s = .next t) (w : Within 33560676 m) (h : Only m r s) : Only m r t := by
  unfold execHalfCycleTimeout at e
  injection e with e
  subst e
  with_reducible repeat' first
    | (simp only [Only.mk_eq]; refine Only.u_tan (w.of (by decide)) ?_) | assumption | refine State_putDue_only (w.of (by decide)) ?_
    | refine halfEnd_only (w.of (by decide)) ?_ | refine pqPublish_only (w.of (by decide)) ?_ | split

theorem romFrame_only {a0 s} (w : Within 134212 m) (h : Only m r s) : Only m r (romFrame a0 s) := by
  unfold romFrame
  with_reducible repeat' first
    | (simp only [Only.mk_eq]; refine Only.u_aln (w.of (by decide)) ?_) | assumption | refine baseFrames_only (w.of (by decide)) ?_
    | refine ownVolts_only (w.of (by decide)) ?_

theorem tanneryCap_only {a0 s} (w : Within 4644 m) (h : Only m r s) : Only m r (tanneryCap a0 s) := by
  unfold tanneryCap
  with_reducible repeat' first
    | assumption | refine capCollect_only (w.of (by decide)) ?_ | refine capPush_only (w.of (by decide)) ?_
    | refine emergTriggers_only (w.of (by decide)) ?_ | split

theorem tanneryHarm_only {a0 a1 s} (w : Within 2116 m) (h : Only m r s) : Only m r (tanneryHarm a0 a1 s) := by
  unfold tanneryHarm
  with_reducible repeat' first
    | assumption | refine Only.foldl ?_ ?_ | refine clockFrames_only (w.of (by decide)) ?_ | refine harmFrame_only (w.of (by decide)) ?_
    | refine harmSamples_only (w.of (by decide)) ?_ | split | intro _

theorem tanneryShow_only {a0 s} (w : Within 39848036 m) (h : Only m r s) : Only m r (tanneryShow a0 s) := by
  unfold tanneryShow
  with_reducible repeat' first
    | assumption | refine chanPublish_only (w.of (by decide)) ?_ | refine harmWarm_only (w.of (by decide)) ?_
    | refine pqPublish_only (w.of (by decide)) ?_ | refine tbFrame_only (w.of (by decide)) ?_
    | refine voltPublish_only (w.of (by decide)) ?_

theorem tanneryDone_only {a0 a1 a2 s} (w : Within 3584 m) (h : Only m r s) : Only m r (tanneryDone a0 a1 a2 s) := by
  unfold tanneryDone
  with_reducible repeat' first
    | (simp only [Only.mk_eq]; refine Only.u_acq_aln_tan (w.of (by decide)) ?_) | assumption | split

theorem tanneryFrame_only {a0 a1 a2 s} (w : Within 39984740 m) (h : Only m r s) : Only m r (tanneryFrame a0 a1 a2 s) := by
  unfold tanneryFrame
  with_reducible repeat' first
    | assumption | refine Only.foldl ?_ ?_ | refine State_putDue_only (w.of (by decide)) ?_ | refine baseFrames_only (w.of (by decide)) ?_
    | refine cctFrames_only (w.of (by decide)) ?_ | refine halfEnds_only (w.of (by decide)) ?_
    | refine nowTrigger_only (w.of (by decide)) ?_ | refine ownVolts_only (w.of (by decide)) ?_
    | refine scanVolts_only (w.of (by decide)) ?_ | refine sigFrame_only (w.of (by decide)) ?_
    | refine substReview_only (w.of (by decide)) ?_ | refine tanCfg_only (w.of (by decide)) ?_
    | refine tanneryCap_only (w.of (by decide)) ?_ | refine tanneryDone_only (w.of (by decide)) ?_
    | refine tanneryHarm_only (w.of (by decide)) ?_ | refine tanneryShow_only (w.of (by decide)) ?_ | intro _

theorem execTanneryFrameCompute_only {a0 a1 s t} (e : execTanneryFrameCompute a0 a1 s = .next t) (w : Within 39984740 m) (h : Only m r s) : Only m r t := by
  unfold execTanneryFrameCompute at e
  injection e with e
  subst e
  with_reducible repeat' first
    | assumption | refine State_bump_only (w.of (by decide)) ?_ | refine romFrame_only (w.of (by decide)) ?_
    | refine tanneryFrame_only (w.of (by decide)) ?_ | split

end Sys2Proof.Machine
end

