-- ==== Sys2Proof/Laws/OnlyHallmark.lean ====
section
/-! SUPPORT. Which parts the operations of these files change: Hallmark, Server, Requests. -/

namespace Sys2Proof.Machine

variable {m : Nat} {r : State}

/-! ### Hallmark -/

theorem setFirst_only {a0 s} (w : Within 10240 m) (h : Only m r s) : Only m r (setFirst a0 s) := by
  unfold setFirst
  with_reducible repeat' first
    | (simp only [Only.mk_eq]; refine Only.u_bill (w.of (by decide)) ?_)
    | (simp only [Only.mk_eq]; refine Only.u_tan (w.of (by decide)) ?_) | assumption | split

theorem dropFirst_only {s} (w : Within 10240 m) (h : Only m r s) : Only m r (dropFirst s) := by
  unfold dropFirst
  with_reducible repeat' first
    | (simp only [Only.mk_eq]; refine Only.u_tan_bill (w.of (by decide)) ?_) | assumption | split

theorem holdFrame_only {s} (w : Within 10240 m) (h : Only m r s) : Only m r (holdFrame s) := by
  unfold holdFrame
  with_reducible repeat' first
    | (simp only [Only.mk_eq]; refine Only.u_tan_bill (w.of (by decide)) ?_) | assumption | split

theorem putUnaccounted_only {a0 a1 s} (w : Within 68 m) (h : Only m r s) : Only m r (putUnaccounted a0 a1 s) := by
  unfold putUnaccounted
  with_reducible repeat' first
    | assumption | refine State_put_only (w.of (by decide)) ?_ | refine State_putDue_only (w.of (by decide)) ?_

theorem balanceFrame_only {a0 s} (w : Within 8260 m) (h : Only m r s) : Only m r (balanceFrame a0 s) := by
  unfold balanceFrame
  with_reducible repeat' first
    | (simp only [Only.mk_eq]; refine Only.u_bill (w.of (by decide)) ?_) | assumption | refine State_bump_only (w.of (by decide)) ?_
    | refine State_putDue_only (w.of (by decide)) ?_ | refine putUnaccounted_only (w.of (by decide)) ?_
    | refine Only.ite (fun _ => ?_) (fun _ => ?_)

theorem balanceAlarm_only {a0 a1 a2 s} (w : Within 33554500 m) (h : Only m r s) : Only m r (balanceAlarm a0 a1 a2 s) := by
  unfold balanceAlarm
  with_reducible repeat' first
    | assumption | refine State_bump_only (w.of (by decide)) ?_ | refine State_eventAt_only (w.of (by decide)) ?_
    | refine State_putDue_only (w.of (by decide)) ?_ | refine Only.ite (fun _ => ?_) (fun _ => ?_)

theorem showFrom_only {a0 a1 s} (w : Within 201326592 m) (h : Only m r s) : Only m r (showFrom a0 a1 s) := by
  unfold showFrom
  with_reducible repeat' first
    | (simp only [Only.mk_eq]; refine Only.u_staging_sealed (w.of (by decide)) ?_) | assumption

theorem execBalanceRate_only {s t} (e : execBalanceRate s = .next t) (w : Within 234889284 m) (h : Only m r s) : Only m r t := by
  unfold execBalanceRate at e
  try dsimp only at e
  injection e with e
  subst e
  with_reducible repeat' first
    | (simp only [Only.mk_eq]; refine Only.u_bill (w.of (by decide)) ?_) | assumption | refine State_putDueI_only (w.of (by decide)) ?_
    | refine balanceAlarm_only (w.of (by decide)) ?_ | refine showFrom_only (w.of (by decide)) ?_ | split

theorem clearSpectra_only {a0 s} (w : Within 4 m) (h : Only m r s) : Only m r (clearSpectra a0 s) := by
  unfold clearSpectra
  with_reducible repeat' first
    | assumption | refine Only.foldl ?_ ?_ | refine State_putBoth_only (w.of (by decide)) ?_ | intro _

theorem stageSpectra_only {a0 s} (w : Within 2052 m) (h : Only m r s) : Only m r (stageSpectra a0 s) := by
  unfold stageSpectra
  with_reducible repeat' first
    | (simp only [Only.mk_eq]; refine Only.u_tan (w.of (by decide)) ?_) | assumption | refine Only.foldl ?_ ?_
    | refine State_putBoth_only (w.of (by decide)) ?_ | refine State_putsBoth_only (w.of (by decide)) ?_
    | refine clearSpectra_only (w.of (by decide)) ?_ | refine Only.ite (fun _ => ?_) (fun _ => ?_) | intro _

theorem stageFrame_only {a0 a1 s} (w : Within 67111108 m) (h : Only m r s) : Only m r (stageFrame a0 a1 s) := by
  unfold stageFrame
  with_reducible repeat' first
    | (simp only [Only.mk_eq]; refine Only.u_olds_staging (w.of (by decide)) ?_)
    | (simp only [Only.mk_eq]; refine Only.u_tan (w.of (by decide)) ?_) | assumption | refine Only.foldl ?_ ?_
    | refine State_applyDue_only (w.of (by decide)) ?_ | refine showPage_only (w.of (by decide)) ?_
    | refine stageSpectra_only (w.of (by decide)) ?_ | intro _

theorem markFrame_only {a0 s} (w : Within 4 m) (h : Only m r s) : Only m r (markFrame a0 s) := by
  unfold markFrame
  with_reducible repeat' first
    | assumption | refine Only.foldl ?_ ?_ | refine State_put_only (w.of (by decide)) ?_ | intro _

theorem showCct_only {a0 a1 s} (w : Within 68 m) (h : Only m r s) : Only m r (showCct a0 a1 s) := by
  unfold showCct
  with_reducible repeat' first
    | assumption | refine State_putDue_only (w.of (by decide)) ?_ | refine showDemand_only (w.of (by decide)) ?_

theorem dropCommits_only {s} (w : Within 8 m) (h : Only m r s) : Only m r (dropCommits s) := by
  unfold dropCommits
  with_reducible repeat' first
    | (simp only [Only.mk_eq]; refine Only.u_commits (w.of (by decide)) ?_) | assumption

theorem finishFrame_only {a0 s} (w : Within 67168972 m) (h : Only m r s) : Only m r (finishFrame a0 s) := by
  unfold finishFrame
  with_reducible repeat' first
    | (simp only [Only.mk_eq]; refine Only.u_acq (w.of (by decide)) ?_)
    | (simp only [Only.mk_eq]; refine Only.u_bill (w.of (by decide)) ?_) | assumption | refine Only.foldl ?_ ?_
    | refine State_putV_only (w.of (by decide)) ?_ | refine balanceFrame_only (w.of (by decide)) ?_
    | refine dropCommits_only (w.of (by decide)) ?_ | refine dropFirst_only (w.of (by decide)) ?_
    | refine healthFrame_only (w.of (by decide)) ?_ | refine markFrame_only (w.of (by decide)) ?_
    | refine pulseFrame_only (w.of (by decide)) ?_ | refine showCct_only (w.of (by decide)) ?_
    | refine stageFrame_only (w.of (by decide)) ?_ | split | intro _

theorem gaspKeys_only {a0 a1 s} (w : Within 8192 m) (h : Only m r s) : Only m r (gaspKeys a0 a1 s) := by
  unfold gaspKeys
  try dsimp only
  with_reducible repeat' first
    | assumption | refine setC_only (w.of (by decide)) ?_ | split

theorem gapFrame_only {a0 a1 a2 a3 a4 s} (w : Within 8260 m) (h : Only m r s) : Only m r (gapFrame a0 a1 a2 a3 a4 s) := by
  unfold gapFrame
  with_reducible repeat' first
    | assumption | refine accrueCct_only (w.of (by decide)) ?_ | refine gaspKeys_only (w.of (by decide)) ?_

theorem gapBalance_only {a0 a1 s} (w : Within 8260 m) (h : Only m r s) : Only m r (gapBalance a0 a1 s) := by
  unfold gapBalance
  with_reducible repeat' first
    | assumption | refine Only.foldl ?_ ?_ | refine balanceFrame_only (w.of (by decide)) ?_ | intro _

theorem fillGap_only {a0 s} (w : Within 139332 m) (h : Only m r s) : Only m r (fillGap a0 s) := by
  unfold fillGap
  with_reducible repeat' first
    | (simp only [Only.mk_eq]; refine Only.u_pwr (w.of (by decide)) ?_) | assumption | refine Only.foldl ?_ ?_
    | refine State_put_only (w.of (by decide)) ?_ | refine gapBalance_only (w.of (by decide)) ?_
    | refine gapFrame_only (w.of (by decide)) ?_ | split | intro _

theorem passFrame_only {a0 s} (w : Within 67266756 m) (h : Only m r s) : Only m r (passFrame a0 s) := by
  unfold passFrame
  with_reducible repeat' first
    | (simp only [Only.mk_eq]; refine Only.u_pulse (w.of (by decide)) ?_) | assumption | refine Only.foldl ?_ ?_
    | refine State_putDue_only (w.of (by decide)) ?_ | refine dropFirst_only (w.of (by decide)) ?_
    | refine fillGap_only (w.of (by decide)) ?_ | refine stageFrame_only (w.of (by decide)) ?_ | intro _

theorem accrueResult_only {a0 a1 s} (w : Within 67168972 m) (h : Only m r s) : Only m r (accrueResult a0 a1 s) := by
  unfold accrueResult
  with_reducible repeat' first
    | assumption | refine accrueCct_only (w.of (by decide)) ?_ | refine finishFrame_only (w.of (by decide)) ?_
    | refine setFirst_only (w.of (by decide)) ?_ | refine Only.ite (fun _ => ?_) (fun _ => ?_)

theorem beginFrame_only {a0 s} (w : Within 15065964612 m) (h : Only m r s) : Only m r (beginFrame a0 s) := by
  unfold beginFrame
  with_reducible repeat' first
    | (simp only [Only.mk_eq]; refine Only.u_bill (w.of (by decide)) ?_) | assumption | refine startFrame_only (w.of (by decide)) ?_
    | split

theorem accrueNext_only {a0 a1 s} (w : Within 67168972 m) (h : Only m r s) : Only m r (accrueNext a0 a1 s) := by
  unfold accrueNext
  with_reducible repeat' first
    | assumption | refine accrueResult_only (w.of (by decide)) ?_ | refine finishFrame_only (w.of (by decide)) ?_
    | refine holdFrame_only (w.of (by decide)) ?_ | split

theorem accrueFrom_only {a0 a1 s} (w : Within 15133240012 m) (h : Only m r s) : Only m r (accrueFrom a0 a1 s) := by
  unfold accrueFrom
  with_reducible repeat' first
    | assumption | refine accrueNext_only (w.of (by decide)) ?_ | refine beginFrame_only (w.of (by decide)) ?_
    | refine passFrame_only (w.of (by decide)) ?_ | split

theorem execHallmarkAccrue_only {a0 s t} (e : execHallmarkAccrue a0 s = .next t) (w : Within 15133240012 m) (h : Only m r s) : Only m r t := by
  unfold execHallmarkAccrue at e
  injection e with e
  subst e
  with_reducible repeat' first
    | (simp only [Only.mk_eq]; refine Only.u_bill (w.of (by decide)) ?_) | assumption | refine State_putDue_only (w.of (by decide)) ?_
    | refine accrueFrom_only (w.of (by decide)) ?_ | split

theorem turnDirection_only {a0 a1 a2 s} (w : Within 201326660 m) (h : Only m r s) : Only m r (turnDirection a0 a1 a2 s) := by
  unfold turnDirection
  with_reducible repeat' first
    | (simp only [Only.mk_eq]; refine Only.u_staging_sealed (w.of (by decide)) ?_) | assumption
    | refine State_putDue_only (w.of (by decide)) ?_

theorem execDirectionChange_only {a0 s t} (e : execDirectionChange a0 s = .next t) (w : Within 234889284 m) (h : Only m r s) : Only m r t := by
  unfold execDirectionChange at e
  injection e with e
  subst e
  with_reducible repeat' first
    | assumption | refine State_bump_only (w.of (by decide)) ?_ | refine State_eventAt_only (w.of (by decide)) ?_
    | refine setC_only (w.of (by decide)) ?_ | refine turnDirection_only (w.of (by decide)) ?_ | split

theorem execBoundaryFrame_only {s t} (e : execBoundaryFrame s = .next t) (w : Within 15065964612 m) (h : Only m r s) : Only m r t := by
  unfold execBoundaryFrame at e
  injection e with e
  subst e
  with_reducible repeat' first
    | assumption | refine beginFrame_only (w.of (by decide)) ?_ | split

theorem execForcedRollComplete_only {s t} (e : execForcedRollComplete s = .next t) (w : Within 33562692 m) (h : Only m r s) : Only m r t := by
  unfold execForcedRollComplete at e
  injection e with e
  subst e
  with_reducible repeat' first
    | (simp only [Only.mk_eq]; refine Only.u_bill (w.of (by decide)) ?_) | assumption | refine Only.foldl ?_ ?_
    | refine checkTotals_only (w.of (by decide)) ?_ | intro _

theorem put7_only {a0 s} (w : Within 8192 m) (h : Only m r s) : Only m r (put7 a0 s) := by
  unfold put7
  with_reducible repeat' first
    | (simp only [Only.mk_eq]; refine Only.u_bill (w.of (by decide)) ?_) | assumption

theorem drop7_only {s} (w : Within 8192 m) (h : Only m r s) : Only m r (drop7 s) := by
  unfold drop7
  with_reducible repeat' first
    | (simp only [Only.mk_eq]; refine Only.u_bill (w.of (by decide)) ?_) | assumption

theorem setOver7_only {a0 a1 s} (w : Within 8192 m) (h : Only m r s) : Only m r (setOver7 a0 a1 s) := by
  unfold setOver7
  with_reducible repeat' first
    | (simp only [Only.mk_eq]; refine Only.u_bill (w.of (by decide)) ?_) | assumption

theorem overPost_only {a0 s} (w : Within 8192 m) (h : Only m r s) : Only m r (overPost a0 s) := by
  unfold overPost
  with_reducible repeat' first
    | assumption | refine setOver7_only (w.of (by decide)) ?_ | split

theorem profPost_only {a0 s} (w : Within 8196 m) (h : Only m r s) : Only m r (profPost a0 s) := by
  unfold profPost
  with_reducible repeat' first
    | assumption | refine State_bump_only (w.of (by decide)) ?_ | refine overPost_only (w.of (by decide)) ?_
    | refine put7_only (w.of (by decide)) ?_ | split

theorem profPump_only {s} (w : Within 8192 m) (h : Only m r s) : Only m r (profPump s) := by
  unfold profPump
  with_reducible repeat' first
    | assumption | refine put7_only (w.of (by decide)) ?_ | refine setOver7_only (w.of (by decide)) ?_ | split

theorem execProfileIntervalEnd_only {s t} (e : execProfileIntervalEnd s = .next t) (w : Within 8196 m) (h : Only m r s) : Only m r t := by
  unfold execProfileIntervalEnd at e
  injection e with e
  subst e
  with_reducible repeat' first
    | (simp only [Only.mk_eq]; refine Only.u_bill (w.of (by decide)) ?_) | assumption | refine profPost_only (w.of (by decide)) ?_ | split

theorem raiseStale_only {a0 s} (w : Within 33562628 m) (h : Only m r s) : Only m r (raiseStale a0 s) := by
  unfold raiseStale
  with_reducible repeat' first
    | (simp only [Only.mk_eq]; refine Only.u_bill (w.of (by decide)) ?_) | assumption | refine State_event_only (w.of (by decide)) ?_
    | refine State_put_only (w.of (by decide)) ?_ | refine Only.ite (fun _ => ?_) (fun _ => ?_) | split

theorem wiringMade_only {a0 s} (w : Within 8324 m) (h : Only m r s) : Only m r (wiringMade a0 s) := by
  unfold wiringMade
  with_reducible repeat' first
    | (simp only [Only.mk_eq]; refine Only.u_bill (w.of (by decide)) ?_) | assumption | refine State_putV_only (w.of (by decide)) ?_

theorem wiringTaken_only {a0 s} (w : Within 8196 m) (h : Only m r s) : Only m r (wiringTaken a0 s) := by
  unfold wiringTaken
  with_reducible repeat' first
    | (simp only [Only.mk_eq]; refine Only.u_bill (w.of (by decide)) ?_) | assumption | refine State_put_only (w.of (by decide)) ?_

theorem execWiringCheck_only {s t} (e : execWiringCheck s = .next t) (w : Within 33562756 m) (h : Only m r s) : Only m r t := by
  unfold execWiringCheck at e
  injection e with e
  subst e
  with_reducible repeat' first
    | assumption | refine raiseStale_only (w.of (by decide)) ?_ | refine wiringMade_only (w.of (by decide)) ?_
    | refine wiringTaken_only (w.of (by decide)) ?_ | refine Only.ite (fun _ => ?_) (fun _ => ?_)

/-! ### Server -/

theorem setSrv_only {a0 s} (w : Within 262144 m) (h : Only m r s) : Only m r (setSrv a0 s) := by
  unfold setSrv
  with_reducible repeat' first
    | (simp only [Only.mk_eq]; refine Only.u_srv (w.of (by decide)) ?_) | assumption
    | refine Only.ite_eq (by assumption) (fun _ _ => ?_) (fun _ _ => ?_)

theorem setTag_only {a0 a1 s} (w : Within 262144 m) (h : Only m r s) : Only m r (setTag a0 a1 s) := by
  unfold setTag
  with_reducible repeat' first
    | assumption | refine setSrv_only (w.of (by decide)) ?_ | refine Only.ite_eq (by assumption) (fun _ _ => ?_) (fun _ _ => ?_)

theorem setSess_only {a0 a1 s} (w : Within 262144 m) (h : Only m r s) : Only m r (setSess a0 a1 s) := by
  unfold setSess
  with_reducible repeat' first
    | assumption | refine setSrv_only (w.of (by decide)) ?_ | refine Only.ite_eq (by assumption) (fun _ _ => ?_) (fun _ _ => ?_)

theorem push12_only {a0 s} (w : Within 262144 m) (h : Only m r s) : Only m r (push12 a0 s) := by
  unfold push12
  with_reducible repeat' first
    | assumption | refine setSrv_only (w.of (by decide)) ?_ | refine Only.ite_eq (by assumption) (fun _ _ => ?_) (fun _ _ => ?_)

theorem refuse_only {a0 a1 a2 s} (w : Within 262148 m) (h : Only m r s) : Only m r (refuse a0 a1 a2 s) := by
  unfold refuse
  with_reducible repeat' first
    | assumption | refine State_bump_only (w.of (by decide)) ?_ | refine push12_only (w.of (by decide)) ?_
    | refine Only.ite (fun _ => ?_) (fun _ => ?_) | split

theorem setTxn_only {a0 s} (w : Within 262144 m) (h : Only m r s) : Only m r (setTxn a0 s) := by
  unfold setTxn
  with_reducible repeat' first
    | assumption | refine setSrv_only (w.of (by decide)) ?_ | refine Only.ite_eq (by assumption) (fun _ _ => ?_) (fun _ _ => ?_)

theorem dropPins_only {s} (w : Within 1073741824 m) (h : Only m r s) : Only m r (dropPins s) := by
  unfold dropPins
  with_reducible repeat' first
    | (simp only [Only.mk_eq]; refine Only.u_pins (w.of (by decide)) ?_) | assumption
    | refine Only.ite_eq (by assumption) (fun _ _ => ?_) (fun _ _ => ?_)

theorem endTxns_only {a0 s} (w : Within 1074003968 m) (h : Only m r s) : Only m r (endTxns a0 s) := by
  unfold endTxns
  with_reducible repeat' first
    | assumption | refine dropPins_only (w.of (by decide)) ?_ | refine setSrv_only (w.of (by decide)) ?_ | split

theorem endTxn_only {a0 s} (w : Within 1074003968 m) (h : Only m r s) : Only m r (endTxn a0 s) := by
  unfold endTxn
  with_reducible repeat' first
    | assumption | refine endTxns_only (w.of (by decide)) ?_ | refine Only.ite_eq (by assumption) (fun _ _ => ?_) (fun _ _ => ?_)

theorem finishTag_only {a0 a1 s} (w : Within 262144 m) (h : Only m r s) : Only m r (finishTag a0 a1 s) := by
  unfold finishTag
  with_reducible repeat' first
    | assumption | refine setSrv_only (w.of (by decide)) ?_ | refine setTag_only (w.of (by decide)) ?_ | split

theorem failTag_only {a0 a1 a2 s} (w : Within 262144 m) (h : Only m r s) : Only m r (failTag a0 a1 a2 s) := by
  unfold failTag
  with_reducible repeat' first
    | assumption | refine finishTag_only (w.of (by decide)) ?_ | refine Only.ite_eq (by assumption) (fun _ _ => ?_) (fun _ _ => ?_)

theorem beginTag_only {a0 a1 s} (w : Within 262144 m) (h : Only m r s) : Only m r (beginTag a0 a1 s) := by
  unfold beginTag
  with_reducible repeat' first
    | assumption | refine failTag_only (w.of (by decide)) ?_ | refine finishTag_only (w.of (by decide)) ?_
    | refine setTag_only (w.of (by decide)) ?_ | refine setTxn_only (w.of (by decide)) ?_ | refine Only.ite (fun _ => ?_) (fun _ => ?_)
    | split

theorem startGo_only {a0 s} (w : Within 262144 m) (h : Only m r s) : Only m r (startGo a0 s) := by
  induction a0 generalizing s with
  | zero => exact h
  | succ _ ih =>
    unfold startGo
    with_reducible repeat' first
      | refine ih ?_ | assumption | refine beginTag_only (w.of (by decide)) ?_ | split

theorem startReqs_only {s} (w : Within 262144 m) (h : Only m r s) : Only m r (startReqs s) := by
  unfold startReqs
  with_reducible repeat' first
    | assumption | refine startGo_only (w.of (by decide)) ?_ | split | refine Only.ite_eq (by assumption) (fun _ _ => ?_) (fun _ _ => ?_)

theorem answer_only {a0 a1 a2 s} (w : Within 262144 m) (h : Only m r s) : Only m r (answer a0 a1 a2 s) := by
  unfold answer
  with_reducible repeat' first
    | assumption | refine finishTag_only (w.of (by decide)) ?_ | refine setTag_only (w.of (by decide)) ?_
    | refine startReqs_only (w.of (by decide)) ?_ | refine Only.ite_snd (fun _ => ?_) (fun _ => ?_) | split

theorem holdTag_only {a0 s} (w : Within 262144 m) (h : Only m r s) : Only m r (holdTag a0 s) := by
  unfold holdTag
  with_reducible repeat' first
    | assumption | refine setTag_only (w.of (by decide)) ?_ | split | refine Only.ite_eq (by assumption) (fun _ _ => ?_) (fun _ _ => ?_)

theorem runOp_only {a0 a1 a2 s} (w : Within 262144 m) (h2 : ∀ x0 x1 s, Only m r s → Only m r (a2 x0 x1 s)) (h : Only m r s) : Only m r (runOp a0 a1 a2 s) := by
  unfold runOp
  with_reducible repeat' first
    | assumption | refine answer_only (w.of (by decide)) ?_ | refine h2 _ _ _ ?_ | split

theorem trackRead_only {a0 a1 s} (w : Within 262144 m) (h : Only m r s) : Only m r (trackRead a0 a1 s) := by
  unfold trackRead
  with_reducible repeat' first
    | assumption | refine setTxn_only (w.of (by decide)) ?_ | split | refine Only.ite_eq (by assumption) (fun _ _ => ?_) (fun _ _ => ?_)

theorem markUsed_only {a0 a1 s} (w : Within 262144 m) (h : Only m r s) : Only m r (markUsed a0 a1 s) := by
  unfold markUsed
  with_reducible repeat' first
    | assumption | refine setTag_only (w.of (by decide)) ?_ | split | refine Only.ite_eq (by assumption) (fun _ _ => ?_) (fun _ _ => ?_)

theorem freeTag_only {a0 s} (w : Within 262144 m) (h : Only m r s) : Only m r (freeTag a0 s) := by
  unfold freeTag
  with_reducible repeat' first
    | assumption | refine setTag_only (w.of (by decide)) ?_ | refine startReqs_only (w.of (by decide)) ?_ | split

theorem leave12_only {a0 s} (w : Within 262144 m) (h : Only m r s) : Only m r (leave12 a0 s) := by
  unfold leave12
  with_reducible repeat' first
    | assumption | refine freeTag_only (w.of (by decide)) ?_ | refine setSrv_only (w.of (by decide)) ?_ | split

theorem leave13_only {a0 s} (w : Within 262144 m) (h : Only m r s) : Only m r (leave13 a0 s) := by
  unfold leave13
  with_reducible repeat' first
    | assumption | refine setSrv_only (w.of (by decide)) ?_ | refine Only.ite_eq (by assumption) (fun _ _ => ?_) (fun _ _ => ?_)

/-! ### Requests -/

theorem addPart_only {a0 a1 a2 a3 a4 s} (w : Within 262144 m) (h : Only m r s) : Only m r (addPart a0 a1 a2 a3 a4 s) := by
  unfold addPart
  with_reducible repeat' first
    | assumption | refine failTag_only (w.of (by decide)) ?_ | refine setSrv_only (w.of (by decide)) ?_
    | refine setTag_only (w.of (by decide)) ?_ | refine Only.ite (fun _ => ?_) (fun _ => ?_) | split

theorem bindReq_only {a0 a1 a2 s} (w : Within 262148 m) (h : Only m r s) : Only m r (bindReq a0 a1 a2 s) := by
  unfold bindReq
  with_reducible repeat' first
    | assumption | refine addPart_only (w.of (by decide)) ?_ | refine refuse_only (w.of (by decide)) ?_
    | refine setTxn_only (w.of (by decide)) ?_ | refine Only.ite (fun _ => ?_) (fun _ => ?_) | split

theorem parseReq_only {a0 s} (w : Within 262180 m) (h : Only m r s) : Only m r (parseReq a0 s) := by
  unfold parseReq
  with_reducible repeat' first
    | assumption | refine State_bumpLive_only (w.of (by decide)) ?_ | refine addPart_only (w.of (by decide)) ?_
    | refine bindReq_only (w.of (by decide)) ?_ | refine refuse_only (w.of (by decide)) ?_ | refine setSrv_only (w.of (by decide)) ?_
    | refine Only.ite (fun _ => ?_) (fun _ => ?_) | split

theorem execRequestParse_only {a0 s t} (e : execRequestParse a0 s = .next t) (w : Within 262180 m) (h : Only m r s) : Only m r t := by
  unfold execRequestParse at e
  injection e with e
  subst e
  with_reducible repeat' first
    | assumption | refine parseReq_only (w.of (by decide)) ?_ | refine setSrv_only (w.of (by decide)) ?_
    | refine startReqs_only (w.of (by decide)) ?_ | split

theorem execRequestStartDeferred_only {a0 s t} (e : execRequestStartDeferred a0 s = .next t) (w : Within 262144 m) (h : Only m r s) : Only m r t := by
  unfold execRequestStartDeferred at e
  injection e with e
  subst e
  with_reducible repeat' first
    | assumption | refine startReqs_only (w.of (by decide)) ?_ | split

theorem execContinuationTimeout_only {a0 s t} (e : execContinuationTimeout a0 s = .next t) (w : Within 262144 m) (h : Only m r s) : Only m r t := by
  unfold execContinuationTimeout at e
  injection e with e
  subst e
  with_reducible repeat' first
    | assumption | refine failTag_only (w.of (by decide)) ?_ | split

theorem enqueueGo_only {a0 a1 s} (w : Within 262148 m) (h : Only m r s) : Only m r (enqueueGo a0 a1 s) := by
  induction a0 generalizing s with
  | zero => exact h
  | succ _ ih =>
    unfold enqueueGo
    with_reducible repeat' first
      | refine ih ?_ | assumption | refine State_bump_only (w.of (by decide)) ?_ | refine push12_only (w.of (by decide)) ?_
      | refine setSrv_only (w.of (by decide)) ?_ | refine setTag_only (w.of (by decide)) ?_ | split

theorem execResponseEnqueue_only {a0 s t} (e : execResponseEnqueue a0 s = .next t) (w : Within 262148 m) (h : Only m r s) : Only m r t := by
  unfold execResponseEnqueue at e
  injection e with e
  subst e
  with_reducible repeat' first
    | assumption | refine enqueueGo_only (w.of (by decide)) ?_ | refine freeTag_only (w.of (by decide)) ?_
    | refine setSrv_only (w.of (by decide)) ?_ | split

theorem execUnknownOpcode_only {a0 s t} (e : execUnknownOpcode a0 s = .next t) (w : Within 262144 m) (h : Only m r s) : Only m r t := by
  unfold execUnknownOpcode at e
  injection e with e
  subst e
  with_reducible repeat' first
    | assumption | refine answer_only (w.of (by decide)) ?_ | refine runOp_only (w.of (by decide)) ?_ ?_ | intro _

theorem execRead_only {a0 s t} (e : execRead a0 s = .next t) (w : Within 262144 m) (h : Only m r s) : Only m r t := by
  unfold execRead at e
  injection e with e
  subst e
  with_reducible repeat' first
    | assumption | refine answer_only (w.of (by decide)) ?_ | refine markUsed_only (w.of (by decide)) ?_
    | refine runOp_only (w.of (by decide)) ?_ ?_ | refine trackRead_only (w.of (by decide)) ?_ | split | intro _

theorem execReadSet_only {a0 s t} (e : execReadSet a0 s = .next t) (w : Within 262144 m) (h : Only m r s) : Only m r t := by
  unfold execReadSet at e
  injection e with e
  subst e
  with_reducible repeat' first
    | assumption | refine Only.foldl ?_ ?_ | refine answer_only (w.of (by decide)) ?_ | refine markUsed_only (w.of (by decide)) ?_
    | refine runOp_only (w.of (by decide)) ?_ ?_ | refine trackRead_only (w.of (by decide)) ?_
    | refine Only.ite (fun _ => ?_) (fun _ => ?_) | split | intro _

theorem openTxn_only {a0 a1 a2 a3 s} (w : Within 1074003968 m) (h : Only m r s) : Only m r (openTxn a0 a1 a2 a3 s) := by
  unfold openTxn
  with_reducible repeat' first
    | (simp only [Only.mk_eq]; refine Only.u_pins (w.of (by decide)) ?_) | assumption | refine answer_only (w.of (by decide)) ?_
    | refine setSrv_only (w.of (by decide)) ?_ | refine setTag_only (w.of (by decide)) ?_ | split

theorem execBegin_only {a0 s t} (e : execBegin a0 s = .next t) (w : Within 1074003968 m) (h : Only m r s) : Only m r t := by
  unfold execBegin at e
  injection e with e
  subst e
  with_reducible repeat' first
    | assumption | refine answer_only (w.of (by decide)) ?_ | refine openTxn_only (w.of (by decide)) ?_
    | refine runOp_only (w.of (by decide)) ?_ ?_ | split | intro _

theorem execRollback_only {a0 s t} (e : execRollback a0 s = .next t) (w : Within 1074003968 m) (h : Only m r s) : Only m r t := by
  unfold execRollback at e
  injection e with e
  subst e
  with_reducible repeat' first
    | assumption | refine answer_only (w.of (by decide)) ?_ | refine endTxn_only (w.of (by decide)) ?_
    | refine runOp_only (w.of (by decide)) ?_ ?_ | split | intro _

theorem execPinExpiry_only {a0 s t} (e : execPinExpiry a0 s = .next t) (w : Within 1074003972 m) (h : Only m r s) : Only m r t := by
  unfold execPinExpiry at e
  injection e with e
  subst e
  with_reducible repeat' first
    | assumption | refine State_bump_only (w.of (by decide)) ?_ | refine endTxn_only (w.of (by decide)) ?_ | split

theorem execTxnTimeout_only {a0 s t} (e : execTxnTimeout a0 s = .next t) (w : Within 1074003972 m) (h : Only m r s) : Only m r t := by
  unfold execTxnTimeout at e
  injection e with e
  subst e
  with_reducible repeat' first
    | assumption | refine State_bump_only (w.of (by decide)) ?_ | refine endTxn_only (w.of (by decide)) ?_ | split

end Sys2Proof.Machine
end

