-- ==== Sys2Proof/Laws/OnlyCommit.lean ====
section
/-! SUPPORT. Which parts the operations of these files change: Commit, Tackroom, Flags, PlcBase, Acquire, Spectrum. -/

namespace Sys2Proof.Machine

variable {m : Nat} {r : State}

/-! ### Commit -/

theorem postRecord_only {a0 a1 s} (w : Within 10737426432 m) (h : Only m r s) : Only m r (postRecord a0 a1 s) := by
  unfold postRecord
  with_reducible repeat' first
    | assumption | refine postJob_only (w.of (by decide)) ?_ | refine storeRec_only (w.of (by decide)) ?_ | split

theorem postCommit_only {a0 a1 a2 a3 a4 a5 a6 s} (w : Within 10737688576 m) (h : Only m r s) : Only m r (postCommit a0 a1 a2 a3 a4 a5 a6 s) := by
  unfold postCommit
  with_reducible repeat' first
    | assumption | refine Only.foldl ?_ ?_ | refine holdTag_only (w.of (by decide)) ?_ | refine postJob_only (w.of (by decide)) ?_
    | refine postRecord_only (w.of (by decide)) ?_ | refine setSrv_only (w.of (by decide)) ?_ | intro _

theorem showKeys_only {a0 s} (w : Within 4 m) (h : Only m r s) : Only m r (showKeys a0 s) := by
  unfold showKeys
  with_reducible repeat' first
    | assumption | refine Only.foldl ?_ ?_ | refine State_put_only (w.of (by decide)) ?_ | split | intro _

theorem noteAcked_only {a0 s} (w : Within 262144 m) (h : Only m r s) : Only m r (noteAcked a0 s) := by
  unfold noteAcked
  with_reducible repeat' first
    | assumption | refine setSrv_only (w.of (by decide)) ?_

theorem ackCommit_only {a0 a1 a2 a3 a4 a5 a6 s} (w : Within 294956 m) (h : Only m r s) : Only m r (ackCommit a0 a1 a2 a3 a4 a5 a6 s) := by
  unfold ackCommit
  with_reducible repeat' first
    | (simp only [Only.mk_eq]; refine Only.u_commits (w.of (by decide)) ?_)
    | (simp only [Only.mk_eq]; refine Only.u_img (w.of (by decide)) ?_) | assumption | refine State_bump_only (w.of (by decide)) ?_
    | refine State_put_only (w.of (by decide)) ?_ | refine State_putLive_only (w.of (by decide)) ?_
    | refine State_puts_only (w.of (by decide)) ?_ | refine answer_only (w.of (by decide)) ?_
    | refine noteAcked_only (w.of (by decide)) ?_ | refine setSrv_only (w.of (by decide)) ?_ | refine showKeys_only (w.of (by decide)) ?_
    | split

theorem waitTurn_only {a0 s} (w : Within 262144 m) (h : Only m r s) : Only m r (waitTurn a0 s) := by
  unfold waitTurn
  with_reducible repeat' first
    | assumption | refine setSrv_only (w.of (by decide)) ?_ | split

theorem commitTxn_only {a0 a1 a2 s} (w : Within 11811430404 m) (h : Only m r s) : Only m r (commitTxn a0 a1 a2 s) := by
  unfold commitTxn
  try dsimp only
  with_reducible repeat' first
    | assumption | refine State_bump_only (w.of (by decide)) ?_ | refine answer_only (w.of (by decide)) ?_
    | refine endTxn_only (w.of (by decide)) ?_ | refine postCommit_only (w.of (by decide)) ?_ | split

theorem execCommit_only {a0 s t} (e : execCommit a0 s = .next t) (w : Within 11811430404 m) (h : Only m r s) : Only m r t := by
  unfold execCommit at e
  injection e with e
  subst e
  with_reducible repeat' first
    | assumption | refine answer_only (w.of (by decide)) ?_ | refine commitTxn_only (w.of (by decide)) ?_
    | refine endTxn_only (w.of (by decide)) ?_ | refine runOp_only (w.of (by decide)) ?_ ?_ | refine waitTurn_only (w.of (by decide)) ?_
    | split | intro _

theorem stageWrite_only {a0 a1 a2 a3 a4 s} (w : Within 262144 m) (h : Only m r s) : Only m r (stageWrite a0 a1 a2 a3 a4 s) := by
  unfold stageWrite
  with_reducible repeat' first
    | assumption | refine answer_only (w.of (by decide)) ?_ | refine setTxn_only (w.of (by decide)) ?_ | split

theorem implicitWrite_only {a0 a1 a2 a3 s} (w : Within 10737688580 m) (h : Only m r s) : Only m r (implicitWrite a0 a1 a2 a3 s) := by
  unfold implicitWrite
  with_reducible repeat' first
    | assumption | refine State_bump_only (w.of (by decide)) ?_ | refine answer_only (w.of (by decide)) ?_
    | refine postCommit_only (w.of (by decide)) ?_ | refine waitTurn_only (w.of (by decide)) ?_ | split

theorem applyWrite_only {a0 a1 a2 a3 a4 a5 s} (w : Within 10737688580 m) (h : Only m r s) : Only m r (applyWrite a0 a1 a2 a3 a4 a5 s) := by
  unfold applyWrite
  with_reducible repeat' first
    | assumption | refine answer_only (w.of (by decide)) ?_ | refine implicitWrite_only (w.of (by decide)) ?_
    | refine stageWrite_only (w.of (by decide)) ?_ | split

theorem execWrite_only {a0 s t} (e : execWrite a0 s = .next t) (w : Within 10737688580 m) (h : Only m r s) : Only m r t := by
  unfold execWrite at e
  injection e with e
  subst e
  with_reducible repeat' first
    | assumption | refine answer_only (w.of (by decide)) ?_ | refine applyWrite_only (w.of (by decide)) ?_
    | refine runOp_only (w.of (by decide)) ?_ ?_ | refine Only.ite (fun _ => ?_) (fun _ => ?_) | split | intro _

/-! ### Tackroom -/

theorem setTk_only {a0 s} (w : Within 65536 m) (h : Only m r s) : Only m r (setTk a0 s) := by
  unfold setTk
  with_reducible repeat' first
    | (simp only [Only.mk_eq]; refine Only.u_tk (w.of (by decide)) ?_) | assumption

theorem progAt_only {a0 a1 s} (w : Within 65536 m) (h : Only m r s) : Only m r (progAt a0 a1 s) := by
  unfold progAt
  with_reducible repeat' first
    | assumption | refine setTk_only (w.of (by decide)) ?_

theorem setSlot_only {a0 a1 s} (w : Within 32768 m) (h : Only m r s) : Only m r (setSlot a0 a1 s) := by
  unfold setSlot
  with_reducible repeat' first
    | (simp only [Only.mk_eq]; refine Only.u_img (w.of (by decide)) ?_) | assumption

theorem showUnits_only {s} (w : Within 36 m) (h : Only m r s) : Only m r (showUnits s) := by
  unfold showUnits
  with_reducible repeat' first
    | assumption | refine State_putLive_only (w.of (by decide)) ?_ | split

theorem showManifest_only {a0 s} (w : Within 4 m) (h : Only m r s) : Only m r (showManifest a0 s) := by
  unfold showManifest
  with_reducible repeat' first
    | assumption | refine State_put_only (w.of (by decide)) ?_

theorem progUnits_only {a0 a1 s} (w : Within 98340 m) (h : Only m r s) : Only m r (progUnits a0 a1 s) := by
  unfold progUnits
  with_reducible repeat' first
    | assumption | refine Only.foldl ?_ ?_ | refine progAt_only (w.of (by decide)) ?_ | refine setSlot_only (w.of (by decide)) ?_
    | refine showManifest_only (w.of (by decide)) ?_ | refine showUnits_only (w.of (by decide)) ?_ | split | intro _

theorem relaySlot_only {a0 a1 s} (w : Within 98340 m) (h1 : ∀ s, Only m r s → Only m r (a1 s)) (h : Only m r s) : Only m r (relaySlot a0 a1 s) := by
  unfold relaySlot
  with_reducible repeat' first
    | assumption | refine progUnits_only (w.of (by decide)) ?_ | refine setSlot_only (w.of (by decide)) ?_
    | refine setTk_only (w.of (by decide)) ?_ | refine h1 _ ?_

theorem showLogs_only {s} (w : Within 4 m) (h : Only m r s) : Only m r (showLogs s) := by
  unfold showLogs
  with_reducible repeat' first
    | assumption | refine State_put_only (w.of (by decide)) ?_

theorem showHistory_only {s} (w : Within 4 m) (h : Only m r s) : Only m r (showHistory s) := by
  unfold showHistory
  with_reducible repeat' first
    | assumption | refine Only.foldl ?_ ?_ | refine State_put_only (w.of (by decide)) ?_ | intro _

theorem eraseWith_only {a0 a1 s} (w : Within 98340 m) (h : Only m r s) : Only m r (eraseWith a0 a1 s) := by
  unfold eraseWith
  with_reducible repeat' first
    | (simp only [Only.mk_eq]; refine Only.u_tk (w.of (by decide)) ?_) | assumption | refine setSlot_only (w.of (by decide)) ?_
    | refine showHistory_only (w.of (by decide)) ?_ | refine showLogs_only (w.of (by decide)) ?_
    | refine showManifest_only (w.of (by decide)) ?_ | refine showUnits_only (w.of (by decide)) ?_ | split

theorem eraseSec_only {a0 s} (w : Within 98340 m) (h : Only m r s) : Only m r (eraseSec a0 s) := by
  unfold eraseSec
  with_reducible repeat' first
    | assumption | refine eraseWith_only (w.of (by decide)) ?_

theorem tkPush_only {a0 s} (w : Within 65536 m) (h : Only m r s) : Only m r (tkPush a0 s) := by
  unfold tkPush
  with_reducible repeat' first
    | assumption | refine setTk_only (w.of (by decide)) ?_

theorem tkPump_only {s} (w : Within 65536 m) (h : Only m r s) : Only m r (tkPump s) := by
  unfold tkPump
  try dsimp only
  with_reducible repeat' first
    | assumption | refine tkPush_only (w.of (by decide)) ?_ | split

theorem tkAhead_only {s} (w : Within 65536 m) (h : Only m r s) : Only m r (tkAhead s) := by
  unfold tkAhead
  with_reducible repeat' first
    | assumption | refine setTk_only (w.of (by decide)) ?_ | refine Only.ite (fun _ => ?_) (fun _ => ?_) | split

theorem eraseAhead_only {a0 a1 s} (w : Within 65536 m) (h : Only m r s) : Only m r (eraseAhead a0 a1 s) := by
  unfold eraseAhead
  with_reducible repeat' first
    | assumption | refine setTk_only (w.of (by decide)) ?_ | refine Only.ite (fun _ => ?_) (fun _ => ?_)

theorem doneCapture_only {a0 s} (w : Within 33624068 m) (h : Only m r s) : Only m r (doneCapture a0 s) := by
  unfold doneCapture
  with_reducible repeat' first
    | (simp only [Only.mk_eq]; refine Only.u_cap (w.of (by decide)) ?_) | assumption | refine State_event_only (w.of (by decide)) ?_
    | refine State_put_only (w.of (by decide)) ?_ | refine eraseAhead_only (w.of (by decide)) ?_
    | refine progAt_only (w.of (by decide)) ?_ | refine setTk_only (w.of (by decide)) ?_ | refine showLogs_only (w.of (by decide)) ?_
    | split

theorem doneHistory_only {a0 s} (w : Within 73732 m) (h : Only m r s) : Only m r (doneHistory a0 s) := by
  unfold doneHistory
  with_reducible repeat' first
    | (simp only [Only.mk_eq]; refine Only.u_bill (w.of (by decide)) ?_) | assumption | refine Only.foldl ?_ ?_
    | refine State_put_only (w.of (by decide)) ?_ | refine eraseAhead_only (w.of (by decide)) ?_
    | refine letSlots_only (w.of (by decide)) ?_ | refine progAt_only (w.of (by decide)) ?_ | refine setTk_only (w.of (by decide)) ?_
    | refine showHistory_only (w.of (by decide)) ?_ | intro _

theorem eraseKeep_only {a0 s} (w : Within 98340 m) (h : Only m r s) : Only m r (eraseKeep a0 s) := by
  unfold eraseKeep
  with_reducible repeat' first
    | assumption | refine Only.foldl ?_ ?_ | refine eraseWith_only (w.of (by decide)) ?_ | refine tkPush_only (w.of (by decide)) ?_
    | intro _

theorem doneKeep_only {a0 a1 a2 s} (w : Within 65540 m) (h : Only m r s) : Only m r (doneKeep a0 a1 a2 s) := by
  unfold doneKeep
  with_reducible repeat' first
    | assumption | refine State_put_only (w.of (by decide)) ?_ | refine eraseAhead_only (w.of (by decide)) ?_
    | refine progAt_only (w.of (by decide)) ?_ | refine setTk_only (w.of (by decide)) ?_ | refine Only.ite (fun _ => ?_) (fun _ => ?_)

theorem doneProfile_only {a0 a1 s} (w : Within 73732 m) (h : Only m r s) : Only m r (doneProfile a0 a1 s) := by
  unfold doneProfile
  with_reducible repeat' first
    | assumption | refine State_put_only (w.of (by decide)) ?_ | refine drop7_only (w.of (by decide)) ?_
    | refine eraseAhead_only (w.of (by decide)) ?_ | refine profPump_only (w.of (by decide)) ?_ | refine progAt_only (w.of (by decide)) ?_
    | refine setTk_only (w.of (by decide)) ?_ | refine showLogs_only (w.of (by decide)) ?_

theorem doneEvent_only {a0 s} (w : Within 65536 m) (h : Only m r s) : Only m r (doneEvent a0 s) := by
  unfold doneEvent
  with_reducible repeat' first
    | assumption | refine eraseAhead_only (w.of (by decide)) ?_ | refine progAt_only (w.of (by decide)) ?_
    | refine setTk_only (w.of (by decide)) ?_

theorem doneBackup_only {a0 a1 s} (w : Within 33619972 m) (h : Only m r s) : Only m r (doneBackup a0 a1 s) := by
  unfold doneBackup
  with_reducible repeat' first
    | assumption | refine State_event_only (w.of (by decide)) ?_ | refine State_put_only (w.of (by decide)) ?_
    | refine progAt_only (w.of (by decide)) ?_ | refine setTk_only (w.of (by decide)) ?_ | split

theorem doneImage_only {a0 a1 a2 s} (w : Within 360484 m) (h : Only m r s) : Only m r (doneImage a0 a1 a2 s) := by
  unfold doneImage
  with_reducible repeat' first
    | assumption | refine answer_only (w.of (by decide)) ?_ | refine progUnits_only (w.of (by decide)) ?_ | split

theorem setSec_only {a0 a1 s} (w : Within 34359738368 m) (h : Only m r s) : Only m r (setSec a0 a1 s) := by
  unfold setSec
  with_reducible repeat' first
    | (simp only [Only.mk_eq]; refine Only.u_units (w.of (by decide)) ?_) | assumption

theorem shiftSlot_only {a0 a1 s} (w : Within 98340 m) (h1 : ∀ s, Only m r s → Only m r (a1 s)) (h : Only m r s) : Only m r (shiftSlot a0 a1 s) := by
  unfold shiftSlot
  with_reducible repeat' first
    | assumption | refine State_put_only (w.of (by decide)) ?_ | refine relaySlot_only (w.of (by decide)) ?_ ?_ | refine h1 _ ?_ | split

theorem sectorIn_only {a0 s} (w : Within 34359836708 m) (h : Only m r s) : Only m r (sectorIn a0 s) := by
  unfold sectorIn
  with_reducible repeat' first
    | assumption | refine setSec_only (w.of (by decide)) ?_ | refine shiftSlot_only (w.of (by decide)) ?_ ?_
    | refine Only.ite (fun _ => ?_) (fun _ => ?_) | intro _

theorem tkDone_only {a0 s} (w : Within 34393665572 m) (h : Only m r s) : Only m r (tkDone a0 s) := by
  unfold tkDone
  with_reducible repeat' first
    | assumption | refine doneBackup_only (w.of (by decide)) ?_ | refine doneCapture_only (w.of (by decide)) ?_
    | refine doneEvent_only (w.of (by decide)) ?_ | refine doneHistory_only (w.of (by decide)) ?_
    | refine doneImage_only (w.of (by decide)) ?_ | refine doneKeep_only (w.of (by decide)) ?_
    | refine doneProfile_only (w.of (by decide)) ?_ | refine eraseKeep_only (w.of (by decide)) ?_
    | refine sectorIn_only (w.of (by decide)) ?_ | split

theorem retireSec_only {a0 s} (w : Within 34393391140 m) (h : Only m r s) : Only m r (retireSec a0 s) := by
  unfold retireSec
  with_reducible repeat' first
    | assumption | refine State_bump_only (w.of (by decide)) ?_ | refine State_event_only (w.of (by decide)) ?_
    | refine setSec_only (w.of (by decide)) ?_ | refine shiftSlot_only (w.of (by decide)) ?_ ?_ | intro _

theorem secPassed_only {a0 s} (w : Within 34393292804 m) (h : Only m r s) : Only m r (secPassed a0 s) := by
  unfold secPassed
  with_reducible repeat' first
    | assumption | refine Only.foldl ?_ ?_ | refine State_event_only (w.of (by decide)) ?_ | refine setSec_only (w.of (by decide)) ?_
    | refine Only.ite (fun _ => ?_) (fun _ => ?_) | split | intro _

theorem failedSec_only {a0 s} (w : Within 68719476736 m) (h : Only m r s) : Only m r (failedSec a0 s).2 := by
  unfold failedSec
  with_reducible repeat' first
    | assumption | refine State_draw_only' (by assumption) (w.of (by decide)) ?_ | refine Only.ite_snd (fun _ => ?_) (fun _ => ?_) | split

theorem failedSec_only' {a0 s x t} (e : failedSec a0 s = (x, t)) (w : Within 68719476736 m) (h : Only m r s) : Only m r t := by
  have k := failedSec_only (m := m) (r := r) (a0 := a0) (s := s) w h
  rw [e] at k; exact k

theorem loseSec_only {a0 s} (w : Within 98340 m) (h : Only m r s) : Only m r (loseSec a0 s) := by
  unfold loseSec
  with_reducible repeat' first
    | assumption | refine State_bumpBy_only (w.of (by decide)) ?_ | refine eraseSec_only (w.of (by decide)) ?_

theorem secFailed_only {a0 a1 s} (w : Within 103112867876 m) (h : Only m r s) : Only m r (secFailed a0 a1 s) := by
  unfold secFailed
  with_reducible repeat' first
    | assumption | refine State_bump_only (w.of (by decide)) ?_ | refine State_event_only (w.of (by decide)) ?_
    | refine failedSec_only (w.of (by decide)) ?_ | refine loseSec_only (w.of (by decide)) ?_
    | refine retireSec_only (w.of (by decide)) ?_ | refine setSec_only (w.of (by decide)) ?_ | refine setTk_only (w.of (by decide)) ?_
    | refine Only.ite (fun _ => ?_) (fun _ => ?_)

theorem refreshSec_only {a0 s} (w : Within 65536 m) (h : Only m r s) : Only m r (refreshSec a0 s) := by
  unfold refreshSec
  with_reducible repeat' first
    | assumption | refine setTk_only (w.of (by decide)) ?_ | split

theorem dropKeeps_only {s} (w : Within 65540 m) (h : Only m r s) : Only m r (dropKeeps s) := by
  unfold dropKeeps
  with_reducible repeat' first
    | assumption | refine setTk_only (w.of (by decide)) ?_ | refine showHistory_only (w.of (by decide)) ?_
    | refine Only.ite (fun _ => ?_) (fun _ => ?_)

theorem profileCut_only {a0 a1 s} (w : Within 68719542272 m) (h : Only m r s) : Only m r (profileCut a0 a1 s) := by
  unfold profileCut
  with_reducible repeat' first
    | assumption | refine State_draw_only (w.of (by decide)) ?_ | refine progAt_only (w.of (by decide)) ?_
    | refine setTk_only (w.of (by decide)) ?_ | refine Only.ite (fun _ => ?_) (fun _ => ?_)

theorem refreshCut_only {s} (w : Within 68719575076 m) (h : Only m r s) : Only m r (refreshCut s) := by
  unfold refreshCut
  try dsimp only
  with_reducible repeat' first
    | assumption | refine dropKeeps_only (w.of (by decide)) ?_ | refine loseSec_only (w.of (by decide)) ?_
    | refine profileCut_only (w.of (by decide)) ?_ | refine tkAhead_only (w.of (by decide)) ?_ | refine tkPump_only (w.of (by decide)) ?_
    | split

theorem execTackroomOpComplete_only {a0 s t} (e : execTackroomOpComplete a0 s = .next t) (w : Within 103113142308 m) (h : Only m r s) : Only m r t := by
  unfold execTackroomOpComplete at e
  try dsimp only at e
  injection e with e
  subst e
  with_reducible repeat' first
    | assumption | refine secFailed_only (w.of (by decide)) ?_ | refine secPassed_only (w.of (by decide)) ?_
    | refine setTk_only (w.of (by decide)) ?_ | refine tkAhead_only (w.of (by decide)) ?_ | refine tkDone_only (w.of (by decide)) ?_
    | refine tkPump_only (w.of (by decide)) ?_ | split

/-! ### Flags -/

theorem setSpi_only {a0 s} (w : Within 524288 m) (h : Only m r s) : Only m r (setSpi a0 s) := by
  unfold setSpi
  with_reducible repeat' first
    | (simp only [Only.mk_eq]; refine Only.u_spi (w.of (by decide)) ?_) | assumption

theorem setCause_only {a0 s} (w : Within 524288 m) (h : Only m r s) : Only m r (setCause a0 s) := by
  unfold setCause
  with_reducible repeat' first
    | assumption | refine setSpi_only (w.of (by decide)) ?_

theorem legacyEvent_only {a0 s} (w : Within 524288 m) (h : Only m r s) : Only m r (legacyEvent a0 s) := by
  unfold legacyEvent
  with_reducible repeat' first
    | assumption | refine setCause_only (w.of (by decide)) ?_ | refine setSpi_only (w.of (by decide)) ?_
    | refine Only.ite (fun _ => ?_) (fun _ => ?_)

/-! ### PlcBase -/

theorem setPlc_only {a0 s} (w : Within 2097152 m) (h : Only m r s) : Only m r (setPlc a0 s) := by
  unfold setPlc
  with_reducible repeat' first
    | (simp only [Only.mk_eq]; refine Only.u_plc (w.of (by decide)) ?_) | assumption

theorem showNbr_only {a0 s} (w : Within 36 m) (h : Only m r s) : Only m r (showNbr a0 s) := by
  unfold showNbr
  with_reducible repeat' first
    | assumption | refine State_putLive_only (w.of (by decide)) ?_ | split

theorem costTick_only {s} (w : Within 36 m) (h : Only m r s) : Only m r (costTick s) := by
  unfold costTick
  with_reducible repeat' first
    | assumption | refine Only.foldl ?_ ?_ | refine State_putLive_only (w.of (by decide)) ?_ | split | intro _

theorem setNbr_only {a0 a1 s} (w : Within 2097188 m) (h : Only m r s) : Only m r (setNbr a0 a1 s) := by
  unfold setNbr
  with_reducible repeat' first
    | assumption | refine setPlc_only (w.of (by decide)) ?_ | refine showNbr_only (w.of (by decide)) ?_

theorem showRoute_only {a0 s} (w : Within 36 m) (h : Only m r s) : Only m r (showRoute a0 s) := by
  unfold showRoute
  with_reducible repeat' first
    | assumption | refine State_putLive_only (w.of (by decide)) ?_ | split

theorem setRoute_only {a0 a1 s} (w : Within 2097188 m) (h : Only m r s) : Only m r (setRoute a0 a1 s) := by
  unfold setRoute
  with_reducible repeat' first
    | assumption | refine setPlc_only (w.of (by decide)) ?_ | refine showRoute_only (w.of (by decide)) ?_

theorem offerTick_only {s} (w : Within 2097152 m) (h : Only m r s) : Only m r (offerTick s) := by
  unfold offerTick
  with_reducible repeat' first
    | assumption | refine setPlc_only (w.of (by decide)) ?_ | split

theorem routeTick_only {s} (w : Within 2097188 m) (h : Only m r s) : Only m r (routeTick s) := by
  unfold routeTick
  with_reducible repeat' first
    | assumption | refine Only.foldl ?_ ?_ | refine State_putLive_only (w.of (by decide)) ?_ | refine setRoute_only (w.of (by decide)) ?_
    | split | intro _

/-! ### Acquire -/

theorem inputEntry_only {a0 a1 a2 a3 a4 a5 s} (w : Within 548 m) (h : Only m r s) : Only m r (inputEntry a0 a1 a2 a3 a4 a5 s).2 := by
  unfold inputEntry
  with_reducible repeat' first
    | (simp only [Only.mk_eq]; refine Only.u_acq (w.of (by decide)) ?_) | assumption | refine State_putLive_only (w.of (by decide)) ?_
    | refine rangeSee_only (w.of (by decide)) ?_ | refine Only.ite_snd (fun _ => ?_) (fun _ => ?_)

theorem inputEntry_only' {a0 a1 a2 a3 a4 a5 s x t} (e : inputEntry a0 a1 a2 a3 a4 a5 s = (x, t)) (w : Within 548 m) (h : Only m r s) : Only m r t := by
  have k := inputEntry_only (m := m) (r := r) (a0 := a0) (a1 := a1) (a2 := a2) (a3 := a3) (a4 := a4) (a5 := a5) (s := s) w h
  rw [e] at k; exact k

theorem runEntry_only {a0 a1 a2 a3 a4 a5 s} (w : Within 548 m) (h : Only m r s) : Only m r (runEntry a0 a1 a2 a3 a4 a5 s).2 := by
  unfold runEntry
  with_reducible repeat' first
    | assumption | refine State_bump_only (w.of (by decide)) ?_ | refine inputEntry_only' (by assumption) (w.of (by decide)) ?_
    | refine Only.ite_snd (fun _ => ?_) (fun _ => ?_) | split

theorem runEntry_only' {a0 a1 a2 a3 a4 a5 s x t} (e : runEntry a0 a1 a2 a3 a4 a5 s = (x, t)) (w : Within 548 m) (h : Only m r s) : Only m r t := by
  have k := runEntry_only (m := m) (r := r) (a0 := a0) (a1 := a1) (a2 := a2) (a3 := a3) (a4 := a4) (a5 := a5) (s := s) w h
  rw [e] at k; exact k

theorem runEntries_only {a0 a1 a2 a3 a4 a5 s} (w : Within 548 m) (h : Only m r s) : Only m r (runEntries a0 a1 a2 a3 a4 a5 s).2 := by
  induction a4 generalizing s a5 with
  | nil => exact h
  | cons _ l ih =>
    have ih' : ∀ {x t u b5}, runEntries a0 a1 a2 a3 l b5 u = (x, t) → Only m r u → Only m r t := fun {x t u b5} e h => by
      have k : Only m r (runEntries a0 a1 a2 a3 l b5 u).2 := ih h; rw [e] at k; exact k
    unfold runEntries
    with_reducible repeat' first
      | refine ih ?_ | assumption | refine runEntry_only (w.of (by decide)) ?_

theorem runEntries_only' {a0 a1 a2 a3 a4 a5 s x t} (e : runEntries a0 a1 a2 a3 a4 a5 s = (x, t)) (w : Within 548 m) (h : Only m r s) : Only m r t := by
  have k := runEntries_only (m := m) (r := r) (a0 := a0) (a1 := a1) (a2 := a2) (a3 := a3) (a4 := a4) (a5 := a5) (s := s) w h
  rw [e] at k; exact k

theorem frameLost_only {a0 s} (w : Within 33554948 m) (h : Only m r s) : Only m r (frameLost a0 s) := by
  unfold frameLost
  with_reducible repeat' first
    | (simp only [Only.mk_eq]; refine Only.u_acq (w.of (by decide)) ?_) | assumption | refine State_bump_only (w.of (by decide)) ?_
    | refine State_event_only (w.of (by decide)) ?_ | split

theorem lanePass_only {a0 a1 a2 a3 s} (w : Within 33554980 m) (h : Only m r s) : Only m r (lanePass a0 a1 a2 a3 s) := by
  unfold lanePass
  with_reducible repeat' first
    | (simp only [Only.mk_eq]; refine Only.u_acq (w.of (by decide)) ?_) | assumption | refine State_putLive_only (w.of (by decide)) ?_
    | refine frameLost_only (w.of (by decide)) ?_ | refine runEntries_only (w.of (by decide)) ?_
    | refine Only.ite (fun _ => ?_) (fun _ => ?_)

theorem lanePasses_only {a0 a1 a2 a3 s} (w : Within 33554980 m) (h : Only m r s) : Only m r (lanePasses a0 a1 a2 a3 s) := by
  induction a3 generalizing s with
  | nil => exact h
  | cons _ _ ih =>
    unfold lanePasses
    with_reducible repeat' first
      | refine ih ?_ | assumption | refine lanePass_only (w.of (by decide)) ?_

theorem voltEmit_only {a0 a1 a2 a3 s} (w : Within 33554948 m) (h : Only m r s) : Only m r (voltEmit a0 a1 a2 a3 s) := by
  unfold voltEmit
  with_reducible repeat' first
    | (simp only [Only.mk_eq]; refine Only.u_acq (w.of (by decide)) ?_) | assumption | refine frameLost_only (w.of (by decide)) ?_ | split

theorem voltEmits_only {a0 a1 a2 a3 s} (w : Within 33554948 m) (h : Only m r s) : Only m r (voltEmits a0 a1 a2 a3 s) := by
  induction a3 generalizing s with
  | nil => exact h
  | cons _ _ ih =>
    unfold voltEmits
    with_reducible repeat' first
      | refine ih ?_ | assumption | refine voltEmit_only (w.of (by decide)) ?_

theorem openTest_only {a0 a1 a2 s} (w : Within 580 m) (h : Only m r s) : Only m r (openTest a0 a1 a2 s) := by
  unfold openTest
  with_reducible repeat' first
    | (simp only [Only.mk_eq]; refine Only.u_acq (w.of (by decide)) ?_) | assumption | refine State_bump_only (w.of (by decide)) ?_
    | refine State_putDueI_only (w.of (by decide)) ?_ | split

theorem openTests_only {a0 a1 a2 s} (w : Within 580 m) (h : Only m r s) : Only m r (openTests a0 a1 a2 s) := by
  induction a2 generalizing s with
  | nil => exact h
  | cons _ _ ih =>
    unfold openTests
    with_reducible repeat' first
      | refine ih ?_ | assumption | refine openTest_only (w.of (by decide)) ?_ | split

theorem execSamplePeriod_only {a0 a1 s t} (e : execSamplePeriod a0 a1 s = .next t) (w : Within 33556068 m) (h : Only m r s) : Only m r t := by
  unfold execSamplePeriod at e
  injection e with e
  subst e
  with_reducible repeat' first
    | (simp only [Only.mk_eq]; refine Only.u_acq (w.of (by decide)) ?_) | assumption | refine lanePasses_only (w.of (by decide)) ?_
    | refine latchAll_only (w.of (by decide)) ?_ | refine openTests_only (w.of (by decide)) ?_
    | refine takeoversDue_only (w.of (by decide)) ?_ | refine voltEmits_only (w.of (by decide)) ?_ | split

/-! ### Spectrum -/

theorem fundEnergy_only {a0 a1 a2 a3 s} (w : Within 68 m) (h : Only m r s) : Only m r (fundEnergy a0 a1 a2 a3 s) := by
  unfold fundEnergy
  with_reducible repeat' first
    | assumption | refine putTotal_only (w.of (by decide)) ?_

theorem publishPower_only {a0 a1 a2 s} (w : Within 2116 m) (h : Only m r s) : Only m r (publishPower a0 a1 a2 s) := by
  unfold publishPower
  with_reducible repeat' first
    | (simp only [Only.mk_eq]; refine Only.u_tan (w.of (by decide)) ?_) | assumption | refine Only.foldl ?_ ?_
    | refine State_putDue_only (w.of (by decide)) ?_ | refine State_putDueI_only (w.of (by decide)) ?_
    | refine Only.ite (fun _ => ?_) (fun _ => ?_) | intro _

theorem cctHarmonics_only {a0 a1 a2 s} (w : Within 2116 m) (h : Only m r s) : Only m r (cctHarmonics a0 a1 a2 s) := by
  unfold cctHarmonics
  with_reducible repeat' first
    | assumption | refine fundEnergy_only (w.of (by decide)) ?_ | refine publishPower_only (w.of (by decide)) ?_
    | refine setCwin_only (w.of (by decide)) ?_ | refine Only.ite (fun _ => ?_) (fun _ => ?_)

theorem formPowers_only {s} (w : Within 2116 m) (h : Only m r s) : Only m r (formPowers s) := by
  unfold formPowers
  with_reducible repeat' first
    | assumption | refine Only.foldl ?_ ?_ | refine cctHarmonics_only (w.of (by decide)) ?_ | refine setCwin_only (w.of (by decide)) ?_
    | split | intro _

theorem noteClosed_only {a0 a1 a2 s} (w : Within 2048 m) (h : Only m r s) : Only m r (noteClosed a0 a1 a2 s) := by
  unfold noteClosed
  with_reducible repeat' first
    | assumption | refine Only.foldl ?_ ?_ | refine setCwin_only (w.of (by decide)) ?_ | split | intro _

theorem closeWindow_only {a0 a1 a2 s} (w : Within 2116 m) (h : Only m r s) : Only m r (closeWindow a0 a1 a2 s) := by
  unfold closeWindow
  with_reducible repeat' first
    | (simp only [Only.mk_eq]; refine Only.u_tan (w.of (by decide)) ?_) | assumption | refine formPowers_only (w.of (by decide)) ?_
    | refine noteClosed_only (w.of (by decide)) ?_

theorem execHarmonicWindowClose_only {a0 s t} (e : execHarmonicWindowClose a0 s = .next t) (w : Within 2116 m) (h : Only m r s) : Only m r t := by
  unfold execHarmonicWindowClose at e
  injection e with e
  subst e
  with_reducible repeat' first
    | (simp only [Only.mk_eq]; refine Only.u_tan (w.of (by decide)) ?_) | assumption | refine State_bump_only (w.of (by decide)) ?_
    | refine closeWindow_only (w.of (by decide)) ?_ | refine formPowers_only (w.of (by decide)) ?_ | split

end Sys2Proof.Machine
end

