-- ==== Sys2Proof/Laws/OnlyFrame.lean ====
section
/-! SUPPORT. Which parts the operations of these files change: Frame, Methods, EventLog, Twin, Store. -/

namespace Sys2Proof.Machine

variable {m : Nat} {r : State}

/-! ### Frame -/

theorem showSlot_only {a0 s} (w : Within 36 m) (h : Only m r s) : Only m r (showSlot a0 s) := by
  unfold showSlot
  with_reducible repeat' first
    | assumption | refine State_putLive_only (w.of (by decide)) ?_ | split

theorem showServer_only {s} (w : Within 36 m) (h : Only m r s) : Only m r (showServer s) := by
  unfold showServer
  with_reducible repeat' first
    | assumption | refine Only.foldl ?_ ?_ | refine State_putLive_only (w.of (by decide)) ?_ | refine showSlot_only (w.of (by decide)) ?_
    | intro _

theorem showLease_only {s} (w : Within 36 m) (h : Only m r s) : Only m r (showLease s) := by
  unfold showLease
  with_reducible repeat' first
    | assumption | refine State_putLive_only (w.of (by decide)) ?_ | split

theorem noteTime_only {s} (w : Within 52 m) (h : Only m r s) : Only m r (noteTime s) := by
  unfold noteTime
  with_reducible repeat' first
    | (simp only [Only.mk_eq]; refine Only.u_times (w.of (by decide)) ?_) | assumption | refine State_put_only (w.of (by decide)) ?_
    | refine State_putLive_only (w.of (by decide)) ?_

theorem tickTime_only {s} (w : Within 8388660 m) (h : Only m r s) : Only m r (tickTime s) := by
  unfold tickTime
  with_reducible repeat' first
    | (simp only [Only.mk_eq]; refine Only.u_dev (w.of (by decide)) ?_) | assumption | refine State_put_only (w.of (by decide)) ?_
    | refine State_putLive_only (w.of (by decide)) ?_ | refine noteTime_only (w.of (by decide)) ?_
    | refine Only.ite (fun _ => ?_) (fun _ => ?_) | split

theorem calSample_only {a0 s} (w : Within 8388644 m) (h : Only m r s) : Only m r (calSample a0 s) := by
  unfold calSample
  with_reducible repeat' first
    | (simp only [Only.mk_eq]; refine Only.u_dev (w.of (by decide)) ?_) | assumption | refine State_putLive_only (w.of (by decide)) ?_

theorem releaseHold_only {s} (w : Within 140 m) (h : Only m r s) : Only m r (releaseHold s) := by
  unfold releaseHold
  with_reducible repeat' first
    | (simp only [Only.mk_eq]; refine Only.u_commits (w.of (by decide)) ?_) | assumption | refine State_putV_only (w.of (by decide)) ?_
    | split

theorem execCalStateChange_only {s t} (e : execCalStateChange s = .next t) (w : Within 34087084 m) (h : Only m r s) : Only m r t := by
  unfold execCalStateChange at e
  injection e with e
  subst e
  with_reducible repeat' first
    | assumption | refine State_bump_only (w.of (by decide)) ?_ | refine State_event_only (w.of (by decide)) ?_
    | refine State_put_only (w.of (by decide)) ?_ | refine State_putLive_only (w.of (by decide)) ?_
    | refine raiseStale_only (w.of (by decide)) ?_ | refine releaseHold_only (w.of (by decide)) ?_
    | refine setCause_only (w.of (by decide)) ?_ | refine Only.ite (fun _ => ?_) (fun _ => ?_)

theorem coefStep_only {a0 s} (w : Within 36 m) (h : Only m r s) : Only m r (coefStep a0 s) := by
  unfold coefStep
  with_reducible repeat' first
    | assumption | refine State_putLive_only (w.of (by decide)) ?_ | split

theorem coefFrame_only {s} (w : Within 1060 m) (h : Only m r s) : Only m r (coefFrame s) := by
  unfold coefFrame
  with_reducible repeat' first
    | (simp only [Only.mk_eq]; refine Only.u_aln (w.of (by decide)) ?_) | assumption | refine Only.foldl ?_ ?_
    | refine State_putLive_only (w.of (by decide)) ?_ | refine coefStep_only (w.of (by decide)) ?_
    | refine Only.ite (fun _ => ?_) (fun _ => ?_) | intro _

theorem markWindows_only {a0 s} (w : Within 201326596 m) (h : Only m r s) : Only m r (markWindows a0 s) := by
  unfold markWindows
  with_reducible repeat' first
    | (simp only [Only.mk_eq]; refine Only.u_staging_sealed (w.of (by decide)) ?_) | assumption | refine Only.foldl ?_ ?_
    | refine State_putBoth_only (w.of (by decide)) ?_ | split | intro _

theorem lateHealth_only {a0 s} (w : Within 32768 m) (h : Only m r s) : Only m r (lateHealth a0 s) := by
  unfold lateHealth
  with_reducible repeat' first
    | (simp only [Only.mk_eq]; refine Only.u_img (w.of (by decide)) ?_) | assumption | split

theorem publishOne_only {a0 s} (w : Within 1006667780 m) (h : Only m r s) : Only m r (publishOne a0 s) := by
  unfold publishOne
  with_reducible repeat' first
    | (simp only [Only.mk_eq]; refine Only.u_tan_current_previous (w.of (by decide)) ?_) | assumption
    | refine State_bump_only (w.of (by decide)) ?_ | refine lateHealth_only (w.of (by decide)) ?_
    | refine markWindows_only (w.of (by decide)) ?_ | split

theorem push13_only {a0 s} (w : Within 262180 m) (h : Only m r s) : Only m r (push13 a0 s) := by
  unfold push13
  with_reducible repeat' first
    | assumption | refine State_bump_only (w.of (by decide)) ?_ | refine State_bumpLive_only (w.of (by decide)) ?_
    | refine setSrv_only (w.of (by decide)) ?_ | split

theorem setSub_only {a0 s} (w : Within 262144 m) (h : Only m r s) : Only m r (setSub a0 s) := by
  unfold setSub
  with_reducible repeat' first
    | assumption | refine setSrv_only (w.of (by decide)) ?_

theorem subEval_only {a0 a1 s} (w : Within 262180 m) (h : Only m r s) : Only m r (subEval a0 a1 s) := by
  unfold subEval
  with_reducible repeat' first
    | assumption | refine push13_only (w.of (by decide)) ?_ | refine setSub_only (w.of (by decide)) ?_
    | refine Only.ite (fun _ => ?_) (fun _ => ?_)

theorem subsEval_only {a0 s} (w : Within 262180 m) (h : Only m r s) : Only m r (subsEval a0 s) := by
  unfold subsEval
  with_reducible repeat' first
    | assumption | refine Only.foldl ?_ ?_ | refine subEval_only (w.of (by decide)) ?_ | split | intro _

theorem endOfFrame_only {s} (w : Within 35652196 m) (h : Only m r s) : Only m r (endOfFrame s) := by
  unfold endOfFrame
  try dsimp only
  with_reducible repeat' first
    | assumption | refine State_endFrame_only (w.of (by decide)) ?_ | refine costTick_only (w.of (by decide)) ?_
    | refine frameLost_only (w.of (by decide)) ?_ | refine offerTick_only (w.of (by decide)) ?_
    | refine routeTick_only (w.of (by decide)) ?_ | refine showLease_only (w.of (by decide)) ?_
    | refine showServer_only (w.of (by decide)) ?_ | split

theorem applyVput_only {s} (w : Within 262148 m) (h : Only m r s) : Only m r (applyVput s) := by
  unfold applyVput
  with_reducible repeat' first
    | assumption | refine State_puts_only (w.of (by decide)) ?_ | refine setSrv_only (w.of (by decide)) ?_

theorem publish_only {s} (w : Within 1006946468 m) (h : Only m r s) : Only m r (publish s) := by
  unfold publish
  try dsimp only
  with_reducible repeat' first
    | (simp only [Only.mk_eq]; refine Only.u_sealed (w.of (by decide)) ?_) | assumption | refine Only.foldl ?_ ?_
    | refine publishOne_only (w.of (by decide)) ?_ | refine subsEval_only (w.of (by decide)) ?_
    | refine trainFrame_only (w.of (by decide)) ?_ | split | intro _

theorem nextFrame_only {s} (w : Within 513 m) (h : Only m r s) : Only m r (nextFrame s) := by
  unfold nextFrame
  with_reducible repeat' first
    | (simp only [Only.mk_eq]; refine Only.u_acq (w.of (by decide)) ?_) | assumption | refine State_setFn_only (w.of (by decide)) ?_

theorem noneLost_only {s} (w : Within 512 m) (h : Only m r s) : Only m r (noneLost s) := by
  unfold noneLost
  with_reducible repeat' first
    | (simp only [Only.mk_eq]; refine Only.u_acq (w.of (by decide)) ?_) | assumption

theorem execFrameTick_only {a0 s t} (e : execFrameTick a0 s = .next t) (w : Within 11788545781 m) (h : Only m r s) : Only m r t := by
  unfold execFrameTick at e
  injection e with e
  subst e
  with_reducible repeat' first
    | assumption | refine Only.foldl ?_ ?_ | refine State_applyDue_only (w.of (by decide)) ?_
    | refine State_endFrame_only (w.of (by decide)) ?_ | refine State_put_only (w.of (by decide)) ?_
    | refine applyVput_only (w.of (by decide)) ?_ | refine calSample_only (w.of (by decide)) ?_
    | refine coefFrame_only (w.of (by decide)) ?_ | refine endOfFrame_only (w.of (by decide)) ?_
    | refine nextFrame_only (w.of (by decide)) ?_ | refine noneLost_only (w.of (by decide)) ?_ | refine publish_only (w.of (by decide)) ?_
    | refine showLease_only (w.of (by decide)) ?_ | refine showPending_only (w.of (by decide)) ?_
    | refine storeLegal_only (w.of (by decide)) ?_ | refine tickTime_only (w.of (by decide)) ?_ | split | intro _

theorem execPublisherSeal_only {s t} (e : execPublisherSeal s = .next t) (w : Within 201326596 m) (h : Only m r s) : Only m r t := by
  unfold execPublisherSeal at e
  injection e with e
  subst e
  with_reducible repeat' first
    | (simp only [Only.mk_eq]; refine Only.u_staging_sealed (w.of (by decide)) ?_) | assumption | refine Only.foldl ?_ ?_
    | refine State_put_only (w.of (by decide)) ?_ | split | intro _

/-! ### Methods -/

theorem runMethods_only {a0 a1 a2 a3 s} (w : Within 262144 m) (h3 : ∀ x0 x1 s, Only m r s → Only m r (a3 x0 x1 s)) (h : Only m r s) : Only m r (runMethods a0 a1 a2 a3 s) := by
  unfold runMethods
  with_reducible repeat' first
    | assumption | refine answer_only (w.of (by decide)) ?_ | refine runOp_only (w.of (by decide)) ?_ ?_ | refine h3 _ _ _ ?_
    | refine Only.ite (fun _ => ?_) (fun _ => ?_) | intro _

theorem runMethod_only {a0 a1 a2 a3 s} (w : Within 262144 m) (h3 : ∀ x0 x1 s, Only m r s → Only m r (a3 x0 x1 s)) (h : Only m r s) : Only m r (runMethod a0 a1 a2 a3 s) := by
  unfold runMethod
  with_reducible repeat' first
    | assumption | refine runMethods_only (w.of (by decide)) ?_ ?_

theorem legalNote_only {a0 a1 a2 a3 a4 a5 s} (w : Within 33554436 m) (h : Only m r s) : Only m r (legalNote a0 a1 a2 a3 a4 a5 s) := by
  unfold legalNote
  with_reducible repeat' first
    | assumption | refine State_bump_only (w.of (by decide)) ?_ | refine State_event_only (w.of (by decide)) ?_

theorem acceptTime_only {a0 a1 a2 s} (w : Within 41943172 m) (h : Only m r s) : Only m r (acceptTime a0 a1 a2 s).2.2 := by
  unfold acceptTime
  with_reducible repeat' first
    | (simp only [Only.mk_eq]; refine Only.u_dev (w.of (by decide)) ?_) | assumption | refine State_event_only (w.of (by decide)) ?_
    | refine State_put_only (w.of (by decide)) ?_ | refine State_putV_only (w.of (by decide)) ?_
    | refine Only.ite (fun _ => ?_) (fun _ => ?_)

theorem execTimeSet_only {a0 s t} (e : execTimeSet a0 s = .next t) (w : Within 42205316 m) (h : Only m r s) : Only m r t := by
  unfold execTimeSet at e
  injection e with e
  subst e
  with_reducible repeat' first
    | assumption | refine acceptTime_only (w.of (by decide)) ?_ | refine answer_only (w.of (by decide)) ?_
    | refine legalNote_only (w.of (by decide)) ?_ | refine runMethod_only (w.of (by decide)) ?_ ?_
    | refine Only.ite (fun _ => ?_) (fun _ => ?_) | intro _

theorem execClockStepApply_only {s t} (e : execClockStepApply s = .next t) (w : Within 8396852 m) (h : Only m r s) : Only m r t := by
  unfold execClockStepApply at e
  injection e with e
  subst e
  with_reducible repeat' first
    | (simp only [Only.mk_eq]; refine Only.u_times_bill_dev (w.of (by decide)) ?_) | assumption
    | refine State_put_only (w.of (by decide)) ?_ | refine State_putLive_only (w.of (by decide)) ?_
    | refine noteTime_only (w.of (by decide)) ?_ | split

theorem execCaptureNow_only {a0 s t} (e : execCaptureNow a0 s = .next t) (w : Within 266244 m) (h : Only m r s) : Only m r t := by
  unfold execCaptureNow at e
  injection e with e
  subst e
  with_reducible repeat' first
    | (simp only [Only.mk_eq]; refine Only.u_cap (w.of (by decide)) ?_) | assumption | refine State_bump_only (w.of (by decide)) ?_
    | refine answer_only (w.of (by decide)) ?_ | refine runMethod_only (w.of (by decide)) ?_ ?_ | split | intro _

theorem execCloseNow_only {a0 s t} (e : execCloseNow a0 s = .next t) (w : Within 33824772 m) (h : Only m r s) : Only m r t := by
  unfold execCloseNow at e
  injection e with e
  subst e
  with_reducible repeat' first
    | (simp only [Only.mk_eq]; refine Only.u_bill (w.of (by decide)) ?_) | assumption | refine answer_only (w.of (by decide)) ?_
    | refine legalNote_only (w.of (by decide)) ?_ | refine runMethods_only (w.of (by decide)) ?_ ?_
    | refine Only.ite (fun _ => ?_) (fun _ => ?_) | intro _

/-! ### EventLog -/

theorem logEvent_only {a0 s} (w : Within 65540 m) (h : Only m r s) : Only m r (logEvent a0 s) := by
  unfold logEvent
  with_reducible repeat' first
    | assumption | refine State_put_only (w.of (by decide)) ?_ | refine setTk_only (w.of (by decide)) ?_
    | refine showLogs_only (w.of (by decide)) ?_ | refine tkPush_only (w.of (by decide)) ?_

theorem numberEvent_only {a0 s} (w : Within 65540 m) (h : Only m r s) : Only m r (numberEvent a0 s) := by
  unfold numberEvent
  with_reducible repeat' first
    | assumption | refine State_bump_only (w.of (by decide)) ?_ | refine logEvent_only (w.of (by decide)) ?_ | split

theorem eventFlags_only {a0 s} (w : Within 524288 m) (h : Only m r s) : Only m r (eventFlags a0 s) := by
  unfold eventFlags
  with_reducible repeat' first
    | assumption | refine legacyEvent_only (w.of (by decide)) ?_ | refine setCause_only (w.of (by decide)) ?_ | split

theorem drop5_only {s} (w : Within 33554432 m) (h : Only m r s) : Only m r (drop5 s) := by
  unfold drop5
  with_reducible repeat' first
    | (simp only [Only.mk_eq]; refine Only.u_ring5 (w.of (by decide)) ?_) | assumption

theorem execEventLogWrite_only {s t} (e : execEventLogWrite s = .next t) (w : Within 34144260 m) (h : Only m r s) : Only m r t := by
  unfold execEventLogWrite at e
  injection e with e
  subst e
  with_reducible repeat' first
    | assumption | refine drop5_only (w.of (by decide)) ?_ | refine eventFlags_only (w.of (by decide)) ?_
    | refine numberEvent_only (w.of (by decide)) ?_ | split

theorem execEventRead_only {a0 s t} (e : execEventRead a0 s = .next t) (w : Within 262144 m) (h : Only m r s) : Only m r t := by
  unfold execEventRead at e
  injection e with e
  subst e
  with_reducible repeat' first
    | assumption | refine answer_only (w.of (by decide)) ?_ | refine runMethod_only (w.of (by decide)) ?_ ?_
    | refine Only.ite (fun _ => ?_) (fun _ => ?_) | intro _

theorem execTkRead_only {a0 s t} (e : execTkRead a0 s = .next t) (w : Within 262144 m) (h : Only m r s) : Only m r t := by
  unfold execTkRead at e
  injection e with e
  subst e
  with_reducible repeat' first
    | assumption | refine answer_only (w.of (by decide)) ?_ | refine runMethod_only (w.of (by decide)) ?_ ?_
    | refine Only.ite (fun _ => ?_) (fun _ => ?_) | intro _

/-! ### Twin -/

theorem loadRaw_only {a0 a1 s} (w : Within 4 m) (h : Only m r s) : Only m r (loadRaw a0 a1 s) := by
  unfold loadRaw
  with_reducible repeat' first
    | assumption | refine Only.foldl ?_ ?_ | refine State_put_only (w.of (by decide)) ?_ | split | intro _

theorem showTwin_only {a0 s} (w : Within 132 m) (h : Only m r s) : Only m r (showTwin a0 s) := by
  unfold showTwin
  try dsimp only
  with_reducible repeat' first
    | assumption | refine State_putV_only (w.of (by decide)) ?_ | split

theorem judgeTwin_only {a0 s} (w : Within 33554564 m) (h : Only m r s) : Only m r (judgeTwin a0 s) := by
  unfold judgeTwin
  with_reducible repeat' first
    | assumption | refine State_event_only (w.of (by decide)) ?_ | refine showTwin_only (w.of (by decide)) ?_
    | refine Only.ite (fun _ => ?_) (fun _ => ?_)

theorem noteServed_only {a0 s} (w : Within 131072 m) (h : Only m r s) : Only m r (noteServed a0 s) := by
  unfold noteServed
  with_reducible repeat' first
    | (simp only [Only.mk_eq]; refine Only.u_pwr (w.of (by decide)) ?_) | assumption

theorem reapply_only {a0 : List (Nat × Nat)} {a1 s} (w : Within 4 m) (_ : Only m r a1) (h : Only m r s) : Only m r (reapply a0 a1 s) := by
  unfold reapply
  exact Only.foldl (fun _ _ k => Only.ite (fun _ => k) (fun _ => State_put_only (w.of (by decide)) k)) h

theorem loadCopy_only {a0 a1 s} (w : Within 4 m) (h : Only m r s) : Only m r (loadCopy a0 a1 s) := by
  unfold loadCopy
  try dsimp only
  with_reducible repeat' first
    | assumption | refine Only.foldl ?_ ?_ | refine State_put_only (w.of (by decide)) ?_ | refine loadRaw_only (w.of (by decide)) ?_
    | split | intro _

theorem judgeLegal_only {a0 s} (w : Within 33685636 m) (h : Only m r s) : Only m r (judgeLegal a0 s) := by
  unfold judgeLegal
  with_reducible repeat' first
    | assumption | refine Only.foldl ?_ ?_ | refine State_event_only (w.of (by decide)) ?_ | refine State_put_only (w.of (by decide)) ?_
    | refine State_putV_only (w.of (by decide)) ?_ | refine loadCopy_only (w.of (by decide)) ?_
    | refine noteServed_only (w.of (by decide)) ?_ | refine Only.ite (fun _ => ?_) (fun _ => ?_) | split | intro _

theorem judgeTwins_only {a0 s} (w : Within 33554564 m) (h : Only m r s) : Only m r (judgeTwins a0 s) := by
  unfold judgeTwins
  with_reducible repeat' first
    | assumption | refine Only.foldl ?_ ?_ | refine judgeTwin_only (w.of (by decide)) ?_ | refine showTwin_only (w.of (by decide)) ?_
    | split | intro _

theorem rawObjects_only {a0 a1 s} (w : Within 4 m) (h : Only m r s) : Only m r (rawObjects a0 a1 s) := by
  unfold rawObjects
  with_reducible repeat' first
    | assumption | refine loadRaw_only (w.of (by decide)) ?_ | refine Only.ite (fun _ => ?_) (fun _ => ?_)

theorem setRaw_only {a0 a1 s} (w : Within 8589934596 m) (h : Only m r s) : Only m r (setRaw a0 a1 s) := by
  unfold setRaw
  with_reducible repeat' first
    | assumption | refine modPage_only (w.of (by decide)) ?_ | refine rawObjects_only (w.of (by decide)) ?_

theorem execTwinWrite_only {a0 s t} (e : execTwinWrite a0 s = .next t) (w : Within 10737688576 m) (h : Only m r s) : Only m r t := by
  unfold execTwinWrite at e
  injection e with e
  subst e
  with_reducible repeat' first
    | assumption | refine answer_only (w.of (by decide)) ?_ | refine holdTag_only (w.of (by decide)) ?_
    | refine postWrite_only (w.of (by decide)) ?_ | refine runMethod_only (w.of (by decide)) ?_ ?_
    | refine Only.ite (fun _ => ?_) (fun _ => ?_) | split | intro _

theorem execResolve_only {a0 s t} (e : execResolve a0 s = .next t) (w : Within 10737688576 m) (h : Only m r s) : Only m r t := by
  unfold execResolve at e
  injection e with e
  subst e
  with_reducible repeat' first
    | assumption | refine answer_only (w.of (by decide)) ?_ | refine postCommit_only (w.of (by decide)) ?_
    | refine runMethod_only (w.of (by decide)) ?_ ?_ | refine waitTurn_only (w.of (by decide)) ?_
    | refine Only.ite (fun _ => ?_) (fun _ => ?_) | intro _

theorem resolveLegal_only {a0 a1 s} (w : Within 10737557508 m) (h : Only m r s) : Only m r (resolveLegal a0 a1 s) := by
  unfold resolveLegal
  with_reducible repeat' first
    | (simp only [Only.mk_eq]; refine Only.u_pwr (w.of (by decide)) ?_) | assumption | refine Only.foldl ?_ ?_
    | refine loadCopy_only (w.of (by decide)) ?_ | refine modPage_only (w.of (by decide)) ?_ | refine postWrite_only (w.of (by decide)) ?_
    | refine reapply_only (w.of (by decide)) ?_ ?_ | intro _

theorem resolveHost_only {a0 a1 s} (w : Within 10737426432 m) (h : Only m r s) : Only m r (resolveHost a0 a1 s) := by
  unfold resolveHost
  with_reducible repeat' first
    | assumption | refine modPage_only (w.of (by decide)) ?_ | refine postWrite_only (w.of (by decide)) ?_

theorem resolveNow_only {a0 a1 a2 s} (w : Within 10771112068 m) (h : Only m r s) : Only m r (resolveNow a0 a1 a2 s) := by
  unfold resolveNow
  with_reducible repeat' first
    | assumption | refine State_event_only (w.of (by decide)) ?_ | refine State_putV_only (w.of (by decide)) ?_
    | refine resolveHost_only (w.of (by decide)) ?_ | refine resolveLegal_only (w.of (by decide)) ?_
    | refine showTwin_only (w.of (by decide)) ?_ | split

/-! ### Store -/

theorem runAck_only {a0 s} (w : Within 33849516 m) (h : Only m r s) : Only m r (runAck a0 s) := by
  unfold runAck
  with_reducible repeat' first
    | assumption | refine ackCommit_only (w.of (by decide)) ?_ | refine answer_only (w.of (by decide)) ?_
    | refine judgeTwins_only (w.of (by decide)) ?_ | refine noteAcked_only (w.of (by decide)) ?_ | split

theorem showLegal_only {a0 s} (w : Within 132 m) (h : Only m r s) : Only m r (showLegal a0 s) := by
  unfold showLegal
  with_reducible repeat' first
    | assumption | refine State_putV_only (w.of (by decide)) ?_ | refine Only.ite (fun _ => ?_) (fun _ => ?_)

theorem execPageStoreComplete_only {a0 s t} (e : execPageStoreComplete a0 s = .next t) (w : Within 66605850796 m) (h : Only m r s) : Only m r t := by
  unfold execPageStoreComplete at e
  injection e with e
  subst e
  with_reducible repeat' first
    | assumption | refine runAck_only (w.of (by decide)) ?_ | refine showLegal_only (w.of (by decide)) ?_
    | refine showPage_only (w.of (by decide)) ?_ | refine storeFailed_only (w.of (by decide)) ?_
    | refine storeSealed_only (w.of (by decide)) ?_ | refine writeFrame_only (w.of (by decide)) ?_ | split

theorem rollPosition_only {a0 s} (w : Within 6476013668 m) (h : Only m r s) : Only m r (rollPosition a0 s) := by
  unfold rollPosition
  with_reducible repeat' first
    | assumption | refine Only.foldl ?_ ?_ | refine State_putLive_only (w.of (by decide)) ?_
    | refine checkTotals_only (w.of (by decide)) ?_ | refine keepRatios_only (w.of (by decide)) ?_
    | refine postJob_only (w.of (by decide)) ?_ | refine postRoll_only (w.of (by decide)) ?_ | refine Only.ite (fun _ => ?_) (fun _ => ?_)
    | intro _

theorem execRollPosition_only {s t} (e : execRollPosition s = .next t) (w : Within 6476144740 m) (h : Only m r s) : Only m r t := by
  unfold execRollPosition at e
  injection e with e
  subst e
  with_reducible repeat' first
    | (simp only [Only.mk_eq]; refine Only.u_pwr (w.of (by decide)) ?_) | assumption | refine rollPosition_only (w.of (by decide)) ?_
    | split

theorem execBgStore_only {s t} (e : execBgStore s = .next t) (w : Within 2147622916 m) (h : Only m r s) : Only m r t := by
  unfold execBgStore at e
  injection e with e
  subst e
  with_reducible repeat' first
    | (simp only [Only.mk_eq]; refine Only.u_pwr (w.of (by decide)) ?_) | assumption | refine State_put_only (w.of (by decide)) ?_
    | refine postJob_only (w.of (by decide)) ?_ | split

theorem renewFrame_only {a0 s} (w : Within 36540784644 m) (h : Only m r s) : Only m r (renewFrame a0 s) := by
  unfold renewFrame
  with_reducible repeat' first
    | (simp only [Only.mk_eq]; refine Only.u_units (w.of (by decide)) ?_) | assumption | refine State_bump_only (w.of (by decide)) ?_
    | refine State_event_only (w.of (by decide)) ?_ | refine postJob_only (w.of (by decide)) ?_
    | refine Only.ite (fun _ => ?_) (fun _ => ?_) | split

theorem execScrub_only {a0 a1 s t} (e : execScrub a0 a1 s = .next t) (w : Within 36540850180 m) (h : Only m r s) : Only m r t := by
  unfold execScrub at e
  injection e with e
  subst e
  with_reducible repeat' first
    | (simp only [Only.mk_eq]; refine Only.u_units (w.of (by decide)) ?_) | assumption | refine Only.foldl ?_ ?_
    | refine State_bump_only (w.of (by decide)) ?_ | refine State_event_only (w.of (by decide)) ?_
    | refine State_put_only (w.of (by decide)) ?_ | refine refreshSec_only (w.of (by decide)) ?_
    | refine renewFrame_only (w.of (by decide)) ?_ | split | intro _

theorem takeBackup_only {s} (w : Within 65536 m) (h : Only m r s) : Only m r (takeBackup s) := by
  unfold takeBackup
  with_reducible repeat' first
    | assumption | refine Only.foldl ?_ ?_ | refine setTk_only (w.of (by decide)) ?_ | refine tkPush_only (w.of (by decide)) ?_ | intro _

theorem execBackup_only {s t} (e : execBackup s = .next t) (w : Within 65536 m) (h : Only m r s) : Only m r t := by
  unfold execBackup at e
  injection e with e
  subst e
  with_reducible repeat' first
    | assumption | refine setTk_only (w.of (by decide)) ?_ | refine takeBackup_only (w.of (by decide)) ?_
    | refine Only.ite (fun _ => ?_) (fun _ => ?_)

theorem execBackupNow_only {a0 s t} (e : execBackupNow a0 s = .next t) (w : Within 327680 m) (h : Only m r s) : Only m r t := by
  unfold execBackupNow at e
  injection e with e
  subst e
  with_reducible repeat' first
    | assumption | refine answer_only (w.of (by decide)) ?_ | refine runMethod_only (w.of (by decide)) ?_ ?_
    | refine takeBackup_only (w.of (by decide)) ?_ | intro _

theorem execRestore_only {a0 s t} (e : execRestore a0 s = .next t) (w : Within 10737688576 m) (h : Only m r s) : Only m r t := by
  unfold execRestore at e
  try dsimp only at e
  injection e with e
  subst e
  with_reducible repeat' first
    | assumption | refine answer_only (w.of (by decide)) ?_ | refine postCommit_only (w.of (by decide)) ?_
    | refine runMethod_only (w.of (by decide)) ?_ ?_ | refine waitTurn_only (w.of (by decide)) ?_ | split | intro _

theorem restoreNow_only {a0 a1 s} (w : Within 10737557508 m) (h : Only m r s) : Only m r (restoreNow a0 a1 s) := by
  unfold restoreNow
  with_reducible repeat' first
    | (simp only [Only.mk_eq]; refine Only.u_pwr (w.of (by decide)) ?_) | assumption | refine Only.foldl ?_ ?_
    | refine modPage_only (w.of (by decide)) ?_ | refine postWrite_only (w.of (by decide)) ?_ | refine showPage_only (w.of (by decide)) ?_
    | split | intro _

theorem execPageRead_only {a0 s t} (e : execPageRead a0 s = .next t) (w : Within 262144 m) (h : Only m r s) : Only m r t := by
  unfold execPageRead at e
  injection e with e
  subst e
  with_reducible repeat' first
    | assumption | refine answer_only (w.of (by decide)) ?_ | refine runMethod_only (w.of (by decide)) ?_ ?_
    | refine Only.ite (fun _ => ?_) (fun _ => ?_) | intro _

theorem execPageWrite_only {a0 s t} (e : execPageWrite a0 s = .next t) (w : Within 10771243012 m) (h : Only m r s) : Only m r t := by
  unfold execPageWrite at e
  injection e with e
  subst e
  with_reducible repeat' first
    | assumption | refine answer_only (w.of (by decide)) ?_ | refine holdTag_only (w.of (by decide)) ?_
    | refine legalNote_only (w.of (by decide)) ?_ | refine postJob_only (w.of (by decide)) ?_
    | refine runMethod_only (w.of (by decide)) ?_ ?_ | refine setRaw_only (w.of (by decide)) ?_
    | refine Only.ite (fun _ => ?_) (fun _ => ?_) | intro _

theorem execHjWrite_only {a0 s t} (e : execHjWrite a0 s = .next t) (w : Within 393216 m) (h : Only m r s) : Only m r t := by
  unfold execHjWrite at e
  injection e with e
  subst e
  with_reducible repeat' first
    | (simp only [Only.mk_eq]; refine Only.u_pwr (w.of (by decide)) ?_) | assumption | refine answer_only (w.of (by decide)) ?_
    | refine runMethod_only (w.of (by decide)) ?_ ?_ | refine Only.ite (fun _ => ?_) (fun _ => ?_) | intro _

theorem execHjRead_only {a0 s t} (e : execHjRead a0 s = .next t) (w : Within 262144 m) (h : Only m r s) : Only m r t := by
  unfold execHjRead at e
  injection e with e
  subst e
  with_reducible repeat' first
    | assumption | refine answer_only (w.of (by decide)) ?_ | refine runMethod_only (w.of (by decide)) ?_ ?_
    | refine Only.ite (fun _ => ?_) (fun _ => ?_) | intro _

end Sys2Proof.Machine
end

