-- ==== Sys2Proof/Laws/OnlyLease.lean ====
section
/-! SUPPORT. Which parts the operations of these files change: Lease, Ports, Ethernet, Plc. -/

namespace Sys2Proof.Machine

variable {m : Nat} {r : State}

/-! ### Lease -/

theorem showHolders_only {s} (w : Within 36 m) (h : Only m r s) : Only m r (showHolders s) := by
  unfold showHolders
  with_reducible repeat' first
    | assumption | refine State_putLive_only (w.of (by decide)) ?_ | refine showUnits_only (w.of (by decide)) ?_ | split

theorem setLease_only {a0 a1 s} (w : Within 32804 m) (h : Only m r s) : Only m r (setLease a0 a1 s) := by
  unfold setLease
  with_reducible repeat' first
    | (simp only [Only.mk_eq]; refine Only.u_img (w.of (by decide)) ?_) | assumption | refine State_putLive_only (w.of (by decide)) ?_
    | refine showHolders_only (w.of (by decide)) ?_

theorem endLease_only {s} (w : Within 32804 m) (h : Only m r s) : Only m r (endLease s) := by
  unfold endLease
  with_reducible repeat' first
    | assumption | refine setLease_only (w.of (by decide)) ?_

theorem touchLease_only {a0 s} (w : Within 32768 m) (h : Only m r s) : Only m r (touchLease a0 s) := by
  unfold touchLease
  with_reducible repeat' first
    | (simp only [Only.mk_eq]; refine Only.u_img (w.of (by decide)) ?_) | assumption | split

theorem answerHeld_only {a0 s} (w : Within 262144 m) (h : Only m r s) : Only m r (answerHeld a0 s) := by
  unfold answerHeld
  with_reducible repeat' first
    | assumption | refine answer_only (w.of (by decide)) ?_ | split

theorem noteReject_only {a0 a1 a2 s} (w : Within 33554436 m) (h : Only m r s) : Only m r (noteReject a0 a1 a2 s) := by
  unfold noteReject
  with_reducible repeat' first
    | assumption | refine State_event_only (w.of (by decide)) ?_ | refine State_put_only (w.of (by decide)) ?_

theorem answerReject_only {a0 a1 a2 a3 s} (w : Within 33816580 m) (h : Only m r s) : Only m r (answerReject a0 a1 a2 a3 s) := by
  unfold answerReject
  with_reducible repeat' first
    | assumption | refine answer_only (w.of (by decide)) ?_ | refine noteReject_only (w.of (by decide)) ?_

theorem dropHolders_only {a0 s} (w : Within 32804 m) (h : Only m r s) : Only m r (dropHolders a0 s) := by
  unfold dropHolders
  with_reducible repeat' first
    | assumption | refine endLease_only (w.of (by decide)) ?_ | refine setLease_only (w.of (by decide)) ?_
    | refine Only.ite (fun _ => ?_) (fun _ => ?_) | split

theorem eraseSlot_only {a0 s} (w : Within 65536 m) (h : Only m r s) : Only m r (eraseSlot a0 s) := by
  unfold eraseSlot
  with_reducible repeat' first
    | assumption | refine Only.foldl ?_ ?_ | refine tkPush_only (w.of (by decide)) ?_ | split | intro _

theorem dropImages_only {a0 s} (w : Within 65536 m) (h : Only m r s) : Only m r (dropImages a0 s) := by
  unfold dropImages
  with_reducible repeat' first
    | assumption | refine Only.foldl ?_ ?_ | refine setTk_only (w.of (by decide)) ?_ | refine tkPush_only (w.of (by decide)) ?_ | split
    | intro _

theorem lateHeld_only {a0 s} (w : Within 262144 m) (h : Only m r s) : Only m r (lateHeld a0 s) := by
  unfold lateHeld
  with_reducible repeat' first
    | assumption | refine answerHeld_only (w.of (by decide)) ?_ | split

theorem openLease_only {a0 a1 a2 a3 s} (w : Within 33914916 m) (h : Only m r s) : Only m r (openLease a0 a1 a2 a3 s) := by
  unfold openLease
  with_reducible repeat' first
    | assumption | refine Only.foldl ?_ ?_ | refine State_put_only (w.of (by decide)) ?_ | refine answer_only (w.of (by decide)) ?_
    | refine answerReject_only (w.of (by decide)) ?_ | refine dropImages_only (w.of (by decide)) ?_
    | refine eraseSlot_only (w.of (by decide)) ?_ | refine lateHeld_only (w.of (by decide)) ?_
    | refine setLease_only (w.of (by decide)) ?_ | refine setSlot_only (w.of (by decide)) ?_
    | refine showManifest_only (w.of (by decide)) ?_ | refine Only.ite (fun _ => ?_) (fun _ => ?_) | intro _

theorem execUpdateOpen_only {a0 s t} (e : execUpdateOpen a0 s = .next t) (w : Within 33914916 m) (h : Only m r s) : Only m r t := by
  unfold execUpdateOpen at e
  injection e with e
  subst e
  with_reducible repeat' first
    | assumption | refine State_event_only (w.of (by decide)) ?_ | refine answer_only (w.of (by decide)) ?_
    | refine answerHeld_only (w.of (by decide)) ?_ | refine endLease_only (w.of (by decide)) ?_
    | refine openLease_only (w.of (by decide)) ?_ | refine runMethod_only (w.of (by decide)) ?_ ?_
    | refine setLease_only (w.of (by decide)) ?_ | refine touchLease_only (w.of (by decide)) ?_
    | refine Only.ite (fun _ => ?_) (fun _ => ?_) | split | intro _

theorem execWriteBlock_only {a0 s t} (e : execWriteBlock a0 s = .next t) (w : Within 33914884 m) (h : Only m r s) : Only m r t := by
  unfold execWriteBlock at e
  injection e with e
  subst e
  with_reducible repeat' first
    | assumption | refine answer_only (w.of (by decide)) ?_ | refine answerHeld_only (w.of (by decide)) ?_
    | refine answerReject_only (w.of (by decide)) ?_ | refine holdTag_only (w.of (by decide)) ?_
    | refine runMethod_only (w.of (by decide)) ?_ ?_ | refine tkPush_only (w.of (by decide)) ?_
    | refine touchLease_only (w.of (by decide)) ?_ | refine Only.ite (fun _ => ?_) (fun _ => ?_) | intro _

theorem execVerify_only {a0 s t} (e : execVerify a0 s = .next t) (w : Within 33914916 m) (h : Only m r s) : Only m r t := by
  unfold execVerify at e
  try dsimp only at e
  injection e with e
  subst e
  with_reducible repeat' first
    | assumption | refine State_put_only (w.of (by decide)) ?_ | refine answer_only (w.of (by decide)) ?_
    | refine answerHeld_only (w.of (by decide)) ?_ | refine answerReject_only (w.of (by decide)) ?_
    | refine eraseSlot_only (w.of (by decide)) ?_ | refine runMethod_only (w.of (by decide)) ?_ ?_
    | refine setLease_only (w.of (by decide)) ?_ | refine setSlot_only (w.of (by decide)) ?_
    | refine showManifest_only (w.of (by decide)) ?_ | refine touchLease_only (w.of (by decide)) ?_ | split | intro _

theorem cancelHand_only {s} (w : Within 32812 m) (h : Only m r s) : Only m r (cancelHand s) := by
  unfold cancelHand
  with_reducible repeat' first
    | (simp only [Only.mk_eq]; refine Only.u_commits_img (w.of (by decide)) ?_) | assumption
    | refine State_putLive_only (w.of (by decide)) ?_

theorem execAbort_only {a0 s t} (e : execAbort a0 s = .next t) (w : Within 294956 m) (h : Only m r s) : Only m r t := by
  unfold execAbort at e
  injection e with e
  subst e
  with_reducible repeat' first
    | assumption | refine answer_only (w.of (by decide)) ?_ | refine answerHeld_only (w.of (by decide)) ?_
    | refine cancelHand_only (w.of (by decide)) ?_ | refine endLease_only (w.of (by decide)) ?_
    | refine runMethod_only (w.of (by decide)) ?_ ?_ | refine touchLease_only (w.of (by decide)) ?_ | split | intro _

theorem execLeaseExpiry_only {s t} (e : execLeaseExpiry s = .next t) (w : Within 33587236 m) (h : Only m r s) : Only m r t := by
  unfold execLeaseExpiry at e
  injection e with e
  subst e
  with_reducible repeat' first
    | assumption | refine State_event_only (w.of (by decide)) ?_ | refine endLease_only (w.of (by decide)) ?_ | split

theorem execKeyCommand_only {a0 s t} (e : execKeyCommand a0 s = .next t) (w : Within 33816580 m) (h : Only m r s) : Only m r t := by
  unfold execKeyCommand at e
  injection e with e
  subst e
  with_reducible repeat' first
    | assumption | refine State_event_only (w.of (by decide)) ?_ | refine State_put_only (w.of (by decide)) ?_
    | refine answer_only (w.of (by decide)) ?_ | refine legalNote_only (w.of (by decide)) ?_
    | refine runMethod_only (w.of (by decide)) ?_ ?_ | refine Only.ite (fun _ => ?_) (fun _ => ?_) | intro _

/-! ### Ports -/

theorem setPortUnit_only {a0 a1 s} (w : Within 34359738368 m) (h : Only m r s) : Only m r (setPortUnit a0 a1 s) := by
  unfold setPortUnit
  with_reducible repeat' first
    | (simp only [Only.mk_eq]; refine Only.u_units (w.of (by decide)) ?_) | assumption

theorem portSet_only {a0 a1 a2 s} (w : Within 33554564 m) (h : Only m r s) : Only m r (portSet a0 a1 a2 s) := by
  unfold portSet
  with_reducible repeat' first
    | assumption | refine State_event_only (w.of (by decide)) ?_ | refine State_putV_only (w.of (by decide)) ?_ | split

theorem dropFrames_only {a0 a1 s} (w : Within 262144 m) (h : Only m r s) : Only m r (dropFrames a0 a1 s) := by
  unfold dropFrames
  with_reducible repeat' first
    | assumption | refine Only.foldl ?_ ?_ | refine leave12_only (w.of (by decide)) ?_ | refine setSrv_only (w.of (by decide)) ?_
    | intro _

theorem cancelReqs_only {a0 a1 s} (w : Within 262144 m) (h : Only m r s) : Only m r (cancelReqs a0 a1 s) := by
  unfold cancelReqs
  with_reducible repeat' first
    | assumption | refine Only.foldl ?_ ?_ | refine freeTag_only (w.of (by decide)) ?_ | intro _

theorem dropWork_only {a0 a1 s} (w : Within 1074003968 m) (h : Only m r s) : Only m r (dropWork a0 a1 s) := by
  unfold dropWork
  with_reducible repeat' first
    | assumption | refine endTxns_only (w.of (by decide)) ?_ | refine setSrv_only (w.of (by decide)) ?_

theorem endSess_only {a0 s} (w : Within 1074036772 m) (h : Only m r s) : Only m r (endSess a0 s) := by
  unfold endSess
  with_reducible repeat' first
    | assumption | refine cancelReqs_only (w.of (by decide)) ?_ | refine dropFrames_only (w.of (by decide)) ?_
    | refine dropHolders_only (w.of (by decide)) ?_ | refine dropWork_only (w.of (by decide)) ?_
    | refine setSess_only (w.of (by decide)) ?_ | refine setSrv_only (w.of (by decide)) ?_ | split

theorem endPort_only {a0 s} (w : Within 1074036772 m) (h : Only m r s) : Only m r (endPort a0 s) := by
  unfold endPort
  with_reducible repeat' first
    | assumption | refine Only.foldl ?_ ?_ | refine endSess_only (w.of (by decide)) ?_ | intro _

theorem stepCounter_only {a0 s} (w : Within 1074036772 m) (h : Only m r s) : Only m r (stepCounter a0 s) := by
  unfold stepCounter
  with_reducible repeat' first
    | assumption | refine endSess_only (w.of (by decide)) ?_ | refine setSess_only (w.of (by decide)) ?_ | split

theorem execSessionTimeout_only {a0 s t} (e : execSessionTimeout a0 s = .next t) (w : Within 1074036772 m) (h : Only m r s) : Only m r t := by
  unfold execSessionTimeout at e
  injection e with e
  subst e
  with_reducible repeat' first
    | assumption | refine endSess_only (w.of (by decide)) ?_ | split

theorem execEndSession_only {a0 s t} (e : execEndSession a0 s = .next t) (w : Within 1074036772 m) (h : Only m r s) : Only m r t := by
  unfold execEndSession at e
  injection e with e
  subst e
  with_reducible repeat' first
    | assumption | refine answer_only (w.of (by decide)) ?_ | refine endSess_only (w.of (by decide)) ?_
    | refine runMethod_only (w.of (by decide)) ?_ ?_ | refine Only.ite (fun _ => ?_) (fun _ => ?_) | intro _

theorem dropHello_only {a0 s} (w : Within 262144 m) (h : Only m r s) : Only m r (dropHello a0 s) := by
  unfold dropHello
  with_reducible repeat' first
    | assumption | refine setSrv_only (w.of (by decide)) ?_

theorem setHandshake_only {a0 a1 s} (w : Within 262144 m) (h : Only m r s) : Only m r (setHandshake a0 a1 s) := by
  unfold setHandshake
  with_reducible repeat' first
    | assumption | refine setSrv_only (w.of (by decide)) ?_

theorem answerStep1_only {a0 a1 a2 s} (w : Within 262144 m) (h : Only m r s) : Only m r (answerStep1 a0 a1 a2 s) := by
  unfold answerStep1
  with_reducible repeat' first
    | assumption | refine push12_only (w.of (by decide)) ?_ | refine setHandshake_only (w.of (by decide)) ?_

theorem helloOne_only {a0 s} (w : Within 68719738884 m) (h : Only m r s) : Only m r (helloOne a0 s) := by
  unfold helloOne
  with_reducible repeat' first
    | assumption | refine State_draw_only (w.of (by decide)) ?_ | refine State_drawBytes_only (w.of (by decide)) ?_
    | refine answerStep1_only (w.of (by decide)) ?_ | refine refuse_only (w.of (by decide)) ?_
    | refine Only.ite (fun _ => ?_) (fun _ => ?_)

theorem execHelloStep1_only {a0 s t} (e : execHelloStep1 a0 s = .next t) (w : Within 68719738884 m) (h : Only m r s) : Only m r t := by
  unfold execHelloStep1 at e
  injection e with e
  subst e
  with_reducible repeat' first
    | assumption | refine dropHello_only (w.of (by decide)) ?_ | refine helloOne_only (w.of (by decide)) ?_ | split

theorem execHandshakeExpiry_only {a0 s t} (e : execHandshakeExpiry a0 s = .next t) (w : Within 262144 m) (h : Only m r s) : Only m r t := by
  unfold execHandshakeExpiry at e
  injection e with e
  subst e
  with_reducible repeat' first
    | assumption | refine setHandshake_only (w.of (by decide)) ?_ | split

theorem helloDenied_only {a0 s} (w : Within 262148 m) (h : Only m r s) : Only m r (helloDenied a0 s) := by
  unfold helloDenied
  with_reducible repeat' first
    | assumption | refine State_bump_only (w.of (by decide)) ?_ | refine refuse_only (w.of (by decide)) ?_

theorem openSession_only {a0 a1 a2 s} (w : Within 1074036772 m) (h : Only m r s) : Only m r (openSession a0 a1 a2 s) := by
  unfold openSession
  with_reducible repeat' first
    | assumption | refine dropWork_only (w.of (by decide)) ?_ | refine endSess_only (w.of (by decide)) ?_
    | refine push12_only (w.of (by decide)) ?_ | refine setSess_only (w.of (by decide)) ?_ | split

theorem helloTwo_only {a0 s} (w : Within 1074036772 m) (h : Only m r s) : Only m r (helloTwo a0 s) := by
  unfold helloTwo
  with_reducible repeat' first
    | assumption | refine helloDenied_only (w.of (by decide)) ?_ | refine openSession_only (w.of (by decide)) ?_
    | refine refuse_only (w.of (by decide)) ?_ | refine setHandshake_only (w.of (by decide)) ?_
    | refine Only.ite (fun _ => ?_) (fun _ => ?_) | split

theorem execHelloStep2_only {a0 s t} (e : execHelloStep2 a0 s = .next t) (w : Within 1074036772 m) (h : Only m r s) : Only m r t := by
  unfold execHelloStep2 at e
  injection e with e
  subst e
  with_reducible repeat' first
    | assumption | refine dropHello_only (w.of (by decide)) ?_ | refine helloTwo_only (w.of (by decide)) ?_ | split

theorem acceptNet_only {a0 a1 s} (w : Within 262180 m) (h : Only m r s) : Only m r (acceptNet a0 a1 s) := by
  unfold acceptNet
  with_reducible repeat' first
    | assumption | refine State_bump_only (w.of (by decide)) ?_ | refine State_bumpLive_only (w.of (by decide)) ?_
    | refine refuse_only (w.of (by decide)) ?_ | refine setSrv_only (w.of (by decide)) ?_ | refine Only.ite (fun _ => ?_) (fun _ => ?_)

theorem netSession_only {a0 a1 a2 a3 a4 a5 a6 a7 s} (w : Within 1074036772 m) (h : Only m r s) : Only m r (netSession a0 a1 a2 a3 a4 a5 a6 a7 s) := by
  unfold netSession
  with_reducible repeat' first
    | assumption | refine State_bump_only (w.of (by decide)) ?_ | refine acceptNet_only (w.of (by decide)) ?_
    | refine endSess_only (w.of (by decide)) ?_ | refine setSess_only (w.of (by decide)) ?_ | split

theorem netPlain_only {a0 a1 a2 a3 a4 a5 s} (w : Within 1074036772 m) (h : Only m r s) : Only m r (netPlain a0 a1 a2 a3 a4 a5 s) := by
  unfold netPlain
  with_reducible repeat' first
    | assumption | refine State_bumpLive_only (w.of (by decide)) ?_ | refine netSession_only (w.of (by decide)) ?_ | split

theorem netHand_only {a0 a1 a2 a3 a4 a5 a6 a7 a8 s} (w : Within 1074036772 m) (h : Only m r s) : Only m r (netHand a0 a1 a2 a3 a4 a5 a6 a7 a8 s) := by
  unfold netHand
  with_reducible repeat' first
    | assumption | refine State_bump_only (w.of (by decide)) ?_ | refine State_bumpLive_only (w.of (by decide)) ?_
    | refine acceptNet_only (w.of (by decide)) ?_ | refine netPlain_only (w.of (by decide)) ?_ | split

theorem netAccept_only {a0 s} (w : Within 1074036772 m) (h : Only m r s) : Only m r (netAccept a0 s) := by
  unfold netAccept
  with_reducible repeat' first
    | assumption | refine State_bumpLive_only (w.of (by decide)) ?_ | refine acceptNet_only (w.of (by decide)) ?_
    | refine netHand_only (w.of (by decide)) ?_ | refine netPlain_only (w.of (by decide)) ?_ | refine Only.ite (fun _ => ?_) (fun _ => ?_)
    | split

theorem execBridleNetworkFrame_only {a0 s t} (e : execBridleNetworkFrame a0 s = .next t) (w : Within 1074036772 m) (h : Only m r s) : Only m r t := by
  unfold execBridleNetworkFrame at e
  injection e with e
  subst e
  with_reducible repeat' first
    | assumption | refine netAccept_only (w.of (by decide)) ?_ | refine setSrv_only (w.of (by decide)) ?_
    | refine Only.ite (fun _ => ?_) (fun _ => ?_) | split

theorem execSubscribe_only {a0 s t} (e : execSubscribe a0 s = .next t) (w : Within 262144 m) (h : Only m r s) : Only m r t := by
  unfold execSubscribe at e
  try dsimp only at e
  injection e with e
  subst e
  with_reducible repeat' first
    | assumption | refine answer_only (w.of (by decide)) ?_ | refine runOp_only (w.of (by decide)) ?_ ?_
    | refine setSrv_only (w.of (by decide)) ?_ | split | intro _

theorem execUnsubscribe_only {a0 s t} (e : execUnsubscribe a0 s = .next t) (w : Within 262144 m) (h : Only m r s) : Only m r t := by
  unfold execUnsubscribe at e
  injection e with e
  subst e
  with_reducible repeat' first
    | assumption | refine answer_only (w.of (by decide)) ?_ | refine runOp_only (w.of (by decide)) ?_ ?_
    | refine setSrv_only (w.of (by decide)) ?_ | split | intro _

/-! ### Ethernet -/

theorem setT1s_only {a0 s} (w : Within 1048576 m) (h : Only m r s) : Only m r (setT1s a0 s) := by
  unfold setT1s
  with_reducible repeat' first
    | (simp only [Only.mk_eq]; refine Only.u_t1s (w.of (by decide)) ?_) | assumption

theorem setDad_only {a0 a1 s} (w : Within 36 m) (h : Only m r s) : Only m r (setDad a0 a1 s) := by
  unfold setDad
  with_reducible repeat' first
    | assumption | refine State_putLive_only (w.of (by decide)) ?_

theorem dadUnicast_only {a0 s} (w : Within 36 m) (h : Only m r s) : Only m r (dadUnicast a0 s) := by
  unfold dadUnicast
  with_reducible repeat' first
    | assumption | refine setDad_only (w.of (by decide)) ?_

theorem t1sStart_only {a0 s} (w : Within 1048612 m) (h : Only m r s) : Only m r (t1sStart a0 s) := by
  unfold t1sStart
  with_reducible repeat' first
    | assumption | refine dadUnicast_only (w.of (by decide)) ?_ | refine setDad_only (w.of (by decide)) ?_
    | refine setT1s_only (w.of (by decide)) ?_

theorem noteNeighbour_only {a0 a1 s} (w : Within 1048576 m) (h : Only m r s) : Only m r (noteNeighbour a0 a1 s) := by
  unfold noteNeighbour
  with_reducible repeat' first
    | assumption | refine setT1s_only (w.of (by decide)) ?_

theorem execT1sDatagramReceive_only {a0 s t} (e : execT1sDatagramReceive a0 s = .next t) (w : Within 262180 m) (h : Only m r s) : Only m r t := by
  unfold execT1sDatagramReceive at e
  injection e with e
  subst e
  with_reducible repeat' first
    | assumption | refine State_bumpLive_only (w.of (by decide)) ?_ | refine setSrv_only (w.of (by decide)) ?_ | split

theorem execNeighbourSolicitation_only {a0 a1 a2 s t} (e : execNeighbourSolicitation a0 a1 a2 s = .next t) (w : Within 1048576 m) (h : Only m r s) : Only m r t := by
  unfold execNeighbourSolicitation at e
  injection e with e
  subst e
  with_reducible repeat' first
    | assumption | refine noteNeighbour_only (w.of (by decide)) ?_ | refine setT1s_only (w.of (by decide)) ?_ | split

theorem execEchoRequest_only {a0 s t} (e : execEchoRequest a0 s = .next t) (w : Within 1048576 m) (h : Only m r s) : Only m r t := by
  unfold execEchoRequest at e
  injection e with e
  subst e
  with_reducible repeat' first
    | assumption | refine setT1s_only (w.of (by decide)) ?_ | split

theorem execDuplicateAddressDetection_only {a0 a1 s t} (e : execDuplicateAddressDetection a0 a1 s = .next t) (w : Within 36 m) (h : Only m r s) : Only m r t := by
  unfold execDuplicateAddressDetection at e
  injection e with e
  subst e
  with_reducible repeat' first
    | assumption | refine setDad_only (w.of (by decide)) ?_ | split

theorem noteWire_only {a0 a1 s} (w : Within 262144 m) (h : Only m r s) : Only m r (noteWire a0 a1 s) := by
  unfold noteWire
  with_reducible repeat' first
    | assumption | refine setSrv_only (w.of (by decide)) ?_

theorem leaveRing_only {a0 a1 s} (w : Within 262144 m) (h : Only m r s) : Only m r (leaveRing a0 a1 s) := by
  unfold leaveRing
  with_reducible repeat' first
    | assumption | refine leave12_only (w.of (by decide)) ?_ | refine leave13_only (w.of (by decide)) ?_ | split

theorem resolveHop_only {a0 s} (w : Within 68720525312 m) (h : Only m r s) : Only m r (resolveHop a0 s).2 := by
  unfold resolveHop
  with_reducible repeat' first
    | assumption | refine State_draw_only (w.of (by decide)) ?_ | refine noteNeighbour_only (w.of (by decide)) ?_
    | refine setT1s_only (w.of (by decide)) ?_ | refine Only.ite_snd (fun _ => ?_) (fun _ => ?_)

theorem resolveHop_only' {a0 s x t} (e : resolveHop a0 s = (x, t)) (w : Within 68720525312 m) (h : Only m r s) : Only m r t := by
  have k := resolveHop_only (m := m) (r := r) (a0 := a0) (s := s) w h
  rw [e] at k; exact k

theorem t1sSend_only {a0 s} (w : Within 69794562084 m) (h : Only m r s) : Only m r (t1sSend a0 s) := by
  unfold t1sSend
  with_reducible repeat' first
    | assumption | refine State_bumpLive_only (w.of (by decide)) ?_ | refine leaveRing_only (w.of (by decide)) ?_
    | refine noteWire_only (w.of (by decide)) ?_ | refine resolveHop_only (w.of (by decide)) ?_
    | refine stepCounter_only (w.of (by decide)) ?_ | refine Only.ite (fun _ => ?_) (fun _ => ?_) | split

theorem execT1sPowerDown_only {s t} (e : execT1sPowerDown s = .next t) (w : Within 1075085348 m) (h : Only m r s) : Only m r t := by
  unfold execT1sPowerDown at e
  injection e with e
  subst e
  with_reducible repeat' first
    | assumption | refine endPort_only (w.of (by decide)) ?_ | refine setT1s_only (w.of (by decide)) ?_ | split

/-! ### Plc -/

theorem dropRoutes_only {a0 s} (w : Within 2097188 m) (h : Only m r s) : Only m r (dropRoutes a0 s) := by
  unfold dropRoutes
  with_reducible repeat' first
    | assumption | refine Only.foldl ?_ ?_ | refine setRoute_only (w.of (by decide)) ?_ | intro _

theorem forceTx_only {s} (w : Within 2097152 m) (h : Only m r s) : Only m r (forceTx s) := by
  unfold forceTx
  with_reducible repeat' first
    | assumption | refine setPlc_only (w.of (by decide)) ?_ | split

theorem startTx_only {s} (w : Within 2097152 m) (h : Only m r s) : Only m r (startTx s) := by
  unfold startTx
  with_reducible repeat' first
    | assumption | refine forceTx_only (w.of (by decide)) ?_ | split

theorem pump14_only {s} (w : Within 2097152 m) (h : Only m r s) : Only m r (pump14 s) := by
  unfold pump14
  with_reducible repeat' first
    | assumption | refine setPlc_only (w.of (by decide)) ?_ | refine startTx_only (w.of (by decide)) ?_

theorem queue14_only {a0 s} (w : Within 2097156 m) (h : Only m r s) : Only m r (queue14 a0 s) := by
  unfold queue14
  with_reducible repeat' first
    | assumption | refine State_bump_only (w.of (by decide)) ?_ | refine pump14_only (w.of (by decide)) ?_
    | refine setPlc_only (w.of (by decide)) ?_ | split

theorem sendAll_only {a0 s} (w : Within 2097156 m) (h : Only m r s) : Only m r (sendAll a0 s) := by
  unfold sendAll
  with_reducible repeat' first
    | assumption | refine queue14_only (w.of (by decide)) ?_

theorem sendNext_only {a0 a1 s} (w : Within 2097156 m) (h : Only m r s) : Only m r (sendNext a0 a1 s) := by
  unfold sendNext
  with_reducible repeat' first
    | assumption | refine queue14_only (w.of (by decide)) ?_ | split

theorem discover_only {a0 s} (w : Within 2097156 m) (h : Only m r s) : Only m r (discover a0 s) := by
  unfold discover
  with_reducible repeat' first
    | assumption | refine sendAll_only (w.of (by decide)) ?_ | refine setPlc_only (w.of (by decide)) ?_

theorem sendTo_only {a0 a1 s} (w : Within 2097156 m) (h : Only m r s) : Only m r (sendTo a0 a1 s) := by
  unfold sendTo
  with_reducible repeat' first
    | assumption | refine discover_only (w.of (by decide)) ?_ | refine queue14_only (w.of (by decide)) ?_
    | refine setPlc_only (w.of (by decide)) ?_ | refine Only.ite (fun _ => ?_) (fun _ => ?_) | split

theorem sendError_only {a0 a1 a2 s} (w : Within 2097156 m) (h : Only m r s) : Only m r (sendError a0 a1 a2 s) := by
  unfold sendError
  with_reducible repeat' first
    | assumption | refine queue14_only (w.of (by decide)) ?_ | refine sendNext_only (w.of (by decide)) ?_ | split

theorem releaseWait_only {a0 s} (w : Within 2097156 m) (h : Only m r s) : Only m r (releaseWait a0 s) := by
  unfold releaseWait
  with_reducible repeat' first
    | assumption | refine Only.foldl ?_ ?_ | refine sendTo_only (w.of (by decide)) ?_ | refine setPlc_only (w.of (by decide)) ?_ | intro _

theorem takeRoute_only {a0 a1 a2 a3 s} (w : Within 2097188 m) (h : Only m r s) : Only m r (takeRoute a0 a1 a2 a3 s) := by
  unfold takeRoute
  with_reducible repeat' first
    | assumption | refine releaseWait_only (w.of (by decide)) ?_ | refine setRoute_only (w.of (by decide)) ?_
    | refine Only.ite (fun _ => ?_) (fun _ => ?_) | split

theorem takeReply_only {a0 a1 a2 a3 s} (w : Within 2097188 m) (h : Only m r s) : Only m r (takeReply a0 a1 a2 a3 s) := by
  unfold takeReply
  with_reducible repeat' first
    | assumption | refine takeRoute_only (w.of (by decide)) ?_ | split

theorem eraseTables_only {s} (w : Within 2097188 m) (h : Only m r s) : Only m r (eraseTables s) := by
  unfold eraseTables
  with_reducible repeat' first
    | assumption | refine Only.foldl ?_ ?_ | refine dropRoutes_only (w.of (by decide)) ?_ | refine setNbr_only (w.of (by decide)) ?_
    | intro _

theorem leavePan_only {a0 a1 s} (w : Within 35651620 m) (h : Only m r s) : Only m r (leavePan a0 a1 s) := by
  unfold leavePan
  with_reducible repeat' first
    | assumption | refine State_event_only (w.of (by decide)) ?_ | refine State_putLive_only (w.of (by decide)) ?_
    | refine eraseTables_only (w.of (by decide)) ?_ | refine setPlc_only (w.of (by decide)) ?_ | split

theorem scanEnds_only {a0 s} (w : Within 2097188 m) (h : Only m r s) : Only m r (scanEnds a0 s) := by
  unfold scanEnds
  with_reducible repeat' first
    | assumption | refine State_putLive_only (w.of (by decide)) ?_ | refine setPlc_only (w.of (by decide)) ?_

theorem execPlcJoin_only {a0 s t} (e : execPlcJoin a0 s = .next t) (w : Within 68755128356 m) (h : Only m r s) : Only m r t := by
  unfold execPlcJoin at e
  injection e with e
  subst e
  with_reducible repeat' first
    | assumption | refine State_bump_only (w.of (by decide)) ?_ | refine State_drawBytes_only (w.of (by decide)) ?_
    | refine State_event_only (w.of (by decide)) ?_ | refine State_putLive_only (w.of (by decide)) ?_
    | refine eraseTables_only (w.of (by decide)) ?_ | refine scanEnds_only (w.of (by decide)) ?_
    | refine setPlc_only (w.of (by decide)) ?_ | split

theorem execJoinRetry_only {s t} (e : execJoinRetry s = .next t) (w : Within 2097188 m) (h : Only m r s) : Only m r t := by
  unfold execJoinRetry at e
  injection e with e
  subst e
  with_reducible repeat' first
    | assumption | refine State_putLive_only (w.of (by decide)) ?_ | refine setPlc_only (w.of (by decide)) ?_ | split

theorem clearRoutes_only {s} (w : Within 2097188 m) (h : Only m r s) : Only m r (clearRoutes s) := by
  unfold clearRoutes
  with_reducible repeat' first
    | assumption | refine Only.foldl ?_ ?_ | refine dropRoutes_only (w.of (by decide)) ?_ | refine setNbr_only (w.of (by decide)) ?_
    | intro _

theorem ackedAnswer_only {a0 s} (w : Within 262144 m) (h : Only m r s) : Only m r (ackedAnswer a0 s) := by
  unfold ackedAnswer
  with_reducible repeat' first
    | assumption | refine setSrv_only (w.of (by decide)) ?_ | split

theorem plcSend_only {a0 s} (w : Within 1076133924 m) (h : Only m r s) : Only m r (plcSend a0 s) := by
  unfold plcSend
  with_reducible repeat' first
    | assumption | refine Only.foldl ?_ ?_ | refine leaveRing_only (w.of (by decide)) ?_ | refine noteWire_only (w.of (by decide)) ?_
    | refine sendTo_only (w.of (by decide)) ?_ | refine stepCounter_only (w.of (by decide)) ?_ | split | intro _

theorem endBroadcasts_only {a0 s} (w : Within 2097188 m) (h : Only m r s) : Only m r (endBroadcasts a0 s) := by
  induction a0 generalizing s with
  | zero => exact h
  | succ _ ih =>
    unfold endBroadcasts
    with_reducible repeat' first
      | refine ih ?_ | assumption | refine countTx_only (w.of (by decide)) ?_ | refine pump14_only (w.of (by decide)) ?_
      | refine setPlc_only (w.of (by decide)) ?_ | split

theorem holdRoute_only {a0 s} (w : Within 2097152 m) (h : Only m r s) : Only m r (holdRoute a0 s) := by
  unfold holdRoute
  with_reducible repeat' first
    | assumption | refine setPlc_only (w.of (by decide)) ?_

theorem newRoute_only {a0 a1 s} (w : Within 2097188 m) (h : Only m r s) : Only m r (newRoute a0 a1 s) := by
  unfold newRoute
  with_reducible repeat' first
    | assumption | refine discover_only (w.of (by decide)) ?_ | refine dropRoutes_only (w.of (by decide)) ?_
    | refine holdRoute_only (w.of (by decide)) ?_

theorem txFailed_only {a0 s} (w : Within 35651620 m) (h : Only m r s) : Only m r (txFailed a0 s) := by
  unfold txFailed
  with_reducible repeat' first
    | assumption | refine State_event_only (w.of (by decide)) ?_ | refine State_putLive_only (w.of (by decide)) ?_
    | refine dropRoutes_only (w.of (by decide)) ?_ | refine newRoute_only (w.of (by decide)) ?_
    | refine sendError_only (w.of (by decide)) ?_ | refine setNbr_only (w.of (by decide)) ?_ | refine Only.ite (fun _ => ?_) (fun _ => ?_)
    | split

theorem execPlcTxComplete_only {a0 a1 s t} (e : execPlcTxComplete a0 a1 s = .next t) (w : Within 35913764 m) (h : Only m r s) : Only m r t := by
  unfold execPlcTxComplete at e
  try dsimp only at e
  injection e with e
  subst e
  with_reducible repeat' first
    | assumption | refine State_event_only (w.of (by decide)) ?_ | refine State_putLive_only (w.of (by decide)) ?_
    | refine ackedAnswer_only (w.of (by decide)) ?_ | refine countTx_only (w.of (by decide)) ?_
    | refine endBroadcasts_only (w.of (by decide)) ?_ | refine pump14_only (w.of (by decide)) ?_
    | refine sendNext_only (w.of (by decide)) ?_ | refine setNbr_only (w.of (by decide)) ?_ | refine setPlc_only (w.of (by decide)) ?_
    | refine txFailed_only (w.of (by decide)) ?_ | split

theorem execRouteWaitExpiry_only {s t} (e : execRouteWaitExpiry s = .next t) (w : Within 2097188 m) (h : Only m r s) : Only m r t := by
  unfold execRouteWaitExpiry at e
  injection e with e
  subst e
  with_reducible repeat' first
    | assumption | refine State_putLive_only (w.of (by decide)) ?_ | refine setPlc_only (w.of (by decide)) ?_
    | refine Only.ite (fun _ => ?_) (fun _ => ?_)

theorem execToneMapRefresh_only {a0 s t} (e : execToneMapRefresh a0 s = .next t) (w : Within 2097188 m) (h : Only m r s) : Only m r t := by
  unfold execToneMapRefresh at e
  injection e with e
  subst e
  with_reducible repeat' first
    | assumption | refine sendNext_only (w.of (by decide)) ?_ | refine setNbr_only (w.of (by decide)) ?_ | split

theorem execRouteRetire_only {a0 s t} (e : execRouteRetire a0 s = .next t) (w : Within 35651620 m) (h : Only m r s) : Only m r t := by
  unfold execRouteRetire at e
  injection e with e
  subst e
  with_reducible repeat' first
    | assumption | refine State_bump_only (w.of (by decide)) ?_ | refine State_event_only (w.of (by decide)) ?_
    | refine dropRoutes_only (w.of (by decide)) ?_ | refine setNbr_only (w.of (by decide)) ?_ | split

theorem hearNbr_only {a0 s} (w : Within 2097188 m) (h : Only m r s) : Only m r (hearNbr a0 s) := by
  unfold hearNbr
  with_reducible repeat' first
    | assumption | refine setNbr_only (w.of (by decide)) ?_ | split

theorem takeDatagram_only {a0 s} (w : Within 262180 m) (h : Only m r s) : Only m r (takeDatagram a0 s) := by
  unfold takeDatagram
  with_reducible repeat' first
    | assumption | refine State_bumpLive_only (w.of (by decide)) ?_ | refine setSrv_only (w.of (by decide)) ?_ | split

theorem takeFragment_only {a0 a1 a2 a3 s} (w : Within 2359332 m) (h : Only m r s) : Only m r (takeFragment a0 a1 a2 a3 s) := by
  unfold takeFragment
  with_reducible repeat' first
    | assumption | refine setPlc_only (w.of (by decide)) ?_ | refine takeDatagram_only (w.of (by decide)) ?_
    | refine Only.ite (fun _ => ?_) (fun _ => ?_)

theorem takeRequest_only {a0 a1 a2 a3 a4 a5 s} (w : Within 2097188 m) (h : Only m r s) : Only m r (takeRequest a0 a1 a2 a3 a4 a5 s) := by
  unfold takeRequest
  with_reducible repeat' first
    | assumption | refine sendAll_only (w.of (by decide)) ?_ | refine sendNext_only (w.of (by decide)) ?_
    | refine takeRoute_only (w.of (by decide)) ?_ | refine Only.ite (fun _ => ?_) (fun _ => ?_) | split

theorem relayRoute_only {a0 s} (w : Within 2097188 m) (h : Only m r s) : Only m r (relayRoute a0 s) := by
  unfold relayRoute
  with_reducible repeat' first
    | assumption | refine setRoute_only (w.of (by decide)) ?_ | split

theorem passReply_only {a0 a1 a2 a3 a4 s} (w : Within 2097188 m) (h : Only m r s) : Only m r (passReply a0 a1 a2 a3 a4 s) := by
  unfold passReply
  try dsimp only
  with_reducible repeat' first
    | assumption | refine relayRoute_only (w.of (by decide)) ?_ | refine sendNext_only (w.of (by decide)) ?_
    | refine takeRoute_only (w.of (by decide)) ?_ | split

theorem takeBroadcast_only {a0 a1 a2 s} (w : Within 2097156 m) (h : Only m r s) : Only m r (takeBroadcast a0 a1 a2 s) := by
  unfold takeBroadcast
  with_reducible repeat' first
    | assumption | refine queue14_only (w.of (by decide)) ?_ | refine setPlc_only (w.of (by decide)) ?_
    | refine Only.ite (fun _ => ?_) (fun _ => ?_)

theorem plcTake_only {a0 s} (w : Within 35913764 m) (h : Only m r s) : Only m r (plcTake a0 s) := by
  unfold plcTake
  with_reducible repeat' first
    | assumption | refine State_bump_only (w.of (by decide)) ?_ | refine State_bumpLive_only (w.of (by decide)) ?_
    | refine State_event_only (w.of (by decide)) ?_ | refine dropRoutes_only (w.of (by decide)) ?_
    | refine leavePan_only (w.of (by decide)) ?_ | refine passReply_only (w.of (by decide)) ?_ | refine queue14_only (w.of (by decide)) ?_
    | refine sendAll_only (w.of (by decide)) ?_ | refine sendError_only (w.of (by decide)) ?_ | refine sendNext_only (w.of (by decide)) ?_
    | refine sendTo_only (w.of (by decide)) ?_ | refine setNbr_only (w.of (by decide)) ?_ | refine setRoute_only (w.of (by decide)) ?_
    | refine takeBroadcast_only (w.of (by decide)) ?_ | refine takeDatagram_only (w.of (by decide)) ?_
    | refine takeFragment_only (w.of (by decide)) ?_ | refine takeReply_only (w.of (by decide)) ?_
    | refine takeRequest_only (w.of (by decide)) ?_ | refine Only.ite (fun _ => ?_) (fun _ => ?_) | split

theorem plcFrame_only {a0 s} (w : Within 35913764 m) (h : Only m r s) : Only m r (plcFrame a0 s) := by
  unfold plcFrame
  with_reducible repeat' first
    | assumption | refine State_bumpLive_only (w.of (by decide)) ?_ | refine hearNbr_only (w.of (by decide)) ?_
    | refine plcTake_only (w.of (by decide)) ?_ | split

theorem drain15_only {a0 s} (w : Within 35913764 m) (h : Only m r s) : Only m r (drain15 a0 s) := by
  induction a0 generalizing s with
  | zero => exact h
  | succ _ ih =>
    unfold drain15
    with_reducible repeat' first
      | refine ih ?_ | assumption | refine plcFrame_only (w.of (by decide)) ?_ | refine setPlc_only (w.of (by decide)) ?_ | split

theorem pump15_only {s} (w : Within 35913764 m) (h : Only m r s) : Only m r (pump15 s) := by
  unfold pump15
  with_reducible repeat' first
    | assumption | refine drain15_only (w.of (by decide)) ?_ | split

theorem execPlcFrameReceive_only {a0 s t} (e : execPlcFrameReceive a0 s = .next t) (w : Within 35913764 m) (h : Only m r s) : Only m r t := by
  unfold execPlcFrameReceive at e
  injection e with e
  subst e
  with_reducible repeat' first
    | assumption | refine State_bump_only (w.of (by decide)) ?_ | refine pump15_only (w.of (by decide)) ?_
    | refine setPlc_only (w.of (by decide)) ?_ | split

theorem execRepeaterOfferChange_only {s t} (e : execRepeaterOfferChange s = .next t) (w : Within 35651620 m) (h : Only m r s) : Only m r t := by
  unfold execRepeaterOfferChange at e
  injection e with e
  subst e
  with_reducible repeat' first
    | assumption | refine State_event_only (w.of (by decide)) ?_ | refine State_putLive_only (w.of (by decide)) ?_
    | refine setPlc_only (w.of (by decide)) ?_ | split

theorem execRouteHoldExpiry_only {s t} (e : execRouteHoldExpiry s = .next t) (w : Within 2097152 m) (h : Only m r s) : Only m r t := by
  unfold execRouteHoldExpiry at e
  injection e with e
  subst e
  with_reducible repeat' first
    | assumption | refine setPlc_only (w.of (by decide)) ?_ | split

theorem annMay_only {s} (w : Within 2097152 m) (h : Only m r s) : Only m r (annMay s) := by
  unfold annMay
  with_reducible repeat' first
    | assumption | refine setPlc_only (w.of (by decide)) ?_

theorem strangerEnd_only {a0 s} (w : Within 35651620 m) (h : Only m r s) : Only m r (strangerEnd a0 s) := by
  unfold strangerEnd
  with_reducible repeat' first
    | assumption | refine State_event_only (w.of (by decide)) ?_ | refine State_putLive_only (w.of (by decide)) ?_
    | refine annMay_only (w.of (by decide)) ?_ | refine setPlc_only (w.of (by decide)) ?_ | refine startTx_only (w.of (by decide)) ?_
    | split

theorem execStrangerBlock_only {a0 s t} (e : execStrangerBlock a0 s = .next t) (w : Within 35651620 m) (h : Only m r s) : Only m r t := by
  unfold execStrangerBlock at e
  injection e with e
  subst e
  with_reducible repeat' first
    | assumption | refine setPlc_only (w.of (by decide)) ?_ | refine strangerEnd_only (w.of (by decide)) ?_
    | refine Only.ite (fun _ => ?_) (fun _ => ?_)

theorem execStrangerForced_only {s t} (e : execStrangerForced s = .next t) (w : Within 2097188 m) (h : Only m r s) : Only m r t := by
  unfold execStrangerForced at e
  injection e with e
  subst e
  with_reducible repeat' first
    | assumption | refine State_bumpLive_only (w.of (by decide)) ?_ | refine annMay_only (w.of (by decide)) ?_
    | refine forceTx_only (w.of (by decide)) ?_ | refine setPlc_only (w.of (by decide)) ?_ | refine Only.ite (fun _ => ?_) (fun _ => ?_)

end Sys2Proof.Machine
end

