-- ==== Sys2Proof/Laws/OnlyPortState.lean ====
section
/-! SUPPORT. Which parts the operations of these files change: PortState, LastGasp, Handover, Reinstate, PowerUp. -/

namespace Sys2Proof.Machine

variable {m : Nat} {r : State}

/-! ### PortState -/

theorem portCut_only {a0 s} (w : Within 1074036772 m) (h : Only m r s) : Only m r (portCut a0 s) := by
  unfold portCut
  with_reducible repeat' first
    | assumption | refine Only.foldl ?_ ?_ | refine State_putLive_only (w.of (by decide)) ?_
    | refine dropHolders_only (w.of (by decide)) ?_ | refine endTxns_only (w.of (by decide)) ?_
    | refine failTag_only (w.of (by decide)) ?_ | refine setSrv_only (w.of (by decide)) ?_ | intro _

theorem t1sStop_only {a0 s} (w : Within 1075085348 m) (h : Only m r s) : Only m r (t1sStop a0 s) := by
  unfold t1sStop
  with_reducible repeat' first
    | assumption | refine portCut_only (w.of (by decide)) ?_ | refine setT1s_only (w.of (by decide)) ?_

theorem plcStop_only {a0 s} (w : Within 1113882724 m) (h : Only m r s) : Only m r (plcStop a0 s) := by
  unfold plcStop
  with_reducible repeat' first
    | assumption | refine endPort_only (w.of (by decide)) ?_ | refine leavePan_only (w.of (by decide)) ?_
    | refine portCut_only (w.of (by decide)) ?_ | refine strangerEnd_only (w.of (by decide)) ?_ | refine tbOff_only (w.of (by decide)) ?_
    | refine Only.ite (fun _ => ?_) (fun _ => ?_)

theorem tbStart__only {a0 s} (w : Within 4194372 m) (h : Only m r s) : Only m r (tbStart_ a0 s) := by
  unfold tbStart_
  with_reducible repeat' first
    | assumption | refine tbOff_only (w.of (by decide)) ?_ | refine tbSearch_only (w.of (by decide)) ?_ | split

theorem plcStart_only {a0 s} (w : Within 39845988 m) (h : Only m r s) : Only m r (plcStart a0 s) := by
  unfold plcStart
  with_reducible repeat' first
    | assumption | refine State_putLive_only (w.of (by decide)) ?_ | refine leavePan_only (w.of (by decide)) ?_
    | refine setPlc_only (w.of (by decide)) ?_ | refine setTb_only (w.of (by decide)) ?_ | refine tbStart__only (w.of (by decide)) ?_

theorem selfTestFailed_only {a0 s} (w : Within 35474669796 m) (h : Only m r s) : Only m r (selfTestFailed a0 s) := by
  unfold selfTestFailed
  with_reducible repeat' first
    | assumption | refine plcStop_only (w.of (by decide)) ?_ | refine portSet_only (w.of (by decide)) ?_
    | refine setPortUnit_only (w.of (by decide)) ?_ | refine t1sStop_only (w.of (by decide)) ?_
    | refine Only.ite (fun _ => ?_) (fun _ => ?_)

theorem execPortWatchdog_only {a0 a1 s t} (e : execPortWatchdog a0 a1 s = .next t) (w : Within 35474669796 m) (h : Only m r s) : Only m r t := by
  unfold execPortWatchdog at e
  injection e with e
  subst e
  with_reducible repeat' first
    | assumption | refine portSet_only (w.of (by decide)) ?_ | refine selfTestFailed_only (w.of (by decide)) ?_
    | refine setPortUnit_only (w.of (by decide)) ?_ | split

/-! ### LastGasp -/

theorem supBit_only {a0 a1 s} (w : Within 132 m) (h : Only m r s) : Only m r (supBit a0 a1 s) := by
  unfold supBit
  with_reducible repeat' first
    | assumption | refine State_putV_only (w.of (by decide)) ?_

theorem setRtcValid_only {a0 s} (w : Within 132 m) (h : Only m r s) : Only m r (setRtcValid a0 s) := by
  unfold setRtcValid
  with_reducible repeat' first
    | assumption | refine State_putV_only (w.of (by decide)) ?_ | refine supBit_only (w.of (by decide)) ?_

theorem flushLive_only {s} (w : Within 100 m) (h : Only m r s) : Only m r (flushLive s) := by
  unfold flushLive
  with_reducible repeat' first
    | assumption | refine State_applyDue_only (w.of (by decide)) ?_ | refine State_endFrame_only (w.of (by decide)) ?_

theorem gaspFrame_only {a0 a1 a2 a3 s} (w : Within 8260 m) (h : Only m r s) : Only m r (gaspFrame a0 a1 a2 a3 s) := by
  unfold gaspFrame
  with_reducible repeat' first
    | assumption | refine demandAdd_only (w.of (by decide)) ?_ | refine enterAll_only (w.of (by decide)) ?_
    | refine gaspKeys_only (w.of (by decide)) ?_

theorem gaspCct_only {a0 a1 s} (w : Within 8260 m) (h : Only m r s) : Only m r (gaspCct a0 a1 s) := by
  unfold gaspCct
  with_reducible repeat' first
    | assumption | refine Only.foldl ?_ ?_ | refine gaspFrame_only (w.of (by decide)) ?_ | refine setFlag_only (w.of (by decide)) ?_
    | split | intro _

theorem gaspBase_only {a0 a1 s} (w : Within 68 m) (h : Only m r s) : Only m r (gaspBase a0 a1 s) := by
  unfold gaspBase
  with_reducible repeat' first
    | assumption | refine putTotal_only (w.of (by decide)) ?_ | refine Only.ite (fun _ => ?_) (fun _ => ?_) | split

theorem gaspBases_only {a0 s} (w : Within 68 m) (h : Only m r s) : Only m r (gaspBases a0 s) := by
  unfold gaspBases
  with_reducible repeat' first
    | assumption | refine Only.foldl ?_ ?_ | refine gaspBase_only (w.of (by decide)) ?_ | intro _

theorem endDetectors_only {s} (w : Within 33556484 m) (h : Only m r s) : Only m r (endDetectors s) := by
  unfold endDetectors
  with_reducible repeat' first
    | assumption | refine Only.foldl ?_ ?_ | refine groupEnd_only (w.of (by decide)) ?_ | refine niEnd_only (w.of (by decide)) ?_
    | refine ocEnd_only (w.of (by decide)) ?_ | refine plEnd_only (w.of (by decide)) ?_ | split | intro _

theorem numberEvents_only {s} (w : Within 33619972 m) (h : Only m r s) : Only m r (numberEvents s) := by
  unfold numberEvents
  with_reducible repeat' first
    | (simp only [Only.mk_eq]; refine Only.u_ring5 (w.of (by decide)) ?_) | assumption | refine Only.foldl ?_ ?_
    | refine numberEvent_only (w.of (by decide)) ?_ | intro _

theorem dropUnlogged_only {s} (w : Within 65540 m) (h : Only m r s) : Only m r (dropUnlogged s) := by
  unfold dropUnlogged
  with_reducible repeat' first
    | assumption | refine setTk_only (w.of (by decide)) ?_ | refine showLogs_only (w.of (by decide)) ?_

theorem abandonStores_only {a0 s} (w : Within 23622320128 m) (h : Only m r s) : Only m r (abandonStores a0 s) := by
  unfold abandonStores
  with_reducible repeat' first
    | (simp only [Only.mk_eq]; refine Only.u_jobs_rollq_seals (w.of (by decide)) ?_) | assumption | split

theorem completeOne_only {s} (w : Within 66605555844 m) (h : Only m r s) : Only m r (completeOne s) := by
  unfold completeOne
  with_reducible repeat' first
    | (simp only [Only.mk_eq]; refine Only.u_jobs_rollq (w.of (by decide)) ?_) | assumption
    | refine storeSealed_only (w.of (by decide)) ?_ | refine writeFrame_only (w.of (by decide)) ?_ | split

theorem powerCut_only {s} (w : Within 2146786816 m) (h : Only m r s) : Only m r (powerCut s) := by
  unfold powerCut
  with_reducible repeat' first
    | (simp only [Only.mk_eq]; refine Only.u_acq_aln_tan_cap_pulse_srv_t1s_plc_tb_dev_ready_ring5_staging_sealed_current_previous_pins (w.of (by decide)) ?_)
    | assumption | refine setTk_only (w.of (by decide)) ?_

theorem keepClock_only {s} (w : Within 8388608 m) (h : Only m r s) : Only m r (keepClock s) := by
  unfold keepClock
  with_reducible repeat' first
    | (simp only [Only.mk_eq]; refine Only.u_dev (w.of (by decide)) ?_) | assumption

theorem loseEvents_only {s} (w : Within 33554436 m) (h : Only m r s) : Only m r (loseEvents s) := by
  unfold loseEvents
  with_reducible repeat' first
    | (simp only [Only.mk_eq]; refine Only.u_ring5 (w.of (by decide)) ?_) | assumption | refine State_bumpBy_only (w.of (by decide)) ?_

theorem setJournal_only {a0 s} (w : Within 131072 m) (h : Only m r s) : Only m r (setJournal a0 s) := by
  unfold setJournal
  with_reducible repeat' first
    | (simp only [Only.mk_eq]; refine Only.u_pwr (w.of (by decide)) ?_) | assumption

theorem startGasp_only {a0 a1 a2 s} (w : Within 137438953190 m) (h : Only m r s) : Only m r (startGasp a0 a1 a2 s) := by
  unfold startGasp
  with_reducible repeat' first
    | assumption | refine Only.foldl ?_ ?_ | refine State_bump_only (w.of (by decide)) ?_ | refine State_put_only (w.of (by decide)) ?_
    | refine State_setMode_only (w.of (by decide)) ?_ | refine abandonStores_only (w.of (by decide)) ?_
    | refine completeOne_only (w.of (by decide)) ?_ | refine dropUnlogged_only (w.of (by decide)) ?_
    | refine endDetectors_only (w.of (by decide)) ?_ | refine flushLive_only (w.of (by decide)) ?_
    | refine gaspBases_only (w.of (by decide)) ?_ | refine gaspCct_only (w.of (by decide)) ?_
    | refine keepClock_only (w.of (by decide)) ?_ | refine loseEvents_only (w.of (by decide)) ?_
    | refine numberEvents_only (w.of (by decide)) ?_ | refine powerCut_only (w.of (by decide)) ?_
    | refine refreshCut_only (w.of (by decide)) ?_ | refine setCause_only (w.of (by decide)) ?_
    | refine setJournal_only (w.of (by decide)) ?_ | refine setSpi_only (w.of (by decide)) ?_ | split | intro _

theorem execPowerFailWarning_only {a0 a1 a2 s t} (e : execPowerFailWarning a0 a1 a2 s = .next t) (w : Within 137438953190 m) (h : Only m r s) : Only m r t := by
  unfold execPowerFailWarning at e
  injection e with e
  subst e
  with_reducible repeat' first
    | assumption | refine startGasp_only (w.of (by decide)) ?_ | split

theorem enterGecko_only {s} (w : Within 131076 m) (h : Only m r s) : Only m r (enterGecko s) := by
  unfold enterGecko
  with_reducible repeat' first
    | (simp only [Only.mk_eq]; refine Only.u_pwr (w.of (by decide)) ?_) | assumption | refine Only.foldl ?_ ?_
    | refine State_put_only (w.of (by decide)) ?_ | split | intro _

theorem enterOff_only {s} (w : Within 131204 m) (h : Only m r s) : Only m r (enterOff s) := by
  unfold enterOff
  with_reducible repeat' first
    | (simp only [Only.mk_eq]; refine Only.u_pwr (w.of (by decide)) ?_) | assumption | refine setRtcValid_only (w.of (by decide)) ?_

theorem enterMode_only {a0 s} (w : Within 131206 m) (h : Only m r s) : Only m r (enterMode a0 s) := by
  unfold enterMode
  with_reducible repeat' first
    | assumption | refine State_setMode_only (w.of (by decide)) ?_ | refine enterGecko_only (w.of (by decide)) ?_
    | refine enterOff_only (w.of (by decide)) ?_ | split

theorem writeStirrup_only {a0 a1 s} (w : Within 131072 m) (h : Only m r s) : Only m r (writeStirrup a0 a1 s) := by
  unfold writeStirrup
  with_reducible repeat' first
    | (simp only [Only.mk_eq]; refine Only.u_pwr (w.of (by decide)) ?_) | assumption

theorem gaspEnd_only {a0 a1 a2 a3 s} (w : Within 131076 m) (h : Only m r s) : Only m r (gaspEnd a0 a1 a2 a3 s) := by
  unfold gaspEnd
  with_reducible repeat' first
    | (simp only [Only.mk_eq]; refine Only.u_pwr (w.of (by decide)) ?_) | assumption | refine State_put_only (w.of (by decide)) ?_
    | refine writeStirrup_only (w.of (by decide)) ?_ | split

theorem execLastGaspComplete_only {a0 a1 s t} (e : execLastGaspComplete a0 a1 s = .next t) (w : Within 131206 m) (h : Only m r s) : Only m r t := by
  unfold execLastGaspComplete at e
  injection e with e
  subst e
  with_reducible repeat' first
    | assumption | refine State_bumpBy_only (w.of (by decide)) ?_ | refine enterMode_only (w.of (by decide)) ?_
    | refine gaspEnd_only (w.of (by decide)) ?_ | split

theorem execPfwNRelease_only {s t} (e : execPfwNRelease s = .next t) (w : Within 524288 m) (h : Only m r s) : Only m r t := by
  unfold execPfwNRelease at e
  injection e with e
  subst e
  with_reducible repeat' first
    | assumption | refine setSpi_only (w.of (by decide)) ?_ | split

/-! ### Handover -/

theorem showImage_only {a0 a1 s} (w : Within 68 m) (h : Only m r s) : Only m r (showImage a0 a1 s) := by
  unfold showImage
  with_reducible repeat' first
    | assumption | refine State_putDue_only (w.of (by decide)) ?_

theorem retryTag_only {a0 a1 s} (w : Within 262144 m) (h : Only m r s) : Only m r (retryTag a0 a1 s) := by
  unfold retryTag
  with_reducible repeat' first
    | assumption | refine failTag_only (w.of (by decide)) ?_ | refine finishTag_only (w.of (by decide)) ?_ | split

theorem restartCore_only {s} (w : Within 3241410560 m) (h : Only m r s) : Only m r (restartCore s) := by
  unfold restartCore
  with_reducible repeat' first
    | (simp only [Only.mk_eq]; refine Only.u_t1s_plc_ready_jobs (w.of (by decide)) ?_) | assumption | refine Only.foldl ?_ ?_
    | refine endTxns_only (w.of (by decide)) ?_ | refine retryTag_only (w.of (by decide)) ?_ | refine setSrv_only (w.of (by decide)) ?_
    | intro _

theorem execHandoverPrepared_only {a0 s t} (e : execHandoverPrepared a0 s = .next t) (w : Within 33587244 m) (h : Only m r s) : Only m r t := by
  unfold execHandoverPrepared at e
  injection e with e
  subst e
  with_reducible repeat' first
    | assumption | refine cancelHand_only (w.of (by decide)) ?_ | refine noteReject_only (w.of (by decide)) ?_
    | refine setHand_only (w.of (by decide)) ?_ | split

theorem execHandoverQuiesce_only {s t} (e : execHandoverQuiesce s = .next t) (w : Within 32768 m) (h : Only m r s) : Only m r t := by
  unfold execHandoverQuiesce at e
  injection e with e
  subst e
  with_reducible repeat' first
    | assumption | refine setHand_only (w.of (by decide)) ?_ | split

theorem execHandoverAtB_only {s t} (e : execHandoverAtB s = .next t) (w : Within 3241443364 m) (h : Only m r s) : Only m r t := by
  unfold execHandoverAtB at e
  injection e with e
  subst e
  with_reducible repeat' first
    | assumption | refine State_put_only (w.of (by decide)) ?_ | refine State_putLive_only (w.of (by decide)) ?_
    | refine restartCore_only (w.of (by decide)) ?_ | refine setHand_only (w.of (by decide)) ?_ | split

theorem execHandoverBankSwitch_only {s t} (e : execHandoverBankSwitch s = .next t) (w : Within 32836 m) (h : Only m r s) : Only m r t := by
  unfold execHandoverBankSwitch at e
  injection e with e
  subst e
  with_reducible repeat' first
    | assumption | refine setHand_only (w.of (by decide)) ?_ | refine showImage_only (w.of (by decide)) ?_ | split

theorem clearHand_only {s} (w : Within 32804 m) (h : Only m r s) : Only m r (clearHand s) := by
  unfold clearHand
  with_reducible repeat' first
    | assumption | refine State_putLive_only (w.of (by decide)) ?_ | refine endLease_only (w.of (by decide)) ?_
    | refine setHand_only (w.of (by decide)) ?_

theorem advanceSvn_only {a0 s} (w : Within 33554436 m) (h : Only m r s) : Only m r (advanceSvn a0 s) := by
  unfold advanceSvn
  with_reducible repeat' first
    | assumption | refine State_event_only (w.of (by decide)) ?_ | refine State_put_only (w.of (by decide)) ?_
    | refine Only.ite (fun _ => ?_) (fun _ => ?_)

theorem execHealthCheckPass_only {s t} (e : execHealthCheckPass s = .next t) (w : Within 33587236 m) (h : Only m r s) : Only m r t := by
  unfold execHealthCheckPass at e
  injection e with e
  subst e
  with_reducible repeat' first
    | assumption | refine State_bump_only (w.of (by decide)) ?_ | refine State_event_only (w.of (by decide)) ?_
    | refine State_put_only (w.of (by decide)) ?_ | refine advanceSvn_only (w.of (by decide)) ?_
    | refine clearHand_only (w.of (by decide)) ?_ | split

theorem execImageRevert_only {s t} (e : execImageRevert s = .next t) (w : Within 3274997860 m) (h : Only m r s) : Only m r t := by
  unfold execImageRevert at e
  injection e with e
  subst e
  with_reducible repeat' first
    | assumption | refine State_bump_only (w.of (by decide)) ?_ | refine State_event_only (w.of (by decide)) ?_
    | refine State_put_only (w.of (by decide)) ?_ | refine clearHand_only (w.of (by decide)) ?_
    | refine restartCore_only (w.of (by decide)) ?_ | refine showImage_only (w.of (by decide)) ?_ | split

/-! ### Reinstate -/

theorem execReinstate_only {a0 s t} (e : execReinstate a0 s = .next t) (w : Within 10737688576 m) (h : Only m r s) : Only m r t := by
  unfold execReinstate at e
  injection e with e
  subst e
  with_reducible repeat' first
    | assumption | refine answer_only (w.of (by decide)) ?_ | refine postCommit_only (w.of (by decide)) ?_
    | refine runMethod_only (w.of (by decide)) ?_ ?_ | refine waitTurn_only (w.of (by decide)) ?_
    | refine Only.ite (fun _ => ?_) (fun _ => ?_) | intro _

theorem unitBack_only {a0 a1 a2 s} (w : Within 4 m) (h : Only m r s) : Only m r (unitBack a0 a1 a2 s) := by
  unfold unitBack
  with_reducible repeat' first
    | assumption | refine State_put_only (w.of (by decide)) ?_

theorem blankLane_only {a0 s} (w : Within 548 m) (h : Only m r s) : Only m r (blankLane a0 s) := by
  unfold blankLane
  with_reducible repeat' first
    | assumption | refine Only.foldl ?_ ?_ | refine State_putLive_only (w.of (by decide)) ?_ | refine setEst_only (w.of (by decide)) ?_
    | refine setLane_only (w.of (by decide)) ?_ | intro _

theorem tableBack_only {a0 a1 s} (w : Within 36 m) (h : Only m r s) : Only m r (tableBack a0 a1 s) := by
  unfold tableBack
  with_reducible repeat' first
    | assumption | refine State_put_only (w.of (by decide)) ?_ | refine State_putLive_only (w.of (by decide)) ?_

theorem partnerBack_only {a0 a1 s} (w : Within 33554980 m) (h : Only m r s) : Only m r (partnerBack a0 a1 s) := by
  unfold partnerBack
  with_reducible repeat' first
    | assumption | refine setLane_only (w.of (by decide)) ?_ | refine tableBack_only (w.of (by decide)) ?_
    | refine unitSet_only (w.of (by decide)) ?_ | refine Only.ite (fun _ => ?_) (fun _ => ?_)

theorem laneBack_only {a0 a1 s} (w : Within 33556004 m) (h : Only m r s) : Only m r (laneBack a0 a1 s) := by
  unfold laneBack
  with_reducible repeat' first
    | (simp only [Only.mk_eq]; refine Only.u_acq (w.of (by decide)) ?_) | assumption | refine addSpan_only (w.of (by decide)) ?_
    | refine blankLane_only (w.of (by decide)) ?_ | refine lowRange_only (w.of (by decide)) ?_
    | refine partnerBack_only (w.of (by decide)) ?_ | refine recredit0_only (w.of (by decide)) ?_
    | refine restartStreams_only (w.of (by decide)) ?_ | refine tableBack_only (w.of (by decide)) ?_
    | refine unitBack_only (w.of (by decide)) ?_

theorem frameBack_only {a0 a1 s} (w : Within 103079215108 m) (h : Only m r s) : Only m r (frameBack a0 a1 s) := by
  unfold frameBack
  with_reducible repeat' first
    | (simp only [Only.mk_eq]; refine Only.u_units (w.of (by decide)) ?_) | assumption | refine State_draw_only (w.of (by decide)) ?_
    | refine State_put_only (w.of (by decide)) ?_ | refine Only.ite (fun _ => ?_) (fun _ => ?_)

theorem reinstateNow_only {a0 a1 a2 s} (w : Within 103120176868 m) (h : Only m r s) : Only m r (reinstateNow a0 a1 a2 s) := by
  unfold reinstateNow
  with_reducible repeat' first
    | assumption | refine State_event_only (w.of (by decide)) ?_ | refine State_put_only (w.of (by decide)) ?_
    | refine State_putV_only (w.of (by decide)) ?_ | refine frameBack_only (w.of (by decide)) ?_
    | refine laneBack_only (w.of (by decide)) ?_ | refine plcStart_only (w.of (by decide)) ?_ | refine setNbr_only (w.of (by decide)) ?_
    | refine setPortUnit_only (w.of (by decide)) ?_ | refine setSec_only (w.of (by decide)) ?_
    | refine t1sStart_only (w.of (by decide)) ?_ | refine tkPush_only (w.of (by decide)) ?_ | refine unitBack_only (w.of (by decide)) ?_
    | refine Only.ite (fun _ => ?_) (fun _ => ?_) | split

/-! ### PowerUp -/

theorem loadVal_only {a0 s} (w : Within 4 m) (h : Only m r s) : Only m r (loadVal a0 s) := by
  unfold loadVal
  with_reducible repeat' first
    | assumption | refine State_put_only (w.of (by decide)) ?_ | split

theorem forgetPage_only {a0 s} (w : Within 4 m) (h : Only m r s) : Only m r (forgetPage a0 s) := by
  unfold forgetPage
  with_reducible repeat' first
    | (simp only [Only.mk_eq]; refine Only.u_dict (w.of (by decide)) ?_) | assumption

theorem recallState_only {a0 a1 a2 a3 s} (w : Within 8590065664 m) (h : Only m r s) : Only m r (recallState a0 a1 a2 a3 s) := by
  unfold recallState
  with_reducible repeat' first
    | (simp only [Only.mk_eq]; refine Only.u_pwr_pages (w.of (by decide)) ?_) | assumption

theorem restoreEvent_only {a0 a1 s} (w : Within 33554436 m) (h : Only m r s) : Only m r (restoreEvent a0 a1 s) := by
  unfold restoreEvent
  with_reducible repeat' first
    | assumption | refine State_event_only (w.of (by decide)) ?_ | split

theorem recallBg_only {a0 a1 a2 s} (w : Within 131072 m) (h : Only m r s) : Only m r (recallBg a0 a1 a2 s) := by
  unfold recallBg
  with_reducible repeat' first
    | (simp only [Only.mk_eq]; refine Only.u_pwr (w.of (by decide)) ?_) | assumption | split

theorem recallPage_only {a0 s} (w : Within 8623620100 m) (h : Only m r s) : Only m r (recallPage a0 s) := by
  unfold recallPage
  with_reducible repeat' first
    | assumption | refine Only.foldl ?_ ?_ | refine forgetPage_only (w.of (by decide)) ?_ | refine loadVal_only (w.of (by decide)) ?_
    | refine recallBg_only (w.of (by decide)) ?_ | refine recallState_only (w.of (by decide)) ?_
    | refine restoreEvent_only (w.of (by decide)) ?_ | split | intro _

theorem storeOwn_only {s} (w : Within 25803358340 m) (h : Only m r s) : Only m r (storeOwn s) := by
  unfold storeOwn
  with_reducible repeat' first
    | assumption | refine Only.foldl ?_ ?_ | refine modPage_only (w.of (by decide)) ?_ | refine writeFrame_only (w.of (by decide)) ?_
    | intro _

theorem tearFrames_only {a0 s} (w : Within 17179869184 m) (h : Only m r s) : Only m r (tearFrames a0 s) := by
  unfold tearFrames
  with_reducible repeat' first
    | (simp only [Only.mk_eq]; refine Only.u_seals (w.of (by decide)) ?_) | assumption | refine Only.foldl ?_ ?_ | intro _

theorem dropVolatile_only {s} (w : Within 4 m) (h : Only m r s) : Only m r (dropVolatile s) := by
  unfold dropVolatile
  with_reducible repeat' first
    | (simp only [Only.mk_eq]; refine Only.u_dict (w.of (by decide)) ?_) | assumption

theorem recallPages_only {a0 s} (w : Within 25803489412 m) (h : Only m r s) : Only m r (recallPages a0 s) := by
  unfold recallPages
  with_reducible repeat' first
    | assumption | refine Only.foldl ?_ ?_ | refine State_event_only (w.of (by decide)) ?_ | refine State_put_only (w.of (by decide)) ?_
    | refine judgeLegal_only (w.of (by decide)) ?_ | refine judgeTwins_only (w.of (by decide)) ?_
    | refine recallPage_only (w.of (by decide)) ?_ | refine showPage_only (w.of (by decide)) ?_
    | refine tearFrames_only (w.of (by decide)) ?_ | split | intro _

theorem setTotal_only {a0 a1 s} (w : Within 4 m) (h : Only m r s) : Only m r (setTotal a0 a1 s) := by
  unfold setTotal
  with_reducible repeat' first
    | assumption | refine State_put_only (w.of (by decide)) ?_

theorem replayBase_only {a0 a1 s} (w : Within 4 m) (h : Only m r s) : Only m r (replayBase a0 a1 s) := by
  unfold replayBase
  with_reducible repeat' first
    | assumption | refine setTotal_only (w.of (by decide)) ?_ | split

theorem markBack_only {a0 a1 s} (w : Within 4 m) (h : Only m r s) : Only m r (markBack a0 a1 s) := by
  unfold markBack
  with_reducible repeat' first
    | assumption | refine State_put_only (w.of (by decide)) ?_

theorem markRestored_only {a0 s} (w : Within 4 m) (h : Only m r s) : Only m r (markRestored a0 s) := by
  unfold markRestored
  with_reducible repeat' first
    | assumption | refine Only.foldl ?_ ?_ | refine State_put_only (w.of (by decide)) ?_ | split | intro _

theorem replayBaseline_only {a0 s} (w : Within 4 m) (h : Only m r s) : Only m r (replayBaseline a0 s) := by
  unfold replayBaseline
  with_reducible repeat' first
    | assumption | refine Only.foldl ?_ ?_ | refine markBack_only (w.of (by decide)) ?_ | refine markRestored_only (w.of (by decide)) ?_
    | refine replayBase_only (w.of (by decide)) ?_ | split | intro _

theorem startTime_only {a0 a1 s} (w : Within 52 m) (h : Only m r s) : Only m r (startTime a0 a1 s) := by
  unfold startTime
  with_reducible repeat' first
    | assumption | refine State_put_only (w.of (by decide)) ?_ | refine noteTime_only (w.of (by decide)) ?_ | split

theorem setRtc_only {a0 a1 s} (w : Within 8388608 m) (h : Only m r s) : Only m r (setRtc a0 a1 s) := by
  unfold setRtc
  with_reducible repeat' first
    | (simp only [Only.mk_eq]; refine Only.u_dev (w.of (by decide)) ?_) | assumption

theorem decideTime_only {s} (w : Within 42467381 m) (h : Only m r s) : Only m r (decideTime s) := by
  unfold decideTime
  with_reducible repeat' first
    | assumption | refine State_bump_only (w.of (by decide)) ?_ | refine State_event_only (w.of (by decide)) ?_
    | refine State_put_only (w.of (by decide)) ?_ | refine State_setFn_only (w.of (by decide)) ?_
    | refine legacyEvent_only (w.of (by decide)) ?_ | refine setCause_only (w.of (by decide)) ?_
    | refine setRtc_only (w.of (by decide)) ?_ | refine startTime_only (w.of (by decide)) ?_ | split

theorem startLane_only {a0 a1 s} (w : Within 33554948 m) (h : Only m r s) : Only m r (startLane a0 a1 s) := by
  unfold startLane
  with_reducible repeat' first
    | assumption | refine State_put_only (w.of (by decide)) ?_ | refine setLane_only (w.of (by decide)) ?_
    | refine unitSet_only (w.of (by decide)) ?_ | refine Only.ite (fun _ => ?_) (fun _ => ?_)

theorem settleCoef_only {a0 a1 s} (w : Within 4 m) (h : Only m r s) : Only m r (settleCoef a0 a1 s) := by
  unfold settleCoef
  with_reducible repeat' first
    | assumption | refine State_put_only (w.of (by decide)) ?_

theorem startFront_only {a0 s} (w : Within 33555972 m) (h : Only m r s) : Only m r (startFront a0 s) := by
  unfold startFront
  with_reducible repeat' first
    | (simp only [Only.mk_eq]; refine Only.u_acq_aln (w.of (by decide)) ?_) | assumption | refine Only.foldl ?_ ?_
    | refine State_put_only (w.of (by decide)) ?_ | refine recredit0_only (w.of (by decide)) ?_
    | refine restartStreams_only (w.of (by decide)) ?_ | refine settleCoef_only (w.of (by decide)) ?_
    | refine startLane_only (w.of (by decide)) ?_ | intro _

theorem dropTrial_only {s} (w : Within 33587212 m) (h : Only m r s) : Only m r (dropTrial s) := by
  unfold dropTrial
  try dsimp only
  with_reducible repeat' first
    | (simp only [Only.mk_eq]; refine Only.u_commits_img (w.of (by decide)) ?_) | assumption
    | refine State_bump_only (w.of (by decide)) ?_ | refine State_event_only (w.of (by decide)) ?_
    | refine State_put_only (w.of (by decide)) ?_ | split

theorem pickSlot_only {a0 a1 s} (w : Within 33718276 m) (h : Only m r s) : Only m r (pickSlot a0 a1 s) := by
  unfold pickSlot
  with_reducible repeat' first
    | (simp only [Only.mk_eq]; refine Only.u_img_pwr (w.of (by decide)) ?_) | assumption | refine State_bump_only (w.of (by decide)) ?_
    | refine State_event_only (w.of (by decide)) ?_ | refine State_put_only (w.of (by decide)) ?_ | split

theorem opRevert_only {a0 s} (w : Within 32772 m) (h : Only m r s) : Only m r (opRevert a0 s) := by
  unfold opRevert
  with_reducible repeat' first
    | assumption | refine State_put_only (w.of (by decide)) ?_ | refine setHand_only (w.of (by decide)) ?_ | split

theorem boot_only {a0 s} (w : Within 33718342 m) (h : Only m r s) : Only m r (boot a0 s) := by
  unfold boot
  with_reducible repeat' first
    | assumption | refine State_bump_only (w.of (by decide)) ?_ | refine State_event_only (w.of (by decide)) ?_
    | refine State_setMode_only (w.of (by decide)) ?_ | refine opRevert_only (w.of (by decide)) ?_
    | refine pickSlot_only (w.of (by decide)) ?_ | refine showImage_only (w.of (by decide)) ?_
    | refine Only.ite (fun _ => ?_) (fun _ => ?_)

theorem startPorts_only {a0 s} (w : Within 34400632932 m) (h : Only m r s) : Only m r (startPorts a0 s) := by
  unfold startPorts
  with_reducible repeat' first
    | (simp only [Only.mk_eq]; refine Only.u_units (w.of (by decide)) ?_) | assumption | refine plcStart_only (w.of (by decide)) ?_
    | refine t1sStart_only (w.of (by decide)) ?_ | refine tbOff_only (w.of (by decide)) ?_ | refine Only.ite (fun _ => ?_) (fun _ => ?_)

theorem cutKeys_only {a0 s} (w : Within 4 m) (h : Only m r s) : Only m r (cutKeys a0 s) := by
  unfold cutKeys
  with_reducible repeat' first
    | assumption | refine Only.foldl ?_ ?_ | refine State_put_only (w.of (by decide)) ?_ | split | intro _

theorem damagedSlots_only {s} (w : Within 4 m) (h : Only m r s) : Only m r (damagedSlots s) := by
  unfold damagedSlots
  with_reducible repeat' first
    | assumption | refine Only.foldl ?_ ?_ | refine State_put_only (w.of (by decide)) ?_ | refine Only.ite (fun _ => ?_) (fun _ => ?_)
    | intro _

theorem carryCommits_only {a0 s} (w : Within 264 m) (h : Only m r s) : Only m r (carryCommits a0 s) := by
  unfold carryCommits
  with_reducible repeat' first
    | (simp only [Only.mk_eq]; refine Only.u_commits_gens (w.of (by decide)) ?_) | assumption

theorem geckoExit_only {a0 s} (w : Within 131076 m) (h : Only m r s) : Only m r (geckoExit a0 s) := by
  unfold geckoExit
  with_reducible repeat' first
    | (simp only [Only.mk_eq]; refine Only.u_pwr (w.of (by decide)) ?_) | assumption | refine State_put_only (w.of (by decide)) ?_

theorem startBill_only {a0 s} (w : Within 8192 m) (h : Only m r s) : Only m r (startBill a0 s) := by
  unfold startBill
  with_reducible repeat' first
    | (simp only [Only.mk_eq]; refine Only.u_bill (w.of (by decide)) ?_) | assumption

theorem freshStart_only {s} (w : Within 688368 m) (h : Only m r s) : Only m r (freshStart s) := by
  unfold freshStart
  with_reducible repeat' first
    | (simp only [Only.mk_eq]; refine Only.u_times_chg_due_olds_img_pwr_spi (w.of (by decide)) ?_) | assumption

theorem showLoads_only {a0 s} (w : Within 36 m) (h : Only m r s) : Only m r (showLoads a0 s) := by
  unfold showLoads
  with_reducible repeat' first
    | assumption | refine State_putLive_only (w.of (by decide)) ?_

theorem noteStart_only {a0 s} (w : Within 131072 m) (h : Only m r s) : Only m r (noteStart a0 s) := by
  unfold noteStart
  with_reducible repeat' first
    | (simp only [Only.mk_eq]; refine Only.u_pwr (w.of (by decide)) ?_) | assumption

theorem startBand_only {a0 s} (w : Within 36 m) (h : Only m r s) : Only m r (startBand a0 s) := by
  unfold startBand
  with_reducible repeat' first
    | assumption | refine State_putLive_only (w.of (by decide)) ?_

theorem startRun_only {a0 s} (w : Within 34400806766 m) (h : Only m r s) : Only m r (startRun a0 s) := by
  unfold startRun
  with_reducible repeat' first
    | assumption | refine State_putLive_only (w.of (by decide)) ?_ | refine boot_only (w.of (by decide)) ?_
    | refine carryCommits_only (w.of (by decide)) ?_ | refine damagedSlots_only (w.of (by decide)) ?_
    | refine noteStart_only (w.of (by decide)) ?_ | refine showLoads_only (w.of (by decide)) ?_
    | refine showManifest_only (w.of (by decide)) ?_ | refine startBand_only (w.of (by decide)) ?_
    | refine startBill_only (w.of (by decide)) ?_ | refine startFront_only (w.of (by decide)) ?_
    | refine startPorts_only (w.of (by decide)) ?_

theorem takeLate_only {s} (w : Within 131072 m) (h : Only m r s) : Only m r (takeLate s) := by
  unfold takeLate
  with_reducible repeat' first
    | (simp only [Only.mk_eq]; refine Only.u_pwr (w.of (by decide)) ?_) | assumption

theorem upWaits_only {a0 s} (w : Within 131072 m) (h : Only m r s) : Only m r (upWaits a0 s) := by
  unfold upWaits
  with_reducible repeat' first
    | (simp only [Only.mk_eq]; refine Only.u_pwr (w.of (by decide)) ?_) | assumption

theorem eraseOut_only {s} (w : Within 65536 m) (h : Only m r s) : Only m r (eraseOut s) := by
  unfold eraseOut
  with_reducible repeat' first
    | assumption | refine Only.foldl ?_ ?_ | refine tkPush_only (w.of (by decide)) ?_ | intro _

theorem coldStart_only {a0 s} (w : Within 60179589119 m) (h : Only m r s) : Only m r (coldStart a0 s) := by
  unfold coldStart
  with_reducible repeat' first
    | assumption | refine State_bump_only (w.of (by decide)) ?_ | refine State_put_only (w.of (by decide)) ?_
    | refine State_setFn_only (w.of (by decide)) ?_ | refine cutKeys_only (w.of (by decide)) ?_
    | refine decideTime_only (w.of (by decide)) ?_ | refine dropTrial_only (w.of (by decide)) ?_
    | refine dropVolatile_only (w.of (by decide)) ?_ | refine eraseOut_only (w.of (by decide)) ?_
    | refine freshStart_only (w.of (by decide)) ?_ | refine recallPages_only (w.of (by decide)) ?_
    | refine replayBaseline_only (w.of (by decide)) ?_ | refine setRtcValid_only (w.of (by decide)) ?_
    | refine startRun_only (w.of (by decide)) ?_ | refine storeOwn_only (w.of (by decide)) ?_ | refine takeLate_only (w.of (by decide)) ?_
    | refine upWaits_only (w.of (by decide)) ?_

theorem execPowerGood_only {a0 s t} (e : execPowerGood a0 s = .next t) (w : Within 60179589119 m) (h : Only m r s) : Only m r t := by
  unfold execPowerGood at e
  injection e with e
  subst e
  with_reducible repeat' first
    | assumption | refine coldStart_only (w.of (by decide)) ?_ | refine geckoExit_only (w.of (by decide)) ?_ | split

end Sys2Proof.Machine
end

