-- ==== Sys2Proof/Laws/OnlyBillingResume.lean ====
section
/-! SUPPORT. Which parts the operations of these files change: BillingResume, Supply, Gecko. -/

namespace Sys2Proof.Machine

variable {m : Nat} {r : State}

/-! ### BillingResume -/

theorem recallCct_only {a0 a1 s} (w : Within 8192 m) (h : Only m r s) : Only m r (recallCct a0 a1 s) := by
  unfold recallCct
  with_reducible repeat' first
    | assumption | refine setC_only (w.of (by decide)) ?_

theorem replaySlot_only {a0 a1 a2 a3 a4 a5 s} (w : Within 68 m) (h : Only m r s) : Only m r (replaySlot a0 a1 a2 a3 a4 a5 s).2 := by
  unfold replaySlot
  with_reducible repeat' first
    | assumption | refine Only.foldl ?_ ?_ | refine regAdd_only (w.of (by decide)) ?_ | refine setFlag_only (w.of (by decide)) ?_
    | refine Only.ite (fun _ => ?_) (fun _ => ?_) | split | intro _

theorem replaySlot_only' {a0 a1 a2 a3 a4 a5 s x t} (e : replaySlot a0 a1 a2 a3 a4 a5 s = (x, t)) (w : Within 68 m) (h : Only m r s) : Only m r t := by
  have k := replaySlot_only (m := m) (r := r) (a0 := a0) (a1 := a1) (a2 := a2) (a3 := a3) (a4 := a4) (a5 := a5) (s := s) w h
  rw [e] at k; exact k

theorem replayCct_only {a0 a1 a2 s} (w : Within 8260 m) (h : Only m r s) : Only m r (replayCct a0 a1 a2 s) := by
  unfold replayCct
  with_reducible repeat' first
    | assumption | refine replaySlot_only (w.of (by decide)) ?_ | refine setC_only (w.of (by decide)) ?_
    | refine setFlag_only (w.of (by decide)) ?_ | refine Only.ite (fun _ => ?_) (fun _ => ?_)

theorem replayTail_only {a0 s} (w : Within 33751044 m) (h : Only m r s) : Only m r (replayTail a0 s) := by
  unfold replayTail
  with_reducible repeat' first
    | (simp only [Only.mk_eq]; refine Only.u_pwr (w.of (by decide)) ?_) | assumption | refine Only.foldl ?_ ?_
    | refine State_bumpBy_only (w.of (by decide)) ?_ | refine State_event_only (w.of (by decide)) ?_
    | refine setTk_only (w.of (by decide)) ?_ | refine showLogs_only (w.of (by decide)) ?_ | refine tkPush_only (w.of (by decide)) ?_
    | refine Only.ite (fun _ => ?_) (fun _ => ?_) | intro _

theorem redoClose_only {a0 a1 s} (w : Within 68 m) (h : Only m r s) : Only m r (redoClose a0 a1 s) := by
  unfold redoClose
  with_reducible repeat' first
    | assumption | refine clearMaxima_only (w.of (by decide)) ?_ | split

theorem deriveTotals_only {a0 a1 s} (w : Within 68 m) (h : Only m r s) : Only m r (deriveTotals a0 a1 s) := by
  unfold deriveTotals
  with_reducible repeat' first
    | assumption | refine Only.foldl ?_ ?_ | refine putReg_only (w.of (by decide)) ?_ | intro _

theorem totalsBack_only {a0 a1 s} (w : Within 33554500 m) (h : Only m r s) : Only m r (totalsBack a0 a1 s) := by
  unfold totalsBack
  with_reducible repeat' first
    | assumption | refine Only.foldl ?_ ?_ | refine checkTotals_only (w.of (by decide)) ?_
    | refine deriveTotals_only (w.of (by decide)) ?_ | refine regAdd_only (w.of (by decide)) ?_
    | refine Only.ite (fun _ => ?_) (fun _ => ?_) | intro _

theorem unitBack__only {a0 a1 s} (w : Within 8260 m) (h : Only m r s) : Only m r (unitBack_ a0 a1 s) := by
  unfold unitBack_
  with_reducible repeat' first
    | assumption | refine Only.foldl ?_ ?_ | refine deriveTotals_only (w.of (by decide)) ?_ | refine rescaleReg_only (w.of (by decide)) ?_
    | refine setC_only (w.of (by decide)) ?_ | split | intro _

theorem rebuildHist_only {s} (w : Within 8192 m) (h : Only m r s) : Only m r (rebuildHist s) := by
  unfold rebuildHist
  with_reducible repeat' first
    | (simp only [Only.mk_eq]; refine Only.u_bill (w.of (by decide)) ?_) | assumption

theorem journalShort_only {a0 s} (w : Within 33554436 m) (h : Only m r s) : Only m r (journalShort a0 s) := by
  unfold journalShort
  with_reducible repeat' first
    | assumption | refine State_bump_only (w.of (by decide)) ?_ | refine State_event_only (w.of (by decide)) ?_

theorem replayJournal_only {a0 s} (w : Within 33759300 m) (h : Only m r s) : Only m r (replayJournal a0 s) := by
  unfold replayJournal
  with_reducible repeat' first
    | (simp only [Only.mk_eq]; refine Only.u_bill (w.of (by decide)) ?_)
    | (simp only [Only.mk_eq]; refine Only.u_pwr (w.of (by decide)) ?_) | assumption | refine Only.foldl ?_ ?_
    | refine State_bump_only (w.of (by decide)) ?_ | refine State_event_only (w.of (by decide)) ?_
    | refine journalShort_only (w.of (by decide)) ?_ | refine rebuildHist_only (w.of (by decide)) ?_
    | refine recallCct_only (w.of (by decide)) ?_ | refine redoClose_only (w.of (by decide)) ?_
    | refine replayCct_only (w.of (by decide)) ?_ | refine replayTail_only (w.of (by decide)) ?_
    | refine totalsBack_only (w.of (by decide)) ?_ | refine unitBack__only (w.of (by decide)) ?_ | split | intro _

theorem evalClosing_only {a0 a1 s} (w : Within 33562692 m) (h : Only m r s) : Only m r (evalClosing a0 a1 s) := by
  unfold evalClosing
  try dsimp only
  with_reducible repeat' first
    | assumption | refine evalIvl_only (w.of (by decide)) ?_ | refine evalMaxima_only (w.of (by decide)) ?_
    | refine setC_only (w.of (by decide)) ?_ | split

theorem startCauses_only {s} (w : Within 33562628 m) (h : Only m r s) : Only m r (startCauses s) := by
  unfold startCauses
  with_reducible repeat' first
    | assumption | refine raiseStale_only (w.of (by decide)) ?_ | refine Only.ite (fun _ => ?_) (fun _ => ?_)

theorem storeNow_only {a0 s} (w : Within 66605555844 m) (h : Only m r s) : Only m r (storeNow a0 s) := by
  unfold storeNow
  with_reducible repeat' first
    | assumption | refine holdSlots_only (w.of (by decide)) ?_ | refine storeSealed_only (w.of (by decide)) ?_
    | refine writeFrame_only (w.of (by decide)) ?_

theorem rollOne_only {a0 a1 s} (w : Within 66605555908 m) (h : Only m r s) : Only m r (rollOne a0 a1 s) := by
  unfold rollOne
  with_reducible repeat' first
    | assumption | refine Only.foldl ?_ ?_ | refine checkTotals_only (w.of (by decide)) ?_ | refine keepRatios_only (w.of (by decide)) ?_
    | refine modPage_only (w.of (by decide)) ?_ | refine storeNow_only (w.of (by decide)) ?_ | intro _

theorem rollNow_only {a0 a1 s} (w : Within 66605555908 m) (h : Only m r s) : Only m r (rollNow a0 a1 s) := by
  unfold rollNow
  with_reducible repeat' first
    | assumption | refine Only.foldl ?_ ?_ | refine State_bump_only (w.of (by decide)) ?_ | refine rollOne_only (w.of (by decide)) ?_
    | split | intro _

theorem makeRoom_only {a0 s} (w : Within 66605555908 m) (h : Only m r s) : Only m r (makeRoom a0 s) := by
  unfold makeRoom
  with_reducible repeat' first
    | assumption | refine rollNow_only (w.of (by decide)) ?_

theorem finishSteps_only {a0 s} (w : Within 66605555908 m) (h : Only m r s) : Only m r (finishSteps a0 s) := by
  unfold finishSteps
  with_reducible repeat' first
    | assumption | refine Only.foldl ?_ ?_ | refine boundaries_only (w.of (by decide)) ?_ | refine makeRoom_only (w.of (by decide)) ?_
    | intro _

theorem resumeIvl_only {a0 a1 s} (w : Within 66605555908 m) (h : Only m r s) : Only m r (resumeIvl a0 a1 s).2 := by
  unfold resumeIvl
  try dsimp only
  with_reducible repeat' first
    | assumption | refine closeIvl_only (w.of (by decide)) ?_ | refine rollNow_only (w.of (by decide)) ?_
    | refine setC_only (w.of (by decide)) ?_ | split

theorem resumeIvl_only' {a0 a1 s x t} (e : resumeIvl a0 a1 s = (x, t)) (w : Within 66605555908 m) (h : Only m r s) : Only m r t := by
  have k := resumeIvl_only (m := m) (r := r) (a0 := a0) (a1 := a1) (s := s) w h
  rw [e] at k; exact k

theorem resumeIvls_only {a0 a1 s} (w : Within 66605555908 m) (h : Only m r s) : Only m r (resumeIvls a0 a1 s).2 := by
  induction a1 generalizing s with
  | nil => exact h
  | cons _ l ih =>
    have ih' : ∀ {x t u}, resumeIvls a0 l u = (x, t) → Only m r u → Only m r t := fun {x t u} e h => by
      have k : Only m r (resumeIvls a0 l u).2 := ih h; rw [e] at k; exact k
    unfold resumeIvls
    with_reducible repeat' first
      | refine ih ?_ | assumption | refine resumeIvl_only (w.of (by decide)) ?_

theorem resumeIvls_only' {a0 a1 s x t} (e : resumeIvls a0 a1 s = (x, t)) (w : Within 66605555908 m) (h : Only m r s) : Only m r t := by
  have k := resumeIvls_only (m := m) (r := r) (a0 := a0) (a1 := a1) (s := s) w h
  rw [e] at k; exact k

theorem setNext_only {a0 s} (w : Within 8192 m) (h : Only m r s) : Only m r (setNext a0 s) := by
  unfold setNext
  with_reducible repeat' first
    | (simp only [Only.mk_eq]; refine Only.u_bill (w.of (by decide)) ?_) | assumption

theorem setRunning_only {a0 s} (w : Within 8192 m) (h : Only m r s) : Only m r (setRunning a0 s) := by
  unfold setRunning
  with_reducible repeat' first
    | (simp only [Only.mk_eq]; refine Only.u_bill (w.of (by decide)) ?_) | assumption

theorem replayOnce_only {a0 s} (w : Within 33759300 m) (h : Only m r s) : Only m r (replayOnce a0 s) := by
  unfold replayOnce
  with_reducible repeat' first
    | assumption | refine replayJournal_only (w.of (by decide)) ?_ | split

theorem redoSteps_only {a0 a1 s} (w : Within 66605555908 m) (h : Only m r s) : Only m r (redoSteps a0 a1 s) := by
  unfold redoSteps
  try dsimp only
  with_reducible repeat' first
    | assumption | refine Only.foldl ?_ ?_ | refine evalClosing_only (w.of (by decide)) ?_ | refine finishSteps_only (w.of (by decide)) ?_
    | split | intro _

theorem resumeBounds_only {a0 s} (w : Within 66605555908 m) (h : Only m r s) : Only m r (resumeBounds a0 s) := by
  unfold resumeBounds
  split
  rename_i e
  exact boundaries_only (w.of (by decide)) (makeRoom_only (w.of (by decide)) (resumeIvls_only' e (w.of (by decide)) h))

theorem resumeAt_only {a0 s} (w : Within 66605752516 m) (h : Only m r s) : Only m r (resumeAt a0 s) := by
  unfold resumeAt
  with_reducible repeat' first
    | assumption | refine State_put_only (w.of (by decide)) ?_ | refine redoSteps_only (w.of (by decide)) ?_
    | refine replayOnce_only (w.of (by decide)) ?_ | refine resumeBounds_only (w.of (by decide)) ?_
    | refine setNext_only (w.of (by decide)) ?_ | refine setRunning_only (w.of (by decide)) ?_
    | refine showCalendar_only (w.of (by decide)) ?_ | refine startCauses_only (w.of (by decide)) ?_

theorem execBillingResume_only {s t} (e : execBillingResume s = .next t) (w : Within 66605752516 m) (h : Only m r s) : Only m r t := by
  unfold execBillingResume at e
  injection e with e
  subst e
  with_reducible repeat' first
    | assumption | refine resumeAt_only (w.of (by decide)) ?_ | split

/-! ### Supply -/

theorem execHoldOk_only {a0 s t} (e : execHoldOk a0 s = .next t) (w : Within 33554564 m) (h : Only m r s) : Only m r t := by
  unfold execHoldOk at e
  injection e with e
  subst e
  with_reducible repeat' first
    | assumption | refine State_event_only (w.of (by decide)) ?_ | refine State_put_only (w.of (by decide)) ?_
    | refine supBit_only (w.of (by decide)) ?_ | refine Only.ite (fun _ => ?_) (fun _ => ?_)

theorem execHoldFault_only {a0 s t} (e : execHoldFault a0 s = .next t) (w : Within 33554564 m) (h : Only m r s) : Only m r t := by
  unfold execHoldFault at e
  injection e with e
  subst e
  with_reducible repeat' first
    | assumption | refine State_event_only (w.of (by decide)) ?_ | refine supBit_only (w.of (by decide)) ?_ | split

theorem vbatBits_only {a0 s} (w : Within 132 m) (h : Only m r s) : Only m r (vbatBits a0 s) := by
  unfold vbatBits
  with_reducible repeat' first
    | assumption | refine supBit_only (w.of (by decide)) ?_

theorem noteVbat_only {a0 s} (w : Within 33685636 m) (h : Only m r s) : Only m r (noteVbat a0 s) := by
  unfold noteVbat
  with_reducible repeat' first
    | (simp only [Only.mk_eq]; refine Only.u_pwr (w.of (by decide)) ?_) | assumption | refine State_event_only (w.of (by decide)) ?_
    | refine vbatBits_only (w.of (by decide)) ?_ | refine Only.ite (fun _ => ?_) (fun _ => ?_)

theorem execVbatMeasure_only {a0 a1 a2 a3 s t} (e : execVbatMeasure a0 a1 a2 a3 s = .next t) (w : Within 33685668 m) (h : Only m r s) : Only m r t := by
  unfold execVbatMeasure at e
  injection e with e
  subst e
  with_reducible repeat' first
    | assumption | refine State_putLive_only (w.of (by decide)) ?_ | refine noteVbat_only (w.of (by decide)) ?_ | split

theorem execVbatCollapse_only {s t} (e : execVbatCollapse s = .next t) (w : Within 132 m) (h : Only m r s) : Only m r t := by
  unfold execVbatCollapse at e
  injection e with e
  subst e
  with_reducible repeat' first
    | assumption | refine setRtcValid_only (w.of (by decide)) ?_ | split

theorem execRtcCountAdvance_only {s t} (e : execRtcCountAdvance s = .next t) (w : Within 8388608 m) (h : Only m r s) : Only m r t := by
  unfold execRtcCountAdvance at e
  injection e with e
  subst e
  with_reducible repeat' first
    | (simp only [Only.mk_eq]; refine Only.u_dev (w.of (by decide)) ?_) | assumption | split

theorem tamperChange_only {a0 a1 s} (w : Within 33685508 m) (h : Only m r s) : Only m r (tamperChange a0 a1 s) := by
  unfold tamperChange
  with_reducible repeat' first
    | (simp only [Only.mk_eq]; refine Only.u_pwr (w.of (by decide)) ?_) | assumption | refine State_bump_only (w.of (by decide)) ?_
    | refine State_event_only (w.of (by decide)) ?_ | refine Only.ite (fun _ => ?_) (fun _ => ?_)

theorem tamperInput_only {a0 a1 s} (w : Within 33685636 m) (h : Only m r s) : Only m r (tamperInput a0 a1 s) := by
  unfold tamperInput
  with_reducible repeat' first
    | (simp only [Only.mk_eq]; refine Only.u_pwr (w.of (by decide)) ?_) | assumption | refine State_putV_only (w.of (by decide)) ?_
    | refine tamperChange_only (w.of (by decide)) ?_ | refine Only.ite (fun _ => ?_) (fun _ => ?_)

theorem execTamperSample_only {a0 a1 s t} (e : execTamperSample a0 a1 s = .next t) (w : Within 33685636 m) (h : Only m r s) : Only m r t := by
  unfold execTamperSample at e
  injection e with e
  subst e
  with_reducible repeat' first
    | assumption | refine tamperInput_only (w.of (by decide)) ?_ | split

theorem logLate_only {a0 s} (w : Within 589828 m) (h : Only m r s) : Only m r (logLate a0 s) := by
  unfold logLate
  with_reducible repeat' first
    | assumption | refine State_put_only (w.of (by decide)) ?_ | refine eventFlags_only (w.of (by decide)) ?_
    | refine numberEvent_only (w.of (by decide)) ?_ | split

theorem closeCapture_only {a0 s} (w : Within 69632 m) (h : Only m r s) : Only m r (closeCapture a0 s) := by
  unfold closeCapture
  with_reducible repeat' first
    | (simp only [Only.mk_eq]; refine Only.u_cap (w.of (by decide)) ?_) | assumption | refine tkPush_only (w.of (by decide)) ?_
    | refine Only.ite (fun _ => ?_) (fun _ => ?_)

theorem hostJournal_only {s} (w : Within 131076 m) (h : Only m r s) : Only m r (hostJournal s) := by
  unfold hostJournal
  with_reducible repeat' first
    | (simp only [Only.mk_eq]; refine Only.u_pwr (w.of (by decide)) ?_) | assumption | refine State_put_only (w.of (by decide)) ?_ | split

theorem execOperationalCoreReady_only {s t} (e : execOperationalCoreReady s = .next t) (w : Within 17502212 m) (h : Only m r s) : Only m r t := by
  unfold execOperationalCoreReady at e
  injection e with e
  subst e
  with_reducible repeat' first
    | (simp only [Only.mk_eq]; refine Only.u_pwr (w.of (by decide)) ?_)
    | (simp only [Only.mk_eq]; refine Only.u_ready (w.of (by decide)) ?_) | assumption | refine Only.foldl ?_ ?_
    | refine closeCapture_only (w.of (by decide)) ?_ | refine hostJournal_only (w.of (by decide)) ?_
    | refine legacyEvent_only (w.of (by decide)) ?_ | refine logLate_only (w.of (by decide)) ?_
    | refine setCause_only (w.of (by decide)) ?_ | refine Only.ite (fun _ => ?_) (fun _ => ?_) | intro _

theorem finishStore_only {s} (w : Within 66605555844 m) (h : Only m r s) : Only m r (finishStore s) := by
  unfold finishStore
  with_reducible repeat' first
    | (simp only [Only.mk_eq]; refine Only.u_jobs_rollq (w.of (by decide)) ?_) | assumption | refine Only.foldl ?_ ?_
    | refine storeSealed_only (w.of (by decide)) ?_ | refine takeWrite_only (w.of (by decide)) ?_
    | refine writeFrame_only (w.of (by decide)) ?_ | split | intro _

theorem warmCut_only {s} (w : Within 2147442176 m) (h : Only m r s) : Only m r (warmCut s) := by
  unfold warmCut
  with_reducible repeat' first
    | (simp only [Only.mk_eq]; refine Only.u_tan_cap_tk_pwr_spi_ring5 (w.of (by decide)) ?_) | assumption
    | refine powerCut_only (w.of (by decide)) ?_

theorem checkGap_only {a0 s} (w : Within 131076 m) (h : Only m r s) : Only m r (checkGap a0 s) := by
  unfold checkGap
  with_reducible repeat' first
    | (simp only [Only.mk_eq]; refine Only.u_pwr (w.of (by decide)) ?_) | assumption | refine State_put_only (w.of (by decide)) ?_

theorem keepBill_only {a0 a1 s} (w : Within 8192 m) (h : Only m r s) : Only m r (keepBill a0 a1 s) := by
  unfold keepBill
  with_reducible repeat' first
    | (simp only [Only.mk_eq]; refine Only.u_bill (w.of (by decide)) ?_) | assumption

theorem warmHand_only {a0 s} (w : Within 33587212 m) (h : Only m r s) : Only m r (warmHand a0 s) := by
  unfold warmHand
  with_reducible repeat' first
    | assumption | refine dropTrial_only (w.of (by decide)) ?_ | refine setHand_only (w.of (by decide)) ?_ | split

theorem warmClear_only {s} (w : Within 164068 m) (h : Only m r s) : Only m r (warmClear s) := by
  unfold warmClear
  with_reducible repeat' first
    | (simp only [Only.mk_eq]; refine Only.u_dict_chg_due_olds_img_pwr (w.of (by decide)) ?_) | assumption

theorem warmTime_only {s} (w : Within 8388661 m) (h : Only m r s) : Only m r (warmTime s) := by
  unfold warmTime
  with_reducible repeat' first
    | assumption | refine State_put_only (w.of (by decide)) ?_ | refine State_setFn_only (w.of (by decide)) ?_
    | refine noteTime_only (w.of (by decide)) ?_ | refine setRtc_only (w.of (by decide)) ?_ | split

theorem trialOn_only {a0 a1 s} (w : Within 131140 m) (h : Only m r s) : Only m r (trialOn a0 a1 s) := by
  unfold trialOn
  with_reducible repeat' first
    | (simp only [Only.mk_eq]; refine Only.u_pwr (w.of (by decide)) ?_) | assumption | refine showImage_only (w.of (by decide)) ?_ | split

theorem markUp_only {s} (w : Within 131072 m) (h : Only m r s) : Only m r (markUp s) := by
  unfold markUp
  with_reducible repeat' first
    | (simp only [Only.mk_eq]; refine Only.u_pwr (w.of (by decide)) ?_) | assumption

theorem warmStart_only {a0 a1 s} (w : Within 68719476735 m) (h : Only m r s) : Only m r (warmStart a0 a1 s) := by
  unfold warmStart
  with_reducible repeat' first
    | assumption | refine State_bump_only (w.of (by decide)) ?_ | refine State_put_only (w.of (by decide)) ?_
    | refine checkGap_only (w.of (by decide)) ?_ | refine finishStore_only (w.of (by decide)) ?_
    | refine flushLive_only (w.of (by decide)) ?_ | refine keepBill_only (w.of (by decide)) ?_ | refine markUp_only (w.of (by decide)) ?_
    | refine startRun_only (w.of (by decide)) ?_ | refine supBit_only (w.of (by decide)) ?_ | refine trialOn_only (w.of (by decide)) ?_
    | refine warmClear_only (w.of (by decide)) ?_ | refine warmCut_only (w.of (by decide)) ?_ | refine warmHand_only (w.of (by decide)) ?_
    | refine warmTime_only (w.of (by decide)) ?_

theorem execWarmReset_only {a0 a1 s t} (e : execWarmReset a0 a1 s = .next t) (w : Within 68719476735 m) (h : Only m r s) : Only m r t := by
  unfold execWarmReset at e
  injection e with e
  subst e
  with_reducible repeat' first
    | assumption | refine warmStart_only (w.of (by decide)) ?_ | split

theorem romSlot_only {a0 s} (w : Within 294916 m) (h : Only m r s) : Only m r (romSlot a0 s) := by
  unfold romSlot
  with_reducible repeat' first
    | (simp only [Only.mk_eq]; refine Only.u_img (w.of (by decide)) ?_) | assumption | refine State_put_only (w.of (by decide)) ?_
    | refine answer_only (w.of (by decide)) ?_

theorem romActivate_only {a0 s} (w : Within 68719476735 m) (h : Only m r s) : Only m r (romActivate a0 s) := by
  unfold romActivate
  with_reducible repeat' first
    | assumption | refine romSlot_only (w.of (by decide)) ?_ | refine warmStart_only (w.of (by decide)) ?_

theorem activateOp_only {a0 a1 a2 s} (w : Within 68719476735 m) (h : Only m r s) : Only m r (activateOp a0 a1 a2 s) := by
  unfold activateOp
  with_reducible repeat' first
    | assumption | refine answer_only (w.of (by decide)) ?_ | refine answerHeld_only (w.of (by decide)) ?_
    | refine answerReject_only (w.of (by decide)) ?_ | refine postCommit_only (w.of (by decide)) ?_
    | refine romActivate_only (w.of (by decide)) ?_ | refine touchLease_only (w.of (by decide)) ?_
    | refine waitTurn_only (w.of (by decide)) ?_ | refine Only.ite (fun _ => ?_) (fun _ => ?_) | split

theorem execActivate_only {a0 s t} (e : execActivate a0 s = .next t) (w : Within 68719476735 m) (h : Only m r s) : Only m r t := by
  unfold execActivate at e
  injection e with e
  subst e
  with_reducible repeat' first
    | assumption | refine activateOp_only (w.of (by decide)) ?_ | refine runMethod_only (w.of (by decide)) ?_ ?_ | intro _

/-! ### Gecko -/

theorem scanLane_only {a0 a1 a2 a3 a4 s} (w : Within 36 m) (h : Only m r s) : Only m r (scanLane a0 a1 a2 a3 a4 s).2 := by
  unfold scanLane
  exact Only.foldl_snd (fun _ _ k => State_putLive_only (w.of (by decide)) k) h

theorem scanZero_only {a0 a1 a2 a3 s} (w : Within 512 m) (h : Only m r s) : Only m r (scanZero a0 a1 a2 a3 s) := by
  unfold scanZero
  with_reducible repeat' first
    | assumption | refine gapFeed_only (w.of (by decide)) ?_ | refine Only.ite (fun _ => ?_) (fun _ => ?_)

theorem scanPass_only {a0 a1 a2 a3 s} (w : Within 548 m) (h : Only m r s) : Only m r (scanPass a0 a1 a2 a3 s).2 := by
  unfold scanPass
  exact Only.foldl_snd (fun _ _ k => scanZero_only (w.of (by decide)) (scanLane_only (w.of (by decide)) k)) h

theorem scanStep_only {a0 s} (w : Within 580 m) (h : Only m r s) : Only m r (scanStep a0 s) := by
  unfold scanStep
  with_reducible repeat' first
    | assumption | refine Only.foldl ?_ ?_ | refine estStep_only (w.of (by decide)) ?_ | intro _

theorem scanFrames_only {a0 a1 s} (w : Within 612 m) (h : Only m r s) : Only m r (scanFrames a0 a1 s).2 := by
  unfold scanFrames
  refine Only.foldl_snd (fun p i k => ?_) h
  dsimp only
  refine scanStep_only (w.of (by decide)) (Only.foldl_snd (fun p j k => ?_) k)
  exact scanPass_only (w.of (by decide)) k

theorem scanFrames_only' {a0 a1 s x t} (e : scanFrames a0 a1 s = (x, t)) (w : Within 612 m) (h : Only m r s) : Only m r t := by
  have k := scanFrames_only (m := m) (r := r) (a0 := a0) (a1 := a1) w h
  rw [e] at k; exact k

theorem scanAdd_only {a0 a1 s} (w : Within 4 m) (h : Only m r s) : Only m r (scanAdd a0 a1 s) := by
  unfold scanAdd
  with_reducible repeat' first
    | assumption | refine State_put_only (w.of (by decide)) ?_

theorem scanPhase_only {a0 a1 a2 a3 a4 s} (w : Within 131076 m) (h : Only m r s) : Only m r (scanPhase a0 a1 a2 a3 a4 s) := by
  unfold scanPhase
  with_reducible repeat' first
    | (simp only [Only.mk_eq]; refine Only.u_pwr (w.of (by decide)) ?_) | assumption | refine State_put_only (w.of (by decide)) ?_
    | refine scanAdd_only (w.of (by decide)) ?_

theorem geckoEvent_only {a0 s} (w : Within 131076 m) (h : Only m r s) : Only m r (geckoEvent a0 s) := by
  unfold geckoEvent
  with_reducible repeat' first
    | (simp only [Only.mk_eq]; refine Only.u_pwr (w.of (by decide)) ?_) | assumption | refine State_put_only (w.of (by decide)) ?_ | split

theorem scanCct_only {a0 a1 a2 a3 s} (w : Within 131076 m) (h : Only m r s) : Only m r (scanCct a0 a1 a2 a3 s) := by
  unfold scanCct
  with_reducible repeat' first
    | (simp only [Only.mk_eq]; refine Only.u_pwr (w.of (by decide)) ?_) | assumption | refine Only.foldl ?_ ?_
    | refine geckoEvent_only (w.of (by decide)) ?_ | refine scanPhase_only (w.of (by decide)) ?_
    | refine Only.ite (fun _ => ?_) (fun _ => ?_) | intro _

theorem geckoSleep_only {a0 s} (w : Within 131078 m) (h : Only m r s) : Only m r (geckoSleep a0 s) := by
  unfold geckoSleep
  with_reducible repeat' first
    | assumption | refine State_setMode_only (w.of (by decide)) ?_ | refine geckoExit_only (w.of (by decide)) ?_

theorem geckoTamper_only {s} (w : Within 131076 m) (h : Only m r s) : Only m r (geckoTamper s) := by
  unfold geckoTamper
  with_reducible repeat' first
    | (simp only [Only.mk_eq]; refine Only.u_pwr (w.of (by decide)) ?_) | assumption | refine Only.foldl ?_ ?_
    | refine geckoEvent_only (w.of (by decide)) ?_ | intro _

theorem vbatSeen_only {a0 s} (w : Within 131204 m) (h : Only m r s) : Only m r (vbatSeen a0 s) := by
  unfold vbatSeen
  with_reducible repeat' first
    | (simp only [Only.mk_eq]; refine Only.u_pwr (w.of (by decide)) ?_) | assumption | refine geckoEvent_only (w.of (by decide)) ?_
    | refine vbatBits_only (w.of (by decide)) ?_ | refine Only.ite (fun _ => ?_) (fun _ => ?_)

theorem lowStore_only {a0 s} (w : Within 25803358340 m) (h : Only m r s) : Only m r (lowStore a0 s) := by
  unfold lowStore
  with_reducible repeat' first
    | assumption | refine modPage_only (w.of (by decide)) ?_ | refine showPage_only (w.of (by decide)) ?_
    | refine writeFrame_only (w.of (by decide)) ?_

theorem scanStore_only {a0 s} (w : Within 25803358340 m) (h : Only m r s) : Only m r (scanStore a0 s) := by
  unfold scanStore
  with_reducible repeat' first
    | assumption | refine Only.foldl ?_ ?_ | refine lowStore_only (w.of (by decide)) ?_ | intro _

theorem scanCounted_only {s} (w : Within 131076 m) (h : Only m r s) : Only m r (scanCounted s) := by
  unfold scanCounted
  with_reducible repeat' first
    | (simp only [Only.mk_eq]; refine Only.u_pwr (w.of (by decide)) ?_) | assumption | refine State_bump_only (w.of (by decide)) ?_

theorem scanAll_only {a0 s} (w : Within 131684 m) (h : Only m r s) : Only m r (scanAll a0 s) := by
  unfold scanAll
  with_reducible repeat' first
    | assumption | refine Only.foldl ?_ ?_ | refine geckoTamper_only (w.of (by decide)) ?_ | refine scanCct_only (w.of (by decide)) ?_
    | refine scanFrames_only (w.of (by decide)) ?_ | intro _

theorem scanNow_only {a0 s} (w : Within 131814 m) (h : Only m r s) : Only m r (scanNow a0 s) := by
  unfold scanNow
  with_reducible repeat' first
    | assumption | refine geckoSleep_only (w.of (by decide)) ?_ | refine scanAll_only (w.of (by decide)) ?_
    | refine scanCounted_only (w.of (by decide)) ?_ | refine vbatSeen_only (w.of (by decide)) ?_ | split

theorem execGeckoScan_only {a0 s t} (e : execGeckoScan a0 s = .next t) (w : Within 25803490022 m) (h : Only m r s) : Only m r t := by
  unfold execGeckoScan at e
  injection e with e
  subst e
  with_reducible repeat' first
    | assumption | refine scanNow_only (w.of (by decide)) ?_ | refine scanStore_only (w.of (by decide)) ?_ | split

theorem execGeckoLimitExpiry_only {s t} (e : execGeckoLimitExpiry s = .next t) (w : Within 131078 m) (h : Only m r s) : Only m r t := by
  unfold execGeckoLimitExpiry at e
  injection e with e
  subst e
  with_reducible repeat' first
    | assumption | refine geckoSleep_only (w.of (by decide)) ?_ | split

end Sys2Proof.Machine
end

