-- ==== Sys2Proof/Laws/OnlyChecks.lean ====
section
/-! SUPPORT. Which parts the operations of these files change: Checks, Spi, Credit, Resume, Takes, PlcTime. -/

namespace Sys2Proof.Machine

variable {m : Nat} {r : State}

/-! ### Checks -/

theorem noteCheck_only {a0 a1 s} (w : Within 512 m) (h : Only m r s) : Only m r (noteCheck a0 a1 s) := by
  unfold noteCheck
  with_reducible repeat' first
    | (simp only [Only.mk_eq]; refine Only.u_acq (w.of (by decide)) ?_) | assumption

theorem extraDue_only {a0 a1 s} (w : Within 512 m) (h : Only m r s) : Only m r (extraDue a0 a1 s) := by
  unfold extraDue
  with_reducible repeat' first
    | (simp only [Only.mk_eq]; refine Only.u_acq (w.of (by decide)) ?_) | assumption

theorem unitCheck_only {a0 a1 a2 a3 a4 s} (w : Within 33554948 m) (h : Only m r s) : Only m r (unitCheck a0 a1 a2 a3 a4 s) := by
  unfold unitCheck
  with_reducible repeat' first
    | assumption | refine extraDue_only (w.of (by decide)) ?_ | refine noteCheck_only (w.of (by decide)) ?_
    | refine unitFail_only (w.of (by decide)) ?_ | refine unitPass_only (w.of (by decide)) ?_
    | refine Only.ite (fun _ => ?_) (fun _ => ?_)

theorem chanCheck_only {a0 a1 s} (w : Within 33554948 m) (h : Only m r s) : Only m r (chanCheck a0 a1 s) := by
  unfold chanCheck
  with_reducible repeat' first
    | assumption | refine State_bump_only (w.of (by decide)) ?_ | refine unitCheck_only (w.of (by decide)) ?_ | split

theorem execChannelCheck_only {a0 s t} (e : execChannelCheck a0 s = .next t) (w : Within 33554948 m) (h : Only m r s) : Only m r t := by
  unfold execChannelCheck at e
  injection e with e
  subst e
  with_reducible repeat' first
    | assumption | refine chanCheck_only (w.of (by decide)) ?_ | split

theorem extraDone_only {a0 s} (w : Within 512 m) (h : Only m r s) : Only m r (extraDone a0 s) := by
  unfold extraDone
  with_reducible repeat' first
    | (simp only [Only.mk_eq]; refine Only.u_acq (w.of (by decide)) ?_) | assumption

theorem execChannelExtraCheck_only {a0 a1 s t} (e : execChannelExtraCheck a0 a1 s = .next t) (w : Within 33555012 m) (h : Only m r s) : Only m r t := by
  unfold execChannelExtraCheck at e
  injection e with e
  subst e
  with_reducible repeat' first
    | assumption | refine chanCheck_only (w.of (by decide)) ?_ | refine extraDone_only (w.of (by decide)) ?_
    | refine openTest_only (w.of (by decide)) ?_ | split

theorem execVoltageCheck_only {a0 a1 s t} (e : execVoltageCheck a0 a1 s = .next t) (w : Within 33554948 m) (h : Only m r s) : Only m r t := by
  unfold execVoltageCheck at e
  injection e with e
  subst e
  with_reducible repeat' first
    | assumption | refine extraDone_only (w.of (by decide)) ?_ | refine unitCheck_only (w.of (by decide)) ?_ | split

theorem execModulatorInstability_only {a0 s t} (e : execModulatorInstability a0 s = .next t) (w : Within 1024 m) (h : Only m r s) : Only m r t := by
  unfold execModulatorInstability at e
  injection e with e
  subst e
  with_reducible repeat' first
    | (simp only [Only.mk_eq]; refine Only.u_aln (w.of (by decide)) ?_) | assumption | split

/-! ### Spi -/

theorem spiSend_only {a0 s} (w : Within 524288 m) (h : Only m r s) : Only m r (spiSend a0 s) := by
  unfold spiSend
  with_reducible repeat' first
    | assumption | refine setSpi_only (w.of (by decide)) ?_

theorem spiFrameCheck_only {a0 s} (w : Within 34393292932 m) (h : Only m r s) : Only m r (spiFrameCheck a0 s) := by
  unfold spiFrameCheck
  with_reducible repeat' first
    | assumption | refine portSet_only (w.of (by decide)) ?_ | refine setPortUnit_only (w.of (by decide)) ?_
    | refine Only.ite (fun _ => ?_) (fun _ => ?_)

theorem putRefused_only {s} (w : Within 524292 m) (h : Only m r s) : Only m r (putRefused s) := by
  unfold putRefused
  with_reducible repeat' first
    | assumption | refine State_bump_only (w.of (by decide)) ?_ | refine setCause_only (w.of (by decide)) ?_

theorem execSpiPut_only {a0 s t} (e : execSpiPut a0 s = .next t) (w : Within 34394079364 m) (h : Only m r s) : Only m r t := by
  unfold execSpiPut at e
  injection e with e
  subst e
  with_reducible repeat' first
    | assumption | refine State_bump_only (w.of (by decide)) ?_ | refine putRefused_only (w.of (by decide)) ?_
    | refine setCause_only (w.of (by decide)) ?_ | refine setSrv_only (w.of (by decide)) ?_
    | refine spiFrameCheck_only (w.of (by decide)) ?_ | refine spiSend_only (w.of (by decide)) ?_
    | refine Only.ite (fun _ => ?_) (fun _ => ?_)

theorem execSpiTake_only {a0 s t} (e : execSpiTake a0 s = .next t) (w : Within 786432 m) (h : Only m r s) : Only m r t := by
  unfold execSpiTake at e
  injection e with e
  subst e
  with_reducible repeat' first
    | assumption | refine leave12_only (w.of (by decide)) ?_ | refine leave13_only (w.of (by decide)) ?_
    | refine spiSend_only (w.of (by decide)) ?_ | refine Only.ite (fun _ => ?_) (fun _ => ?_) | split

theorem execSpiStatus_only {s t} (e : execSpiStatus s = .next t) (w : Within 524288 m) (h : Only m r s) : Only m r t := by
  unfold execSpiStatus at e
  injection e with e
  subst e
  with_reducible repeat' first
    | assumption | refine spiSend_only (w.of (by decide)) ?_ | split

theorem execSpiClear_only {a0 s t} (e : execSpiClear a0 s = .next t) (w : Within 524288 m) (h : Only m r s) : Only m r t := by
  unfold execSpiClear at e
  injection e with e
  subst e
  with_reducible repeat' first
    | assumption | refine setSpi_only (w.of (by decide)) ?_ | refine spiSend_only (w.of (by decide)) ?_ | split

theorem execSpiReservedCommand_only {a0 s t} (e : execSpiReservedCommand a0 s = .next t) (w : Within 524288 m) (h : Only m r s) : Only m r t := by
  unfold execSpiReservedCommand at e
  injection e with e
  subst e
  with_reducible repeat' first
    | assumption | refine spiSend_only (w.of (by decide)) ?_ | split

theorem execCsCollision_only {s t} (e : execCsCollision s = .next t) (w : Within 524292 m) (h : Only m r s) : Only m r t := by
  unfold execCsCollision at e
  injection e with e
  subst e
  with_reducible repeat' first
    | assumption | refine State_bump_only (w.of (by decide)) ?_ | refine spiSend_only (w.of (by decide)) ?_ | split

theorem execLegacyRead_only {a0 a1 s t} (e : execLegacyRead a0 a1 s = .next t) (w : Within 524324 m) (h : Only m r s) : Only m r t := by
  unfold execLegacyRead at e
  injection e with e
  subst e
  with_reducible repeat' first
    | assumption | refine State_bumpLive_only (w.of (by decide)) ?_ | refine setSpi_only (w.of (by decide)) ?_
    | refine spiSend_only (w.of (by decide)) ?_ | split

theorem execLegacyWriteEvents_only {a0 s t} (e : execLegacyWriteEvents a0 s = .next t) (w : Within 524288 m) (h : Only m r s) : Only m r t := by
  unfold execLegacyWriteEvents at e
  injection e with e
  subst e
  with_reducible repeat' first
    | assumption | refine setSpi_only (w.of (by decide)) ?_ | refine spiSend_only (w.of (by decide)) ?_ | split

theorem execLegacyWriteEventMask_only {a0 s t} (e : execLegacyWriteEventMask a0 s = .next t) (w : Within 524292 m) (h : Only m r s) : Only m r t := by
  unfold execLegacyWriteEventMask at e
  injection e with e
  subst e
  with_reducible repeat' first
    | assumption | refine State_put_only (w.of (by decide)) ?_ | refine spiSend_only (w.of (by decide)) ?_ | split

theorem execLegacyWriteIgnored_only {a0 a1 s t} (e : execLegacyWriteIgnored a0 a1 s = .next t) (w : Within 524292 m) (h : Only m r s) : Only m r t := by
  unfold execLegacyWriteIgnored at e
  injection e with e
  subst e
  with_reducible repeat' first
    | assumption | refine State_bump_only (w.of (by decide)) ?_ | refine spiSend_only (w.of (by decide)) ?_ | split

/-! ### Credit -/

theorem portSend_only {a0 a1 s} (w : Within 69796659236 m) (h : Only m r s) : Only m r (portSend a0 a1 s) := by
  unfold portSend
  with_reducible repeat' first
    | assumption | refine plcSend_only (w.of (by decide)) ?_ | refine t1sSend_only (w.of (by decide)) ?_ | split

theorem execRingCreditAvailable_only {a0 a1 s t} (e : execRingCreditAvailable a0 a1 s = .next t) (w : Within 76272672804 m) (h : Only m r s) : Only m r t := by
  unfold execRingCreditAvailable at e
  injection e with e
  subst e
  with_reducible repeat' first
    | assumption | refine endBroadcasts_only (w.of (by decide)) ?_ | refine portSend_only (w.of (by decide)) ?_
    | refine profPump_only (w.of (by decide)) ?_ | refine pump14_only (w.of (by decide)) ?_ | refine pump15_only (w.of (by decide)) ?_
    | refine pumpRolls_only (w.of (by decide)) ?_ | split

/-! ### Resume -/

theorem execStaleEnter_only {s t} (e : execStaleEnter s = .next t) (w : Within 2621476 m) (h : Only m r s) : Only m r t := by
  unfold execStaleEnter at e
  injection e with e
  subst e
  with_reducible repeat' first
    | assumption | refine State_putLive_only (w.of (by decide)) ?_ | refine clearRoutes_only (w.of (by decide)) ?_
    | refine setCause_only (w.of (by decide)) ?_ | split

theorem tickTag_only {a0 a1 s} (w : Within 262144 m) (h : Only m r s) : Only m r (tickTag a0 a1 s) := by
  unfold tickTag
  with_reducible repeat' first
    | assumption | refine setTag_only (w.of (by decide)) ?_ | split

theorem execHostTokenWrite_only {a0 s t} (e : execHostTokenWrite a0 s = .next t) (w : Within 33824772 m) (h : Only m r s) : Only m r t := by
  unfold execHostTokenWrite at e
  injection e with e
  subst e
  with_reducible repeat' first
    | assumption | refine answer_only (w.of (by decide)) ?_ | refine raiseStale_only (w.of (by decide)) ?_
    | refine runOp_only (w.of (by decide)) ?_ ?_ | refine setSrv_only (w.of (by decide)) ?_ | refine tickTag_only (w.of (by decide)) ?_
    | refine Only.ite (fun _ => ?_) (fun _ => ?_) | intro _

theorem execResume_only {a0 s t} (e : execResume a0 s = .next t) (w : Within 10737688576 m) (h : Only m r s) : Only m r t := by
  unfold execResume at e
  injection e with e
  subst e
  with_reducible repeat' first
    | assumption | refine answer_only (w.of (by decide)) ?_ | refine postCommit_only (w.of (by decide)) ?_
    | refine runMethod_only (w.of (by decide)) ?_ ?_ | refine waitTurn_only (w.of (by decide)) ?_ | split | intro _

theorem resumeNow_only {a0 s} (w : Within 33562660 m) (h : Only m r s) : Only m r (resumeNow a0 s) := by
  unfold resumeNow
  with_reducible repeat' first
    | (simp only [Only.mk_eq]; refine Only.u_bill (w.of (by decide)) ?_) | assumption | refine State_event_only (w.of (by decide)) ?_
    | refine State_put_only (w.of (by decide)) ?_ | refine State_putLive_only (w.of (by decide)) ?_ | split

theorem execReadSigned_only {a0 s t} (e : execReadSigned a0 s = .next t) (w : Within 270340 m) (h : Only m r s) : Only m r t := by
  unfold execReadSigned at e
  injection e with e
  subst e
  with_reducible repeat' first
    | (simp only [Only.mk_eq]; refine Only.u_bill (w.of (by decide)) ?_) | assumption | refine State_bump_only (w.of (by decide)) ?_
    | refine State_put_only (w.of (by decide)) ?_ | refine answer_only (w.of (by decide)) ?_ | refine markUsed_only (w.of (by decide)) ?_
    | refine runOp_only (w.of (by decide)) ?_ ?_ | refine Only.ite (fun _ => ?_) (fun _ => ?_) | split | intro _

/-! ### Takes -/

theorem noteLegal_only {a0 s} (w : Within 33554436 m) (h : Only m r s) : Only m r (noteLegal a0 s) := by
  unfold noteLegal
  with_reducible repeat' first
    | assumption | refine legalNote_only (w.of (by decide)) ?_ | split

theorem noteCal_only {a0 s} (w : Within 4 m) (h : Only m r s) : Only m r (noteCal a0 s) := by
  unfold noteCal
  with_reducible repeat' first
    | assumption | refine Only.foldl ?_ ?_ | refine State_bump_only (w.of (by decide)) ?_ | refine State_put_only (w.of (by decide)) ?_
    | refine Only.ite (fun _ => ?_) (fun _ => ?_) | intro _

theorem noteGen_only {a0 s} (w : Within 256 m) (h : Only m r s) : Only m r (noteGen a0 s) := by
  unfold noteGen
  with_reducible repeat' first
    | (simp only [Only.mk_eq]; refine Only.u_gens (w.of (by decide)) ?_) | assumption

theorem lanesTake_only {a0 s} (w : Within 1572 m) (h : Only m r s) : Only m r (lanesTake a0 s) := by
  unfold lanesTake
  with_reducible repeat' first
    | (simp only [Only.mk_eq]; refine Only.u_acq (w.of (by decide)) ?_) | assumption | refine Only.foldl ?_ ?_
    | refine State_put_only (w.of (by decide)) ?_ | refine State_putLive_only (w.of (by decide)) ?_
    | refine dropExtra_only (w.of (by decide)) ?_ | refine lowRange_only (w.of (by decide)) ?_
    | refine recredit0_only (w.of (by decide)) ?_ | refine restartStreams_only (w.of (by decide)) ?_ | intro _

theorem defsTake_only {a0 s} (w : Within 4 m) (h : Only m r s) : Only m r (defsTake a0 s) := by
  unfold defsTake
  with_reducible repeat' first
    | assumption | refine Only.foldl ?_ ?_ | refine State_put_only (w.of (by decide)) ?_ | intro _

theorem regimesTake_only {a0 s} (w : Within 33554564 m) (h : Only m r s) : Only m r (regimesTake a0 s) := by
  unfold regimesTake
  with_reducible repeat' first
    | assumption | refine Only.foldl ?_ ?_ | refine State_bump_only (w.of (by decide)) ?_ | refine State_event_only (w.of (by decide)) ?_
    | refine State_put_only (w.of (by decide)) ?_ | refine State_putV_only (w.of (by decide)) ?_
    | refine Only.ite (fun _ => ?_) (fun _ => ?_) | intro _

theorem ethTakes_only {a0 s} (w : Within 1075085348 m) (h : Only m r s) : Only m r (ethTakes a0 s) := by
  unfold ethTakes
  with_reducible repeat' first
    | assumption | refine dadUnicast_only (w.of (by decide)) ?_ | refine t1sStart_only (w.of (by decide)) ?_
    | refine t1sStop_only (w.of (by decide)) ?_ | split

theorem lineTakes_only {a0 s} (w : Within 1113882724 m) (h : Only m r s) : Only m r (lineTakes a0 s) := by
  unfold lineTakes
  with_reducible repeat' first
    | assumption | refine leavePan_only (w.of (by decide)) ?_ | refine plcStart_only (w.of (by decide)) ?_
    | refine plcStop_only (w.of (by decide)) ?_ | refine tbStart__only (w.of (by decide)) ?_ | refine Only.ite (fun _ => ?_) (fun _ => ?_)

theorem spiTake_only {a0 s} (w : Within 1074003968 m) (h : Only m r s) : Only m r (spiTake a0 s) := by
  unfold spiTake
  with_reducible repeat' first
    | assumption | refine dropWork_only (w.of (by decide)) ?_ | split

theorem storesTake_only {a0 s} (w : Within 132 m) (h : Only m r s) : Only m r (storesTake a0 s) := by
  unfold storesTake
  with_reducible repeat' first
    | assumption | refine Only.foldl ?_ ?_ | refine State_putV_only (w.of (by decide)) ?_ | refine showPage_only (w.of (by decide)) ?_
    | refine showTwin_only (w.of (by decide)) ?_ | split | intro _

theorem settingsTake_only {a0 s} (w : Within 1114932964 m) (h : Only m r s) : Only m r (settingsTake a0 s) := by
  unfold settingsTake
  with_reducible repeat' first
    | assumption | refine defsTake_only (w.of (by decide)) ?_ | refine ethTakes_only (w.of (by decide)) ?_
    | refine lanesTake_only (w.of (by decide)) ?_ | refine lineTakes_only (w.of (by decide)) ?_
    | refine regimesTake_only (w.of (by decide)) ?_ | refine showLoads_only (w.of (by decide)) ?_
    | refine spiTake_only (w.of (by decide)) ?_ | refine storesTake_only (w.of (by decide)) ?_

theorem effTake_only {a0 s} (w : Within 113857734372 m) (h : Only m r s) : Only m r (effTake a0 s) := by
  unfold effTake
  with_reducible repeat' first
    | assumption | refine reinstateNow_only (w.of (by decide)) ?_ | refine resolveNow_only (w.of (by decide)) ?_
    | refine restoreNow_only (w.of (by decide)) ?_ | refine resumeNow_only (w.of (by decide)) ?_ | split

theorem takeOne_only {a0 s} (w : Within 113857734628 m) (h : Only m r s) : Only m r (takeOne a0 s) := by
  unfold takeOne
  with_reducible repeat' first
    | assumption | refine effTake_only (w.of (by decide)) ?_ | refine noteCal_only (w.of (by decide)) ?_
    | refine noteGen_only (w.of (by decide)) ?_ | refine noteLegal_only (w.of (by decide)) ?_

theorem markDone_only {s} (w : Within 8 m) (h : Only m r s) : Only m r (markDone s) := by
  unfold markDone
  with_reducible repeat' first
    | (simp only [Only.mk_eq]; refine Only.u_commits (w.of (by decide)) ?_) | assumption

theorem execCommitTakesEffect_only {s t} (e : execCommitTakesEffect s = .next t) (w : Within 114931771372 m) (h : Only m r s) : Only m r t := by
  unfold execCommitTakesEffect at e
  injection e with e
  subst e
  with_reducible repeat' first
    | assumption | refine Only.foldl ?_ ?_ | refine markDone_only (w.of (by decide)) ?_ | refine settingsTake_only (w.of (by decide)) ?_
    | refine takeOne_only (w.of (by decide)) ?_ | split | intro _

/-! ### PlcTime -/

theorem execAnnounceSend_only {s t} (e : execAnnounceSend s = .next t) (w : Within 2097152 m) (h : Only m r s) : Only m r t := by
  unfold execAnnounceSend at e
  injection e with e
  subst e
  with_reducible repeat' first
    | assumption | refine setPlc_only (w.of (by decide)) ?_ | refine Only.ite (fun _ => ?_) (fun _ => ?_) | split

theorem execAnnounceAbandon_only {s t} (e : execAnnounceAbandon s = .next t) (w : Within 2097152 m) (h : Only m r s) : Only m r t := by
  unfold execAnnounceAbandon at e
  injection e with e
  subst e
  with_reducible repeat' first
    | assumption | refine setPlc_only (w.of (by decide)) ?_ | split

theorem tbSeat_only {a0 a1 s} (w : Within 4194340 m) (h : Only m r s) : Only m r (tbSeat a0 a1 s) := by
  unfold tbSeat
  with_reducible repeat' first
    | assumption | refine State_putLive_only (w.of (by decide)) ?_ | refine setTb_only (w.of (by decide)) ?_ | split

theorem tbMove_only {a0 a1 a2 a3 a4 s} (w : Within 37748772 m) (h : Only m r s) : Only m r (tbMove a0 a1 a2 a3 a4 s) := by
  unfold tbMove
  with_reducible repeat' first
    | assumption | refine State_event_only (w.of (by decide)) ?_ | refine setTb_only (w.of (by decide)) ?_
    | refine tbSeat_only (w.of (by decide)) ?_ | refine Only.ite (fun _ => ?_) (fun _ => ?_)

theorem showDelta_only {s} (w : Within 36 m) (h : Only m r s) : Only m r (showDelta s) := by
  unfold showDelta
  with_reducible repeat' first
    | assumption | refine State_putLive_only (w.of (by decide)) ?_

theorem tbAdopt_only {a0 a1 a2 s} (w : Within 37748772 m) (h : Only m r s) : Only m r (tbAdopt a0 a1 a2 s) := by
  unfold tbAdopt
  with_reducible repeat' first
    | assumption | refine State_event_only (w.of (by decide)) ?_ | refine State_putLive_only (w.of (by decide)) ?_
    | refine setTb_only (w.of (by decide)) ?_ | refine showDelta_only (w.of (by decide)) ?_ | refine tbMove_only (w.of (by decide)) ?_
    | refine Only.ite (fun _ => ?_) (fun _ => ?_) | split

theorem tbCheck_only {a0 a1 a2 a3 s} (w : Within 37748772 m) (h : Only m r s) : Only m r (tbCheck a0 a1 a2 a3 s) := by
  unfold tbCheck
  with_reducible repeat' first
    | assumption | refine State_event_only (w.of (by decide)) ?_ | refine State_putLive_only (w.of (by decide)) ?_
    | refine setTb_only (w.of (by decide)) ?_ | refine showDelta_only (w.of (by decide)) ?_ | refine Only.ite (fun _ => ?_) (fun _ => ?_)

theorem noteHeard_only {a0 s} (w : Within 4194304 m) (h : Only m r s) : Only m r (noteHeard a0 s) := by
  unfold noteHeard
  with_reducible repeat' first
    | assumption | refine setTb_only (w.of (by decide)) ?_

theorem wallTime_only {a0 a1 s} (w : Within 46137476 m) (h : Only m r s) : Only m r (wallTime a0 a1 s) := by
  unfold wallTime
  with_reducible repeat' first
    | assumption | refine acceptTime_only (w.of (by decide)) ?_ | refine legalNote_only (w.of (by decide)) ?_
    | refine setTb_only (w.of (by decide)) ?_ | refine Only.ite (fun _ => ?_) (fun _ => ?_)

theorem follow_only {a0 s} (w : Within 46137508 m) (h : Only m r s) : Only m r (follow a0 s) := by
  unfold follow
  with_reducible repeat' first
    | assumption | refine noteHeard_only (w.of (by decide)) ?_ | refine setTb_only (w.of (by decide)) ?_
    | refine tbAdopt_only (w.of (by decide)) ?_ | refine tbCheck_only (w.of (by decide)) ?_ | refine wallTime_only (w.of (by decide)) ?_
    | refine Only.ite (fun _ => ?_) (fun _ => ?_) | split

theorem execAnnouncementReceive_only {a0 s t} (e : execAnnouncementReceive a0 s = .next t) (w : Within 48234660 m) (h : Only m r s) : Only m r t := by
  unfold execAnnouncementReceive at e
  injection e with e
  subst e
  with_reducible repeat' first
    | assumption | refine State_bumpLive_only (w.of (by decide)) ?_ | refine follow_only (w.of (by decide)) ?_
    | refine setNbr_only (w.of (by decide)) ?_ | refine Only.ite (fun _ => ?_) (fun _ => ?_)

theorem execCycleMap_only {a0 s t} (e : execCycleMap a0 s = .next t) (w : Within 262144 m) (h : Only m r s) : Only m r t := by
  unfold execCycleMap at e
  injection e with e
  subst e
  with_reducible repeat' first
    | assumption | refine answer_only (w.of (by decide)) ?_ | refine runMethod_only (w.of (by decide)) ?_ ?_
    | refine Only.ite (fun _ => ?_) (fun _ => ?_) | split | intro _

end Sys2Proof.Machine
end

