-- ==== Sys2Proof/Laws/Frames.lean ====
section
/-! SUPPORT. From the masks of `Only` to the frames that claims state. -/

namespace Sys2Proof.Machine

/-- The mask of a list of pieces. -/
def maskOf : List Piece → Nat
  | [] => 0
  | p :: ps => 2 ^ p.num ||| maskOf ps

theorem Piece.num_inj {p q : Piece} (h : p.num = q.num) : p = q := by
  have e : ∀ p : Piece, p.ctorIdx = p.num := fun p => by cases p <;> rfl
  have o : ∀ p : Piece, Piece.ofNat p.num = p := fun p => by cases p <;> rfl
  rw [← o p, h, o q]

theorem maskOf_off {p : Piece} {ps : List Piece} (h : p ∉ ps) : (maskOf ps).testBit p.num = false := by
  induction ps with
  | nil => simp [maskOf]
  | cons q ps ih =>
    simp only [List.mem_cons, not_or] at h
    unfold maskOf
    rw [Nat.testBit_or, ih h.2, Bool.or_false, Nat.testBit_two_pow]
    exact decide_eq_false (fun e => h.1 (Piece.num_inj e.symm))

/-- A mask that holds only listed pieces gives a frame. -/
theorem Only.frame {m : Nat} {ps : List Piece} {s t : State} (h : Only m s t) (e : m &&& maskOf ps = m) : Frame ps s t := by
  intro p hp
  have w : m.testBit p.num = false := by
    rw [← e, Nat.testBit_and, maskOf_off hp, Bool.and_false]
  cases p <;> first
    | exact h.fn w | exact h.mode w | exact h.dict w | exact h.commits w | exact h.times w | exact h.chg w | exact h.due w | exact h.olds w
    | exact h.gens w | exact h.acq w | exact h.aln w | exact h.tan w | exact h.cap w | exact h.bill w | exact h.pulse w | exact h.img w
    | exact h.tk w | exact h.pwr w | exact h.srv w | exact h.spi w | exact h.t1s w | exact h.plc w | exact h.tb w | exact h.dev w
    | exact h.ready w | exact h.ring5 w | exact h.staging w | exact h.sealed w | exact h.current w | exact h.previous w | exact h.pins w
    | exact h.jobs w | exact h.rollq w | exact h.pages w | exact h.seals w | exact h.units w | exact h.draws w | exact h.pending w

/-- A larger list gives a weaker frame. -/
theorem Frame.mono {ps qs : List Piece} {s t : State} (h : Frame ps s t) (e : ∀ p, p ∈ ps → p ∈ qs) : Frame qs s t :=
  fun p hp => h p (fun k => hp (e p k))

theorem Frame.refl (ps : List Piece) (s : State) : Frame ps s s := fun p _ => by cases p <;> rfl

theorem Frame.trans {ps : List Piece} {r s t : State} (h : Frame ps r s) (k : Frame ps s t) : Frame ps r t := by
  intro p hp
  have a := h p hp
  have b := k p hp
  cases p <;> exact Eq.trans b a

end Sys2Proof.Machine
end

