-- ==== Sys2Proof/Laws/KeptOps.lean ====
section
/-! SUPPORT. What the operations of these files keep: Ops, StoreOps, Lanes, CaptureOps, Detect, Windows, Accrue. -/

namespace Sys2Proof.Machine

variable {q : List Instr} {n f : Nat} {m : Mode}

/-! ### Ops -/

theorem State_putI_ok {s a1 a2} (h : Kept q n f m s) : Kept q n f m (State.putI s a1 a2) := by
  unfold State.putI
  with_reducible repeat' first
    | assumption | refine State_put_ok ?_

theorem State_bumpBy_ok {s a1 a2} (h : Kept q n f m s) : Kept q n f m (State.bumpBy s a1 a2) := by
  unfold State.bumpBy
  with_reducible repeat' first
    | assumption | refine State_put_ok ?_

theorem State_bump_ok {s a1} (h : Kept q n f m s) : Kept q n f m (State.bump s a1) := by
  unfold State.bump
  with_reducible repeat' first
    | assumption | refine State_bumpBy_ok ?_

theorem State_putLive_ok {s a1 a2} (h : Kept q n f m s) : Kept q n f m (State.putLive s a1 a2) := by
  unfold State.putLive
  with_reducible repeat' first
    | (simp only [Kept.mk_eq]; refine Kept.of ?_) | assumption | refine State_put_ok ?_ | split

theorem State_bumpLive_ok {s a1} (h : Kept q n f m s) : Kept q n f m (State.bumpLive s a1) := by
  unfold State.bumpLive
  with_reducible repeat' first
    | assumption | refine State_putLive_ok ?_

theorem State_putDue_ok {s a1 a2 a3} (h : Kept q n f m s) : Kept q n f m (State.putDue s a1 a2 a3) := by
  unfold State.putDue
  with_reducible repeat' first
    | (simp only [Kept.mk_eq]; refine Kept.of ?_) | assumption | refine State_put_ok ?_ | split

theorem State_putDueI_ok {s a1 a2 a3} (h : Kept q n f m s) : Kept q n f m (State.putDueI s a1 a2 a3) := by
  unfold State.putDueI
  with_reducible repeat' first
    | assumption | refine State_putDue_ok ?_

theorem State_dropDue_ok {s a1 a2} (h : Kept q n f m s) : Kept q n f m (State.dropDue s a1 a2) := h

theorem State_putBoth_ok {s a1 a2} (h : Kept q n f m s) : Kept q n f m (State.putBoth s a1 a2) := by
  unfold State.putBoth
  with_reducible repeat' first
    | assumption | refine State_put_ok ?_

theorem State_putsBoth_ok {l : List (Nat × Nat)} {s} (h : Kept q n f m s) : Kept q n f m (State.putsBoth s l) := by
  induction l generalizing s with
  | nil => exact h
  | cons e l ih => exact ih (State_putBoth_ok h)

theorem State_putV_ok {s a1 a2} (h : Kept q n f m s) : Kept q n f m (State.putV s a1 a2) := by
  unfold State.putV
  with_reducible repeat' first
    | (simp only [Kept.mk_eq]; refine Kept.of ?_) | assumption | refine State_put_ok ?_ | split

theorem State_bumpV_ok {s a1} (h : Kept q n f m s) : Kept q n f m (State.bumpV s a1) := by
  unfold State.bumpV
  with_reducible repeat' first
    | assumption | refine State_putV_ok ?_

theorem putTotal_ok {a0 a1 a2 s} (h : Kept q n f m s) : Kept q n f m (putTotal a0 a1 a2 s) := by
  unfold putTotal
  with_reducible repeat' first
    | assumption | refine State_put_ok ?_ | refine State_putDue_ok ?_

theorem State_endFrame_ok {s} (h : Kept q n f m s) : Kept q n f m (State.endFrame s) := h

theorem State_applyDue_ok {s a1} (h : Kept q n f m s) : Kept q n f m (State.applyDue s a1) := by
  unfold State.applyDue
  with_reducible repeat' first
    | (simp only [Kept.mk_eq]; refine Kept.of ?_) | assumption | refine Kept.foldl ?_ ?_ | refine State_put_ok ?_ | intro _

theorem State_setFn_ok {s a1} (h : Kept q n f m s) : Kept q n a1 m (State.setFn s a1) :=
  ⟨h.dict, h.pages, h.seals, h.ring5, h.ring7, h.period, h.pending, h.draws, rfl, h.mode⟩

theorem State_setMode_ok {s a1} (h : Kept q n f m s) : Kept q n f a1 (State.setMode s a1) :=
  ⟨h.dict, h.pages, h.seals, h.ring5, h.ring7, h.period, h.pending, h.draws, h.fn, rfl⟩

theorem State_puts_ok {s l} (h : Kept q n f m s) : Kept q n f m (State.puts s l) := by
  induction l generalizing s with
  | nil => exact h
  | cons e l ih => exact ih (State_put_ok h)

theorem State_event_ok {s a1 a2} (h : Kept q n f m s) : Kept q n f m (State.event s a1 a2) := by
  unfold State.event
  with_reducible repeat' first
    | assumption | refine State_eventAt_ok ?_

theorem unitSet_ok {a0 a1 a2 a3 a4 s} (h : Kept q n f m s) : Kept q n f m (unitSet a0 a1 a2 a3 a4 s) := by
  unfold unitSet
  with_reducible repeat' first
    | assumption | refine State_event_ok ?_ | refine State_put_ok ?_ | split

theorem unitFail_ok {a0 a1 a2 a3 a4 s} (h : Kept q n f m s) : Kept q n f m (unitFail a0 a1 a2 a3 a4 s).1 := by
  unfold unitFail
  try dsimp only
  with_reducible repeat' first
    | assumption | refine State_put_ok ?_ | refine unitSet_ok ?_ | split

theorem unitFail_ok' {a0 a1 a2 a3 a4 s x t} (e : unitFail a0 a1 a2 a3 a4 s = (t, x)) (h : Kept q n f m s) : Kept q n f m t := by
  have w := unitFail_ok (n := n) (q := q) (f := f) (m := m) (a0 := a0) (a1 := a1) (a2 := a2) (a3 := a3) (a4 := a4) (s := s) h
  rw [e] at w; exact w

theorem unitPass_ok {a0 a1 a2 a3 s} (h : Kept q n f m s) : Kept q n f m (unitPass a0 a1 a2 a3 s) := by
  unfold unitPass
  with_reducible repeat' first
    | assumption | refine State_put_ok ?_ | refine unitSet_ok ?_ | refine Kept.ite (fun _ => ?_) (fun _ => ?_)

/-! ### StoreOps -/

theorem setC_ok {a0 a1 s} (h : Kept q n f m s) : Kept q n f m (setC a0 a1 s) := by
  unfold setC
  with_reducible repeat' first
    | (simp only [Kept.mk_eq]; refine Kept.of ?_) | assumption

theorem modPage_ok {a0 a1 s} (h : Kept q n f m s) : Kept q n f m (modPage a0 a1 s) := by
  unfold modPage
  with_reducible repeat' first
    | (simp only [Kept.mk_eq]; refine Kept.pagesMod ?_) | assumption

theorem holdSlots_ok {a0 s} (h : Kept q n f m s) : Kept q n f m (holdSlots a0 s) := by
  unfold holdSlots
  with_reducible repeat' first
    | assumption | refine Kept.foldl ?_ ?_ | refine setC_ok ?_ | split | intro _

theorem startHead_ok {s} (h : Kept q n f m s) : Kept q n f m (startHead s) := by
  unfold startHead
  with_reducible repeat' first
    | (simp only [Kept.mk_eq]; refine Kept.of ?_) | assumption | refine holdSlots_ok ?_ | split

theorem letSlots_ok {a0 a1 s} (h : Kept q n f m s) : Kept q n f m (letSlots a0 a1 s) := by
  unfold letSlots
  with_reducible repeat' first
    | (simp only [Kept.mk_eq]; refine Kept.of ?_) | assumption

theorem dropSlots_ok {a0 s} (h : Kept q n f m s) : Kept q n f m (dropSlots a0 s) := by
  unfold dropSlots
  with_reducible repeat' first
    | assumption | refine Kept.foldl ?_ ?_ | refine setC_ok ?_ | split | intro _

theorem postJob_ok {a0 s} (h : Kept q n f m s) : Kept q n f m (postJob a0 s) := by
  unfold postJob
  with_reducible repeat' first
    | (simp only [Kept.mk_eq]; refine Kept.of ?_) | assumption | refine startHead_ok ?_

theorem takeWrite_ok {a0 s} (h : Kept q n f m s) : Kept q n f m (takeWrite a0 s) := by
  unfold takeWrite
  with_reducible repeat' first
    | assumption | refine modPage_ok ?_ | split

theorem postWrite_ok {a0 s} (h : Kept q n f m s) : Kept q n f m (postWrite a0 s) := by
  unfold postWrite
  with_reducible repeat' first
    | assumption | refine postJob_ok ?_ | refine takeWrite_ok ?_ | split

theorem pumpRolls_ok {s} (h : Kept q n f m s) : Kept q n f m (pumpRolls s) := by
  unfold pumpRolls
  with_reducible repeat' first
    | (simp only [Kept.mk_eq]; refine Kept.of ?_) | assumption | refine Kept.foldl ?_ ?_ | refine postJob_ok ?_ | intro _

theorem postRoll_ok {a0 s} (h : Kept q n f m s) : Kept q n f m (postRoll a0 s) := by
  unfold postRoll
  with_reducible repeat' first
    | (simp only [Kept.mk_eq]; refine Kept.of ?_) | assumption | refine State_bump_ok ?_ | refine pumpRolls_ok ?_ | split

theorem keepRatios_ok {a0 s} (h : Kept q n f m s) : Kept q n f m (keepRatios a0 s) := by
  unfold keepRatios
  with_reducible repeat' first
    | assumption | refine setC_ok ?_

theorem putReg_ok {a0 a1 a2 a3 s} (h : Kept q n f m s) : Kept q n f m (putReg a0 a1 a2 a3 s) := by
  unfold putReg
  with_reducible repeat' first
    | assumption | refine State_put_ok ?_ | refine State_putDue_ok ?_

theorem setFlag_ok {a0 a1 a2 s} (h : Kept q n f m s) : Kept q n f m (setFlag a0 a1 a2 s) := by
  unfold setFlag
  with_reducible repeat' first
    | assumption | refine State_putDue_ok ?_

theorem checkTotal_ok {a0 a1 a2 s} (h : Kept q n f m s) : Kept q n f m (checkTotal a0 a1 a2 s) := by
  unfold checkTotal
  with_reducible repeat' first
    | assumption | refine State_bump_ok ?_ | refine State_eventAt_ok ?_ | refine putReg_ok ?_ | refine setFlag_ok ?_
    | refine Kept.ite (fun _ => ?_) (fun _ => ?_)

theorem checkTotals_ok {a0 a1 s} (h : Kept q n f m s) : Kept q n f m (checkTotals a0 a1 s) := by
  unfold checkTotals
  with_reducible repeat' first
    | assumption | refine Kept.foldl ?_ ?_ | refine checkTotal_ok ?_ | intro _

theorem forceRoll_ok {a0 s} (h : Kept q n f m s) : Kept q n f m (forceRoll a0 s) := by
  unfold forceRoll
  with_reducible repeat' first
    | (simp only [Kept.mk_eq]; refine Kept.pagesMod ?_) | assumption | refine Kept.foldl ?_ ?_ | refine State_bump_ok ?_
    | refine checkTotals_ok ?_ | refine keepRatios_ok ?_ | refine postRoll_ok ?_ | intro _

theorem retireFrame_ok {a0 a1 s} (h : Kept q n f m s) : Kept q n f m (retireFrame a0 a1 s) := by
  unfold retireFrame
  try dsimp only
  with_reducible repeat' first
    | (simp only [Kept.mk_eq]; refine Kept.of ?_) | (simp only [Kept.mk_eq]; refine Kept.pagesMod ?_) | assumption
    | refine State_bump_ok ?_ | refine State_event_ok ?_ | refine State_put_ok ?_ | split

theorem writeFrame_ok {a0 a1 s} (h : Kept q n f m s) : Kept q n f m (writeFrame a0 a1 s) := by
  unfold writeFrame
  with_reducible repeat' first
    | (simp only [Kept.mk_eq]; refine Kept.sealsSet ?_) | assumption | refine State_bump_ok ?_ | refine State_bumpV_ok ?_
    | refine State_event_ok ?_ | refine State_putV_ok ?_ | split

theorem storeFailed_ok {a0 a1 s} (h : Kept q n f m s) : Kept q n f m (storeFailed a0 a1 s) := by
  unfold storeFailed
  with_reducible repeat' first
    | (simp only [Kept.mk_eq]; refine Kept.of ?_) | assumption | refine State_bump_ok ?_ | refine State_event_ok ?_
    | refine retireFrame_ok ?_ | split

theorem storeSealed_ok {a0 a1 s} (h : Kept q n f m s) : Kept q n f m (storeSealed a0 a1 s) := by
  unfold storeSealed
  with_reducible repeat' first
    | (simp only [Kept.mk_eq]; refine Kept.of ?_) | (simp only [Kept.mk_eq]; refine Kept.pagesMod ?_) | assumption
    | refine State_event_ok ?_ | refine dropSlots_ok ?_ | refine pumpRolls_ok ?_ | refine startHead_ok ?_ | refine takeWrite_ok ?_ | split

theorem storeRec_ok {a0 a1 a2 s} (h : Kept q n f m s) : Kept q n f m (storeRec a0 a1 a2 s) := by
  unfold storeRec
  with_reducible repeat' first
    | (simp only [Kept.mk_eq]; refine Kept.of ?_) | assumption | refine modPage_ok ?_ | refine postWrite_ok ?_
    | refine Kept.ite (fun _ => ?_) (fun _ => ?_)

theorem storeLegal_ok {s} (h : Kept q n f m s) : Kept q n f m (storeLegal s) := by
  unfold storeLegal
  with_reducible repeat' first
    | (simp only [Kept.mk_eq]; refine Kept.of ?_) | assumption | refine Kept.foldl ?_ ?_ | refine storeRec_ok ?_
    | refine Kept.ite (fun _ => ?_) (fun _ => ?_) | intro _

theorem showPage_ok {a0 s} (h : Kept q n f m s) : Kept q n f m (showPage a0 s) := by
  unfold showPage
  with_reducible repeat' first
    | assumption | refine State_put_ok ?_

/-! ### Lanes -/

theorem rangeCross_ok {a0 a1 a2 a3 a4 s} (h : Kept q n f m s) : Kept q n f m (rangeCross a0 a1 a2 a3 a4 s).2 := by
  unfold rangeCross
  with_reducible repeat' first
    | assumption | refine State_putLive_ok ?_

theorem rangeCross_ok' {a0 a1 a2 a3 a4 s x t} (e : rangeCross a0 a1 a2 a3 a4 s = (x, t)) (h : Kept q n f m s) : Kept q n f m t := by
  have w := rangeCross_ok (n := n) (q := q) (f := f) (m := m) (a0 := a0) (a1 := a1) (a2 := a2) (a3 := a3) (a4 := a4) (s := s) h
  rw [e] at w; exact w

theorem rangeSee_ok {a0 a1 a2 a3 a4 s} (h : Kept q n f m s) : Kept q n f m (rangeSee a0 a1 a2 a3 a4 s).2 := by
  unfold rangeSee
  with_reducible repeat' first
    | assumption | refine State_bumpLive_ok ?_ | refine rangeCross_ok ?_ | refine Kept.ite (fun _ => ?_) (fun _ => ?_) | split

theorem rangeSee_ok' {a0 a1 a2 a3 a4 s x t} (e : rangeSee a0 a1 a2 a3 a4 s = (x, t)) (h : Kept q n f m s) : Kept q n f m t := by
  have w := rangeSee_ok (n := n) (q := q) (f := f) (m := m) (a0 := a0) (a1 := a1) (a2 := a2) (a3 := a3) (a4 := a4) (s := s) h
  rw [e] at w; exact w

theorem rangeLatch_ok {a0 a1 s} (h : Kept q n f m s) : Kept q n f m (rangeLatch a0 a1 s).2 := by
  unfold rangeLatch
  with_reducible repeat' first
    | assumption | refine State_bumpLive_ok ?_ | split

theorem rangeLatch_ok' {a0 a1 s x t} (e : rangeLatch a0 a1 s = (x, t)) (h : Kept q n f m s) : Kept q n f m t := by
  have w := rangeLatch_ok (n := n) (q := q) (f := f) (m := m) (a0 := a0) (a1 := a1) (s := s) h
  rw [e] at w; exact w

theorem latchAll_ok {s} (h : Kept q n f m s) : Kept q n f m (latchAll s) := by
  unfold latchAll
  with_reducible repeat' first
    | (simp only [Kept.mk_eq]; refine Kept.of ?_) | assumption | refine Kept.foldl ?_ ?_ | refine rangeLatch_ok ?_ | intro _

theorem recredit0_ok {a0 s} (h : Kept q n f m s) : Kept q n f m (recredit0 a0 s) := h

theorem lowRange_ok {a0 s} (h : Kept q n f m s) : Kept q n f m (lowRange a0 s) := h

theorem restartStreams_ok {a0 a1 s} (h : Kept q n f m s) : Kept q n f m (restartStreams a0 a1 s) := h

theorem stopStreams_ok {a0 s} (h : Kept q n f m s) : Kept q n f m (stopStreams a0 s) := h

theorem takeoverDo_ok {a0 a1 s} (h : Kept q n f m s) : Kept q n f m (takeoverDo a0 a1 s) := by
  unfold takeoverDo
  with_reducible repeat' first
    | (simp only [Kept.mk_eq]; refine Kept.of ?_) | assumption | refine State_put_ok ?_ | refine State_putLive_ok ?_
    | refine lowRange_ok ?_ | refine recredit0_ok ?_ | refine restartStreams_ok ?_ | refine unitSet_ok ?_ | split

theorem takeoversDue_ok {s} (h : Kept q n f m s) : Kept q n f m (takeoversDue s) := by
  unfold takeoversDue
  with_reducible repeat' first
    | assumption | refine Kept.foldl ?_ ?_ | refine takeoverDo_ok ?_ | intro _

theorem execLaneTakeover_ok {a0 s t} (e : execLaneTakeover a0 s = .next t) (h : Kept q n f m s) : Kept q n f m t := by
  unfold execLaneTakeover at e
  injection e with e
  subst e
  with_reducible repeat' first
    | assumption | refine takeoverDo_ok ?_ | split

theorem execRangeCrossingTimeout_ok {a0 s t} (e : execRangeCrossingTimeout a0 s = .next t) (h : Kept q n f m s) : Kept q n f m t := by
  unfold execRangeCrossingTimeout at e
  injection e with e
  subst e
  with_reducible repeat' first
    | (simp only [Kept.mk_eq]; refine Kept.of ?_) | assumption | refine rangeCross_ok ?_ | split

/-! ### CaptureOps -/

theorem capStart_ok {a0 a1 a2 a3 a4 s} (h : Kept q n f m s) : Kept q n f m (capStart a0 a1 a2 a3 a4 s) := by
  unfold capStart
  with_reducible repeat' first
    | (simp only [Kept.mk_eq]; refine Kept.of ?_) | assumption | refine State_putLive_ok ?_

theorem capTrigger_ok {a0 a1 a2 a3 s} (h : Kept q n f m s) : Kept q n f m (capTrigger a0 a1 a2 a3 s) := by
  unfold capTrigger
  with_reducible repeat' first
    | assumption | refine State_bump_ok ?_ | refine capStart_ok ?_ | refine Kept.ite (fun _ => ?_) (fun _ => ?_)

theorem capFlush_ok {a0 s} (h : Kept q n f m s) : Kept q n f m (capFlush a0 s).2 := by
  unfold capFlush
  with_reducible repeat' first
    | (simp only [Kept.mk_eq]; refine Kept.of ?_) | assumption | refine State_bump_ok ?_ | split

theorem capFlush_ok' {a0 s x t} (e : capFlush a0 s = (x, t)) (h : Kept q n f m s) : Kept q n f m t := by
  have w := capFlush_ok (n := n) (q := q) (f := f) (m := m) (a0 := a0) (s := s) h
  rw [e] at w; exact w

theorem capRow_ok {a0 a1 s} (h : Kept q n f m s) : Kept q n f m (capRow a0 a1 s).2 := by
  unfold capRow
  with_reducible repeat' first
    | assumption | refine capFlush_ok ?_ | refine Kept.ite_snd (fun _ => ?_) (fun _ => ?_)

theorem capRow_ok' {a0 a1 s x t} (e : capRow a0 a1 s = (x, t)) (h : Kept q n f m s) : Kept q n f m t := by
  have w := capRow_ok (n := n) (q := q) (f := f) (m := m) (a0 := a0) (a1 := a1) (s := s) h
  rw [e] at w; exact w

theorem capRows_ok {a0 a1 s} (h : Kept q n f m s) : Kept q n f m (capRows a0 a1 s).2 := by
  induction a0 generalizing s a1 with
  | nil => exact h
  | cons _ l ih =>
    have ih' : ∀ {x t u b1}, capRows l b1 u = (x, t) → Kept q n f m u → Kept q n f m t := fun {x t u b1} e h => by
      have w : Kept q n f m (capRows l b1 u).2 := ih h; rw [e] at w; exact w
    unfold capRows
    with_reducible repeat' first
      | refine ih ?_ | assumption | refine capRow_ok ?_

theorem capRows_ok' {a0 a1 s x t} (e : capRows a0 a1 s = (x, t)) (h : Kept q n f m s) : Kept q n f m t := by
  have w := capRows_ok (n := n) (q := q) (f := f) (m := m) (a0 := a0) (a1 := a1) (s := s) h
  rw [e] at w; exact w

theorem capCollect_ok {s} (h : Kept q n f m s) : Kept q n f m (capCollect s) := by
  unfold capCollect
  with_reducible repeat' first
    | (simp only [Kept.mk_eq]; refine Kept.of ?_) | assumption | refine capRows_ok ?_ | split

theorem capPush_ok {a0 s} (h : Kept q n f m s) : Kept q n f m (capPush a0 s) := h

theorem capFinish_ok {a0 s} (h : Kept q n f m s) : Kept q n f m (capFinish a0 s) := by
  unfold capFinish
  with_reducible repeat' first
    | (simp only [Kept.mk_eq]; refine Kept.of ?_) | assumption | refine State_putLive_ok ?_ | refine capFlush_ok ?_

theorem execCaptureComplete_ok {s t} (e : execCaptureComplete s = .next t) (h : Kept q n f m s) : Kept q n f m t := by
  unfold execCaptureComplete at e
  injection e with e
  subst e
  with_reducible repeat' first
    | assumption | refine capFinish_ok ?_ | split

theorem execCaptureHoldoffExpiry_ok {s t} (e : execCaptureHoldoffExpiry s = .next t) (h : Kept q n f m s) : Kept q n f m t := by
  unfold execCaptureHoldoffExpiry at e
  injection e with e
  subst e
  with_reducible repeat' first
    | assumption | refine State_putLive_ok ?_ | split

theorem capCut_ok {a0 s} (h : Kept q n f m s) : Kept q n f m (capCut a0 s) := by
  unfold capCut
  with_reducible repeat' first
    | (simp only [Kept.mk_eq]; refine Kept.of ?_) | assumption | refine capFinish_ok ?_ | split

/-! ### Detect -/

theorem startRecord_ok {a0 a1 a2 a3 a4 a5 s} (h : Kept q n f m s) : Kept q n f m (startRecord a0 a1 a2 a3 a4 a5 s) := by
  unfold startRecord
  with_reducible repeat' first
    | assumption | refine State_bump_ok ?_ | refine State_eventAt_ok ?_ | refine capTrigger_ok ?_

theorem groupEnd_ok {a0 a1 a2 a3 a4 s} (h : Kept q n f m s) : Kept q n f m (groupEnd a0 a1 a2 a3 a4 s) := by
  unfold groupEnd
  with_reducible repeat' first
    | (simp only [Kept.mk_eq]; refine Kept.of ?_) | assumption | refine State_eventAt_ok ?_

theorem groupStart_ok {a0 a1 a2 a3 a4 a5 a6 a7 a8 s} (h : Kept q n f m s) : Kept q n f m (groupStart a0 a1 a2 a3 a4 a5 a6 a7 a8 s) := by
  unfold groupStart
  with_reducible repeat' first
    | (simp only [Kept.mk_eq]; refine Kept.of ?_) | assumption | refine startRecord_ok ?_

theorem vDetect_ok {a0 a1 a2 a3 a4 a5 s} (h : Kept q n f m s) : Kept q n f m (vDetect a0 a1 a2 a3 a4 a5 s) := by
  unfold vDetect
  with_reducible repeat' first
    | (simp only [Kept.mk_eq]; refine Kept.of ?_) | assumption | refine groupEnd_ok ?_ | refine groupStart_ok ?_
    | refine Kept.ite (fun _ => ?_) (fun _ => ?_)

theorem vDetectAll_ok {a0 a1 a2 a3 a4 s} (h : Kept q n f m s) : Kept q n f m (vDetectAll a0 a1 a2 a3 a4 s) := by
  unfold vDetectAll
  with_reducible repeat' first
    | assumption | refine vDetect_ok ?_ | split

theorem ocEnd_ok {a0 a1 a2 a3 s} (h : Kept q n f m s) : Kept q n f m (ocEnd a0 a1 a2 a3 s) := by
  unfold ocEnd
  with_reducible repeat' first
    | (simp only [Kept.mk_eq]; refine Kept.of ?_) | assumption | refine State_eventAt_ok ?_

theorem ocDetect_ok {a0 a1 a2 a3 a4 s} (h : Kept q n f m s) : Kept q n f m (ocDetect a0 a1 a2 a3 a4 s) := by
  unfold ocDetect
  with_reducible repeat' first
    | (simp only [Kept.mk_eq]; refine Kept.of ?_) | assumption | refine ocEnd_ok ?_ | refine startRecord_ok ?_
    | refine Kept.ite (fun _ => ?_) (fun _ => ?_)

theorem niEnd_ok {a0 a1 a2 s} (h : Kept q n f m s) : Kept q n f m (niEnd a0 a1 a2 s) := by
  unfold niEnd
  with_reducible repeat' first
    | (simp only [Kept.mk_eq]; refine Kept.of ?_) | assumption | refine State_eventAt_ok ?_

theorem niDetect_ok {a0 a1 a2 a3 a4 s} (h : Kept q n f m s) : Kept q n f m (niDetect a0 a1 a2 a3 a4 s) := by
  unfold niDetect
  with_reducible repeat' first
    | (simp only [Kept.mk_eq]; refine Kept.of ?_) | assumption | refine niEnd_ok ?_ | refine startRecord_ok ?_
    | refine Kept.ite (fun _ => ?_) (fun _ => ?_)

theorem plEnd_ok {a0 a1 a2 s} (h : Kept q n f m s) : Kept q n f m (plEnd a0 a1 a2 s) := by
  unfold plEnd
  with_reducible repeat' first
    | (simp only [Kept.mk_eq]; refine Kept.of ?_) | assumption | refine State_eventAt_ok ?_

theorem plDetect_ok {a0 a1 a2 a3 s} (h : Kept q n f m s) : Kept q n f m (plDetect a0 a1 a2 a3 s) := by
  unfold plDetect
  with_reducible repeat' first
    | (simp only [Kept.mk_eq]; refine Kept.of ?_) | assumption | refine plEnd_ok ?_ | refine startRecord_ok ?_
    | refine Kept.ite (fun _ => ?_) (fun _ => ?_)

/-! ### Windows -/

theorem setZc_ok {a0 a1 s} (h : Kept q n f m s) : Kept q n f m (setZc a0 a1 s) := by
  unfold setZc
  with_reducible repeat' first
    | (simp only [Kept.mk_eq]; refine Kept.of ?_) | assumption | refine Kept.ite (fun _ => ?_) (fun _ => ?_)

theorem setSig_ok {a0 a1 s} (h : Kept q n f m s) : Kept q n f m (setSig a0 a1 s) := by
  unfold setSig
  with_reducible repeat' first
    | (simp only [Kept.mk_eq]; refine Kept.of ?_) | assumption | refine Kept.ite (fun _ => ?_) (fun _ => ?_)

theorem setCwin_ok {a0 a1 s} (h : Kept q n f m s) : Kept q n f m (setCwin a0 a1 s) := by
  unfold setCwin
  with_reducible repeat' first
    | (simp only [Kept.mk_eq]; refine Kept.of ?_) | assumption | refine Kept.ite (fun _ => ?_) (fun _ => ?_)

theorem pubInput_ok {a0 a1 a2 a3 s} (h : Kept q n f m s) : Kept q n f m (pubInput a0 a1 a2 a3 s) := by
  unfold pubInput
  with_reducible repeat' first
    | assumption | refine State_putDue_ok ?_ | refine Kept.pair_eq (by assumption) ?_

theorem halfClose_ok {a0 a1 a2 a3 a4 a5 s} (h : Kept q n f m s) : Kept q n f m (halfClose a0 a1 a2 a3 a4 a5 s) := by
  unfold halfClose
  with_reducible repeat' first
    | assumption | refine ocDetect_ok ?_ | refine pubInput_ok ?_ | refine setSig_ok ?_ | refine vDetectAll_ok ?_
    | refine Kept.ite (fun _ => ?_) (fun _ => ?_) | split

theorem cycClose_ok {a0 a1 a2 a3 a4 a5 s} (h : Kept q n f m s) : Kept q n f m (cycClose a0 a1 a2 a3 a4 a5 s) := by
  unfold cycClose
  with_reducible repeat' first
    | (simp only [Kept.mk_eq]; refine Kept.of ?_) | assumption | refine pubInput_ok ?_ | refine setSig_ok ?_
    | refine Kept.ite (fun _ => ?_) (fun _ => ?_)

theorem cctClose_ok {a0 a1 a2 a3 s} (h : Kept q n f m s) : Kept q n f m (cctClose a0 a1 a2 a3 s) := by
  unfold cctClose
  with_reducible repeat' first
    | assumption | refine Kept.foldl ?_ ?_ | refine State_putDue_ok ?_ | refine State_putDueI_ok ?_ | refine niDetect_ok ?_
    | refine plDetect_ok ?_ | refine setCwin_ok ?_ | refine Kept.ite (fun _ => ?_) (fun _ => ?_) | intro _

theorem cycEnd_ok {a0 a1 a2 a3 s} (h : Kept q n f m s) : Kept q n f m (cycEnd a0 a1 a2 a3 s) := by
  unfold cycEnd
  with_reducible repeat' first
    | assumption | refine Kept.foldl ?_ ?_ | refine State_putDue_ok ?_ | refine cctClose_ok ?_ | refine cycClose_ok ?_
    | refine setZc_ok ?_ | intro _

theorem popSig_ok {a0 s} (h : Kept q n f m s) : Kept q n f m (popSig a0 s).2 := by
  unfold popSig
  with_reducible repeat' first
    | assumption | refine setSig_ok ?_ | refine Kept.pair_eq (by assumption) ?_

theorem popSig_ok' {a0 s x t} (e : popSig a0 s = (x, t)) (h : Kept q n f m s) : Kept q n f m t := by
  have w := popSig_ok (n := n) (q := q) (f := f) (m := m) (a0 := a0) (s := s) h
  rw [e] at w; exact w

theorem popCct_ok {a0 a1 a2 s} (h : Kept q n f m s) : Kept q n f m (popCct a0 a1 a2 s) := by
  unfold popCct
  with_reducible repeat' first
    | assumption | refine setCwin_ok ?_ | refine Kept.pair_eq (by assumption) ?_

theorem sigEnd_ok {a0 a1 a2 a3 a4 a5 a6 s} (h : Kept q n f m s) : Kept q n f m (sigEnd a0 a1 a2 a3 a4 a5 a6 s) := by
  unfold sigEnd
  with_reducible repeat' first
    | assumption | refine halfClose_ok ?_ | refine popSig_ok ?_ | refine setSig_ok ?_ | refine Kept.ite (fun _ => ?_) (fun _ => ?_)

theorem sigLost_ok {a0 a1 s} (h : Kept q n f m s) : Kept q n f m (sigLost a0 a1 s) := by
  unfold sigLost
  with_reducible repeat' first
    | assumption | refine Kept.foldl ?_ ?_ | refine State_putDue_ok ?_ | refine setSig_ok ?_ | split | intro _

theorem cctLost_ok {a0 a1 s} (h : Kept q n f m s) : Kept q n f m (cctLost a0 a1 s) := by
  unfold cctLost
  with_reducible repeat' first
    | assumption | refine Kept.foldl ?_ ?_ | refine State_putDue_ok ?_ | refine setCwin_ok ?_ | intro _

theorem winsLost_ok {a0 a1 s} (h : Kept q n f m s) : Kept q n f m (winsLost a0 a1 s) := by
  unfold winsLost
  with_reducible repeat' first
    | assumption | refine Kept.foldl ?_ ?_ | refine State_putDue_ok ?_ | refine cctLost_ok ?_ | refine setZc_ok ?_ | refine sigLost_ok ?_
    | intro _

theorem halfCount_ok {a0 a1 a2 s} (h : Kept q n f m s) : Kept q n f m (halfCount a0 a1 a2 s) := by
  unfold halfCount
  with_reducible repeat' first
    | assumption | refine Kept.foldl ?_ ?_ | refine cycEnd_ok ?_ | refine popCct_ok ?_ | refine popSig_ok ?_ | refine setZc_ok ?_
    | refine sigEnd_ok ?_ | refine Kept.ite (fun _ => ?_) (fun _ => ?_) | intro _

theorem halfEnd_ok {a0 a1 a2 s} (h : Kept q n f m s) : Kept q n f m (halfEnd a0 a1 a2 s) := by
  unfold halfEnd
  with_reducible repeat' first
    | assumption | refine halfCount_ok ?_ | refine winsLost_ok ?_ | split

theorem halfEnds_ok {a0 a1 s} (h : Kept q n f m s) : Kept q n f m (halfEnds a0 a1 s) := by
  induction a1 generalizing s with
  | zero => exact h
  | succ _ ih =>
    unfold halfEnds
    with_reducible repeat' first
      | refine ih ?_ | assumption | refine halfEnd_ok ?_ | split

theorem pqPublish_ok {a0 s} (h : Kept q n f m s) : Kept q n f m (pqPublish a0 s) := by
  unfold pqPublish
  with_reducible repeat' first
    | assumption | refine Kept.foldl ?_ ?_ | refine State_putDue_ok ?_ | refine Kept.pair_eq (by assumption) ?_ | intro _

/-! ### Accrue -/

theorem regAdd_ok {a0 a1 a2 a3 s} (h : Kept q n f m s) : Kept q n f m (regAdd a0 a1 a2 a3 s) := by
  unfold regAdd
  with_reducible repeat' first
    | assumption | refine putReg_ok ?_ | refine Kept.ite_snd (fun _ => ?_) (fun _ => ?_)
    | refine Kept.ite_eq (by assumption) (fun _ _ => ?_) (fun _ _ => ?_) | intro _ _ _ | intro _

theorem enterKind_ok {a0 a1 a2 a3 s} (h : Kept q n f m s) : Kept q n f m (enterKind a0 a1 a2 a3 s) := by
  unfold enterKind
  with_reducible repeat' first
    | assumption | refine regAdd_ok ?_ | refine setC_ok ?_ | refine Kept.ite (fun _ => ?_) (fun _ => ?_) | split
    | refine Kept.ite_eq (by assumption) (fun _ _ => ?_) (fun _ _ => ?_) | intro _ _ _

theorem demandAdd_ok {a0 a1 a2 a3 s} (h : Kept q n f m s) : Kept q n f m (demandAdd a0 a1 a2 a3 s) := by
  unfold demandAdd
  try dsimp only
  with_reducible repeat' first
    | assumption | refine setC_ok ?_ | refine Kept.ite_snd (fun _ => ?_) (fun _ => ?_) | split
    | refine Kept.ite_eq (by assumption) (fun _ _ => ?_) (fun _ _ => ?_) | intro _ _ _ | intro _

theorem enterAll_ok {a0 a1 a2 s} (h : Kept q n f m s) : Kept q n f m (enterAll a0 a1 a2 s) := by
  unfold enterAll
  with_reducible repeat' first
    | assumption | refine Kept.foldl ?_ ?_ | refine enterKind_ok ?_ | refine Kept.ite_snd (fun _ => ?_) (fun _ => ?_)
    | refine Kept.ite_eq (by assumption) (fun _ _ => ?_) (fun _ _ => ?_) | intro _ _ _ | intro _

theorem absorbDo_ok {a0 a1 a2 a3 a4 s} (h : Kept q n f m s) : Kept q n f m (absorbDo a0 a1 a2 a3 a4 s).2 := by
  unfold absorbDo
  with_reducible repeat' first
    | assumption | refine Kept.foldl ?_ ?_ | refine State_put_ok ?_ | refine demandAdd_ok ?_ | refine enterAll_ok ?_
    | refine setFlag_ok ?_ | refine Kept.ite (fun _ => ?_) (fun _ => ?_) | refine Kept.ite_snd (fun _ => ?_) (fun _ => ?_) | split
    | intro _ _ _

theorem absorbDo_ok' {a0 a1 a2 a3 a4 s x t} (e : absorbDo a0 a1 a2 a3 a4 s = (x, t)) (h : Kept q n f m s) : Kept q n f m t := by
  have w := absorbDo_ok (n := n) (q := q) (f := f) (m := m) (a0 := a0) (a1 := a1) (a2 := a2) (a3 := a3) (a4 := a4) (s := s) h
  rw [e] at w; exact w

theorem directionStep_ok {a0 a1 a2 s} (h : Kept q n f m s) : Kept q n f m (directionStep a0 a1 a2 s) := by
  unfold directionStep
  with_reducible repeat' first
    | assumption | refine setC_ok ?_ | refine Kept.ite (fun _ => ?_) (fun _ => ?_) | refine Kept.ite_snd (fun _ => ?_) (fun _ => ?_)
    | refine Kept.ite_eq (by assumption) (fun _ _ => ?_) (fun _ _ => ?_) | intro _ _ _ | intro _

theorem accrueCct_ok {a0 a1 s} (h : Kept q n f m s) : Kept q n f m (accrueCct a0 a1 s).2 := by
  unfold accrueCct
  with_reducible repeat' first
    | (simp only [Kept.mk_eq]; refine Kept.of ?_) | assumption | refine State_bump_ok ?_ | refine State_putDue_ok ?_
    | refine State_putDueI_ok ?_ | refine absorbDo_ok ?_ | refine demandAdd_ok ?_ | refine directionStep_ok ?_ | refine enterAll_ok ?_
    | refine setC_ok ?_ | refine setFlag_ok ?_ | refine Kept.ite (fun _ => ?_) (fun _ => ?_) | split

theorem accrueCct_ok' {a0 a1 s x t} (e : accrueCct a0 a1 s = (x, t)) (h : Kept q n f m s) : Kept q n f m t := by
  have w := accrueCct_ok (n := n) (q := q) (f := f) (m := m) (a0 := a0) (a1 := a1) (s := s) h
  rw [e] at w; exact w

end Sys2Proof.Machine
end

