-- ==== Sys2Proof/Laws/KeptBoundary.lean ====
section
/-! SUPPORT. What the operations of these files keep: Boundary, Pulse, Health, Align, Subst. -/

namespace Sys2Proof.Machine

variable {q : List Instr} {n f : Nat} {m : Mode}

/-! ### Boundary -/

theorem maxTake_ok {a0 a1 a2 a3 a4 a5 s} (h : Kept q n f m s) : Kept q n f m (maxTake a0 a1 a2 a3 a4 a5 s) := by
  unfold maxTake
  with_reducible repeat' first
    | assumption | refine State_putDue_ok ?_ | split

theorem maxTotals_ok {a0 a1 s} (h : Kept q n f m s) : Kept q n f m (maxTotals a0 a1 s) := by
  unfold maxTotals
  with_reducible repeat' first
    | assumption | refine State_putDue_ok ?_

theorem evalMaxima_ok {a0 a1 a2 a3 a4 a5 s} (h : Kept q n f m s) : Kept q n f m (evalMaxima a0 a1 a2 a3 a4 a5 s).2 := by
  unfold evalMaxima
  with_reducible repeat' first
    | assumption | refine State_putDue_ok ?_ | refine maxTake_ok ?_ | refine maxTotals_ok ?_

theorem evalMaxima_ok' {a0 a1 a2 a3 a4 a5 s x t} (e : evalMaxima a0 a1 a2 a3 a4 a5 s = (x, t)) (h : Kept q n f m s) : Kept q n f m t := by
  have w := evalMaxima_ok (n := n) (q := q) (f := f) (m := m) (a0 := a0) (a1 := a1) (a2 := a2) (a3 := a3) (a4 := a4) (a5 := a5) (s := s) h
  rw [e] at w; exact w

theorem evalIvl_ok {a0 a1 a2 a3 a4 a5 s} (h : Kept q n f m s) : Kept q n f m (evalIvl a0 a1 a2 a3 a4 a5 s) := by
  unfold evalIvl
  with_reducible repeat' first
    | assumption | refine State_bump_ok ?_ | refine State_eventAt_ok ?_ | refine evalMaxima_ok ?_
    | refine Kept.ite (fun _ => ?_) (fun _ => ?_)

theorem closeIvl_ok {a0 a1 a2 a3 s} (h : Kept q n f m s) : Kept q n f m (closeIvl a0 a1 a2 a3 s) := by
  unfold closeIvl
  try dsimp only
  with_reducible repeat' first
    | assumption | refine evalIvl_ok ?_ | refine setC_ok ?_ | split

theorem showDemand_ok {a0 a1 s} (h : Kept q n f m s) : Kept q n f m (showDemand a0 a1 s) := by
  unfold showDemand
  try dsimp only
  with_reducible repeat' first
    | assumption | refine State_putDue_ok ?_ | split

theorem rescaleReg_ok {a0 a1 a2 a3 a4 a5 s} (h : Kept q n f m s) : Kept q n f m (rescaleReg a0 a1 a2 a3 a4 a5 s) := by
  unfold rescaleReg
  with_reducible repeat' first
    | assumption | refine putReg_ok ?_

theorem rescaleGecko_ok {a0 a1 a2 s} (h : Kept q n f m s) : Kept q n f m (rescaleGecko a0 a1 a2 s) := by
  unfold rescaleGecko
  with_reducible repeat' first
    | assumption | refine State_put_ok ?_ | refine postJob_ok ?_ | refine Kept.ite (fun _ => ?_) (fun _ => ?_)

theorem rescaleCct_ok {a0 a1 a2 a3 s} (h : Kept q n f m s) : Kept q n f m (rescaleCct a0 a1 a2 a3 s) := by
  unfold rescaleCct
  with_reducible repeat' first
    | assumption | refine Kept.foldl ?_ ?_ | refine State_eventAt_ok ?_ | refine State_put_ok ?_ | refine forceRoll_ok ?_
    | refine putReg_ok ?_ | refine putTotal_ok ?_ | refine rescaleGecko_ok ?_ | refine rescaleReg_ok ?_ | refine setC_ok ?_ | intro _

theorem defineCct_ok {a0 a1 s} (h : Kept q n f m s) : Kept q n f m (defineCct a0 a1 s) := by
  unfold defineCct
  with_reducible repeat' first
    | assumption | refine setC_ok ?_ | refine showDemand_ok ?_

theorem cutIvl_ok {a0 a1 s} (h : Kept q n f m s) : Kept q n f m (cutIvl a0 a1 s) := by
  unfold cutIvl
  with_reducible repeat' first
    | assumption | refine setC_ok ?_

theorem undefineCct_ok {a0 a1 s} (h : Kept q n f m s) : Kept q n f m (undefineCct a0 a1 s) := by
  unfold undefineCct
  with_reducible repeat' first
    | assumption | refine Kept.foldl ?_ ?_ | refine State_putDue_ok ?_ | refine setC_ok ?_ | intro _

theorem cfgCct_ok {a0 a1 s} (h : Kept q n f m s) : Kept q n f m (cfgCct a0 a1 s) := by
  unfold cfgCct
  with_reducible repeat' first
    | assumption | refine cutIvl_ok ?_ | refine defineCct_ok ?_ | refine rescaleCct_ok ?_ | refine undefineCct_ok ?_
    | refine Kept.ite (fun _ => ?_) (fun _ => ?_)

theorem cfgOffset_ok {a0 s} (h : Kept q n f m s) : Kept q n f m (cfgOffset a0 s) := by
  unfold cfgOffset
  with_reducible repeat' first
    | (simp only [Kept.mk_eq]; refine Kept.of ?_) | assumption | split

theorem cfgPulse_ok {a0 a1 s} (h : Kept q n f m s) : Kept q n f m (cfgPulse a0 a1 s) := by
  unfold cfgPulse
  with_reducible repeat' first
    | (simp only [Kept.mk_eq]; refine Kept.of ?_) | assumption | refine State_bumpBy_ok ?_ | split

theorem cfgTrain_ok {a0 a1 s} (h : Kept q n f m s) : Kept q n f m (cfgTrain a0 a1 s) := by
  unfold cfgTrain
  with_reducible repeat' first
    | (simp only [Kept.mk_eq]; refine Kept.of ?_) | assumption | split

theorem cfgFrame_ok {a0 s} (h : Kept q n f m s) : Kept q n f m (cfgFrame a0 s) := by
  unfold cfgFrame
  with_reducible repeat' first
    | assumption | refine Kept.foldl ?_ ?_ | refine cfgCct_ok ?_ | refine cfgOffset_ok ?_ | refine cfgPulse_ok ?_ | refine cfgTrain_ok ?_
    | split | intro _

theorem waitStart_ok {a0 a1 a2 a3 a4 s} (h : Kept q n f m s) : Kept q n f m (waitStart a0 a1 a2 a3 a4 s) := by
  unfold waitStart
  with_reducible repeat' first
    | (simp only [Kept.mk_eq]; refine Kept.of ?_) | assumption | refine State_bump_ok ?_ | refine forceRoll_ok ?_

theorem waitEnd_ok {a0 a1 a2 s} (h : Kept q n f m s) : Kept q n f m (waitEnd a0 a1 a2 s) := by
  unfold waitEnd
  with_reducible repeat' first
    | (simp only [Kept.mk_eq]; refine Kept.of ?_) | assumption | refine Kept.foldl ?_ ?_ | refine State_bumpBy_ok ?_
    | refine State_eventAt_ok ?_ | refine setFlag_ok ?_ | intro _

theorem waitLate_ok {a0 s} (h : Kept q n f m s) : Kept q n f m (waitLate a0 s) := by
  unfold waitLate
  with_reducible repeat' first
    | (simp only [Kept.mk_eq]; refine Kept.of ?_) | assumption

theorem mayAct_ok {a0 a1 a2 a3 a4 a5 s} (h : Kept q n f m s) : Kept q n f m (mayAct a0 a1 a2 a3 a4 a5 s).2 := by
  unfold mayAct
  with_reducible repeat' first
    | assumption | refine waitEnd_ok ?_ | refine waitStart_ok ?_ | split

theorem mayAct_ok' {a0 a1 a2 a3 a4 a5 s x t} (e : mayAct a0 a1 a2 a3 a4 a5 s = (x, t)) (h : Kept q n f m s) : Kept q n f m t := by
  have w := mayAct_ok (n := n) (q := q) (f := f) (m := m) (a0 := a0) (a1 := a1) (a2 := a2) (a3 := a3) (a4 := a4) (a5 := a5) (s := s) h
  rw [e] at w; exact w

theorem endIvl_ok {a0 a1 a2 a3 s} (h : Kept q n f m s) : Kept q n f m (endIvl a0 a1 a2 a3 s) := by
  unfold endIvl
  with_reducible repeat' first
    | assumption | refine closeIvl_ok ?_ | refine setC_ok ?_ | refine showDemand_ok ?_ | refine Kept.ite (fun _ => ?_) (fun _ => ?_)

theorem ivlStep_ok {a0 a1 a2 s} (h : Kept q n f m s) : Kept q n f m (ivlStep a0 a1 a2 s).2 := by
  unfold ivlStep
  try dsimp only
  with_reducible repeat' first
    | assumption | refine cutIvl_ok ?_ | refine endIvl_ok ?_ | refine mayAct_ok ?_ | refine setC_ok ?_ | refine setFlag_ok ?_ | split

theorem ivlStep_ok' {a0 a1 a2 s x t} (e : ivlStep a0 a1 a2 s = (x, t)) (h : Kept q n f m s) : Kept q n f m t := by
  have w := ivlStep_ok (n := n) (q := q) (f := f) (m := m) (a0 := a0) (a1 := a1) (a2 := a2) (s := s) h
  rw [e] at w; exact w

theorem ivlSteps_ok {a0 a1 a2 s} (h : Kept q n f m s) : Kept q n f m (ivlSteps a0 a1 a2 s).2 := by
  induction a2 generalizing s with
  | nil => exact h
  | cons _ l ih =>
    have ih' : ∀ {x t u}, ivlSteps a0 a1 l u = (x, t) → Kept q n f m u → Kept q n f m t := fun {x t u} e h => by
      have w : Kept q n f m (ivlSteps a0 a1 l u).2 := ih h; rw [e] at w; exact w
    unfold ivlSteps
    with_reducible repeat' first
      | refine ih ?_ | assumption | refine ivlStep_ok ?_

theorem ivlSteps_ok' {a0 a1 a2 s x t} (e : ivlSteps a0 a1 a2 s = (x, t)) (h : Kept q n f m s) : Kept q n f m t := by
  have w := ivlSteps_ok (n := n) (q := q) (f := f) (m := m) (a0 := a0) (a1 := a1) (a2 := a2) (s := s) h
  rw [e] at w; exact w

theorem clearMaxima_ok {a0 a1 s} (h : Kept q n f m s) : Kept q n f m (clearMaxima a0 a1 s) := by
  unfold clearMaxima
  with_reducible repeat' first
    | assumption | refine Kept.foldl ?_ ?_ | refine State_putDue_ok ?_ | refine maxTotals_ok ?_ | intro _

theorem closePeriod_ok {a0 a1 a2 a3 s} (h : Kept q n f m s) : Kept q n f m (closePeriod a0 a1 a2 a3 s) := by
  unfold closePeriod
  with_reducible repeat' first
    | (simp only [Kept.mk_eq]; refine Kept.of ?_) | assumption | refine Kept.foldl ?_ ?_ | refine State_eventAt_ok ?_
    | refine State_put_ok ?_ | refine State_putDue_ok ?_ | refine clearMaxima_ok ?_ | split | intro _

theorem takeKeys_ok {a0 a1 a2 s} (h : Kept q n f m s) : Kept q n f m (takeKeys a0 a1 a2 s) := by
  unfold takeKeys
  with_reducible repeat' first
    | assumption | refine Kept.foldl ?_ ?_ | refine setC_ok ?_ | intro _

theorem schedPlan_ok {a0 a1 a2 s} (h : Kept q n f m s) : Kept q n f m (schedPlan a0 a1 a2 s).2 := by
  unfold schedPlan
  with_reducible repeat' first
    | assumption | refine mayAct_ok ?_ | refine waitLate_ok ?_ | refine Kept.ite_snd (fun _ => ?_) (fun _ => ?_) | split

theorem schedPlan_ok' {a0 a1 a2 s x t} (e : schedPlan a0 a1 a2 s = (x, t)) (h : Kept q n f m s) : Kept q n f m t := by
  have w := schedPlan_ok (n := n) (q := q) (f := f) (m := m) (a0 := a0) (a1 := a1) (a2 := a2) (s := s) h
  rw [e] at w; exact w

theorem schedPlans_ok {a0 a1 a2 s} (h : Kept q n f m s) : Kept q n f m (schedPlans a0 a1 a2 s).2 := by
  induction a2 generalizing s with
  | nil => exact h
  | cons _ l ih =>
    have ih' : ∀ {x t u}, schedPlans a0 a1 l u = (x, t) → Kept q n f m u → Kept q n f m t := fun {x t u} e h => by
      have w : Kept q n f m (schedPlans a0 a1 l u).2 := ih h; rw [e] at w; exact w
    unfold schedPlans
    with_reducible repeat' first
      | refine ih ?_ | assumption | refine schedPlan_ok ?_

theorem schedPlans_ok' {a0 a1 a2 s x t} (e : schedPlans a0 a1 a2 s = (x, t)) (h : Kept q n f m s) : Kept q n f m t := by
  have w := schedPlans_ok (n := n) (q := q) (f := f) (m := m) (a0 := a0) (a1 := a1) (a2 := a2) (s := s) h
  rw [e] at w; exact w

theorem closeSteps_ok {a0 a1 a2 s} (h : Kept q n f m s) : Kept q n f m (closeSteps a0 a1 a2 s) := by
  unfold closeSteps
  with_reducible repeat' first
    | assumption | refine Kept.foldl ?_ ?_ | refine closePeriod_ok ?_ | split | intro _

theorem switchStep_ok {a0 a1 a2 s} (h : Kept q n f m s) : Kept q n f m (switchStep a0 a1 a2 s) := by
  unfold switchStep
  with_reducible repeat' first
    | (simp only [Kept.mk_eq]; refine Kept.of ?_) | assumption | refine State_bump_ok ?_ | refine State_eventAt_ok ?_
    | refine takeKeys_ok ?_ | split

theorem switchSteps_ok {a0 a1 a2 s} (h : Kept q n f m s) : Kept q n f m (switchSteps a0 a1 a2 s) := by
  unfold switchSteps
  with_reducible repeat' first
    | assumption | refine Kept.foldl ?_ ?_ | refine switchStep_ok ?_ | intro _

theorem boundaryOpen_ok {a0 s} (h : Kept q n f m s) : Kept q n f m (boundaryOpen a0 s) := by
  unfold boundaryOpen
  with_reducible repeat' first
    | assumption | refine State_put_ok ?_

theorem stepDone_ok {a0 s} (h : Kept q n f m s) : Kept q n f m (stepDone a0 s) := by
  unfold stepDone
  with_reducible repeat' first
    | (simp only [Kept.mk_eq]; refine Kept.of ?_) | assumption | refine State_put_ok ?_

theorem boundaries_ok {a0 a1 a2 a3 s} (h : Kept q n f m s) : Kept q n f m (boundaries a0 a1 a2 a3 s).2 := by
  unfold boundaries
  with_reducible repeat' first
    | (simp only [Kept.mk_eq]; refine Kept.of ?_) | assumption | refine boundaryOpen_ok ?_ | refine closeSteps_ok ?_
    | refine schedPlans_ok ?_ | refine stepDone_ok ?_ | refine switchSteps_ok ?_ | refine Kept.ite_snd (fun _ => ?_) (fun _ => ?_)

theorem boundaries_ok' {a0 a1 a2 a3 s x t} (e : boundaries a0 a1 a2 a3 s = (x, t)) (h : Kept q n f m s) : Kept q n f m t := by
  have w := boundaries_ok (n := n) (q := q) (f := f) (m := m) (a0 := a0) (a1 := a1) (a2 := a2) (a3 := a3) (s := s) h
  rw [e] at w; exact w

theorem showCalendar_ok {a0 a1 s} (h : Kept q n f m s) : Kept q n f m (showCalendar a0 a1 s) := by
  unfold showCalendar
  with_reducible repeat' first
    | assumption | refine Kept.foldl ?_ ?_ | refine State_putDue_ok ?_ | refine Kept.ite (fun _ => ?_) (fun _ => ?_) | intro _

theorem profBuild_ok {a0 s} (h : Kept q n f m s) : Kept q n f m (profBuild a0 s) := by
  unfold profBuild
  with_reducible repeat' first
    | (simp only [Kept.mk_eq]; refine Kept.of ?_) | assumption | refine State_put_ok ?_

theorem profStep_ok {a0 s} (h : Kept q n f m s) : Kept q n f m (profStep a0 s) := by
  unfold profStep
  with_reducible repeat' first
    | (simp only [Kept.mk_eq]; refine Kept.of ?_) | assumption | refine profBuild_ok ?_ | split

theorem stepsMet_ok {a0 a1 s} (h : Kept q n f m s) : Kept q n f m (stepsMet a0 a1 s).2 := by
  unfold stepsMet
  with_reducible repeat' first
    | (simp only [Kept.mk_eq]; refine Kept.of ?_) | assumption | refine Kept.foldl ?_ ?_ | refine State_bump_ok ?_
    | refine State_eventAt_ok ?_ | refine setC_ok ?_ | refine setFlag_ok ?_ | refine Kept.ite (fun _ => ?_) (fun _ => ?_) | intro _

theorem stepsMet_ok' {a0 a1 s x t} (e : stepsMet a0 a1 s = (x, t)) (h : Kept q n f m s) : Kept q n f m t := by
  have w := stepsMet_ok (n := n) (q := q) (f := f) (m := m) (a0 := a0) (a1 := a1) (s := s) h
  rw [e] at w; exact w

theorem startFrame_ok {a0 a1 s} (h : Kept q n f m s) : Kept q n f m (startFrame a0 a1 s) := by
  unfold startFrame
  extract_lets s1
  have h1 : Kept q n f m s1 := profStep_ok (cfgFrame_ok h)
  clear_value s1
  split
  have h2 := stepsMet_ok' (by assumption) h1
  split
  have h3 := ivlSteps_ok' (by assumption) h2
  split
  have h4 := boundaries_ok' (by assumption) h3
  exact showCalendar_ok (a0 := a0) h4

/-! ### Pulse -/

theorem setOut_ok {a0 a1 s} (h : Kept q n f m s) : Kept q n f m (setOut a0 a1 s) := by
  unfold setOut
  with_reducible repeat' first
    | (simp only [Kept.mk_eq]; refine Kept.of ?_) | assumption

theorem outFrame_ok {a0 a1 s} (h : Kept q n f m s) : Kept q n f m (outFrame a0 a1 s) := by
  unfold outFrame
  with_reducible repeat' first
    | assumption | refine setOut_ok ?_ | split

theorem setPtAcc_ok {a0 a1 s} (h : Kept q n f m s) : Kept q n f m (setPtAcc a0 a1 s) := by
  unfold setPtAcc
  with_reducible repeat' first
    | (simp only [Kept.mk_eq]; refine Kept.of ?_) | assumption

theorem trainCct_ok {a0 a1 s} (h : Kept q n f m s) : Kept q n f m (trainCct a0 a1 s).2 := by
  unfold trainCct
  with_reducible repeat' first
    | assumption | refine setPtAcc_ok ?_ | split

theorem trainCct_ok' {a0 a1 s x t} (e : trainCct a0 a1 s = (x, t)) (h : Kept q n f m s) : Kept q n f m t := by
  have w := trainCct_ok (n := n) (q := q) (f := f) (m := m) (a0 := a0) (a1 := a1) (s := s) h
  rw [e] at w; exact w

theorem trainCcts_ok {a0 a1 s} (h : Kept q n f m s) : Kept q n f m (trainCcts a0 a1 s).2 := by
  induction a1 generalizing s with
  | nil => exact h
  | cons _ l ih =>
    have ih' : ∀ {x t u}, trainCcts a0 l u = (x, t) → Kept q n f m u → Kept q n f m t := fun {x t u} e h => by
      have w : Kept q n f m (trainCcts a0 l u).2 := ih h; rw [e] at w; exact w
    unfold trainCcts
    with_reducible repeat' first
      | refine ih ?_ | assumption | refine trainCct_ok ?_

theorem trainCcts_ok' {a0 a1 s x t} (e : trainCcts a0 a1 s = (x, t)) (h : Kept q n f m s) : Kept q n f m t := by
  have w := trainCcts_ok (n := n) (q := q) (f := f) (m := m) (a0 := a0) (a1 := a1) (s := s) h
  rw [e] at w; exact w

theorem pulseFrame_ok {a0 s} (h : Kept q n f m s) : Kept q n f m (pulseFrame a0 s) := by
  unfold pulseFrame
  with_reducible repeat' first
    | (simp only [Kept.mk_eq]; refine Kept.of ?_) | assumption | refine Kept.foldl ?_ ?_ | refine outFrame_ok ?_ | refine trainCcts_ok ?_
    | intro _

theorem showPending_ok {a0 s} (h : Kept q n f m s) : Kept q n f m (showPending a0 s) := by
  unfold showPending
  with_reducible repeat' first
    | assumption | refine State_putV_ok ?_ | refine Kept.ite (fun _ => ?_) (fun _ => ?_)

theorem execPulseStart_ok {a0 s t} (e : execPulseStart a0 s = .next t) (h : Kept q n f m s) : Kept q n f m t := by
  unfold execPulseStart at e
  injection e with e
  subst e
  with_reducible repeat' first
    | assumption | refine State_bumpV_ok ?_ | refine setOut_ok ?_ | refine showPending_ok ?_ | split

theorem execPulseEnd_ok {a0 s t} (e : execPulseEnd a0 s = .next t) (h : Kept q n f m s) : Kept q n f m t := by
  unfold execPulseEnd at e
  injection e with e
  subst e
  with_reducible repeat' first
    | assumption | refine setOut_ok ?_ | split

theorem trainBytes_ok {a0 a1 a2 a3 s} (h : Kept q n f m s) : Kept q n f m (trainBytes a0 a1 a2 a3 s).2 := by
  induction a3 generalizing s with
  | nil => exact h
  | cons _ l ih =>
    have ih' : ∀ {x t u}, trainBytes a0 a1 a2 l u = (x, t) → Kept q n f m u → Kept q n f m t := fun {x t u} e h => by
      have w : Kept q n f m (trainBytes a0 a1 a2 l u).2 := ih h; rw [e] at w; exact w
    unfold trainBytes
    with_reducible repeat' first
      | refine ih ?_ | (simp only [Kept.mk_eq]; refine Kept.of ?_) | assumption

theorem trainBytes_ok' {a0 a1 a2 a3 s x t} (e : trainBytes a0 a1 a2 a3 s = (x, t)) (h : Kept q n f m s) : Kept q n f m t := by
  have w := trainBytes_ok (n := n) (q := q) (f := f) (m := m) (a0 := a0) (a1 := a1) (a2 := a2) (a3 := a3) (s := s) h
  rw [e] at w; exact w

theorem trainDrop_ok {a0 a1 s} (h : Kept q n f m s) : Kept q n f m (trainDrop a0 a1 s) := by
  unfold trainDrop
  with_reducible repeat' first
    | (simp only [Kept.mk_eq]; refine Kept.of ?_) | assumption

theorem trainFrame_ok {a0 a1 a2 s} (h : Kept q n f m s) : Kept q n f m (trainFrame a0 a1 a2 s) := by
  unfold trainFrame
  with_reducible repeat' first
    | (simp only [Kept.mk_eq]; refine Kept.of ?_) | assumption | refine Kept.foldl ?_ ?_ | refine State_bumpV_ok ?_
    | refine trainBytes_ok ?_ | refine trainDrop_ok ?_ | refine Kept.ite (fun _ => ?_) (fun _ => ?_) | split | intro _

/-! ### Health -/

theorem setHand_ok {a0 s} (h : Kept q n f m s) : Kept q n f m (setHand a0 s) := h

theorem healthFrame_ok {a0 s} (h : Kept q n f m s) : Kept q n f m (healthFrame a0 s) := by
  unfold healthFrame
  with_reducible repeat' first
    | assumption | refine Kept.foldl ?_ ?_ | refine State_putDue_ok ?_ | refine setFlag_ok ?_ | refine setHand_ok ?_
    | refine Kept.ite (fun _ => ?_) (fun _ => ?_) | split | intro _

/-! ### Align -/

theorem setLane_ok {a0 a1 s} (h : Kept q n f m s) : Kept q n f m (setLane a0 a1 s) := h

theorem setEst_ok {a0 a1 a2 s} (h : Kept q n f m s) : Kept q n f m (setEst a0 a1 a2 s) := h

theorem addSpan_ok {a0 a1 a2 s} (h : Kept q n f m s) : Kept q n f m (addSpan a0 a1 a2 s) := h

theorem estStep_ok {a0 a1 a2 a3 s} (h : Kept q n f m s) : Kept q n f m (estStep a0 a1 a2 a3 s) := by
  unfold estStep
  with_reducible repeat' first
    | assumption | refine State_putDue_ok ?_ | refine State_putDueI_ok ?_ | refine setEst_ok ?_ | split

theorem tempInjStep_ok {a0 a1 a2 s} (h : Kept q n f m s) : Kept q n f m (tempInjStep a0 a1 a2 s) := by
  unfold tempInjStep
  with_reducible repeat' first
    | assumption | refine State_putDue_ok ?_ | refine State_putDueI_ok ?_ | refine Kept.ite (fun _ => ?_) (fun _ => ?_) | split

theorem settleStep_ok {a0 a1 s} (h : Kept q n f m s) : Kept q n f m (settleStep a0 a1 s) := by
  unfold settleStep
  with_reducible repeat' first
    | assumption | refine setLane_ok ?_ | refine Kept.ite (fun _ => ?_) (fun _ => ?_)

theorem bgLane_ok {a0 a1 a2 s} (h : Kept q n f m s) : Kept q n f m (bgLane a0 a1 a2 s) := by
  unfold bgLane
  with_reducible repeat' first
    | assumption | refine Kept.foldl ?_ ?_ | refine estStep_ok ?_ | refine settleStep_ok ?_ | refine tempInjStep_ok ?_ | intro _

theorem bgFrame_ok {a0 s} (h : Kept q n f m s) : Kept q n f m (bgFrame a0 s) := by
  unfold bgFrame
  with_reducible repeat' first
    | assumption | refine Kept.foldl ?_ ?_ | refine bgLane_ok ?_ | intro _

theorem gapFeed_ok {a0 a1 s} (h : Kept q n f m s) : Kept q n f m (gapFeed a0 a1 s) := by
  unfold gapFeed
  with_reducible repeat' first
    | assumption | refine setEst_ok ?_ | refine Kept.ite (fun _ => ?_) (fun _ => ?_) | split

theorem gapBreak_ok {a0 a1 s} (h : Kept q n f m s) : Kept q n f m (gapBreak a0 a1 s) := by
  unfold gapBreak
  with_reducible repeat' first
    | assumption | refine setEst_ok ?_ | split

theorem gapTake_ok {a0 a1 a2 s} (h : Kept q n f m s) : Kept q n f m (gapTake a0 a1 a2 s) := by
  unfold gapTake
  with_reducible repeat' first
    | assumption | refine gapBreak_ok ?_ | refine gapFeed_ok ?_ | refine setLane_ok ?_ | refine Kept.ite (fun _ => ?_) (fun _ => ?_)

theorem streamTake_ok {a0 a1 s} (h : Kept q n f m s) : Kept q n f m (streamTake a0 a1 s) := by
  unfold streamTake
  with_reducible repeat' first
    | (simp only [Kept.mk_eq]; refine Kept.of ?_) | assumption | refine State_putDue_ok ?_ | split

theorem takeStream_ok {a0 a1 a2 a3 s} (h : Kept q n f m s) : Kept q n f m (takeStream a0 a1 a2 a3 s) := by
  unfold takeStream
  with_reducible repeat' first
    | assumption | refine streamTake_ok ?_ | refine Kept.ite (fun _ => ?_) (fun _ => ?_)

theorem dropExtra_ok {a0 s} (h : Kept q n f m s) : Kept q n f m (dropExtra a0 s) := h

theorem channelPartner_ok {a0 a1 s} (h : Kept q n f m s) : Kept q n f m (channelPartner a0 a1 s) := by
  unfold channelPartner
  with_reducible repeat' first
    | assumption | refine dropExtra_ok ?_ | refine unitSet_ok ?_ | split

theorem laneRetire_ok {a0 a1 s} (h : Kept q n f m s) : Kept q n f m (laneRetire a0 a1 s) := by
  unfold laneRetire
  with_reducible repeat' first
    | (simp only [Kept.mk_eq]; refine Kept.of ?_) | assumption | refine Kept.foldl ?_ ?_ | refine State_event_ok ?_
    | refine State_put_ok ?_ | refine State_putLive_ok ?_ | refine addSpan_ok ?_ | refine channelPartner_ok ?_ | refine recredit0_ok ?_
    | refine setLane_ok ?_ | refine stopStreams_ok ?_ | split | intro _

theorem unreplaceUnit_ok {a0 a1 a2 s} (h : Kept q n f m s) : Kept q n f m (unreplaceUnit a0 a1 a2 s) := h

theorem transients_ok {a0 a1 a2 a3 s} (h : Kept q n f m s) : Kept q n f m (transients a0 a1 a2 a3 s) := by
  unfold transients
  with_reducible repeat' first
    | assumption | refine State_bump_ok ?_ | refine State_bumpBy_ok ?_ | refine State_event_ok ?_ | refine addSpan_ok ?_
    | refine unreplaceUnit_ok ?_ | refine Kept.ite (fun _ => ?_) (fun _ => ?_)

theorem breakRuns_ok {a0 s} (h : Kept q n f m s) : Kept q n f m (breakRuns a0 s) := h

theorem gapsDo_ok {a0 a1 a2 s} (h : Kept q n f m s) : Kept q n f m (gapsDo a0 a1 a2 s) := by
  unfold gapsDo
  with_reducible repeat' first
    | assumption | refine Kept.foldl ?_ ?_ | refine gapTake_ok ?_ | refine setLane_ok ?_ | split | intro _

theorem laneCheck_ok {a0 a1 s} (h : Kept q n f m s) : Kept q n f m (laneCheck a0 a1 s) := by
  unfold laneCheck
  with_reducible repeat' first
    | assumption | refine State_bump_ok ?_ | refine State_put_ok ?_ | refine breakRuns_ok ?_ | refine gapsDo_ok ?_ | refine setLane_ok ?_
    | refine transients_ok ?_ | refine unitFail_ok ?_ | refine unitPass_ok ?_ | refine Kept.ite (fun _ => ?_) (fun _ => ?_)

theorem noteAff_ok {a0 s} (h : Kept q n f m s) : Kept q n f m (noteAff a0 s) := by
  unfold noteAff
  with_reducible repeat' first
    | assumption | refine setLane_ok ?_ | split

theorem gapsTake_ok {a0 s} (h : Kept q n f m s) : Kept q n f m (gapsTake a0 s) := h

theorem laneFrame_ok {a0 s} (h : Kept q n f m s) : Kept q n f m (laneFrame a0 s) := by
  unfold laneFrame
  with_reducible repeat' first
    | assumption | refine Kept.foldl ?_ ?_ | refine bgFrame_ok ?_ | refine laneCheck_ok ?_ | refine laneRetire_ok ?_
    | refine transients_ok ?_ | split | intro _

theorem alignTake_ok {a0 s} (h : Kept q n f m s) : Kept q n f m (alignTake a0 s) := by
  unfold alignTake
  with_reducible repeat' first
    | (simp only [Kept.mk_eq]; refine Kept.of ?_) | assumption | refine Kept.foldl ?_ ?_ | refine gapsTake_ok ?_ | refine laneFrame_ok ?_
    | refine noteAff_ok ?_ | refine takeStream_ok ?_ | split | intro _

theorem stopDisabled_ok {a0 s} (h : Kept q n f m s) : Kept q n f m (stopDisabled a0 s) := h

theorem countClips_ok {a0 a1 s} (h : Kept q n f m s) : Kept q n f m (countClips a0 a1 s) := by
  unfold countClips
  with_reducible repeat' first
    | assumption | refine Kept.foldl ?_ ?_ | refine State_putDue_ok ?_ | split | intro _

theorem execAlignerSample_ok {s t} (e : execAlignerSample s = .next t) (h : Kept q n f m s) : Kept q n f m t := by
  unfold execAlignerSample at e
  injection e with e
  subst e
  with_reducible repeat' first
    | (simp only [Kept.mk_eq]; refine Kept.of ?_) | assumption | refine State_bump_ok ?_ | refine alignTake_ok ?_
    | refine countClips_ok ?_ | refine stopDisabled_ok ?_ | refine Kept.ite (fun _ => ?_) (fun _ => ?_)

/-! ### Subst -/

theorem warmSpectrum_ok {a0 a1 s} (h : Kept q n f m s) : Kept q n f m (warmSpectrum a0 a1 s) := by
  unfold warmSpectrum
  with_reducible repeat' first
    | (simp only [Kept.mk_eq]; refine Kept.of ?_) | assumption | refine Kept.foldl ?_ ?_ | refine State_putDue_ok ?_ | intro _

theorem harmLost_ok {a0 a1 s} (h : Kept q n f m s) : Kept q n f m (harmLost a0 a1 s) := by
  unfold harmLost
  with_reducible repeat' first
    | assumption | refine Kept.foldl ?_ ?_ | refine warmSpectrum_ok ?_ | intro _

theorem lockLost_ok {a0 a1 a2 s} (h : Kept q n f m s) : Kept q n f m (lockLost a0 a1 a2 s) := by
  unfold lockLost
  with_reducible repeat' first
    | assumption | refine Kept.foldl ?_ ?_ | refine State_bump_ok ?_ | refine State_eventAt_ok ?_ | refine State_putDue_ok ?_
    | refine harmLost_ok ?_ | refine setZc_ok ?_ | split | intro _

theorem lockRelease_ok {a0 a1 s} (h : Kept q n f m s) : Kept q n f m (lockRelease a0 a1 s) := by
  unfold lockRelease
  with_reducible repeat' first
    | assumption | refine lockLost_ok ?_ | refine setZc_ok ?_ | refine winsLost_ok ?_ | refine Kept.ite (fun _ => ?_) (fun _ => ?_)

theorem substSelect_ok {a0 a1 s} (h : Kept q n f m s) : Kept q n f m (substSelect a0 a1 s) := by
  unfold substSelect
  with_reducible repeat' first
    | (simp only [Kept.mk_eq]; refine Kept.of ?_) | assumption | refine State_event_ok ?_ | refine State_putLive_ok ?_

theorem substDrop_ok {a0 s} (h : Kept q n f m s) : Kept q n f m (substDrop a0 s) := by
  unfold substDrop
  with_reducible repeat' first
    | (simp only [Kept.mk_eq]; refine Kept.of ?_) | assumption | refine State_putLive_ok ?_

theorem substChange_ok {a0 a1 s} (h : Kept q n f m s) : Kept q n f m (substChange a0 a1 s) := by
  unfold substChange
  with_reducible repeat' first
    | assumption | refine lockRelease_ok ?_ | refine substDrop_ok ?_ | refine substSelect_ok ?_ | split

theorem substAgain_ok {a0 a1 a2 s} (h : Kept q n f m s) : Kept q n f m (substAgain a0 a1 a2 s) := by
  unfold substAgain
  with_reducible repeat' first
    | (simp only [Kept.mk_eq]; refine Kept.of ?_) | assumption | refine substSelect_ok ?_ | refine Kept.ite (fun _ => ?_) (fun _ => ?_)

theorem substReview_ok {a0 s} (h : Kept q n f m s) : Kept q n f m (substReview a0 s) := by
  unfold substReview
  with_reducible repeat' first
    | assumption | refine Kept.foldl ?_ ?_ | refine substAgain_ok ?_ | refine substChange_ok ?_ | split | intro _

end Sys2Proof.Machine
end

