-- ==== Sys2Proof/Laws/KeptTimeBase.lean ====
section
/-! SUPPORT. What the operations of these files keep: TimeBase, TanCfg, Tannery, Hallmark. -/

namespace Sys2Proof.Machine

variable {q : List Instr} {n f : Nat} {m : Mode}

/-! ### TimeBase -/

theorem setTb_ok {a0 s} (h : Kept q n f m s) : Kept q n f m (setTb a0 s) := by
  unfold setTb
  with_reducible repeat' first
    | (simp only [Kept.mk_eq]; refine Kept.of ?_) | assumption

theorem tbSetState_ok {a0 a1 s} (h : Kept q n f m s) : Kept q n f m (tbSetState a0 a1 s) := by
  unfold tbSetState
  with_reducible repeat' first
    | assumption | refine State_putDue_ok ?_

theorem tbSearch_ok {a0 s} (h : Kept q n f m s) : Kept q n f m (tbSearch a0 s) := by
  unfold tbSearch
  with_reducible repeat' first
    | assumption | refine State_putDue_ok ?_ | refine setTb_ok ?_ | refine tbSetState_ok ?_

theorem tbLose_ok {a0 s} (h : Kept q n f m s) : Kept q n f m (tbLose a0 s) := by
  unfold tbLose
  with_reducible repeat' first
    | assumption | refine State_event_ok ?_ | refine tbSearch_ok ?_

theorem tbOff_ok {a0 s} (h : Kept q n f m s) : Kept q n f m (tbOff a0 s) := by
  unfold tbOff
  with_reducible repeat' first
    | assumption | refine setTb_ok ?_ | refine tbSearch_ok ?_ | refine tbSetState_ok ?_

theorem tbUse_ok {a0 a1 s} (h : Kept q n f m s) : Kept q n f m (tbUse a0 a1 s) := by
  unfold tbUse
  with_reducible repeat' first
    | assumption | refine setTb_ok ?_

theorem tbMiss_ok {a0 s} (h : Kept q n f m s) : Kept q n f m (tbMiss a0 s) := by
  unfold tbMiss
  with_reducible repeat' first
    | assumption | refine State_bump_ok ?_ | refine setTb_ok ?_ | refine tbSetState_ok ?_ | refine tbUse_ok ?_
    | refine Kept.ite (fun _ => ?_) (fun _ => ?_)

theorem tbAccept_ok {a0 a1 s} (h : Kept q n f m s) : Kept q n f m (tbAccept a0 a1 s) := by
  unfold tbAccept
  with_reducible repeat' first
    | assumption | refine setTb_ok ?_ | refine tbSetState_ok ?_ | refine tbUse_ok ?_ | refine Kept.ite (fun _ => ?_) (fun _ => ?_)

theorem tbSeed_ok {a0 a1 s} (h : Kept q n f m s) : Kept q n f m (tbSeed a0 a1 s) := by
  unfold tbSeed
  with_reducible repeat' first
    | assumption | refine State_event_ok ?_ | refine State_putDue_ok ?_ | refine setTb_ok ?_ | refine tbSetState_ok ?_
    | refine tbUse_ok ?_ | refine Kept.ite (fun _ => ?_) (fun _ => ?_)

theorem tbReject_ok {a0 s} (h : Kept q n f m s) : Kept q n f m (tbReject a0 s) := by
  unfold tbReject
  with_reducible repeat' first
    | assumption | refine State_putDue_ok ?_

theorem tbStep_ok {a0 a1 a2 s} (h : Kept q n f m s) : Kept q n f m (tbStep a0 a1 a2 s) := by
  induction a0 generalizing s a1 a2 with
  | zero => exact h
  | succ _ ih =>
    unfold tbStep
    with_reducible repeat' first
      | refine ih ?_ | assumption | refine tbAccept_ok ?_ | refine tbMiss_ok ?_ | refine tbReject_ok ?_ | refine tbSeed_ok ?_ | split

theorem tbCrossing_ok {a0 a1 a2 s} (h : Kept q n f m s) : Kept q n f m (tbCrossing a0 a1 a2 s) := by
  unfold tbCrossing
  with_reducible repeat' first
    | assumption | refine tbStep_ok ?_ | split

theorem tbCatchUp_ok {a0 a1 s} (h : Kept q n f m s) : Kept q n f m (tbCatchUp a0 a1 s) := by
  induction a0 generalizing s a1 with
  | zero => exact h
  | succ _ ih =>
    unfold tbCatchUp
    with_reducible repeat' first
      | refine ih ?_ | assumption | refine tbMiss_ok ?_ | split

theorem notePdc_ok {s} (h : Kept q n f m s) : Kept q n f m (notePdc s) := by
  unfold notePdc
  with_reducible repeat' first
    | (simp only [Kept.mk_eq]; refine Kept.of ?_) | assumption

theorem countTx_ok {s} (h : Kept q n f m s) : Kept q n f m (countTx s) := by
  unfold countTx
  with_reducible repeat' first
    | assumption | refine State_bumpLive_ok ?_ | refine notePdc_ok ?_

theorem annSent_ok {a0 s} (h : Kept q n f m s) : Kept q n f m (annSent a0 s) := by
  unfold annSent
  with_reducible repeat' first
    | (simp only [Kept.mk_eq]; refine Kept.of ?_) | assumption | refine countTx_ok ?_ | split

theorem tbFrame_ok {a0 s} (h : Kept q n f m s) : Kept q n f m (tbFrame a0 s) := by
  unfold tbFrame
  try dsimp only
  with_reducible repeat' first
    | assumption | refine State_putDue_ok ?_ | refine annSent_ok ?_ | refine tbCatchUp_ok ?_ | refine tbLose_ok ?_ | split

theorem execTbHoldoverExpiry_ok {s t} (e : execTbHoldoverExpiry s = .next t) (h : Kept q n f m s) : Kept q n f m t := by
  unfold execTbHoldoverExpiry at e
  injection e with e
  subst e
  with_reducible repeat' first
    | assumption | refine setTb_ok ?_ | refine tbLose_ok ?_ | split

/-! ### TanCfg -/

theorem inputReset_ok {a0 a1 s} (h : Kept q n f m s) : Kept q n f m (inputReset a0 a1 s) := by
  unfold inputReset
  with_reducible repeat' first
    | (simp only [Kept.mk_eq]; refine Kept.of ?_) | assumption | refine Kept.foldl ?_ ?_ | refine State_putDue_ok ?_
    | refine lockRelease_ok ?_ | split | intro _

theorem groupsEnd_ok {a0 a1 a2 s} (h : Kept q n f m s) : Kept q n f m (groupsEnd a0 a1 a2 s) := by
  unfold groupsEnd
  with_reducible repeat' first
    | assumption | refine Kept.foldl ?_ ?_ | refine groupEnd_ok ?_ | split | intro _

theorem vDetCfg_ok {a0 a1 s} (h : Kept q n f m s) : Kept q n f m (vDetCfg a0 a1 s) := by
  unfold vDetCfg
  with_reducible repeat' first
    | (simp only [Kept.mk_eq]; refine Kept.of ?_) | assumption | refine groupsEnd_ok ?_

theorem ocCfg_ok {a0 s} (h : Kept q n f m s) : Kept q n f m (ocCfg a0 s) := by
  unfold ocCfg
  with_reducible repeat' first
    | (simp only [Kept.mk_eq]; refine Kept.of ?_) | assumption | refine Kept.foldl ?_ ?_ | refine ocEnd_ok ?_
    | refine Kept.ite (fun _ => ?_) (fun _ => ?_) | intro _

theorem cctTanCfg_ok {a0 s} (h : Kept q n f m s) : Kept q n f m (cctTanCfg a0 s) := by
  unfold cctTanCfg
  with_reducible repeat' first
    | (simp only [Kept.mk_eq]; refine Kept.of ?_) | assumption | refine Kept.foldl ?_ ?_ | refine State_putDue_ok ?_ | refine niEnd_ok ?_
    | refine plEnd_ok ?_ | refine Kept.ite (fun _ => ?_) (fun _ => ?_) | intro _

theorem baseCfg_ok {a0 a1 s} (h : Kept q n f m s) : Kept q n f m (baseCfg a0 a1 s) := by
  unfold baseCfg
  with_reducible repeat' first
    | assumption | refine Kept.foldl ?_ ?_ | refine State_put_ok ?_ | refine Kept.ite (fun _ => ?_) (fun _ => ?_) | intro _

theorem capCfg_ok {a0 s} (h : Kept q n f m s) : Kept q n f m (capCfg a0 s) := by
  unfold capCfg
  with_reducible repeat' first
    | (simp only [Kept.mk_eq]; refine Kept.of ?_) | assumption | refine State_putDue_ok ?_ | refine capCut_ok ?_
    | refine Kept.ite (fun _ => ?_) (fun _ => ?_)

theorem bandCfg_ok {a0 s} (h : Kept q n f m s) : Kept q n f m (bandCfg a0 s) := by
  unfold bandCfg
  with_reducible repeat' first
    | (simp only [Kept.mk_eq]; refine Kept.of ?_) | assumption | refine State_putLive_ok ?_ | split

theorem setAngle_ok {a0 a1 s} (h : Kept q n f m s) : Kept q n f m (setAngle a0 a1 s) := by
  unfold setAngle
  try dsimp only
  with_reducible repeat' first
    | (simp only [Kept.mk_eq]; refine Kept.of ?_) | assumption | refine State_putDue_ok ?_ | refine setZc_ok ?_ | split

theorem angleCfg_ok {a0 s} (h : Kept q n f m s) : Kept q n f m (angleCfg a0 s) := by
  unfold angleCfg
  with_reducible repeat' first
    | assumption | refine Kept.foldl ?_ ?_ | refine setAngle_ok ?_ | refine setZc_ok ?_ | split | intro _

theorem harmCfg_ok {a0 a1 s} (h : Kept q n f m s) : Kept q n f m (harmCfg a0 a1 s) := by
  unfold harmCfg
  with_reducible repeat' first
    | (simp only [Kept.mk_eq]; refine Kept.of ?_) | assumption | refine State_putDue_ok ?_ | split

theorem tanCfg_ok {a0 s} (h : Kept q n f m s) : Kept q n f m (tanCfg a0 s) := by
  unfold tanCfg
  with_reducible repeat' first
    | assumption | refine Kept.foldl ?_ ?_ | refine angleCfg_ok ?_ | refine bandCfg_ok ?_ | refine baseCfg_ok ?_ | refine capCfg_ok ?_
    | refine cctTanCfg_ok ?_ | refine harmCfg_ok ?_ | refine inputReset_ok ?_ | refine ocCfg_ok ?_ | refine vDetCfg_ok ?_
    | refine Kept.ite (fun _ => ?_) (fun _ => ?_) | intro _

/-! ### Tannery -/

theorem ownVolt_ok {a0 a1 s} (h : Kept q n f m s) : Kept q n f m (ownVolt a0 a1 s).2 := by
  unfold ownVolt
  with_reducible repeat' first
    | (simp only [Kept.mk_eq]; refine Kept.of ?_) | assumption | split

theorem ownVolt_ok' {a0 a1 s x t} (e : ownVolt a0 a1 s = (x, t)) (h : Kept q n f m s) : Kept q n f m t := by
  have w := ownVolt_ok (n := n) (q := q) (f := f) (m := m) (a0 := a0) (a1 := a1) (s := s) h
  rw [e] at w; exact w

theorem ownVolts_ok {a0 a1 s} (h : Kept q n f m s) : Kept q n f m (ownVolts a0 a1 s).2 := by
  induction a1 generalizing s with
  | nil => exact h
  | cons _ l ih =>
    have ih' : ∀ {x t u}, ownVolts a0 l u = (x, t) → Kept q n f m u → Kept q n f m t := fun {x t u} e h => by
      have w : Kept q n f m (ownVolts a0 l u).2 := ih h; rw [e] at w; exact w
    unfold ownVolts
    with_reducible repeat' first
      | refine ih ?_ | assumption | refine ownVolt_ok ?_

theorem ownVolts_ok' {a0 a1 s x t} (e : ownVolts a0 a1 s = (x, t)) (h : Kept q n f m s) : Kept q n f m t := by
  have w := ownVolts_ok (n := n) (q := q) (f := f) (m := m) (a0 := a0) (a1 := a1) (s := s) h
  rw [e] at w; exact w

theorem decideBand_ok {a0 a1 s} (h : Kept q n f m s) : Kept q n f m (decideBand a0 a1 s) := by
  unfold decideBand
  with_reducible repeat' first
    | (simp only [Kept.mk_eq]; refine Kept.of ?_) | assumption | refine State_putLive_ok ?_ | split

theorem lockAngles_ok {a0 a1 s} (h : Kept q n f m s) : Kept q n f m (lockAngles a0 a1 s) := by
  unfold lockAngles
  with_reducible repeat' first
    | assumption | refine Kept.foldl ?_ ?_ | refine setAngle_ok ?_ | split | intro _

theorem positiveCrossing_ok {a0 a1 a2 s} (h : Kept q n f m s) : Kept q n f m (positiveCrossing a0 a1 a2 s) := by
  unfold positiveCrossing
  with_reducible repeat' first
    | assumption | refine State_putDue_ok ?_ | refine setAngle_ok ?_ | refine setZc_ok ?_ | refine tbCrossing_ok ?_

theorem zopEffect_ok {a0 a1 a2 s} (h : Kept q n f m s) : Kept q n f m (zopEffect a0 a1 a2 s) := by
  unfold zopEffect
  with_reducible repeat' first
    | assumption | refine State_putDue_ok ?_ | refine decideBand_ok ?_ | refine lockAngles_ok ?_ | refine lockLost_ok ?_
    | refine positiveCrossing_ok ?_ | split

theorem scanVolt_ok {a0 a1 a2 s} (h : Kept q n f m s) : Kept q n f m (scanVolt a0 a1 a2 s).2 := by
  unfold scanVolt
  with_reducible repeat' first
    | assumption | refine Kept.foldl ?_ ?_ | refine setZc_ok ?_ | refine zopEffect_ok ?_ | refine Kept.ite_snd (fun _ => ?_) (fun _ => ?_)
    | intro _

theorem scanVolt_ok' {a0 a1 a2 s x t} (e : scanVolt a0 a1 a2 s = (x, t)) (h : Kept q n f m s) : Kept q n f m t := by
  have w := scanVolt_ok (n := n) (q := q) (f := f) (m := m) (a0 := a0) (a1 := a1) (a2 := a2) (s := s) h
  rw [e] at w; exact w

theorem scanVolts_ok {a0 a1 a2 s} (h : Kept q n f m s) : Kept q n f m (scanVolts a0 a1 a2 s).2 := by
  induction a2 generalizing s with
  | nil => exact h
  | cons _ l ih =>
    have ih' : ∀ {x t u}, scanVolts a0 a1 l u = (x, t) → Kept q n f m u → Kept q n f m t := fun {x t u} e h => by
      have w : Kept q n f m (scanVolts a0 a1 l u).2 := ih h; rw [e] at w; exact w
    unfold scanVolts
    with_reducible repeat' first
      | refine ih ?_ | assumption | refine scanVolt_ok ?_

theorem scanVolts_ok' {a0 a1 a2 s x t} (e : scanVolts a0 a1 a2 s = (x, t)) (h : Kept q n f m s) : Kept q n f m t := by
  have w := scanVolts_ok (n := n) (q := q) (f := f) (m := m) (a0 := a0) (a1 := a1) (a2 := a2) (s := s) h
  rw [e] at w; exact w

theorem sigFrame_ok {a0 a1 a2 s} (h : Kept q n f m s) : Kept q n f m (sigFrame a0 a1 a2 s) := by
  unfold sigFrame
  with_reducible repeat' first
    | assumption | refine Kept.foldl ?_ ?_ | refine setSig_ok ?_ | split | intro _

theorem cctFrame_ok {a0 a1 a2 a3 s} (h : Kept q n f m s) : Kept q n f m (cctFrame a0 a1 a2 a3 s).2 := by
  unfold cctFrame
  with_reducible repeat' first
    | assumption | refine setCwin_ok ?_

theorem cctFrame_ok' {a0 a1 a2 a3 s x t} (e : cctFrame a0 a1 a2 a3 s = (x, t)) (h : Kept q n f m s) : Kept q n f m t := by
  have w := cctFrame_ok (n := n) (q := q) (f := f) (m := m) (a0 := a0) (a1 := a1) (a2 := a2) (a3 := a3) (s := s) h
  rw [e] at w; exact w

theorem cctFrames_ok {a0 a1 a2 a3 s} (h : Kept q n f m s) : Kept q n f m (cctFrames a0 a1 a2 a3 s).2 := by
  induction a3 generalizing s with
  | nil => exact h
  | cons _ l ih =>
    have ih' : ∀ {x t u}, cctFrames a0 a1 a2 l u = (x, t) → Kept q n f m u → Kept q n f m t := fun {x t u} e h => by
      have w : Kept q n f m (cctFrames a0 a1 a2 l u).2 := ih h; rw [e] at w; exact w
    unfold cctFrames
    with_reducible repeat' first
      | refine ih ?_ | assumption | refine cctFrame_ok ?_

theorem cctFrames_ok' {a0 a1 a2 a3 s x t} (e : cctFrames a0 a1 a2 a3 s = (x, t)) (h : Kept q n f m s) : Kept q n f m t := by
  have w := cctFrames_ok (n := n) (q := q) (f := f) (m := m) (a0 := a0) (a1 := a1) (a2 := a2) (a3 := a3) (s := s) h
  rw [e] at w; exact w

theorem baseFrame_ok {a0 a1 a2 s} (h : Kept q n f m s) : Kept q n f m (baseFrame a0 a1 a2 s) := by
  unfold baseFrame
  with_reducible repeat' first
    | (simp only [Kept.mk_eq]; refine Kept.of ?_) | assumption | refine putTotal_ok ?_ | refine Kept.ite (fun _ => ?_) (fun _ => ?_)

theorem baseAdd_ok {a0 a1 a2 s} (h : Kept q n f m s) : Kept q n f m (baseAdd a0 a1 a2 s) := by
  unfold baseAdd
  with_reducible repeat' first
    | assumption | refine putTotal_ok ?_ | split

theorem baseGap_ok {a0 a1 a2 s} (h : Kept q n f m s) : Kept q n f m (baseGap a0 a1 a2 s) := by
  unfold baseGap
  with_reducible repeat' first
    | (simp only [Kept.mk_eq]; refine Kept.of ?_) | assumption | refine Kept.foldl ?_ ?_ | refine baseAdd_ok ?_ | split | intro _

theorem baseFrames_ok {a0 a1 s} (h : Kept q n f m s) : Kept q n f m (baseFrames a0 a1 s).2 := by
  unfold baseFrames
  with_reducible repeat' first
    | (simp only [Kept.mk_eq]; refine Kept.of ?_) | assumption | refine Kept.foldl ?_ ?_ | refine baseFrame_ok ?_ | refine baseGap_ok ?_
    | intro _

theorem baseFrames_ok' {a0 a1 s x t} (e : baseFrames a0 a1 s = (x, t)) (h : Kept q n f m s) : Kept q n f m t := by
  have w := baseFrames_ok (n := n) (q := q) (f := f) (m := m) (a0 := a0) (a1 := a1) (s := s) h
  rw [e] at w; exact w

theorem clockFrame_ok {a0 a1 a2 s} (h : Kept q n f m s) : Kept q n f m (clockFrame a0 a1 a2 s).2 := by
  unfold clockFrame
  with_reducible repeat' first
    | (simp only [Kept.mk_eq]; refine Kept.of ?_) | assumption | refine Kept.ite_snd (fun _ => ?_) (fun _ => ?_)

theorem clockFrame_ok' {a0 a1 a2 s x t} (e : clockFrame a0 a1 a2 s = (x, t)) (h : Kept q n f m s) : Kept q n f m t := by
  have w := clockFrame_ok (n := n) (q := q) (f := f) (m := m) (a0 := a0) (a1 := a1) (a2 := a2) (s := s) h
  rw [e] at w; exact w

theorem clockFrames_ok {a0 a1 a2 s} (h : Kept q n f m s) : Kept q n f m (clockFrames a0 a1 a2 s).2 := by
  induction a2 generalizing s with
  | nil => exact h
  | cons _ l ih =>
    have ih' : ∀ {x t u}, clockFrames a0 a1 l u = (x, t) → Kept q n f m u → Kept q n f m t := fun {x t u} e h => by
      have w : Kept q n f m (clockFrames a0 a1 l u).2 := ih h; rw [e] at w; exact w
    unfold clockFrames
    with_reducible repeat' first
      | refine ih ?_ | assumption | refine clockFrame_ok ?_

theorem clockFrames_ok' {a0 a1 a2 s x t} (e : clockFrames a0 a1 a2 s = (x, t)) (h : Kept q n f m s) : Kept q n f m t := by
  have w := clockFrames_ok (n := n) (q := q) (f := f) (m := m) (a0 := a0) (a1 := a1) (a2 := a2) (s := s) h
  rw [e] at w; exact w

theorem harmSamples_ok {a0 a1 a2 a3 a4 s} (h : Kept q n f m s) : Kept q n f m (harmSamples a0 a1 a2 a3 a4 s) := by
  unfold harmSamples
  with_reducible repeat' first
    | (simp only [Kept.mk_eq]; refine Kept.of ?_) | assumption

theorem harmFrame_ok {a0 a1 a2 a3 s} (h : Kept q n f m s) : Kept q n f m (harmFrame a0 a1 a2 a3 s) := by
  unfold harmFrame
  with_reducible repeat' first
    | (simp only [Kept.mk_eq]; refine Kept.of ?_) | assumption | refine State_putDue_ok ?_ | split

theorem harmWarm_ok {a0 s} (h : Kept q n f m s) : Kept q n f m (harmWarm a0 s) := by
  unfold harmWarm
  with_reducible repeat' first
    | assumption | refine Kept.foldl ?_ ?_ | refine State_dropDue_ok ?_ | refine State_putDue_ok ?_ | refine setCwin_ok ?_
    | refine Kept.ite (fun _ => ?_) (fun _ => ?_) | intro _

theorem hideRetired_ok {a0 a1 s} (h : Kept q n f m s) : Kept q n f m (hideRetired a0 a1 s) := by
  unfold hideRetired
  with_reducible repeat' first
    | assumption | refine Kept.foldl ?_ ?_ | refine State_putDue_ok ?_ | split | intro _

theorem voltPublish_ok {a0 s} (h : Kept q n f m s) : Kept q n f m (voltPublish a0 s) := by
  unfold voltPublish
  with_reducible repeat' first
    | assumption | refine Kept.foldl ?_ ?_ | refine State_putDue_ok ?_ | refine hideRetired_ok ?_ | refine pubInput_ok ?_ | split
    | intro _

theorem chanPublish_ok {a0 s} (h : Kept q n f m s) : Kept q n f m (chanPublish a0 s) := by
  unfold chanPublish
  with_reducible repeat' first
    | assumption | refine Kept.foldl ?_ ?_ | refine State_putDue_ok ?_ | refine hideRetired_ok ?_ | intro _

theorem emergTriggers_ok {a0 s} (h : Kept q n f m s) : Kept q n f m (emergTriggers a0 s) := by
  unfold emergTriggers
  with_reducible repeat' first
    | (simp only [Kept.mk_eq]; refine Kept.of ?_) | assumption | refine Kept.foldl ?_ ?_ | refine capTrigger_ok ?_ | split | intro _

theorem nowTrigger_ok {a0 s} (h : Kept q n f m s) : Kept q n f m (nowTrigger a0 s) := by
  unfold nowTrigger
  with_reducible repeat' first
    | (simp only [Kept.mk_eq]; refine Kept.of ?_) | assumption | refine State_bump_ok ?_ | refine capStart_ok ?_
    | refine Kept.ite (fun _ => ?_) (fun _ => ?_) | split

theorem execFreq10sIntervalEnd_ok {s t} (e : execFreq10sIntervalEnd s = .next t) (h : Kept q n f m s) : Kept q n f m t := by
  unfold execFreq10sIntervalEnd at e
  injection e with e
  subst e
  with_reducible repeat' first
    | (simp only [Kept.mk_eq]; refine Kept.of ?_) | assumption | refine Kept.foldl ?_ ?_ | refine State_putDue_ok ?_ | refine setZc_ok ?_
    | split | intro _

theorem execHalfCycleTimeout_ok {a0 s t} (e : execHalfCycleTimeout a0 s = .next t) (h : Kept q n f m s) : Kept q n f m t := by
  unfold execHalfCycleTimeout at e
  injection e with e
  subst e
  with_reducible repeat' first
    | (simp only [Kept.mk_eq]; refine Kept.of ?_) | assumption | refine State_putDue_ok ?_ | refine halfEnd_ok ?_ | refine pqPublish_ok ?_
    | split

theorem romFrame_ok {a0 s} (h : Kept q n f m s) : Kept q n f m (romFrame a0 s) := by
  unfold romFrame
  with_reducible repeat' first
    | (simp only [Kept.mk_eq]; refine Kept.of ?_) | assumption | refine baseFrames_ok ?_ | refine ownVolts_ok ?_

theorem tanneryCap_ok {a0 s} (h : Kept q n f m s) : Kept q n f m (tanneryCap a0 s) := by
  unfold tanneryCap
  with_reducible repeat' first
    | assumption | refine capCollect_ok ?_ | refine capPush_ok ?_ | refine emergTriggers_ok ?_ | split

theorem tanneryHarm_ok {a0 a1 s} (h : Kept q n f m s) : Kept q n f m (tanneryHarm a0 a1 s) := by
  unfold tanneryHarm
  with_reducible repeat' first
    | assumption | refine Kept.foldl ?_ ?_ | refine clockFrames_ok ?_ | refine harmFrame_ok ?_ | refine harmSamples_ok ?_ | split
    | intro _

theorem tanneryShow_ok {a0 s} (h : Kept q n f m s) : Kept q n f m (tanneryShow a0 s) := by
  unfold tanneryShow
  with_reducible repeat' first
    | assumption | refine chanPublish_ok ?_ | refine harmWarm_ok ?_ | refine pqPublish_ok ?_ | refine tbFrame_ok ?_
    | refine voltPublish_ok ?_

theorem tanneryDone_ok {a0 a1 a2 s} (h : Kept q n f m s) : Kept q n f m (tanneryDone a0 a1 a2 s) := by
  unfold tanneryDone
  with_reducible repeat' first
    | (simp only [Kept.mk_eq]; refine Kept.of ?_) | assumption | split

theorem tanneryFrame_ok {a0 a1 a2 s} (h : Kept q n f m s) : Kept q n f m (tanneryFrame a0 a1 a2 s) := by
  unfold tanneryFrame
  with_reducible repeat' first
    | assumption | refine Kept.foldl ?_ ?_ | refine State_putDue_ok ?_ | refine baseFrames_ok ?_ | refine cctFrames_ok ?_
    | refine halfEnds_ok ?_ | refine nowTrigger_ok ?_ | refine ownVolts_ok ?_ | refine scanVolts_ok ?_ | refine sigFrame_ok ?_
    | refine substReview_ok ?_ | refine tanCfg_ok ?_ | refine tanneryCap_ok ?_ | refine tanneryDone_ok ?_ | refine tanneryHarm_ok ?_
    | refine tanneryShow_ok ?_ | intro _

theorem execTanneryFrameCompute_ok {a0 a1 s t} (e : execTanneryFrameCompute a0 a1 s = .next t) (h : Kept q n f m s) : Kept q n f m t := by
  unfold execTanneryFrameCompute at e
  injection e with e
  subst e
  with_reducible repeat' first
    | assumption | refine State_bump_ok ?_ | refine romFrame_ok ?_ | refine tanneryFrame_ok ?_ | split

/-! ### Hallmark -/

theorem setFirst_ok {a0 s} (h : Kept q n f m s) : Kept q n f m (setFirst a0 s) := by
  unfold setFirst
  with_reducible repeat' first
    | (simp only [Kept.mk_eq]; refine Kept.of ?_) | assumption | split

theorem dropFirst_ok {s} (h : Kept q n f m s) : Kept q n f m (dropFirst s) := by
  unfold dropFirst
  with_reducible repeat' first
    | (simp only [Kept.mk_eq]; refine Kept.of ?_) | assumption | split

theorem holdFrame_ok {s} (h : Kept q n f m s) : Kept q n f m (holdFrame s) := by
  unfold holdFrame
  with_reducible repeat' first
    | (simp only [Kept.mk_eq]; refine Kept.of ?_) | assumption | split

theorem putUnaccounted_ok {a0 a1 s} (h : Kept q n f m s) : Kept q n f m (putUnaccounted a0 a1 s) := by
  unfold putUnaccounted
  with_reducible repeat' first
    | assumption | refine State_put_ok ?_ | refine State_putDue_ok ?_

theorem balanceFrame_ok {a0 s} (h : Kept q n f m s) : Kept q n f m (balanceFrame a0 s) := by
  unfold balanceFrame
  with_reducible repeat' first
    | (simp only [Kept.mk_eq]; refine Kept.of ?_) | assumption | refine State_bump_ok ?_ | refine State_putDue_ok ?_
    | refine putUnaccounted_ok ?_ | refine Kept.ite (fun _ => ?_) (fun _ => ?_)

theorem balanceAlarm_ok {a0 a1 a2 s} (h : Kept q n f m s) : Kept q n f m (balanceAlarm a0 a1 a2 s) := by
  unfold balanceAlarm
  with_reducible repeat' first
    | assumption | refine State_bump_ok ?_ | refine State_eventAt_ok ?_ | refine State_putDue_ok ?_
    | refine Kept.ite (fun _ => ?_) (fun _ => ?_)

theorem showFrom_ok {a0 a1 s} (h : Kept q n f m s) : Kept q n f m (showFrom a0 a1 s) := by
  unfold showFrom
  with_reducible repeat' first
    | (simp only [Kept.mk_eq]; refine Kept.of ?_) | assumption

theorem execBalanceRate_ok {s t} (e : execBalanceRate s = .next t) (h : Kept q n f m s) : Kept q n f m t := by
  unfold execBalanceRate at e
  try dsimp only at e
  injection e with e
  subst e
  with_reducible repeat' first
    | (simp only [Kept.mk_eq]; refine Kept.of ?_) | assumption | refine State_putDueI_ok ?_ | refine balanceAlarm_ok ?_
    | refine showFrom_ok ?_ | split

theorem clearSpectra_ok {a0 s} (h : Kept q n f m s) : Kept q n f m (clearSpectra a0 s) := by
  unfold clearSpectra
  with_reducible repeat' first
    | assumption | refine Kept.foldl ?_ ?_ | refine State_putBoth_ok ?_ | intro _

theorem stageSpectra_ok {a0 s} (h : Kept q n f m s) : Kept q n f m (stageSpectra a0 s) := by
  unfold stageSpectra
  with_reducible repeat' first
    | (simp only [Kept.mk_eq]; refine Kept.of ?_) | assumption | refine Kept.foldl ?_ ?_ | refine State_putBoth_ok ?_
    | refine State_putsBoth_ok ?_ | refine clearSpectra_ok ?_ | refine Kept.ite (fun _ => ?_) (fun _ => ?_) | intro _

theorem stageFrame_ok {a0 a1 s} (h : Kept q n f m s) : Kept q n f m (stageFrame a0 a1 s) := by
  unfold stageFrame
  with_reducible repeat' first
    | (simp only [Kept.mk_eq]; refine Kept.of ?_) | assumption | refine Kept.foldl ?_ ?_ | refine State_applyDue_ok ?_
    | refine showPage_ok ?_ | refine stageSpectra_ok ?_ | intro _

theorem markFrame_ok {a0 s} (h : Kept q n f m s) : Kept q n f m (markFrame a0 s) := by
  unfold markFrame
  with_reducible repeat' first
    | assumption | refine Kept.foldl ?_ ?_ | refine State_put_ok ?_ | intro _

theorem showCct_ok {a0 a1 s} (h : Kept q n f m s) : Kept q n f m (showCct a0 a1 s) := by
  unfold showCct
  with_reducible repeat' first
    | assumption | refine State_putDue_ok ?_ | refine showDemand_ok ?_

theorem dropCommits_ok {s} (h : Kept q n f m s) : Kept q n f m (dropCommits s) := by
  unfold dropCommits
  with_reducible repeat' first
    | (simp only [Kept.mk_eq]; refine Kept.of ?_) | assumption

theorem finishFrame_ok {a0 s} (h : Kept q n f m s) : Kept q n f m (finishFrame a0 s) := by
  unfold finishFrame
  with_reducible repeat' first
    | (simp only [Kept.mk_eq]; refine Kept.of ?_) | assumption | refine Kept.foldl ?_ ?_ | refine State_putV_ok ?_
    | refine balanceFrame_ok ?_ | refine dropCommits_ok ?_ | refine dropFirst_ok ?_ | refine healthFrame_ok ?_ | refine markFrame_ok ?_
    | refine pulseFrame_ok ?_ | refine showCct_ok ?_ | refine stageFrame_ok ?_ | split | intro _

theorem gaspKeys_ok {a0 a1 s} (h : Kept q n f m s) : Kept q n f m (gaspKeys a0 a1 s) := by
  unfold gaspKeys
  try dsimp only
  with_reducible repeat' first
    | assumption | refine setC_ok ?_ | split

theorem gapFrame_ok {a0 a1 a2 a3 a4 s} (h : Kept q n f m s) : Kept q n f m (gapFrame a0 a1 a2 a3 a4 s) := by
  unfold gapFrame
  with_reducible repeat' first
    | assumption | refine accrueCct_ok ?_ | refine gaspKeys_ok ?_

theorem gapBalance_ok {a0 a1 s} (h : Kept q n f m s) : Kept q n f m (gapBalance a0 a1 s) := by
  unfold gapBalance
  with_reducible repeat' first
    | assumption | refine Kept.foldl ?_ ?_ | refine balanceFrame_ok ?_ | intro _

theorem fillGap_ok {a0 s} (h : Kept q n f m s) : Kept q n f m (fillGap a0 s) := by
  unfold fillGap
  with_reducible repeat' first
    | (simp only [Kept.mk_eq]; refine Kept.of ?_) | assumption | refine Kept.foldl ?_ ?_ | refine State_put_ok ?_
    | refine gapBalance_ok ?_ | refine gapFrame_ok ?_ | split | intro _

theorem passFrame_ok {a0 s} (h : Kept q n f m s) : Kept q n f m (passFrame a0 s) := by
  unfold passFrame
  with_reducible repeat' first
    | (simp only [Kept.mk_eq]; refine Kept.of ?_) | assumption | refine Kept.foldl ?_ ?_ | refine State_putDue_ok ?_
    | refine dropFirst_ok ?_ | refine fillGap_ok ?_ | refine stageFrame_ok ?_ | intro _

theorem accrueResult_ok {a0 a1 s} (h : Kept q n f m s) : Kept q n f m (accrueResult a0 a1 s) := by
  unfold accrueResult
  with_reducible repeat' first
    | assumption | refine accrueCct_ok ?_ | refine finishFrame_ok ?_ | refine setFirst_ok ?_ | refine Kept.ite (fun _ => ?_) (fun _ => ?_)

theorem beginFrame_ok {a0 s} (h : Kept q n f m s) : Kept q n f m (beginFrame a0 s) := by
  unfold beginFrame
  with_reducible repeat' first
    | (simp only [Kept.mk_eq]; refine Kept.of ?_) | assumption | refine startFrame_ok ?_ | split

theorem accrueNext_ok {a0 a1 s} (h : Kept q n f m s) : Kept q n f m (accrueNext a0 a1 s) := by
  unfold accrueNext
  with_reducible repeat' first
    | assumption | refine accrueResult_ok ?_ | refine finishFrame_ok ?_ | refine holdFrame_ok ?_ | split

theorem accrueFrom_ok {a0 a1 s} (h : Kept q n f m s) : Kept q n f m (accrueFrom a0 a1 s) := by
  unfold accrueFrom
  with_reducible repeat' first
    | assumption | refine accrueNext_ok ?_ | refine beginFrame_ok ?_ | refine passFrame_ok ?_ | split

theorem execHallmarkAccrue_ok {a0 s t} (e : execHallmarkAccrue a0 s = .next t) (h : Kept q n f m s) : Kept q n f m t := by
  unfold execHallmarkAccrue at e
  injection e with e
  subst e
  with_reducible repeat' first
    | (simp only [Kept.mk_eq]; refine Kept.of ?_) | assumption | refine State_putDue_ok ?_ | refine accrueFrom_ok ?_ | split

theorem turnDirection_ok {a0 a1 a2 s} (h : Kept q n f m s) : Kept q n f m (turnDirection a0 a1 a2 s) := by
  unfold turnDirection
  with_reducible repeat' first
    | (simp only [Kept.mk_eq]; refine Kept.of ?_) | assumption | refine State_putDue_ok ?_

theorem execDirectionChange_ok {a0 s t} (e : execDirectionChange a0 s = .next t) (h : Kept q n f m s) : Kept q n f m t := by
  unfold execDirectionChange at e
  injection e with e
  subst e
  with_reducible repeat' first
    | assumption | refine State_bump_ok ?_ | refine State_eventAt_ok ?_ | refine setC_ok ?_ | refine turnDirection_ok ?_ | split

theorem execBoundaryFrame_ok {s t} (e : execBoundaryFrame s = .next t) (h : Kept q n f m s) : Kept q n f m t := by
  unfold execBoundaryFrame at e
  injection e with e
  subst e
  with_reducible repeat' first
    | assumption | refine beginFrame_ok ?_ | split

theorem execForcedRollComplete_ok {s t} (e : execForcedRollComplete s = .next t) (h : Kept q n f m s) : Kept q n f m t := by
  unfold execForcedRollComplete at e
  injection e with e
  subst e
  with_reducible repeat' first
    | (simp only [Kept.mk_eq]; refine Kept.of ?_) | assumption | refine Kept.foldl ?_ ?_ | refine checkTotals_ok ?_ | intro _

theorem put7_ok {a0 s} (hl : s.bill.ring7.length < 8) (h : Kept q n f m s) : Kept q n f m (put7 a0 s) := by
  refine ⟨h.dict, h.pages, h.seals, h.ring5, ?_, h.period, h.pending, h.draws, h.fn, h.mode⟩
  simp only [put7, List.length_append, List.length_cons, List.length_nil]; omega

theorem drop7_ok {s} (h : Kept q n f m s) : Kept q n f m (drop7 s) := by
  refine ⟨h.dict, h.pages, h.seals, h.ring5, ?_, h.period, h.pending, h.draws, h.fn, h.mode⟩
  have := h.ring7
  simp only [drop7, List.length_drop]; omega

theorem setOver7_ok {a0 a1 s} (h : Kept q n f m s) : Kept q n f m (setOver7 a0 a1 s) := by
  unfold setOver7
  with_reducible repeat' first
    | (simp only [Kept.mk_eq]; refine Kept.of ?_) | assumption

theorem overPost_ok {a0 s} (h : Kept q n f m s) : Kept q n f m (overPost a0 s) := by
  unfold overPost
  with_reducible repeat' first
    | assumption | refine setOver7_ok ?_ | split

theorem profPost_ok {a0 s} (h : Kept q n f m s) : Kept q n f m (profPost a0 s) := by
  unfold profPost
  exact Kept.ite (fun c => put7_ok c.2 h) (fun _ => overPost_ok (State_bump_ok h))

theorem profPump_ok {s} (h : Kept q n f m s) : Kept q n f m (profPump s) := by
  unfold profPump
  split
  · exact Kept.ite (fun c => setOver7_ok (put7_ok c h)) (fun _ => h)
  · exact h

theorem execProfileIntervalEnd_ok {s t} (e : execProfileIntervalEnd s = .next t) (h : Kept q n f m s) : Kept q n f m t := by
  unfold execProfileIntervalEnd at e
  injection e with e
  subst e
  with_reducible repeat' first
    | (simp only [Kept.mk_eq]; refine Kept.of ?_) | assumption | refine profPost_ok ?_ | split

theorem raiseStale_ok {a0 s} (h : Kept q n f m s) : Kept q n f m (raiseStale a0 s) := by
  unfold raiseStale
  with_reducible repeat' first
    | (simp only [Kept.mk_eq]; refine Kept.of ?_) | assumption | refine State_event_ok ?_ | refine State_put_ok ?_
    | refine Kept.ite (fun _ => ?_) (fun _ => ?_) | split

theorem wiringMade_ok {a0 s} (h : Kept q n f m s) : Kept q n f m (wiringMade a0 s) := by
  unfold wiringMade
  with_reducible repeat' first
    | (simp only [Kept.mk_eq]; refine Kept.of ?_) | assumption | refine State_putV_ok ?_

theorem wiringTaken_ok {a0 s} (h : Kept q n f m s) : Kept q n f m (wiringTaken a0 s) := by
  unfold wiringTaken
  with_reducible repeat' first
    | (simp only [Kept.mk_eq]; refine Kept.of ?_) | assumption | refine State_put_ok ?_

theorem execWiringCheck_ok {s t} (e : execWiringCheck s = .next t) (h : Kept q n f m s) : Kept q n f m t := by
  unfold execWiringCheck at e
  injection e with e
  subst e
  with_reducible repeat' first
    | assumption | refine raiseStale_ok ?_ | refine wiringMade_ok ?_ | refine wiringTaken_ok ?_
    | refine Kept.ite (fun _ => ?_) (fun _ => ?_)

end Sys2Proof.Machine
end

