-- ==== Sys2Proof/Laws/KeptServer.lean ====
section
/-! SUPPORT. What the operations of these files keep: Server, Requests, Commit, Tackroom, Flags, PlcBase, Acquire. -/

namespace Sys2Proof.Machine

variable {q : List Instr} {n f : Nat} {m : Mode}

/-! ### Server -/

theorem setSrv_ok {a0 s} (h : Kept q n f m s) : Kept q n f m (setSrv a0 s) := h

theorem setTag_ok {a0 a1 s} (h : Kept q n f m s) : Kept q n f m (setTag a0 a1 s) := h

theorem setSess_ok {a0 a1 s} (h : Kept q n f m s) : Kept q n f m (setSess a0 a1 s) := h

theorem push12_ok {a0 s} (h : Kept q n f m s) : Kept q n f m (push12 a0 s) := h

theorem refuse_ok {a0 a1 a2 s} (h : Kept q n f m s) : Kept q n f m (refuse a0 a1 a2 s) := by
  unfold refuse
  with_reducible repeat' first
    | assumption | refine State_bump_ok ?_ | refine push12_ok ?_ | refine Kept.ite (fun _ => ?_) (fun _ => ?_) | split

theorem setTxn_ok {a0 s} (h : Kept q n f m s) : Kept q n f m (setTxn a0 s) := h

theorem dropPins_ok {s} (h : Kept q n f m s) : Kept q n f m (dropPins s) := h

theorem endTxns_ok {a0 s} (h : Kept q n f m s) : Kept q n f m (endTxns a0 s) := h

theorem endTxn_ok {a0 s} (h : Kept q n f m s) : Kept q n f m (endTxn a0 s) := h

theorem finishTag_ok {a0 a1 s} (h : Kept q n f m s) : Kept q n f m (finishTag a0 a1 s) := h

theorem failTag_ok {a0 a1 a2 s} (h : Kept q n f m s) : Kept q n f m (failTag a0 a1 a2 s) := h

theorem beginTag_ok {a0 a1 s} (h : Kept q n f m s) : Kept q n f m (beginTag a0 a1 s) := by
  unfold beginTag
  with_reducible repeat' first
    | assumption | refine failTag_ok ?_ | refine finishTag_ok ?_ | refine setTag_ok ?_ | refine setTxn_ok ?_
    | refine Kept.ite (fun _ => ?_) (fun _ => ?_) | split

theorem startGo_ok {a0 s} (h : Kept q n f m s) : Kept q n f m (startGo a0 s) := by
  induction a0 generalizing s with
  | zero => exact h
  | succ _ ih =>
    unfold startGo
    with_reducible repeat' first
      | refine ih ?_ | assumption | refine beginTag_ok ?_ | split

theorem startReqs_ok {s} (h : Kept q n f m s) : Kept q n f m (startReqs s) := by
  unfold startReqs
  with_reducible repeat' first
    | assumption | refine startGo_ok ?_ | split | refine Kept.ite_eq (by assumption) (fun _ _ => ?_) (fun _ _ => ?_)

theorem answer_ok {a0 a1 a2 s} (h : Kept q n f m s) : Kept q n f m (answer a0 a1 a2 s) := by
  unfold answer
  with_reducible repeat' first
    | assumption | refine finishTag_ok ?_ | refine setTag_ok ?_ | refine startReqs_ok ?_ | refine Kept.ite_snd (fun _ => ?_) (fun _ => ?_)
    | split

theorem holdTag_ok {a0 s} (h : Kept q n f m s) : Kept q n f m (holdTag a0 s) := by
  unfold holdTag
  with_reducible repeat' first
    | assumption | refine setTag_ok ?_ | split | refine Kept.ite_eq (by assumption) (fun _ _ => ?_) (fun _ _ => ?_)

theorem runOp_ok {a0 a1 a2 s} (h2 : ∀ x0 x1 s, Kept q n f m s → Kept q n f m (a2 x0 x1 s)) (h : Kept q n f m s) : Kept q n f m (runOp a0 a1 a2 s) := by
  unfold runOp
  with_reducible repeat' first
    | assumption | refine answer_ok ?_ | refine h2 _ _ _ ?_ | split

theorem trackRead_ok {a0 a1 s} (h : Kept q n f m s) : Kept q n f m (trackRead a0 a1 s) := by
  unfold trackRead
  with_reducible repeat' first
    | assumption | refine setTxn_ok ?_ | split | refine Kept.ite_eq (by assumption) (fun _ _ => ?_) (fun _ _ => ?_)

theorem markUsed_ok {a0 a1 s} (h : Kept q n f m s) : Kept q n f m (markUsed a0 a1 s) := by
  unfold markUsed
  with_reducible repeat' first
    | assumption | refine setTag_ok ?_ | split | refine Kept.ite_eq (by assumption) (fun _ _ => ?_) (fun _ _ => ?_)

theorem freeTag_ok {a0 s} (h : Kept q n f m s) : Kept q n f m (freeTag a0 s) := by
  unfold freeTag
  with_reducible repeat' first
    | assumption | refine setTag_ok ?_ | refine startReqs_ok ?_ | split

theorem leave12_ok {a0 s} (h : Kept q n f m s) : Kept q n f m (leave12 a0 s) := by
  unfold leave12
  with_reducible repeat' first
    | assumption | refine freeTag_ok ?_ | refine setSrv_ok ?_ | split

theorem leave13_ok {a0 s} (h : Kept q n f m s) : Kept q n f m (leave13 a0 s) := h

/-! ### Requests -/

theorem addPart_ok {a0 a1 a2 a3 a4 s} (h : Kept q n f m s) : Kept q n f m (addPart a0 a1 a2 a3 a4 s) := by
  unfold addPart
  with_reducible repeat' first
    | assumption | refine failTag_ok ?_ | refine setSrv_ok ?_ | refine setTag_ok ?_ | refine Kept.ite (fun _ => ?_) (fun _ => ?_) | split

theorem bindReq_ok {a0 a1 a2 s} (h : Kept q n f m s) : Kept q n f m (bindReq a0 a1 a2 s) := by
  unfold bindReq
  with_reducible repeat' first
    | assumption | refine addPart_ok ?_ | refine refuse_ok ?_ | refine setTxn_ok ?_ | refine Kept.ite (fun _ => ?_) (fun _ => ?_) | split

theorem parseReq_ok {a0 s} (h : Kept q n f m s) : Kept q n f m (parseReq a0 s) := by
  unfold parseReq
  with_reducible repeat' first
    | assumption | refine State_bumpLive_ok ?_ | refine addPart_ok ?_ | refine bindReq_ok ?_ | refine refuse_ok ?_ | refine setSrv_ok ?_
    | refine Kept.ite (fun _ => ?_) (fun _ => ?_) | split

theorem execRequestParse_ok {a0 s t} (e : execRequestParse a0 s = .next t) (h : Kept q n f m s) : Kept q n f m t := by
  unfold execRequestParse at e
  injection e with e
  subst e
  with_reducible repeat' first
    | assumption | refine parseReq_ok ?_ | refine setSrv_ok ?_ | refine startReqs_ok ?_ | split

theorem execRequestStartDeferred_ok {a0 s t} (e : execRequestStartDeferred a0 s = .next t) (h : Kept q n f m s) : Kept q n f m t := by
  unfold execRequestStartDeferred at e
  injection e with e
  subst e
  with_reducible repeat' first
    | assumption | refine startReqs_ok ?_ | split

theorem execContinuationTimeout_ok {a0 s t} (e : execContinuationTimeout a0 s = .next t) (h : Kept q n f m s) : Kept q n f m t := by
  unfold execContinuationTimeout at e
  injection e with e
  subst e
  with_reducible repeat' first
    | assumption | refine failTag_ok ?_ | split

theorem enqueueGo_ok {a0 a1 s} (h : Kept q n f m s) : Kept q n f m (enqueueGo a0 a1 s) := by
  induction a0 generalizing s with
  | zero => exact h
  | succ _ ih =>
    unfold enqueueGo
    with_reducible repeat' first
      | refine ih ?_ | assumption | refine State_bump_ok ?_ | refine push12_ok ?_ | refine setSrv_ok ?_ | refine setTag_ok ?_ | split

theorem execResponseEnqueue_ok {a0 s t} (e : execResponseEnqueue a0 s = .next t) (h : Kept q n f m s) : Kept q n f m t := by
  unfold execResponseEnqueue at e
  injection e with e
  subst e
  with_reducible repeat' first
    | assumption | refine enqueueGo_ok ?_ | refine freeTag_ok ?_ | refine setSrv_ok ?_ | split

theorem execUnknownOpcode_ok {a0 s t} (e : execUnknownOpcode a0 s = .next t) (h : Kept q n f m s) : Kept q n f m t := by
  unfold execUnknownOpcode at e
  injection e with e
  subst e
  with_reducible repeat' first
    | assumption | refine answer_ok ?_ | refine runOp_ok ?_ ?_ | intro _

theorem execRead_ok {a0 s t} (e : execRead a0 s = .next t) (h : Kept q n f m s) : Kept q n f m t := by
  unfold execRead at e
  injection e with e
  subst e
  with_reducible repeat' first
    | assumption | refine answer_ok ?_ | refine markUsed_ok ?_ | refine runOp_ok ?_ ?_ | refine trackRead_ok ?_ | split | intro _

theorem execReadSet_ok {a0 s t} (e : execReadSet a0 s = .next t) (h : Kept q n f m s) : Kept q n f m t := by
  unfold execReadSet at e
  injection e with e
  subst e
  with_reducible repeat' first
    | assumption | refine Kept.foldl ?_ ?_ | refine answer_ok ?_ | refine markUsed_ok ?_ | refine runOp_ok ?_ ?_ | refine trackRead_ok ?_
    | refine Kept.ite (fun _ => ?_) (fun _ => ?_) | split | intro _

theorem openTxn_ok {a0 a1 a2 a3 s} (h : Kept q n f m s) : Kept q n f m (openTxn a0 a1 a2 a3 s) := by
  unfold openTxn
  with_reducible repeat' first
    | (simp only [Kept.mk_eq]; refine Kept.of ?_) | assumption | refine answer_ok ?_ | refine setSrv_ok ?_ | refine setTag_ok ?_ | split

theorem execBegin_ok {a0 s t} (e : execBegin a0 s = .next t) (h : Kept q n f m s) : Kept q n f m t := by
  unfold execBegin at e
  injection e with e
  subst e
  with_reducible repeat' first
    | assumption | refine answer_ok ?_ | refine openTxn_ok ?_ | refine runOp_ok ?_ ?_ | split | intro _

theorem execRollback_ok {a0 s t} (e : execRollback a0 s = .next t) (h : Kept q n f m s) : Kept q n f m t := by
  unfold execRollback at e
  injection e with e
  subst e
  with_reducible repeat' first
    | assumption | refine answer_ok ?_ | refine endTxn_ok ?_ | refine runOp_ok ?_ ?_ | split | intro _

theorem execPinExpiry_ok {a0 s t} (e : execPinExpiry a0 s = .next t) (h : Kept q n f m s) : Kept q n f m t := by
  unfold execPinExpiry at e
  injection e with e
  subst e
  with_reducible repeat' first
    | assumption | refine State_bump_ok ?_ | refine endTxn_ok ?_ | split

theorem execTxnTimeout_ok {a0 s t} (e : execTxnTimeout a0 s = .next t) (h : Kept q n f m s) : Kept q n f m t := by
  unfold execTxnTimeout at e
  injection e with e
  subst e
  with_reducible repeat' first
    | assumption | refine State_bump_ok ?_ | refine endTxn_ok ?_ | split

/-! ### Commit -/

theorem postRecord_ok {a0 a1 s} (h : Kept q n f m s) : Kept q n f m (postRecord a0 a1 s) := by
  unfold postRecord
  with_reducible repeat' first
    | assumption | refine postJob_ok ?_ | refine storeRec_ok ?_ | split

theorem postCommit_ok {a0 a1 a2 a3 a4 a5 a6 s} (h : Kept q n f m s) : Kept q n f m (postCommit a0 a1 a2 a3 a4 a5 a6 s) := by
  unfold postCommit
  with_reducible repeat' first
    | assumption | refine Kept.foldl ?_ ?_ | refine holdTag_ok ?_ | refine postJob_ok ?_ | refine postRecord_ok ?_ | refine setSrv_ok ?_
    | intro _

theorem showKeys_ok {a0 s} (h : Kept q n f m s) : Kept q n f m (showKeys a0 s) := by
  unfold showKeys
  with_reducible repeat' first
    | assumption | refine Kept.foldl ?_ ?_ | refine State_put_ok ?_ | split | intro _

theorem noteAcked_ok {a0 s} (h : Kept q n f m s) : Kept q n f m (noteAcked a0 s) := h

theorem ackCommit_ok {a0 a1 a2 a3 a4 a5 a6 s} (h : Kept q n f m s) : Kept q n f m (ackCommit a0 a1 a2 a3 a4 a5 a6 s) := by
  unfold ackCommit
  with_reducible repeat' first
    | (simp only [Kept.mk_eq]; refine Kept.of ?_) | assumption | refine State_bump_ok ?_ | refine State_put_ok ?_
    | refine State_putLive_ok ?_ | refine State_puts_ok ?_ | refine answer_ok ?_ | refine noteAcked_ok ?_ | refine setSrv_ok ?_
    | refine showKeys_ok ?_ | split

theorem waitTurn_ok {a0 s} (h : Kept q n f m s) : Kept q n f m (waitTurn a0 s) := by
  unfold waitTurn
  with_reducible repeat' first
    | assumption | refine setSrv_ok ?_ | split

theorem commitTxn_ok {a0 a1 a2 s} (h : Kept q n f m s) : Kept q n f m (commitTxn a0 a1 a2 s) := by
  unfold commitTxn
  try dsimp only
  with_reducible repeat' first
    | assumption | refine State_bump_ok ?_ | refine answer_ok ?_ | refine endTxn_ok ?_ | refine postCommit_ok ?_ | split

theorem execCommit_ok {a0 s t} (e : execCommit a0 s = .next t) (h : Kept q n f m s) : Kept q n f m t := by
  unfold execCommit at e
  injection e with e
  subst e
  with_reducible repeat' first
    | assumption | refine answer_ok ?_ | refine commitTxn_ok ?_ | refine endTxn_ok ?_ | refine runOp_ok ?_ ?_ | refine waitTurn_ok ?_
    | split | intro _

theorem stageWrite_ok {a0 a1 a2 a3 a4 s} (h : Kept q n f m s) : Kept q n f m (stageWrite a0 a1 a2 a3 a4 s) := by
  unfold stageWrite
  with_reducible repeat' first
    | assumption | refine answer_ok ?_ | refine setTxn_ok ?_ | split

theorem implicitWrite_ok {a0 a1 a2 a3 s} (h : Kept q n f m s) : Kept q n f m (implicitWrite a0 a1 a2 a3 s) := by
  unfold implicitWrite
  with_reducible repeat' first
    | assumption | refine State_bump_ok ?_ | refine answer_ok ?_ | refine postCommit_ok ?_ | refine waitTurn_ok ?_ | split

theorem applyWrite_ok {a0 a1 a2 a3 a4 a5 s} (h : Kept q n f m s) : Kept q n f m (applyWrite a0 a1 a2 a3 a4 a5 s) := by
  unfold applyWrite
  with_reducible repeat' first
    | assumption | refine answer_ok ?_ | refine implicitWrite_ok ?_ | refine stageWrite_ok ?_ | split

theorem execWrite_ok {a0 s t} (e : execWrite a0 s = .next t) (h : Kept q n f m s) : Kept q n f m t := by
  unfold execWrite at e
  injection e with e
  subst e
  with_reducible repeat' first
    | assumption | refine answer_ok ?_ | refine applyWrite_ok ?_ | refine runOp_ok ?_ ?_ | refine Kept.ite (fun _ => ?_) (fun _ => ?_)
    | split | intro _

/-! ### Tackroom -/

theorem setTk_ok {a0 s} (h : Kept q n f m s) : Kept q n f m (setTk a0 s) := by
  unfold setTk
  with_reducible repeat' first
    | (simp only [Kept.mk_eq]; refine Kept.of ?_) | assumption

theorem progAt_ok {a0 a1 s} (h : Kept q n f m s) : Kept q n f m (progAt a0 a1 s) := by
  unfold progAt
  with_reducible repeat' first
    | assumption | refine setTk_ok ?_

theorem setSlot_ok {a0 a1 s} (h : Kept q n f m s) : Kept q n f m (setSlot a0 a1 s) := by
  unfold setSlot
  with_reducible repeat' first
    | (simp only [Kept.mk_eq]; refine Kept.of ?_) | assumption

theorem showUnits_ok {s} (h : Kept q n f m s) : Kept q n f m (showUnits s) := by
  unfold showUnits
  with_reducible repeat' first
    | assumption | refine State_putLive_ok ?_ | split

theorem showManifest_ok {a0 s} (h : Kept q n f m s) : Kept q n f m (showManifest a0 s) := by
  unfold showManifest
  with_reducible repeat' first
    | assumption | refine State_put_ok ?_

theorem progUnits_ok {a0 a1 s} (h : Kept q n f m s) : Kept q n f m (progUnits a0 a1 s) := by
  unfold progUnits
  with_reducible repeat' first
    | assumption | refine Kept.foldl ?_ ?_ | refine progAt_ok ?_ | refine setSlot_ok ?_ | refine showManifest_ok ?_
    | refine showUnits_ok ?_ | split | intro _

theorem relaySlot_ok {a0 a1 s} (h1 : ∀ s, Kept q n f m s → Kept q n f m (a1 s)) (h : Kept q n f m s) : Kept q n f m (relaySlot a0 a1 s) := by
  unfold relaySlot
  with_reducible repeat' first
    | assumption | refine progUnits_ok ?_ | refine setSlot_ok ?_ | refine setTk_ok ?_ | refine h1 _ ?_

theorem showLogs_ok {s} (h : Kept q n f m s) : Kept q n f m (showLogs s) := by
  unfold showLogs
  with_reducible repeat' first
    | assumption | refine State_put_ok ?_

theorem showHistory_ok {s} (h : Kept q n f m s) : Kept q n f m (showHistory s) := by
  unfold showHistory
  with_reducible repeat' first
    | assumption | refine Kept.foldl ?_ ?_ | refine State_put_ok ?_ | intro _

theorem eraseWith_ok {a0 a1 s} (h : Kept q n f m s) : Kept q n f m (eraseWith a0 a1 s) := by
  unfold eraseWith
  with_reducible repeat' first
    | (simp only [Kept.mk_eq]; refine Kept.of ?_) | assumption | refine setSlot_ok ?_ | refine showHistory_ok ?_ | refine showLogs_ok ?_
    | refine showManifest_ok ?_ | refine showUnits_ok ?_ | split

theorem eraseSec_ok {a0 s} (h : Kept q n f m s) : Kept q n f m (eraseSec a0 s) := by
  unfold eraseSec
  with_reducible repeat' first
    | assumption | refine eraseWith_ok ?_

theorem tkPush_ok {a0 s} (h : Kept q n f m s) : Kept q n f m (tkPush a0 s) := by
  unfold tkPush
  with_reducible repeat' first
    | assumption | refine setTk_ok ?_

theorem tkPump_ok {s} (h : Kept q n f m s) : Kept q n f m (tkPump s) := by
  unfold tkPump
  try dsimp only
  with_reducible repeat' first
    | assumption | refine tkPush_ok ?_ | split

theorem tkAhead_ok {s} (h : Kept q n f m s) : Kept q n f m (tkAhead s) := by
  unfold tkAhead
  with_reducible repeat' first
    | assumption | refine setTk_ok ?_ | refine Kept.ite (fun _ => ?_) (fun _ => ?_) | split

theorem eraseAhead_ok {a0 a1 s} (h : Kept q n f m s) : Kept q n f m (eraseAhead a0 a1 s) := by
  unfold eraseAhead
  with_reducible repeat' first
    | assumption | refine setTk_ok ?_ | refine Kept.ite (fun _ => ?_) (fun _ => ?_)

theorem doneCapture_ok {a0 s} (h : Kept q n f m s) : Kept q n f m (doneCapture a0 s) := by
  unfold doneCapture
  with_reducible repeat' first
    | (simp only [Kept.mk_eq]; refine Kept.of ?_) | assumption | refine State_event_ok ?_ | refine State_put_ok ?_
    | refine eraseAhead_ok ?_ | refine progAt_ok ?_ | refine setTk_ok ?_ | refine showLogs_ok ?_ | split

theorem doneHistory_ok {a0 s} (h : Kept q n f m s) : Kept q n f m (doneHistory a0 s) := by
  unfold doneHistory
  with_reducible repeat' first
    | (simp only [Kept.mk_eq]; refine Kept.of ?_) | assumption | refine Kept.foldl ?_ ?_ | refine State_put_ok ?_
    | refine eraseAhead_ok ?_ | refine letSlots_ok ?_ | refine progAt_ok ?_ | refine setTk_ok ?_ | refine showHistory_ok ?_ | intro _

theorem eraseKeep_ok {a0 s} (h : Kept q n f m s) : Kept q n f m (eraseKeep a0 s) := by
  unfold eraseKeep
  with_reducible repeat' first
    | assumption | refine Kept.foldl ?_ ?_ | refine eraseWith_ok ?_ | refine tkPush_ok ?_ | intro _

theorem doneKeep_ok {a0 a1 a2 s} (h : Kept q n f m s) : Kept q n f m (doneKeep a0 a1 a2 s) := by
  unfold doneKeep
  with_reducible repeat' first
    | assumption | refine State_put_ok ?_ | refine eraseAhead_ok ?_ | refine progAt_ok ?_ | refine setTk_ok ?_
    | refine Kept.ite (fun _ => ?_) (fun _ => ?_)

theorem doneProfile_ok {a0 a1 s} (h : Kept q n f m s) : Kept q n f m (doneProfile a0 a1 s) := by
  unfold doneProfile
  with_reducible repeat' first
    | assumption | refine State_put_ok ?_ | refine drop7_ok ?_ | refine eraseAhead_ok ?_ | refine profPump_ok ?_ | refine progAt_ok ?_
    | refine setTk_ok ?_ | refine showLogs_ok ?_

theorem doneEvent_ok {a0 s} (h : Kept q n f m s) : Kept q n f m (doneEvent a0 s) := by
  unfold doneEvent
  with_reducible repeat' first
    | assumption | refine eraseAhead_ok ?_ | refine progAt_ok ?_ | refine setTk_ok ?_

theorem doneBackup_ok {a0 a1 s} (h : Kept q n f m s) : Kept q n f m (doneBackup a0 a1 s) := by
  unfold doneBackup
  with_reducible repeat' first
    | assumption | refine State_event_ok ?_ | refine State_put_ok ?_ | refine progAt_ok ?_ | refine setTk_ok ?_ | split

theorem doneImage_ok {a0 a1 a2 s} (h : Kept q n f m s) : Kept q n f m (doneImage a0 a1 a2 s) := by
  unfold doneImage
  with_reducible repeat' first
    | assumption | refine answer_ok ?_ | refine progUnits_ok ?_ | split

theorem setSec_ok {a0 a1 s} (h : Kept q n f m s) : Kept q n f m (setSec a0 a1 s) := by
  unfold setSec
  with_reducible repeat' first
    | (simp only [Kept.mk_eq]; refine Kept.of ?_) | assumption

theorem shiftSlot_ok {a0 a1 s} (h1 : ∀ s, Kept q n f m s → Kept q n f m (a1 s)) (h : Kept q n f m s) : Kept q n f m (shiftSlot a0 a1 s) := by
  unfold shiftSlot
  with_reducible repeat' first
    | assumption | refine State_put_ok ?_ | refine relaySlot_ok ?_ ?_ | refine h1 _ ?_ | split

theorem sectorIn_ok {a0 s} (h : Kept q n f m s) : Kept q n f m (sectorIn a0 s) := by
  unfold sectorIn
  with_reducible repeat' first
    | assumption | refine setSec_ok ?_ | refine shiftSlot_ok ?_ ?_ | refine Kept.ite (fun _ => ?_) (fun _ => ?_) | intro _

theorem tkDone_ok {a0 s} (h : Kept q n f m s) : Kept q n f m (tkDone a0 s) := by
  unfold tkDone
  with_reducible repeat' first
    | assumption | refine doneBackup_ok ?_ | refine doneCapture_ok ?_ | refine doneEvent_ok ?_ | refine doneHistory_ok ?_
    | refine doneImage_ok ?_ | refine doneKeep_ok ?_ | refine doneProfile_ok ?_ | refine eraseKeep_ok ?_ | refine sectorIn_ok ?_ | split

theorem retireSec_ok {a0 s} (h : Kept q n f m s) : Kept q n f m (retireSec a0 s) := by
  unfold retireSec
  with_reducible repeat' first
    | assumption | refine State_bump_ok ?_ | refine State_event_ok ?_ | refine setSec_ok ?_ | refine shiftSlot_ok ?_ ?_ | intro _

theorem secPassed_ok {a0 s} (h : Kept q n f m s) : Kept q n f m (secPassed a0 s) := by
  unfold secPassed
  with_reducible repeat' first
    | assumption | refine Kept.foldl ?_ ?_ | refine State_event_ok ?_ | refine setSec_ok ?_ | refine Kept.ite (fun _ => ?_) (fun _ => ?_)
    | split | intro _

theorem failedSec_ok {a0 s} (h : Kept q n f m s) : Kept q n f m (failedSec a0 s).2 := by
  unfold failedSec
  with_reducible repeat' first
    | assumption | refine State_draw_ok ?_ | refine Kept.ite_snd (fun _ => ?_) (fun _ => ?_)

theorem failedSec_ok' {a0 s x t} (e : failedSec a0 s = (x, t)) (h : Kept q n f m s) : Kept q n f m t := by
  have w := failedSec_ok (n := n) (q := q) (f := f) (m := m) (a0 := a0) (s := s) h
  rw [e] at w; exact w

theorem loseSec_ok {a0 s} (h : Kept q n f m s) : Kept q n f m (loseSec a0 s) := by
  unfold loseSec
  with_reducible repeat' first
    | assumption | refine State_bumpBy_ok ?_ | refine eraseSec_ok ?_

theorem secFailed_ok {a0 a1 s} (h : Kept q n f m s) : Kept q n f m (secFailed a0 a1 s) := by
  unfold secFailed
  with_reducible repeat' first
    | assumption | refine State_bump_ok ?_ | refine State_event_ok ?_ | refine failedSec_ok ?_ | refine loseSec_ok ?_
    | refine retireSec_ok ?_ | refine setSec_ok ?_ | refine setTk_ok ?_ | refine Kept.ite (fun _ => ?_) (fun _ => ?_)

theorem refreshSec_ok {a0 s} (h : Kept q n f m s) : Kept q n f m (refreshSec a0 s) := by
  unfold refreshSec
  with_reducible repeat' first
    | assumption | refine setTk_ok ?_ | split

theorem dropKeeps_ok {s} (h : Kept q n f m s) : Kept q n f m (dropKeeps s) := by
  unfold dropKeeps
  with_reducible repeat' first
    | assumption | refine setTk_ok ?_ | refine showHistory_ok ?_ | refine Kept.ite (fun _ => ?_) (fun _ => ?_)

theorem profileCut_ok {a0 a1 s} (h : Kept q n f m s) : Kept q n f m (profileCut a0 a1 s) := by
  unfold profileCut
  with_reducible repeat' first
    | assumption | refine State_draw_ok ?_ | refine progAt_ok ?_ | refine setTk_ok ?_ | refine Kept.ite (fun _ => ?_) (fun _ => ?_)

theorem refreshCut_ok {s} (h : Kept q n f m s) : Kept q n f m (refreshCut s) := by
  unfold refreshCut
  try dsimp only
  with_reducible repeat' first
    | assumption | refine dropKeeps_ok ?_ | refine loseSec_ok ?_ | refine profileCut_ok ?_ | refine tkAhead_ok ?_ | refine tkPump_ok ?_
    | split

theorem execTackroomOpComplete_ok {a0 s t} (e : execTackroomOpComplete a0 s = .next t) (h : Kept q n f m s) : Kept q n f m t := by
  unfold execTackroomOpComplete at e
  try dsimp only at e
  injection e with e
  subst e
  with_reducible repeat' first
    | assumption | refine secFailed_ok ?_ | refine secPassed_ok ?_ | refine setTk_ok ?_ | refine tkAhead_ok ?_ | refine tkDone_ok ?_
    | refine tkPump_ok ?_ | split

/-! ### Flags -/

theorem setSpi_ok {a0 s} (h : Kept q n f m s) : Kept q n f m (setSpi a0 s) := h

theorem setCause_ok {a0 s} (h : Kept q n f m s) : Kept q n f m (setCause a0 s) := h

theorem legacyEvent_ok {a0 s} (h : Kept q n f m s) : Kept q n f m (legacyEvent a0 s) := by
  unfold legacyEvent
  with_reducible repeat' first
    | assumption | refine setCause_ok ?_ | refine setSpi_ok ?_ | refine Kept.ite (fun _ => ?_) (fun _ => ?_)

/-! ### PlcBase -/

theorem setPlc_ok {a0 s} (h : Kept q n f m s) : Kept q n f m (setPlc a0 s) := h

theorem showNbr_ok {a0 s} (h : Kept q n f m s) : Kept q n f m (showNbr a0 s) := by
  unfold showNbr
  with_reducible repeat' first
    | assumption | refine State_putLive_ok ?_ | split

theorem costTick_ok {s} (h : Kept q n f m s) : Kept q n f m (costTick s) := by
  unfold costTick
  with_reducible repeat' first
    | assumption | refine Kept.foldl ?_ ?_ | refine State_putLive_ok ?_ | split | intro _

theorem setNbr_ok {a0 a1 s} (h : Kept q n f m s) : Kept q n f m (setNbr a0 a1 s) := by
  unfold setNbr
  with_reducible repeat' first
    | assumption | refine setPlc_ok ?_ | refine showNbr_ok ?_

theorem showRoute_ok {a0 s} (h : Kept q n f m s) : Kept q n f m (showRoute a0 s) := by
  unfold showRoute
  with_reducible repeat' first
    | assumption | refine State_putLive_ok ?_ | split

theorem setRoute_ok {a0 a1 s} (h : Kept q n f m s) : Kept q n f m (setRoute a0 a1 s) := by
  unfold setRoute
  with_reducible repeat' first
    | assumption | refine setPlc_ok ?_ | refine showRoute_ok ?_

theorem offerTick_ok {s} (h : Kept q n f m s) : Kept q n f m (offerTick s) := by
  unfold offerTick
  with_reducible repeat' first
    | assumption | refine setPlc_ok ?_ | split

theorem routeTick_ok {s} (h : Kept q n f m s) : Kept q n f m (routeTick s) := by
  unfold routeTick
  with_reducible repeat' first
    | assumption | refine Kept.foldl ?_ ?_ | refine State_putLive_ok ?_ | refine setRoute_ok ?_ | split | intro _

/-! ### Acquire -/

theorem inputEntry_ok {a0 a1 a2 a3 a4 a5 s} (h : Kept q n f m s) : Kept q n f m (inputEntry a0 a1 a2 a3 a4 a5 s).2 := by
  unfold inputEntry
  with_reducible repeat' first
    | (simp only [Kept.mk_eq]; refine Kept.of ?_) | assumption | refine State_putLive_ok ?_ | refine rangeSee_ok ?_
    | refine Kept.ite_snd (fun _ => ?_) (fun _ => ?_)

theorem inputEntry_ok' {a0 a1 a2 a3 a4 a5 s x t} (e : inputEntry a0 a1 a2 a3 a4 a5 s = (x, t)) (h : Kept q n f m s) : Kept q n f m t := by
  have w := inputEntry_ok (n := n) (q := q) (f := f) (m := m) (a0 := a0) (a1 := a1) (a2 := a2) (a3 := a3) (a4 := a4) (a5 := a5) (s := s) h
  rw [e] at w; exact w

theorem runEntry_ok {a0 a1 a2 a3 a4 a5 s} (h : Kept q n f m s) : Kept q n f m (runEntry a0 a1 a2 a3 a4 a5 s).2 := by
  unfold runEntry
  with_reducible repeat' first
    | assumption | refine State_bump_ok ?_ | refine inputEntry_ok' (by assumption) ?_ | refine Kept.ite_snd (fun _ => ?_) (fun _ => ?_)
    | split

theorem runEntry_ok' {a0 a1 a2 a3 a4 a5 s x t} (e : runEntry a0 a1 a2 a3 a4 a5 s = (x, t)) (h : Kept q n f m s) : Kept q n f m t := by
  have w := runEntry_ok (n := n) (q := q) (f := f) (m := m) (a0 := a0) (a1 := a1) (a2 := a2) (a3 := a3) (a4 := a4) (a5 := a5) (s := s) h
  rw [e] at w; exact w

theorem runEntries_ok {a0 a1 a2 a3 a4 a5 s} (h : Kept q n f m s) : Kept q n f m (runEntries a0 a1 a2 a3 a4 a5 s).2 := by
  induction a4 generalizing s a5 with
  | nil => exact h
  | cons _ l ih =>
    have ih' : ∀ {x t u b5}, runEntries a0 a1 a2 a3 l b5 u = (x, t) → Kept q n f m u → Kept q n f m t := fun {x t u b5} e h => by
      have w : Kept q n f m (runEntries a0 a1 a2 a3 l b5 u).2 := ih h; rw [e] at w; exact w
    unfold runEntries
    with_reducible repeat' first
      | refine ih ?_ | assumption | refine runEntry_ok ?_

theorem runEntries_ok' {a0 a1 a2 a3 a4 a5 s x t} (e : runEntries a0 a1 a2 a3 a4 a5 s = (x, t)) (h : Kept q n f m s) : Kept q n f m t := by
  have w := runEntries_ok (n := n) (q := q) (f := f) (m := m) (a0 := a0) (a1 := a1) (a2 := a2) (a3 := a3) (a4 := a4) (a5 := a5) (s := s) h
  rw [e] at w; exact w

theorem frameLost_ok {a0 s} (h : Kept q n f m s) : Kept q n f m (frameLost a0 s) := by
  unfold frameLost
  with_reducible repeat' first
    | (simp only [Kept.mk_eq]; refine Kept.of ?_) | assumption | refine State_bump_ok ?_ | refine State_event_ok ?_ | split

theorem lanePass_ok {a0 a1 a2 a3 s} (h : Kept q n f m s) : Kept q n f m (lanePass a0 a1 a2 a3 s) := by
  unfold lanePass
  with_reducible repeat' first
    | (simp only [Kept.mk_eq]; refine Kept.of ?_) | assumption | refine State_putLive_ok ?_ | refine frameLost_ok ?_
    | refine runEntries_ok ?_ | refine Kept.ite (fun _ => ?_) (fun _ => ?_)

theorem lanePasses_ok {a0 a1 a2 a3 s} (h : Kept q n f m s) : Kept q n f m (lanePasses a0 a1 a2 a3 s) := by
  induction a3 generalizing s with
  | nil => exact h
  | cons _ _ ih =>
    unfold lanePasses
    with_reducible repeat' first
      | refine ih ?_ | assumption | refine lanePass_ok ?_

theorem voltEmit_ok {a0 a1 a2 a3 s} (h : Kept q n f m s) : Kept q n f m (voltEmit a0 a1 a2 a3 s) := by
  unfold voltEmit
  with_reducible repeat' first
    | (simp only [Kept.mk_eq]; refine Kept.of ?_) | assumption | refine frameLost_ok ?_ | split

theorem voltEmits_ok {a0 a1 a2 a3 s} (h : Kept q n f m s) : Kept q n f m (voltEmits a0 a1 a2 a3 s) := by
  induction a3 generalizing s with
  | nil => exact h
  | cons _ _ ih =>
    unfold voltEmits
    with_reducible repeat' first
      | refine ih ?_ | assumption | refine voltEmit_ok ?_

theorem openTest_ok {a0 a1 a2 s} (h : Kept q n f m s) : Kept q n f m (openTest a0 a1 a2 s) := by
  unfold openTest
  with_reducible repeat' first
    | (simp only [Kept.mk_eq]; refine Kept.of ?_) | assumption | refine State_bump_ok ?_ | refine State_putDueI_ok ?_ | split

theorem openTests_ok {a0 a1 a2 s} (h : Kept q n f m s) : Kept q n f m (openTests a0 a1 a2 s) := by
  induction a2 generalizing s with
  | nil => exact h
  | cons _ _ ih =>
    unfold openTests
    with_reducible repeat' first
      | refine ih ?_ | assumption | refine openTest_ok ?_ | split

theorem execSamplePeriod_ok {a0 a1 s t} (e : execSamplePeriod a0 a1 s = .next t) (h : Kept q n f m s) : Kept q n f m t := by
  unfold execSamplePeriod at e
  injection e with e
  subst e
  with_reducible repeat' first
    | (simp only [Kept.mk_eq]; refine Kept.periodSet (by omega) ?_) | assumption | refine lanePasses_ok ?_ | refine latchAll_ok ?_
    | refine openTests_ok ?_ | refine takeoversDue_ok ?_ | refine voltEmits_ok ?_ | split

end Sys2Proof.Machine
end

