-- ==== Sys2Proof/Laws/KeptSpectrum.lean ====
section
/-! SUPPORT. What the operations of these files keep: Spectrum, Frame, Methods, EventLog, Twin, Store, Lease. -/

namespace Sys2Proof.Machine

variable {q : List Instr} {n f : Nat} {m : Mode}

/-! ### Spectrum -/

theorem fundEnergy_ok {a0 a1 a2 a3 s} (h : Kept q n f m s) : Kept q n f m (fundEnergy a0 a1 a2 a3 s) := by
  unfold fundEnergy
  with_reducible repeat' first
    | assumption | refine putTotal_ok ?_

theorem publishPower_ok {a0 a1 a2 s} (h : Kept q n f m s) : Kept q n f m (publishPower a0 a1 a2 s) := by
  unfold publishPower
  with_reducible repeat' first
    | (simp only [Kept.mk_eq]; refine Kept.of ?_) | assumption | refine Kept.foldl ?_ ?_ | refine State_putDue_ok ?_
    | refine State_putDueI_ok ?_ | refine Kept.ite (fun _ => ?_) (fun _ => ?_) | intro _

theorem cctHarmonics_ok {a0 a1 a2 s} (h : Kept q n f m s) : Kept q n f m (cctHarmonics a0 a1 a2 s) := by
  unfold cctHarmonics
  with_reducible repeat' first
    | assumption | refine fundEnergy_ok ?_ | refine publishPower_ok ?_ | refine setCwin_ok ?_
    | refine Kept.ite (fun _ => ?_) (fun _ => ?_)

theorem formPowers_ok {s} (h : Kept q n f m s) : Kept q n f m (formPowers s) := by
  unfold formPowers
  with_reducible repeat' first
    | assumption | refine Kept.foldl ?_ ?_ | refine cctHarmonics_ok ?_ | refine setCwin_ok ?_ | split | intro _

theorem noteClosed_ok {a0 a1 a2 s} (h : Kept q n f m s) : Kept q n f m (noteClosed a0 a1 a2 s) := by
  unfold noteClosed
  with_reducible repeat' first
    | assumption | refine Kept.foldl ?_ ?_ | refine setCwin_ok ?_ | split | intro _

theorem closeWindow_ok {a0 a1 a2 s} (h : Kept q n f m s) : Kept q n f m (closeWindow a0 a1 a2 s) := by
  unfold closeWindow
  with_reducible repeat' first
    | (simp only [Kept.mk_eq]; refine Kept.of ?_) | assumption | refine formPowers_ok ?_ | refine noteClosed_ok ?_

theorem execHarmonicWindowClose_ok {a0 s t} (e : execHarmonicWindowClose a0 s = .next t) (h : Kept q n f m s) : Kept q n f m t := by
  unfold execHarmonicWindowClose at e
  injection e with e
  subst e
  with_reducible repeat' first
    | (simp only [Kept.mk_eq]; refine Kept.of ?_) | assumption | refine State_bump_ok ?_ | refine closeWindow_ok ?_
    | refine formPowers_ok ?_ | split

/-! ### Frame -/

theorem showSlot_ok {a0 s} (h : Kept q n f m s) : Kept q n f m (showSlot a0 s) := by
  unfold showSlot
  with_reducible repeat' first
    | assumption | refine State_putLive_ok ?_ | split

theorem showServer_ok {s} (h : Kept q n f m s) : Kept q n f m (showServer s) := by
  unfold showServer
  with_reducible repeat' first
    | assumption | refine Kept.foldl ?_ ?_ | refine State_putLive_ok ?_ | refine showSlot_ok ?_ | intro _

theorem showLease_ok {s} (h : Kept q n f m s) : Kept q n f m (showLease s) := by
  unfold showLease
  with_reducible repeat' first
    | assumption | refine State_putLive_ok ?_ | split

theorem noteTime_ok {s} (h : Kept q n f m s) : Kept q n f m (noteTime s) := by
  unfold noteTime
  with_reducible repeat' first
    | (simp only [Kept.mk_eq]; refine Kept.of ?_) | assumption | refine State_put_ok ?_ | refine State_putLive_ok ?_

theorem tickTime_ok {s} (h : Kept q n f m s) : Kept q n f m (tickTime s) := by
  unfold tickTime
  with_reducible repeat' first
    | (simp only [Kept.mk_eq]; refine Kept.of ?_) | assumption | refine State_put_ok ?_ | refine State_putLive_ok ?_
    | refine noteTime_ok ?_ | refine Kept.ite (fun _ => ?_) (fun _ => ?_) | split

theorem calSample_ok {a0 s} (h : Kept q n f m s) : Kept q n f m (calSample a0 s) := by
  unfold calSample
  with_reducible repeat' first
    | (simp only [Kept.mk_eq]; refine Kept.of ?_) | assumption | refine State_putLive_ok ?_

theorem releaseHold_ok {s} (h : Kept q n f m s) : Kept q n f m (releaseHold s) := by
  unfold releaseHold
  with_reducible repeat' first
    | (simp only [Kept.mk_eq]; refine Kept.of ?_) | assumption | refine State_putV_ok ?_ | split

theorem execCalStateChange_ok {s t} (e : execCalStateChange s = .next t) (h : Kept q n f m s) : Kept q n f m t := by
  unfold execCalStateChange at e
  injection e with e
  subst e
  with_reducible repeat' first
    | assumption | refine State_bump_ok ?_ | refine State_event_ok ?_ | refine State_put_ok ?_ | refine State_putLive_ok ?_
    | refine raiseStale_ok ?_ | refine releaseHold_ok ?_ | refine setCause_ok ?_ | refine Kept.ite (fun _ => ?_) (fun _ => ?_)

theorem coefStep_ok {a0 s} (h : Kept q n f m s) : Kept q n f m (coefStep a0 s) := by
  unfold coefStep
  with_reducible repeat' first
    | assumption | refine State_putLive_ok ?_ | split

theorem coefFrame_ok {s} (h : Kept q n f m s) : Kept q n f m (coefFrame s) := by
  unfold coefFrame
  with_reducible repeat' first
    | (simp only [Kept.mk_eq]; refine Kept.of ?_) | assumption | refine Kept.foldl ?_ ?_ | refine State_putLive_ok ?_
    | refine coefStep_ok ?_ | refine Kept.ite (fun _ => ?_) (fun _ => ?_) | intro _

theorem markWindows_ok {a0 s} (h : Kept q n f m s) : Kept q n f m (markWindows a0 s) := by
  unfold markWindows
  with_reducible repeat' first
    | (simp only [Kept.mk_eq]; refine Kept.of ?_) | assumption | refine Kept.foldl ?_ ?_ | refine State_putBoth_ok ?_ | split | intro _

theorem lateHealth_ok {a0 s} (h : Kept q n f m s) : Kept q n f m (lateHealth a0 s) := by
  unfold lateHealth
  with_reducible repeat' first
    | (simp only [Kept.mk_eq]; refine Kept.of ?_) | assumption | split

theorem publishOne_ok {a0 s} (h : Kept q n f m s) : Kept q n f m (publishOne a0 s) := by
  unfold publishOne
  with_reducible repeat' first
    | (simp only [Kept.mk_eq]; refine Kept.of ?_) | assumption | refine State_bump_ok ?_ | refine lateHealth_ok ?_
    | refine markWindows_ok ?_ | split

theorem push13_ok {a0 s} (h : Kept q n f m s) : Kept q n f m (push13 a0 s) := by
  unfold push13
  with_reducible repeat' first
    | assumption | refine State_bump_ok ?_ | refine State_bumpLive_ok ?_ | refine setSrv_ok ?_ | split

theorem setSub_ok {a0 s} (h : Kept q n f m s) : Kept q n f m (setSub a0 s) := by
  unfold setSub
  with_reducible repeat' first
    | assumption | refine setSrv_ok ?_

theorem subEval_ok {a0 a1 s} (h : Kept q n f m s) : Kept q n f m (subEval a0 a1 s) := by
  unfold subEval
  with_reducible repeat' first
    | assumption | refine push13_ok ?_ | refine setSub_ok ?_ | refine Kept.ite (fun _ => ?_) (fun _ => ?_)

theorem subsEval_ok {a0 s} (h : Kept q n f m s) : Kept q n f m (subsEval a0 s) := by
  unfold subsEval
  with_reducible repeat' first
    | assumption | refine Kept.foldl ?_ ?_ | refine subEval_ok ?_ | split | intro _

theorem endOfFrame_ok {s} (h : Kept q n f m s) : Kept q n f m (endOfFrame s) := by
  unfold endOfFrame
  try dsimp only
  with_reducible repeat' first
    | assumption | refine State_endFrame_ok ?_ | refine costTick_ok ?_ | refine frameLost_ok ?_ | refine offerTick_ok ?_
    | refine routeTick_ok ?_ | refine showLease_ok ?_ | refine showServer_ok ?_ | split

theorem applyVput_ok {s} (h : Kept q n f m s) : Kept q n f m (applyVput s) := by
  unfold applyVput
  with_reducible repeat' first
    | assumption | refine State_puts_ok ?_ | refine setSrv_ok ?_

theorem publish_ok {s} (h : Kept q n f m s) : Kept q n f m (publish s) := by
  unfold publish
  try dsimp only
  with_reducible repeat' first
    | (simp only [Kept.mk_eq]; refine Kept.of ?_) | assumption | refine Kept.foldl ?_ ?_ | refine publishOne_ok ?_ | refine subsEval_ok ?_
    | refine trainFrame_ok ?_ | split | intro _

theorem nextFrame_ok {s} (h : Kept q n f m s) : Kept q n ((f + 1) % 2 ^ 48) m (nextFrame s) :=
  ⟨h.dict, h.pages, h.seals, h.ring5, h.ring7, Nat.zero_le _, h.pending, h.draws, by rw [← h.fn]; rfl, h.mode⟩

theorem noneLost_ok {s} (h : Kept q n f m s) : Kept q n f m (noneLost s) := by
  unfold noneLost
  with_reducible repeat' first
    | (simp only [Kept.mk_eq]; refine Kept.of ?_) | assumption

theorem execFrameTick_ok {a0 s t} (e : execFrameTick a0 s = .next t) (h : Kept q n f m s) :
    Kept q n (if m = .run ∨ m = .recovery then (f + 1) % 2 ^ 48 else f) m t := by
  unfold execFrameTick at e
  injection e with e
  subst e
  rw [h.mode]
  by_cases c : m = .run
  · rw [if_pos c, if_pos (Or.inl c)]
    exact storeLegal_ok (Kept.foldl (fun _ _ k => showPending_ok k) (publish_ok (applyVput_ok (coefFrame_ok (calSample_ok (tickTime_ok
      (nextFrame_ok (endOfFrame_ok h))))))))
  · rw [if_neg c]
    by_cases d : m = .recovery
    · rw [if_pos d, if_pos (Or.inr d)]
      exact storeLegal_ok (coefFrame_ok (nextFrame_ok (noneLost_ok (State_put_ok (State_applyDue_ok (State_endFrame_ok (showLease_ok h)))))))
    · rw [if_neg d, if_neg (by simp [c, d])]; exact h

theorem execPublisherSeal_ok {s t} (e : execPublisherSeal s = .next t) (h : Kept q n f m s) : Kept q n f m t := by
  unfold execPublisherSeal at e
  injection e with e
  subst e
  with_reducible repeat' first
    | (simp only [Kept.mk_eq]; refine Kept.of ?_) | assumption | refine Kept.foldl ?_ ?_ | refine State_put_ok ?_ | split | intro _

/-! ### Methods -/

theorem runMethods_ok {a0 a1 a2 a3 s} (h3 : ∀ x0 x1 s, Kept q n f m s → Kept q n f m (a3 x0 x1 s)) (h : Kept q n f m s) : Kept q n f m (runMethods a0 a1 a2 a3 s) := by
  unfold runMethods
  with_reducible repeat' first
    | assumption | refine answer_ok ?_ | refine runOp_ok ?_ ?_ | refine h3 _ _ _ ?_ | refine Kept.ite (fun _ => ?_) (fun _ => ?_)
    | intro _

theorem runMethod_ok {a0 a1 a2 a3 s} (h3 : ∀ x0 x1 s, Kept q n f m s → Kept q n f m (a3 x0 x1 s)) (h : Kept q n f m s) : Kept q n f m (runMethod a0 a1 a2 a3 s) := by
  unfold runMethod
  with_reducible repeat' first
    | assumption | refine runMethods_ok ?_ ?_

theorem legalNote_ok {a0 a1 a2 a3 a4 a5 s} (h : Kept q n f m s) : Kept q n f m (legalNote a0 a1 a2 a3 a4 a5 s) := by
  unfold legalNote
  with_reducible repeat' first
    | assumption | refine State_bump_ok ?_ | refine State_event_ok ?_

theorem acceptTime_ok {a0 a1 a2 s} (h : Kept q n f m s) : Kept q n f m (acceptTime a0 a1 a2 s).2.2 := by
  unfold acceptTime
  with_reducible repeat' first
    | (simp only [Kept.mk_eq]; refine Kept.of ?_) | assumption | refine State_event_ok ?_ | refine State_put_ok ?_
    | refine State_putV_ok ?_ | refine Kept.ite (fun _ => ?_) (fun _ => ?_)

theorem execTimeSet_ok {a0 s t} (e : execTimeSet a0 s = .next t) (h : Kept q n f m s) : Kept q n f m t := by
  unfold execTimeSet at e
  injection e with e
  subst e
  with_reducible repeat' first
    | assumption | refine acceptTime_ok ?_ | refine answer_ok ?_ | refine legalNote_ok ?_ | refine runMethod_ok ?_ ?_
    | refine Kept.ite (fun _ => ?_) (fun _ => ?_) | intro _

theorem execClockStepApply_ok {s t} (e : execClockStepApply s = .next t) (h : Kept q n f m s) : Kept q n f m t := by
  unfold execClockStepApply at e
  injection e with e
  subst e
  with_reducible repeat' first
    | (simp only [Kept.mk_eq]; refine Kept.of ?_) | assumption | refine State_put_ok ?_ | refine State_putLive_ok ?_
    | refine noteTime_ok ?_ | split

theorem execCaptureNow_ok {a0 s t} (e : execCaptureNow a0 s = .next t) (h : Kept q n f m s) : Kept q n f m t := by
  unfold execCaptureNow at e
  injection e with e
  subst e
  with_reducible repeat' first
    | (simp only [Kept.mk_eq]; refine Kept.of ?_) | assumption | refine State_bump_ok ?_ | refine answer_ok ?_ | refine runMethod_ok ?_ ?_
    | split | intro _

theorem execCloseNow_ok {a0 s t} (e : execCloseNow a0 s = .next t) (h : Kept q n f m s) : Kept q n f m t := by
  unfold execCloseNow at e
  injection e with e
  subst e
  with_reducible repeat' first
    | (simp only [Kept.mk_eq]; refine Kept.of ?_) | assumption | refine answer_ok ?_ | refine legalNote_ok ?_ | refine runMethods_ok ?_ ?_
    | refine Kept.ite (fun _ => ?_) (fun _ => ?_) | intro _

/-! ### EventLog -/

theorem logEvent_ok {a0 s} (h : Kept q n f m s) : Kept q n f m (logEvent a0 s) := by
  unfold logEvent
  with_reducible repeat' first
    | assumption | refine State_put_ok ?_ | refine setTk_ok ?_ | refine showLogs_ok ?_ | refine tkPush_ok ?_

theorem numberEvent_ok {a0 s} (h : Kept q n f m s) : Kept q n f m (numberEvent a0 s) := by
  unfold numberEvent
  with_reducible repeat' first
    | assumption | refine State_bump_ok ?_ | refine logEvent_ok ?_ | split

theorem eventFlags_ok {a0 s} (h : Kept q n f m s) : Kept q n f m (eventFlags a0 s) := by
  unfold eventFlags
  with_reducible repeat' first
    | assumption | refine legacyEvent_ok ?_ | refine setCause_ok ?_ | split

theorem drop5_ok {s} (h : Kept q n f m s) : Kept q n f m (drop5 s) := by
  refine ⟨h.dict, h.pages, h.seals, ?_, h.ring7, h.period, h.pending, h.draws, h.fn, h.mode⟩
  have := h.ring5
  simp only [drop5, List.length_drop]; omega

theorem execEventLogWrite_ok {s t} (e : execEventLogWrite s = .next t) (h : Kept q n f m s) : Kept q n f m t := by
  unfold execEventLogWrite at e
  injection e with e
  subst e
  with_reducible repeat' first
    | assumption | refine drop5_ok ?_ | refine eventFlags_ok ?_ | refine numberEvent_ok ?_ | split

theorem execEventRead_ok {a0 s t} (e : execEventRead a0 s = .next t) (h : Kept q n f m s) : Kept q n f m t := by
  unfold execEventRead at e
  injection e with e
  subst e
  with_reducible repeat' first
    | assumption | refine answer_ok ?_ | refine runMethod_ok ?_ ?_ | refine Kept.ite (fun _ => ?_) (fun _ => ?_) | intro _

theorem execTkRead_ok {a0 s t} (e : execTkRead a0 s = .next t) (h : Kept q n f m s) : Kept q n f m t := by
  unfold execTkRead at e
  injection e with e
  subst e
  with_reducible repeat' first
    | assumption | refine answer_ok ?_ | refine runMethod_ok ?_ ?_ | refine Kept.ite (fun _ => ?_) (fun _ => ?_) | intro _

/-! ### Twin -/

theorem loadRaw_ok {a0 a1 s} (h : Kept q n f m s) : Kept q n f m (loadRaw a0 a1 s) := by
  unfold loadRaw
  with_reducible repeat' first
    | assumption | refine Kept.foldl ?_ ?_ | refine State_put_ok ?_ | split | intro _

theorem showTwin_ok {a0 s} (h : Kept q n f m s) : Kept q n f m (showTwin a0 s) := by
  unfold showTwin
  try dsimp only
  with_reducible repeat' first
    | assumption | refine State_putV_ok ?_ | split

theorem judgeTwin_ok {a0 s} (h : Kept q n f m s) : Kept q n f m (judgeTwin a0 s) := by
  unfold judgeTwin
  with_reducible repeat' first
    | assumption | refine State_event_ok ?_ | refine showTwin_ok ?_ | refine Kept.ite (fun _ => ?_) (fun _ => ?_)

theorem noteServed_ok {a0 s} (h : Kept q n f m s) : Kept q n f m (noteServed a0 s) := h

theorem reapply_ok {a0 : List (Nat × Nat)} {a1 s} (_ : Kept q n f m a1) (h : Kept q n f m s) : Kept q n f m (reapply a0 a1 s) := by
  unfold reapply
  exact Kept.foldl (fun _ _ k => Kept.ite (fun _ => k) (fun _ => State_put_ok k)) h

theorem loadCopy_ok {a0 a1 s} (h : Kept q n f m s) : Kept q n f m (loadCopy a0 a1 s) := by
  unfold loadCopy
  try dsimp only
  with_reducible repeat' first
    | assumption | refine Kept.foldl ?_ ?_ | refine State_put_ok ?_ | refine loadRaw_ok ?_ | split | intro _

theorem judgeLegal_ok {a0 s} (h : Kept q n f m s) : Kept q n f m (judgeLegal a0 s) := by
  unfold judgeLegal
  with_reducible repeat' first
    | assumption | refine Kept.foldl ?_ ?_ | refine State_event_ok ?_ | refine State_put_ok ?_ | refine State_putV_ok ?_
    | refine loadCopy_ok ?_ | refine noteServed_ok ?_ | refine Kept.ite (fun _ => ?_) (fun _ => ?_) | split | intro _

theorem judgeTwins_ok {a0 s} (h : Kept q n f m s) : Kept q n f m (judgeTwins a0 s) := by
  unfold judgeTwins
  with_reducible repeat' first
    | assumption | refine Kept.foldl ?_ ?_ | refine judgeTwin_ok ?_ | refine showTwin_ok ?_ | split | intro _

theorem rawObjects_ok {a0 a1 s} (h : Kept q n f m s) : Kept q n f m (rawObjects a0 a1 s) := by
  unfold rawObjects
  with_reducible repeat' first
    | assumption | refine loadRaw_ok ?_ | refine Kept.ite (fun _ => ?_) (fun _ => ?_)

theorem setRaw_ok {a0 a1 s} (h : Kept q n f m s) : Kept q n f m (setRaw a0 a1 s) := by
  unfold setRaw
  with_reducible repeat' first
    | assumption | refine modPage_ok ?_ | refine rawObjects_ok ?_

theorem execTwinWrite_ok {a0 s t} (e : execTwinWrite a0 s = .next t) (h : Kept q n f m s) : Kept q n f m t := by
  unfold execTwinWrite at e
  injection e with e
  subst e
  with_reducible repeat' first
    | assumption | refine answer_ok ?_ | refine holdTag_ok ?_ | refine postWrite_ok ?_ | refine runMethod_ok ?_ ?_
    | refine Kept.ite (fun _ => ?_) (fun _ => ?_) | split | intro _

theorem execResolve_ok {a0 s t} (e : execResolve a0 s = .next t) (h : Kept q n f m s) : Kept q n f m t := by
  unfold execResolve at e
  injection e with e
  subst e
  with_reducible repeat' first
    | assumption | refine answer_ok ?_ | refine postCommit_ok ?_ | refine runMethod_ok ?_ ?_ | refine waitTurn_ok ?_
    | refine Kept.ite (fun _ => ?_) (fun _ => ?_) | intro _

theorem resolveLegal_ok {a0 a1 s} (h : Kept q n f m s) : Kept q n f m (resolveLegal a0 a1 s) := by
  unfold resolveLegal
  with_reducible repeat' first
    | (simp only [Kept.mk_eq]; refine Kept.of ?_) | assumption | refine Kept.foldl ?_ ?_ | refine loadCopy_ok ?_ | refine modPage_ok ?_
    | refine postWrite_ok ?_ | refine reapply_ok ?_ ?_ | intro _

theorem resolveHost_ok {a0 a1 s} (h : Kept q n f m s) : Kept q n f m (resolveHost a0 a1 s) := by
  unfold resolveHost
  with_reducible repeat' first
    | assumption | refine modPage_ok ?_ | refine postWrite_ok ?_

theorem resolveNow_ok {a0 a1 a2 s} (h : Kept q n f m s) : Kept q n f m (resolveNow a0 a1 a2 s) := by
  unfold resolveNow
  with_reducible repeat' first
    | assumption | refine State_event_ok ?_ | refine State_putV_ok ?_ | refine resolveHost_ok ?_ | refine resolveLegal_ok ?_
    | refine showTwin_ok ?_ | split

/-! ### Store -/

theorem runAck_ok {a0 s} (h : Kept q n f m s) : Kept q n f m (runAck a0 s) := by
  unfold runAck
  with_reducible repeat' first
    | (simp only [Kept.mk_eq]; refine Kept.of ?_) | assumption | refine ackCommit_ok ?_ | refine answer_ok ?_ | refine judgeTwins_ok ?_
    | refine noteAcked_ok ?_ | split

theorem showLegal_ok {a0 s} (h : Kept q n f m s) : Kept q n f m (showLegal a0 s) := by
  unfold showLegal
  with_reducible repeat' first
    | (simp only [Kept.mk_eq]; refine Kept.of ?_) | assumption | refine State_putV_ok ?_ | refine Kept.ite (fun _ => ?_) (fun _ => ?_)

theorem execPageStoreComplete_ok {a0 s t} (e : execPageStoreComplete a0 s = .next t) (h : Kept q n f m s) : Kept q n f m t := by
  unfold execPageStoreComplete at e
  injection e with e
  subst e
  with_reducible repeat' first
    | (simp only [Kept.mk_eq]; refine Kept.of ?_) | assumption | refine runAck_ok ?_ | refine showLegal_ok ?_ | refine showPage_ok ?_
    | refine storeFailed_ok ?_ | refine storeSealed_ok ?_ | refine writeFrame_ok ?_ | split

theorem rollPosition_ok {a0 s} (h : Kept q n f m s) : Kept q n f m (rollPosition a0 s) := by
  unfold rollPosition
  with_reducible repeat' first
    | (simp only [Kept.mk_eq]; refine Kept.of ?_) | assumption | refine Kept.foldl ?_ ?_ | refine State_putLive_ok ?_
    | refine checkTotals_ok ?_ | refine keepRatios_ok ?_ | refine postJob_ok ?_ | refine postRoll_ok ?_
    | refine Kept.ite (fun _ => ?_) (fun _ => ?_) | intro _

theorem execRollPosition_ok {s t} (e : execRollPosition s = .next t) (h : Kept q n f m s) : Kept q n f m t := by
  unfold execRollPosition at e
  injection e with e
  subst e
  with_reducible repeat' first
    | (simp only [Kept.mk_eq]; refine Kept.of ?_) | assumption | refine rollPosition_ok ?_ | split

theorem execBgStore_ok {s t} (e : execBgStore s = .next t) (h : Kept q n f m s) : Kept q n f m t := by
  unfold execBgStore at e
  injection e with e
  subst e
  with_reducible repeat' first
    | (simp only [Kept.mk_eq]; refine Kept.of ?_) | assumption | refine State_put_ok ?_ | refine postJob_ok ?_ | split

theorem renewFrame_ok {a0 s} (h : Kept q n f m s) : Kept q n f m (renewFrame a0 s) := by
  unfold renewFrame
  with_reducible repeat' first
    | (simp only [Kept.mk_eq]; refine Kept.of ?_) | assumption | refine State_bump_ok ?_ | refine State_event_ok ?_ | refine postJob_ok ?_
    | refine Kept.ite (fun _ => ?_) (fun _ => ?_) | split

theorem execScrub_ok {a0 a1 s t} (e : execScrub a0 a1 s = .next t) (h : Kept q n f m s) : Kept q n f m t := by
  unfold execScrub at e
  injection e with e
  subst e
  with_reducible repeat' first
    | (simp only [Kept.mk_eq]; refine Kept.of ?_) | assumption | refine Kept.foldl ?_ ?_ | refine State_bump_ok ?_
    | refine State_event_ok ?_ | refine State_put_ok ?_ | refine refreshSec_ok ?_ | refine renewFrame_ok ?_ | split | intro _

theorem takeBackup_ok {s} (h : Kept q n f m s) : Kept q n f m (takeBackup s) := by
  unfold takeBackup
  with_reducible repeat' first
    | (simp only [Kept.mk_eq]; refine Kept.of ?_) | assumption | refine Kept.foldl ?_ ?_ | refine setTk_ok ?_ | refine tkPush_ok ?_
    | intro _

theorem execBackup_ok {s t} (e : execBackup s = .next t) (h : Kept q n f m s) : Kept q n f m t := by
  unfold execBackup at e
  injection e with e
  subst e
  with_reducible repeat' first
    | (simp only [Kept.mk_eq]; refine Kept.of ?_) | assumption | refine setTk_ok ?_ | refine takeBackup_ok ?_
    | refine Kept.ite (fun _ => ?_) (fun _ => ?_)

theorem execBackupNow_ok {a0 s t} (e : execBackupNow a0 s = .next t) (h : Kept q n f m s) : Kept q n f m t := by
  unfold execBackupNow at e
  injection e with e
  subst e
  with_reducible repeat' first
    | (simp only [Kept.mk_eq]; refine Kept.of ?_) | assumption | refine answer_ok ?_ | refine runMethod_ok ?_ ?_ | refine takeBackup_ok ?_
    | intro _

theorem execRestore_ok {a0 s t} (e : execRestore a0 s = .next t) (h : Kept q n f m s) : Kept q n f m t := by
  unfold execRestore at e
  try dsimp only at e
  injection e with e
  subst e
  with_reducible repeat' first
    | (simp only [Kept.mk_eq]; refine Kept.of ?_) | assumption | refine answer_ok ?_ | refine postCommit_ok ?_ | refine runMethod_ok ?_ ?_
    | refine waitTurn_ok ?_ | split | intro _

theorem restoreNow_ok {a0 a1 s} (h : Kept q n f m s) : Kept q n f m (restoreNow a0 a1 s) := by
  unfold restoreNow
  with_reducible repeat' first
    | (simp only [Kept.mk_eq]; refine Kept.of ?_) | assumption | refine Kept.foldl ?_ ?_ | refine modPage_ok ?_ | refine postWrite_ok ?_
    | refine showPage_ok ?_ | split | intro _

theorem execPageRead_ok {a0 s t} (e : execPageRead a0 s = .next t) (h : Kept q n f m s) : Kept q n f m t := by
  unfold execPageRead at e
  injection e with e
  subst e
  with_reducible repeat' first
    | (simp only [Kept.mk_eq]; refine Kept.of ?_) | assumption | refine answer_ok ?_ | refine runMethod_ok ?_ ?_
    | refine Kept.ite (fun _ => ?_) (fun _ => ?_) | intro _

theorem execPageWrite_ok {a0 s t} (e : execPageWrite a0 s = .next t) (h : Kept q n f m s) : Kept q n f m t := by
  unfold execPageWrite at e
  injection e with e
  subst e
  with_reducible repeat' first
    | (simp only [Kept.mk_eq]; refine Kept.of ?_) | assumption | refine answer_ok ?_ | refine holdTag_ok ?_ | refine legalNote_ok ?_
    | refine postJob_ok ?_ | refine runMethod_ok ?_ ?_ | refine setRaw_ok ?_ | refine Kept.ite (fun _ => ?_) (fun _ => ?_) | intro _

theorem execHjWrite_ok {a0 s t} (e : execHjWrite a0 s = .next t) (h : Kept q n f m s) : Kept q n f m t := by
  unfold execHjWrite at e
  injection e with e
  subst e
  with_reducible repeat' first
    | (simp only [Kept.mk_eq]; refine Kept.of ?_) | assumption | refine answer_ok ?_ | refine runMethod_ok ?_ ?_
    | refine Kept.ite (fun _ => ?_) (fun _ => ?_) | intro _

theorem execHjRead_ok {a0 s t} (e : execHjRead a0 s = .next t) (h : Kept q n f m s) : Kept q n f m t := by
  unfold execHjRead at e
  injection e with e
  subst e
  with_reducible repeat' first
    | (simp only [Kept.mk_eq]; refine Kept.of ?_) | assumption | refine answer_ok ?_ | refine runMethod_ok ?_ ?_
    | refine Kept.ite (fun _ => ?_) (fun _ => ?_) | intro _

/-! ### Lease -/

theorem showHolders_ok {s} (h : Kept q n f m s) : Kept q n f m (showHolders s) := by
  unfold showHolders
  with_reducible repeat' first
    | assumption | refine State_putLive_ok ?_ | refine showUnits_ok ?_ | split

theorem setLease_ok {a0 a1 s} (h : Kept q n f m s) : Kept q n f m (setLease a0 a1 s) := by
  unfold setLease
  with_reducible repeat' first
    | (simp only [Kept.mk_eq]; refine Kept.of ?_) | assumption | refine State_putLive_ok ?_ | refine showHolders_ok ?_

theorem endLease_ok {s} (h : Kept q n f m s) : Kept q n f m (endLease s) := by
  unfold endLease
  with_reducible repeat' first
    | assumption | refine setLease_ok ?_

theorem touchLease_ok {a0 s} (h : Kept q n f m s) : Kept q n f m (touchLease a0 s) := by
  unfold touchLease
  with_reducible repeat' first
    | (simp only [Kept.mk_eq]; refine Kept.of ?_) | assumption | split

theorem answerHeld_ok {a0 s} (h : Kept q n f m s) : Kept q n f m (answerHeld a0 s) := by
  unfold answerHeld
  with_reducible repeat' first
    | assumption | refine answer_ok ?_ | split

theorem noteReject_ok {a0 a1 a2 s} (h : Kept q n f m s) : Kept q n f m (noteReject a0 a1 a2 s) := by
  unfold noteReject
  with_reducible repeat' first
    | assumption | refine State_event_ok ?_ | refine State_put_ok ?_

theorem answerReject_ok {a0 a1 a2 a3 s} (h : Kept q n f m s) : Kept q n f m (answerReject a0 a1 a2 a3 s) := by
  unfold answerReject
  with_reducible repeat' first
    | assumption | refine answer_ok ?_ | refine noteReject_ok ?_

theorem dropHolders_ok {a0 s} (h : Kept q n f m s) : Kept q n f m (dropHolders a0 s) := by
  unfold dropHolders
  with_reducible repeat' first
    | assumption | refine endLease_ok ?_ | refine setLease_ok ?_ | refine Kept.ite (fun _ => ?_) (fun _ => ?_) | split

theorem eraseSlot_ok {a0 s} (h : Kept q n f m s) : Kept q n f m (eraseSlot a0 s) := by
  unfold eraseSlot
  with_reducible repeat' first
    | assumption | refine Kept.foldl ?_ ?_ | refine tkPush_ok ?_ | split | intro _

theorem dropImages_ok {a0 s} (h : Kept q n f m s) : Kept q n f m (dropImages a0 s) := by
  unfold dropImages
  with_reducible repeat' first
    | assumption | refine Kept.foldl ?_ ?_ | refine setTk_ok ?_ | refine tkPush_ok ?_ | split | intro _

theorem lateHeld_ok {a0 s} (h : Kept q n f m s) : Kept q n f m (lateHeld a0 s) := by
  unfold lateHeld
  with_reducible repeat' first
    | assumption | refine answerHeld_ok ?_ | split

theorem openLease_ok {a0 a1 a2 a3 s} (h : Kept q n f m s) : Kept q n f m (openLease a0 a1 a2 a3 s) := by
  unfold openLease
  with_reducible repeat' first
    | assumption | refine Kept.foldl ?_ ?_ | refine State_put_ok ?_ | refine answer_ok ?_ | refine answerReject_ok ?_
    | refine dropImages_ok ?_ | refine eraseSlot_ok ?_ | refine lateHeld_ok ?_ | refine setLease_ok ?_ | refine setSlot_ok ?_
    | refine showManifest_ok ?_ | refine Kept.ite (fun _ => ?_) (fun _ => ?_) | intro _

theorem execUpdateOpen_ok {a0 s t} (e : execUpdateOpen a0 s = .next t) (h : Kept q n f m s) : Kept q n f m t := by
  unfold execUpdateOpen at e
  injection e with e
  subst e
  with_reducible repeat' first
    | assumption | refine State_event_ok ?_ | refine answer_ok ?_ | refine answerHeld_ok ?_ | refine endLease_ok ?_
    | refine openLease_ok ?_ | refine runMethod_ok ?_ ?_ | refine setLease_ok ?_ | refine touchLease_ok ?_
    | refine Kept.ite (fun _ => ?_) (fun _ => ?_) | split | intro _

theorem execWriteBlock_ok {a0 s t} (e : execWriteBlock a0 s = .next t) (h : Kept q n f m s) : Kept q n f m t := by
  unfold execWriteBlock at e
  injection e with e
  subst e
  with_reducible repeat' first
    | assumption | refine answer_ok ?_ | refine answerHeld_ok ?_ | refine answerReject_ok ?_ | refine holdTag_ok ?_
    | refine runMethod_ok ?_ ?_ | refine tkPush_ok ?_ | refine touchLease_ok ?_ | refine Kept.ite (fun _ => ?_) (fun _ => ?_) | intro _

theorem execVerify_ok {a0 s t} (e : execVerify a0 s = .next t) (h : Kept q n f m s) : Kept q n f m t := by
  unfold execVerify at e
  try dsimp only at e
  injection e with e
  subst e
  with_reducible repeat' first
    | assumption | refine State_put_ok ?_ | refine answer_ok ?_ | refine answerHeld_ok ?_ | refine answerReject_ok ?_
    | refine eraseSlot_ok ?_ | refine runMethod_ok ?_ ?_ | refine setLease_ok ?_ | refine setSlot_ok ?_ | refine showManifest_ok ?_
    | refine touchLease_ok ?_ | split | intro _

theorem cancelHand_ok {s} (h : Kept q n f m s) : Kept q n f m (cancelHand s) := by
  unfold cancelHand
  with_reducible repeat' first
    | (simp only [Kept.mk_eq]; refine Kept.of ?_) | assumption | refine State_putLive_ok ?_

theorem execAbort_ok {a0 s t} (e : execAbort a0 s = .next t) (h : Kept q n f m s) : Kept q n f m t := by
  unfold execAbort at e
  injection e with e
  subst e
  with_reducible repeat' first
    | assumption | refine answer_ok ?_ | refine answerHeld_ok ?_ | refine cancelHand_ok ?_ | refine endLease_ok ?_
    | refine runMethod_ok ?_ ?_ | refine touchLease_ok ?_ | split | intro _

theorem execLeaseExpiry_ok {s t} (e : execLeaseExpiry s = .next t) (h : Kept q n f m s) : Kept q n f m t := by
  unfold execLeaseExpiry at e
  injection e with e
  subst e
  with_reducible repeat' first
    | assumption | refine State_event_ok ?_ | refine endLease_ok ?_ | split

theorem execKeyCommand_ok {a0 s t} (e : execKeyCommand a0 s = .next t) (h : Kept q n f m s) : Kept q n f m t := by
  unfold execKeyCommand at e
  injection e with e
  subst e
  with_reducible repeat' first
    | assumption | refine State_event_ok ?_ | refine State_put_ok ?_ | refine answer_ok ?_ | refine legalNote_ok ?_
    | refine runMethod_ok ?_ ?_ | refine Kept.ite (fun _ => ?_) (fun _ => ?_) | intro _

end Sys2Proof.Machine
end

