-- ==== Sys2Proof/Laws/KeptPorts.lean ====
section
/-! SUPPORT. What the operations of these files keep: Ports, Ethernet, Plc, PortState, LastGasp. -/

namespace Sys2Proof.Machine

variable {q : List Instr} {n f : Nat} {m : Mode}

/-! ### Ports -/

theorem setPortUnit_ok {a0 a1 s} (h : Kept q n f m s) : Kept q n f m (setPortUnit a0 a1 s) := by
  unfold setPortUnit
  with_reducible repeat' first
    | (simp only [Kept.mk_eq]; refine Kept.of ?_) | assumption

theorem portSet_ok {a0 a1 a2 s} (h : Kept q n f m s) : Kept q n f m (portSet a0 a1 a2 s) := by
  unfold portSet
  with_reducible repeat' first
    | assumption | refine State_event_ok ?_ | refine State_putV_ok ?_ | split

theorem dropFrames_ok {a0 a1 s} (h : Kept q n f m s) : Kept q n f m (dropFrames a0 a1 s) := by
  unfold dropFrames
  with_reducible repeat' first
    | assumption | refine Kept.foldl ?_ ?_ | refine leave12_ok ?_ | refine setSrv_ok ?_ | intro _

theorem cancelReqs_ok {a0 a1 s} (h : Kept q n f m s) : Kept q n f m (cancelReqs a0 a1 s) := by
  unfold cancelReqs
  with_reducible repeat' first
    | assumption | refine Kept.foldl ?_ ?_ | refine freeTag_ok ?_ | intro _

theorem dropWork_ok {a0 a1 s} (h : Kept q n f m s) : Kept q n f m (dropWork a0 a1 s) := by
  unfold dropWork
  with_reducible repeat' first
    | assumption | refine endTxns_ok ?_ | refine setSrv_ok ?_

theorem endSess_ok {a0 s} (h : Kept q n f m s) : Kept q n f m (endSess a0 s) := by
  unfold endSess
  with_reducible repeat' first
    | assumption | refine cancelReqs_ok ?_ | refine dropFrames_ok ?_ | refine dropHolders_ok ?_ | refine dropWork_ok ?_
    | refine setSess_ok ?_ | refine setSrv_ok ?_ | split

theorem endPort_ok {a0 s} (h : Kept q n f m s) : Kept q n f m (endPort a0 s) := by
  unfold endPort
  with_reducible repeat' first
    | assumption | refine Kept.foldl ?_ ?_ | refine endSess_ok ?_ | intro _

theorem stepCounter_ok {a0 s} (h : Kept q n f m s) : Kept q n f m (stepCounter a0 s) := by
  unfold stepCounter
  with_reducible repeat' first
    | assumption | refine endSess_ok ?_ | refine setSess_ok ?_ | split

theorem execSessionTimeout_ok {a0 s t} (e : execSessionTimeout a0 s = .next t) (h : Kept q n f m s) : Kept q n f m t := by
  unfold execSessionTimeout at e
  injection e with e
  subst e
  with_reducible repeat' first
    | assumption | refine endSess_ok ?_ | split

theorem execEndSession_ok {a0 s t} (e : execEndSession a0 s = .next t) (h : Kept q n f m s) : Kept q n f m t := by
  unfold execEndSession at e
  injection e with e
  subst e
  with_reducible repeat' first
    | assumption | refine answer_ok ?_ | refine endSess_ok ?_ | refine runMethod_ok ?_ ?_ | refine Kept.ite (fun _ => ?_) (fun _ => ?_)
    | intro _

theorem dropHello_ok {a0 s} (h : Kept q n f m s) : Kept q n f m (dropHello a0 s) := by
  unfold dropHello
  with_reducible repeat' first
    | assumption | refine setSrv_ok ?_

theorem setHandshake_ok {a0 a1 s} (h : Kept q n f m s) : Kept q n f m (setHandshake a0 a1 s) := by
  unfold setHandshake
  with_reducible repeat' first
    | assumption | refine setSrv_ok ?_

theorem answerStep1_ok {a0 a1 a2 s} (h : Kept q n f m s) : Kept q n f m (answerStep1 a0 a1 a2 s) := by
  unfold answerStep1
  with_reducible repeat' first
    | assumption | refine push12_ok ?_ | refine setHandshake_ok ?_

theorem helloOne_ok {a0 s} (h : Kept q n f m s) : Kept q n f m (helloOne a0 s) := by
  unfold helloOne
  with_reducible repeat' first
    | assumption | refine State_draw_ok ?_ | refine State_drawBytes_ok ?_ | refine answerStep1_ok ?_ | refine refuse_ok ?_
    | refine Kept.ite (fun _ => ?_) (fun _ => ?_)

theorem execHelloStep1_ok {a0 s t} (e : execHelloStep1 a0 s = .next t) (h : Kept q n f m s) : Kept q n f m t := by
  unfold execHelloStep1 at e
  injection e with e
  subst e
  with_reducible repeat' first
    | assumption | refine dropHello_ok ?_ | refine helloOne_ok ?_ | split

theorem execHandshakeExpiry_ok {a0 s t} (e : execHandshakeExpiry a0 s = .next t) (h : Kept q n f m s) : Kept q n f m t := by
  unfold execHandshakeExpiry at e
  injection e with e
  subst e
  with_reducible repeat' first
    | assumption | refine setHandshake_ok ?_ | split

theorem helloDenied_ok {a0 s} (h : Kept q n f m s) : Kept q n f m (helloDenied a0 s) := by
  unfold helloDenied
  with_reducible repeat' first
    | assumption | refine State_bump_ok ?_ | refine refuse_ok ?_

theorem openSession_ok {a0 a1 a2 s} (h : Kept q n f m s) : Kept q n f m (openSession a0 a1 a2 s) := by
  unfold openSession
  with_reducible repeat' first
    | assumption | refine dropWork_ok ?_ | refine endSess_ok ?_ | refine push12_ok ?_ | refine setSess_ok ?_ | split

theorem helloTwo_ok {a0 s} (h : Kept q n f m s) : Kept q n f m (helloTwo a0 s) := by
  unfold helloTwo
  with_reducible repeat' first
    | assumption | refine helloDenied_ok ?_ | refine openSession_ok ?_ | refine refuse_ok ?_ | refine setHandshake_ok ?_
    | refine Kept.ite (fun _ => ?_) (fun _ => ?_) | split

theorem execHelloStep2_ok {a0 s t} (e : execHelloStep2 a0 s = .next t) (h : Kept q n f m s) : Kept q n f m t := by
  unfold execHelloStep2 at e
  injection e with e
  subst e
  with_reducible repeat' first
    | assumption | refine dropHello_ok ?_ | refine helloTwo_ok ?_ | split

theorem acceptNet_ok {a0 a1 s} (h : Kept q n f m s) : Kept q n f m (acceptNet a0 a1 s) := by
  unfold acceptNet
  with_reducible repeat' first
    | assumption | refine State_bump_ok ?_ | refine State_bumpLive_ok ?_ | refine refuse_ok ?_ | refine setSrv_ok ?_
    | refine Kept.ite (fun _ => ?_) (fun _ => ?_)

theorem netSession_ok {a0 a1 a2 a3 a4 a5 a6 a7 s} (h : Kept q n f m s) : Kept q n f m (netSession a0 a1 a2 a3 a4 a5 a6 a7 s) := by
  unfold netSession
  with_reducible repeat' first
    | assumption | refine State_bump_ok ?_ | refine acceptNet_ok ?_ | refine endSess_ok ?_ | refine setSess_ok ?_ | split

theorem netPlain_ok {a0 a1 a2 a3 a4 a5 s} (h : Kept q n f m s) : Kept q n f m (netPlain a0 a1 a2 a3 a4 a5 s) := by
  unfold netPlain
  with_reducible repeat' first
    | assumption | refine State_bumpLive_ok ?_ | refine netSession_ok ?_ | split

theorem netHand_ok {a0 a1 a2 a3 a4 a5 a6 a7 a8 s} (h : Kept q n f m s) : Kept q n f m (netHand a0 a1 a2 a3 a4 a5 a6 a7 a8 s) := by
  unfold netHand
  with_reducible repeat' first
    | assumption | refine State_bump_ok ?_ | refine State_bumpLive_ok ?_ | refine acceptNet_ok ?_ | refine netPlain_ok ?_ | split

theorem netAccept_ok {a0 s} (h : Kept q n f m s) : Kept q n f m (netAccept a0 s) := by
  unfold netAccept
  with_reducible repeat' first
    | assumption | refine State_bumpLive_ok ?_ | refine acceptNet_ok ?_ | refine netHand_ok ?_ | refine netPlain_ok ?_
    | refine Kept.ite (fun _ => ?_) (fun _ => ?_) | split

theorem execBridleNetworkFrame_ok {a0 s t} (e : execBridleNetworkFrame a0 s = .next t) (h : Kept q n f m s) : Kept q n f m t := by
  unfold execBridleNetworkFrame at e
  injection e with e
  subst e
  with_reducible repeat' first
    | assumption | refine netAccept_ok ?_ | refine setSrv_ok ?_ | refine Kept.ite (fun _ => ?_) (fun _ => ?_) | split

theorem execSubscribe_ok {a0 s t} (e : execSubscribe a0 s = .next t) (h : Kept q n f m s) : Kept q n f m t := by
  unfold execSubscribe at e
  try dsimp only at e
  injection e with e
  subst e
  with_reducible repeat' first
    | assumption | refine answer_ok ?_ | refine runOp_ok ?_ ?_ | refine setSrv_ok ?_ | split | intro _

theorem execUnsubscribe_ok {a0 s t} (e : execUnsubscribe a0 s = .next t) (h : Kept q n f m s) : Kept q n f m t := by
  unfold execUnsubscribe at e
  injection e with e
  subst e
  with_reducible repeat' first
    | assumption | refine answer_ok ?_ | refine runOp_ok ?_ ?_ | refine setSrv_ok ?_ | split | intro _

/-! ### Ethernet -/

theorem setT1s_ok {a0 s} (h : Kept q n f m s) : Kept q n f m (setT1s a0 s) := h

theorem setDad_ok {a0 a1 s} (h : Kept q n f m s) : Kept q n f m (setDad a0 a1 s) := by
  unfold setDad
  with_reducible repeat' first
    | assumption | refine State_putLive_ok ?_

theorem dadUnicast_ok {a0 s} (h : Kept q n f m s) : Kept q n f m (dadUnicast a0 s) := by
  unfold dadUnicast
  with_reducible repeat' first
    | assumption | refine setDad_ok ?_

theorem t1sStart_ok {a0 s} (h : Kept q n f m s) : Kept q n f m (t1sStart a0 s) := by
  unfold t1sStart
  with_reducible repeat' first
    | assumption | refine dadUnicast_ok ?_ | refine setDad_ok ?_ | refine setT1s_ok ?_

theorem noteNeighbour_ok {a0 a1 s} (h : Kept q n f m s) : Kept q n f m (noteNeighbour a0 a1 s) := h

theorem execT1sDatagramReceive_ok {a0 s t} (e : execT1sDatagramReceive a0 s = .next t) (h : Kept q n f m s) : Kept q n f m t := by
  unfold execT1sDatagramReceive at e
  injection e with e
  subst e
  with_reducible repeat' first
    | assumption | refine State_bumpLive_ok ?_ | refine setSrv_ok ?_ | split

theorem execNeighbourSolicitation_ok {a0 a1 a2 s t} (e : execNeighbourSolicitation a0 a1 a2 s = .next t) (h : Kept q n f m s) : Kept q n f m t := by
  unfold execNeighbourSolicitation at e
  injection e with e
  subst e
  with_reducible repeat' first
    | assumption | refine noteNeighbour_ok ?_ | refine setT1s_ok ?_ | split

theorem execEchoRequest_ok {a0 s t} (e : execEchoRequest a0 s = .next t) (h : Kept q n f m s) : Kept q n f m t := by
  unfold execEchoRequest at e
  injection e with e
  subst e
  with_reducible repeat' first
    | assumption | refine setT1s_ok ?_ | split

theorem execDuplicateAddressDetection_ok {a0 a1 s t} (e : execDuplicateAddressDetection a0 a1 s = .next t) (h : Kept q n f m s) : Kept q n f m t := by
  unfold execDuplicateAddressDetection at e
  injection e with e
  subst e
  with_reducible repeat' first
    | assumption | refine setDad_ok ?_ | split

theorem noteWire_ok {a0 a1 s} (h : Kept q n f m s) : Kept q n f m (noteWire a0 a1 s) := h

theorem leaveRing_ok {a0 a1 s} (h : Kept q n f m s) : Kept q n f m (leaveRing a0 a1 s) := by
  unfold leaveRing
  with_reducible repeat' first
    | assumption | refine leave12_ok ?_ | refine leave13_ok ?_ | split

theorem resolveHop_ok {a0 s} (h : Kept q n f m s) : Kept q n f m (resolveHop a0 s).2 := by
  unfold resolveHop
  with_reducible repeat' first
    | assumption | refine State_draw_ok ?_ | refine noteNeighbour_ok ?_ | refine setT1s_ok ?_
    | refine Kept.ite_snd (fun _ => ?_) (fun _ => ?_)

theorem resolveHop_ok' {a0 s x t} (e : resolveHop a0 s = (x, t)) (h : Kept q n f m s) : Kept q n f m t := by
  have w := resolveHop_ok (n := n) (q := q) (f := f) (m := m) (a0 := a0) (s := s) h
  rw [e] at w; exact w

theorem t1sSend_ok {a0 s} (h : Kept q n f m s) : Kept q n f m (t1sSend a0 s) := by
  unfold t1sSend
  with_reducible repeat' first
    | assumption | refine State_bumpLive_ok ?_ | refine leaveRing_ok ?_ | refine noteWire_ok ?_ | refine resolveHop_ok ?_
    | refine stepCounter_ok ?_ | refine Kept.ite (fun _ => ?_) (fun _ => ?_) | split

theorem execT1sPowerDown_ok {s t} (e : execT1sPowerDown s = .next t) (h : Kept q n f m s) : Kept q n f m t := by
  unfold execT1sPowerDown at e
  injection e with e
  subst e
  with_reducible repeat' first
    | assumption | refine endPort_ok ?_ | refine setT1s_ok ?_ | split

/-! ### Plc -/

theorem dropRoutes_ok {a0 s} (h : Kept q n f m s) : Kept q n f m (dropRoutes a0 s) := by
  unfold dropRoutes
  with_reducible repeat' first
    | assumption | refine Kept.foldl ?_ ?_ | refine setRoute_ok ?_ | intro _

theorem forceTx_ok {s} (h : Kept q n f m s) : Kept q n f m (forceTx s) := by
  unfold forceTx
  with_reducible repeat' first
    | assumption | refine setPlc_ok ?_ | split

theorem startTx_ok {s} (h : Kept q n f m s) : Kept q n f m (startTx s) := by
  unfold startTx
  with_reducible repeat' first
    | assumption | refine forceTx_ok ?_ | split

theorem pump14_ok {s} (h : Kept q n f m s) : Kept q n f m (pump14 s) := by
  unfold pump14
  with_reducible repeat' first
    | assumption | refine setPlc_ok ?_ | refine startTx_ok ?_

theorem queue14_ok {a0 s} (h : Kept q n f m s) : Kept q n f m (queue14 a0 s) := by
  unfold queue14
  with_reducible repeat' first
    | assumption | refine State_bump_ok ?_ | refine pump14_ok ?_ | refine setPlc_ok ?_ | split

theorem sendAll_ok {a0 s} (h : Kept q n f m s) : Kept q n f m (sendAll a0 s) := by
  unfold sendAll
  with_reducible repeat' first
    | assumption | refine queue14_ok ?_

theorem sendNext_ok {a0 a1 s} (h : Kept q n f m s) : Kept q n f m (sendNext a0 a1 s) := by
  unfold sendNext
  with_reducible repeat' first
    | assumption | refine queue14_ok ?_ | split

theorem discover_ok {a0 s} (h : Kept q n f m s) : Kept q n f m (discover a0 s) := by
  unfold discover
  with_reducible repeat' first
    | assumption | refine sendAll_ok ?_ | refine setPlc_ok ?_

theorem sendTo_ok {a0 a1 s} (h : Kept q n f m s) : Kept q n f m (sendTo a0 a1 s) := by
  unfold sendTo
  with_reducible repeat' first
    | assumption | refine discover_ok ?_ | refine queue14_ok ?_ | refine setPlc_ok ?_ | refine Kept.ite (fun _ => ?_) (fun _ => ?_)
    | split

theorem sendError_ok {a0 a1 a2 s} (h : Kept q n f m s) : Kept q n f m (sendError a0 a1 a2 s) := by
  unfold sendError
  with_reducible repeat' first
    | assumption | refine queue14_ok ?_ | refine sendNext_ok ?_ | split

theorem releaseWait_ok {a0 s} (h : Kept q n f m s) : Kept q n f m (releaseWait a0 s) := by
  unfold releaseWait
  with_reducible repeat' first
    | assumption | refine Kept.foldl ?_ ?_ | refine sendTo_ok ?_ | refine setPlc_ok ?_ | intro _

theorem takeRoute_ok {a0 a1 a2 a3 s} (h : Kept q n f m s) : Kept q n f m (takeRoute a0 a1 a2 a3 s) := by
  unfold takeRoute
  with_reducible repeat' first
    | assumption | refine releaseWait_ok ?_ | refine setRoute_ok ?_ | refine Kept.ite (fun _ => ?_) (fun _ => ?_) | split

theorem takeReply_ok {a0 a1 a2 a3 s} (h : Kept q n f m s) : Kept q n f m (takeReply a0 a1 a2 a3 s) := by
  unfold takeReply
  with_reducible repeat' first
    | assumption | refine takeRoute_ok ?_ | split

theorem eraseTables_ok {s} (h : Kept q n f m s) : Kept q n f m (eraseTables s) := by
  unfold eraseTables
  with_reducible repeat' first
    | assumption | refine Kept.foldl ?_ ?_ | refine dropRoutes_ok ?_ | refine setNbr_ok ?_ | intro _

theorem leavePan_ok {a0 a1 s} (h : Kept q n f m s) : Kept q n f m (leavePan a0 a1 s) := by
  unfold leavePan
  with_reducible repeat' first
    | assumption | refine State_event_ok ?_ | refine State_putLive_ok ?_ | refine eraseTables_ok ?_ | refine setPlc_ok ?_ | split

theorem scanEnds_ok {a0 s} (h : Kept q n f m s) : Kept q n f m (scanEnds a0 s) := by
  unfold scanEnds
  with_reducible repeat' first
    | assumption | refine State_putLive_ok ?_ | refine setPlc_ok ?_

theorem execPlcJoin_ok {a0 s t} (e : execPlcJoin a0 s = .next t) (h : Kept q n f m s) : Kept q n f m t := by
  unfold execPlcJoin at e
  injection e with e
  subst e
  with_reducible repeat' first
    | assumption | refine State_bump_ok ?_ | refine State_drawBytes_ok ?_ | refine State_event_ok ?_ | refine State_putLive_ok ?_
    | refine eraseTables_ok ?_ | refine scanEnds_ok ?_ | refine setPlc_ok ?_ | split

theorem execJoinRetry_ok {s t} (e : execJoinRetry s = .next t) (h : Kept q n f m s) : Kept q n f m t := by
  unfold execJoinRetry at e
  injection e with e
  subst e
  with_reducible repeat' first
    | assumption | refine State_putLive_ok ?_ | refine setPlc_ok ?_ | split

theorem clearRoutes_ok {s} (h : Kept q n f m s) : Kept q n f m (clearRoutes s) := by
  unfold clearRoutes
  with_reducible repeat' first
    | assumption | refine Kept.foldl ?_ ?_ | refine dropRoutes_ok ?_ | refine setNbr_ok ?_ | intro _

theorem ackedAnswer_ok {a0 s} (h : Kept q n f m s) : Kept q n f m (ackedAnswer a0 s) := by
  unfold ackedAnswer
  with_reducible repeat' first
    | assumption | refine setSrv_ok ?_ | split

theorem plcSend_ok {a0 s} (h : Kept q n f m s) : Kept q n f m (plcSend a0 s) := by
  unfold plcSend
  with_reducible repeat' first
    | assumption | refine Kept.foldl ?_ ?_ | refine leaveRing_ok ?_ | refine noteWire_ok ?_ | refine sendTo_ok ?_
    | refine stepCounter_ok ?_ | split | intro _

theorem endBroadcasts_ok {a0 s} (h : Kept q n f m s) : Kept q n f m (endBroadcasts a0 s) := by
  induction a0 generalizing s with
  | zero => exact h
  | succ _ ih =>
    unfold endBroadcasts
    with_reducible repeat' first
      | refine ih ?_ | assumption | refine countTx_ok ?_ | refine pump14_ok ?_ | refine setPlc_ok ?_ | split

theorem holdRoute_ok {a0 s} (h : Kept q n f m s) : Kept q n f m (holdRoute a0 s) := by
  unfold holdRoute
  with_reducible repeat' first
    | assumption | refine setPlc_ok ?_

theorem newRoute_ok {a0 a1 s} (h : Kept q n f m s) : Kept q n f m (newRoute a0 a1 s) := by
  unfold newRoute
  with_reducible repeat' first
    | assumption | refine discover_ok ?_ | refine dropRoutes_ok ?_ | refine holdRoute_ok ?_

theorem txFailed_ok {a0 s} (h : Kept q n f m s) : Kept q n f m (txFailed a0 s) := by
  unfold txFailed
  with_reducible repeat' first
    | assumption | refine State_event_ok ?_ | refine State_putLive_ok ?_ | refine dropRoutes_ok ?_ | refine newRoute_ok ?_
    | refine sendError_ok ?_ | refine setNbr_ok ?_ | refine Kept.ite (fun _ => ?_) (fun _ => ?_) | split

theorem execPlcTxComplete_ok {a0 a1 s t} (e : execPlcTxComplete a0 a1 s = .next t) (h : Kept q n f m s) : Kept q n f m t := by
  unfold execPlcTxComplete at e
  try dsimp only at e
  injection e with e
  subst e
  with_reducible repeat' first
    | assumption | refine State_event_ok ?_ | refine State_putLive_ok ?_ | refine ackedAnswer_ok ?_ | refine countTx_ok ?_
    | refine endBroadcasts_ok ?_ | refine pump14_ok ?_ | refine sendNext_ok ?_ | refine setNbr_ok ?_ | refine setPlc_ok ?_
    | refine txFailed_ok ?_ | split

theorem execRouteWaitExpiry_ok {s t} (e : execRouteWaitExpiry s = .next t) (h : Kept q n f m s) : Kept q n f m t := by
  unfold execRouteWaitExpiry at e
  injection e with e
  subst e
  with_reducible repeat' first
    | assumption | refine State_putLive_ok ?_ | refine setPlc_ok ?_ | refine Kept.ite (fun _ => ?_) (fun _ => ?_)

theorem execToneMapRefresh_ok {a0 s t} (e : execToneMapRefresh a0 s = .next t) (h : Kept q n f m s) : Kept q n f m t := by
  unfold execToneMapRefresh at e
  injection e with e
  subst e
  with_reducible repeat' first
    | assumption | refine sendNext_ok ?_ | refine setNbr_ok ?_ | split

theorem execRouteRetire_ok {a0 s t} (e : execRouteRetire a0 s = .next t) (h : Kept q n f m s) : Kept q n f m t := by
  unfold execRouteRetire at e
  injection e with e
  subst e
  with_reducible repeat' first
    | assumption | refine State_bump_ok ?_ | refine State_event_ok ?_ | refine dropRoutes_ok ?_ | refine setNbr_ok ?_ | split

theorem hearNbr_ok {a0 s} (h : Kept q n f m s) : Kept q n f m (hearNbr a0 s) := by
  unfold hearNbr
  with_reducible repeat' first
    | assumption | refine setNbr_ok ?_ | split

theorem takeDatagram_ok {a0 s} (h : Kept q n f m s) : Kept q n f m (takeDatagram a0 s) := by
  unfold takeDatagram
  with_reducible repeat' first
    | assumption | refine State_bumpLive_ok ?_ | refine setSrv_ok ?_ | split

theorem takeFragment_ok {a0 a1 a2 a3 s} (h : Kept q n f m s) : Kept q n f m (takeFragment a0 a1 a2 a3 s) := by
  unfold takeFragment
  with_reducible repeat' first
    | assumption | refine setPlc_ok ?_ | refine takeDatagram_ok ?_ | refine Kept.ite (fun _ => ?_) (fun _ => ?_)

theorem takeRequest_ok {a0 a1 a2 a3 a4 a5 s} (h : Kept q n f m s) : Kept q n f m (takeRequest a0 a1 a2 a3 a4 a5 s) := by
  unfold takeRequest
  with_reducible repeat' first
    | assumption | refine sendAll_ok ?_ | refine sendNext_ok ?_ | refine takeRoute_ok ?_ | refine Kept.ite (fun _ => ?_) (fun _ => ?_)
    | split

theorem relayRoute_ok {a0 s} (h : Kept q n f m s) : Kept q n f m (relayRoute a0 s) := by
  unfold relayRoute
  with_reducible repeat' first
    | assumption | refine setRoute_ok ?_ | split

theorem passReply_ok {a0 a1 a2 a3 a4 s} (h : Kept q n f m s) : Kept q n f m (passReply a0 a1 a2 a3 a4 s) := by
  unfold passReply
  try dsimp only
  with_reducible repeat' first
    | assumption | refine relayRoute_ok ?_ | refine sendNext_ok ?_ | refine takeRoute_ok ?_ | split

theorem takeBroadcast_ok {a0 a1 a2 s} (h : Kept q n f m s) : Kept q n f m (takeBroadcast a0 a1 a2 s) := by
  unfold takeBroadcast
  with_reducible repeat' first
    | assumption | refine queue14_ok ?_ | refine setPlc_ok ?_ | refine Kept.ite (fun _ => ?_) (fun _ => ?_)

theorem plcTake_ok {a0 s} (h : Kept q n f m s) : Kept q n f m (plcTake a0 s) := by
  unfold plcTake
  with_reducible repeat' first
    | assumption | refine State_bump_ok ?_ | refine State_bumpLive_ok ?_ | refine State_event_ok ?_ | refine dropRoutes_ok ?_
    | refine leavePan_ok ?_ | refine passReply_ok ?_ | refine queue14_ok ?_ | refine sendAll_ok ?_ | refine sendError_ok ?_
    | refine sendNext_ok ?_ | refine sendTo_ok ?_ | refine setNbr_ok ?_ | refine setRoute_ok ?_ | refine takeBroadcast_ok ?_
    | refine takeDatagram_ok ?_ | refine takeFragment_ok ?_ | refine takeReply_ok ?_ | refine takeRequest_ok ?_
    | refine Kept.ite (fun _ => ?_) (fun _ => ?_) | split

theorem plcFrame_ok {a0 s} (h : Kept q n f m s) : Kept q n f m (plcFrame a0 s) := by
  unfold plcFrame
  with_reducible repeat' first
    | assumption | refine State_bumpLive_ok ?_ | refine hearNbr_ok ?_ | refine plcTake_ok ?_ | split

theorem drain15_ok {a0 s} (h : Kept q n f m s) : Kept q n f m (drain15 a0 s) := by
  induction a0 generalizing s with
  | zero => exact h
  | succ _ ih =>
    unfold drain15
    with_reducible repeat' first
      | refine ih ?_ | assumption | refine plcFrame_ok ?_ | refine setPlc_ok ?_ | split

theorem pump15_ok {s} (h : Kept q n f m s) : Kept q n f m (pump15 s) := by
  unfold pump15
  with_reducible repeat' first
    | assumption | refine drain15_ok ?_ | split

theorem execPlcFrameReceive_ok {a0 s t} (e : execPlcFrameReceive a0 s = .next t) (h : Kept q n f m s) : Kept q n f m t := by
  unfold execPlcFrameReceive at e
  injection e with e
  subst e
  with_reducible repeat' first
    | assumption | refine State_bump_ok ?_ | refine pump15_ok ?_ | refine setPlc_ok ?_ | split

theorem execRepeaterOfferChange_ok {s t} (e : execRepeaterOfferChange s = .next t) (h : Kept q n f m s) : Kept q n f m t := by
  unfold execRepeaterOfferChange at e
  injection e with e
  subst e
  with_reducible repeat' first
    | assumption | refine State_event_ok ?_ | refine State_putLive_ok ?_ | refine setPlc_ok ?_ | split

theorem execRouteHoldExpiry_ok {s t} (e : execRouteHoldExpiry s = .next t) (h : Kept q n f m s) : Kept q n f m t := by
  unfold execRouteHoldExpiry at e
  injection e with e
  subst e
  with_reducible repeat' first
    | assumption | refine setPlc_ok ?_ | split

theorem annMay_ok {s} (h : Kept q n f m s) : Kept q n f m (annMay s) := by
  unfold annMay
  with_reducible repeat' first
    | assumption | refine setPlc_ok ?_

theorem strangerEnd_ok {a0 s} (h : Kept q n f m s) : Kept q n f m (strangerEnd a0 s) := by
  unfold strangerEnd
  with_reducible repeat' first
    | assumption | refine State_event_ok ?_ | refine State_putLive_ok ?_ | refine annMay_ok ?_ | refine setPlc_ok ?_
    | refine startTx_ok ?_ | split

theorem execStrangerBlock_ok {a0 s t} (e : execStrangerBlock a0 s = .next t) (h : Kept q n f m s) : Kept q n f m t := by
  unfold execStrangerBlock at e
  injection e with e
  subst e
  with_reducible repeat' first
    | assumption | refine setPlc_ok ?_ | refine strangerEnd_ok ?_ | refine Kept.ite (fun _ => ?_) (fun _ => ?_)

theorem execStrangerForced_ok {s t} (e : execStrangerForced s = .next t) (h : Kept q n f m s) : Kept q n f m t := by
  unfold execStrangerForced at e
  injection e with e
  subst e
  with_reducible repeat' first
    | assumption | refine State_bumpLive_ok ?_ | refine annMay_ok ?_ | refine forceTx_ok ?_ | refine setPlc_ok ?_
    | refine Kept.ite (fun _ => ?_) (fun _ => ?_)

/-! ### PortState -/

theorem portCut_ok {a0 s} (h : Kept q n f m s) : Kept q n f m (portCut a0 s) := by
  unfold portCut
  with_reducible repeat' first
    | assumption | refine Kept.foldl ?_ ?_ | refine State_putLive_ok ?_ | refine dropHolders_ok ?_ | refine endTxns_ok ?_
    | refine failTag_ok ?_ | refine setSrv_ok ?_ | intro _

theorem t1sStop_ok {a0 s} (h : Kept q n f m s) : Kept q n f m (t1sStop a0 s) := by
  unfold t1sStop
  with_reducible repeat' first
    | assumption | refine portCut_ok ?_ | refine setT1s_ok ?_

theorem plcStop_ok {a0 s} (h : Kept q n f m s) : Kept q n f m (plcStop a0 s) := by
  unfold plcStop
  with_reducible repeat' first
    | assumption | refine endPort_ok ?_ | refine leavePan_ok ?_ | refine portCut_ok ?_ | refine strangerEnd_ok ?_ | refine tbOff_ok ?_
    | refine Kept.ite (fun _ => ?_) (fun _ => ?_)

theorem tbStart__ok {a0 s} (h : Kept q n f m s) : Kept q n f m (tbStart_ a0 s) := by
  unfold tbStart_
  with_reducible repeat' first
    | assumption | refine tbOff_ok ?_ | refine tbSearch_ok ?_ | split

theorem plcStart_ok {a0 s} (h : Kept q n f m s) : Kept q n f m (plcStart a0 s) := by
  unfold plcStart
  with_reducible repeat' first
    | assumption | refine State_putLive_ok ?_ | refine leavePan_ok ?_ | refine setPlc_ok ?_ | refine setTb_ok ?_ | refine tbStart__ok ?_

theorem selfTestFailed_ok {a0 s} (h : Kept q n f m s) : Kept q n f m (selfTestFailed a0 s) := by
  unfold selfTestFailed
  with_reducible repeat' first
    | assumption | refine plcStop_ok ?_ | refine portSet_ok ?_ | refine setPortUnit_ok ?_ | refine t1sStop_ok ?_
    | refine Kept.ite (fun _ => ?_) (fun _ => ?_)

theorem execPortWatchdog_ok {a0 a1 s t} (e : execPortWatchdog a0 a1 s = .next t) (h : Kept q n f m s) : Kept q n f m t := by
  unfold execPortWatchdog at e
  injection e with e
  subst e
  with_reducible repeat' first
    | assumption | refine portSet_ok ?_ | refine selfTestFailed_ok ?_ | refine setPortUnit_ok ?_ | split

/-! ### LastGasp -/

theorem supBit_ok {a0 a1 s} (h : Kept q n f m s) : Kept q n f m (supBit a0 a1 s) := by
  unfold supBit
  with_reducible repeat' first
    | assumption | refine State_putV_ok ?_

theorem setRtcValid_ok {a0 s} (h : Kept q n f m s) : Kept q n f m (setRtcValid a0 s) := by
  unfold setRtcValid
  with_reducible repeat' first
    | assumption | refine State_putV_ok ?_ | refine supBit_ok ?_

theorem flushLive_ok {s} (h : Kept q n f m s) : Kept q n f m (flushLive s) := by
  unfold flushLive
  with_reducible repeat' first
    | assumption | refine State_applyDue_ok ?_ | refine State_endFrame_ok ?_

theorem gaspFrame_ok {a0 a1 a2 a3 s} (h : Kept q n f m s) : Kept q n f m (gaspFrame a0 a1 a2 a3 s) := by
  unfold gaspFrame
  with_reducible repeat' first
    | assumption | refine demandAdd_ok ?_ | refine enterAll_ok ?_ | refine gaspKeys_ok ?_

theorem gaspCct_ok {a0 a1 s} (h : Kept q n f m s) : Kept q n f m (gaspCct a0 a1 s) := by
  unfold gaspCct
  with_reducible repeat' first
    | assumption | refine Kept.foldl ?_ ?_ | refine gaspFrame_ok ?_ | refine setFlag_ok ?_ | split | intro _

theorem gaspBase_ok {a0 a1 s} (h : Kept q n f m s) : Kept q n f m (gaspBase a0 a1 s) := by
  unfold gaspBase
  with_reducible repeat' first
    | assumption | refine putTotal_ok ?_ | refine Kept.ite (fun _ => ?_) (fun _ => ?_) | split

theorem gaspBases_ok {a0 s} (h : Kept q n f m s) : Kept q n f m (gaspBases a0 s) := by
  unfold gaspBases
  with_reducible repeat' first
    | assumption | refine Kept.foldl ?_ ?_ | refine gaspBase_ok ?_ | intro _

theorem endDetectors_ok {s} (h : Kept q n f m s) : Kept q n f m (endDetectors s) := by
  unfold endDetectors
  with_reducible repeat' first
    | assumption | refine Kept.foldl ?_ ?_ | refine groupEnd_ok ?_ | refine niEnd_ok ?_ | refine ocEnd_ok ?_ | refine plEnd_ok ?_ | split
    | intro _

theorem numberEvents_ok {s} (h : Kept q n f m s) : Kept q n f m (numberEvents s) := by
  unfold numberEvents
  with_reducible repeat' first
    | (simp only [Kept.mk_eq]; refine Kept.ring5Nil ?_) | assumption | refine Kept.foldl ?_ ?_ | refine numberEvent_ok ?_ | intro _

theorem dropUnlogged_ok {s} (h : Kept q n f m s) : Kept q n f m (dropUnlogged s) := by
  unfold dropUnlogged
  with_reducible repeat' first
    | assumption | refine setTk_ok ?_ | refine showLogs_ok ?_

theorem abandonStores_ok {a0 s} (h : Kept q n f m s) : Kept q n f m (abandonStores a0 s) := by
  unfold abandonStores
  with_reducible repeat' first
    | (simp only [Kept.mk_eq]; refine Kept.of ?_) | (simp only [Kept.mk_eq]; refine Kept.sealsSet ?_) | assumption | split

theorem completeOne_ok {s} (h : Kept q n f m s) : Kept q n f m (completeOne s) := by
  unfold completeOne
  with_reducible repeat' first
    | (simp only [Kept.mk_eq]; refine Kept.of ?_) | assumption | refine storeSealed_ok ?_ | refine writeFrame_ok ?_ | split

theorem powerCut_ok {s} (h : Kept q n f m s) : Kept q n f m (powerCut s) := by
  unfold powerCut
  exact setTk_ok ⟨h.dict, h.pages, h.seals, Nat.zero_le _, h.ring7, (by dsimp only; omega), h.pending, h.draws, h.fn, h.mode⟩

theorem keepClock_ok {s} (h : Kept q n f m s) : Kept q n f m (keepClock s) := by
  unfold keepClock
  with_reducible repeat' first
    | (simp only [Kept.mk_eq]; refine Kept.of ?_) | assumption

theorem loseEvents_ok {s} (h : Kept q n f m s) : Kept q n f m (loseEvents s) := by
  unfold loseEvents
  exact State_bumpBy_ok ⟨h.dict, h.pages, h.seals, Nat.zero_le _, h.ring7, h.period, h.pending, h.draws, h.fn, h.mode⟩

theorem setJournal_ok {a0 s} (h : Kept q n f m s) : Kept q n f m (setJournal a0 s) := by
  unfold setJournal
  with_reducible repeat' first
    | (simp only [Kept.mk_eq]; refine Kept.of ?_) | assumption

theorem startGasp_ok {a0 a1 a2 s} (h : Kept q n f m s) : Kept q n f .lastGasp (startGasp a0 a1 a2 s) := by
  have h1 : Kept q n f m (abandonStores a0 (keepClock (((setCause 6 (setSpi (fun p => { p with pfwN := true }) s)).bump K.supPfwCount).put
      K.supPfwCause (b2n a1 + 2 * b2n a2)))) :=
    abandonStores_ok (keepClock_ok (State_put_ok (State_bump_ok (setCause_ok (setSpi_ok h)))))
  unfold startGasp
  exact setJournal_ok (State_setMode_ok (powerCut_ok (refreshCut_ok (dropUnlogged_ok (flushLive_ok (completeOne_ok (gaspBases_ok (Kept.ite
    (fun _ => numberEvents_ok (endDetectors_ok (Kept.foldl (fun _ _ k => gaspCct_ok k) h1))) (fun _ => loseEvents_ok h1)))))))))

theorem execPowerFailWarning_ok {a0 a1 a2 s t} (e : execPowerFailWarning a0 a1 a2 s = .next t) (h : Kept q n f m s) :
    Kept q n f (if m = .run ∨ m = .recovery then .lastGasp else m) t := by
  unfold execPowerFailWarning at e
  injection e with e
  subst e
  rw [h.mode]
  split
  · exact startGasp_ok h
  · exact h

theorem enterGecko_ok {s} (h : Kept q n f m s) : Kept q n f m (enterGecko s) := by
  unfold enterGecko
  with_reducible repeat' first
    | (simp only [Kept.mk_eq]; refine Kept.of ?_) | assumption | refine Kept.foldl ?_ ?_ | refine State_put_ok ?_ | split | intro _

theorem enterOff_ok {s} (h : Kept q n f m s) : Kept q n f m (enterOff s) := by
  unfold enterOff
  with_reducible repeat' first
    | (simp only [Kept.mk_eq]; refine Kept.of ?_) | assumption | refine setRtcValid_ok ?_

theorem enterMode_ok {a0 s} (h : Kept q n f m s) : Kept q n f a0 (enterMode a0 s) := by
  have h1 := State_setMode_ok (a1 := a0) h
  unfold enterMode
  cases a0
  · exact enterOff_ok h1
  · exact h1
  · exact h1
  · exact enterGecko_ok h1
  · exact h1
  · exact h1

theorem writeStirrup_ok {a0 a1 s} (h : Kept q n f m s) : Kept q n f m (writeStirrup a0 a1 s) := by
  unfold writeStirrup
  with_reducible repeat' first
    | (simp only [Kept.mk_eq]; refine Kept.of ?_) | assumption

theorem gaspEnd_ok {a0 a1 a2 a3 s} (h : Kept q n f m s) : Kept q n f m (gaspEnd a0 a1 a2 a3 s) := by
  unfold gaspEnd
  with_reducible repeat' first
    | (simp only [Kept.mk_eq]; refine Kept.of ?_) | assumption | refine State_put_ok ?_ | refine writeStirrup_ok ?_ | split

theorem execLastGaspComplete_ok {a0 a1 s t} (e : execLastGaspComplete a0 a1 s = .next t) (h : Kept q n f m s) :
    ∃ m', Kept q n f m' t := by
  unfold execLastGaspComplete at e
  injection e with e
  subst e
  split
  · split
    · exact ⟨m, h⟩
    · split
      · exact ⟨m, gaspEnd_ok (State_bumpBy_ok h)⟩
      · exact ⟨_, enterMode_ok (gaspEnd_ok (State_bumpBy_ok h))⟩
  · exact ⟨m, h⟩

theorem execPfwNRelease_ok {s t} (e : execPfwNRelease s = .next t) (h : Kept q n f m s) : Kept q n f m t := by
  unfold execPfwNRelease at e
  injection e with e
  subst e
  with_reducible repeat' first
    | assumption | refine setSpi_ok ?_ | split

end Sys2Proof.Machine
end

