-- ==== Sys2Proof/Laws/KeptHandover.lean ====
section
/-! SUPPORT. What the operations of these files keep: Handover, Reinstate, PowerUp, BillingResume, Supply. -/

namespace Sys2Proof.Machine

variable {q : List Instr} {n f : Nat} {m : Mode}

/-! ### Handover -/

theorem showImage_ok {a0 a1 s} (h : Kept q n f m s) : Kept q n f m (showImage a0 a1 s) := by
  unfold showImage
  with_reducible repeat' first
    | assumption | refine State_putDue_ok ?_

theorem retryTag_ok {a0 a1 s} (h : Kept q n f m s) : Kept q n f m (retryTag a0 a1 s) := by
  unfold retryTag
  with_reducible repeat' first
    | assumption | refine failTag_ok ?_ | refine finishTag_ok ?_ | split

theorem restartCore_ok {s} (h : Kept q n f m s) : Kept q n f m (restartCore s) := by
  unfold restartCore
  with_reducible repeat' first
    | (simp only [Kept.mk_eq]; refine Kept.of ?_) | assumption | refine Kept.foldl ?_ ?_ | refine endTxns_ok ?_ | refine retryTag_ok ?_
    | refine setSrv_ok ?_ | intro _

theorem execHandoverPrepared_ok {a0 s t} (e : execHandoverPrepared a0 s = .next t) (h : Kept q n f m s) : Kept q n f m t := by
  unfold execHandoverPrepared at e
  injection e with e
  subst e
  with_reducible repeat' first
    | assumption | refine cancelHand_ok ?_ | refine noteReject_ok ?_ | refine setHand_ok ?_ | split

theorem execHandoverQuiesce_ok {s t} (e : execHandoverQuiesce s = .next t) (h : Kept q n f m s) : Kept q n f m t := by
  unfold execHandoverQuiesce at e
  injection e with e
  subst e
  with_reducible repeat' first
    | assumption | refine setHand_ok ?_ | split

theorem execHandoverAtB_ok {s t} (e : execHandoverAtB s = .next t) (h : Kept q n f m s) : Kept q n f m t := by
  unfold execHandoverAtB at e
  injection e with e
  subst e
  with_reducible repeat' first
    | assumption | refine State_put_ok ?_ | refine State_putLive_ok ?_ | refine restartCore_ok ?_ | refine setHand_ok ?_ | split

theorem execHandoverBankSwitch_ok {s t} (e : execHandoverBankSwitch s = .next t) (h : Kept q n f m s) : Kept q n f m t := by
  unfold execHandoverBankSwitch at e
  injection e with e
  subst e
  with_reducible repeat' first
    | assumption | refine setHand_ok ?_ | refine showImage_ok ?_ | split

theorem clearHand_ok {s} (h : Kept q n f m s) : Kept q n f m (clearHand s) := by
  unfold clearHand
  with_reducible repeat' first
    | assumption | refine State_putLive_ok ?_ | refine endLease_ok ?_ | refine setHand_ok ?_

theorem advanceSvn_ok {a0 s} (h : Kept q n f m s) : Kept q n f m (advanceSvn a0 s) := by
  unfold advanceSvn
  with_reducible repeat' first
    | assumption | refine State_event_ok ?_ | refine State_put_ok ?_ | refine Kept.ite (fun _ => ?_) (fun _ => ?_)

theorem execHealthCheckPass_ok {s t} (e : execHealthCheckPass s = .next t) (h : Kept q n f m s) : Kept q n f m t := by
  unfold execHealthCheckPass at e
  injection e with e
  subst e
  with_reducible repeat' first
    | assumption | refine State_bump_ok ?_ | refine State_event_ok ?_ | refine State_put_ok ?_ | refine advanceSvn_ok ?_
    | refine clearHand_ok ?_ | split

theorem execImageRevert_ok {s t} (e : execImageRevert s = .next t) (h : Kept q n f m s) : Kept q n f m t := by
  unfold execImageRevert at e
  injection e with e
  subst e
  with_reducible repeat' first
    | assumption | refine State_bump_ok ?_ | refine State_event_ok ?_ | refine State_put_ok ?_ | refine clearHand_ok ?_
    | refine restartCore_ok ?_ | refine showImage_ok ?_ | split

/-! ### Reinstate -/

theorem execReinstate_ok {a0 s t} (e : execReinstate a0 s = .next t) (h : Kept q n f m s) : Kept q n f m t := by
  unfold execReinstate at e
  injection e with e
  subst e
  with_reducible repeat' first
    | assumption | refine answer_ok ?_ | refine postCommit_ok ?_ | refine runMethod_ok ?_ ?_ | refine waitTurn_ok ?_
    | refine Kept.ite (fun _ => ?_) (fun _ => ?_) | intro _

theorem unitBack_ok {a0 a1 a2 s} (h : Kept q n f m s) : Kept q n f m (unitBack a0 a1 a2 s) := by
  unfold unitBack
  with_reducible repeat' first
    | assumption | refine State_put_ok ?_

theorem blankLane_ok {a0 s} (h : Kept q n f m s) : Kept q n f m (blankLane a0 s) := by
  unfold blankLane
  with_reducible repeat' first
    | assumption | refine Kept.foldl ?_ ?_ | refine State_putLive_ok ?_ | refine setEst_ok ?_ | refine setLane_ok ?_ | intro _

theorem tableBack_ok {a0 a1 s} (h : Kept q n f m s) : Kept q n f m (tableBack a0 a1 s) := by
  unfold tableBack
  with_reducible repeat' first
    | assumption | refine State_put_ok ?_ | refine State_putLive_ok ?_

theorem partnerBack_ok {a0 a1 s} (h : Kept q n f m s) : Kept q n f m (partnerBack a0 a1 s) := by
  unfold partnerBack
  with_reducible repeat' first
    | assumption | refine setLane_ok ?_ | refine tableBack_ok ?_ | refine unitSet_ok ?_ | refine Kept.ite (fun _ => ?_) (fun _ => ?_)

theorem laneBack_ok {a0 a1 s} (h : Kept q n f m s) : Kept q n f m (laneBack a0 a1 s) := by
  unfold laneBack
  with_reducible repeat' first
    | (simp only [Kept.mk_eq]; refine Kept.of ?_) | assumption | refine addSpan_ok ?_ | refine blankLane_ok ?_ | refine lowRange_ok ?_
    | refine partnerBack_ok ?_ | refine recredit0_ok ?_ | refine restartStreams_ok ?_ | refine tableBack_ok ?_ | refine unitBack_ok ?_

theorem frameBack_ok {a0 a1 s} (h : Kept q n f m s) : Kept q n f m (frameBack a0 a1 s) := by
  unfold frameBack
  with_reducible repeat' first
    | (simp only [Kept.mk_eq]; refine Kept.of ?_) | assumption | refine State_draw_ok ?_ | refine State_put_ok ?_
    | refine Kept.ite (fun _ => ?_) (fun _ => ?_)

theorem reinstateNow_ok {a0 a1 a2 s} (h : Kept q n f m s) : Kept q n f m (reinstateNow a0 a1 a2 s) := by
  unfold reinstateNow
  with_reducible repeat' first
    | assumption | refine State_event_ok ?_ | refine State_put_ok ?_ | refine State_putV_ok ?_ | refine frameBack_ok ?_
    | refine laneBack_ok ?_ | refine plcStart_ok ?_ | refine setNbr_ok ?_ | refine setPortUnit_ok ?_ | refine setSec_ok ?_
    | refine t1sStart_ok ?_ | refine tkPush_ok ?_ | refine unitBack_ok ?_ | refine Kept.ite (fun _ => ?_) (fun _ => ?_) | split

/-! ### PowerUp -/

theorem loadVal_ok {a0 s} (h : Kept q n f m s) : Kept q n f m (loadVal a0 s) := by
  unfold loadVal
  with_reducible repeat' first
    | assumption | refine State_put_ok ?_ | split

theorem forgetPage_ok {a0 s} (h : Kept q n f m s) : Kept q n f m (forgetPage a0 s) := by
  unfold forgetPage
  with_reducible repeat' first
    | (simp only [Kept.mk_eq]; refine Kept.dictFilter ?_) | assumption

theorem recallState_ok {a0 a1 a2 a3 s} (h : Kept q n f m s) : Kept q n f m (recallState a0 a1 a2 a3 s) := by
  unfold recallState
  with_reducible repeat' first
    | (simp only [Kept.mk_eq]; refine Kept.pagesMod ?_) | assumption

theorem restoreEvent_ok {a0 a1 s} (h : Kept q n f m s) : Kept q n f m (restoreEvent a0 a1 s) := by
  unfold restoreEvent
  with_reducible repeat' first
    | assumption | refine State_event_ok ?_ | split

theorem recallBg_ok {a0 a1 a2 s} (h : Kept q n f m s) : Kept q n f m (recallBg a0 a1 a2 s) := by
  unfold recallBg
  with_reducible repeat' first
    | (simp only [Kept.mk_eq]; refine Kept.of ?_) | assumption | split

theorem recallPage_ok {a0 s} (h : Kept q n f m s) : Kept q n f m (recallPage a0 s) := by
  unfold recallPage
  with_reducible repeat' first
    | assumption | refine Kept.foldl ?_ ?_ | refine forgetPage_ok ?_ | refine loadVal_ok ?_ | refine recallBg_ok ?_
    | refine recallState_ok ?_ | refine restoreEvent_ok ?_ | split | intro _

theorem storeOwn_ok {s} (h : Kept q n f m s) : Kept q n f m (storeOwn s) := by
  unfold storeOwn
  with_reducible repeat' first
    | assumption | refine Kept.foldl ?_ ?_ | refine modPage_ok ?_ | refine writeFrame_ok ?_ | intro _

theorem tearFrames_ok {a0 s} (h : Kept q n f m s) : Kept q n f m (tearFrames a0 s) := by
  unfold tearFrames
  with_reducible repeat' first
    | (simp only [Kept.mk_eq]; refine Kept.sealsMod ?_) | assumption | refine Kept.foldl ?_ ?_ | intro _

theorem dropVolatile_ok {s} (h : Kept q n f m s) : Kept q n f m (dropVolatile s) := by
  unfold dropVolatile
  with_reducible repeat' first
    | (simp only [Kept.mk_eq]; refine Kept.dictFilter ?_) | assumption

theorem recallPages_ok {a0 s} (h : Kept q n f m s) : Kept q n f m (recallPages a0 s) := by
  unfold recallPages
  with_reducible repeat' first
    | assumption | refine Kept.foldl ?_ ?_ | refine State_event_ok ?_ | refine State_put_ok ?_ | refine judgeLegal_ok ?_
    | refine judgeTwins_ok ?_ | refine recallPage_ok ?_ | refine showPage_ok ?_ | refine tearFrames_ok ?_ | split | intro _

theorem setTotal_ok {a0 a1 s} (h : Kept q n f m s) : Kept q n f m (setTotal a0 a1 s) := by
  unfold setTotal
  with_reducible repeat' first
    | assumption | refine State_put_ok ?_

theorem replayBase_ok {a0 a1 s} (h : Kept q n f m s) : Kept q n f m (replayBase a0 a1 s) := by
  unfold replayBase
  with_reducible repeat' first
    | assumption | refine setTotal_ok ?_ | split

theorem markBack_ok {a0 a1 s} (h : Kept q n f m s) : Kept q n f m (markBack a0 a1 s) := by
  unfold markBack
  with_reducible repeat' first
    | assumption | refine State_put_ok ?_

theorem markRestored_ok {a0 s} (h : Kept q n f m s) : Kept q n f m (markRestored a0 s) := by
  unfold markRestored
  with_reducible repeat' first
    | assumption | refine Kept.foldl ?_ ?_ | refine State_put_ok ?_ | split | intro _

theorem replayBaseline_ok {a0 s} (h : Kept q n f m s) : Kept q n f m (replayBaseline a0 s) := by
  unfold replayBaseline
  with_reducible repeat' first
    | assumption | refine Kept.foldl ?_ ?_ | refine markBack_ok ?_ | refine markRestored_ok ?_ | refine replayBase_ok ?_ | split | intro _

theorem startTime_ok {a0 a1 s} (h : Kept q n f m s) : Kept q n f m (startTime a0 a1 s) := by
  unfold startTime
  with_reducible repeat' first
    | assumption | refine State_put_ok ?_ | refine noteTime_ok ?_ | split

theorem setRtc_ok {a0 a1 s} (h : Kept q n f m s) : Kept q n f m (setRtc a0 a1 s) := by
  unfold setRtc
  with_reducible repeat' first
    | (simp only [Kept.mk_eq]; refine Kept.of ?_) | assumption

theorem decideTime_ok {s} (h : Kept q n f m s) : Kept q n (startFn s) m (decideTime s) := by
  unfold decideTime
  extract_lets j pfw a x y
  have hy : Kept q n a m y := startTime_ok (State_bump_ok (State_put_ok (State_put_ok (setRtc_ok (State_setFn_ok h)))))
  exact Kept.ite (fun _ => startTime_ok (State_put_ok (setRtc_ok (State_setFn_ok h))))
    (fun _ => legacyEvent_ok (setCause_ok (State_event_ok hy)))

theorem startLane_ok {a0 a1 s} (h : Kept q n f m s) : Kept q n f m (startLane a0 a1 s) := by
  unfold startLane
  with_reducible repeat' first
    | assumption | refine State_put_ok ?_ | refine setLane_ok ?_ | refine unitSet_ok ?_ | refine Kept.ite (fun _ => ?_) (fun _ => ?_)

theorem settleCoef_ok {a0 a1 s} (h : Kept q n f m s) : Kept q n f m (settleCoef a0 a1 s) := by
  unfold settleCoef
  with_reducible repeat' first
    | assumption | refine State_put_ok ?_

theorem startFront_ok {a0 s} (h : Kept q n f m s) : Kept q n f m (startFront a0 s) := by
  unfold startFront
  with_reducible repeat' first
    | (simp only [Kept.mk_eq]; refine Kept.of ?_) | (simp only [Kept.mk_eq]; refine Kept.periodSet (by omega) ?_) | assumption
    | refine Kept.foldl ?_ ?_ | refine State_put_ok ?_ | refine recredit0_ok ?_ | refine restartStreams_ok ?_ | refine settleCoef_ok ?_
    | refine startLane_ok ?_ | intro _

theorem dropTrial_ok {s} (h : Kept q n f m s) : Kept q n f m (dropTrial s) := by
  unfold dropTrial
  try dsimp only
  with_reducible repeat' first
    | (simp only [Kept.mk_eq]; refine Kept.of ?_) | assumption | refine State_bump_ok ?_ | refine State_event_ok ?_
    | refine State_put_ok ?_ | split

theorem pickSlot_ok {a0 a1 s} (h : Kept q n f m s) : Kept q n f m (pickSlot a0 a1 s) := by
  unfold pickSlot
  with_reducible repeat' first
    | (simp only [Kept.mk_eq]; refine Kept.of ?_) | assumption | refine State_bump_ok ?_ | refine State_event_ok ?_
    | refine State_put_ok ?_ | split

theorem opRevert_ok {a0 s} (h : Kept q n f m s) : Kept q n f m (opRevert a0 s) := by
  unfold opRevert
  with_reducible repeat' first
    | assumption | refine State_put_ok ?_ | refine setHand_ok ?_ | split

theorem boot_ok {a0 s} (h : Kept q n f m s) : ∃ m', (m' = .run ∨ m' = .recovery) ∧ Kept q n f m' (boot a0 s) := by
  unfold boot
  extract_lets b s1
  have h1 : Kept q n f m s1 := pickSlot_ok h
  clear_value b s1
  split
  · exact ⟨.run, .inl rfl, opRevert_ok (showImage_ok (State_setMode_ok h1))⟩
  · exact ⟨.recovery, .inr rfl, State_event_ok (State_bump_ok (State_setMode_ok h1))⟩

theorem startPorts_ok {a0 s} (h : Kept q n f m s) : Kept q n f m (startPorts a0 s) := by
  unfold startPorts
  with_reducible repeat' first
    | (simp only [Kept.mk_eq]; refine Kept.of ?_) | assumption | refine plcStart_ok ?_ | refine t1sStart_ok ?_ | refine tbOff_ok ?_
    | refine Kept.ite (fun _ => ?_) (fun _ => ?_)

theorem cutKeys_ok {a0 s} (h : Kept q n f m s) : Kept q n f m (cutKeys a0 s) := by
  unfold cutKeys
  with_reducible repeat' first
    | assumption | refine Kept.foldl ?_ ?_ | refine State_put_ok ?_ | split | intro _

theorem damagedSlots_ok {s} (h : Kept q n f m s) : Kept q n f m (damagedSlots s) := by
  unfold damagedSlots
  with_reducible repeat' first
    | assumption | refine Kept.foldl ?_ ?_ | refine State_put_ok ?_ | refine Kept.ite (fun _ => ?_) (fun _ => ?_) | intro _

theorem carryCommits_ok {a0 s} (h : Kept q n f m s) : Kept q n f m (carryCommits a0 s) := by
  unfold carryCommits
  with_reducible repeat' first
    | (simp only [Kept.mk_eq]; refine Kept.of ?_) | assumption

theorem geckoExit_ok {a0 s} (h : Kept q n f m s) : Kept q n f m (geckoExit a0 s) := by
  unfold geckoExit
  with_reducible repeat' first
    | (simp only [Kept.mk_eq]; refine Kept.of ?_) | assumption | refine State_put_ok ?_

theorem startBill_ok {a0 s} (h : Kept q n f m s) : Kept q n f m (startBill a0 s) :=
  ⟨h.dict, h.pages, h.seals, h.ring5, Nat.zero_le _, h.period, h.pending, h.draws, h.fn, h.mode⟩

theorem freshStart_ok {s} (h : Kept q n f m s) : Kept q n f m (freshStart s) := by
  unfold freshStart
  with_reducible repeat' first
    | (simp only [Kept.mk_eq]; refine Kept.of ?_) | assumption

theorem showLoads_ok {a0 s} (h : Kept q n f m s) : Kept q n f m (showLoads a0 s) := by
  unfold showLoads
  with_reducible repeat' first
    | assumption | refine State_putLive_ok ?_

theorem noteStart_ok {a0 s} (h : Kept q n f m s) : Kept q n f m (noteStart a0 s) := by
  unfold noteStart
  with_reducible repeat' first
    | (simp only [Kept.mk_eq]; refine Kept.of ?_) | assumption

theorem startBand_ok {a0 s} (h : Kept q n f m s) : Kept q n f m (startBand a0 s) := by
  unfold startBand
  with_reducible repeat' first
    | assumption | refine State_putLive_ok ?_

theorem startRun_ok {a0 s} (h : Kept q n f m s) : ∃ m', (m' = .run ∨ m' = .recovery) ∧ Kept q n f m' (startRun a0 s) := by
  obtain ⟨m', c, k⟩ := boot_ok (a0 := a0) (startBill_ok (a0 := s.fn) (carryCommits_ok (a0 := s.fn) h))
  refine ⟨m', c, ?_⟩
  unfold startRun
  exact noteStart_ok (startBand_ok (State_putLive_ok (showManifest_ok (showManifest_ok (showLoads_ok (startPorts_ok (startFront_ok (damagedSlots_ok k))))))))

theorem takeLate_ok {s} (h : Kept q n f m s) : Kept q n f m (takeLate s) := by
  unfold takeLate
  with_reducible repeat' first
    | (simp only [Kept.mk_eq]; refine Kept.of ?_) | assumption

theorem upWaits_ok {a0 s} (h : Kept q n f m s) : Kept q n f m (upWaits a0 s) := by
  unfold upWaits
  with_reducible repeat' first
    | (simp only [Kept.mk_eq]; refine Kept.of ?_) | assumption

theorem eraseOut_ok {s} (h : Kept q n f m s) : Kept q n f m (eraseOut s) := by
  unfold eraseOut
  with_reducible repeat' first
    | assumption | refine Kept.foldl ?_ ?_ | refine tkPush_ok ?_ | intro _

theorem coldStart_ok {a0 s} (h : Kept q n f m s) : ∃ f' m', (m' = .run ∨ m' = .recovery) ∧ Kept q n f' m' (coldStart a0 s) := by
  unfold coldStart
  extract_lets s1 s2 s3
  have h1 : Kept q n f m s1 := setRtcValid_ok (dropVolatile_ok (freshStart_ok (takeLate_ok (storeOwn_ok h))))
  have h2 := decideTime_ok (recallPages_ok (a0 := a0.badFrames) (State_setFn_ok (a1 := startFn s1) h1))
  have h3 := dropTrial_ok (cutKeys_ok (a0 := a0.keysCut) (State_put_ok (k := K.supStartCause) (v := 0) (State_bump_ok (a1 := K.supStarts) (replayBaseline_ok (a0 := s2.fn) h2))))
  obtain ⟨m', c, k⟩ := startRun_ok (a0 := a0.recover) h3
  exact ⟨_, m', c, eraseOut_ok (upWaits_ok k)⟩

theorem execPowerGood_ok {a0 s t} (e : execPowerGood a0 s = .next t) (h : Kept q n f m s) : ∃ f' m', Kept q n f' m' t := by
  unfold execPowerGood at e
  injection e with e
  subst e
  split
  · obtain ⟨f', m', -, k⟩ := coldStart_ok (a0 := a0) (s := if s.mode = .gecko then geckoExit 0 s else s)
      (Kept.ite (fun _ => geckoExit_ok h) (fun _ => h))
    exact ⟨f', m', k⟩
  · exact ⟨f, m, h⟩

/-! ### BillingResume -/

theorem recallCct_ok {a0 a1 s} (h : Kept q n f m s) : Kept q n f m (recallCct a0 a1 s) := by
  unfold recallCct
  with_reducible repeat' first
    | assumption | refine setC_ok ?_

theorem replaySlot_ok {a0 a1 a2 a3 a4 a5 s} (h : Kept q n f m s) : Kept q n f m (replaySlot a0 a1 a2 a3 a4 a5 s).2 := by
  unfold replaySlot
  with_reducible repeat' first
    | assumption | refine Kept.foldl ?_ ?_ | refine regAdd_ok ?_ | refine setFlag_ok ?_ | refine Kept.ite (fun _ => ?_) (fun _ => ?_)
    | split | intro _

theorem replaySlot_ok' {a0 a1 a2 a3 a4 a5 s x t} (e : replaySlot a0 a1 a2 a3 a4 a5 s = (x, t)) (h : Kept q n f m s) : Kept q n f m t := by
  have w := replaySlot_ok (n := n) (q := q) (f := f) (m := m) (a0 := a0) (a1 := a1) (a2 := a2) (a3 := a3) (a4 := a4) (a5 := a5) (s := s) h
  rw [e] at w; exact w

theorem replayCct_ok {a0 a1 a2 s} (h : Kept q n f m s) : Kept q n f m (replayCct a0 a1 a2 s) := by
  unfold replayCct
  with_reducible repeat' first
    | assumption | refine replaySlot_ok ?_ | refine setC_ok ?_ | refine setFlag_ok ?_ | refine Kept.ite (fun _ => ?_) (fun _ => ?_)

theorem replayTail_ok {a0 s} (h : Kept q n f m s) : Kept q n f m (replayTail a0 s) := by
  unfold replayTail
  with_reducible repeat' first
    | (simp only [Kept.mk_eq]; refine Kept.of ?_) | assumption | refine Kept.foldl ?_ ?_ | refine State_bumpBy_ok ?_
    | refine State_event_ok ?_ | refine setTk_ok ?_ | refine showLogs_ok ?_ | refine tkPush_ok ?_
    | refine Kept.ite (fun _ => ?_) (fun _ => ?_) | intro _

theorem redoClose_ok {a0 a1 s} (h : Kept q n f m s) : Kept q n f m (redoClose a0 a1 s) := by
  unfold redoClose
  with_reducible repeat' first
    | assumption | refine clearMaxima_ok ?_ | split

theorem deriveTotals_ok {a0 a1 s} (h : Kept q n f m s) : Kept q n f m (deriveTotals a0 a1 s) := by
  unfold deriveTotals
  with_reducible repeat' first
    | assumption | refine Kept.foldl ?_ ?_ | refine putReg_ok ?_ | intro _

theorem totalsBack_ok {a0 a1 s} (h : Kept q n f m s) : Kept q n f m (totalsBack a0 a1 s) := by
  unfold totalsBack
  with_reducible repeat' first
    | assumption | refine Kept.foldl ?_ ?_ | refine checkTotals_ok ?_ | refine deriveTotals_ok ?_ | refine regAdd_ok ?_
    | refine Kept.ite (fun _ => ?_) (fun _ => ?_) | intro _

theorem unitBack__ok {a0 a1 s} (h : Kept q n f m s) : Kept q n f m (unitBack_ a0 a1 s) := by
  unfold unitBack_
  with_reducible repeat' first
    | assumption | refine Kept.foldl ?_ ?_ | refine deriveTotals_ok ?_ | refine rescaleReg_ok ?_ | refine setC_ok ?_ | split | intro _

theorem rebuildHist_ok {s} (h : Kept q n f m s) : Kept q n f m (rebuildHist s) := by
  unfold rebuildHist
  with_reducible repeat' first
    | (simp only [Kept.mk_eq]; refine Kept.of ?_) | assumption

theorem journalShort_ok {a0 s} (h : Kept q n f m s) : Kept q n f m (journalShort a0 s) := by
  unfold journalShort
  with_reducible repeat' first
    | assumption | refine State_bump_ok ?_ | refine State_event_ok ?_

theorem replayJournal_ok {a0 s} (h : Kept q n f m s) : Kept q n f m (replayJournal a0 s) := by
  unfold replayJournal
  with_reducible repeat' first
    | (simp only [Kept.mk_eq]; refine Kept.of ?_) | assumption | refine Kept.foldl ?_ ?_ | refine State_bump_ok ?_
    | refine State_event_ok ?_ | refine journalShort_ok ?_ | refine rebuildHist_ok ?_ | refine recallCct_ok ?_ | refine redoClose_ok ?_
    | refine replayCct_ok ?_ | refine replayTail_ok ?_ | refine totalsBack_ok ?_ | refine unitBack__ok ?_ | split | intro _

theorem evalClosing_ok {a0 a1 s} (h : Kept q n f m s) : Kept q n f m (evalClosing a0 a1 s) := by
  unfold evalClosing
  try dsimp only
  with_reducible repeat' first
    | assumption | refine evalIvl_ok ?_ | refine evalMaxima_ok ?_ | refine setC_ok ?_ | split

theorem startCauses_ok {s} (h : Kept q n f m s) : Kept q n f m (startCauses s) := by
  unfold startCauses
  with_reducible repeat' first
    | assumption | refine raiseStale_ok ?_ | refine Kept.ite (fun _ => ?_) (fun _ => ?_)

theorem storeNow_ok {a0 s} (h : Kept q n f m s) : Kept q n f m (storeNow a0 s) := by
  unfold storeNow
  with_reducible repeat' first
    | assumption | refine holdSlots_ok ?_ | refine storeSealed_ok ?_ | refine writeFrame_ok ?_

theorem rollOne_ok {a0 a1 s} (h : Kept q n f m s) : Kept q n f m (rollOne a0 a1 s) := by
  unfold rollOne
  with_reducible repeat' first
    | assumption | refine Kept.foldl ?_ ?_ | refine checkTotals_ok ?_ | refine keepRatios_ok ?_ | refine modPage_ok ?_
    | refine storeNow_ok ?_ | intro _

theorem rollNow_ok {a0 a1 s} (h : Kept q n f m s) : Kept q n f m (rollNow a0 a1 s) := by
  unfold rollNow
  with_reducible repeat' first
    | assumption | refine Kept.foldl ?_ ?_ | refine State_bump_ok ?_ | refine rollOne_ok ?_ | split | intro _

theorem makeRoom_ok {a0 s} (h : Kept q n f m s) : Kept q n f m (makeRoom a0 s) := by
  unfold makeRoom
  with_reducible repeat' first
    | assumption | refine rollNow_ok ?_

theorem finishSteps_ok {a0 s} (h : Kept q n f m s) : Kept q n f m (finishSteps a0 s) := by
  unfold finishSteps
  with_reducible repeat' first
    | assumption | refine Kept.foldl ?_ ?_ | refine boundaries_ok ?_ | refine makeRoom_ok ?_ | intro _

theorem resumeIvl_ok {a0 a1 s} (h : Kept q n f m s) : Kept q n f m (resumeIvl a0 a1 s).2 := by
  unfold resumeIvl
  try dsimp only
  with_reducible repeat' first
    | assumption | refine closeIvl_ok ?_ | refine rollNow_ok ?_ | refine setC_ok ?_ | split

theorem resumeIvl_ok' {a0 a1 s x t} (e : resumeIvl a0 a1 s = (x, t)) (h : Kept q n f m s) : Kept q n f m t := by
  have w := resumeIvl_ok (n := n) (q := q) (f := f) (m := m) (a0 := a0) (a1 := a1) (s := s) h
  rw [e] at w; exact w

theorem resumeIvls_ok {a0 a1 s} (h : Kept q n f m s) : Kept q n f m (resumeIvls a0 a1 s).2 := by
  induction a1 generalizing s with
  | nil => exact h
  | cons _ l ih =>
    have ih' : ∀ {x t u}, resumeIvls a0 l u = (x, t) → Kept q n f m u → Kept q n f m t := fun {x t u} e h => by
      have w : Kept q n f m (resumeIvls a0 l u).2 := ih h; rw [e] at w; exact w
    unfold resumeIvls
    with_reducible repeat' first
      | refine ih ?_ | assumption | refine resumeIvl_ok ?_

theorem resumeIvls_ok' {a0 a1 s x t} (e : resumeIvls a0 a1 s = (x, t)) (h : Kept q n f m s) : Kept q n f m t := by
  have w := resumeIvls_ok (n := n) (q := q) (f := f) (m := m) (a0 := a0) (a1 := a1) (s := s) h
  rw [e] at w; exact w

theorem setNext_ok {a0 s} (h : Kept q n f m s) : Kept q n f m (setNext a0 s) := by
  unfold setNext
  with_reducible repeat' first
    | (simp only [Kept.mk_eq]; refine Kept.of ?_) | assumption

theorem setRunning_ok {a0 s} (h : Kept q n f m s) : Kept q n f m (setRunning a0 s) := by
  unfold setRunning
  with_reducible repeat' first
    | (simp only [Kept.mk_eq]; refine Kept.of ?_) | assumption

theorem replayOnce_ok {a0 s} (h : Kept q n f m s) : Kept q n f m (replayOnce a0 s) := by
  unfold replayOnce
  with_reducible repeat' first
    | assumption | refine replayJournal_ok ?_ | split

theorem redoSteps_ok {a0 a1 s} (h : Kept q n f m s) : Kept q n f m (redoSteps a0 a1 s) := by
  unfold redoSteps
  try dsimp only
  with_reducible repeat' first
    | assumption | refine Kept.foldl ?_ ?_ | refine evalClosing_ok ?_ | refine finishSteps_ok ?_ | split | intro _

theorem resumeBounds_ok {a0 s} (h : Kept q n f m s) : Kept q n f m (resumeBounds a0 s) := by
  unfold resumeBounds
  split
  rename_i e
  exact boundaries_ok (makeRoom_ok (resumeIvls_ok' e h))

theorem resumeAt_ok {a0 s} (h : Kept q n f m s) : Kept q n f m (resumeAt a0 s) := by
  unfold resumeAt
  with_reducible repeat' first
    | assumption | refine State_put_ok ?_ | refine redoSteps_ok ?_ | refine replayOnce_ok ?_ | refine resumeBounds_ok ?_
    | refine setNext_ok ?_ | refine setRunning_ok ?_ | refine showCalendar_ok ?_ | refine startCauses_ok ?_

theorem execBillingResume_ok {s t} (e : execBillingResume s = .next t) (h : Kept q n f m s) : Kept q n f m t := by
  unfold execBillingResume at e
  injection e with e
  subst e
  with_reducible repeat' first
    | assumption | refine resumeAt_ok ?_ | split

/-! ### Supply -/

theorem execHoldOk_ok {a0 s t} (e : execHoldOk a0 s = .next t) (h : Kept q n f m s) : Kept q n f m t := by
  unfold execHoldOk at e
  injection e with e
  subst e
  with_reducible repeat' first
    | assumption | refine State_event_ok ?_ | refine State_put_ok ?_ | refine supBit_ok ?_ | refine Kept.ite (fun _ => ?_) (fun _ => ?_)

theorem execHoldFault_ok {a0 s t} (e : execHoldFault a0 s = .next t) (h : Kept q n f m s) : Kept q n f m t := by
  unfold execHoldFault at e
  injection e with e
  subst e
  with_reducible repeat' first
    | assumption | refine State_event_ok ?_ | refine supBit_ok ?_ | split

theorem vbatBits_ok {a0 s} (h : Kept q n f m s) : Kept q n f m (vbatBits a0 s) := by
  unfold vbatBits
  with_reducible repeat' first
    | assumption | refine supBit_ok ?_

theorem noteVbat_ok {a0 s} (h : Kept q n f m s) : Kept q n f m (noteVbat a0 s) := by
  unfold noteVbat
  with_reducible repeat' first
    | (simp only [Kept.mk_eq]; refine Kept.of ?_) | assumption | refine State_event_ok ?_ | refine vbatBits_ok ?_
    | refine Kept.ite (fun _ => ?_) (fun _ => ?_)

theorem execVbatMeasure_ok {a0 a1 a2 a3 s t} (e : execVbatMeasure a0 a1 a2 a3 s = .next t) (h : Kept q n f m s) : Kept q n f m t := by
  unfold execVbatMeasure at e
  injection e with e
  subst e
  with_reducible repeat' first
    | assumption | refine State_putLive_ok ?_ | refine noteVbat_ok ?_ | split

theorem execVbatCollapse_ok {s t} (e : execVbatCollapse s = .next t) (h : Kept q n f m s) : Kept q n f m t := by
  unfold execVbatCollapse at e
  injection e with e
  subst e
  with_reducible repeat' first
    | assumption | refine setRtcValid_ok ?_ | split

theorem execRtcCountAdvance_ok {s t} (e : execRtcCountAdvance s = .next t) (h : Kept q n f m s) : Kept q n f m t := by
  unfold execRtcCountAdvance at e
  injection e with e
  subst e
  with_reducible repeat' first
    | (simp only [Kept.mk_eq]; refine Kept.of ?_) | assumption | split

theorem tamperChange_ok {a0 a1 s} (h : Kept q n f m s) : Kept q n f m (tamperChange a0 a1 s) := by
  unfold tamperChange
  with_reducible repeat' first
    | (simp only [Kept.mk_eq]; refine Kept.of ?_) | assumption | refine State_bump_ok ?_ | refine State_event_ok ?_
    | refine Kept.ite (fun _ => ?_) (fun _ => ?_)

theorem tamperInput_ok {a0 a1 s} (h : Kept q n f m s) : Kept q n f m (tamperInput a0 a1 s) := by
  unfold tamperInput
  with_reducible repeat' first
    | (simp only [Kept.mk_eq]; refine Kept.of ?_) | assumption | refine State_putV_ok ?_ | refine tamperChange_ok ?_
    | refine Kept.ite (fun _ => ?_) (fun _ => ?_)

theorem execTamperSample_ok {a0 a1 s t} (e : execTamperSample a0 a1 s = .next t) (h : Kept q n f m s) : Kept q n f m t := by
  unfold execTamperSample at e
  injection e with e
  subst e
  with_reducible repeat' first
    | assumption | refine tamperInput_ok ?_ | split

theorem logLate_ok {a0 s} (h : Kept q n f m s) : Kept q n f m (logLate a0 s) := by
  unfold logLate
  with_reducible repeat' first
    | assumption | refine State_put_ok ?_ | refine eventFlags_ok ?_ | refine numberEvent_ok ?_ | split

theorem closeCapture_ok {a0 s} (h : Kept q n f m s) : Kept q n f m (closeCapture a0 s) := by
  unfold closeCapture
  with_reducible repeat' first
    | (simp only [Kept.mk_eq]; refine Kept.of ?_) | assumption | refine tkPush_ok ?_ | refine Kept.ite (fun _ => ?_) (fun _ => ?_)

theorem hostJournal_ok {s} (h : Kept q n f m s) : Kept q n f m (hostJournal s) := by
  unfold hostJournal
  with_reducible repeat' first
    | (simp only [Kept.mk_eq]; refine Kept.of ?_) | assumption | refine State_put_ok ?_ | split

theorem execOperationalCoreReady_ok {s t} (e : execOperationalCoreReady s = .next t) (h : Kept q n f m s) : Kept q n f m t := by
  unfold execOperationalCoreReady at e
  injection e with e
  subst e
  with_reducible repeat' first
    | (simp only [Kept.mk_eq]; refine Kept.of ?_) | assumption | refine Kept.foldl ?_ ?_ | refine closeCapture_ok ?_
    | refine hostJournal_ok ?_ | refine legacyEvent_ok ?_ | refine logLate_ok ?_ | refine setCause_ok ?_
    | refine Kept.ite (fun _ => ?_) (fun _ => ?_) | intro _

theorem finishStore_ok {s} (h : Kept q n f m s) : Kept q n f m (finishStore s) := by
  unfold finishStore
  with_reducible repeat' first
    | (simp only [Kept.mk_eq]; refine Kept.of ?_) | assumption | refine Kept.foldl ?_ ?_ | refine storeSealed_ok ?_
    | refine takeWrite_ok ?_ | refine writeFrame_ok ?_ | split | intro _

theorem warmCut_ok {s} (h : Kept q n f m s) : Kept q n f m (warmCut s) := by
  have w := powerCut_ok h
  exact ⟨w.dict, w.pages, w.seals, h.ring5, w.ring7, w.period, w.pending, w.draws, w.fn, w.mode⟩

theorem checkGap_ok {a0 s} (h : Kept q n f m s) : Kept q n f m (checkGap a0 s) := by
  unfold checkGap
  with_reducible repeat' first
    | (simp only [Kept.mk_eq]; refine Kept.of ?_) | assumption | refine State_put_ok ?_

theorem keepBill_ok {a0 a1 s} (hl : a1.ring7.length ≤ 8) (h : Kept q n f m s) : Kept q n f m (keepBill a0 a1 s) :=
  ⟨h.dict, h.pages, h.seals, h.ring5, hl, h.period, h.pending, h.draws, h.fn, h.mode⟩

theorem warmHand_ok {a0 s} (h : Kept q n f m s) : Kept q n f m (warmHand a0 s) := by
  unfold warmHand
  with_reducible repeat' first
    | assumption | refine dropTrial_ok ?_ | refine setHand_ok ?_ | split

theorem warmClear_ok {s} (h : Kept q n f m s) : Kept q n f m (warmClear s) := by
  unfold warmClear
  with_reducible repeat' first
    | (simp only [Kept.mk_eq]; refine Kept.dictFilter ?_) | assumption

theorem warmTime_ok {s} (h : Kept q n f m s) : Kept q n (max s.dev.rtcFn (f + 1)) m (warmTime s) := by
  rw [← h.fn]
  unfold warmTime
  exact noteTime_ok (Kept.ite (fun _ => State_put_ok (State_put_ok (State_put_ok (setRtc_ok (State_setFn_ok h)))))
    (fun _ => State_put_ok (setRtc_ok (State_setFn_ok h))))

theorem trialOn_ok {a0 a1 s} (h : Kept q n f m s) : Kept q n f m (trialOn a0 a1 s) := by
  unfold trialOn
  with_reducible repeat' first
    | (simp only [Kept.mk_eq]; refine Kept.of ?_) | assumption | refine showImage_ok ?_ | split

theorem markUp_ok {s} (h : Kept q n f m s) : Kept q n f m (markUp s) := h

theorem warmStart_ok {a0 a1 s} (h : Kept q n f m s) : ∃ f' m', Kept q n f' m' (warmStart a0 a1 s) := by
  unfold warmStart
  extract_lets b s1 s2 h0 s3 s4
  have h1 := warmTime_ok (warmClear_ok (warmCut_ok (flushLive_ok (finishStore_ok h))))
  have h2 := supBit_ok (a0 := 0) (a1 := false) (State_put_ok (k := K.supStartCause) (v := a0) (State_bump_ok (a1 := K.supStarts) h1))
  obtain ⟨m', -, k⟩ := startRun_ok (a0 := a1) (warmHand_ok (a0 := decide (a0 = 2)) h2)
  exact ⟨_, m', checkGap_ok (markUp_ok (trialOn_ok (keepBill_ok h.ring7 k)))⟩

theorem execWarmReset_ok {a0 a1 s t} (e : execWarmReset a0 a1 s = .next t) (h : Kept q n f m s) : ∃ f' m', Kept q n f' m' t := by
  unfold execWarmReset at e
  injection e with e
  subst e
  split
  · exact warmStart_ok h
  · exact ⟨f, m, h⟩

theorem romSlot_ok {a0 s} (h : Kept q n f m s) : Kept q n f m (romSlot a0 s) := by
  unfold romSlot
  with_reducible repeat' first
    | (simp only [Kept.mk_eq]; refine Kept.of ?_) | assumption | refine State_put_ok ?_ | refine answer_ok ?_

theorem romActivate_ok {a0 s} (h : Kept q n f m s) : ∃ f' m', Kept q n f' m' (romActivate a0 s) := by
  unfold romActivate
  exact warmStart_ok (romSlot_ok h)



theorem activateOp_ok {a0 a1 a2 s} (h : Kept q n f m s) : ∃ f' m', Kept q n f' m' (activateOp a0 a1 a2 s) := by
  unfold activateOp
  extract_lets x
  clear_value x
  split
  · exact ⟨f, m, answer_ok h⟩
  · split
    · exact ⟨f, m, answer_ok h⟩
    · split
      · exact ⟨f, m, answerHeld_ok h⟩
      · split
        · exact ⟨f, m, answerReject_ok h⟩
        · split
          · exact romActivate_ok h
          · split
            · exact ⟨f, m, answer_ok h⟩
            · split
              · exact ⟨f, m, postCommit_ok (touchLease_ok h)⟩
              · exact ⟨f, m, waitTurn_ok h⟩

/-- An operation whose own effect may restart the machine. -/
theorem runOp_any {a0 a1 g s} (hg : ∀ t o, ∃ f' m', Kept q n f' m' (g t o s)) (h : Kept q n f m s) :
    ∃ f' m', Kept q n f' m' (runOp a0 a1 g s) := by
  unfold runOp
  split
  · split
    · exact ⟨f, m, h⟩
    · split
      · exact ⟨f, m, h⟩
      · split
        · split
          · exact ⟨f, m, answer_ok h⟩
          · split
            · exact ⟨f, m, answer_ok h⟩
            · exact hg _ _
        · exact ⟨f, m, h⟩
  · exact ⟨f, m, h⟩

theorem execActivate_ok {a0 s t} (e : execActivate a0 s = .next t) (h : Kept q n f m s) : ∃ f' m', Kept q n f' m' t := by
  unfold execActivate runMethod runMethods at e
  injection e with e
  subst e
  refine runOp_any (fun t o => ?_) h
  dsimp only
  split
  · exact ⟨f, m, answer_ok h⟩
  · split
    · exact ⟨f, m, answer_ok h⟩
    · exact activateOp_ok h

end Sys2Proof.Machine
end

