-- ==== Sys2Proof/Laws/KeptGecko.lean ====
section
/-! SUPPORT. What the operations of these files keep: Gecko, Checks, Spi, Credit, Resume, Takes, PlcTime. -/

namespace Sys2Proof.Machine

variable {q : List Instr} {n f : Nat} {m : Mode}

/-! ### Gecko -/

theorem scanLane_ok {a0 a1 a2 a3 a4 s} (h : Kept q n f m s) : Kept q n f m (scanLane a0 a1 a2 a3 a4 s).2 := by
  unfold scanLane
  exact Kept.foldl_snd (fun _ _ k => State_putLive_ok k) h

theorem scanZero_ok {a0 a1 a2 a3 s} (h : Kept q n f m s) : Kept q n f m (scanZero a0 a1 a2 a3 s) := by
  unfold scanZero
  with_reducible repeat' first
    | assumption | refine gapFeed_ok ?_ | refine Kept.ite (fun _ => ?_) (fun _ => ?_)

theorem scanPass_ok {a0 a1 a2 a3 s} (h : Kept q n f m s) : Kept q n f m (scanPass a0 a1 a2 a3 s).2 := by
  unfold scanPass
  exact Kept.foldl_snd (fun _ _ k => scanZero_ok (scanLane_ok k)) h

theorem scanStep_ok {a0 s} (h : Kept q n f m s) : Kept q n f m (scanStep a0 s) := by
  unfold scanStep
  with_reducible repeat' first
    | assumption | refine Kept.foldl ?_ ?_ | refine estStep_ok ?_ | intro _

theorem scanFrames_ok {a0 a1 s} (h : Kept q n f m s) : Kept q n f m (scanFrames a0 a1 s).2 := by
  unfold scanFrames
  refine Kept.foldl_snd (fun p i k => ?_) h
  dsimp only
  refine scanStep_ok (Kept.foldl_snd (fun p j k => ?_) k)
  exact scanPass_ok k

theorem scanFrames_ok' {a0 a1 s x t} (e : scanFrames a0 a1 s = (x, t)) (h : Kept q n f m s) : Kept q n f m t := by
  have w := scanFrames_ok (n := n) (q := q) (f := f) (m := m) (a0 := a0) (a1 := a1) h
  rw [e] at w; exact w

theorem scanAdd_ok {a0 a1 s} (h : Kept q n f m s) : Kept q n f m (scanAdd a0 a1 s) := by
  unfold scanAdd
  with_reducible repeat' first
    | assumption | refine State_put_ok ?_

theorem scanPhase_ok {a0 a1 a2 a3 a4 s} (h : Kept q n f m s) : Kept q n f m (scanPhase a0 a1 a2 a3 a4 s) := by
  unfold scanPhase
  with_reducible repeat' first
    | (simp only [Kept.mk_eq]; refine Kept.of ?_) | assumption | refine State_put_ok ?_ | refine scanAdd_ok ?_

theorem geckoEvent_ok {a0 s} (h : Kept q n f m s) : Kept q n f m (geckoEvent a0 s) := by
  unfold geckoEvent
  with_reducible repeat' first
    | (simp only [Kept.mk_eq]; refine Kept.of ?_) | assumption | refine State_put_ok ?_ | split

theorem scanCct_ok {a0 a1 a2 a3 s} (h : Kept q n f m s) : Kept q n f m (scanCct a0 a1 a2 a3 s) := by
  unfold scanCct
  with_reducible repeat' first
    | (simp only [Kept.mk_eq]; refine Kept.of ?_) | assumption | refine Kept.foldl ?_ ?_ | refine geckoEvent_ok ?_
    | refine scanPhase_ok ?_ | refine Kept.ite (fun _ => ?_) (fun _ => ?_) | intro _

theorem geckoSleep_ok {a0 s} (h : Kept q n f m s) : Kept q n f .sleep (geckoSleep a0 s) := by
  unfold geckoSleep
  exact State_setMode_ok (geckoExit_ok h)

theorem geckoTamper_ok {s} (h : Kept q n f m s) : Kept q n f m (geckoTamper s) := by
  unfold geckoTamper
  with_reducible repeat' first
    | (simp only [Kept.mk_eq]; refine Kept.of ?_) | assumption | refine Kept.foldl ?_ ?_ | refine geckoEvent_ok ?_ | intro _

theorem vbatSeen_ok {a0 s} (h : Kept q n f m s) : Kept q n f m (vbatSeen a0 s) := by
  unfold vbatSeen
  with_reducible repeat' first
    | (simp only [Kept.mk_eq]; refine Kept.of ?_) | assumption | refine geckoEvent_ok ?_ | refine vbatBits_ok ?_
    | refine Kept.ite (fun _ => ?_) (fun _ => ?_)

theorem lowStore_ok {a0 s} (h : Kept q n f m s) : Kept q n f m (lowStore a0 s) := by
  unfold lowStore
  with_reducible repeat' first
    | assumption | refine modPage_ok ?_ | refine showPage_ok ?_ | refine writeFrame_ok ?_

theorem scanStore_ok {a0 s} (h : Kept q n f m s) : Kept q n f m (scanStore a0 s) := by
  unfold scanStore
  with_reducible repeat' first
    | assumption | refine Kept.foldl ?_ ?_ | refine lowStore_ok ?_ | intro _

theorem scanCounted_ok {s} (h : Kept q n f m s) : Kept q n f m (scanCounted s) := by
  unfold scanCounted
  with_reducible repeat' first
    | (simp only [Kept.mk_eq]; refine Kept.of ?_) | assumption | refine State_bump_ok ?_

theorem scanAll_ok {a0 s} (h : Kept q n f m s) : Kept q n f m (scanAll a0 s) := by
  unfold scanAll
  with_reducible repeat' first
    | assumption | refine Kept.foldl ?_ ?_ | refine geckoTamper_ok ?_ | refine scanCct_ok ?_ | refine scanFrames_ok ?_ | intro _

theorem scanNow_ok {a0 s} (h : Kept q n f m s) : ∃ m', Kept q n f m' (scanNow a0 s) := by
  unfold scanNow
  split
  · exact ⟨_, geckoSleep_ok (vbatSeen_ok h)⟩
  · exact ⟨m, scanAll_ok (scanCounted_ok (vbatSeen_ok h))⟩

theorem execGeckoScan_ok {a0 s t} (e : execGeckoScan a0 s = .next t) (h : Kept q n f m s) : ∃ m', Kept q n f m' t := by
  unfold execGeckoScan at e
  injection e with e
  subst e
  split
  · exact (scanNow_ok h).imp fun _ k => scanStore_ok k
  · exact ⟨m, h⟩

theorem execGeckoLimitExpiry_ok {s t} (e : execGeckoLimitExpiry s = .next t) (h : Kept q n f m s) : ∃ m', Kept q n f m' t := by
  unfold execGeckoLimitExpiry at e
  injection e with e
  subst e
  split
  · exact ⟨_, geckoSleep_ok h⟩
  · exact ⟨m, h⟩

/-! ### Checks -/

theorem noteCheck_ok {a0 a1 s} (h : Kept q n f m s) : Kept q n f m (noteCheck a0 a1 s) := h

theorem extraDue_ok {a0 a1 s} (h : Kept q n f m s) : Kept q n f m (extraDue a0 a1 s) := h

theorem unitCheck_ok {a0 a1 a2 a3 a4 s} (h : Kept q n f m s) : Kept q n f m (unitCheck a0 a1 a2 a3 a4 s) := by
  unfold unitCheck
  with_reducible repeat' first
    | assumption | refine extraDue_ok ?_ | refine noteCheck_ok ?_ | refine unitFail_ok ?_ | refine unitPass_ok ?_
    | refine Kept.ite (fun _ => ?_) (fun _ => ?_)

theorem chanCheck_ok {a0 a1 s} (h : Kept q n f m s) : Kept q n f m (chanCheck a0 a1 s) := by
  unfold chanCheck
  with_reducible repeat' first
    | assumption | refine State_bump_ok ?_ | refine unitCheck_ok ?_ | split

theorem execChannelCheck_ok {a0 s t} (e : execChannelCheck a0 s = .next t) (h : Kept q n f m s) : Kept q n f m t := by
  unfold execChannelCheck at e
  injection e with e
  subst e
  with_reducible repeat' first
    | assumption | refine chanCheck_ok ?_ | split

theorem extraDone_ok {a0 s} (h : Kept q n f m s) : Kept q n f m (extraDone a0 s) := h

theorem execChannelExtraCheck_ok {a0 a1 s t} (e : execChannelExtraCheck a0 a1 s = .next t) (h : Kept q n f m s) : Kept q n f m t := by
  unfold execChannelExtraCheck at e
  injection e with e
  subst e
  with_reducible repeat' first
    | assumption | refine chanCheck_ok ?_ | refine extraDone_ok ?_ | refine openTest_ok ?_ | split

theorem execVoltageCheck_ok {a0 a1 s t} (e : execVoltageCheck a0 a1 s = .next t) (h : Kept q n f m s) : Kept q n f m t := by
  unfold execVoltageCheck at e
  injection e with e
  subst e
  with_reducible repeat' first
    | assumption | refine extraDone_ok ?_ | refine unitCheck_ok ?_ | split

theorem execModulatorInstability_ok {a0 s t} (e : execModulatorInstability a0 s = .next t) (h : Kept q n f m s) : Kept q n f m t := by
  unfold execModulatorInstability at e
  injection e with e
  subst e
  with_reducible repeat' first
    | (simp only [Kept.mk_eq]; refine Kept.of ?_) | assumption | split

/-! ### Spi -/

theorem spiSend_ok {a0 s} (h : Kept q n f m s) : Kept q n f m (spiSend a0 s) := h

theorem spiFrameCheck_ok {a0 s} (h : Kept q n f m s) : Kept q n f m (spiFrameCheck a0 s) := by
  unfold spiFrameCheck
  with_reducible repeat' first
    | assumption | refine portSet_ok ?_ | refine setPortUnit_ok ?_ | refine Kept.ite (fun _ => ?_) (fun _ => ?_)

theorem putRefused_ok {s} (h : Kept q n f m s) : Kept q n f m (putRefused s) := by
  unfold putRefused
  with_reducible repeat' first
    | assumption | refine State_bump_ok ?_ | refine setCause_ok ?_

theorem execSpiPut_ok {a0 s t} (e : execSpiPut a0 s = .next t) (h : Kept q n f m s) : Kept q n f m t := by
  unfold execSpiPut at e
  injection e with e
  subst e
  with_reducible repeat' first
    | assumption | refine State_bump_ok ?_ | refine putRefused_ok ?_ | refine setCause_ok ?_ | refine setSrv_ok ?_
    | refine spiFrameCheck_ok ?_ | refine spiSend_ok ?_ | refine Kept.ite (fun _ => ?_) (fun _ => ?_)

theorem execSpiTake_ok {a0 s t} (e : execSpiTake a0 s = .next t) (h : Kept q n f m s) : Kept q n f m t := by
  unfold execSpiTake at e
  injection e with e
  subst e
  with_reducible repeat' first
    | assumption | refine leave12_ok ?_ | refine leave13_ok ?_ | refine spiSend_ok ?_ | refine Kept.ite (fun _ => ?_) (fun _ => ?_)
    | split

theorem execSpiStatus_ok {s t} (e : execSpiStatus s = .next t) (h : Kept q n f m s) : Kept q n f m t := by
  unfold execSpiStatus at e
  injection e with e
  subst e
  with_reducible repeat' first
    | assumption | refine spiSend_ok ?_ | split

theorem execSpiClear_ok {a0 s t} (e : execSpiClear a0 s = .next t) (h : Kept q n f m s) : Kept q n f m t := by
  unfold execSpiClear at e
  injection e with e
  subst e
  with_reducible repeat' first
    | assumption | refine setSpi_ok ?_ | refine spiSend_ok ?_ | split

theorem execSpiReservedCommand_ok {a0 s t} (e : execSpiReservedCommand a0 s = .next t) (h : Kept q n f m s) : Kept q n f m t := by
  unfold execSpiReservedCommand at e
  injection e with e
  subst e
  with_reducible repeat' first
    | assumption | refine spiSend_ok ?_ | split

theorem execCsCollision_ok {s t} (e : execCsCollision s = .next t) (h : Kept q n f m s) : Kept q n f m t := by
  unfold execCsCollision at e
  injection e with e
  subst e
  with_reducible repeat' first
    | assumption | refine State_bump_ok ?_ | refine spiSend_ok ?_ | split

theorem execLegacyRead_ok {a0 a1 s t} (e : execLegacyRead a0 a1 s = .next t) (h : Kept q n f m s) : Kept q n f m t := by
  unfold execLegacyRead at e
  injection e with e
  subst e
  with_reducible repeat' first
    | assumption | refine State_bumpLive_ok ?_ | refine setSpi_ok ?_ | refine spiSend_ok ?_ | split

theorem execLegacyWriteEvents_ok {a0 s t} (e : execLegacyWriteEvents a0 s = .next t) (h : Kept q n f m s) : Kept q n f m t := by
  unfold execLegacyWriteEvents at e
  injection e with e
  subst e
  with_reducible repeat' first
    | assumption | refine setSpi_ok ?_ | refine spiSend_ok ?_ | split

theorem execLegacyWriteEventMask_ok {a0 s t} (e : execLegacyWriteEventMask a0 s = .next t) (h : Kept q n f m s) : Kept q n f m t := by
  unfold execLegacyWriteEventMask at e
  injection e with e
  subst e
  with_reducible repeat' first
    | assumption | refine State_put_ok ?_ | refine spiSend_ok ?_ | split

theorem execLegacyWriteIgnored_ok {a0 a1 s t} (e : execLegacyWriteIgnored a0 a1 s = .next t) (h : Kept q n f m s) : Kept q n f m t := by
  unfold execLegacyWriteIgnored at e
  injection e with e
  subst e
  with_reducible repeat' first
    | assumption | refine State_bump_ok ?_ | refine spiSend_ok ?_ | split

/-! ### Credit -/

theorem portSend_ok {a0 a1 s} (h : Kept q n f m s) : Kept q n f m (portSend a0 a1 s) := by
  unfold portSend
  with_reducible repeat' first
    | assumption | refine plcSend_ok ?_ | refine t1sSend_ok ?_ | split

theorem execRingCreditAvailable_ok {a0 a1 s t} (e : execRingCreditAvailable a0 a1 s = .next t) (h : Kept q n f m s) : Kept q n f m t := by
  unfold execRingCreditAvailable at e
  injection e with e
  subst e
  with_reducible repeat' first
    | assumption | refine endBroadcasts_ok ?_ | refine portSend_ok ?_ | refine profPump_ok ?_ | refine pump14_ok ?_ | refine pump15_ok ?_
    | refine pumpRolls_ok ?_ | split

/-! ### Resume -/

theorem execStaleEnter_ok {s t} (e : execStaleEnter s = .next t) (h : Kept q n f m s) : Kept q n f m t := by
  unfold execStaleEnter at e
  injection e with e
  subst e
  with_reducible repeat' first
    | assumption | refine State_putLive_ok ?_ | refine clearRoutes_ok ?_ | refine setCause_ok ?_ | split

theorem tickTag_ok {a0 a1 s} (h : Kept q n f m s) : Kept q n f m (tickTag a0 a1 s) := by
  unfold tickTag
  with_reducible repeat' first
    | assumption | refine setTag_ok ?_ | split

theorem execHostTokenWrite_ok {a0 s t} (e : execHostTokenWrite a0 s = .next t) (h : Kept q n f m s) : Kept q n f m t := by
  unfold execHostTokenWrite at e
  injection e with e
  subst e
  with_reducible repeat' first
    | assumption | refine answer_ok ?_ | refine raiseStale_ok ?_ | refine runOp_ok ?_ ?_ | refine setSrv_ok ?_ | refine tickTag_ok ?_
    | refine Kept.ite (fun _ => ?_) (fun _ => ?_) | intro _

theorem execResume_ok {a0 s t} (e : execResume a0 s = .next t) (h : Kept q n f m s) : Kept q n f m t := by
  unfold execResume at e
  injection e with e
  subst e
  with_reducible repeat' first
    | assumption | refine answer_ok ?_ | refine postCommit_ok ?_ | refine runMethod_ok ?_ ?_ | refine waitTurn_ok ?_ | split | intro _

theorem resumeNow_ok {a0 s} (h : Kept q n f m s) : Kept q n f m (resumeNow a0 s) := by
  unfold resumeNow
  with_reducible repeat' first
    | (simp only [Kept.mk_eq]; refine Kept.of ?_) | assumption | refine State_event_ok ?_ | refine State_put_ok ?_
    | refine State_putLive_ok ?_ | split

theorem execReadSigned_ok {a0 s t} (e : execReadSigned a0 s = .next t) (h : Kept q n f m s) : Kept q n f m t := by
  unfold execReadSigned at e
  injection e with e
  subst e
  with_reducible repeat' first
    | (simp only [Kept.mk_eq]; refine Kept.of ?_) | assumption | refine State_bump_ok ?_ | refine State_put_ok ?_ | refine answer_ok ?_
    | refine markUsed_ok ?_ | refine runOp_ok ?_ ?_ | refine Kept.ite (fun _ => ?_) (fun _ => ?_) | split | intro _

/-! ### Takes -/

theorem noteLegal_ok {a0 s} (h : Kept q n f m s) : Kept q n f m (noteLegal a0 s) := by
  unfold noteLegal
  with_reducible repeat' first
    | assumption | refine legalNote_ok ?_ | split

theorem noteCal_ok {a0 s} (h : Kept q n f m s) : Kept q n f m (noteCal a0 s) := by
  unfold noteCal
  with_reducible repeat' first
    | assumption | refine Kept.foldl ?_ ?_ | refine State_bump_ok ?_ | refine State_put_ok ?_
    | refine Kept.ite (fun _ => ?_) (fun _ => ?_) | intro _

theorem noteGen_ok {a0 s} (h : Kept q n f m s) : Kept q n f m (noteGen a0 s) := by
  unfold noteGen
  with_reducible repeat' first
    | (simp only [Kept.mk_eq]; refine Kept.of ?_) | assumption

theorem lanesTake_ok {a0 s} (h : Kept q n f m s) : Kept q n f m (lanesTake a0 s) := by
  unfold lanesTake
  with_reducible repeat' first
    | (simp only [Kept.mk_eq]; refine Kept.of ?_) | assumption | refine Kept.foldl ?_ ?_ | refine State_put_ok ?_
    | refine State_putLive_ok ?_ | refine dropExtra_ok ?_ | refine lowRange_ok ?_ | refine recredit0_ok ?_ | refine restartStreams_ok ?_
    | intro _

theorem defsTake_ok {a0 s} (h : Kept q n f m s) : Kept q n f m (defsTake a0 s) := by
  unfold defsTake
  with_reducible repeat' first
    | assumption | refine Kept.foldl ?_ ?_ | refine State_put_ok ?_ | intro _

theorem regimesTake_ok {a0 s} (h : Kept q n f m s) : Kept q n f m (regimesTake a0 s) := by
  unfold regimesTake
  with_reducible repeat' first
    | assumption | refine Kept.foldl ?_ ?_ | refine State_bump_ok ?_ | refine State_event_ok ?_ | refine State_put_ok ?_
    | refine State_putV_ok ?_ | refine Kept.ite (fun _ => ?_) (fun _ => ?_) | intro _

theorem ethTakes_ok {a0 s} (h : Kept q n f m s) : Kept q n f m (ethTakes a0 s) := by
  unfold ethTakes
  with_reducible repeat' first
    | assumption | refine dadUnicast_ok ?_ | refine t1sStart_ok ?_ | refine t1sStop_ok ?_ | split

theorem lineTakes_ok {a0 s} (h : Kept q n f m s) : Kept q n f m (lineTakes a0 s) := by
  unfold lineTakes
  with_reducible repeat' first
    | assumption | refine leavePan_ok ?_ | refine plcStart_ok ?_ | refine plcStop_ok ?_ | refine tbStart__ok ?_
    | refine Kept.ite (fun _ => ?_) (fun _ => ?_)

theorem spiTake_ok {a0 s} (h : Kept q n f m s) : Kept q n f m (spiTake a0 s) := by
  unfold spiTake
  with_reducible repeat' first
    | assumption | refine dropWork_ok ?_ | split

theorem storesTake_ok {a0 s} (h : Kept q n f m s) : Kept q n f m (storesTake a0 s) := by
  unfold storesTake
  with_reducible repeat' first
    | assumption | refine Kept.foldl ?_ ?_ | refine State_putV_ok ?_ | refine showPage_ok ?_ | refine showTwin_ok ?_ | split | intro _

theorem settingsTake_ok {a0 s} (h : Kept q n f m s) : Kept q n f m (settingsTake a0 s) := by
  unfold settingsTake
  with_reducible repeat' first
    | assumption | refine defsTake_ok ?_ | refine ethTakes_ok ?_ | refine lanesTake_ok ?_ | refine lineTakes_ok ?_
    | refine regimesTake_ok ?_ | refine showLoads_ok ?_ | refine spiTake_ok ?_ | refine storesTake_ok ?_

theorem effTake_ok {a0 s} (h : Kept q n f m s) : Kept q n f m (effTake a0 s) := by
  unfold effTake
  with_reducible repeat' first
    | assumption | refine reinstateNow_ok ?_ | refine resolveNow_ok ?_ | refine restoreNow_ok ?_ | refine resumeNow_ok ?_ | split

theorem takeOne_ok {a0 s} (h : Kept q n f m s) : Kept q n f m (takeOne a0 s) := by
  unfold takeOne
  with_reducible repeat' first
    | assumption | refine effTake_ok ?_ | refine noteCal_ok ?_ | refine noteGen_ok ?_ | refine noteLegal_ok ?_

theorem markDone_ok {s} (h : Kept q n f m s) : Kept q n f m (markDone s) := by
  unfold markDone
  with_reducible repeat' first
    | (simp only [Kept.mk_eq]; refine Kept.of ?_) | assumption

theorem execCommitTakesEffect_ok {s t} (e : execCommitTakesEffect s = .next t) (h : Kept q n f m s) : Kept q n f m t := by
  unfold execCommitTakesEffect at e
  injection e with e
  subst e
  with_reducible repeat' first
    | assumption | refine Kept.foldl ?_ ?_ | refine markDone_ok ?_ | refine settingsTake_ok ?_ | refine takeOne_ok ?_ | split | intro _

/-! ### PlcTime -/

theorem execAnnounceSend_ok {s t} (e : execAnnounceSend s = .next t) (h : Kept q n f m s) : Kept q n f m t := by
  unfold execAnnounceSend at e
  injection e with e
  subst e
  with_reducible repeat' first
    | assumption | refine setPlc_ok ?_ | refine Kept.ite (fun _ => ?_) (fun _ => ?_) | split

theorem execAnnounceAbandon_ok {s t} (e : execAnnounceAbandon s = .next t) (h : Kept q n f m s) : Kept q n f m t := by
  unfold execAnnounceAbandon at e
  injection e with e
  subst e
  with_reducible repeat' first
    | assumption | refine setPlc_ok ?_ | split

theorem tbSeat_ok {a0 a1 s} (h : Kept q n f m s) : Kept q n f m (tbSeat a0 a1 s) := by
  unfold tbSeat
  with_reducible repeat' first
    | assumption | refine State_putLive_ok ?_ | refine setTb_ok ?_ | split

theorem tbMove_ok {a0 a1 a2 a3 a4 s} (h : Kept q n f m s) : Kept q n f m (tbMove a0 a1 a2 a3 a4 s) := by
  unfold tbMove
  with_reducible repeat' first
    | assumption | refine State_event_ok ?_ | refine setTb_ok ?_ | refine tbSeat_ok ?_ | refine Kept.ite (fun _ => ?_) (fun _ => ?_)

theorem showDelta_ok {s} (h : Kept q n f m s) : Kept q n f m (showDelta s) := by
  unfold showDelta
  with_reducible repeat' first
    | assumption | refine State_putLive_ok ?_

theorem tbAdopt_ok {a0 a1 a2 s} (h : Kept q n f m s) : Kept q n f m (tbAdopt a0 a1 a2 s) := by
  unfold tbAdopt
  with_reducible repeat' first
    | assumption | refine State_event_ok ?_ | refine State_putLive_ok ?_ | refine setTb_ok ?_ | refine showDelta_ok ?_
    | refine tbMove_ok ?_ | refine Kept.ite (fun _ => ?_) (fun _ => ?_) | split

theorem tbCheck_ok {a0 a1 a2 a3 s} (h : Kept q n f m s) : Kept q n f m (tbCheck a0 a1 a2 a3 s) := by
  unfold tbCheck
  with_reducible repeat' first
    | assumption | refine State_event_ok ?_ | refine State_putLive_ok ?_ | refine setTb_ok ?_ | refine showDelta_ok ?_
    | refine Kept.ite (fun _ => ?_) (fun _ => ?_)

theorem noteHeard_ok {a0 s} (h : Kept q n f m s) : Kept q n f m (noteHeard a0 s) := by
  unfold noteHeard
  with_reducible repeat' first
    | assumption | refine setTb_ok ?_

theorem wallTime_ok {a0 a1 s} (h : Kept q n f m s) : Kept q n f m (wallTime a0 a1 s) := by
  unfold wallTime
  with_reducible repeat' first
    | assumption | refine acceptTime_ok ?_ | refine legalNote_ok ?_ | refine setTb_ok ?_ | refine Kept.ite (fun _ => ?_) (fun _ => ?_)

theorem follow_ok {a0 s} (h : Kept q n f m s) : Kept q n f m (follow a0 s) := by
  unfold follow
  with_reducible repeat' first
    | assumption | refine noteHeard_ok ?_ | refine setTb_ok ?_ | refine tbAdopt_ok ?_ | refine tbCheck_ok ?_ | refine wallTime_ok ?_
    | refine Kept.ite (fun _ => ?_) (fun _ => ?_) | split

theorem execAnnouncementReceive_ok {a0 s t} (e : execAnnouncementReceive a0 s = .next t) (h : Kept q n f m s) : Kept q n f m t := by
  unfold execAnnouncementReceive at e
  injection e with e
  subst e
  with_reducible repeat' first
    | assumption | refine State_bumpLive_ok ?_ | refine follow_ok ?_ | refine setNbr_ok ?_ | refine Kept.ite (fun _ => ?_) (fun _ => ?_)

theorem execCycleMap_ok {a0 s t} (e : execCycleMap a0 s = .next t) (h : Kept q n f m s) : Kept q n f m t := by
  unfold execCycleMap at e
  injection e with e
  subst e
  with_reducible repeat' first
    | assumption | refine answer_ok ?_ | refine runMethod_ok ?_ ?_ | refine Kept.ite (fun _ => ?_) (fun _ => ?_) | split | intro _

end Sys2Proof.Machine
end

