-- ==== Sys2Proof/Laws/State.lean ====
section
/-! SUPPORT. The fields of a state after each update: the field that it sets, and every other one as before.  Objects read as before after an
update that does not touch the dictionary. -/

namespace Sys2Proof.Machine

variable {s : State}

/-! ### State.put -/

@[simp] theorem State_put_fn {k v : Nat} : (s.put k v).fn = s.fn := rfl
@[simp] theorem State_put_mode {k v : Nat} : (s.put k v).mode = s.mode := rfl
@[simp] theorem State_put_commits {k v : Nat} : (s.put k v).commits = s.commits := rfl
@[simp] theorem State_put_times {k v : Nat} : (s.put k v).times = s.times := rfl
@[simp] theorem State_put_chg {k v : Nat} : (s.put k v).chg = s.chg := rfl
@[simp] theorem State_put_due {k v : Nat} : (s.put k v).due = s.due := rfl
@[simp] theorem State_put_olds {k v : Nat} : (s.put k v).olds = s.olds := rfl
@[simp] theorem State_put_gens {k v : Nat} : (s.put k v).gens = s.gens := rfl
@[simp] theorem State_put_acq {k v : Nat} : (s.put k v).acq = s.acq := rfl
@[simp] theorem State_put_aln {k v : Nat} : (s.put k v).aln = s.aln := rfl
@[simp] theorem State_put_tan {k v : Nat} : (s.put k v).tan = s.tan := rfl
@[simp] theorem State_put_cap {k v : Nat} : (s.put k v).cap = s.cap := rfl
@[simp] theorem State_put_bill {k v : Nat} : (s.put k v).bill = s.bill := rfl
@[simp] theorem State_put_pulse {k v : Nat} : (s.put k v).pulse = s.pulse := rfl
@[simp] theorem State_put_img {k v : Nat} : (s.put k v).img = s.img := rfl
@[simp] theorem State_put_tk {k v : Nat} : (s.put k v).tk = s.tk := rfl
@[simp] theorem State_put_pwr {k v : Nat} : (s.put k v).pwr = s.pwr := rfl
@[simp] theorem State_put_srv {k v : Nat} : (s.put k v).srv = s.srv := rfl
@[simp] theorem State_put_spi {k v : Nat} : (s.put k v).spi = s.spi := rfl
@[simp] theorem State_put_t1s {k v : Nat} : (s.put k v).t1s = s.t1s := rfl
@[simp] theorem State_put_plc {k v : Nat} : (s.put k v).plc = s.plc := rfl
@[simp] theorem State_put_tb {k v : Nat} : (s.put k v).tb = s.tb := rfl
@[simp] theorem State_put_dev {k v : Nat} : (s.put k v).dev = s.dev := rfl
@[simp] theorem State_put_ready {k v : Nat} : (s.put k v).ready = s.ready := rfl
@[simp] theorem State_put_ring5 {k v : Nat} : (s.put k v).ring5 = s.ring5 := rfl
@[simp] theorem State_put_staging {k v : Nat} : (s.put k v).staging = s.staging := rfl
@[simp] theorem State_put_sealed {k v : Nat} : (s.put k v).sealed = s.sealed := rfl
@[simp] theorem State_put_current {k v : Nat} : (s.put k v).current = s.current := rfl
@[simp] theorem State_put_previous {k v : Nat} : (s.put k v).previous = s.previous := rfl
@[simp] theorem State_put_pins {k v : Nat} : (s.put k v).pins = s.pins := rfl
@[simp] theorem State_put_jobs {k v : Nat} : (s.put k v).jobs = s.jobs := rfl
@[simp] theorem State_put_rollq {k v : Nat} : (s.put k v).rollq = s.rollq := rfl
@[simp] theorem State_put_pages {k v : Nat} : (s.put k v).pages = s.pages := rfl
@[simp] theorem State_put_seals {k v : Nat} : (s.put k v).seals = s.seals := rfl
@[simp] theorem State_put_units {k v : Nat} : (s.put k v).units = s.units := rfl
@[simp] theorem State_put_draws {k v : Nat} : (s.put k v).draws = s.draws := rfl
@[simp] theorem State_put_pending {k v : Nat} : (s.put k v).pending = s.pending := rfl

/-! ### State.bumpBy -/

@[simp] theorem State_bumpBy_fn {k v : Nat} : (s.bumpBy k v).fn = s.fn := rfl
@[simp] theorem State_bumpBy_mode {k v : Nat} : (s.bumpBy k v).mode = s.mode := rfl
@[simp] theorem State_bumpBy_commits {k v : Nat} : (s.bumpBy k v).commits = s.commits := rfl
@[simp] theorem State_bumpBy_times {k v : Nat} : (s.bumpBy k v).times = s.times := rfl
@[simp] theorem State_bumpBy_chg {k v : Nat} : (s.bumpBy k v).chg = s.chg := rfl
@[simp] theorem State_bumpBy_due {k v : Nat} : (s.bumpBy k v).due = s.due := rfl
@[simp] theorem State_bumpBy_olds {k v : Nat} : (s.bumpBy k v).olds = s.olds := rfl
@[simp] theorem State_bumpBy_gens {k v : Nat} : (s.bumpBy k v).gens = s.gens := rfl
@[simp] theorem State_bumpBy_acq {k v : Nat} : (s.bumpBy k v).acq = s.acq := rfl
@[simp] theorem State_bumpBy_aln {k v : Nat} : (s.bumpBy k v).aln = s.aln := rfl
@[simp] theorem State_bumpBy_tan {k v : Nat} : (s.bumpBy k v).tan = s.tan := rfl
@[simp] theorem State_bumpBy_cap {k v : Nat} : (s.bumpBy k v).cap = s.cap := rfl
@[simp] theorem State_bumpBy_bill {k v : Nat} : (s.bumpBy k v).bill = s.bill := rfl
@[simp] theorem State_bumpBy_pulse {k v : Nat} : (s.bumpBy k v).pulse = s.pulse := rfl
@[simp] theorem State_bumpBy_img {k v : Nat} : (s.bumpBy k v).img = s.img := rfl
@[simp] theorem State_bumpBy_tk {k v : Nat} : (s.bumpBy k v).tk = s.tk := rfl
@[simp] theorem State_bumpBy_pwr {k v : Nat} : (s.bumpBy k v).pwr = s.pwr := rfl
@[simp] theorem State_bumpBy_srv {k v : Nat} : (s.bumpBy k v).srv = s.srv := rfl
@[simp] theorem State_bumpBy_spi {k v : Nat} : (s.bumpBy k v).spi = s.spi := rfl
@[simp] theorem State_bumpBy_t1s {k v : Nat} : (s.bumpBy k v).t1s = s.t1s := rfl
@[simp] theorem State_bumpBy_plc {k v : Nat} : (s.bumpBy k v).plc = s.plc := rfl
@[simp] theorem State_bumpBy_tb {k v : Nat} : (s.bumpBy k v).tb = s.tb := rfl
@[simp] theorem State_bumpBy_dev {k v : Nat} : (s.bumpBy k v).dev = s.dev := rfl
@[simp] theorem State_bumpBy_ready {k v : Nat} : (s.bumpBy k v).ready = s.ready := rfl
@[simp] theorem State_bumpBy_ring5 {k v : Nat} : (s.bumpBy k v).ring5 = s.ring5 := rfl
@[simp] theorem State_bumpBy_staging {k v : Nat} : (s.bumpBy k v).staging = s.staging := rfl
@[simp] theorem State_bumpBy_sealed {k v : Nat} : (s.bumpBy k v).sealed = s.sealed := rfl
@[simp] theorem State_bumpBy_current {k v : Nat} : (s.bumpBy k v).current = s.current := rfl
@[simp] theorem State_bumpBy_previous {k v : Nat} : (s.bumpBy k v).previous = s.previous := rfl
@[simp] theorem State_bumpBy_pins {k v : Nat} : (s.bumpBy k v).pins = s.pins := rfl
@[simp] theorem State_bumpBy_jobs {k v : Nat} : (s.bumpBy k v).jobs = s.jobs := rfl
@[simp] theorem State_bumpBy_rollq {k v : Nat} : (s.bumpBy k v).rollq = s.rollq := rfl
@[simp] theorem State_bumpBy_pages {k v : Nat} : (s.bumpBy k v).pages = s.pages := rfl
@[simp] theorem State_bumpBy_seals {k v : Nat} : (s.bumpBy k v).seals = s.seals := rfl
@[simp] theorem State_bumpBy_units {k v : Nat} : (s.bumpBy k v).units = s.units := rfl
@[simp] theorem State_bumpBy_draws {k v : Nat} : (s.bumpBy k v).draws = s.draws := rfl
@[simp] theorem State_bumpBy_pending {k v : Nat} : (s.bumpBy k v).pending = s.pending := rfl

/-! ### State.bump -/

@[simp] theorem State_bump_fn {k : Nat} : (s.bump k).fn = s.fn := rfl
@[simp] theorem State_bump_mode {k : Nat} : (s.bump k).mode = s.mode := rfl
@[simp] theorem State_bump_commits {k : Nat} : (s.bump k).commits = s.commits := rfl
@[simp] theorem State_bump_times {k : Nat} : (s.bump k).times = s.times := rfl
@[simp] theorem State_bump_chg {k : Nat} : (s.bump k).chg = s.chg := rfl
@[simp] theorem State_bump_due {k : Nat} : (s.bump k).due = s.due := rfl
@[simp] theorem State_bump_olds {k : Nat} : (s.bump k).olds = s.olds := rfl
@[simp] theorem State_bump_gens {k : Nat} : (s.bump k).gens = s.gens := rfl
@[simp] theorem State_bump_acq {k : Nat} : (s.bump k).acq = s.acq := rfl
@[simp] theorem State_bump_aln {k : Nat} : (s.bump k).aln = s.aln := rfl
@[simp] theorem State_bump_tan {k : Nat} : (s.bump k).tan = s.tan := rfl
@[simp] theorem State_bump_cap {k : Nat} : (s.bump k).cap = s.cap := rfl
@[simp] theorem State_bump_bill {k : Nat} : (s.bump k).bill = s.bill := rfl
@[simp] theorem State_bump_pulse {k : Nat} : (s.bump k).pulse = s.pulse := rfl
@[simp] theorem State_bump_img {k : Nat} : (s.bump k).img = s.img := rfl
@[simp] theorem State_bump_tk {k : Nat} : (s.bump k).tk = s.tk := rfl
@[simp] theorem State_bump_pwr {k : Nat} : (s.bump k).pwr = s.pwr := rfl
@[simp] theorem State_bump_srv {k : Nat} : (s.bump k).srv = s.srv := rfl
@[simp] theorem State_bump_spi {k : Nat} : (s.bump k).spi = s.spi := rfl
@[simp] theorem State_bump_t1s {k : Nat} : (s.bump k).t1s = s.t1s := rfl
@[simp] theorem State_bump_plc {k : Nat} : (s.bump k).plc = s.plc := rfl
@[simp] theorem State_bump_tb {k : Nat} : (s.bump k).tb = s.tb := rfl
@[simp] theorem State_bump_dev {k : Nat} : (s.bump k).dev = s.dev := rfl
@[simp] theorem State_bump_ready {k : Nat} : (s.bump k).ready = s.ready := rfl
@[simp] theorem State_bump_ring5 {k : Nat} : (s.bump k).ring5 = s.ring5 := rfl
@[simp] theorem State_bump_staging {k : Nat} : (s.bump k).staging = s.staging := rfl
@[simp] theorem State_bump_sealed {k : Nat} : (s.bump k).sealed = s.sealed := rfl
@[simp] theorem State_bump_current {k : Nat} : (s.bump k).current = s.current := rfl
@[simp] theorem State_bump_previous {k : Nat} : (s.bump k).previous = s.previous := rfl
@[simp] theorem State_bump_pins {k : Nat} : (s.bump k).pins = s.pins := rfl
@[simp] theorem State_bump_jobs {k : Nat} : (s.bump k).jobs = s.jobs := rfl
@[simp] theorem State_bump_rollq {k : Nat} : (s.bump k).rollq = s.rollq := rfl
@[simp] theorem State_bump_pages {k : Nat} : (s.bump k).pages = s.pages := rfl
@[simp] theorem State_bump_seals {k : Nat} : (s.bump k).seals = s.seals := rfl
@[simp] theorem State_bump_units {k : Nat} : (s.bump k).units = s.units := rfl
@[simp] theorem State_bump_draws {k : Nat} : (s.bump k).draws = s.draws := rfl
@[simp] theorem State_bump_pending {k : Nat} : (s.bump k).pending = s.pending := rfl

/-! ### State.putI -/

@[simp] theorem State_putI_fn {k : Nat} {x : Int} : (s.putI k x).fn = s.fn := rfl
@[simp] theorem State_putI_mode {k : Nat} {x : Int} : (s.putI k x).mode = s.mode := rfl
@[simp] theorem State_putI_commits {k : Nat} {x : Int} : (s.putI k x).commits = s.commits := rfl
@[simp] theorem State_putI_times {k : Nat} {x : Int} : (s.putI k x).times = s.times := rfl
@[simp] theorem State_putI_chg {k : Nat} {x : Int} : (s.putI k x).chg = s.chg := rfl
@[simp] theorem State_putI_due {k : Nat} {x : Int} : (s.putI k x).due = s.due := rfl
@[simp] theorem State_putI_olds {k : Nat} {x : Int} : (s.putI k x).olds = s.olds := rfl
@[simp] theorem State_putI_gens {k : Nat} {x : Int} : (s.putI k x).gens = s.gens := rfl
@[simp] theorem State_putI_acq {k : Nat} {x : Int} : (s.putI k x).acq = s.acq := rfl
@[simp] theorem State_putI_aln {k : Nat} {x : Int} : (s.putI k x).aln = s.aln := rfl
@[simp] theorem State_putI_tan {k : Nat} {x : Int} : (s.putI k x).tan = s.tan := rfl
@[simp] theorem State_putI_cap {k : Nat} {x : Int} : (s.putI k x).cap = s.cap := rfl
@[simp] theorem State_putI_bill {k : Nat} {x : Int} : (s.putI k x).bill = s.bill := rfl
@[simp] theorem State_putI_pulse {k : Nat} {x : Int} : (s.putI k x).pulse = s.pulse := rfl
@[simp] theorem State_putI_img {k : Nat} {x : Int} : (s.putI k x).img = s.img := rfl
@[simp] theorem State_putI_tk {k : Nat} {x : Int} : (s.putI k x).tk = s.tk := rfl
@[simp] theorem State_putI_pwr {k : Nat} {x : Int} : (s.putI k x).pwr = s.pwr := rfl
@[simp] theorem State_putI_srv {k : Nat} {x : Int} : (s.putI k x).srv = s.srv := rfl
@[simp] theorem State_putI_spi {k : Nat} {x : Int} : (s.putI k x).spi = s.spi := rfl
@[simp] theorem State_putI_t1s {k : Nat} {x : Int} : (s.putI k x).t1s = s.t1s := rfl
@[simp] theorem State_putI_plc {k : Nat} {x : Int} : (s.putI k x).plc = s.plc := rfl
@[simp] theorem State_putI_tb {k : Nat} {x : Int} : (s.putI k x).tb = s.tb := rfl
@[simp] theorem State_putI_dev {k : Nat} {x : Int} : (s.putI k x).dev = s.dev := rfl
@[simp] theorem State_putI_ready {k : Nat} {x : Int} : (s.putI k x).ready = s.ready := rfl
@[simp] theorem State_putI_ring5 {k : Nat} {x : Int} : (s.putI k x).ring5 = s.ring5 := rfl
@[simp] theorem State_putI_staging {k : Nat} {x : Int} : (s.putI k x).staging = s.staging := rfl
@[simp] theorem State_putI_sealed {k : Nat} {x : Int} : (s.putI k x).sealed = s.sealed := rfl
@[simp] theorem State_putI_current {k : Nat} {x : Int} : (s.putI k x).current = s.current := rfl
@[simp] theorem State_putI_previous {k : Nat} {x : Int} : (s.putI k x).previous = s.previous := rfl
@[simp] theorem State_putI_pins {k : Nat} {x : Int} : (s.putI k x).pins = s.pins := rfl
@[simp] theorem State_putI_jobs {k : Nat} {x : Int} : (s.putI k x).jobs = s.jobs := rfl
@[simp] theorem State_putI_rollq {k : Nat} {x : Int} : (s.putI k x).rollq = s.rollq := rfl
@[simp] theorem State_putI_pages {k : Nat} {x : Int} : (s.putI k x).pages = s.pages := rfl
@[simp] theorem State_putI_seals {k : Nat} {x : Int} : (s.putI k x).seals = s.seals := rfl
@[simp] theorem State_putI_units {k : Nat} {x : Int} : (s.putI k x).units = s.units := rfl
@[simp] theorem State_putI_draws {k : Nat} {x : Int} : (s.putI k x).draws = s.draws := rfl
@[simp] theorem State_putI_pending {k : Nat} {x : Int} : (s.putI k x).pending = s.pending := rfl

/-! ### State.setFn -/

@[simp] theorem State_setFn_fn {f : Nat} : (s.setFn f).fn = f := rfl
@[simp] theorem State_setFn_mode {f : Nat} : (s.setFn f).mode = s.mode := rfl
@[simp] theorem State_setFn_dict {f : Nat} : (s.setFn f).dict = s.dict := rfl
@[simp] theorem State_setFn_commits {f : Nat} : (s.setFn f).commits = s.commits := rfl
@[simp] theorem State_setFn_times {f : Nat} : (s.setFn f).times = s.times := rfl
@[simp] theorem State_setFn_chg {f : Nat} : (s.setFn f).chg = s.chg := rfl
@[simp] theorem State_setFn_due {f : Nat} : (s.setFn f).due = s.due := rfl
@[simp] theorem State_setFn_olds {f : Nat} : (s.setFn f).olds = s.olds := rfl
@[simp] theorem State_setFn_gens {f : Nat} : (s.setFn f).gens = s.gens := rfl
@[simp] theorem State_setFn_acq {f : Nat} : (s.setFn f).acq = s.acq := rfl
@[simp] theorem State_setFn_aln {f : Nat} : (s.setFn f).aln = s.aln := rfl
@[simp] theorem State_setFn_tan {f : Nat} : (s.setFn f).tan = s.tan := rfl
@[simp] theorem State_setFn_cap {f : Nat} : (s.setFn f).cap = s.cap := rfl
@[simp] theorem State_setFn_bill {f : Nat} : (s.setFn f).bill = s.bill := rfl
@[simp] theorem State_setFn_pulse {f : Nat} : (s.setFn f).pulse = s.pulse := rfl
@[simp] theorem State_setFn_img {f : Nat} : (s.setFn f).img = s.img := rfl
@[simp] theorem State_setFn_tk {f : Nat} : (s.setFn f).tk = s.tk := rfl
@[simp] theorem State_setFn_pwr {f : Nat} : (s.setFn f).pwr = s.pwr := rfl
@[simp] theorem State_setFn_srv {f : Nat} : (s.setFn f).srv = s.srv := rfl
@[simp] theorem State_setFn_spi {f : Nat} : (s.setFn f).spi = s.spi := rfl
@[simp] theorem State_setFn_t1s {f : Nat} : (s.setFn f).t1s = s.t1s := rfl
@[simp] theorem State_setFn_plc {f : Nat} : (s.setFn f).plc = s.plc := rfl
@[simp] theorem State_setFn_tb {f : Nat} : (s.setFn f).tb = s.tb := rfl
@[simp] theorem State_setFn_dev {f : Nat} : (s.setFn f).dev = s.dev := rfl
@[simp] theorem State_setFn_ready {f : Nat} : (s.setFn f).ready = s.ready := rfl
@[simp] theorem State_setFn_ring5 {f : Nat} : (s.setFn f).ring5 = s.ring5 := rfl
@[simp] theorem State_setFn_staging {f : Nat} : (s.setFn f).staging = s.staging := rfl
@[simp] theorem State_setFn_sealed {f : Nat} : (s.setFn f).sealed = s.sealed := rfl
@[simp] theorem State_setFn_current {f : Nat} : (s.setFn f).current = s.current := rfl
@[simp] theorem State_setFn_previous {f : Nat} : (s.setFn f).previous = s.previous := rfl
@[simp] theorem State_setFn_pins {f : Nat} : (s.setFn f).pins = s.pins := rfl
@[simp] theorem State_setFn_jobs {f : Nat} : (s.setFn f).jobs = s.jobs := rfl
@[simp] theorem State_setFn_rollq {f : Nat} : (s.setFn f).rollq = s.rollq := rfl
@[simp] theorem State_setFn_pages {f : Nat} : (s.setFn f).pages = s.pages := rfl
@[simp] theorem State_setFn_seals {f : Nat} : (s.setFn f).seals = s.seals := rfl
@[simp] theorem State_setFn_units {f : Nat} : (s.setFn f).units = s.units := rfl
@[simp] theorem State_setFn_draws {f : Nat} : (s.setFn f).draws = s.draws := rfl
@[simp] theorem State_setFn_pending {f : Nat} : (s.setFn f).pending = s.pending := rfl
@[simp] theorem State_setFn_get {f : Nat} {k : Nat} : (s.setFn f).get k = s.get k := rfl

/-! ### State.setMode -/

@[simp] theorem State_setMode_fn {m : Mode} : (s.setMode m).fn = s.fn := rfl
@[simp] theorem State_setMode_mode {m : Mode} : (s.setMode m).mode = m := rfl
@[simp] theorem State_setMode_dict {m : Mode} : (s.setMode m).dict = s.dict := rfl
@[simp] theorem State_setMode_commits {m : Mode} : (s.setMode m).commits = s.commits := rfl
@[simp] theorem State_setMode_times {m : Mode} : (s.setMode m).times = s.times := rfl
@[simp] theorem State_setMode_chg {m : Mode} : (s.setMode m).chg = s.chg := rfl
@[simp] theorem State_setMode_due {m : Mode} : (s.setMode m).due = s.due := rfl
@[simp] theorem State_setMode_olds {m : Mode} : (s.setMode m).olds = s.olds := rfl
@[simp] theorem State_setMode_gens {m : Mode} : (s.setMode m).gens = s.gens := rfl
@[simp] theorem State_setMode_acq {m : Mode} : (s.setMode m).acq = s.acq := rfl
@[simp] theorem State_setMode_aln {m : Mode} : (s.setMode m).aln = s.aln := rfl
@[simp] theorem State_setMode_tan {m : Mode} : (s.setMode m).tan = s.tan := rfl
@[simp] theorem State_setMode_cap {m : Mode} : (s.setMode m).cap = s.cap := rfl
@[simp] theorem State_setMode_bill {m : Mode} : (s.setMode m).bill = s.bill := rfl
@[simp] theorem State_setMode_pulse {m : Mode} : (s.setMode m).pulse = s.pulse := rfl
@[simp] theorem State_setMode_img {m : Mode} : (s.setMode m).img = s.img := rfl
@[simp] theorem State_setMode_tk {m : Mode} : (s.setMode m).tk = s.tk := rfl
@[simp] theorem State_setMode_pwr {m : Mode} : (s.setMode m).pwr = s.pwr := rfl
@[simp] theorem State_setMode_srv {m : Mode} : (s.setMode m).srv = s.srv := rfl
@[simp] theorem State_setMode_spi {m : Mode} : (s.setMode m).spi = s.spi := rfl
@[simp] theorem State_setMode_t1s {m : Mode} : (s.setMode m).t1s = s.t1s := rfl
@[simp] theorem State_setMode_plc {m : Mode} : (s.setMode m).plc = s.plc := rfl
@[simp] theorem State_setMode_tb {m : Mode} : (s.setMode m).tb = s.tb := rfl
@[simp] theorem State_setMode_dev {m : Mode} : (s.setMode m).dev = s.dev := rfl
@[simp] theorem State_setMode_ready {m : Mode} : (s.setMode m).ready = s.ready := rfl
@[simp] theorem State_setMode_ring5 {m : Mode} : (s.setMode m).ring5 = s.ring5 := rfl
@[simp] theorem State_setMode_staging {m : Mode} : (s.setMode m).staging = s.staging := rfl
@[simp] theorem State_setMode_sealed {m : Mode} : (s.setMode m).sealed = s.sealed := rfl
@[simp] theorem State_setMode_current {m : Mode} : (s.setMode m).current = s.current := rfl
@[simp] theorem State_setMode_previous {m : Mode} : (s.setMode m).previous = s.previous := rfl
@[simp] theorem State_setMode_pins {m : Mode} : (s.setMode m).pins = s.pins := rfl
@[simp] theorem State_setMode_jobs {m : Mode} : (s.setMode m).jobs = s.jobs := rfl
@[simp] theorem State_setMode_rollq {m : Mode} : (s.setMode m).rollq = s.rollq := rfl
@[simp] theorem State_setMode_pages {m : Mode} : (s.setMode m).pages = s.pages := rfl
@[simp] theorem State_setMode_seals {m : Mode} : (s.setMode m).seals = s.seals := rfl
@[simp] theorem State_setMode_units {m : Mode} : (s.setMode m).units = s.units := rfl
@[simp] theorem State_setMode_draws {m : Mode} : (s.setMode m).draws = s.draws := rfl
@[simp] theorem State_setMode_pending {m : Mode} : (s.setMode m).pending = s.pending := rfl
@[simp] theorem State_setMode_get {m : Mode} {k : Nat} : (s.setMode m).get k = s.get k := rfl

/-! ### State.draw -/

@[simp] theorem State_draw_fn : s.draw.2.fn = s.fn := rfl
@[simp] theorem State_draw_mode : s.draw.2.mode = s.mode := rfl
@[simp] theorem State_draw_dict : s.draw.2.dict = s.dict := rfl
@[simp] theorem State_draw_commits : s.draw.2.commits = s.commits := rfl
@[simp] theorem State_draw_times : s.draw.2.times = s.times := rfl
@[simp] theorem State_draw_chg : s.draw.2.chg = s.chg := rfl
@[simp] theorem State_draw_due : s.draw.2.due = s.due := rfl
@[simp] theorem State_draw_olds : s.draw.2.olds = s.olds := rfl
@[simp] theorem State_draw_gens : s.draw.2.gens = s.gens := rfl
@[simp] theorem State_draw_acq : s.draw.2.acq = s.acq := rfl
@[simp] theorem State_draw_aln : s.draw.2.aln = s.aln := rfl
@[simp] theorem State_draw_tan : s.draw.2.tan = s.tan := rfl
@[simp] theorem State_draw_cap : s.draw.2.cap = s.cap := rfl
@[simp] theorem State_draw_bill : s.draw.2.bill = s.bill := rfl
@[simp] theorem State_draw_pulse : s.draw.2.pulse = s.pulse := rfl
@[simp] theorem State_draw_img : s.draw.2.img = s.img := rfl
@[simp] theorem State_draw_tk : s.draw.2.tk = s.tk := rfl
@[simp] theorem State_draw_pwr : s.draw.2.pwr = s.pwr := rfl
@[simp] theorem State_draw_srv : s.draw.2.srv = s.srv := rfl
@[simp] theorem State_draw_spi : s.draw.2.spi = s.spi := rfl
@[simp] theorem State_draw_t1s : s.draw.2.t1s = s.t1s := rfl
@[simp] theorem State_draw_plc : s.draw.2.plc = s.plc := rfl
@[simp] theorem State_draw_tb : s.draw.2.tb = s.tb := rfl
@[simp] theorem State_draw_dev : s.draw.2.dev = s.dev := rfl
@[simp] theorem State_draw_ready : s.draw.2.ready = s.ready := rfl
@[simp] theorem State_draw_ring5 : s.draw.2.ring5 = s.ring5 := rfl
@[simp] theorem State_draw_staging : s.draw.2.staging = s.staging := rfl
@[simp] theorem State_draw_sealed : s.draw.2.sealed = s.sealed := rfl
@[simp] theorem State_draw_current : s.draw.2.current = s.current := rfl
@[simp] theorem State_draw_previous : s.draw.2.previous = s.previous := rfl
@[simp] theorem State_draw_pins : s.draw.2.pins = s.pins := rfl
@[simp] theorem State_draw_jobs : s.draw.2.jobs = s.jobs := rfl
@[simp] theorem State_draw_rollq : s.draw.2.rollq = s.rollq := rfl
@[simp] theorem State_draw_pages : s.draw.2.pages = s.pages := rfl
@[simp] theorem State_draw_seals : s.draw.2.seals = s.seals := rfl
@[simp] theorem State_draw_units : s.draw.2.units = s.units := rfl
@[simp] theorem State_draw_draws : s.draw.2.draws = s.draws + 1 := rfl
@[simp] theorem State_draw_pending : s.draw.2.pending = s.pending := rfl
@[simp] theorem State_draw_get {k : Nat} : s.draw.2.get k = s.get k := rfl

/-! ### setSrv -/

@[simp] theorem setSrv_fn {f : Srv → Srv} : (setSrv f s).fn = s.fn := rfl
@[simp] theorem setSrv_mode {f : Srv → Srv} : (setSrv f s).mode = s.mode := rfl
@[simp] theorem setSrv_dict {f : Srv → Srv} : (setSrv f s).dict = s.dict := rfl
@[simp] theorem setSrv_commits {f : Srv → Srv} : (setSrv f s).commits = s.commits := rfl
@[simp] theorem setSrv_times {f : Srv → Srv} : (setSrv f s).times = s.times := rfl
@[simp] theorem setSrv_chg {f : Srv → Srv} : (setSrv f s).chg = s.chg := rfl
@[simp] theorem setSrv_due {f : Srv → Srv} : (setSrv f s).due = s.due := rfl
@[simp] theorem setSrv_olds {f : Srv → Srv} : (setSrv f s).olds = s.olds := rfl
@[simp] theorem setSrv_gens {f : Srv → Srv} : (setSrv f s).gens = s.gens := rfl
@[simp] theorem setSrv_acq {f : Srv → Srv} : (setSrv f s).acq = s.acq := rfl
@[simp] theorem setSrv_aln {f : Srv → Srv} : (setSrv f s).aln = s.aln := rfl
@[simp] theorem setSrv_tan {f : Srv → Srv} : (setSrv f s).tan = s.tan := rfl
@[simp] theorem setSrv_cap {f : Srv → Srv} : (setSrv f s).cap = s.cap := rfl
@[simp] theorem setSrv_bill {f : Srv → Srv} : (setSrv f s).bill = s.bill := rfl
@[simp] theorem setSrv_pulse {f : Srv → Srv} : (setSrv f s).pulse = s.pulse := rfl
@[simp] theorem setSrv_img {f : Srv → Srv} : (setSrv f s).img = s.img := rfl
@[simp] theorem setSrv_tk {f : Srv → Srv} : (setSrv f s).tk = s.tk := rfl
@[simp] theorem setSrv_pwr {f : Srv → Srv} : (setSrv f s).pwr = s.pwr := rfl
@[simp] theorem setSrv_srv {f : Srv → Srv} : (setSrv f s).srv = f s.srv := rfl
@[simp] theorem setSrv_spi {f : Srv → Srv} : (setSrv f s).spi = s.spi := rfl
@[simp] theorem setSrv_t1s {f : Srv → Srv} : (setSrv f s).t1s = s.t1s := rfl
@[simp] theorem setSrv_plc {f : Srv → Srv} : (setSrv f s).plc = s.plc := rfl
@[simp] theorem setSrv_tb {f : Srv → Srv} : (setSrv f s).tb = s.tb := rfl
@[simp] theorem setSrv_dev {f : Srv → Srv} : (setSrv f s).dev = s.dev := rfl
@[simp] theorem setSrv_ready {f : Srv → Srv} : (setSrv f s).ready = s.ready := rfl
@[simp] theorem setSrv_ring5 {f : Srv → Srv} : (setSrv f s).ring5 = s.ring5 := rfl
@[simp] theorem setSrv_staging {f : Srv → Srv} : (setSrv f s).staging = s.staging := rfl
@[simp] theorem setSrv_sealed {f : Srv → Srv} : (setSrv f s).sealed = s.sealed := rfl
@[simp] theorem setSrv_current {f : Srv → Srv} : (setSrv f s).current = s.current := rfl
@[simp] theorem setSrv_previous {f : Srv → Srv} : (setSrv f s).previous = s.previous := rfl
@[simp] theorem setSrv_pins {f : Srv → Srv} : (setSrv f s).pins = s.pins := rfl
@[simp] theorem setSrv_jobs {f : Srv → Srv} : (setSrv f s).jobs = s.jobs := rfl
@[simp] theorem setSrv_rollq {f : Srv → Srv} : (setSrv f s).rollq = s.rollq := rfl
@[simp] theorem setSrv_pages {f : Srv → Srv} : (setSrv f s).pages = s.pages := rfl
@[simp] theorem setSrv_seals {f : Srv → Srv} : (setSrv f s).seals = s.seals := rfl
@[simp] theorem setSrv_units {f : Srv → Srv} : (setSrv f s).units = s.units := rfl
@[simp] theorem setSrv_draws {f : Srv → Srv} : (setSrv f s).draws = s.draws := rfl
@[simp] theorem setSrv_pending {f : Srv → Srv} : (setSrv f s).pending = s.pending := rfl
@[simp] theorem setSrv_get {f : Srv → Srv} {k : Nat} : (setSrv f s).get k = s.get k := rfl

/-! ### setSpi -/

@[simp] theorem setSpi_fn {f : Spi → Spi} : (setSpi f s).fn = s.fn := rfl
@[simp] theorem setSpi_mode {f : Spi → Spi} : (setSpi f s).mode = s.mode := rfl
@[simp] theorem setSpi_dict {f : Spi → Spi} : (setSpi f s).dict = s.dict := rfl
@[simp] theorem setSpi_commits {f : Spi → Spi} : (setSpi f s).commits = s.commits := rfl
@[simp] theorem setSpi_times {f : Spi → Spi} : (setSpi f s).times = s.times := rfl
@[simp] theorem setSpi_chg {f : Spi → Spi} : (setSpi f s).chg = s.chg := rfl
@[simp] theorem setSpi_due {f : Spi → Spi} : (setSpi f s).due = s.due := rfl
@[simp] theorem setSpi_olds {f : Spi → Spi} : (setSpi f s).olds = s.olds := rfl
@[simp] theorem setSpi_gens {f : Spi → Spi} : (setSpi f s).gens = s.gens := rfl
@[simp] theorem setSpi_acq {f : Spi → Spi} : (setSpi f s).acq = s.acq := rfl
@[simp] theorem setSpi_aln {f : Spi → Spi} : (setSpi f s).aln = s.aln := rfl
@[simp] theorem setSpi_tan {f : Spi → Spi} : (setSpi f s).tan = s.tan := rfl
@[simp] theorem setSpi_cap {f : Spi → Spi} : (setSpi f s).cap = s.cap := rfl
@[simp] theorem setSpi_bill {f : Spi → Spi} : (setSpi f s).bill = s.bill := rfl
@[simp] theorem setSpi_pulse {f : Spi → Spi} : (setSpi f s).pulse = s.pulse := rfl
@[simp] theorem setSpi_img {f : Spi → Spi} : (setSpi f s).img = s.img := rfl
@[simp] theorem setSpi_tk {f : Spi → Spi} : (setSpi f s).tk = s.tk := rfl
@[simp] theorem setSpi_pwr {f : Spi → Spi} : (setSpi f s).pwr = s.pwr := rfl
@[simp] theorem setSpi_srv {f : Spi → Spi} : (setSpi f s).srv = s.srv := rfl
@[simp] theorem setSpi_spi {f : Spi → Spi} : (setSpi f s).spi = f s.spi := rfl
@[simp] theorem setSpi_t1s {f : Spi → Spi} : (setSpi f s).t1s = s.t1s := rfl
@[simp] theorem setSpi_plc {f : Spi → Spi} : (setSpi f s).plc = s.plc := rfl
@[simp] theorem setSpi_tb {f : Spi → Spi} : (setSpi f s).tb = s.tb := rfl
@[simp] theorem setSpi_dev {f : Spi → Spi} : (setSpi f s).dev = s.dev := rfl
@[simp] theorem setSpi_ready {f : Spi → Spi} : (setSpi f s).ready = s.ready := rfl
@[simp] theorem setSpi_ring5 {f : Spi → Spi} : (setSpi f s).ring5 = s.ring5 := rfl
@[simp] theorem setSpi_staging {f : Spi → Spi} : (setSpi f s).staging = s.staging := rfl
@[simp] theorem setSpi_sealed {f : Spi → Spi} : (setSpi f s).sealed = s.sealed := rfl
@[simp] theorem setSpi_current {f : Spi → Spi} : (setSpi f s).current = s.current := rfl
@[simp] theorem setSpi_previous {f : Spi → Spi} : (setSpi f s).previous = s.previous := rfl
@[simp] theorem setSpi_pins {f : Spi → Spi} : (setSpi f s).pins = s.pins := rfl
@[simp] theorem setSpi_jobs {f : Spi → Spi} : (setSpi f s).jobs = s.jobs := rfl
@[simp] theorem setSpi_rollq {f : Spi → Spi} : (setSpi f s).rollq = s.rollq := rfl
@[simp] theorem setSpi_pages {f : Spi → Spi} : (setSpi f s).pages = s.pages := rfl
@[simp] theorem setSpi_seals {f : Spi → Spi} : (setSpi f s).seals = s.seals := rfl
@[simp] theorem setSpi_units {f : Spi → Spi} : (setSpi f s).units = s.units := rfl
@[simp] theorem setSpi_draws {f : Spi → Spi} : (setSpi f s).draws = s.draws := rfl
@[simp] theorem setSpi_pending {f : Spi → Spi} : (setSpi f s).pending = s.pending := rfl
@[simp] theorem setSpi_get {f : Spi → Spi} {k : Nat} : (setSpi f s).get k = s.get k := rfl

/-! ### setT1s -/

@[simp] theorem setT1s_fn {f : T1s → T1s} : (setT1s f s).fn = s.fn := rfl
@[simp] theorem setT1s_mode {f : T1s → T1s} : (setT1s f s).mode = s.mode := rfl
@[simp] theorem setT1s_dict {f : T1s → T1s} : (setT1s f s).dict = s.dict := rfl
@[simp] theorem setT1s_commits {f : T1s → T1s} : (setT1s f s).commits = s.commits := rfl
@[simp] theorem setT1s_times {f : T1s → T1s} : (setT1s f s).times = s.times := rfl
@[simp] theorem setT1s_chg {f : T1s → T1s} : (setT1s f s).chg = s.chg := rfl
@[simp] theorem setT1s_due {f : T1s → T1s} : (setT1s f s).due = s.due := rfl
@[simp] theorem setT1s_olds {f : T1s → T1s} : (setT1s f s).olds = s.olds := rfl
@[simp] theorem setT1s_gens {f : T1s → T1s} : (setT1s f s).gens = s.gens := rfl
@[simp] theorem setT1s_acq {f : T1s → T1s} : (setT1s f s).acq = s.acq := rfl
@[simp] theorem setT1s_aln {f : T1s → T1s} : (setT1s f s).aln = s.aln := rfl
@[simp] theorem setT1s_tan {f : T1s → T1s} : (setT1s f s).tan = s.tan := rfl
@[simp] theorem setT1s_cap {f : T1s → T1s} : (setT1s f s).cap = s.cap := rfl
@[simp] theorem setT1s_bill {f : T1s → T1s} : (setT1s f s).bill = s.bill := rfl
@[simp] theorem setT1s_pulse {f : T1s → T1s} : (setT1s f s).pulse = s.pulse := rfl
@[simp] theorem setT1s_img {f : T1s → T1s} : (setT1s f s).img = s.img := rfl
@[simp] theorem setT1s_tk {f : T1s → T1s} : (setT1s f s).tk = s.tk := rfl
@[simp] theorem setT1s_pwr {f : T1s → T1s} : (setT1s f s).pwr = s.pwr := rfl
@[simp] theorem setT1s_srv {f : T1s → T1s} : (setT1s f s).srv = s.srv := rfl
@[simp] theorem setT1s_spi {f : T1s → T1s} : (setT1s f s).spi = s.spi := rfl
@[simp] theorem setT1s_t1s {f : T1s → T1s} : (setT1s f s).t1s = f s.t1s := rfl
@[simp] theorem setT1s_plc {f : T1s → T1s} : (setT1s f s).plc = s.plc := rfl
@[simp] theorem setT1s_tb {f : T1s → T1s} : (setT1s f s).tb = s.tb := rfl
@[simp] theorem setT1s_dev {f : T1s → T1s} : (setT1s f s).dev = s.dev := rfl
@[simp] theorem setT1s_ready {f : T1s → T1s} : (setT1s f s).ready = s.ready := rfl
@[simp] theorem setT1s_ring5 {f : T1s → T1s} : (setT1s f s).ring5 = s.ring5 := rfl
@[simp] theorem setT1s_staging {f : T1s → T1s} : (setT1s f s).staging = s.staging := rfl
@[simp] theorem setT1s_sealed {f : T1s → T1s} : (setT1s f s).sealed = s.sealed := rfl
@[simp] theorem setT1s_current {f : T1s → T1s} : (setT1s f s).current = s.current := rfl
@[simp] theorem setT1s_previous {f : T1s → T1s} : (setT1s f s).previous = s.previous := rfl
@[simp] theorem setT1s_pins {f : T1s → T1s} : (setT1s f s).pins = s.pins := rfl
@[simp] theorem setT1s_jobs {f : T1s → T1s} : (setT1s f s).jobs = s.jobs := rfl
@[simp] theorem setT1s_rollq {f : T1s → T1s} : (setT1s f s).rollq = s.rollq := rfl
@[simp] theorem setT1s_pages {f : T1s → T1s} : (setT1s f s).pages = s.pages := rfl
@[simp] theorem setT1s_seals {f : T1s → T1s} : (setT1s f s).seals = s.seals := rfl
@[simp] theorem setT1s_units {f : T1s → T1s} : (setT1s f s).units = s.units := rfl
@[simp] theorem setT1s_draws {f : T1s → T1s} : (setT1s f s).draws = s.draws := rfl
@[simp] theorem setT1s_pending {f : T1s → T1s} : (setT1s f s).pending = s.pending := rfl
@[simp] theorem setT1s_get {f : T1s → T1s} {k : Nat} : (setT1s f s).get k = s.get k := rfl

/-! ### setPlc -/

@[simp] theorem setPlc_fn {f : Plc → Plc} : (setPlc f s).fn = s.fn := rfl
@[simp] theorem setPlc_mode {f : Plc → Plc} : (setPlc f s).mode = s.mode := rfl
@[simp] theorem setPlc_dict {f : Plc → Plc} : (setPlc f s).dict = s.dict := rfl
@[simp] theorem setPlc_commits {f : Plc → Plc} : (setPlc f s).commits = s.commits := rfl
@[simp] theorem setPlc_times {f : Plc → Plc} : (setPlc f s).times = s.times := rfl
@[simp] theorem setPlc_chg {f : Plc → Plc} : (setPlc f s).chg = s.chg := rfl
@[simp] theorem setPlc_due {f : Plc → Plc} : (setPlc f s).due = s.due := rfl
@[simp] theorem setPlc_olds {f : Plc → Plc} : (setPlc f s).olds = s.olds := rfl
@[simp] theorem setPlc_gens {f : Plc → Plc} : (setPlc f s).gens = s.gens := rfl
@[simp] theorem setPlc_acq {f : Plc → Plc} : (setPlc f s).acq = s.acq := rfl
@[simp] theorem setPlc_aln {f : Plc → Plc} : (setPlc f s).aln = s.aln := rfl
@[simp] theorem setPlc_tan {f : Plc → Plc} : (setPlc f s).tan = s.tan := rfl
@[simp] theorem setPlc_cap {f : Plc → Plc} : (setPlc f s).cap = s.cap := rfl
@[simp] theorem setPlc_bill {f : Plc → Plc} : (setPlc f s).bill = s.bill := rfl
@[simp] theorem setPlc_pulse {f : Plc → Plc} : (setPlc f s).pulse = s.pulse := rfl
@[simp] theorem setPlc_img {f : Plc → Plc} : (setPlc f s).img = s.img := rfl
@[simp] theorem setPlc_tk {f : Plc → Plc} : (setPlc f s).tk = s.tk := rfl
@[simp] theorem setPlc_pwr {f : Plc → Plc} : (setPlc f s).pwr = s.pwr := rfl
@[simp] theorem setPlc_srv {f : Plc → Plc} : (setPlc f s).srv = s.srv := rfl
@[simp] theorem setPlc_spi {f : Plc → Plc} : (setPlc f s).spi = s.spi := rfl
@[simp] theorem setPlc_t1s {f : Plc → Plc} : (setPlc f s).t1s = s.t1s := rfl
@[simp] theorem setPlc_plc {f : Plc → Plc} : (setPlc f s).plc = f s.plc := rfl
@[simp] theorem setPlc_tb {f : Plc → Plc} : (setPlc f s).tb = s.tb := rfl
@[simp] theorem setPlc_dev {f : Plc → Plc} : (setPlc f s).dev = s.dev := rfl
@[simp] theorem setPlc_ready {f : Plc → Plc} : (setPlc f s).ready = s.ready := rfl
@[simp] theorem setPlc_ring5 {f : Plc → Plc} : (setPlc f s).ring5 = s.ring5 := rfl
@[simp] theorem setPlc_staging {f : Plc → Plc} : (setPlc f s).staging = s.staging := rfl
@[simp] theorem setPlc_sealed {f : Plc → Plc} : (setPlc f s).sealed = s.sealed := rfl
@[simp] theorem setPlc_current {f : Plc → Plc} : (setPlc f s).current = s.current := rfl
@[simp] theorem setPlc_previous {f : Plc → Plc} : (setPlc f s).previous = s.previous := rfl
@[simp] theorem setPlc_pins {f : Plc → Plc} : (setPlc f s).pins = s.pins := rfl
@[simp] theorem setPlc_jobs {f : Plc → Plc} : (setPlc f s).jobs = s.jobs := rfl
@[simp] theorem setPlc_rollq {f : Plc → Plc} : (setPlc f s).rollq = s.rollq := rfl
@[simp] theorem setPlc_pages {f : Plc → Plc} : (setPlc f s).pages = s.pages := rfl
@[simp] theorem setPlc_seals {f : Plc → Plc} : (setPlc f s).seals = s.seals := rfl
@[simp] theorem setPlc_units {f : Plc → Plc} : (setPlc f s).units = s.units := rfl
@[simp] theorem setPlc_draws {f : Plc → Plc} : (setPlc f s).draws = s.draws := rfl
@[simp] theorem setPlc_pending {f : Plc → Plc} : (setPlc f s).pending = s.pending := rfl
@[simp] theorem setPlc_get {f : Plc → Plc} {k : Nat} : (setPlc f s).get k = s.get k := rfl

/-! ### setTb -/

@[simp] theorem setTb_fn {f : Tb → Tb} : (setTb f s).fn = s.fn := rfl
@[simp] theorem setTb_mode {f : Tb → Tb} : (setTb f s).mode = s.mode := rfl
@[simp] theorem setTb_dict {f : Tb → Tb} : (setTb f s).dict = s.dict := rfl
@[simp] theorem setTb_commits {f : Tb → Tb} : (setTb f s).commits = s.commits := rfl
@[simp] theorem setTb_times {f : Tb → Tb} : (setTb f s).times = s.times := rfl
@[simp] theorem setTb_chg {f : Tb → Tb} : (setTb f s).chg = s.chg := rfl
@[simp] theorem setTb_due {f : Tb → Tb} : (setTb f s).due = s.due := rfl
@[simp] theorem setTb_olds {f : Tb → Tb} : (setTb f s).olds = s.olds := rfl
@[simp] theorem setTb_gens {f : Tb → Tb} : (setTb f s).gens = s.gens := rfl
@[simp] theorem setTb_acq {f : Tb → Tb} : (setTb f s).acq = s.acq := rfl
@[simp] theorem setTb_aln {f : Tb → Tb} : (setTb f s).aln = s.aln := rfl
@[simp] theorem setTb_tan {f : Tb → Tb} : (setTb f s).tan = s.tan := rfl
@[simp] theorem setTb_cap {f : Tb → Tb} : (setTb f s).cap = s.cap := rfl
@[simp] theorem setTb_bill {f : Tb → Tb} : (setTb f s).bill = s.bill := rfl
@[simp] theorem setTb_pulse {f : Tb → Tb} : (setTb f s).pulse = s.pulse := rfl
@[simp] theorem setTb_img {f : Tb → Tb} : (setTb f s).img = s.img := rfl
@[simp] theorem setTb_tk {f : Tb → Tb} : (setTb f s).tk = s.tk := rfl
@[simp] theorem setTb_pwr {f : Tb → Tb} : (setTb f s).pwr = s.pwr := rfl
@[simp] theorem setTb_srv {f : Tb → Tb} : (setTb f s).srv = s.srv := rfl
@[simp] theorem setTb_spi {f : Tb → Tb} : (setTb f s).spi = s.spi := rfl
@[simp] theorem setTb_t1s {f : Tb → Tb} : (setTb f s).t1s = s.t1s := rfl
@[simp] theorem setTb_plc {f : Tb → Tb} : (setTb f s).plc = s.plc := rfl
@[simp] theorem setTb_tb {f : Tb → Tb} : (setTb f s).tb = f s.tb := rfl
@[simp] theorem setTb_dev {f : Tb → Tb} : (setTb f s).dev = s.dev := rfl
@[simp] theorem setTb_ready {f : Tb → Tb} : (setTb f s).ready = s.ready := rfl
@[simp] theorem setTb_ring5 {f : Tb → Tb} : (setTb f s).ring5 = s.ring5 := rfl
@[simp] theorem setTb_staging {f : Tb → Tb} : (setTb f s).staging = s.staging := rfl
@[simp] theorem setTb_sealed {f : Tb → Tb} : (setTb f s).sealed = s.sealed := rfl
@[simp] theorem setTb_current {f : Tb → Tb} : (setTb f s).current = s.current := rfl
@[simp] theorem setTb_previous {f : Tb → Tb} : (setTb f s).previous = s.previous := rfl
@[simp] theorem setTb_pins {f : Tb → Tb} : (setTb f s).pins = s.pins := rfl
@[simp] theorem setTb_jobs {f : Tb → Tb} : (setTb f s).jobs = s.jobs := rfl
@[simp] theorem setTb_rollq {f : Tb → Tb} : (setTb f s).rollq = s.rollq := rfl
@[simp] theorem setTb_pages {f : Tb → Tb} : (setTb f s).pages = s.pages := rfl
@[simp] theorem setTb_seals {f : Tb → Tb} : (setTb f s).seals = s.seals := rfl
@[simp] theorem setTb_units {f : Tb → Tb} : (setTb f s).units = s.units := rfl
@[simp] theorem setTb_draws {f : Tb → Tb} : (setTb f s).draws = s.draws := rfl
@[simp] theorem setTb_pending {f : Tb → Tb} : (setTb f s).pending = s.pending := rfl
@[simp] theorem setTb_get {f : Tb → Tb} {k : Nat} : (setTb f s).get k = s.get k := rfl

/-! ### setTk -/

@[simp] theorem setTk_fn {f : Tk → Tk} : (setTk f s).fn = s.fn := rfl
@[simp] theorem setTk_mode {f : Tk → Tk} : (setTk f s).mode = s.mode := rfl
@[simp] theorem setTk_dict {f : Tk → Tk} : (setTk f s).dict = s.dict := rfl
@[simp] theorem setTk_commits {f : Tk → Tk} : (setTk f s).commits = s.commits := rfl
@[simp] theorem setTk_times {f : Tk → Tk} : (setTk f s).times = s.times := rfl
@[simp] theorem setTk_chg {f : Tk → Tk} : (setTk f s).chg = s.chg := rfl
@[simp] theorem setTk_due {f : Tk → Tk} : (setTk f s).due = s.due := rfl
@[simp] theorem setTk_olds {f : Tk → Tk} : (setTk f s).olds = s.olds := rfl
@[simp] theorem setTk_gens {f : Tk → Tk} : (setTk f s).gens = s.gens := rfl
@[simp] theorem setTk_acq {f : Tk → Tk} : (setTk f s).acq = s.acq := rfl
@[simp] theorem setTk_aln {f : Tk → Tk} : (setTk f s).aln = s.aln := rfl
@[simp] theorem setTk_tan {f : Tk → Tk} : (setTk f s).tan = s.tan := rfl
@[simp] theorem setTk_cap {f : Tk → Tk} : (setTk f s).cap = s.cap := rfl
@[simp] theorem setTk_bill {f : Tk → Tk} : (setTk f s).bill = s.bill := rfl
@[simp] theorem setTk_pulse {f : Tk → Tk} : (setTk f s).pulse = s.pulse := rfl
@[simp] theorem setTk_img {f : Tk → Tk} : (setTk f s).img = s.img := rfl
@[simp] theorem setTk_tk {f : Tk → Tk} : (setTk f s).tk = f s.tk := rfl
@[simp] theorem setTk_pwr {f : Tk → Tk} : (setTk f s).pwr = s.pwr := rfl
@[simp] theorem setTk_srv {f : Tk → Tk} : (setTk f s).srv = s.srv := rfl
@[simp] theorem setTk_spi {f : Tk → Tk} : (setTk f s).spi = s.spi := rfl
@[simp] theorem setTk_t1s {f : Tk → Tk} : (setTk f s).t1s = s.t1s := rfl
@[simp] theorem setTk_plc {f : Tk → Tk} : (setTk f s).plc = s.plc := rfl
@[simp] theorem setTk_tb {f : Tk → Tk} : (setTk f s).tb = s.tb := rfl
@[simp] theorem setTk_dev {f : Tk → Tk} : (setTk f s).dev = s.dev := rfl
@[simp] theorem setTk_ready {f : Tk → Tk} : (setTk f s).ready = s.ready := rfl
@[simp] theorem setTk_ring5 {f : Tk → Tk} : (setTk f s).ring5 = s.ring5 := rfl
@[simp] theorem setTk_staging {f : Tk → Tk} : (setTk f s).staging = s.staging := rfl
@[simp] theorem setTk_sealed {f : Tk → Tk} : (setTk f s).sealed = s.sealed := rfl
@[simp] theorem setTk_current {f : Tk → Tk} : (setTk f s).current = s.current := rfl
@[simp] theorem setTk_previous {f : Tk → Tk} : (setTk f s).previous = s.previous := rfl
@[simp] theorem setTk_pins {f : Tk → Tk} : (setTk f s).pins = s.pins := rfl
@[simp] theorem setTk_jobs {f : Tk → Tk} : (setTk f s).jobs = s.jobs := rfl
@[simp] theorem setTk_rollq {f : Tk → Tk} : (setTk f s).rollq = s.rollq := rfl
@[simp] theorem setTk_pages {f : Tk → Tk} : (setTk f s).pages = s.pages := rfl
@[simp] theorem setTk_seals {f : Tk → Tk} : (setTk f s).seals = s.seals := rfl
@[simp] theorem setTk_units {f : Tk → Tk} : (setTk f s).units = s.units := rfl
@[simp] theorem setTk_draws {f : Tk → Tk} : (setTk f s).draws = s.draws := rfl
@[simp] theorem setTk_pending {f : Tk → Tk} : (setTk f s).pending = s.pending := rfl
@[simp] theorem setTk_get {f : Tk → Tk} {k : Nat} : (setTk f s).get k = s.get k := rfl

/-! ### setC -/

@[simp] theorem setC_fn {c : Nat} {x : BCct} : (setC c x s).fn = s.fn := rfl
@[simp] theorem setC_mode {c : Nat} {x : BCct} : (setC c x s).mode = s.mode := rfl
@[simp] theorem setC_dict {c : Nat} {x : BCct} : (setC c x s).dict = s.dict := rfl
@[simp] theorem setC_commits {c : Nat} {x : BCct} : (setC c x s).commits = s.commits := rfl
@[simp] theorem setC_times {c : Nat} {x : BCct} : (setC c x s).times = s.times := rfl
@[simp] theorem setC_chg {c : Nat} {x : BCct} : (setC c x s).chg = s.chg := rfl
@[simp] theorem setC_due {c : Nat} {x : BCct} : (setC c x s).due = s.due := rfl
@[simp] theorem setC_olds {c : Nat} {x : BCct} : (setC c x s).olds = s.olds := rfl
@[simp] theorem setC_gens {c : Nat} {x : BCct} : (setC c x s).gens = s.gens := rfl
@[simp] theorem setC_acq {c : Nat} {x : BCct} : (setC c x s).acq = s.acq := rfl
@[simp] theorem setC_aln {c : Nat} {x : BCct} : (setC c x s).aln = s.aln := rfl
@[simp] theorem setC_tan {c : Nat} {x : BCct} : (setC c x s).tan = s.tan := rfl
@[simp] theorem setC_cap {c : Nat} {x : BCct} : (setC c x s).cap = s.cap := rfl
@[simp] theorem setC_bill {c : Nat} {x : BCct} : (setC c x s).bill = { s.bill with cct := tset {} s.bill.cct c x } := rfl
@[simp] theorem setC_pulse {c : Nat} {x : BCct} : (setC c x s).pulse = s.pulse := rfl
@[simp] theorem setC_img {c : Nat} {x : BCct} : (setC c x s).img = s.img := rfl
@[simp] theorem setC_tk {c : Nat} {x : BCct} : (setC c x s).tk = s.tk := rfl
@[simp] theorem setC_pwr {c : Nat} {x : BCct} : (setC c x s).pwr = s.pwr := rfl
@[simp] theorem setC_srv {c : Nat} {x : BCct} : (setC c x s).srv = s.srv := rfl
@[simp] theorem setC_spi {c : Nat} {x : BCct} : (setC c x s).spi = s.spi := rfl
@[simp] theorem setC_t1s {c : Nat} {x : BCct} : (setC c x s).t1s = s.t1s := rfl
@[simp] theorem setC_plc {c : Nat} {x : BCct} : (setC c x s).plc = s.plc := rfl
@[simp] theorem setC_tb {c : Nat} {x : BCct} : (setC c x s).tb = s.tb := rfl
@[simp] theorem setC_dev {c : Nat} {x : BCct} : (setC c x s).dev = s.dev := rfl
@[simp] theorem setC_ready {c : Nat} {x : BCct} : (setC c x s).ready = s.ready := rfl
@[simp] theorem setC_ring5 {c : Nat} {x : BCct} : (setC c x s).ring5 = s.ring5 := rfl
@[simp] theorem setC_staging {c : Nat} {x : BCct} : (setC c x s).staging = s.staging := rfl
@[simp] theorem setC_sealed {c : Nat} {x : BCct} : (setC c x s).sealed = s.sealed := rfl
@[simp] theorem setC_current {c : Nat} {x : BCct} : (setC c x s).current = s.current := rfl
@[simp] theorem setC_previous {c : Nat} {x : BCct} : (setC c x s).previous = s.previous := rfl
@[simp] theorem setC_pins {c : Nat} {x : BCct} : (setC c x s).pins = s.pins := rfl
@[simp] theorem setC_jobs {c : Nat} {x : BCct} : (setC c x s).jobs = s.jobs := rfl
@[simp] theorem setC_rollq {c : Nat} {x : BCct} : (setC c x s).rollq = s.rollq := rfl
@[simp] theorem setC_pages {c : Nat} {x : BCct} : (setC c x s).pages = s.pages := rfl
@[simp] theorem setC_seals {c : Nat} {x : BCct} : (setC c x s).seals = s.seals := rfl
@[simp] theorem setC_units {c : Nat} {x : BCct} : (setC c x s).units = s.units := rfl
@[simp] theorem setC_draws {c : Nat} {x : BCct} : (setC c x s).draws = s.draws := rfl
@[simp] theorem setC_pending {c : Nat} {x : BCct} : (setC c x s).pending = s.pending := rfl
@[simp] theorem setC_get {c : Nat} {x : BCct} {k : Nat} : (setC c x s).get k = s.get k := rfl

/-! ### setOut -/

@[simp] theorem setOut_fn {i : Nat} {o : PulseOut} : (setOut i o s).fn = s.fn := rfl
@[simp] theorem setOut_mode {i : Nat} {o : PulseOut} : (setOut i o s).mode = s.mode := rfl
@[simp] theorem setOut_dict {i : Nat} {o : PulseOut} : (setOut i o s).dict = s.dict := rfl
@[simp] theorem setOut_commits {i : Nat} {o : PulseOut} : (setOut i o s).commits = s.commits := rfl
@[simp] theorem setOut_times {i : Nat} {o : PulseOut} : (setOut i o s).times = s.times := rfl
@[simp] theorem setOut_chg {i : Nat} {o : PulseOut} : (setOut i o s).chg = s.chg := rfl
@[simp] theorem setOut_due {i : Nat} {o : PulseOut} : (setOut i o s).due = s.due := rfl
@[simp] theorem setOut_olds {i : Nat} {o : PulseOut} : (setOut i o s).olds = s.olds := rfl
@[simp] theorem setOut_gens {i : Nat} {o : PulseOut} : (setOut i o s).gens = s.gens := rfl
@[simp] theorem setOut_acq {i : Nat} {o : PulseOut} : (setOut i o s).acq = s.acq := rfl
@[simp] theorem setOut_aln {i : Nat} {o : PulseOut} : (setOut i o s).aln = s.aln := rfl
@[simp] theorem setOut_tan {i : Nat} {o : PulseOut} : (setOut i o s).tan = s.tan := rfl
@[simp] theorem setOut_cap {i : Nat} {o : PulseOut} : (setOut i o s).cap = s.cap := rfl
@[simp] theorem setOut_bill {i : Nat} {o : PulseOut} : (setOut i o s).bill = s.bill := rfl
@[simp] theorem setOut_pulse {i : Nat} {o : PulseOut} : (setOut i o s).pulse = { s.pulse with out := tset {} s.pulse.out i o } := rfl
@[simp] theorem setOut_img {i : Nat} {o : PulseOut} : (setOut i o s).img = s.img := rfl
@[simp] theorem setOut_tk {i : Nat} {o : PulseOut} : (setOut i o s).tk = s.tk := rfl
@[simp] theorem setOut_pwr {i : Nat} {o : PulseOut} : (setOut i o s).pwr = s.pwr := rfl
@[simp] theorem setOut_srv {i : Nat} {o : PulseOut} : (setOut i o s).srv = s.srv := rfl
@[simp] theorem setOut_spi {i : Nat} {o : PulseOut} : (setOut i o s).spi = s.spi := rfl
@[simp] theorem setOut_t1s {i : Nat} {o : PulseOut} : (setOut i o s).t1s = s.t1s := rfl
@[simp] theorem setOut_plc {i : Nat} {o : PulseOut} : (setOut i o s).plc = s.plc := rfl
@[simp] theorem setOut_tb {i : Nat} {o : PulseOut} : (setOut i o s).tb = s.tb := rfl
@[simp] theorem setOut_dev {i : Nat} {o : PulseOut} : (setOut i o s).dev = s.dev := rfl
@[simp] theorem setOut_ready {i : Nat} {o : PulseOut} : (setOut i o s).ready = s.ready := rfl
@[simp] theorem setOut_ring5 {i : Nat} {o : PulseOut} : (setOut i o s).ring5 = s.ring5 := rfl
@[simp] theorem setOut_staging {i : Nat} {o : PulseOut} : (setOut i o s).staging = s.staging := rfl
@[simp] theorem setOut_sealed {i : Nat} {o : PulseOut} : (setOut i o s).sealed = s.sealed := rfl
@[simp] theorem setOut_current {i : Nat} {o : PulseOut} : (setOut i o s).current = s.current := rfl
@[simp] theorem setOut_previous {i : Nat} {o : PulseOut} : (setOut i o s).previous = s.previous := rfl
@[simp] theorem setOut_pins {i : Nat} {o : PulseOut} : (setOut i o s).pins = s.pins := rfl
@[simp] theorem setOut_jobs {i : Nat} {o : PulseOut} : (setOut i o s).jobs = s.jobs := rfl
@[simp] theorem setOut_rollq {i : Nat} {o : PulseOut} : (setOut i o s).rollq = s.rollq := rfl
@[simp] theorem setOut_pages {i : Nat} {o : PulseOut} : (setOut i o s).pages = s.pages := rfl
@[simp] theorem setOut_seals {i : Nat} {o : PulseOut} : (setOut i o s).seals = s.seals := rfl
@[simp] theorem setOut_units {i : Nat} {o : PulseOut} : (setOut i o s).units = s.units := rfl
@[simp] theorem setOut_draws {i : Nat} {o : PulseOut} : (setOut i o s).draws = s.draws := rfl
@[simp] theorem setOut_pending {i : Nat} {o : PulseOut} : (setOut i o s).pending = s.pending := rfl
@[simp] theorem setOut_get {i : Nat} {o : PulseOut} {k : Nat} : (setOut i o s).get k = s.get k := rfl

/-! ### setZc -/

@[simp] theorem setZc_fn {v : Nat} {z : Zc} : (setZc v z s).fn = s.fn := rfl
@[simp] theorem setZc_mode {v : Nat} {z : Zc} : (setZc v z s).mode = s.mode := rfl
@[simp] theorem setZc_dict {v : Nat} {z : Zc} : (setZc v z s).dict = s.dict := rfl
@[simp] theorem setZc_commits {v : Nat} {z : Zc} : (setZc v z s).commits = s.commits := rfl
@[simp] theorem setZc_times {v : Nat} {z : Zc} : (setZc v z s).times = s.times := rfl
@[simp] theorem setZc_chg {v : Nat} {z : Zc} : (setZc v z s).chg = s.chg := rfl
@[simp] theorem setZc_due {v : Nat} {z : Zc} : (setZc v z s).due = s.due := rfl
@[simp] theorem setZc_olds {v : Nat} {z : Zc} : (setZc v z s).olds = s.olds := rfl
@[simp] theorem setZc_gens {v : Nat} {z : Zc} : (setZc v z s).gens = s.gens := rfl
@[simp] theorem setZc_acq {v : Nat} {z : Zc} : (setZc v z s).acq = s.acq := rfl
@[simp] theorem setZc_aln {v : Nat} {z : Zc} : (setZc v z s).aln = s.aln := rfl
@[simp] theorem setZc_cap {v : Nat} {z : Zc} : (setZc v z s).cap = s.cap := rfl
@[simp] theorem setZc_bill {v : Nat} {z : Zc} : (setZc v z s).bill = s.bill := rfl
@[simp] theorem setZc_pulse {v : Nat} {z : Zc} : (setZc v z s).pulse = s.pulse := rfl
@[simp] theorem setZc_img {v : Nat} {z : Zc} : (setZc v z s).img = s.img := rfl
@[simp] theorem setZc_tk {v : Nat} {z : Zc} : (setZc v z s).tk = s.tk := rfl
@[simp] theorem setZc_pwr {v : Nat} {z : Zc} : (setZc v z s).pwr = s.pwr := rfl
@[simp] theorem setZc_srv {v : Nat} {z : Zc} : (setZc v z s).srv = s.srv := rfl
@[simp] theorem setZc_spi {v : Nat} {z : Zc} : (setZc v z s).spi = s.spi := rfl
@[simp] theorem setZc_t1s {v : Nat} {z : Zc} : (setZc v z s).t1s = s.t1s := rfl
@[simp] theorem setZc_plc {v : Nat} {z : Zc} : (setZc v z s).plc = s.plc := rfl
@[simp] theorem setZc_tb {v : Nat} {z : Zc} : (setZc v z s).tb = s.tb := rfl
@[simp] theorem setZc_dev {v : Nat} {z : Zc} : (setZc v z s).dev = s.dev := rfl
@[simp] theorem setZc_ready {v : Nat} {z : Zc} : (setZc v z s).ready = s.ready := rfl
@[simp] theorem setZc_ring5 {v : Nat} {z : Zc} : (setZc v z s).ring5 = s.ring5 := rfl
@[simp] theorem setZc_staging {v : Nat} {z : Zc} : (setZc v z s).staging = s.staging := rfl
@[simp] theorem setZc_sealed {v : Nat} {z : Zc} : (setZc v z s).sealed = s.sealed := rfl
@[simp] theorem setZc_current {v : Nat} {z : Zc} : (setZc v z s).current = s.current := rfl
@[simp] theorem setZc_previous {v : Nat} {z : Zc} : (setZc v z s).previous = s.previous := rfl
@[simp] theorem setZc_pins {v : Nat} {z : Zc} : (setZc v z s).pins = s.pins := rfl
@[simp] theorem setZc_jobs {v : Nat} {z : Zc} : (setZc v z s).jobs = s.jobs := rfl
@[simp] theorem setZc_rollq {v : Nat} {z : Zc} : (setZc v z s).rollq = s.rollq := rfl
@[simp] theorem setZc_pages {v : Nat} {z : Zc} : (setZc v z s).pages = s.pages := rfl
@[simp] theorem setZc_seals {v : Nat} {z : Zc} : (setZc v z s).seals = s.seals := rfl
@[simp] theorem setZc_units {v : Nat} {z : Zc} : (setZc v z s).units = s.units := rfl
@[simp] theorem setZc_draws {v : Nat} {z : Zc} : (setZc v z s).draws = s.draws := rfl
@[simp] theorem setZc_pending {v : Nat} {z : Zc} : (setZc v z s).pending = s.pending := rfl
@[simp] theorem setZc_get {v : Nat} {z : Zc} {k : Nat} : (setZc v z s).get k = s.get k := rfl

/-! ### drop5 -/

@[simp] theorem drop5_fn : (drop5 s).fn = s.fn := rfl
@[simp] theorem drop5_mode : (drop5 s).mode = s.mode := rfl
@[simp] theorem drop5_dict : (drop5 s).dict = s.dict := rfl
@[simp] theorem drop5_commits : (drop5 s).commits = s.commits := rfl
@[simp] theorem drop5_times : (drop5 s).times = s.times := rfl
@[simp] theorem drop5_chg : (drop5 s).chg = s.chg := rfl
@[simp] theorem drop5_due : (drop5 s).due = s.due := rfl
@[simp] theorem drop5_olds : (drop5 s).olds = s.olds := rfl
@[simp] theorem drop5_gens : (drop5 s).gens = s.gens := rfl
@[simp] theorem drop5_acq : (drop5 s).acq = s.acq := rfl
@[simp] theorem drop5_aln : (drop5 s).aln = s.aln := rfl
@[simp] theorem drop5_tan : (drop5 s).tan = s.tan := rfl
@[simp] theorem drop5_cap : (drop5 s).cap = s.cap := rfl
@[simp] theorem drop5_bill : (drop5 s).bill = s.bill := rfl
@[simp] theorem drop5_pulse : (drop5 s).pulse = s.pulse := rfl
@[simp] theorem drop5_img : (drop5 s).img = s.img := rfl
@[simp] theorem drop5_tk : (drop5 s).tk = s.tk := rfl
@[simp] theorem drop5_pwr : (drop5 s).pwr = s.pwr := rfl
@[simp] theorem drop5_srv : (drop5 s).srv = s.srv := rfl
@[simp] theorem drop5_spi : (drop5 s).spi = s.spi := rfl
@[simp] theorem drop5_t1s : (drop5 s).t1s = s.t1s := rfl
@[simp] theorem drop5_plc : (drop5 s).plc = s.plc := rfl
@[simp] theorem drop5_tb : (drop5 s).tb = s.tb := rfl
@[simp] theorem drop5_dev : (drop5 s).dev = s.dev := rfl
@[simp] theorem drop5_ready : (drop5 s).ready = s.ready := rfl
@[simp] theorem drop5_ring5 : (drop5 s).ring5 = s.ring5.drop 1 := rfl
@[simp] theorem drop5_staging : (drop5 s).staging = s.staging := rfl
@[simp] theorem drop5_sealed : (drop5 s).sealed = s.sealed := rfl
@[simp] theorem drop5_current : (drop5 s).current = s.current := rfl
@[simp] theorem drop5_previous : (drop5 s).previous = s.previous := rfl
@[simp] theorem drop5_pins : (drop5 s).pins = s.pins := rfl
@[simp] theorem drop5_jobs : (drop5 s).jobs = s.jobs := rfl
@[simp] theorem drop5_rollq : (drop5 s).rollq = s.rollq := rfl
@[simp] theorem drop5_pages : (drop5 s).pages = s.pages := rfl
@[simp] theorem drop5_seals : (drop5 s).seals = s.seals := rfl
@[simp] theorem drop5_units : (drop5 s).units = s.units := rfl
@[simp] theorem drop5_draws : (drop5 s).draws = s.draws := rfl
@[simp] theorem drop5_pending : (drop5 s).pending = s.pending := rfl
@[simp] theorem drop5_get {k : Nat} : (drop5 s).get k = s.get k := rfl

/-! ### setHand -/

@[simp] theorem setHand_fn {h : Option Handover} : (setHand h s).fn = s.fn := rfl
@[simp] theorem setHand_mode {h : Option Handover} : (setHand h s).mode = s.mode := rfl
@[simp] theorem setHand_dict {h : Option Handover} : (setHand h s).dict = s.dict := rfl
@[simp] theorem setHand_commits {h : Option Handover} : (setHand h s).commits = s.commits := rfl
@[simp] theorem setHand_times {h : Option Handover} : (setHand h s).times = s.times := rfl
@[simp] theorem setHand_chg {h : Option Handover} : (setHand h s).chg = s.chg := rfl
@[simp] theorem setHand_due {h : Option Handover} : (setHand h s).due = s.due := rfl
@[simp] theorem setHand_olds {h : Option Handover} : (setHand h s).olds = s.olds := rfl
@[simp] theorem setHand_gens {h : Option Handover} : (setHand h s).gens = s.gens := rfl
@[simp] theorem setHand_acq {h : Option Handover} : (setHand h s).acq = s.acq := rfl
@[simp] theorem setHand_aln {h : Option Handover} : (setHand h s).aln = s.aln := rfl
@[simp] theorem setHand_tan {h : Option Handover} : (setHand h s).tan = s.tan := rfl
@[simp] theorem setHand_cap {h : Option Handover} : (setHand h s).cap = s.cap := rfl
@[simp] theorem setHand_bill {h : Option Handover} : (setHand h s).bill = s.bill := rfl
@[simp] theorem setHand_pulse {h : Option Handover} : (setHand h s).pulse = s.pulse := rfl
@[simp] theorem setHand_img {h : Option Handover} : (setHand h s).img = { s.img with hand := h } := rfl
@[simp] theorem setHand_tk {h : Option Handover} : (setHand h s).tk = s.tk := rfl
@[simp] theorem setHand_pwr {h : Option Handover} : (setHand h s).pwr = s.pwr := rfl
@[simp] theorem setHand_srv {h : Option Handover} : (setHand h s).srv = s.srv := rfl
@[simp] theorem setHand_spi {h : Option Handover} : (setHand h s).spi = s.spi := rfl
@[simp] theorem setHand_t1s {h : Option Handover} : (setHand h s).t1s = s.t1s := rfl
@[simp] theorem setHand_plc {h : Option Handover} : (setHand h s).plc = s.plc := rfl
@[simp] theorem setHand_tb {h : Option Handover} : (setHand h s).tb = s.tb := rfl
@[simp] theorem setHand_dev {h : Option Handover} : (setHand h s).dev = s.dev := rfl
@[simp] theorem setHand_ready {h : Option Handover} : (setHand h s).ready = s.ready := rfl
@[simp] theorem setHand_ring5 {h : Option Handover} : (setHand h s).ring5 = s.ring5 := rfl
@[simp] theorem setHand_staging {h : Option Handover} : (setHand h s).staging = s.staging := rfl
@[simp] theorem setHand_sealed {h : Option Handover} : (setHand h s).sealed = s.sealed := rfl
@[simp] theorem setHand_current {h : Option Handover} : (setHand h s).current = s.current := rfl
@[simp] theorem setHand_previous {h : Option Handover} : (setHand h s).previous = s.previous := rfl
@[simp] theorem setHand_pins {h : Option Handover} : (setHand h s).pins = s.pins := rfl
@[simp] theorem setHand_jobs {h : Option Handover} : (setHand h s).jobs = s.jobs := rfl
@[simp] theorem setHand_rollq {h : Option Handover} : (setHand h s).rollq = s.rollq := rfl
@[simp] theorem setHand_pages {h : Option Handover} : (setHand h s).pages = s.pages := rfl
@[simp] theorem setHand_seals {h : Option Handover} : (setHand h s).seals = s.seals := rfl
@[simp] theorem setHand_units {h : Option Handover} : (setHand h s).units = s.units := rfl
@[simp] theorem setHand_draws {h : Option Handover} : (setHand h s).draws = s.draws := rfl
@[simp] theorem setHand_pending {h : Option Handover} : (setHand h s).pending = s.pending := rfl
@[simp] theorem setHand_get {h : Option Handover} {k : Nat} : (setHand h s).get k = s.get k := rfl

end Sys2Proof.Machine
end

