-- ==== Sys2Proof/Laws/Objects.lean ====
section
/-! SUPPORT. Laws of the object dictionary: a read after a write, and which objects the shared operations leave alone. -/

namespace Sys2Proof.Machine

variable {s : State}

/-- An object that was written reads as written. -/
theorem get_put_self {k v : Nat} : (s.put k v).get k = v := by
  unfold State.get State.put
  dsimp only
  by_cases e : v = oDefault k
  · rw [if_pos e, tlook_tdel]; exact e.symm
  · rw [if_neg e, tlook_tins, if_pos rfl]

/-- Another object reads as before. -/
theorem get_put_ne {j k v : Nat} (h : k ≠ j) : (s.put k v).get j = s.get j := by
  unfold State.get State.put
  dsimp only
  by_cases e : v = oDefault k
  · rw [if_pos e, tlook_tdel_ne h]
  · rw [if_neg e, tlook_tins, if_neg h]

/-- The canonical form after a write. -/
theorem put_wf {k v : Nat} (w : dictWf s.dict = true) : dictWf (s.put k v).dict = true := dictWf_put w

/-- A read depends on the dictionary alone. -/
theorem get_of_dict {s t : State} (e : t.dict = s.dict) (k : Nat) : t.get k = s.get k := by
  unfold State.get; rw [e]

theorem get_bump_self {k : Nat} : (s.bump k).get k = (s.get k + 1) % 2 ^ oBits k := get_put_self

theorem get_bump_ne {j k : Nat} (h : k ≠ j) : (s.bump k).get j = s.get j := get_put_ne h

theorem bump_wf {k : Nat} (w : dictWf s.dict = true) : dictWf (s.bump k).dict = true := dictWf_put w

/-- The live value of an object stands at a key of its own. -/
theorem live_put_ne {j k v : Nat} (h : k ≠ liveKey j) : (s.put k v).live j = s.live j := get_put_ne h

theorem live_putLive_self {k v : Nat} : (s.putLive k v).live k = v := by
  unfold State.putLive
  split
  · assumption
  · exact get_put_self

theorem get_putLive_ne {j k v : Nat} (h : liveKey k ≠ j) : (s.putLive k v).get j = s.get j := by
  unfold State.putLive
  split
  · rfl
  · exact get_put_ne h

theorem live_putLive_ne {j k v : Nat} (h : k ≠ j) : (s.putLive k v).live j = s.live j :=
  get_putLive_ne (fun e => h (by unfold liveKey at e; omega))

theorem putLive_wf {k v : Nat} (w : dictWf s.dict = true) : dictWf (s.putLive k v).dict = true := by
  unfold State.putLive
  split
  · exact w
  · exact dictWf_put w

theorem get_putDue_ne {f j k v : Nat} (h : liveKey k ≠ j) : (s.putDue f k v).get j = s.get j := by
  unfold State.putDue
  split
  · rfl
  · exact get_put_ne h

theorem live_putDue_self {f k v : Nat} : (s.putDue f k v).live k = v := by
  unfold State.putDue
  split
  · assumption
  · exact get_put_self

theorem putDue_wf {f k v : Nat} (w : dictWf s.dict = true) : dictWf (s.putDue f k v).dict = true := by
  unfold State.putDue
  split
  · exact w
  · exact dictWf_put w

theorem get_putV_self {k v : Nat} : (s.putV k v).get k = v := by
  unfold State.putV
  split
  · assumption
  · exact get_put_self

theorem get_putV_ne {j k v : Nat} (h : k ≠ j) : (s.putV k v).get j = s.get j := by
  unfold State.putV
  split
  · rfl
  · exact get_put_ne h

theorem putV_wf {k v : Nat} (w : dictWf s.dict = true) : dictWf (s.putV k v).dict = true := by
  unfold State.putV
  split
  · exact w
  · exact dictWf_put w

/-- An event changes no object but the two that count lost events. -/
theorem get_eventAt {f c j : Nat} {l : List Nat} (h1 : K.stalls 5 ≠ j) (h2 : K.eventsLost ≠ j) : (s.eventAt f c l).get j = s.get j := by
  unfold State.eventAt
  split
  · rfl
  · rw [get_bump_ne h2, get_bump_ne h1]

theorem eventAt_wf {f c : Nat} {l : List Nat} (w : dictWf s.dict = true) : dictWf (s.eventAt f c l).dict = true := by
  unfold State.eventAt
  split
  · exact w
  · exact bump_wf (bump_wf w)

/-- With room in RING-5 an event only enters it. -/
theorem eventAt_room {f c : Nat} {l : List Nat} (h : s.ring5.length < 1024) :
    s.eventAt f c l = { s with ring5 := s.ring5 ++ [{ code := c, fields := l, fn := f, time := s.timeOf f }] } := by
  unfold State.eventAt
  rw [if_pos h]

end Sys2Proof.Machine
end

