-- ==== Sys2Proof/WellFormed.lean ====
section
/-! DEFINITION. Well-formed commands: operands that the pins, converters and stores can hand over.  A meaning never depends on
this: a list that is too short reads as 0. -/

namespace Sys2Proof

/-- The converter of a lane yields 128 codes of 18 bits, and a parity mark for each (R46, R47). -/
def LaneConv.wf (l : LaneConv) : Bool :=
  decide (l.codes.length = 128) && decide (l.parity.length = 128) &&
  l.codes.all (fun c => decide (-131072 ≤ c) && decide (c ≤ 131071))

/-- In a pass of a Gecko scan a lane converts at most 88 slots, each with its parity mark (R70). -/
def LaneConv.wfGecko (l : LaneConv) : Bool :=
  decide (l.codes.length ≤ 88) && decide (l.parity.length = l.codes.length) &&
  l.codes.all (fun c => decide (-131072 ≤ c) && decide (c ≤ 131071))

/-- A Gecko scan has 256 passes of 32 lanes, and names existing inputs. -/
def GeckoData.wf (d : GeckoData) : Bool :=
  decide (d.passes.length = 256) && d.passes.all (fun p => decide (p.length = 32) && p.all LaneConv.wfGecko) &&
  d.present.all (fun v => decide (v < 12))

/-- A datagram has addresses and ports of their widths. -/
def Datagram.wf (d : Datagram) : Bool :=
  decide (d.src < 2 ^ 128) && decide (d.dst < 2 ^ 128) && decide (d.srcPort < 65536) && decide (d.dstPort < 65536)

/-- An announcement has fields of their widths (Table 11.5). -/
def Announcement.wf (a : Announcement) : Bool :=
  decide (a.sender < 65536) && decide (a.lqi < 256) && decide (a.depth < 256) && decide (a.cycle < 2 ^ 48) && decide (a.wall < 2 ^ 64) &&
  decide (a.leader < 2 ^ 64) && decide (a.seq < 65536)

/-- The datagrams that a MAC frame carries are well formed. -/
def PlcKind.wf : PlcKind → Bool
  | .datagram d => d.wf
  | .fragment d _ _ _ => d.wf
  | _ => true

/-- Well-formedness of a command. -/
def Instr.wf : Instr → Bool
  | .samplePeriod lanes volts =>
    decide (lanes.length = 32) && decide (volts.length = 12) && lanes.all LaneConv.wf
  | .geckoScan d => d.wf
  | .t1sDatagramReceive d => d.wf
  | .announcementReceive a => a.wf
  | .plcFrameReceive f => decide (f.sender < 65536) && decide (f.lqi < 256) && f.kind.wf
  | .plcJoin (.joined short) => decide (short < 65536)
  | .plcJoin (.beacons found) => found.all (fun b => decide (b.pan < 65536) && decide (b.lba < 65536) && decide (b.cost < 65536))
  | .neighbourSolicitation target src mac => decide (target < 2 ^ 128) && decide (src < 2 ^ 128) && decide (mac < 2 ^ 48)
  | .echoRequest src => decide (src < 2 ^ 128)
  | _ => true

end Sys2Proof
end

