-- ==== Sys2Proof/Laws/PerInstr.lean ====
section
/-! SUPPORT. Well-formedness of each command, spelled out: what its operands are when `Instr.wf` accepts it. -/

namespace Sys2Proof.Laws.WellFormed

/-- What well-formed operands are, in terms of the pins, converters, addresses and stores that hand them over. -/
def bounds : Instr → Prop
  | .samplePeriod lanes volts => lanes.length = 32 ∧ volts.length = 12 ∧
      ∀ l ∈ lanes, l.codes.length = 128 ∧ l.parity.length = 128 ∧ ∀ c ∈ l.codes, -131072 ≤ c ∧ c ≤ 131071
  | .geckoScan d => d.passes.length = 256 ∧ (∀ p ∈ d.passes, p.length = 32 ∧
      ∀ l ∈ p, l.codes.length ≤ 88 ∧ l.parity.length = l.codes.length ∧ ∀ c ∈ l.codes, -131072 ≤ c ∧ c ≤ 131071) ∧
      ∀ v ∈ d.present, v < 12
  | .t1sDatagramReceive d => d.src < 2 ^ 128 ∧ d.dst < 2 ^ 128 ∧ d.srcPort < 65536 ∧ d.dstPort < 65536
  | .announcementReceive a => a.sender < 65536 ∧ a.lqi < 256 ∧ a.depth < 256 ∧ a.cycle < 2 ^ 48 ∧ a.wall < 2 ^ 64 ∧ a.leader < 2 ^ 64 ∧ a.seq < 65536
  | .plcFrameReceive f => f.sender < 65536 ∧ f.lqi < 256 ∧ f.kind.wf = true
  | .plcJoin (.joined short) => short < 65536
  | .plcJoin (.beacons found) => ∀ b ∈ found, b.pan < 65536 ∧ b.lba < 65536 ∧ b.cost < 65536
  | .neighbourSolicitation target src mac => target < 2 ^ 128 ∧ src < 2 ^ 128 ∧ mac < 2 ^ 48
  | .echoRequest src => src < 2 ^ 128
  | _ => True

/-- A command is well formed exactly when its operands are within those bounds. -/
def Statement (i : Instr) : Prop := i.wf = true ↔ bounds i

theorem frameTick (calEn : Bool) : Statement (.frameTick calEn) := ⟨fun _ => trivial, fun _ => rfl⟩
theorem calStateChange : Statement (.calStateChange) := ⟨fun _ => trivial, fun _ => rfl⟩
theorem samplePeriod (lanes : List LaneConv) (volts : List VoltConv) : Statement (.samplePeriod lanes volts) := by
  simp [Statement, bounds, Instr.wf, LaneConv.wf, and_assoc]
theorem rangeCrossingTimeout (ch : Fin 256) : Statement (.rangeCrossingTimeout ch) := ⟨fun _ => trivial, fun _ => rfl⟩
theorem alignerSample : Statement (.alignerSample) := ⟨fun _ => trivial, fun _ => rfl⟩
theorem laneTakeover (lane : Fin 32) : Statement (.laneTakeover lane) := ⟨fun _ => trivial, fun _ => rfl⟩
theorem tanneryFrameCompute (cyc0 cyc1 : Nat) : Statement (.tanneryFrameCompute cyc0 cyc1) := ⟨fun _ => trivial, fun _ => rfl⟩
theorem halfCycleTimeout (v : Fin 12) : Statement (.halfCycleTimeout v) := ⟨fun _ => trivial, fun _ => rfl⟩
theorem harmonicWindowClose (inp : Input) : Statement (.harmonicWindowClose inp) := ⟨fun _ => trivial, fun _ => rfl⟩
theorem freq10sIntervalEnd : Statement (.freq10sIntervalEnd) := ⟨fun _ => trivial, fun _ => rfl⟩
theorem hallmarkAccrue (cyc : Nat) : Statement (.hallmarkAccrue cyc) := ⟨fun _ => trivial, fun _ => rfl⟩
theorem directionChange (c : Fin 256) : Statement (.directionChange c) := ⟨fun _ => trivial, fun _ => rfl⟩
theorem balanceRate : Statement (.balanceRate) := ⟨fun _ => trivial, fun _ => rfl⟩
theorem healthCheckPass : Statement (.healthCheckPass) := ⟨fun _ => trivial, fun _ => rfl⟩
theorem publisherSeal : Statement (.publisherSeal) := ⟨fun _ => trivial, fun _ => rfl⟩
theorem ringCreditAvailable (ring : Fin 16) (port : Port) : Statement (.ringCreditAvailable ring port) := ⟨fun _ => trivial, fun _ => rfl⟩
theorem commitTakesEffect : Statement (.commitTakesEffect) := ⟨fun _ => trivial, fun _ => rfl⟩
theorem pinExpiry (txn : Nat) : Statement (.pinExpiry txn) := ⟨fun _ => trivial, fun _ => rfl⟩
theorem txnTimeout (txn : Nat) : Statement (.txnTimeout txn) := ⟨fun _ => trivial, fun _ => rfl⟩
theorem requestParse (port : Port) : Statement (.requestParse port) := ⟨fun _ => trivial, fun _ => rfl⟩
theorem requestStartDeferred (slot : Fin 48) : Statement (.requestStartDeferred slot) := ⟨fun _ => trivial, fun _ => rfl⟩
theorem continuationTimeout (slot : Fin 48) : Statement (.continuationTimeout slot) := ⟨fun _ => trivial, fun _ => rfl⟩
theorem responseEnqueue (port : Port) : Statement (.responseEnqueue port) := ⟨fun _ => trivial, fun _ => rfl⟩
theorem read (slot : Fin 48) : Statement (.read slot) := ⟨fun _ => trivial, fun _ => rfl⟩
theorem readSet (slot : Fin 48) : Statement (.readSet slot) := ⟨fun _ => trivial, fun _ => rfl⟩
theorem readSigned (slot : Fin 48) : Statement (.readSigned slot) := ⟨fun _ => trivial, fun _ => rfl⟩
theorem write (slot : Fin 48) : Statement (.write slot) := ⟨fun _ => trivial, fun _ => rfl⟩
theorem begin_ (slot : Fin 48) : Statement (.begin_ slot) := ⟨fun _ => trivial, fun _ => rfl⟩
theorem commit (slot : Fin 48) : Statement (.commit slot) := ⟨fun _ => trivial, fun _ => rfl⟩
theorem rollback (slot : Fin 48) : Statement (.rollback slot) := ⟨fun _ => trivial, fun _ => rfl⟩
theorem subscribe (slot : Fin 48) : Statement (.subscribe slot) := ⟨fun _ => trivial, fun _ => rfl⟩
theorem unsubscribe (slot : Fin 48) : Statement (.unsubscribe slot) := ⟨fun _ => trivial, fun _ => rfl⟩
theorem helloStep1 (port : Port) : Statement (.helloStep1 port) := ⟨fun _ => trivial, fun _ => rfl⟩
theorem helloStep2 (port : Port) : Statement (.helloStep2 port) := ⟨fun _ => trivial, fun _ => rfl⟩
theorem handshakeExpiry (i : Fin 8) : Statement (.handshakeExpiry i) := ⟨fun _ => trivial, fun _ => rfl⟩
theorem sessionTimeout (k : Fin 16) : Statement (.sessionTimeout k) := ⟨fun _ => trivial, fun _ => rfl⟩
theorem unknownOpcode (slot : Fin 48) : Statement (.unknownOpcode slot) := ⟨fun _ => trivial, fun _ => rfl⟩
theorem timeSet (slot : Fin 48) : Statement (.timeSet slot) := ⟨fun _ => trivial, fun _ => rfl⟩
theorem clockStepApply : Statement (.clockStepApply) := ⟨fun _ => trivial, fun _ => rfl⟩
theorem captureNow (slot : Fin 48) : Statement (.captureNow slot) := ⟨fun _ => trivial, fun _ => rfl⟩
theorem captureComplete : Statement (.captureComplete) := ⟨fun _ => trivial, fun _ => rfl⟩
theorem captureHoldoffExpiry : Statement (.captureHoldoffExpiry) := ⟨fun _ => trivial, fun _ => rfl⟩
theorem closeNow (slot : Fin 48) : Statement (.closeNow slot) := ⟨fun _ => trivial, fun _ => rfl⟩
theorem boundaryFrame : Statement (.boundaryFrame) := ⟨fun _ => trivial, fun _ => rfl⟩
theorem profileIntervalEnd : Statement (.profileIntervalEnd) := ⟨fun _ => trivial, fun _ => rfl⟩
theorem forcedRollComplete : Statement (.forcedRollComplete) := ⟨fun _ => trivial, fun _ => rfl⟩
theorem staleEnter : Statement (.staleEnter) := ⟨fun _ => trivial, fun _ => rfl⟩
theorem wiringCheck : Statement (.wiringCheck) := ⟨fun _ => trivial, fun _ => rfl⟩
theorem hostTokenWrite (slot : Fin 48) : Statement (.hostTokenWrite slot) := ⟨fun _ => trivial, fun _ => rfl⟩
theorem resume (slot : Fin 48) : Statement (.resume slot) := ⟨fun _ => trivial, fun _ => rfl⟩
theorem reinstate (slot : Fin 48) : Statement (.reinstate slot) := ⟨fun _ => trivial, fun _ => rfl⟩
theorem pulseStart (i : Fin 8) : Statement (.pulseStart i) := ⟨fun _ => trivial, fun _ => rfl⟩
theorem pulseEnd (i : Fin 8) : Statement (.pulseEnd i) := ⟨fun _ => trivial, fun _ => rfl⟩
theorem channelCheck (ch : Fin 256) : Statement (.channelCheck ch) := ⟨fun _ => trivial, fun _ => rfl⟩
theorem channelExtraCheck (ch : Fin 256) (cmMv : Int) : Statement (.channelExtraCheck ch cmMv) := ⟨fun _ => trivial, fun _ => rfl⟩
theorem voltageCheck (v : Fin 12) (cmMv : Int) : Statement (.voltageCheck v cmMv) := ⟨fun _ => trivial, fun _ => rfl⟩
theorem modulatorInstability (v : Fin 12) : Statement (.modulatorInstability v) := ⟨fun _ => trivial, fun _ => rfl⟩
theorem portWatchdog (port : Port) (selfTest : Bool) : Statement (.portWatchdog port selfTest) := ⟨fun _ => trivial, fun _ => rfl⟩
theorem routeRetire (j : Fin 64) : Statement (.routeRetire j) := ⟨fun _ => trivial, fun _ => rfl⟩
theorem spiPut (bytes : Bytes) : Statement (.spiPut bytes) := ⟨fun _ => trivial, fun _ => rfl⟩
theorem spiTake (clocked : Nat) : Statement (.spiTake clocked) := ⟨fun _ => trivial, fun _ => rfl⟩
theorem spiStatus : Statement (.spiStatus) := ⟨fun _ => trivial, fun _ => rfl⟩
theorem spiClear (mask : BitVec 16) : Statement (.spiClear mask) := ⟨fun _ => trivial, fun _ => rfl⟩
theorem spiReservedCommand (cmd : Byte) : Statement (.spiReservedCommand cmd) := ⟨fun _ => trivial, fun _ => rfl⟩
theorem csCollision : Statement (.csCollision) := ⟨fun _ => trivial, fun _ => rfl⟩
theorem legacyRead (addr : BitVec 11) (count : Fin 16) : Statement (.legacyRead addr count) := ⟨fun _ => trivial, fun _ => rfl⟩
theorem legacyWriteEvents (w : BitVec 24) : Statement (.legacyWriteEvents w) := ⟨fun _ => trivial, fun _ => rfl⟩
theorem legacyWriteEventMask (w : BitVec 24) : Statement (.legacyWriteEventMask w) := ⟨fun _ => trivial, fun _ => rfl⟩
theorem legacyWriteIgnored (addr : BitVec 11) (w : BitVec 24) : Statement (.legacyWriteIgnored addr w) := ⟨fun _ => trivial, fun _ => rfl⟩
theorem t1sDatagramReceive (d : Datagram) : Statement (.t1sDatagramReceive d) := by
  simp [Statement, bounds, Instr.wf, Datagram.wf, and_assoc]
theorem neighbourSolicitation (target src mac : Nat) : Statement (.neighbourSolicitation target src mac) := by
  simp [Statement, bounds, Instr.wf, and_assoc]
theorem echoRequest (src : Nat) : Statement (.echoRequest src) := by
  simp [Statement, bounds, Instr.wf]
theorem duplicateAddressDetection (unicast duplicate : Bool) : Statement (.duplicateAddressDetection unicast duplicate) := ⟨fun _ => trivial, fun _ => rfl⟩
theorem bridleNetworkFrame (port : Port) : Statement (.bridleNetworkFrame port) := ⟨fun _ => trivial, fun _ => rfl⟩
theorem t1sPowerDown : Statement (.t1sPowerDown) := ⟨fun _ => trivial, fun _ => rfl⟩
theorem endSession (slot : Fin 48) : Statement (.endSession slot) := ⟨fun _ => trivial, fun _ => rfl⟩
theorem plcFrameReceive (f : PlcFrame) : Statement (.plcFrameReceive f) := by
  simp [Statement, bounds, Instr.wf, and_assoc]
theorem plcJoin (r : JoinResult) : Statement (.plcJoin r) := by
  cases r <;> simp [Statement, bounds, Instr.wf, and_assoc]
theorem joinRetry : Statement (.joinRetry) := ⟨fun _ => trivial, fun _ => rfl⟩
theorem plcTxComplete (acked : Bool) (retries : Fin 6) : Statement (.plcTxComplete acked retries) := ⟨fun _ => trivial, fun _ => rfl⟩
theorem routeWaitExpiry : Statement (.routeWaitExpiry) := ⟨fun _ => trivial, fun _ => rfl⟩
theorem toneMapRefresh (j : Fin 64) : Statement (.toneMapRefresh j) := ⟨fun _ => trivial, fun _ => rfl⟩
theorem announceSend : Statement (.announceSend) := ⟨fun _ => trivial, fun _ => rfl⟩
theorem announceAbandon : Statement (.announceAbandon) := ⟨fun _ => trivial, fun _ => rfl⟩
theorem announcementReceive (a : Announcement) : Statement (.announcementReceive a) := by
  simp [Statement, bounds, Instr.wf, Announcement.wf, and_assoc]
theorem tbHoldoverExpiry : Statement (.tbHoldoverExpiry) := ⟨fun _ => trivial, fun _ => rfl⟩
theorem cycleMap (slot : Fin 48) : Statement (.cycleMap slot) := ⟨fun _ => trivial, fun _ => rfl⟩
theorem repeaterOfferChange : Statement (.repeaterOfferChange) := ⟨fun _ => trivial, fun _ => rfl⟩
theorem routeHoldExpiry : Statement (.routeHoldExpiry) := ⟨fun _ => trivial, fun _ => rfl⟩
theorem strangerBlock (mv : Nat) : Statement (.strangerBlock mv) := ⟨fun _ => trivial, fun _ => rfl⟩
theorem strangerForced : Statement (.strangerForced) := ⟨fun _ => trivial, fun _ => rfl⟩
theorem pageStoreComplete (verified : Bool) : Statement (.pageStoreComplete verified) := ⟨fun _ => trivial, fun _ => rfl⟩
theorem rollPosition : Statement (.rollPosition) := ⟨fun _ => trivial, fun _ => rfl⟩
theorem bgStore : Statement (.bgStore) := ⟨fun _ => trivial, fun _ => rfl⟩
theorem tackroomOpComplete (verified : Bool) : Statement (.tackroomOpComplete verified) := ⟨fun _ => trivial, fun _ => rfl⟩
theorem eventLogWrite : Statement (.eventLogWrite) := ⟨fun _ => trivial, fun _ => rfl⟩
theorem scrub (weakFrames weakSectors : List Nat) : Statement (.scrub weakFrames weakSectors) := ⟨fun _ => trivial, fun _ => rfl⟩
theorem backup : Statement (.backup) := ⟨fun _ => trivial, fun _ => rfl⟩
theorem backupNow (slot : Fin 48) : Statement (.backupNow slot) := ⟨fun _ => trivial, fun _ => rfl⟩
theorem pageRead (slot : Fin 48) : Statement (.pageRead slot) := ⟨fun _ => trivial, fun _ => rfl⟩
theorem pageWrite (slot : Fin 48) : Statement (.pageWrite slot) := ⟨fun _ => trivial, fun _ => rfl⟩
theorem restore (slot : Fin 48) : Statement (.restore slot) := ⟨fun _ => trivial, fun _ => rfl⟩
theorem twinWrite (slot : Fin 48) : Statement (.twinWrite slot) := ⟨fun _ => trivial, fun _ => rfl⟩
theorem resolve (slot : Fin 48) : Statement (.resolve slot) := ⟨fun _ => trivial, fun _ => rfl⟩
theorem hjWrite (slot : Fin 48) : Statement (.hjWrite slot) := ⟨fun _ => trivial, fun _ => rfl⟩
theorem hjRead (slot : Fin 48) : Statement (.hjRead slot) := ⟨fun _ => trivial, fun _ => rfl⟩
theorem tkRead (slot : Fin 48) : Statement (.tkRead slot) := ⟨fun _ => trivial, fun _ => rfl⟩
theorem eventRead (slot : Fin 48) : Statement (.eventRead slot) := ⟨fun _ => trivial, fun _ => rfl⟩
theorem keyCommand (slot : Fin 48) : Statement (.keyCommand slot) := ⟨fun _ => trivial, fun _ => rfl⟩
theorem updateOpen (slot : Fin 48) : Statement (.updateOpen slot) := ⟨fun _ => trivial, fun _ => rfl⟩
theorem writeBlock (slot : Fin 48) : Statement (.writeBlock slot) := ⟨fun _ => trivial, fun _ => rfl⟩
theorem verify (slot : Fin 48) : Statement (.verify slot) := ⟨fun _ => trivial, fun _ => rfl⟩
theorem activate (slot : Fin 48) : Statement (.activate slot) := ⟨fun _ => trivial, fun _ => rfl⟩
theorem abort (slot : Fin 48) : Statement (.abort slot) := ⟨fun _ => trivial, fun _ => rfl⟩
theorem leaseExpiry : Statement (.leaseExpiry) := ⟨fun _ => trivial, fun _ => rfl⟩
theorem handoverPrepared (ok : Bool) : Statement (.handoverPrepared ok) := ⟨fun _ => trivial, fun _ => rfl⟩
theorem handoverQuiesce : Statement (.handoverQuiesce) := ⟨fun _ => trivial, fun _ => rfl⟩
theorem handoverAtB : Statement (.handoverAtB) := ⟨fun _ => trivial, fun _ => rfl⟩
theorem handoverBankSwitch : Statement (.handoverBankSwitch) := ⟨fun _ => trivial, fun _ => rfl⟩
theorem imageRevert : Statement (.imageRevert) := ⟨fun _ => trivial, fun _ => rfl⟩
theorem operationalCoreReady : Statement (.operationalCoreReady) := ⟨fun _ => trivial, fun _ => rfl⟩
theorem powerGood (p : PowerGood) : Statement (.powerGood p) := ⟨fun _ => trivial, fun _ => rfl⟩
theorem holdOk (chargeUs : Nat) : Statement (.holdOk chargeUs) := ⟨fun _ => trivial, fun _ => rfl⟩
theorem holdFault (mv : Nat) : Statement (.holdFault mv) := ⟨fun _ => trivial, fun _ => rfl⟩
theorem billingResume : Statement (.billingResume) := ⟨fun _ => trivial, fun _ => rfl⟩
theorem warmReset (watchdog : Bool) (recover : Bool) : Statement (.warmReset watchdog recover) := ⟨fun _ => trivial, fun _ => rfl⟩
theorem powerFailWarning (us : Nat) (vld vdd33 : Bool) : Statement (.powerFailWarning us vld vdd33) := ⟨fun _ => trivial, fun _ => rfl⟩
theorem lastGaspComplete (fittedPages : Nat) (powerGood : Bool) : Statement (.lastGaspComplete fittedPages powerGood) := ⟨fun _ => trivial, fun _ => rfl⟩
theorem vbatMeasure (vdd33 vld vhold vbat : Nat) : Statement (.vbatMeasure vdd33 vld vhold vbat) := ⟨fun _ => trivial, fun _ => rfl⟩
theorem vbatCollapse : Statement (.vbatCollapse) := ⟨fun _ => trivial, fun _ => rfl⟩
theorem tamperSample (cover mag : Bool) : Statement (.tamperSample cover mag) := ⟨fun _ => trivial, fun _ => rfl⟩
theorem geckoScan (d : GeckoData) : Statement (.geckoScan d) := by
  simp [Statement, bounds, Instr.wf, GeckoData.wf, LaneConv.wfGecko, and_assoc]
theorem geckoLimitExpiry : Statement (.geckoLimitExpiry) := ⟨fun _ => trivial, fun _ => rfl⟩
theorem rtcCountAdvance : Statement (.rtcCountAdvance) := ⟨fun _ => trivial, fun _ => rfl⟩
theorem pfwNRelease : Statement (.pfwNRelease) := ⟨fun _ => trivial, fun _ => rfl⟩

end Sys2Proof.Laws.WellFormed
end

