-- ==== Sys2Proof/Laws/Serving.lean ====
section
/-! SUPPORT. What answering an operation does to the request of a slot: its result is appended, and no start of other requests touches a
request that has begun. -/

namespace Sys2Proof.Machine

variable {s : State}

/-- A request set in a slot is the one that stands there. -/
theorem getTag_setTag_self {i : Nat} {t : Tag} : getTag (setTag i (some t) s) i = some t :=
  tget_tset_self (d := none) (a := some t)

theorem getTag_setTag_ne {i j : Nat} {t : Option Tag} (h : j ≠ i) : getTag (setTag j t s) i = getTag s i := tget_tset_ne h

theorem getTag_finishTag_self {i : Nat} {t : Tag} :
    getTag (finishTag i t s) i = some { t with fin := some s.fn, left := some (respBytes t), wait := false } :=
  getTag_setTag_self (s := s)

theorem getTag_finishTag_ne {i j : Nat} {t : Tag} (h : j ≠ i) : getTag (finishTag j t s) i = getTag s i :=
  getTag_setTag_ne (s := s) (t := some { t with fin := some s.fn, left := some (respBytes t), wait := false }) h

theorem getTag_beginTag_ne {i j : Nat} {t : Tag} (h : j ≠ i) : getTag (beginTag j t s) i = getTag s i := by
  unfold beginTag
  split
  · split
    · exact getTag_finishTag_ne h
    · exact getTag_setTag_ne h
  · split
    · dsimp only
      split
      · exact getTag_finishTag_ne h
      · exact getTag_setTag_ne h
    · exact getTag_finishTag_ne h

/-- The request that starts next stands in its slot and has not begun. -/
theorem nextStart_some {i : Nat} {t : Tag} (h : nextStart s = some (i, t)) : getTag s i = some t ∧ t.begun = false := by
  have fold : ∀ (l : List (Nat × Tag)) (b : Option (Nat × Tag)) (e : Nat × Tag),
      l.foldl (fun (best : Option (Nat × Tag)) e => match best with
        | some b => if e.2.ord < b.2.ord then some e else some b
        | none => some e) b = some e → e ∈ l ∨ b = some e := by
    intro l
    induction l with
    | nil => intro b e h; exact .inr h
    | cons x l ih =>
      intro b e h
      rcases ih _ e h with h | h
      · exact .inl (List.mem_cons_of_mem _ h)
      · cases b with
        | none => cases h; exact .inl (List.mem_cons_self ..)
        | some b =>
          dsimp only at h
          split at h
          · cases h; exact .inl (List.mem_cons_self ..)
          · exact .inr h
  unfold nextStart at h
  rcases fold _ _ _ h with h | h
  · obtain ⟨h1, h2⟩ := List.mem_filter.mp h
    obtain ⟨e, -, he⟩ := List.mem_filterMap.mp h1
    have hg : getTag s i = some t := by
      cases hx : getTag s e.1 with
      | none => rw [hx] at he; cases he
      | some u =>
        rw [hx] at he
        simp only [Option.map_some, Option.some.injEq, Prod.mk.injEq] at he
        rw [← he.1, hx, he.2]
    refine ⟨hg, ?_⟩
    unfold startable at h2
    simp only [Bool.and_eq_true, Bool.not_eq_true'] at h2
    exact h2.1.1.1.2
  · cases h

/-- Starting requests leaves a request alone that has begun. -/
theorem getTag_startGo {k i : Nat} {t : Tag} (h : getTag s i = some t) (b : t.begun = true) : getTag (startGo k s) i = some t := by
  induction k generalizing s with
  | zero => exact h
  | succ k ih =>
    unfold startGo
    split
    · rename_i j u hn
      obtain ⟨h1, h2⟩ := nextStart_some hn
      refine ih ?_
      rw [getTag_beginTag_ne, h]
      rintro rfl
      rw [h] at h1; cases h1; rw [b] at h2; cases h2
    · exact h

theorem getTag_startReqs {i : Nat} {t : Tag} (h : getTag s i = some t) (b : t.begun = true) : getTag (startReqs s) i = some t := by
  unfold startReqs
  split
  · exact getTag_startGo h b
  · exact h

/-- The next operation of a request that has begun is answered: its result is appended. -/
theorem getTag_answer {i st : Nat} {data : Bytes} {t : Tag} {o : Op} (h : getTag s i = some t) (b : t.begun = true)
    (ho : t.ops[t.res.length]? = some o) :
    ∃ t', getTag (answer i st data s) i = some t' ∧ t'.res = t.res ++ [⟨o.code, o.idx, o.sub, st, data⟩] := by
  unfold answer
  rw [h]
  dsimp only
  rw [ho]
  dsimp only
  split
  · exact ⟨_, getTag_startReqs getTag_finishTag_self b, rfl⟩
  · exact ⟨_, getTag_startReqs getTag_setTag_self b, rfl⟩

/-- Answering changes the object server alone. -/
theorem answer_srv {i st : Nat} {data : Bytes} : Only 262144 s (answer i st data s) := answer_only (Within.refl _) (Only.refl _ _)

/-- The next operation of a request that is under way. -/
theorem nextOp_some {t : Tag} {o : Op} (h : nextOp t = some o) : t.begun = true ∧ t.wait = false ∧ t.fin = none ∧ t.ops[t.res.length]? = some o := by
  unfold nextOp at h
  split at h
  · rename_i c
    simp only [Bool.and_eq_true, Bool.not_eq_true', decide_eq_true_eq] at c
    exact ⟨c.1.1, c.1.2, c.2, h⟩
  · cases h

/-! ### What starting requests leaves alone -/

/-- Two object servers agree but for tag slots, completions and the transactions' last use. -/
def SameSrv (v w : Srv) : Prop :=
  w = { v with tags := w.tags, done := w.done, txns := w.txns } ∧ w.txns.map (fun x => x.id) = v.txns.map (fun x => x.id)

theorem SameSrv.refl (v : Srv) : SameSrv v v := ⟨rfl, rfl⟩

theorem SameSrv.trans {u v w : Srv} (h : SameSrv u v) (k : SameSrv v w) : SameSrv u w :=
  ⟨by rw [k.1, h.1], k.2.trans h.2⟩

theorem setTag_same {i : Nat} {t : Option Tag} : SameSrv s.srv (setTag i t s).srv := ⟨rfl, rfl⟩

theorem finishTag_same {i : Nat} {t : Tag} : SameSrv s.srv (finishTag i t s).srv := ⟨rfl, rfl⟩

theorem setTxn_same {x : Txn} : SameSrv s.srv (setTxn x s).srv := by
  refine ⟨rfl, ?_⟩
  unfold setTxn setSrv
  simp only [List.map_map]
  apply List.map_congr_left
  intro y _
  simp only [Function.comp_apply]
  split
  · rename_i e; exact e.symm
  · rfl

theorem beginTag_same {i : Nat} {t : Tag} : SameSrv s.srv (beginTag i t s).srv := by
  unfold beginTag
  split
  · split
    · exact finishTag_same
    · exact setTag_same
  · split
    · dsimp only
      split
      · exact setTxn_same.trans finishTag_same
      · exact setTxn_same.trans setTag_same
    · exact finishTag_same

theorem startGo_same {k : Nat} : SameSrv s.srv (startGo k s).srv := by
  induction k generalizing s with
  | zero => exact SameSrv.refl _
  | succ k ih =>
    unfold startGo
    split
    · exact beginTag_same.trans ih
    · exact SameSrv.refl _

/-- Starting requests touches tag slots, completions and the last use of transactions alone. -/
theorem startReqs_same : SameSrv s.srv (startReqs s).srv := by
  unfold startReqs
  split
  · exact startGo_same
  · exact SameSrv.refl _

theorem answer_same {i st : Nat} {data : Bytes} : SameSrv s.srv (answer i st data s).srv := by
  unfold answer
  split
  · exact SameSrv.refl _
  · split
    · exact SameSrv.refl _
    · dsimp only
      split
      · exact finishTag_same.trans startReqs_same
      · exact setTag_same.trans startReqs_same

theorem startReqs_srv : Only 262144 s (startReqs s) := startReqs_only (Within.refl _) (Only.refl _ _)

/-! ### The request that stands in a slot, while others start -/

/-- The parts of a request that its start does not change. -/
def SameTag (t u : Tag) : Prop :=
  u.port = t.port ∧ u.sess = t.sess ∧ u.tag = t.tag ∧ u.txn = t.txn ∧ u.ops = t.ops ∧ u.res = t.res ∧ u.full = t.full ∧ u.parts = t.parts

theorem getTag_beginTag {i : Nat} {t : Tag} : ∃ u, getTag (beginTag i t s) i = some u ∧ SameTag t u ∧ u.begun = true := by
  unfold beginTag
  split
  · split
    · exact ⟨_, getTag_finishTag_self, ⟨rfl, rfl, rfl, rfl, rfl, rfl, rfl, rfl⟩, rfl⟩
    · exact ⟨_, getTag_setTag_self, ⟨rfl, rfl, rfl, rfl, rfl, rfl, rfl, rfl⟩, rfl⟩
  · split
    · dsimp only
      split
      · exact ⟨_, getTag_finishTag_self, ⟨rfl, rfl, rfl, rfl, rfl, rfl, rfl, rfl⟩, rfl⟩
      · exact ⟨_, getTag_setTag_self, ⟨rfl, rfl, rfl, rfl, rfl, rfl, rfl, rfl⟩, rfl⟩
    · exact ⟨_, getTag_finishTag_self, ⟨rfl, rfl, rfl, rfl, rfl, rfl, rfl, rfl⟩, rfl⟩

/-- Whatever starts, the request of a slot keeps what it asked for. -/
theorem getTag_startReqs_same {i : Nat} {t : Tag} (h : getTag s i = some t) : ∃ u, getTag (startReqs s) i = some u ∧ SameTag t u := by
  have same : SameTag t t := ⟨rfl, rfl, rfl, rfl, rfl, rfl, rfl, rfl⟩
  have go : ∀ (k : Nat) (s : State), getTag s i = some t → ∃ u, getTag (startGo k s) i = some u ∧ SameTag t u := by
    intro k
    induction k with
    | zero => intro s h; exact ⟨t, h, same⟩
    | succ k ih =>
      intro s h
      unfold startGo
      split
      · rename_i j v hn
        by_cases e : j = i
        · subst e
          obtain ⟨h1, -⟩ := nextStart_some hn
          rw [h] at h1; cases h1
          obtain ⟨u, hu, su, bu⟩ := getTag_beginTag (s := s) (i := j) (t := t)
          exact ⟨u, getTag_startGo hu bu, su⟩
        · exact ih _ (by rw [getTag_beginTag_ne e, h])
      · exact ⟨t, h, same⟩
  unfold startReqs
  split
  · exact go 48 s h
  · exact ⟨t, h, same⟩

/-! ### Operations that are served -/

/-- An operation that is served reaches its meaning. -/
theorem runOp_serves {i : Nat} {q : Tag} {o : Op} {want : Op → Bool} {f : Tag → Op → State → State} (h : Serves s i q o) (w : want o = true) :
    runOp i want f s = f q o s := by
  have hx : ¬(q.txn ≠ 0 ∧ findTxn s q.txn q.port q.sess = none) := fun e => h.txn.elim e.1 (fun k => k e.2)
  simp only [runOp, h.runs, h.tag, h.next, w, h.mode, if_true, false_and, if_false, hx]

/-- A method that is called reaches its meaning. -/
theorem runMethods_calls {c : Instr} {i : Fin 48} {q : Tag} {o : Op} {ks : List Nat} {len : Nat → Bool} {f : Tag → Op → State → State}
    (h : Calls s c i q o) (m : methodCall c = some (i, ks, len)) : runMethods i.val ks len f s = f q o s := by
  obtain ⟨ks', len', m', hk, hc⟩ := h.method
  rw [m] at m'
  simp only [Option.some.injEq, Prod.mk.injEq, true_and] at m'
  obtain ⟨rfl, rfl⟩ := m'
  unfold runMethods
  rw [runOp_serves h.serves (by simp [h.code, hk])]
  have hl : (legalMethod o.key && legalLocked s) = false := by
    by_cases e : legalMethod o.key = true
    · simp [e, h.free e]
    · simp [e]
  simp only [hc, hl]
  simp

/-- The same for a method of a single object. -/
theorem runMethod_calls {c : Instr} {i : Fin 48} {q : Tag} {o : Op} {k : Nat} {len : Nat → Bool} {f : Tag → Op → State → State}
    (h : Calls s c i q o) (m : methodCall c = some (i, [k], len)) : runMethod i.val k len f s = f q o s := runMethods_calls h m

/-- An answer is a reply to the operation that is served. -/
theorem Serves.replies {u : State} {i st : Nat} {q : Tag} {o : Op} {data : Bytes} (h : Serves s i q o) (e : getTag u i = some q) :
    Replies (answer i st data u) i q o st data := by
  obtain ⟨b, -, -, n⟩ := nextOp_some h.next
  obtain ⟨t', h1, h2⟩ := getTag_answer (st := st) (data := data) e b n
  exact ⟨t', h1, h2⟩

end Sys2Proof.Machine
end

