-- ==== Sys2Proof/Tests/Slice0.lean ====
section
/-! SUPPORT. Tests.  The checks of WellFormed refuse an ill-formed command each; single steps on small states; and for every statement with
hypotheses a concrete state and operands that meet them, clause by clause. -/

open Sys2Proof Sys2Proof.Machine

set_option maxRecDepth 100000
-- One test at a time: tests evaluated by the kernel would each wait in a thread of their own.
set_option Elab.async false

namespace Sys2Proof.Tests

/-! ### Well-formedness: one ill-formed command for each check -/

def conv : LaneConv := { codes := List.replicate 128 0, parity := List.replicate 128 false, refBad := false, cmMv := none }
def volt : VoltConv := ⟨0, false⟩
def gram : Datagram := ⟨true, true, false, false, false, 0x80FE, 49256, 1, 1, []⟩
def word : Announcement := ⟨true, 1, 200, 0, false, 5, 0, 0, 1, 0, 0, 0⟩
def still : LaneConv := ⟨[], [], false, none⟩
def scan : GeckoData := ⟨List.replicate 256 (List.replicate 32 still), [], 3000⟩

theorem test_wf_accepts : Instr.wf (.samplePeriod (List.replicate 32 conv) (List.replicate 12 volt)) = true ∧ Instr.wf (.geckoScan scan) = true ∧
    Instr.wf (.t1sDatagramReceive gram) = true ∧ Instr.wf (.announcementReceive word) = true := by decide
theorem test_wf_lane_count : Instr.wf (.samplePeriod [] (List.replicate 12 volt)) = false := by decide
theorem test_wf_volt_count : Instr.wf (.samplePeriod (List.replicate 32 conv) []) = false := by decide
theorem test_wf_codes : Instr.wf (.samplePeriod (List.replicate 32 { conv with codes := [] }) (List.replicate 12 volt)) = false := by decide
theorem test_wf_parity : Instr.wf (.samplePeriod (List.replicate 32 { conv with parity := [] }) (List.replicate 12 volt)) = false := by decide
theorem test_wf_code_high : LaneConv.wf { conv with codes := List.replicate 127 0 ++ [131072] } = false := by decide
theorem test_wf_code_low : LaneConv.wf { conv with codes := List.replicate 127 0 ++ [-131073] } = false := by decide
theorem test_wf_gecko_passes : Instr.wf (.geckoScan { scan with passes := List.replicate 255 (List.replicate 32 still) }) = false := by decide
theorem test_wf_gecko_lanes : Instr.wf (.geckoScan { scan with passes := List.replicate 256 (List.replicate 31 still) }) = false := by decide
theorem test_wf_gecko_slots : LaneConv.wfGecko { still with codes := List.replicate 89 0, parity := List.replicate 89 false } = false := by decide
theorem test_wf_gecko_marks : LaneConv.wfGecko { still with codes := [0] } = false := by decide
theorem test_wf_gecko_code : LaneConv.wfGecko { still with codes := [131072], parity := [false] } = false := by decide
theorem test_wf_gecko_input : Instr.wf (.geckoScan { scan with present := [12] }) = false := by decide
theorem test_wf_datagram_src : Instr.wf (.t1sDatagramReceive { gram with src := 2 ^ 128 }) = false := by decide
theorem test_wf_datagram_dst : Instr.wf (.t1sDatagramReceive { gram with dst := 2 ^ 128 }) = false := by decide
theorem test_wf_datagram_from : Instr.wf (.t1sDatagramReceive { gram with srcPort := 65536 }) = false := by decide
theorem test_wf_datagram_to : Instr.wf (.t1sDatagramReceive { gram with dstPort := 65536 }) = false := by decide
theorem test_wf_ann_sender : Instr.wf (.announcementReceive { word with sender := 65536 }) = false := by decide
theorem test_wf_ann_lqi : Instr.wf (.announcementReceive { word with lqi := 256 }) = false := by decide
theorem test_wf_ann_depth : Instr.wf (.announcementReceive { word with depth := 256 }) = false := by decide
theorem test_wf_ann_cycle : Instr.wf (.announcementReceive { word with cycle := 2 ^ 48 }) = false := by decide
theorem test_wf_ann_wall : Instr.wf (.announcementReceive { word with wall := 2 ^ 64 }) = false := by decide
theorem test_wf_ann_leader : Instr.wf (.announcementReceive { word with leader := 2 ^ 64 }) = false := by decide
theorem test_wf_ann_seq : Instr.wf (.announcementReceive { word with seq := 65536 }) = false := by decide
theorem test_wf_plc_sender : Instr.wf (.plcFrameReceive ⟨65536, 0, 0, 0, true, .other⟩) = false := by decide
theorem test_wf_plc_lqi : Instr.wf (.plcFrameReceive ⟨1, 256, 0, 0, true, .other⟩) = false := by decide
theorem test_wf_plc_datagram : Instr.wf (.plcFrameReceive ⟨1, 0, 0, 0, true, .datagram { gram with dst := 2 ^ 128 }⟩) = false := by decide
theorem test_wf_plc_fragment : Instr.wf (.plcFrameReceive ⟨1, 0, 0, 0, true, .fragment { gram with src := 2 ^ 128 } 1 8 0⟩) = false := by decide
theorem test_wf_join_short : Instr.wf (.plcJoin (.joined 65536)) = false := by decide
theorem test_wf_join_pan : Instr.wf (.plcJoin (.beacons [⟨65536, 1, 1⟩])) = false := by decide
theorem test_wf_join_lba : Instr.wf (.plcJoin (.beacons [⟨1, 65536, 1⟩])) = false := by decide
theorem test_wf_join_cost : Instr.wf (.plcJoin (.beacons [⟨1, 1, 65536⟩])) = false := by decide
theorem test_wf_solicit_target : Instr.wf (.neighbourSolicitation (2 ^ 128) 0 0) = false := by decide
theorem test_wf_solicit_src : Instr.wf (.neighbourSolicitation 0 (2 ^ 128) 0) = false := by decide
theorem test_wf_solicit_mac : Instr.wf (.neighbourSolicitation 0 0 (2 ^ 48)) = false := by decide
theorem test_wf_echo_src : Instr.wf (.echoRequest (2 ^ 128)) = false := by decide

/-! ### States -/

/-- A unit in RUN whose operational core is up. -/
def up : State := { mode := .run, ready := true, fn := 1000000 }

/-- A snapshot. -/
def snap : Snap := { fn := 999998, gen := 7, vals := [], late := false }

/-- An operation on an object. -/
def opOn (code key : Nat) (data : Bytes) : Op := ⟨code, key / 256, key % 256, data⟩

/-- A request of the SPI port that executes one operation next. -/
def reqOf (o : Op) : Tag := { port := .spi, tag := 1, full := true, begun := true, ops := [o], snap := some snap, fn := 1000000 }

/-- The server is about to execute an operation in slot 0. -/
def on (o : Op) (s : State) : State := { s with srv := { s.srv with tags := [(0, some (reqOf o))] } }

theorem on_serves (o : Op) (s : State) (h : serverRuns s = true) (m : s.mode ≠ .recovery) : Serves (on o s) 0 (reqOf o) o :=
  ⟨h, m, rfl, rfl, Or.inl rfl⟩

/-- An operation of a request inside transaction 9. -/
def inTxn (o : Op) : Tag := { reqOf o with txn := 9 }

def txn (rw : Bool) : Txn := { id := 9, port := .spi, sess := none, rw := rw, fn := 999000, last := 999990, ord := 0 }

def onTxn (o : Op) (x : Txn) (s : State) : State := { s with srv := { s.srv with tags := [(0, some (inTxn o))], txns := [x] } }

theorem sound_up : Sound up := ⟨by decide, by decide, by decide, by decide, by decide, by decide⟩

/-! ### Witnesses: the block -/

theorem wit_StepRunsFront : ({ up with pending := [.pfwNRelease] } : State).pending = .pfwNRelease :: [] ∧ up.pending = [] := by decide
theorem wit_StepKeepsSound : ∃ t, Sound up ∧ step up = .next t := ⟨up, sound_up, rfl⟩
theorem wit_CommandsChangeOnlyTheirPieces : ∃ t, exec .pfwNRelease State.reset = .next t := ⟨_, rfl⟩
theorem wit_WhatMovesFnAndMode : (Sound up ∧ (up.mode = .run ∨ up.mode = .recovery)) ∧ (State.reset.mode ≠ .run ∧ State.reset.mode ≠ .recovery) ∧
    ∃ t, exec .pfwNRelease up = .next t :=
  ⟨⟨sound_up, Or.inl rfl⟩, by decide, _, rfl⟩
theorem wit_NumbersOnTheWire : ((3 : Nat) < 4) ∧ (0 < 8 ∧ -(2 ^ 7 : Int) ≤ -128 ∧ (-128 : Int) < 2 ^ 7) ∧ (0 < 8 ∧ -(2 ^ 7 : Int) ≤ 127 ∧ (127 : Int) < 2 ^ 7) ∧
    ((0 : Int) < 2 ∧ (0 : Int) ≤ 1) := by decide
theorem wit_FramesRoundTrip : (∃ h : Hdr, h.ver < 256 ∧ h.kind < 256 ∧ h.tag < 256 ∧ h.st < 256 ∧ h.len < 65536 ∧ h.txn < 65536 ∧ h.fn < 2 ^ 48 ∧
      h.cred < 256 ∧ h.flags < 256) ∧
    (∀ o ∈ [opOn 0x10 0x100001 []], o.code < 256 ∧ o.idx < 65536 ∧ o.sub < 256 ∧ o.data.length < 65536) ∧
    (0 < 8 ∧ 7 < 8 + (opOn 0x10 0x100001 []).data.length) := by
  refine ⟨⟨⟨255, 255, 255, 255, 65535, 65535, 2 ^ 48 - 1, 255, 255⟩, ?_⟩, ?_, ?_⟩ <;> decide
theorem wit_ObjectsReadAsWritten : Tab.wf 0 ([(1, 5)] : Tab Nat) = true ∧ (∀ k, tget 0 [(1, 5)] k = tget 0 [(1, 5)] k) ∧ (2 : Nat) ≠ 1 ∧ Sound up :=
  ⟨by decide, fun _ => rfl, by decide, sound_up⟩
theorem wit_SettingGovernsFromB : ∃ c : Commit, c.b = 8 ∧ Chg.before 3 c.chg = some 1 ∧ (∀ x ∈ [c], x.b ≤ 8) ∧ 8 ≤ 8 ∧ 7 < 8 :=
  ⟨⟨8, 6, 1, [⟨3, 1, 2⟩], .write, false, 0, 0⟩, by decide⟩
theorem wit_EventsEnterRing5 : up.ring5.length < 1024 ∧
    1024 ≤ ({ up with ring5 := List.replicate 1024 ⟨0x0801, [], 0, 0, false⟩ } : State).ring5.length := by
  refine ⟨by decide, ?_⟩; show 1024 ≤ (List.replicate 1024 _).length; simp

/-! ### Witnesses: SPI and the legacy window -/

theorem wit_SpiStatusAndClear : spiUp up = true ∧ (0x7F : Byte).toNat % 128 ∉ [1, 2, 3, 4] ∧ (0x80 : Byte).toNat % 128 ∉ [1, 2, 3, 4] := by decide

/-- A frame of an empty payload with a wrong CRC. -/
def badPut : Bytes := List.replicate 20 0
/-- Ring 9 full. -/
def full9 : State := { up with srv := { up.srv with inq := [⟨.spi, none, none, 0, 0, 0, [], 1024, 0, 0⟩] } }

theorem wit_SpiPutChecksFrames : up.mode = .run ∧ up.ready = true ∧
    (∃ b : Bytes, b.length = 20 + at_ b 4 2 ∧ crc32 (b.take (16 + at_ b 4 2)) = at_ b (16 + at_ b 4 2) 4 ∧
      ringUsed up 9 + creditUnits .spi (at_ b 4 2) ≤ 1024 ∧ 1024 < ringUsed full9 9 + creditUnits .spi (at_ b 4 2)) ∧
    (([] : Bytes).length ≠ 20 + at_ [] 4 2 ∨ crc32 (([] : Bytes).take (16 + at_ [] 4 2)) ≠ at_ [] (16 + at_ [] 4 2) 4) :=
  ⟨rfl, rfl, ⟨List.replicate 16 0 ++ le 4 (crc32 (List.replicate 16 0)), by decide⟩, by decide⟩
theorem wit_SpiPutChecksFrames_down : spiUp { up with mode := .lastGasp, ready := false } = true ∧ ({ up with mode := .lastGasp, ready := false } : State).ready = false ∧
    serverRuns { up with mode := .lastGasp, ready := false } = false := by decide

/-- One response waits for the SPI port. -/
def out1 : OutFrame := { port := .spi, tag := 1 }
def upOut : State := { up with srv := { up.srv with ring12 := [out1] } }
def upNote : State := { up with srv := { up.srv with ring13 := [out1] } }

theorem wit_SpiTakeHandsOut : spiUp up = true ∧ serverRuns up = true ∧ nextOut up .spi = none ∧ nextOut upOut .spi = some (out1, true) ∧
    nextOut upNote .spi = some (out1, false) ∧ 0 < 2 + (spiFrame upOut out1).length ∧ 2 + (spiFrame upOut out1).length ≤ 22 := by decide

theorem wit_LegacyWindow : spiUp up = true ∧ ({ up with ready := false } : State).ready = false ∧ isHigh { up with current := some snap } 5 = true ∧
    ({ up with spi := { up.spi with latch := some (0x101, 5, 998976) } } : State).spi.latch = some ((0x101 : BitVec 11).toNat, 5, 998976) ∧
    up.fn ≤ 998976 + 1024 ∧ up.mode = .run ∧ (12 : BitVec 11).toNat ≠ 10 ∧ (12 : BitVec 11).toNat ≠ 11 := by decide

/-! ### Witnesses: requests and transactions -/

/-- A READ of the FN object as a request frame of the SPI port, with a tag and a KIND. -/
def frameOf_ (kind tag : Nat) : ReqFrame :=
  { port := .spi, bytes := hdrBytes ⟨2, kind, tag, 0, 8, 0, 0, 0, 0⟩ ++ opBytes ⟨0x10, 0x1000, 1, 0, []⟩, units := 3, ord := 0, fn := 1000000 }
def upReq (kind tag : Nat) : State := { up with srv := { up.srv with inq := [frameOf_ kind tag] } }

theorem wit_RequestsAreParsed : serverRuns (upReq 0 47) = true ∧ (upReq 0 47).srv.inq = frameOf_ 0 47 :: [] ∧ (frameOf_ 0 47).port = .spi ∧
    (∀ h, h = hdrOf (frameOf_ 0 47).bytes → h.kind = 0 ∧ h.ver = 2 ∧ h.flags = 0 ∧ h.txn = 0 ∧ h.fn = 0 ∧ h.tag ≤ 47 ∧
      tagBusy (upReq 0 47) (frameOf_ 0 47) h.tag = false) ∧ ((frameOf_ 0 47).bytes.drop 16).length ≤ frameMax .spi ∧
    opsOf ((frameOf_ 0 47).bytes.drop 16) = some [opOn 0x10 0x100001 []] ∧ (∀ o ∈ [opOn 0x10 0x100001 []], o.code ≠ 0x60) ∧
    ∃ i, freeSlot (upReq 0 47) .spi = some i ∧ i < 48 := by
  refine ⟨by decide, rfl, rfl, ?_, by decide, by decide, by decide, 0, by decide, by decide⟩
  rintro _ rfl; decide

def busyTag (s : State) : State := { s with srv := { s.srv with tags := [(0, some { reqOf (opOn 0x10 0x100001 []) with tag := 47 })] } }
theorem wit_RequestsAreRefused : serverRuns (upReq 0 48) = true ∧ (hdrOf (frameOf_ 1 48).bytes).kind ≠ 0 ∧ (hdrOf (frameOf_ 0 48).bytes).kind = 0 ∧
    (hdrOf (frameOf_ 0 48).bytes).ver = 2 ∧ (hdrOf (frameOf_ 0 48).bytes).flags = 0 ∧
    (47 < (hdrOf (frameOf_ 0 48).bytes).tag ∧ (hdrOf (frameOf_ 0 48).bytes).tag ≠ 0xFF) ∧
    ((hdrOf (frameOf_ 0 47).bytes).tag ≤ 47 ∧ tagBusy (busyTag (upReq 0 47)) (frameOf_ 0 47) 47 = true) ∧ shareUsed (upReq 0 48) .spi true + creditUnits .spi 0 ≤ 16 := by decide

/-- A request that its FN held until this tick. -/
def held : Tag := { port := .spi, tag := 1, full := true, fnf := 1000000, ops := [opOn 0x10 0x100001 []], fn := 999999 }
/-- A message whose next frame has not come. -/
def broken : Tag := { port := .spi, tag := 1, fn := 998975 }
def upTag (t : Tag) : State := { up with srv := { up.srv with tags := [(0, some t)] } }
theorem wit_DeferredAndBrokenRequests : (mayStart (upTag held) = true ∧ getTag (upTag held) 0 = some held ∧ nextStart (upTag held) = some (0, held) ∧
      held.txn = 0 ∧ held.ops ≠ [] ∧ held.fnf ≠ 0 ∧ held.fnf ≤ up.fn) ∧
    (getTag (upTag broken) 0 = some broken ∧ broken.full = false ∧ broken.fin = none ∧ broken.fn + 1024 < up.fn) ∧
    up.fn ≤ ({ broken with fn := 998976 } : Tag).fn + 1024 := by decide

def done : Tag := { held with fin := some 999999, left := some [1] }
def upDone : State := { up with srv := { up.srv with tags := [(0, some done)], done := [0] } }
def full12 (s : State) : State := { s with srv := { s.srv with ring12 := [{ port := .spi, tag := 2, data := List.replicate 12012 0 }] } }
theorem wit_ResponsesEnterRing12 : serverRuns upDone = true ∧
    upDone.srv.done.find? (fun j => match getTag upDone j with | some t => decide (t.port = .spi) | none => true) = some 0 ∧ getTag upDone 0 = some done ∧
    orphan upDone done = false ∧ done.left = some [1] ∧ [(1 : Byte)].length ≤ frameMax done.port ∧
    shareUsed upDone done.port false + creditUnits done.port 1 ≤ shareOf done.port - 16 ∧
    shareOf done.port - 16 < shareUsed (full12 upDone) done.port false + creditUnits done.port 1 := by decide

theorem wit_ReadAnswers (d : Bytes) (k : Nat) : Serves (on (opOn 0x10 k d) up) 0 (reqOf (opOn 0x10 k d)) (opOn 0x10 k d) ∧ (opOn 0x10 k d).code = 0x10 :=
  ⟨on_serves _ _ (by decide) (by decide), rfl⟩
theorem wit_ReadAnswers_rows : rowOf 0 = none ∧ (∃ r, rowOf K.timeTimeSet = some r ∧ r.ty = .method) ∧
    (∃ r, rowOf K.hostToken = some r ∧ r.ty ≠ .method ∧ 5 < r.rd) ∧ (∃ r, rowOf K.storeCount = some r ∧ r.ty ≠ .method ∧ r.rd ≤ 5 ∧ isPublished r = true) ∧
    (∃ r, rowOf K.capEnable = some r ∧ r.ty ≠ .method ∧ r.rd ≤ 5 ∧ isPublished r = false) ∧ roleOf up (reqOf (opOn 0x10 0 [])) = 5 ∧
    findTxn up 0 .spi none = none := by
  refine ⟨by decide, ⟨_, rfl, by decide⟩, ⟨_, rfl, by decide, by decide⟩, ⟨_, rfl, by decide, by decide, by decide⟩, ⟨_, rfl, by decide, by decide, by decide⟩, by decide, by decide⟩

theorem wit_ReadSetAnswers (d : Bytes) : Serves (on (opOn 0x11 0 d) up) 0 (reqOf (opOn 0x11 0 d)) (opOn 0x11 0 d) ∧
    Serves (on (opOn 0x99 0 d) up) 0 (reqOf (opOn 0x99 0 d)) (opOn 0x99 0 d) ∧ 0x99 ∉ [0x10, 0x11, 0x12, 0x20, 0x30, 0x31, 0x32, 0x40, 0x50, 0x51, 0x60] :=
  ⟨on_serves _ _ (by decide) (by decide), on_serves _ _ (by decide) (by decide), by decide⟩
theorem wit_ReadSetAnswers_counts : (2 ≤ (le 2 2049).length ∧ 2048 < at_ (le 2 2049) 0 2) ∧
    (at_ (le 2 2048) 0 2 ≤ 2048 ∧ (le 2 2048).length ≠ 2 + 3 * at_ (le 2 2048) 0 2) ∧ (le 2 0).length = 2 + 3 * at_ (le 2 0) 0 2 := by decide

theorem wit_WritesAreStaged (d : Bytes) (k : Nat) : Serves (on (opOn 0x20 k d) up) 0 (reqOf (opOn 0x20 k d)) (opOn 0x20 k d) :=
  on_serves _ _ (by decide) (by decide)
theorem wit_WritesAreStaged_rows : (checkWrite up 5 K.storeCount []).1 ≠ 0 ∧ (checkWrite up 5 K.capEnable [1]).1 = 0 ∧
    (∃ r, rowOf K.capEnable = some r ∧ r.has 0 = true) ∧ K.capEnable ≠ K.hostToken ∧ (txn true).used + 8 + 1 ≤ 16384 := by
  refine ⟨by decide, by decide, ⟨_, rfl, by decide⟩, by decide, by decide⟩
theorem wit_WritesAreStaged_txn (rw : Bool) : Serves (onTxn (opOn 0x20 K.capEnable [1]) (txn rw) up) 0 (inTxn (opOn 0x20 K.capEnable [1])) (opOn 0x20 K.capEnable [1]) ∧
    findTxn (onTxn (opOn 0x20 K.capEnable [1]) (txn rw) up) 9 .spi none = some (txn rw) := by
  cases rw <;> exact ⟨⟨by decide, by decide, rfl, rfl, Or.inr (by decide)⟩, rfl⟩
/-- A transaction that has staged its object already; one that has not, and one without room. -/
theorem wit_WritesAreStaged_stage : (∃ e ∈ ({ txn true with stage := [⟨K.capEnable, some 0, 9⟩] } : Txn).stage, e.key = K.capEnable ∧ e.val ≠ none) ∧
    (∀ e ∈ ({ txn true with stage := [⟨K.capEnable, none, 0⟩] } : Txn).stage, e.key = K.capEnable → e.val = none) ∧
    (∀ e ∈ (txn true).stage, e.key = K.capEnable → e.val = none) ∧ (txn true).used + 8 + 16376 ≤ 16384 ∧
    16384 < ({ txn true with stage := [⟨K.capHoldoff, some 0, 16376⟩] } : Txn).used + 8 + 1 ∧
    (∀ e ∈ ({ txn true with stage := [⟨K.capHoldoff, some 0, 16376⟩] } : Txn).stage, e.key = K.capEnable → e.val = none) := by decide
/-- IRQ_MASK is a P object without T. -/
theorem wit_WritesAreStaged_alone : (∃ r, rowOf K.spiIrqMask = some r ∧ r.has 0 = false) ∧
    checkWrite (on (opOn 0x20 K.spiIrqMask [1, 0]) up) 5 K.spiIrqMask [1, 0] = (0, 1) ∧
    findTxn (on (opOn 0x20 K.spiIrqMask [1, 0]) up) 0 .spi none = none ∧ mayCommit 0 (on (opOn 0x20 K.spiIrqMask [1, 0]) up) = true ∧
    stagesBad (on (opOn 0x20 K.spiIrqMask [1, 0]) up) [(K.spiIrqMask, 1)] = none ∧ wouldWait (on (opOn 0x20 K.spiIrqMask [1, 0]) up) 0 = false :=
  ⟨⟨_, rfl, by decide⟩, by decide, by decide, by decide, by decide +kernel, by decide⟩

theorem wit_BeginOpensTransactions (m : Byte) : Serves (on (opOn 0x30 0 [m]) up) 0 (reqOf (opOn 0x30 0 [m])) (opOn 0x30 0 [m]) ∧ [m].length = 1 :=
  ⟨on_serves _ _ (by decide) (by decide), rfl⟩
theorem wit_BeginOpensTransactions_modes : at_ [(0 : Byte)] 0 1 = 0 ∧ at_ [(1 : Byte)] 0 1 = 1 ∧ up.srv.txns.length < 4 ∧ up.current = none ∧
    4 ≤ (List.replicate 4 (txn true)).length ∧ (∀ e ∈ [(1, snap), (2, snap)], e.1 ≠ snap.fn) ∧ 2 ≤ [(1, snap), (2, snap)].length ∧ ([(1, snap)] : List (Nat × Snap)).length < 2 := by decide

theorem wit_TransactionsEnd (x : Txn) (c : Nat) (h : x = txn true ∨ x = txn false) (hc : c = 0x31 ∨ c = 0x32) :
    Serves (onTxn (opOn c 0 []) x up) 0 (inTxn (opOn c 0 [])) (opOn c 0 []) ∧ findTxn (onTxn (opOn c 0 []) x up) 9 .spi none = some x := by
  obtain rfl | rfl := h <;> obtain rfl | rfl := hc <;> exact ⟨⟨by decide, by decide, rfl, rfl, Or.inr (by decide)⟩, rfl⟩
theorem wit_TransactionsEnd_none : Serves (on (opOn 0x32 0 []) up) 0 (reqOf (opOn 0x32 0 [])) (opOn 0x32 0 []) ∧ (reqOf (opOn 0x32 0 [])).txn = 0 :=
  ⟨on_serves _ _ (by decide) (by decide), rfl⟩

/-- A transaction that stages CAPTURE ENABLE, with a good or a read-only-now value. -/
def staged (k v : Nat) : Txn := { txn true with stage := [⟨k, some v, 9⟩] }
theorem wit_TransactionsEnd_fails : ∃ f, (staged K.storeCount 1).rw = true ∧ (staged K.storeCount 1).ovr = none ∧ stagedVals (staged K.storeCount 1) ≠ [] ∧
    mayCommit 0 up = true ∧ commitFails up 5 (staged K.storeCount 1) (stagedVals (staged K.storeCount 1)) 0 1000000 = some f :=
  ⟨⟨0x33, K.storeCount, 1⟩, by decide⟩
theorem wit_CommitPostsItsStores : stagedVals (staged K.capEnable 0) ≠ [] ∧ mayCommit 0 (onTxn (opOn 0x31 0 []) (staged K.capEnable 0) up) = true ∧
    Serves (onTxn (opOn 0x31 0 []) (staged K.capEnable 0) up) 0 (inTxn (opOn 0x31 0 [])) (opOn 0x31 0 []) ∧
    findTxn (onTxn (opOn 0x31 0 []) (staged K.capEnable 0) up) 9 .spi none = some (staged K.capEnable 0) ∧
    commitFails (onTxn (opOn 0x31 0 []) (staged K.capEnable 0) up) 5 (staged K.capEnable 0) (stagedVals (staged K.capEnable 0)) 0 1000000 = none :=
  ⟨by decide, by decide, ⟨by decide, by decide, rfl, rfl, Or.inr (by decide)⟩, rfl, by decide +kernel⟩
theorem wit_TransactionsTimeOut : [{ txn false with fn := 997952 }].find? (fun x => decide (x.id = 9)) = some { txn false with fn := 997952 } ∧
    ({ txn false with fn := 997952 } : Txn).fn + 2048 ≤ up.fn ∧ ({ txn true with last := 969280 } : Txn).last + 30720 ≤ up.fn ∧
    up.fn < ({ txn false with fn := 997953 } : Txn).fn + 2048 ∧ up.fn < ({ txn true with last := 969281 } : Txn).last + 30720 := by decide

/-- A SUBSCRIBE on change of STORE_COUNT. -/
def subData : Bytes := [0, 1] ++ le 2 0 ++ le 8 0 ++ le 4 0 ++ le 2 (K.storeCount / 256) ++ le 1 (K.storeCount % 256)
theorem wit_SubscriptionsComeAndGo : Serves (on (opOn 0x50 0 subData) up) 0 (reqOf (opOn 0x50 0 subData)) (opOn 0x50 0 subData) ∧
    16 ≤ subData.length ∧ subData.length = 16 + 3 * at_ subData 1 1 ∧ at_ subData 0 1 ≤ 3 ∧ 1 ≤ at_ subData 1 1 ∧ at_ subData 1 1 ≤ 16 ∧
    at_ subData 0 1 ≠ 1 ∧ subRefused (on (opOn 0x50 0 subData) up) (reqOf (opOn 0x50 0 subData)) (at_ subData 0 1) (listedKeys (subData.drop 16) (at_ subData 1 1)) = none ∧
    Serves (on (opOn 0x51 0 [0xFF]) up) 0 (reqOf (opOn 0x51 0 [0xFF])) (opOn 0x51 0 [0xFF]) :=
  ⟨on_serves _ _ (by decide) (by decide), by decide, by decide, by decide, by decide, by decide, by decide, by decide, on_serves _ _ (by decide) (by decide)⟩

/-! ### Witnesses: sessions and the Ethernet port -/

/-- A host on the segment. -/
def helloReq (d : Bytes) : ReqFrame :=
  { port := .t1s, addr := 5, sport := 6, bytes := List.replicate 16 0 ++ opBytes ⟨0x60, 0, 0, 0, d⟩, units := 4, ord := 0, fn := 1000000 }
def hello1 : ReqFrame := helloReq (le 1 1 ++ le 1 5 ++ le 4 77 ++ List.replicate 16 0)
def hello2 : ReqFrame := helloReq (le 1 2 ++ List.replicate 16 0)
def hand : Handshake := ⟨.t1s, 5, 6, 5, 77, 88, [], [], 998977⟩
def upHello (r : ReqFrame) (h : List (Nat × Option Handshake)) (d : Tab Nat) : State :=
  { up with dict := d, srv := { up.srv with hello := [r], hands := h } }
theorem wit_HelloStep1OpensHandshake : serverRuns (upHello hello1 [] []) = true ∧ helloRoom (upHello hello1 [] []) .t1s = true ∧
    nextHello .t1s (fun d => decide (at_ d 0 1 ≠ 2)) (upHello hello1 [] []) = some hello1 ∧ (helloData hello1).length = 22 ∧
    at_ (helloData hello1) 0 1 = 1 ∧ at_ (helloData hello1) 1 1 ≤ 5 ∧ at_ (helloData hello1) 2 4 ≠ 0 ∧ handOf (upHello hello1 [] []) .t1s 5 6 = none ∧
    (openHands (upHello hello1 [] [])).length < 8 ∧ sessFull (upHello hello1 [] []) .t1s 5 6 = false ∧ (helloData (helloReq [1])).length ≠ 22 := by decide
def keyed : Tab Nat := [(K.sesRoleKey 4, 9)]
theorem wit_HelloStep2OpensSession : ∃ okm, serverRuns (upHello hello2 [(0, some hand)] keyed) = true ∧ helloRoom (upHello hello2 [(0, some hand)] keyed) .t1s = true ∧
    nextHello .t1s (fun d => decide (at_ d 0 1 = 2)) (upHello hello2 [(0, some hand)] keyed) = some hello2 ∧ (helloData hello2).length = 17 ∧
    handOf (upHello hello2 [(0, some hand)] keyed) hello2.port hello2.addr hello2.sport = some (0, hand) ∧
    okmOf (upHello hello2 [(0, some hand)] keyed) hand = some okm :=
  ⟨_, by decide, by decide, by decide, by decide, by decide, rfl⟩
/-- A step 2 with the right proof, for a port with room and for one whose sessions are all taken. -/
def proof16 : Bytes := slice ((okmOf (upHello hello2 [(0, some hand)] keyed) hand).getD []) 64 16
def hello2r : ReqFrame := helloReq (le 1 2 ++ proof16)
def others8 : List (Nat × Option Sess) := (List.range 8).map (fun i => (i, some { port := .t1s, addr := 100 + i, sport := 6, role := 5, host := 1, dev := 90 + i, kin := [], kout := [], last := 999999 }))
def upFull : State := let s := upHello hello2r [(0, some hand)] keyed; { s with srv := { s.srv with sess := others8 } }
theorem wit_HelloStep2OpensSession_proof : nextHello .t1s (fun d => decide (at_ d 0 1 = 2)) (upHello hello2r [(0, some hand)] keyed) = some hello2r ∧
    (∃ okm, okmOf (upHello hello2r [(0, some hand)] keyed) hand = some okm ∧ slice okm 64 16 = (helloData hello2r).drop 1) ∧
    sessFull (upHello hello2r [(0, some hand)] keyed) .t1s 5 6 = false ∧ sessFull upFull .t1s 5 6 = true ∧ serverRuns upFull = true ∧
    helloRoom upFull .t1s = true ∧ nextHello .t1s (fun d => decide (at_ d 0 1 = 2)) upFull = some hello2r ∧
    handOf upFull .t1s 5 6 = some (0, hand) ∧ okmOf upFull hand = okmOf (upHello hello2 [(0, some hand)] keyed) hand :=
  ⟨by decide +kernel, ⟨_, rfl, by decide +kernel⟩, by decide, by decide, by decide, by decide, by decide +kernel, by decide, rfl⟩
def sess : Sess := { port := .t1s, addr := 5, sport := 6, role := 5, host := 77, dev := 88, kin := [], kout := [], last := 692800 }
def upSess (x : Sess) (s : State) : State := { s with srv := { s.srv with sess := [(0, some x)] } }
theorem wit_HandshakesAndSessionsExpire : tget none ({ up with srv := { up.srv with hands := [(0, some { hand with fn := 998976 })] } } : State).srv.hands 0 =
      some { hand with fn := 998976 } ∧ ({ hand with fn := 998976 } : Handshake).fn + 1024 ≤ up.fn ∧ up.fn < hand.fn + 1024 ∧
    getSess (upSess sess up) 0 = some sess ∧ sess.port ≠ .spi ∧ sess.last + 1024 * (upSess sess up).cfg up.fn K.sesSessionTimeout ≤ up.fn ∧
    up.fn < ({ sess with last := 692801 } : Sess).last + 1024 * (upSess sess up).cfg up.fn K.sesSessionTimeout := by decide

/-- A frame of that session. -/
def netFrame : ReqFrame :=
  { port := .t1s, addr := 5, sport := 6, bytes := hdrBytes ⟨2, 0, 1, 0, 0, 0, 0, 0, 0⟩ ++ le 8 2 ++ List.replicate 16 1, units := 0, ord := 0, fn := 1000000 }
def upNet : State := upSess sess { up with srv := { up.srv with net := [netFrame] } }
theorem wit_NetworkFramesAreAuthenticated : serverRuns upNet = true ∧ portOff upNet .t1s = false ∧
    upNet.srv.net.find? (fun r => decide (r.port = .t1s)) = some netFrame ∧ netFrame.bytes.length = 40 + (hdrOf netFrame.bytes).len ∧
    isStep1 (slice netFrame.bytes 16 (hdrOf netFrame.bytes).len) (netFrame.bytes.drop (16 + (hdrOf netFrame.bytes).len)) = false ∧
    handOf upNet netFrame.port netFrame.addr netFrame.sport = none ∧ sessOf upNet netFrame.port netFrame.addr netFrame.sport = some (0, sess) ∧
    isReplay sess 2 = false ∧ isReplay { sess with win := [2] } 2 = true ∧
    sumN (upNet.srv.inq.filterMap (fun f => if f.port = .t1s then some f.units else none)) + creditUnits .t1s (hdrOf netFrame.bytes).len ≤ 1024 := by decide

/-- Frames of that session whose tag is right, with a counter. -/
def sealed (ctr : Nat) : ReqFrame :=
  let h := hdrBytes ⟨2, 0, 1, 0, 0, 0, 0, 0, 0⟩
  let c := gcmSeal sess.kin (le 4 sess.host ++ le 8 ctr) h []
  { netFrame with bytes := h ++ c.1 ++ le 8 ctr ++ c.2 }
theorem wit_NetworkFramesAreAuthenticated_tag (ctr : Nat) (h : ctr = 2 ∨ ctr = 2 ^ 64 - 1) : (sealed ctr).bytes.length = 40 + (hdrOf (sealed ctr).bytes).len ∧
    (hdrOf (sealed ctr).bytes).len = 0 ∧ ctr = at_ ((sealed ctr).bytes.drop 16) 0 8 ∧
    gcmOpen sess.kin (le 4 sess.host ++ le 8 ctr) ((sealed ctr).bytes.take 16) [] (slice ((sealed ctr).bytes.drop 16) 8 16) = some [] ∧
    isReplay sess ctr = false := by
  obtain rfl | rfl := h <;> decide +kernel
theorem wit_NetworkFramesAreAuthenticated_wrong : gcmOpen sess.kin (le 4 sess.host ++ le 8 2) (netFrame.bytes.take 16) [] (slice (netFrame.bytes.drop 16) 8 16) = none := by
  decide +kernel
def phy (dad : Nat) : State := { up with t1s := { up.t1s with phy := true }, dict := [(K.t1sLinkLocal, 0x80FE), (liveKey K.t1sDadState, dad)] }
theorem wit_DatagramsAreFiltered : t1sUp (phy 1) = true ∧ serverRuns (phy 1) = true ∧ dadField (phy 1) false = 1 ∧ gram.ipv6 = true ∧ gram.udp = true ∧
    gram.fragment = false ∧ gram.extension = false ∧ gram.dstPort = 49256 ∧ gram.multicast = false ∧ ownAddr (phy 1) gram.dst = true ∧ ({ gram with dstPort := 49257 } : Datagram).dstPort ≠ 49256 ∧
    t1sUp { phy 1 with ready := false } = true ∧ serverRuns { phy 1 with ready := false } = false := by decide
/-- An address that is link-local: its first byte lowest. -/
def linkLocal : Nat := 0x80FE
theorem wit_EthernetFunctions : t1sUp (phy 5) = true ∧ ownAddr (phy 5) 0 = true ∧ (0 : Nat) = 0 ∧ (7 : Nat) ≠ 0 ∧ ownAddr (phy 1) 1 = false ∧
    (dadField (phy 1) false = 1 ∧ reachable (phy 1) linkLocal = true ∧ (phy 1).cfg up.fn K.t1sEchoEn = 1) ∧ (dadField (phy 0) true = 0 ∧ (phy 0).live K.t1sDadState < 16) ∧
    (dadField (phy 1) true = 0 ∧ (phy 1).live K.t1sDadState < 16) := by decide
theorem wit_EthernetFunctions_off : ({ phy 1 with dict := [(K.t1sEchoEn, 0), (liveKey K.t1sDadState, 1)] } : State).cfg up.fn K.t1sEchoEn ≠ 1 ∧
    ({ phy 1 with t1s := { up.t1s with closeAt := some 999998 } } : State).t1s.closeAt = some 999998 ∧ 999998 + 2 ≤ up.fn ∧ up.fn < 1000001 := by decide

/-! ### Witnesses: methods -/

theorem calls (c : Instr) (k : Nat) (d : Bytes) (s : State) (ks : List Nat) (len : Nat → Bool) (hm : methodCall c = some (0, ks, len))
    (h1 : serverRuns s = true) (h2 : s.mode ≠ .recovery) (hk : (opOn 0x40 k d).key ∈ ks)
    (hc : checkExec (roleOf (on (opOn 0x40 k d) s) (reqOf (opOn 0x40 k d))) (opOn 0x40 k d).key d len = 0)
    (hl : legalLocked (on (opOn 0x40 k d) s) = false) :
    Calls (on (opOn 0x40 k d) s) c 0 (reqOf (opOn 0x40 k d)) (opOn 0x40 k d) :=
  ⟨on_serves _ _ h1 h2, rfl, ⟨ks, len, hm, hk, hc⟩, fun _ => hl⟩

/-- The operation of a method call. -/
def call (k : Nat) (d : Bytes) : Op := opOn 0x40 k d

/-- A state with objects away from their defaults. -/
def upWith (d : Tab Nat) : State := { up with dict := d }

theorem wit_MethodsAreChecked : methodCall (.abort 0) = some (0, [K.abort], fun n => decide (n = 0)) ∧
    Serves (on (call K.abort []) up) 0 (reqOf (call K.abort [])) (call K.abort []) ∧ (call K.abort []).code = 0x40 ∧ (call K.abort []).key ∈ [K.abort] ∧
    decide ([(1 : Byte)].length = 0) = false ∧ (∃ r, rowOf (call K.updateOpen []).key = some r ∧ 0 < r.wr) ∧
    (checkExec 5 K.resume (List.replicate 8 0) (fun n => decide (n = 8)) = 0 ∧ legalMethod K.resume = true ∧ legalLocked (upWith [(K.legalTwinState 0, 1)]) = true) := by
  refine ⟨rfl, on_serves _ _ (by decide) (by decide), rfl, by decide, by decide, ⟨_, rfl, by decide⟩, by decide, by decide, by decide⟩

theorem wit_ReadingMethodsAnswer :
    Calls (on (call K.eventRead [0, 0, 0, 0, 120]) up) (.eventRead 0) 0 (reqOf (call K.eventRead [0, 0, 0, 0, 120])) (call K.eventRead [0, 0, 0, 0, 120]) ∧
    Calls (on (call K.eventRead [0, 0, 0, 0, 0]) up) (.eventRead 0) 0 (reqOf (call K.eventRead [0, 0, 0, 0, 0])) (call K.eventRead [0, 0, 0, 0, 0]) ∧
    Calls (on (call K.tkRead [0, 0, 0, 0, 0xA0, 15]) up) (.tkRead 0) 0 (reqOf (call K.tkRead [0, 0, 0, 0, 0xA0, 15])) (call K.tkRead [0, 0, 0, 0, 0xA0, 15]) ∧
    Calls (on (call K.hjRead [0, 0, 0xA0, 15]) up) (.hjRead 0) 0 (reqOf (call K.hjRead [0, 0, 0xA0, 15])) (call K.hjRead [0, 0, 0xA0, 15]) ∧
    Calls (on (call K.pageRead [0xFF, 3]) up) (.pageRead 0) 0 (reqOf (call K.pageRead [0xFF, 3])) (call K.pageRead [0xFF, 3]) ∧
    Calls (on (call K.tbCycleMap [0, 0, 0, 0, 0, 0]) up) (.cycleMap 0) 0 (reqOf (call K.tbCycleMap [0, 0, 0, 0, 0, 0])) (call K.tbCycleMap [0, 0, 0, 0, 0, 0]) :=
  ⟨calls _ _ _ _ _ _ rfl (by decide) (by decide) (by decide) (by decide) (by decide), calls _ _ _ _ _ _ rfl (by decide) (by decide) (by decide) (by decide) (by decide),
   calls _ _ _ _ _ _ rfl (by decide) (by decide) (by decide) (by decide) (by decide), calls _ _ _ _ _ _ rfl (by decide) (by decide) (by decide) (by decide) (by decide),
   calls _ _ _ _ _ _ rfl (by decide) (by decide) (by decide) (by decide) (by decide), calls _ _ _ _ _ _ rfl (by decide) (by decide) (by decide) (by decide) (by decide)⟩
theorem wit_ReadingMethodsAnswer_bounds : (4000 = at_ [0, 0, 0, 0, 0xA0, 15] 4 2) ∧ 4000 < at_ [0, 0, 0, 0, 0xA1, 15] 4 2 ∧ max (tkLevel 0) (tkLevel 3999) ≤ 5 ∧
    (1 : Nat) < max (tkLevel 0) (tkLevel 3999) ∧ 0x4000000 < at_ [255, 255, 255, 3, 2, 0] 0 4 + at_ [255, 255, 255, 3, 2, 0] 4 2 ∧
    at_ [0xFF, 3] 0 2 = 1023 ∧ 1024 ≤ at_ [0, 4] 0 2 ∧ at_ [0, 0, 0xA0, 15] 2 2 ≤ 4000 ∧ at_ [0, 0, 0xA0, 15] 2 2 ≤ hjSize ∧ up.tb.num = none ∧
    tbState (upWith [(liveKey K.tbTbState, 2)]) = 2 ∧ tbState (upWith [(liveKey K.tbTbState, 3)]) = 3 ∧ mag ((2 : Int) ^ 20) ≤ 2 ^ 20 ∧ (2 : Int) ^ 20 < mag (2 ^ 20 + 1) := by decide

theorem wit_HostJournalAndBackups :
    Calls (on (call K.hjWrite [0, 0, 7]) up) (.hjWrite 0) 0 (reqOf (call K.hjWrite [0, 0, 7])) (call K.hjWrite [0, 0, 7]) ∧
    Calls (on (call K.backupNow []) up) (.backupNow 0) 0 (reqOf (call K.backupNow [])) (call K.backupNow []) ∧
    hjSize < at_ [0xFF, 0xFF, 7] 0 2 + 1 ∧ at_ [0, 0, 7] 0 2 + 1 ≤ hjSize :=
  ⟨calls _ _ _ _ _ _ rfl (by decide) (by decide) (by decide) (by decide) (by decide), calls _ _ _ _ _ _ rfl (by decide) (by decide) (by decide) (by decide) (by decide),
   by decide, by decide⟩
/-- 02:30 of 1 January 2000, and FN at a multiple of 24 hours while time is INVALID. -/
def clockUp : State := { up with dict := [(K.timeTime48, 150 * 61440)] }
def blindUp : State := { up with fn := 88473600 }
theorem wit_HostJournalAndBackups_daily : clockUp.mode = .run ∧ clockUp.ready = true ∧ clockUp.timeValid = true ∧
    (stdNow clockUp % perDay) / perMin = clockUp.cfg clockUp.fn K.backupMinute ∧ clockUp.tk.lastDay ≠ some (stdNow clockUp / perDay) ∧
    blindUp.timeValid = false ∧ blindUp.fn % 88473600 = 0 ∧ blindUp.tk.lastFn ≠ some blindUp.fn := by decide
theorem wit_HostJournalAndBackups_once : ({ blindUp with tk := { blindUp.tk with lastFn := some 88473600 } } : State).tk.lastFn = some blindUp.fn := by decide

theorem wit_CapturesRun : Calls (on (call K.capCaptureNow []) up) (.captureNow 0) 0 (reqOf (call K.capCaptureNow [])) (call K.capCaptureNow []) ∧
    up.live K.capState = 0 ∧ up.cfg up.fn K.capEnable = 1 ∧ up.cap.now = none ∧ (upWith [(liveKey K.capState, 3)]).live K.capState = 3 ∧
    (upWith [(liveKey K.capState, 1)]).live K.capState ≠ 0 ∧ (upWith [(K.capEnable, 0)]).cfg up.fn K.capEnable ≠ 1 ∧
    (upWith [(liveKey K.capState, 2)]).live K.capState = 2 ∧ ({ up.cap with hold := 999999 } : Cap).hold < up.fn ∧ up.fn ≤ ({ up.cap with hold := 1000000 } : Cap).hold :=
  ⟨calls _ _ _ _ _ _ rfl (by decide) (by decide) (by decide) (by decide) (by decide), by decide⟩
def capt : Capt := { id := 1, trig := 0, cause := 0, src := 0, chans := [], pre := 0, post := 0, gen := 0, time := 0, next := 0, rows := [], closed := true }
theorem wit_CapturesRun_done : ∃ (c : Capt) (s : State), s.cap.cur = some c ∧ c.closed = true ∧ s.cap.ring8.length < 63 :=
  ⟨capt, { up with cap := { up.cap with cur := some capt } }, rfl, rfl, by decide⟩

/-- TIME and AT_FN. -/
def timeData (t f : Nat) : Bytes := le 6 t ++ le 6 f
theorem wit_TimeIsSetAndStepped :
    Calls (on (call K.timeTimeSet (timeData time2025 995904)) up) (.timeSet 0) 0 (reqOf (call K.timeTimeSet (timeData time2025 995904))) (call K.timeTimeSet (timeData time2025 995904)) ∧
    bit (up.cfg up.fn K.timeSourceMask) 0 = true ∧ bit ((upWith [(K.timeSourceMask, 2)]).cfg up.fn K.timeSourceMask) 0 = false ∧
    at_ (timeData time2025 995904) 0 6 = time2025 ∧ at_ (timeData time2025 995904) 6 6 ≤ up.fn ∧ up.fn ≤ at_ (timeData time2025 995904) 6 6 + 4096 ∧ time2025 ≠ noTime ∧
    at_ (timeData (time2025 - 1) 0) 0 6 < time2025 ∧ at_ (timeData noTime 0) 0 6 = noTime ∧ up.fn < at_ (timeData 0 1000001) 6 6 ∧
    at_ (timeData 0 995903) 6 6 ≠ 0 ∧ at_ (timeData 0 995903) 6 6 + 4096 < up.fn :=
  ⟨calls _ _ _ _ _ _ rfl (by decide) (by decide) (by decide) (by decide) (by decide), by decide⟩
theorem wit_TimeIsSetAndStepped_step : ({ up.dev with tset := some ⟨1000000, 2, 5⟩ } : Dev).tset = some ⟨1000000, 2, 5⟩ ∧ 1000000 ≤ up.fn ∧ up.fn < 1000001 ∧
    up.cfg up.fn K.calDstEn = 0 := by decide

theorem wit_MethodsPostStores_resume : Calls (on (call K.resume (List.replicate 8 0)) up) (.resume 0) 0 (reqOf (call K.resume (List.replicate 8 0))) (call K.resume (List.replicate 8 0)) ∧
    up.live K.calState ≠ 1 ∧ (upWith [(liveKey K.calState, 1)]).live K.calState = 1 ∧ mayCommit 0 up = true :=
  ⟨calls _ _ _ _ _ _ rfl (by decide) (by decide) (by decide) (by decide) (by decide), by decide⟩
/-- Lane 0 RETIRED, in calibration state; and lane 1 too. -/
def calUp (d : Tab Nat) : State := upWith (d ++ [(liveKey K.calState, 1)])
theorem wit_MethodsPostStores_reinstate :
    Calls (on (call K.reinstate [0, 0, 0]) (calUp [(K.laneFState 0, 2)])) (.reinstate 0) 0 (reqOf (call K.reinstate [0, 0, 0])) (call K.reinstate [0, 0, 0]) ∧
    (calUp []).live K.calState = 1 ∧ (0 < unitCount 0 ∧ unitRetired (calUp [(K.laneFState 0, 2)]) 0 0 = true ∧ laneGone (calUp [(K.laneFState 0, 2)]) 0 0 = false) ∧
    (0 < unitCount 1 ∧ unitRetired (calUp [(K.laneFState 0, 2), (K.laneFState 1, 2), (K.chFState 0, 2)]) 1 0 = true ∧
      laneGone (calUp [(K.laneFState 0, 2), (K.laneFState 1, 2), (K.chFState 0, 2)]) 1 0 = true) ∧ unitRetired (calUp []) 0 0 = false ∧
    unitCount 0 ≤ 32 ∧ (6 : Nat) < 7 ∧ at_ [6, 0, 0] 0 1 = 6 ∧ at_ [3, 0, 0] 0 1 = 3 :=
  ⟨calls _ _ _ _ _ _ rfl (by decide) (by decide) (by decide) (by decide) (by decide), by decide⟩
/-- Host twin record 0 with a usable copy A. -/
def twinUp : State := { up with dict := [(K.twinCount, 1)], pages := [(hostCopy 0 false, { stat := 0 })], seals := [(2 * hostCopy 0 false, { count := 5 })] }
theorem wit_MethodsPostStores_resolve :
    Calls (on (call K.resolve [0, 0, 0]) twinUp) (.resolve 0) 0 (reqOf (call K.resolve [0, 0, 0])) (call K.resolve [0, 0, 0]) ∧
    copyUsable twinUp (hostCopy 0 false) = true ∧ copyUsable up (hostCopy 0 false) = false ∧ 0 < twinUp.cfg twinUp.fn K.twinCount ∧
    twinUp.cfg twinUp.fn K.twinCount ≤ 1 ∧ at_ [2, 0, 0] 0 1 = 2 ∧ mayCommit 0 twinUp = true :=
  ⟨calls _ _ _ _ _ _ rfl (by decide) (by decide) (by decide) (by decide) (by decide), by decide⟩
def backup7 : Backup := { gen := 7, fn := 0, time := 0, count := 0, vals := [], raws := [], ivl := [], ratio := [], valid := true }
def backUp : State := { up with tk := { up.tk with backs := [backup7] } }
theorem wit_MethodsPostStores_restore :
    Calls (on (call K.restore [7, 0, 0, 0, 3]) backUp) (.restore 0) 0 (reqOf (call K.restore [7, 0, 0, 0, 3])) (call K.restore [7, 0, 0, 0, 3]) ∧
    backUp.tk.backs.find? (fun b => b.valid && decide (b.gen = 7)) = some backup7 ∧ at_ [7, 0, 0, 0, 3] 4 1 ≠ 0 ∧ at_ [7, 0, 0, 0, 3] 4 1 < 4 ∧
    at_ [7, 0, 0, 0, 0] 4 1 = 0 ∧ 4 ≤ at_ [7, 0, 0, 0, 4] 4 1 ∧ mayCommit 0 backUp = true :=
  ⟨calls _ _ _ _ _ _ rfl (by decide) (by decide) (by decide) (by decide) (by decide), by decide⟩
/-- A lease of the SPI port, in a given state. -/
def lease : Lease := ⟨[⟨0, 0⟩], 4096, List.replicate 32 0, 877120⟩
def leaseUp (st : Nat) (l : Lease) : State := { up with dict := [(liveKey K.leaseState, st)], img := { up.img with lease := some l } }
theorem wit_MethodsPostStores_activate :
    Calls (on (call K.activate [0, 0, 0, 0, 0, 0]) (leaseUp 2 lease)) (.activate 0) 0 (reqOf (call K.activate [0, 0, 0, 0, 0, 0])) (call K.activate [0, 0, 0, 0, 0, 0]) ∧
    (leaseUp 2 lease).img.lease = some lease ∧ leaseState (leaseUp 2 lease) = 2 ∧ holds (leaseUp 2 lease) (reqOf (call K.activate [])) = true ∧
    sealFits (leaseUp 2 lease) (targetSlot (leaseUp 2 lease)) = true ∧ mayCommit 0 (leaseUp 2 lease) = true ∧ 0 ≤ 1000000 + 3686400 ∧
    1000000 + 3686400 < at_ (le 6 4686401) 0 6 ∧ leaseState (leaseUp 1 lease) ≠ 2 ∧ up.img.lease = none :=
  ⟨calls _ _ _ _ _ _ rfl (by decide) (by decide) (by decide) (by decide) (by decide), by decide +kernel⟩

/-- A page number with 256 bytes. -/
def pageData (p : Nat) : Bytes := le 2 p ++ List.replicate 256 0
theorem wit_RawWritesAreStored :
    Calls (on (call K.pageWrite (pageData 984)) up) (.pageWrite 0) 0 (reqOf (call K.pageWrite (pageData 984))) (call K.pageWrite (pageData 984)) ∧
    at_ (pageData 1024) 0 2 = 1024 ∧ mayRawWrite up 5 984 = true ∧ mayRawWrite up 1 984 = false ∧ pageBusy up 984 = false ∧
    pageBusy { up with jobs := [{ page := 984, fn := 0 }] } 984 = true :=
  ⟨calls _ _ _ _ _ _ rfl (by decide) (by decide) (by decide) (by decide) (by decide), by decide⟩
theorem wit_RawWritesAreStored_twin :
    Calls (on (call K.twinWrite [0, 1]) twinUp) (.twinWrite 0) 0 (reqOf (call K.twinWrite [0, 1])) (call K.twinWrite [0, 1]) ∧
    0 < twinUp.cfg twinUp.fn K.twinCount ∧ twinUp.cfg twinUp.fn K.twinCount ≤ 1 ∧ storeWaits twinUp (hostCopy 0 false) = false ∧
    storeWaits twinUp (hostCopy 0 true) = false ∧ (twinTarget twinUp 0).isSome = true ∧ storeWaits { up with jobs := [{ page := hostCopy 0 true, fn := 0 }] } (hostCopy 0 true) = true :=
  ⟨calls _ _ _ _ _ _ rfl (by decide) (by decide) (by decide) (by decide) (by decide), by decide +kernel⟩

/-! ### Witnesses: updates -/

/-- SIZE, DIGEST and FLAGS of UPDATE_OPEN. -/
def openData (size flags : Nat) : Bytes := le 4 size ++ List.replicate 32 0 ++ le 1 flags

theorem wit_LeasesOpen (f : Nat) (h : f ∈ [0, 1, 2, 3, 4, 255]) :
    Calls (on (call K.updateOpen (openData 4096 f)) up) (.updateOpen 0) 0 (reqOf (call K.updateOpen (openData 4096 f))) (call K.updateOpen (openData 4096 f)) ∧
    at_ (openData 4096 f) 36 1 = f ∧ at_ (openData 4096 f) 0 4 = 4096 := by
  simp only [List.mem_cons, List.not_mem_nil, or_false] at h
  obtain rfl | rfl | rfl | rfl | rfl | rfl := h <;> exact ⟨calls _ _ _ _ _ _ rfl (by decide) (by decide) (by decide) (by decide) (by decide), by decide, by decide⟩
/-- Fewer good sectors than an image of two needs: 127 of the target slot's 128 are retired. -/
def poorUp : State := { up with units := (List.range 127).map (fun i => (unitKey 4 (128 + i), { state := 2 })) }
theorem wit_LeasesOpen_sizes : (7864320 % 4096 = 0 ∧ 4096 ≤ 7864320 ∧ (7864320 + 65535) / 65536 ≤ (slotSecs up (targetSlot up)).length) ∧
    (slotSecs poorUp (targetSlot poorUp)).length < (65537 + 65535) / 65536 ∧ 7864320 < 7868416 ∧ up.img.lease = none ∧ handFixed up = false := by decide +kernel
theorem wit_LeasesOpen_callers :
    (reqOf (call K.updateOpen [])).port = .spi ∧ roleOf up (reqOf (call K.updateOpen [])) = 5 ∧
    roleOf (upWith [(K.sesRoleKey 4, 1)]) (reqOf (call K.updateOpen [])) ≠ 5 ∧ handFixed (upWith [(liveKey K.leaseState, 4)]) = true ∧
    (handFixed (leaseUp 1 lease) = false ∧ (leaseUp 1 lease).img.lease = some lease ∧ leaseState (leaseUp 1 lease) = 1 ∧
      holds (leaseUp 1 lease) (reqOf (call K.updateOpen [])) = true) ∧
    holds (leaseUp 1 { lease with holders := [⟨1, 0⟩] }) (reqOf (call K.updateOpen [])) = false ∧
    lease.size = at_ (openData 4096 1) 0 4 ∧ lease.digest = slice (openData 4096 1) 4 32 ∧ ([⟨1, 0⟩] : List Holder).length < 4 ∧
    4 ≤ ([⟨1, 0⟩, ⟨1, 1⟩, ⟨1, 2⟩, ⟨1, 3⟩] : List Holder).length := by decide +kernel

/-- OFFSET and 256 bytes. -/
def blockData (off : Nat) : Bytes := le 4 off ++ List.replicate 256 7
theorem wit_ImagesAreWritten :
    Calls (on (call K.writeBlock (blockData 3840)) (leaseUp 1 lease)) (.writeBlock 0) 0 (reqOf (call K.writeBlock (blockData 3840))) (call K.writeBlock (blockData 3840)) ∧
    (leaseUp 1 lease).img.lease = some lease ∧ leaseState (leaseUp 1 lease) = 1 ∧ holds (leaseUp 1 lease) (reqOf (call K.writeBlock [])) = true ∧
    at_ (blockData 3840) 0 4 % 256 = 0 ∧ at_ (blockData 3840) 0 4 + 256 ≤ lease.size ∧ lease.size < at_ (blockData 4096) 0 4 + 256 ∧
    at_ (blockData 255) 0 4 % 256 ≠ 0 ∧
    (∀ u ∈ blockUnits 3840 ((blockData 3840).drop 4), unitData (leaseUp 1 lease) 1 u.1 = none) ∧ targetSlot (leaseUp 1 lease) = 1 ∧
    (∃ u ∈ blockUnits 3840 ((blockData 3840).drop 4), u.1 ∉ (getSlot (leaseUp 1 lease) 1).units) :=
  ⟨calls _ _ _ _ _ _ rfl (by decide) (by decide) (by decide) (by decide) (by decide), by decide +kernel⟩
/-- Unit 15 of the target slot is written, with erased bytes. -/
def unitUp : State := { leaseUp 1 lease with img := { (leaseUp 1 lease).img with slots := [(1, { units := [15] })] } }
theorem wit_ImagesAreWritten_again : (∃ u ∈ blockUnits 3840 ((blockData 3840).drop 4), ∃ x, unitData unitUp (targetSlot unitUp) u.1 = some x ∧ x ≠ u.2) ∧
    (∀ u ∈ blockUnits 3840 (List.replicate 256 0xFF), unitData unitUp (targetSlot unitUp) u.1 = some u.2) ∧
    (∀ u ∈ blockUnits 3840 (List.replicate 256 0xFF), u.1 ∈ (getSlot unitUp (targetSlot unitUp)).units) := by decide +kernel
/-- All sixteen units of a 4,096-byte image. -/
def wholeUp (st : Nat) : State := { leaseUp st lease with img := { (leaseUp st lease).img with slots := [(1, { units := List.range 16 })] } }
theorem wit_ImagesAreWritten_verify :
    Calls (on (call K.verify []) (wholeUp 1)) (.verify 0) 0 (reqOf (call K.verify [])) (call K.verify []) ∧ holds (wholeUp 1) (reqOf (call K.verify [])) = true ∧
    lease.size / 256 ≤ (getSlot (wholeUp 1) (targetSlot (wholeUp 1))).units.length ∧ leaseState (wholeUp 1) = 1 ∧ leaseState (wholeUp 2) = 2 ∧ leaseState (wholeUp 3) = 3 ∧
    (getSlot unitUp (targetSlot unitUp)).units.length < lease.size / 256 ∧ imageCheck (wholeUp 1) (targetSlot (wholeUp 1)) ≠ 0 :=
  ⟨calls _ _ _ _ _ _ rfl (by decide) (by decide) (by decide) (by decide) (by decide), by decide +kernel⟩
/-- A slot that still holds the image installed at manufacture passes. -/
theorem wit_ImagesAreWritten_passes : imageCheck up 0 = 0 := by decide +kernel

theorem wit_LeasesEnd (st : Nat) (h : st ∈ [1, 2, 3, 4]) :
    Calls (on (call K.abort []) (leaseUp st lease)) (.abort 0) 0 (reqOf (call K.abort [])) (call K.abort []) ∧
    holds (on (call K.abort []) (leaseUp st lease)) (reqOf (call K.abort [])) = true ∧ handFixed (leaseUp st lease) = decide (st = 4) ∧ leaseState (leaseUp st lease) = st := by
  simp only [List.mem_cons, List.not_mem_nil, or_false] at h
  obtain rfl | rfl | rfl | rfl := h <;> exact ⟨calls _ _ _ _ _ _ rfl (by decide) (by decide) (by decide) (by decide) (by decide), by decide +kernel⟩
theorem wit_LeasesEnd_expiry : (leaseUp 1 lease).img.lease = some lease ∧ lease.lastFn + 122880 ≤ up.fn ∧
    up.fn < ({ lease with lastFn := 877121 } : Lease).lastFn + 122880 := by decide

/-- A key command whose VERSION is wrong. -/
theorem wit_OwnerKeysChange :
    Calls (on (call K.keyCommand (List.replicate 3780 0)) up) (.keyCommand 0) 0 (reqOf (call K.keyCommand (List.replicate 3780 0))) (call K.keyCommand (List.replicate 3780 0)) ∧
    keyCheck up (List.replicate 3780 0) ≠ 0 :=
  ⟨calls _ _ _ _ _ _ rfl (by decide) (by decide) (by decide) (by decide) (by decide), by decide +kernel⟩
/-- One that installs a key in slot 3, by the root key; it passes wherever the root key's hash and its signature verify. -/
def keyData : Bytes := le 2 1 ++ le 1 1 ++ le 1 3 ++ List.replicate 3776 0
theorem wit_OwnerKeysChange_passes (h : sha3_256 (slice keyData 48 1312) = le 32 (up.get K.rootHash))
    (v : Config.mldsaVerify (slice keyData 48 1312) (sha3_256 (slice keyData 0 48)) (slice keyData 1360 2420) = true) :
    keyCheck up keyData = 0 ∧ at_ keyData 3 1 = 3 := by
  have hs : signerOk up (at_ keyData 13 1) (slice keyData 48 1312) = true := by
    have e : at_ keyData 13 1 = 0 := by decide +kernel
    simp [signerOk, e, h]
  refine ⟨?_, by decide +kernel⟩
  unfold keyCheck
  rw [if_neg (by decide +kernel), if_neg (by decide +kernel), if_neg (by simp [hs]), if_neg (by simp [v]), if_pos (by decide +kernel), if_pos (by decide +kernel)]

/-- Handovers to slot 1 with B = 1,000,017, and to slot 1 with B = 1,000,000. -/
def ho : Handover := { slot := 1, b := 1000017 }
def hoUp (h : Handover) : State := { up with img := { up.img with hand := some h } }
theorem wit_HandoversRun : (hoUp ho).img.hand = some ho ∧ ho.prepared = false ∧ up.fn + 16 < ho.b ∧
    (({ ho with prepared := true, b := 1000016 } : Handover).quiet = false ∧ (1000016 : Nat) ≤ up.fn + 16) ∧
    (({ ho with quiet := true, b := 1000000 } : Handover).begun = false ∧ (1000000 : Nat) ≤ up.fn ∧ ho.slot < 2) ∧
    (({ ho with begun := true, b := 999999 } : Handover).switched = false ∧ (999999 : Nat) + 1 ≤ up.fn) ∧
    (({ ho with pass := true } : Handover).pass = true ∧ up.get K.activeSlot = 1 - ho.slot) ∧
    (({ ho with fail := some (2, 999998) } : Handover).fail = some (2, 999998) ∧ (999998 : Nat) + 2 ≤ up.fn ∧ up.fn < 999999 + 2) := by decide

/-- FRESHNESS, one object of circuit 0. -/
def signData (n : Nat) : Bytes := le 8 0 ++ le 1 n ++ le 2 0x4000 ++ le 1 0
theorem wit_CertificatesAndTokens : Serves (on (opOn 0x12 0 (signData 1)) up) 0 (reqOf (opOn 0x12 0 (signData 1))) (opOn 0x12 0 (signData 1)) ∧
    (signData 1).length = 9 + 3 * 1 ∧ (List.replicate 8 (0 : Byte)).length < 9 ∧ at_ (signData 0) 8 1 < 1 ∧ 120 < at_ (signData 121) 8 1 ∧
    signStatus 5 (listedKeys ((signData 1).drop 9) 1) = 0 ∧ signStatus 5 [0] ≠ 0 ∧ (reqOf (opOn 0x12 0 (signData 1))).snap = some snap ∧
    (up.bill.certs.filter (fun f => decide (up.fn < f + 1024))).length < 50 ∧
    50 ≤ ((List.replicate 50 998977).filter (fun f => decide (up.fn < f + 1024))).length :=
  ⟨on_serves _ _ (by decide) (by decide), by decide +kernel⟩
theorem wit_CertificatesAndTokens_token (v : Nat) (h : v = 5 ∨ v = 6) :
    Serves (on (opOn 0x20 K.hostToken (le 8 5)) (upWith [(K.installToken, v)])) 0 (reqOf (opOn 0x20 K.hostToken (le 8 5))) (opOn 0x20 K.hostToken (le 8 5)) ∧
    (opOn 0x20 K.hostToken (le 8 5)).key = K.hostToken ∧ checkWrite (upWith [(K.installToken, v)]) 5 K.hostToken (le 8 5) = (0, 5) ∧
    (checkWrite up 5 K.hostToken []).1 ≠ 0 ∧ up.cfg up.fn K.installToken = 0 ∧ (upWith [(K.installToken, v)]).cfg up.fn K.installToken = v := by
  obtain rfl | rfl := h <;> exact ⟨on_serves _ _ (by decide) (by decide), by decide⟩

theorem wit_CertificatesAndTokens_readOnly (rw : Bool) :
    Serves (onTxn (opOn 0x20 K.hostToken (le 8 5)) (txn rw) up) 0 (inTxn (opOn 0x20 K.hostToken (le 8 5))) (opOn 0x20 K.hostToken (le 8 5)) ∧
    (checkWrite (onTxn (opOn 0x20 K.hostToken (le 8 5)) (txn rw) up) 5 K.hostToken (le 8 5)).1 = 0 ∧
    inReadOnly (onTxn (opOn 0x20 K.hostToken (le 8 5)) (txn rw) up) (inTxn (opOn 0x20 K.hostToken (le 8 5))) = !rw := by
  cases rw <;> exact ⟨⟨by decide, by decide, rfl, rfl, Or.inr (by decide)⟩, by decide, by decide⟩

/-! ### Witnesses: measurement -/

/-- A constant raw sample of period `g`; newest first, from period 31 down. -/
def raw (x : Int) (g : Nat) : RawS :=
  { g := g, x := x, y := x, miss := false, sat := false, clip := false, high := false, skew := 0, aff := false, est := false, code := 0, fs := 0, intK := 0, rog := false }
def line (x : Int) : List RawS := (List.range 32).map (fun i => raw x (31 - i))
theorem wit_SamplesAreTakenAndAligned_filter : ((max 1792 (0 : Int)).toNat / 256 - 7 = 0 ∧ (max 1792 (0 : Int)).toNat % 256 = 0) ∧
    ((max 1792 (2303 : Int)).toNat / 256 - 7 = 1 ∧ (max 1792 (2303 : Int)).toNat % 256 = 255) ∧
    (∀ t, t < 16 → ∃ r, histAt (line (2 ^ 47 - 1)) (31 - 0 - t) = some r ∧ r.y = 2 ^ 47 - 1 ∧ -(2 ^ 47 : Int) ≤ 2 ^ 47 - 1 ∧ (2 ^ 47 - 1 : Int) < 2 ^ 47) ∧
    (∀ t, t < 16 → ∃ r, histAt (line (-(2 ^ 47))) (31 - 1 - t) = some r ∧ r.y = -(2 ^ 47)) := by
  refine ⟨by decide, by decide, ?_, ?_⟩
  · intro t h; exact ⟨raw (2 ^ 47 - 1) (31 - t), by revert t; decide, rfl, by decide, by decide⟩
  · intro t h; exact ⟨raw (-(2 ^ 47)) (30 - t), by revert t; decide, rfl⟩
/-- A signal with the signs of the coefficients at half a sample saturates the filter's result. -/
def peaks : List Int := (coeff 128).map (fun h => if h < 0 then -(2 ^ 47) else 2 ^ 47 - 1)
theorem wit_SamplesAreTakenAndAligned_saturates : peaks.length = 16 ∧ (∀ x ∈ peaks, -(2 ^ 47 : Int) ≤ x ∧ x < 2 ^ 47) ∧
    (2 ^ 47 : Int) ≤ rdiv (sumI ((List.range 16).map (fun t => ati (coeff 128) t * ati peaks t))) (2 ^ 23) ∧
    rdiv (sumI ((List.range 16).map (fun t => ati (coeff 128) t * -ati peaks t))) (2 ^ 23) < -(2 ^ 47) := by decide +kernel

/-- Sampling began with frame 999,000. -/
def acqUp (p : Nat) : State := { up with acq := { up.acq with first := some 999000, period := p } }
theorem wit_SamplesAreTakenAndAligned_periods : (acqUp 15).mode = .run ∧ (acqUp 15).acq.first ≠ none ∧ (acqUp 15).acq.period < 16 ∧ 16 ≤ (acqUp 16).acq.period := by decide
def alnUp (n : Nat) (l : List AFrame) : State := { acqUp 16 with aln := { up.aln with next := n, ring1 := l } }
def afr : AFrame := ⟨999999, false, [], []⟩
/-- A frame with the channel-frames of every input. -/
def afr12 : AFrame := { afr with chans := (List.range 268).map (fun k => (k, some ⟨[], [], false⟩)) }
theorem wit_SamplesAreTakenAndAligned_aligner : alignDue (alnUp 16000012 []) = true ∧ alignDue (alnUp 16000013 []) = false ∧ alignDue (alnUp 15999999 []) = true ∧
    15999999 % 16 = 15 ∧ 999000 + 2 ≤ 15999999 / 16 ∧ 16000012 % 16 ≠ 15 ∧ (alnUp 15999999 []).acq.first = some 999000 ∧
    ring1Full (alnUp 15999999 [afr12, afr12, afr12]) 999999 = true ∧ ring1Full (alnUp 15999999 [afr12, afr12]) 999999 = false := by decide +kernel
theorem wit_SamplesAreTakenAndAligned_takeover : ([⟨5, 1000000⟩] : List Takeover).find? (fun t => decide (t.lane = (5 : Fin 32).val)) = some ⟨5, 1000000⟩ ∧
    ([⟨5, 1000001⟩] : List Takeover).find? (fun t => decide (t.lane = (5 : Fin 32).val)) = some ⟨5, 1000001⟩ ∧ 1000000 ≤ up.fn ∧ up.fn < 1000001 ∧
    up.get (K.laneFState (partner 5)) = 0 ∧ (upWith [(K.laneFState (partner 5), 1)]).get (K.laneFState (partner 5)) < 2 := by decide
theorem wit_SamplesAreTakenAndAligned_range : tget {} [(7, ({ since := 400 } : RangeCtl))] 7 = { since := 400 } ∧ 400 ≤ ({ since := 400 } : RangeCtl).since ∧
    ({ since := 399 } : RangeCtl).since < 400 ∧ up.cfg up.fn (K.chRangeMode 7) = 0 := by decide

def tanUp (r1 : List AFrame) (t : Tan) : State := { up with aln := { up.aln with ring1 := r1 }, tan := t }
def r3 (f : Nat) : R3 := { fn := f, lost := false, ccts := [], base := [], done := 0, fin := false, bal := [], balSkip := false }
def hwin : HWin := { fn := 999999, sync := true }
/-- A result of circuit 0, not missing. -/
def cres : CRes := { c := 0, missing := false, sp := [], sq := [], ss := [], vec := [], flags := 0, live := [], shp := [], shq := [] }
theorem wit_TanneryComputesFrames : tanneryStall (tanUp [afr] {}) afr.fn = none ∧ (tanUp [afr] {}).aln.ring1 = afr :: [] ∧ (tanUp [afr] {}).mode = .run ∧
    tanneryStall { tanUp [afr] { ring3 := List.replicate 4 { r3 999995 with ccts := [cres] } } with dict := [(K.cctKind 0, 1)] } afr.fn = some 3 ∧
    tanneryStall { tanUp [afr] { ring3 := List.replicate 3 { r3 999995 with ccts := [cres] } } with dict := [(K.cctKind 0, 1)] } afr.fn = none ∧
    ({ tanUp [afr] {} with mode := .recovery } : State).mode = .recovery := by decide
theorem wit_TanneryComputesFrames_half : (tget {} (tanUp [] { zc := [(11, { due := [⟨true, 5, 1280, true, false⟩] })] }).tan.zc (11 : Fin 12).val).due = ⟨true, 5, 1280, true, false⟩ :: [] := by decide
/-- Harmonics of CH-n are on by the object default of the spectrum chapter, or set here. -/
def harmUp (en : Nat) (r : List SpecRes) : State :=
  { tanUp [] { harm := [(0, { ready := [hwin] })], ring4 := r } with dict := [(K.spHarmEn 0, en)] }
theorem wit_TanneryComputesFrames_harm : (tget {} (harmUp 1 []).tan.harm (inputNum (.cur 0))).ready = hwin :: [] ∧ winCounts (harmUp 1 []) (inputNum (.cur 0)) hwin = true ∧
    winCounts (harmUp 0 []) (inputNum (.cur 0)) hwin = false ∧ winCounts (harmUp 1 []) (inputNum (.cur 0)) { hwin with sync := false } = false ∧
    ring4Used (harmUp 1 []) < 2 * harmInputs (harmUp 1 []) hwin.fn ∧
    2 * harmInputs (harmUp 1 (List.replicate 536 ⟨0, 999998, []⟩)) hwin.fn ≤ ring4Used (harmUp 1 (List.replicate 536 ⟨0, 999998, []⟩)) := by decide +kernel
def f10 : Zc := { locked := true, f10Bad := false, f10First := some 1000, f10Last := some 5000, f10Cnt := 2 }
theorem wit_TanneryComputesFrames_interval : (tanUp [] { zc := [(3, f10)], ivalEnd := some 999999 }).tan.ivalEnd = some 999999 ∧ up.tan.ivalEnd = none ∧
    tget {} [(3, f10)] 3 = f10 ∧ f10.f10First = some 1000 ∧ f10.f10Last = some 5000 ∧ f10.f10Bad = false ∧ (1000 : Int) < 5000 ∧
    (tget ({} : Zc) [(3, f10)] 4).f10Bad = true ∧ (tget ({} : Zc) [(3, f10)] 4).f10First = none := by decide

theorem wit_LanesAndVoltages : up.cfg up.fn (K.vEnable 11) = 1 ∧ 0 < free0 up ∧ free0 { up with acq := { up.acq with credit0 := 0 } } = 0 ∧ up.fn ∉ up.acq.lost ∧
    (-(2 ^ 47 : Int) ≤ -(2 ^ 47) ∧ (-(2 ^ 47) : Int) < 2 ^ 47) ∧ ((0 : Int) ≤ 5 ∧ (10 : Int) - 5 ≤ 15 ∧ (15 : Int) ≤ 10 + 5) := by decide
theorem wit_TotalIsSumOfSets : 255 < 256 ∧ (getC up 255).tariff.getD 0 < 8 ∧ (∀ e ∈ [(⟨7, 2 ^ 104, 7, 0⟩ : Ent), ⟨1, -5, 1, 5⟩], e.kind < 8) ∧
    (∀ k, k < 8 → setSum up 255 k = regTot up 255 (64 + k)) := by decide
/-- Circuit 0, register kind 2: 5 mWh in the set of tariff 3, and in TOTAL. -/
theorem wit_TotalIsSumOfSets_some : ∀ k, k < 8 → setSum (upWith [(liveKey (K.cctReg 0 26), 5), (liveKey (K.cctReg 0 66), 5)]) 0 k =
    regTot (upWith [(liveKey (K.cctReg 0 26), 5), (liveKey (K.cctReg 0 66), 5)]) 0 (64 + k) := by decide

def hallUp (g : Option Nat) (b : Bool) (n : Nat) : State :=
  { up with bill := { up.bill with g := g, begun := b }, tan := { up.tan with ring3 := [{ r3 999998 with ccts := [cres, cres], done := n }] } }
theorem wit_FramesAreAccrued : workQueue (hallUp none false 0) = { r3 999998 with ccts := [cres, cres], done := 0 } :: [] ∧ (hallUp none false 0).mode = .run ∧
    (hallUp none false 0).pwr.gap = none ∧ (hallUp none false 0).bill.g = none ∧ (hallUp (some 999999) false 0).bill.g = some 999999 ∧ 999998 < 999999 ∧
    ((hallUp (some 999998) true 0).bill.begun = true ∧ 999998 ≤ 999998 ∧ [cres, cres][0]? = some cres ∧ cres.missing = false ∧ 0 + 1 < [cres, cres].length) ∧
    ([cres, cres][1]? = some cres ∧ [cres, cres].length ≤ 1 + 1) ∧ (hallUp (some 999998) false 0).bill.begun = false ∧ (hallUp (some 999998) false 0).rollq = [] ∧
    ({ hallUp (some 999998) false 0 with rollq := [3] } : State).rollq ≠ [] := by decide
/-- The frame after the one in which billing resumed: circuit 0 with tariff 7, its registers below 2^104; and with a circuit that has accrued power. -/
theorem wit_FramesAreAccrued_registers : (hallUp (some 999997) true 0).bill.g = some 999997 ∧ 999997 < 999998 ∧ (hallUp (some 999997) true 0).bill.begun = true ∧ cres.c < 256 ∧
    0 + 1 < [cres, cres].length ∧ (getC (hallUp (some 999997) true 0) cres.c).tariff.getD 0 < 8 ∧
    (∀ i, i < 72 → regTot (hallUp (some 999997) true 0) cres.c i < 2 ^ 104) := by decide
/-- CLOSE_NOW has marked every schedule; circuit 0, on SCHED-0, has both slots free. -/
def closeUp : State :=
  let s := hallUp (some 999998) false 0
  { s with bill := { s.bill with closes := [(15, 999998)] } }
theorem wit_FramesAreAccrued_closes (sc : Nat) (h : sc < 4) : (∃ e ∈ closeUp.bill.closes, bit e.1 sc = true ∧ e.2 ≤ 999998) ∧
    (∀ w ∈ closeUp.bill.waits, ¬(w.kind = 0 ∧ w.id = sc)) ∧ commitAt closeUp 999998 = false ∧ closeUp.bill.steps = [] ∧
    (∀ c ∈ schedCcts closeUp 999998 sc, (getC closeUp c).slotA = none ∨ (getC closeUp c).slotB = none) ∧ closeUp.bill.begun = false := by
  have : sc = 0 ∨ sc = 1 ∨ sc = 2 ∨ sc = 3 := by omega
  obtain rfl | rfl | rfl | rfl := this <;> decide +kernel

theorem wit_MeteringEvents_direction : 1024 ≤ (getC { up with bill := { up.bill with cct := [(255, { dirCnt := 1024 })] } } (255 : Fin 256).val).dirCnt ∧
    (getC { up with bill := { up.bill with cct := [(255, { dirCnt := 1023 })] } } (255 : Fin 256).val).dirCnt < 1024 := by decide
def rateUp (st : Nat) : State := { upWith [(liveKey K.balState, st)] with bill := { up.bill with rateDue := true, unacc := List.replicate 901 7 } }
theorem wit_MeteringEvents_rate (st : Nat) (h : st = 1 ∨ st = 2 ∨ st = 3) : (rateUp st).bill.rateDue = true ∧ (rateUp st).bill.unacc.head? = some 7 ∧
    (rateUp st).bill.unacc[900]? = some 7 ∧ (rateUp st).live K.balState ≠ 0 ∧ (rateUp st).cfg ((rateUp st).bill.next - 1) K.balThreshold = 50 := by
  obtain rfl | rfl | rfl := h <;> decide
/-- 10 s after the first aligned frame, with and without a reference of the 60 Hz band. -/
def wireUp (ref : Nat) (w : Bool) : State :=
  { up with dict := [(K.wiringRef, ref)], acq := { up.acq with first := some 989758 }, tan := { up.tan with bandSet := true }, bill := { up.bill with wireRef := w } }
theorem wit_MeteringEvents_wiring : (wireUp 2 false).mode = .run ∧ (wireUp 2 false).bill.wired = false ∧ wiringDue (wireUp 2 false) = true ∧
    hasWiringRef (le 16 ((wireUp 2 false).get K.wiringRef)) = true ∧ hasWiringRef (le 16 (up.get K.wiringRef)) = false ∧ (wireUp 2 true).bill.wireRef = true ∧
    bandDiffers (le 16 2) (wiringBytes (wireUp 2 false)) = true ∧ wiringDue up = false ∧
    (hasWiringRef (wiringBytes (wireUp 2 false)) = true ∧ bandDiffers (wiringBytes (wireUp 2 false)) (wiringBytes (wireUp 2 false)) = false ∧
      anglesDiffer (wireUp 2 false) (wiringBytes (wireUp 2 false)) (wiringBytes (wireUp 2 false)) = false) := by decide
def staleUp (a : Nat) : State := { up with bill := { up.bill with staleAt := some a } }
theorem wit_MeteringEvents_stale : (staleUp 1000000).bill.staleAt = some 1000000 ∧ (staleUp 1000000).bill.staleTo = none ∧ (staleUp 1000000).mode = .run ∧
    (staleUp 1000000).live K.stale = 0 ∧ 1000000 ≤ (staleUp 1000000).fn ∧ (staleUp 1000001).fn < 1000001 := by decide
def calRunUp (n lvl st : Nat) : State := { upWith [(liveKey K.calEnLevel, lvl), (liveKey K.calState, st)] with dev := { up.dev with calRun := n } }
theorem wit_MeteringEvents_cal : 16 ≤ (calRunUp 16 1 0).dev.calRun ∧ (calRunUp 16 1 0).live K.calEnLevel ≠ (calRunUp 16 1 0).live K.calState ∧
    (calRunUp 16 1 0).live K.calEnLevel = 1 ∧ (calRunUp 16 0 1).live K.calEnLevel ≠ (calRunUp 16 0 1).live K.calState ∧ (calRunUp 16 0 1).live K.calEnLevel ≠ 1 ∧
    (∀ c ∈ (calRunUp 16 0 1).commits, (calRunUp 16 0 1).fn < c.b → ∀ g ∈ c.chg, g.key ≠ K.bgHold) ∧
    (∃ c ∈ ({ calRunUp 16 0 1 with commits := [⟨1000001, 999999, 9, [⟨K.bgHold, 0, 1⟩], .write, false, 0, 5⟩] } : State).commits, up.fn < c.b ∧ ∃ g ∈ c.chg, g.key = K.bgHold) ∧
    (calRunUp 15 1 0).dev.calRun < 16 ∧ (calRunUp 16 1 1).live K.calEnLevel = (calRunUp 16 1 1).live K.calState := by decide
theorem wit_MeteringEvents_close (m : Byte) (h : m = 0 ∨ m = 1 ∨ m = 15 ∨ m = 16) :
    Calls (on (call (K.bpCloseNow 0) [m]) up) (.closeNow 0) 0 (reqOf (call (K.bpCloseNow 0) [m])) (call (K.bpCloseNow 0) [m]) := by
  obtain rfl | rfl | rfl | rfl := h <;> exact calls _ _ _ _ _ _ rfl (by decide) (by decide) (by decide) (by decide) (by decide)
theorem wit_MeteringEvents_masks : at_ [(0 : Byte)] 0 1 = 0 ∧ at_ [(15 : Byte)] 0 1 = 15 ∧ 16 ≤ at_ [(16 : Byte)] 0 1 := by decide

def profUp (o7 r7 : List (Nat × Bytes)) : State := { up with bill := { up.bill with profDue := [(9, [])], over7 := o7, ring7 := r7 } }
def pub : State := { up with staging := [snap] }
theorem wit_RollsPulsesAndRings : (profUp [] []).mode = .run ∧ (profUp [] []).bill.profDue = (9, []) :: [] ∧ (profUp [] (List.replicate 7 (1, []))).bill.ring7.length < 8 ∧
    8 ≤ (profUp [] (List.replicate 8 (1, []))).bill.ring7.length ∧ (profUp [(8, [])] []).bill.over7 = (8, []) :: [] ∧ pub.mode = .run ∧ pub.staging = snap :: [] ∧
    (8 : Fin 16).val ∉ [6, 7, 12, 13, 14, 15] ∧ (profUp [] []).rollq = [] := by decide
def ptx : PTx := { dest := none, msg := .toneMapRequest, fn := 999999, on := true }
def pulseUp (o : PulseOut) : State :=
  { upWith [(K.poEnable 7, 1)] with acq := { up.acq with period := 1 }, pulse := { up.pulse with out := [(7, o)] } }
theorem wit_RollsPulsesAndRings_pulse : (pulseUp { due := [16000000] }).cfg up.fn (K.poEnable (7 : Fin 8).val) = 1 ∧
    tget {} (pulseUp { due := [16000000] }).pulse.out 7 = { due := [16000000] } ∧ nowPeriod (pulseUp {}) = 16000000 ∧ nowPeriod (pulseUp {}) < 16000001 ∧
    tget {} (pulseUp { high := some 16000000 }).pulse.out 7 = { high := some 16000000 } ∧ ({ due := [16000000], idle := 16000000 } : PulseOut).idle ≤ 16000000 := by decide
theorem wit_RollsPulsesAndRings_credit : ({ up.plc with ring14 := [ptx] } : Plc).ring14 = ptx :: [] ∧ ptx.dest = none ∧ ptx.on = true ∧
    ({ up.plc with str := { busy := true } } : Plc).str.busy = true := by decide

/-! ### Witnesses: checks of units -/

/-- Frame 1,024: the check of the inputs 0 of each lane; conversions of period 9 are in. -/
def chkUp (f : Nat) (d : Tab Nat) (open_ : List Nat) (extra : List (Nat × Nat)) : State :=
  { up with fn := f, dict := d, acq := { up.acq with first := some 0, period := 9, openFail := open_, extra := extra } }
theorem wit_ChecksRetireUnits : chanReady (chkUp 1024 [] [] []) 8 = true ∧ (chkUp 1024 [] [] []).fn % 128 = 0 ∧ (chkUp 1024 [] [] []).fn / 128 % 8 = 8 % 8 ∧
    tget 0 (chkUp 1024 [] [] []).acq.lastChk 8 ≠ 1025 ∧ stuckFails (chkUp 1024 [] [] []) 1024 8 = false ∧ 8 ∉ (chkUp 1024 [] [] []).acq.openFail ∧
    8 ∈ (chkUp 1024 [] [8] []).acq.openFail ∧ (chkUp 1024 [(K.chFState 8, 1), (K.chFPassRun 8, 7)] [] []).get (K.chFState 8) = 1 ∧
    (chkUp 1024 [] [] []).cfg 1024 K.chOkRun = 8 ∧ (chkUp 1024 [] [] []).cfg 1024 K.chRetireRun = 3 := by decide
theorem wit_ChecksRetireUnits_extra : chanReady (chkUp 1040 [] [] [(8, 1040)]) 8 = true ∧ extraNow (chkUp 1040 [] [] [(8, 1040)]) 8 = true ∧
    mag 50 ≤ (chkUp 1040 [] [] []).cfg 1040 K.cmLimit ∧ ((chkUp 1040 [] [] []).cfg 1040 K.cmLimit : Int) < mag (-51) ∧
    stuckFails (chkUp 1040 [] [] []) 1040 8 = false := by decide
theorem wit_ChecksRetireUnits_voltage : (chkUp 600 [] [] []).mode = .run ∧ (chkUp 600 [] [] []).cfg 600 (K.vEnable 11) = 1 ∧ (chkUp 600 [] [] []).get (K.vFState 11) ≠ 2 ∧
    8 < (chkUp 600 [] [] []).acq.period ∧ 600 % 1024 = 512 + 8 * 11 ∧ tget 0 (chkUp 600 [] [] []).acq.lastChk (256 + 11) ≠ 601 := by decide
theorem wit_ChecksRetireUnits_ports : up.mode = .run ∧ portOff up .t1s = false ∧ portOff up .plc = false ∧ (portUnit up 1).fail < 2 ∧ up.get (K.portState 1) = 0 ∧
    2 ≤ (portUnit { up with units := [(unitKey 6 2, { fail := 2 })] } 2).fail := by decide
def nbr : Nbr := { addr := 5, state := 1, since := 385600, toneFn := 877120 }
theorem wit_ChecksRetireUnits_routes : tget none [(63, some nbr)] 63 = some nbr ∧ nbr.state = 1 ∧ nbr.since + 1024 * up.cfg up.fn K.routeTimeout ≤ up.fn ∧
    up.fn < ({ nbr with since := 385601 } : Nbr).since + 1024 * up.cfg up.fn K.routeTimeout := by decide

/-! ### Witnesses: the power line and the time base -/

def plcIn (st : Nat) (p : Plc) : State := { upWith [(K.plcPsk, 7), (liveKey K.plcState, st)] with plc := p }
theorem wit_PowerLineWorks : plcUp up = true ∧ plcUp (plcIn 3 {}) = true ∧ plcState (plcIn 3 {}) = 3 ∧ plcState (plcIn 1 {}) ≠ 3 ∧ hasPsk (plcIn 1 {}) = true ∧
    hasPsk up = false ∧ plcState up ≠ 3 ∧ (plcIn 1 {}).plc.retry = none ∧ (plcIn 2 { retry := some 1000000 }).plc.retry = some 1000000 ∧ 1000000 ≤ up.fn ∧ up.fn < 1000001 := by decide
/-- RING-15 with n frames waiting. -/
def rxFrame : PlcFrame := ⟨5, 200, 0, 0, true, .other⟩
def ring15Up (n : Nat) : State := { up with ready := false, plc := { up.plc with ring15 := List.replicate n rxFrame } }
theorem wit_PowerLineWorks_ring15 : plcOn (ring15Up 15) = true ∧ (ring15Up 15).ready = false ∧ (ring15Up 15).plc.ring15.length < 16 ∧
    16 ≤ (ring15Up 16).plc.ring15.length ∧ up.plc.ring15 = [] := by decide
theorem wit_PowerLineWorks_kinds : needsSecurity (.datagram gram) = true ∧ ({ rxFrame with secured := false } : PlcFrame).secured = false ∧ rxFrame.secured = true ∧
    (plcIn 3 {}).plc.ring15 = [] ∧ badDatagram gram = false ∧ badDatagram { gram with dstPort := 1 } = true ∧ plcOwn (plcIn 3 {}) gram.dst = false ∧
    plcOwn (plcIn 3 {}) (plcLinkLocal (plcIn 3 {})) = true ∧ plcLinkLocal (plcIn 3 {}) < 2 ^ 128 := by decide
/-- A scan has found two PANs; the second has the lower route cost. -/
def twoPans : List Beacon := [⟨1, 10, 9⟩, ⟨2, 20, 3⟩]
theorem wit_PowerLineWorks_scan : twoPans ≠ [] ∧ hasPsk (plcIn 1 {}) = true ∧ hasPsk up = false ∧ (plcIn 2 { cand := some ⟨2, 20, 3⟩ }).plc.cand = some ⟨2, 20, 3⟩ ∧
    (plcIn 1 {}).plc.cand = none ∧ (plcIn 2 { cand := some ⟨2, 20, 3⟩ }).plc.cand ≠ none ∧ plcState (plcIn 2 {}) ≠ 3 := by decide
def uni : PTx := { dest := some 5, next := 5, msg := .echoReply, fn := 969280, on := true }
theorem wit_PowerLineWorks_sent : (plcIn 3 { ring14 := [uni], nbr := [(0, some nbr)] }).plc.ring14 = uni :: [] ∧ uni.dest ≠ none ∧ uni.on = true ∧
    (∀ x ∈ (plcIn 3 { ring14 := [{ uni with on := false }] }).plc.ring14.head?, x.on = false) ∧ nbrRetired (plcIn 3 { nbr := [(0, some nbr)] }) 5 = false ∧
    nbrRetired (plcIn 3 { nbr := [(0, some { nbr with state := 2 })] }) 5 = true ∧ (plcIn 3 { str := { busy := true } }).plc.str.busy = true ∧
    nbrOf (plcIn 3 { ring14 := [uni], nbr := [(0, some nbr)] }) uni.next = some (0, nbr) ∧
    (∃ x ∈ [uni], x.fn + 30720 ≤ up.fn) ∧ (∀ x ∈ [{ uni with fn := 969281 }], up.fn < x.fn + 30720) ∧
    plcJoined (plcIn 3 {}) = true ∧ nbr.toneFn + 122880 ≤ up.fn ∧ up.fn < ({ nbr with toneFn := 877121 } : Nbr).toneFn + 122880 := by decide
theorem wit_PowerLineWorks_offer : b2n (wantsOffer (plcIn 3 { offer := { good := 60 } })) ≠ (plcIn 3 {}).live K.lfOffering ∧
    b2n (wantsOffer (plcIn 3 { offer := { good := 59 } })) = (plcIn 3 {}).live K.lfOffering ∧
    ({ hold := some 1000000 } : Offer).hold = some 1000000 := by decide
def ann : Ann := { cycle := 78, deadline := 0, bytes := [] }
theorem wit_PowerLineWorks_stranger : up.cfg up.fn K.plcStrangerLvl = 20 ∧ (7 * 20 ≤ 10 * 14 ∧ 10 * 13 < 7 * 20) ∧ ({ hi := 1 } : Stranger).busy = false ∧ 1 ≤ ({ hi := 1 } : Stranger).hi ∧
    4 ≤ ({ busy := true, lo := 4 } : Stranger).lo ∧ plcWaits (plcIn 3 { ring14 := [{ uni with on := false }] }) = true ∧
    plcWaits (plcIn 3 { ring14 := [uni], ann := some { ann with may := false } }) = true ∧ (∀ x ∈ (plcIn 3 { ring14 := [uni] }).plc.ring14.head?, x.on = true) ∧
    up.cfg up.fn K.plcStrangerMax ≤ ({ busy := true, wait := 500 } : Stranger).wait ∧ ({ busy := true, wait := 499 } : Stranger).wait < up.cfg up.fn K.plcStrangerMax := by decide

/-- Joined, with a number for the newest crossing; a leader. -/
def tbDict (st role : Nat) : Tab Nat := [(K.plcPsk, 7), (K.tbTbRole, role), (liveKey K.plcState, 3), (liveKey K.tbTbState, st)]
def tbUp (st role : Nat) (x : Plc) : State := { plcIn 3 x with dict := tbDict st role, tb := { num := some 77, p := 5497558139, used := [0], acc := 989760 } }
theorem wit_NetworkTimeBase : (tbUp 2 1 {}).tb.num = some 77 ∧ announces (tbUp 2 1 {}) = true ∧ (tbUp 2 1 {}).plc.ann = none ∧ (tbUp 2 1 {}).plc.annFn = none ∧
    announces (tbUp 1 1 {}) = false ∧ (tbUp 2 1 { ann := some ann }).plc.ann = some ann ∧ (tbUp 2 1 {}).cfg up.fn K.tbAnnouncePeriod = 10 ∧
    989760 + 1024 * 10 ≤ up.fn ∧ up.fn < 989761 + 1024 * 10 := by decide
/-- Directly after a cycle starts there is time before the deadline of the next; at its end there is none. -/
theorem wit_NetworkTimeBase_deadline : ∃ s : State, s.tb.num = some 77 ∧ announces s = true ∧ s.plc.ann = none ∧
    justStarted s 77 (tbCurrent s 77 (nowInstant s) + 1 - 1) = true ∧
    (nowInstant s < tbStart s 77 (tbCurrent s 77 (nowInstant s) + 1) - twoMs) := ⟨{ tbUp 2 1 {} with fn := 1000018 }, by decide +kernel⟩
theorem wit_NetworkTimeBase_later : ∃ s : State, s.tb.num = some 77 ∧ announces s = true ∧ s.plc.ann = none ∧
    justStarted s 77 (tbCurrent s 77 (nowInstant s) + 1 - 1) = false := ⟨tbUp 2 1 {}, by decide +kernel⟩
theorem wit_NetworkTimeBase_past : ∃ s : State, s.tb.num = some 77 ∧ announces s = true ∧ s.plc.ann = none ∧
    tbStart s 77 (tbCurrent s 77 (nowInstant s) + 1) - twoMs ≤ nowInstant s := ⟨{ tbUp 2 1 {} with fn := 1000016 }, by decide +kernel⟩
theorem wit_NetworkTimeBase_abandon : nowInstant (tbUp 2 1 {}) < ({ ann with deadline := 2 ^ 80 } : Ann).deadline ∧ ann.deadline ≤ nowInstant (tbUp 2 1 {}) := by decide +kernel
theorem wit_NetworkTimeBase_heard : plcUp (tbUp 2 1 {}) = true ∧ plcUp State.reset = false ∧ plcState (tbUp 2 1 {}) = 3 ∧ plcState up ≠ 3 ∧ word.secured = true ∧ ({ word with secured := false } : Announcement).secured = false ∧
    tbState (tbUp 2 1 {}) ≠ 0 ∧ tbLeader (tbUp 2 1 {}) up.fn = true ∧ tbLeader (tbUp 2 0 {}) up.fn = false := by decide
theorem wit_NetworkTimeBase_holdover : (tbUp 3 0 {}).mode = .run ∧ (tbUp 3 0 {}).tb.acc + 10240 ≤ up.fn ∧ tbState (tbUp 3 0 {}) = 3 ∧ up.fn < 989761 + 10240 := by decide

/-! ### Witnesses: stores, logs and the scrub -/

/-- A store of page 3 that answers a commit of STORE_RETRIES' neighbour ROLL_PERIOD. -/
def jobAck (tries : Nat) (a : Ack) : Job := { page := 3, fn := 999999, tries := tries, ack := a }
def jobUp (j : Job) : State := { up with jobs := [j] }
theorem wit_StoresTakeEffect (tries : Nat) (a : Ack) : Sound (jobUp (jobAck tries a)) ∧ (jobUp (jobAck tries a)).mode = .run ∧
    (jobUp (jobAck tries a)).jobs = jobAck tries a :: [] ∧ (jobAck tries a).page < 1024 ∧ frameOf (jobUp (jobAck tries a)) 3 (jobAck tries a).half < 2112 :=
  ⟨⟨sound_up.dict, sound_up.pages, sound_up.seals, sound_up.ring5, sound_up.ring7, sound_up.period⟩, rfl, rfl, (by decide : 3 < 1024), (by decide : frameOf up 3 false < 2112)⟩
theorem wit_StoresTakeEffect_acks : (jobAck 0 (.commit 0 9 0 0 5 .write [(K.rollPeriod, 8)])).ack = .commit 0 9 0 0 5 .write [(K.rollPeriod, 8)] ∧
    (∃ r, rowOf K.rollPeriod = some r ∧ r.has 0 = true) ∧ (jobAck 2 .none).tries < 3 ∧ 3 ≤ (jobAck 3 .none).tries ∧ up.img.lease = none ∧ leaseState up ≠ 2 ∧
    (leaseUp 2 lease).img.lease ≠ none ∧ leaseState (leaseUp 2 lease) = 2 := by
  refine ⟨rfl, ⟨_, rfl, by decide⟩, by decide, by decide, by decide, by decide, by decide, by decide⟩
def cmt (b : Nat) : Commit := ⟨b, 999998, 9, [⟨K.rollPeriod, 16, 8⟩], .write, false, 0, 5⟩
theorem wit_StoresTakeEffect_commit : dueCommits { up with commits := [cmt 1000000, cmt 1000001] } = [cmt 1000000] ∧ dueCommits { up with commits := [cmt 1000001] } = [] := by decide
theorem wit_StoresTakeEffect_roll : up.cfg up.fn K.rollPeriod = 16 ∧ up.fn % (4 * 16) = 0 ∧ up.pwr.rollAt ≠ some up.fn ∧ 1000001 % (4 * 16) ≠ 0 := by decide
theorem wit_StoresTakeEffect_hourly : up.get K.bgStoreFn = 0 ∧ (({ up with fn := 3686400 } : State).get K.bgStoreFn + 3686400 ≤ ({ up with fn := 3686400 } : State).fn) ∧
    up.fn < up.get K.bgStoreFn + 3686400 ∧ Sound { up with fn := 3686400 } ∧ Sound { up with fn := 88473600 } ∧
    up.get K.scrubFn + 88473600 ≤ 88473600 ∧ up.fn < up.get K.scrubFn + 88473600 :=
  ⟨by decide, by decide, by decide, ⟨by decide, by decide, by decide, by decide, by decide, by decide⟩, ⟨by decide, by decide, by decide, by decide, by decide, by decide⟩,
   by decide, by decide⟩
def evj : TkJob := { op := .event 1 }
def tkUp (t : Nat) : State := { up with tk := { up.tk with queue := [{ evj with tries := t }], evs := [{ seq := 1, entries := [List.replicate 32 0] }] } }
/-- The sector of the event has failed n times in a row. -/
def failUp (n : Nat) : State := { tkUp n with units := [(unitKey 4 (failedSec evj.op (tkAhead (tkPump (tkUp n)))).1, { fail := n })] }
theorem wit_StoresTakeEffect_fails : (tget {} (failUp 2).units (unitKey 4 (failedSec evj.op (tkAhead (tkPump (tkUp 2)))).1)).fail < 3 ∧
    3 ≤ (tget {} (failUp 3).units (unitKey 4 (failedSec evj.op (tkAhead (tkPump (tkUp 3)))).1)).fail := by decide +kernel
theorem wit_StoresTakeEffect_tackroom : (tkAhead (tkPump (tkUp 2))).tk.queue = { evj with tries := 2 } :: [] ∧ evj.op = .event 1 ∧
    (tkWhere (tkAhead (tkPump (tkUp 2))) evj.op).1 ≠ [] ∧ Tab.wf ({} : UnitS) (tkUp 2).units = true := by decide +kernel
def evt : Event := ⟨0x0309, [6, 1], 999999, 0, false⟩
theorem wit_StoresTakeEffect_log : logRuns up = true ∧ ({ up with ring5 := [evt] } : State).ring5 = evt :: [] ∧ 0x0300 ≤ evt.code ∧ evt.code ≤ 0x0309 ∧ up.ring5 = [] := by decide

/-! ### Witnesses: supplies, Gecko, stops and starts -/

def supUp (m : Mode) (d : Tab Nat) : State := { up with mode := m, ready := decide (m = .run), dict := d }
theorem sound_sup (m : Mode) : Sound (supUp m []) := ⟨by cases m <;> decide, by cases m <;> decide, by cases m <;> decide, by cases m <;> decide, by cases m <;> decide, by cases m <;> decide⟩
theorem wit_PowerStatesRun (m : Mode) : Sound (supUp m []) ∧ bit ((supUp m []).get K.supSupplyStatus) 7 = false ∧ bit ((supUp m []).get K.supSupplyStatus) 5 = false ∧
    bit ((supUp m [(K.supSupplyStatus, 128)]).get K.supSupplyStatus) 7 = true ∧ (supUp m []).pwr.vbatFn = none :=
  ⟨sound_sup m, by cases m <;> decide⟩
theorem wit_PowerStatesRun_bounds : min 65535 (odiv ((7392 : Nat) : Int) 28).toNat * 10 < 8 * up.get K.stirrupCap + 1 ∧ up.get K.stirrupCap = 330 ∧ (11799 : Nat) < 11800 ∧
    up.pwr.startFn + 10240 ≤ up.fn ∧ up.fn < ({ up.pwr with startFn := 989761 } : Pwr).startFn + 10240 ∧ (998976 + 1024 ≤ up.fn) ∧ up.fn < 998977 + 1024 ∧ (998977 : Nat) ≤ up.fn := by decide
theorem wit_PowerStatesRun_tamper : (supUp .sleep []).mode ≠ .off ∧ (∀ st, st = b2n (true != decide ((supUp .sleep []).cfg 1000000 K.coverPol = 1)) →
    st = 1) ∧ tlook [(0, 1)] 0 = some 1 ∧ tlook (supUp .sleep []).pwr.samples 0 ≠ some 1 := by
  refine ⟨by decide, ?_, by decide, by decide⟩; rintro _ rfl; decide
def gkUp (next since rtc : Nat) : State :=
  { supUp .gecko [] with pwr := { up.pwr with gecko := { since := since, next := next } }, dev := { up.dev with rtcFn := rtc } }
theorem wit_PowerStatesRun_gecko : Sound (gkUp 5000 0 5000) ∧ (gkUp 5000 0 5000).mode = .gecko ∧ (gkUp 5000 0 5000).pwr.gecko.next ≤ (gkUp 5000 0 5000).dev.rtcFn ∧
    (gkUp 5001 0 5000).dev.rtcFn < (gkUp 5001 0 5000).pwr.gecko.next ∧ (gkUp 5000 0 5000).cfg 1000000 K.geckoVbatMin = 2500 ∧ scan.vbatMv + 100 ≥ 2500 ∧
    ({ scan with vbatMv := 2399 } : GeckoData).vbatMv + 100 < 2500 ∧ (gkUp 5000 0 5000).cfg 1000000 K.geckoLimit = 720 ∧
    (gkUp 0 0 (720 * 3686400)).pwr.gecko.since + 720 * 3686400 ≤ (gkUp 0 0 (720 * 3686400)).dev.rtcFn ∧ (5000 : Nat) < 0 + 720 * 3686400 :=
  ⟨⟨by decide, by decide, by decide, by decide, by decide, by decide⟩, by decide⟩

def jrn : Journal :=
  { pfwFn := 1000000, pfwUs := 0, pfwTime := 0, sPfw := 0, sBase := 0, slew := 0, valid := false, stale := false, running := false, runFn := 0, from_ := 0, pages := 64,
    sealed := 0, baseOk := 0, count := 0, ccts := [], base := [], marks := none, tail := [], lost := 0, hj := [], hjLen := 0 }
def gaspUp (d : Bool) (v : Nat) : State := { supUp .lastGasp [] with pwr := { up.pwr with journal := some jrn, done := d, vbat := v } }
theorem wit_StartsAndStops : Sound (gaspUp false 3000) ∧ (gaspUp false 3000).mode = .lastGasp ∧ (gaspUp false 3000).pwr.done = false ∧
    (gaspUp false 3000).pwr.journal = some jrn ∧ modeAfter (gaspUp false 3000) = .gecko ∧ modeAfter (gaspUp false 2499) = .sleep ∧ modeAfter (gaspUp false 2199) = .off ∧
    (gaspUp true 3000).pwr.done = true :=
  ⟨⟨by decide, by decide, by decide, by decide, by decide, by decide⟩, by decide⟩
def resUp : State := { up with dict := [(K.supSupplyStatus, 132)], acq := { up.acq with first := some 999000 } }
theorem wit_StartsAndStops_resume : Sound resUp ∧ resUp.mode = .run ∧ resUp.bill.g = none ∧ bit (resUp.get K.supSupplyStatus) 7 = true ∧ resUp.acq.first = some 999000 ∧
    (∃ g, g = max (999000 + 2) (match resUp.tan.baseFn with | some b => b + 1 | none => 999000 + 2)) :=
  ⟨⟨by decide, by decide, by decide, by decide, by decide, by decide⟩, by decide, by decide, by decide, by decide, ⟨_, rfl⟩⟩
theorem wit_StartsAndStops_ready : ({ up with ready := false } : State).mode = .run ∧ ({ up with ready := false } : State).ready = false ∧ up.ready = true ∧
    State.reset.mode = .off ∧ State.reset.mode ≠ .run ∧ State.reset.mode ≠ .recovery ∧ ({ supUp .recovery [] with ready := false } : State).mode = .recovery := by decide

/-! ### Functions of other standards (PRESUMED, log 95: their published examples), and the journal's layout (Table 12.7) -/

theorem test_sha3_empty : sha3_256 [] = bytesOf (be 32 0xa7ffc6f8bf1ed76651c14756a061d662f580ff4de43b49fa82d80a4b80f8434a) := by decide +kernel
theorem test_shake_empty : shake256 [] 32 = bytesOf (be 32 0x46b9dd2b0ba88d13233b3feb743eeb243fcd52ea62b81b82b50c27646ed5762f) := by decide +kernel
theorem test_gcm_zero : gcmSeal (List.replicate 32 0) (List.replicate 12 0) [] (List.replicate 16 0) =
    (bytesOf (be 16 0xcea7403d4d606b6e074ec5d3baf39d18), bytesOf (be 16 0xd0d1c8a799996bf0265b98b5d48ab919)) := by decide +kernel
/-- Table 12.8 fills its page, and the circuit, interval and baseline parts fill pages 1 to 54. -/
theorem test_journal_pages : ((List.range 55).all (fun n => decide ((journalPage up jrn n).length = 256))) = true := by decide +kernel

end Sys2Proof.Tests
end

section
/-! PROOF. The alignment filter (R78, R81, R82): its coefficients, the 96 bits that hold every product and partial sum, and what an
aligned sample is. -/

namespace Sys2Proof.Machine

/-! ### Sums, rounding and saturation -/

/-- The sum of the model is the sum of the library. -/
theorem sumI_eq_sum (l : List Int) : sumI l = l.sum := List.sum_eq_foldl.symm

theorem sumI_cons (a : Int) (l : List Int) : sumI (a :: l) = a + sumI l := by
  rw [sumI_eq_sum, sumI_eq_sum, List.sum_cons]

/-- A sum of terms between -b and b lies within as many b. -/
theorem sumI_within {l : List Int} {b : Int} (h : ∀ a ∈ l, -b ≤ a ∧ a ≤ b) : -(l.length * b) ≤ sumI l ∧ sumI l ≤ l.length * b := by
  induction l with
  | nil =>
    rw [List.length_nil, Int.natCast_zero, Int.zero_mul]
    exact ⟨Int.le_refl 0, Int.le_refl 0⟩
  | cons a l ih =>
    obtain ⟨lower, upper⟩ := ih (fun c hc => h c (List.mem_cons_of_mem _ hc))
    obtain ⟨lo, hi⟩ := h a List.mem_cons_self
    rw [sumI_cons, List.length_cons, Int.natCast_add, Int.natCast_one, Int.add_mul, Int.one_mul]
    omega

/-- A common factor of the terms is one of their sum. -/
theorem sumI_map_mul (l : List Nat) (g : Nat → Int) (c : Int) : sumI (l.map (fun t => g t * c)) = sumI (l.map g) * c := by
  induction l with
  | nil => exact (Int.zero_mul c).symm
  | cons t l ih => rw [List.map_cons, List.map_cons, sumI_cons, sumI_cons, ih, Int.add_mul]

/-- A multiple of the divisor is divided without rounding. -/
theorem rdiv_mul_self (c : Int) {d : Int} (h : 0 < d) : rdiv (c * d) d = c := by
  have key : ∀ a : Int, (2 * (a * d) + d) / (2 * d) = a := fun a => by
    rw [Int.mul_left_comm, Int.add_comm, Int.add_mul_ediv_right _ _ (by omega), Int.ediv_eq_zero_of_lt (by omega) (by omega), Int.zero_add]
  unfold rdiv
  split
  · exact key c
  · rw [← Int.neg_mul, key (-c), Int.neg_neg]

/-- A value within Q1.47 is not beyond it, and saturation leaves it alone. -/
theorem sat47_within {z : Int} (lo : -(2 ^ 47) ≤ z) (hi : z < 2 ^ 47) : sat47 z = z ∧ beyond47 z = false := by
  unfold sat47 clampI beyond47
  rw [if_neg (by omega), if_neg (by omega), decide_eq_false (by omega), decide_eq_false (by omega)]
  exact ⟨rfl, rfl⟩

theorem sat47_below {z : Int} (h : z < -(2 ^ 47)) : sat47 z = -(2 ^ 47) ∧ beyond47 z = true := by
  unfold sat47 clampI beyond47
  rw [if_pos h, decide_eq_true h]
  exact ⟨rfl, rfl⟩

theorem sat47_above {z : Int} (h : 2 ^ 47 ≤ z) : sat47 z = 2 ^ 47 - 1 ∧ beyond47 z = true := by
  unfold sat47 clampI beyond47
  rw [if_neg (by omega), if_pos (by omega), decide_eq_true (p := 2 ^ 47 - 1 < z) (by omega), Bool.or_true]
  exact ⟨rfl, rfl⟩

/-! ### Coefficients -/

/-- The table of R81: 256 rows of 16 coefficients of Q1.23 that add up to one. -/
theorem coeffRows_spec : coeffRows.length = 256 ∧
    ∀ h ∈ coeffRows, h.length = 16 ∧ sumI h = 2 ^ 23 ∧ ∀ c ∈ h, -(2 ^ 23) ≤ c ∧ c ≤ 2 ^ 23 := by decide +kernel

/-- Every phase has a row of the table. -/
theorem coeff_mem {phi : Nat} (h : phi < 256) : coeff phi ∈ coeffRows := by
  have inside : phi < coeffRows.length := by rw [coeffRows_spec.1]; exact h
  unfold coeff
  rw [List.getD_eq_getElem?_getD, List.getElem?_eq_getElem inside]
  exact List.getElem_mem inside

theorem coeff_spec {phi : Nat} (h : phi < 256) :
    (coeff phi).length = 16 ∧ sumI (coeff phi) = 2 ^ 23 ∧ ∀ c ∈ coeff phi, -(2 ^ 23) ≤ c ∧ c ≤ 2 ^ 23 :=
  coeffRows_spec.2 _ (coeff_mem h)

theorem ati_mem {l : List Int} {t : Nat} (h : t < l.length) : ati l t ∈ l := by
  unfold ati
  rw [List.getD_eq_getElem?_getD, List.getElem?_eq_getElem h]
  exact List.getElem_mem h

/-- The items of a list, one after another, are the list. -/
theorem map_ati_range (l : List Int) : (List.range l.length).map (ati l) = l := by
  refine List.ext_getElem (by rw [List.length_map, List.length_range]) (fun t ht ht' => ?_)
  rw [List.getElem_map, List.getElem_range, ati, List.getD_eq_getElem?_getD, List.getElem?_eq_getElem ht', Option.getD_some]

/-! ### Products and partial sums -/

/-- The product of a Q1.23 coefficient and a Q1.47 sample has a magnitude of at most 2^70. -/
theorem coeff_product_within {h x : Int} (hh : -(2 ^ 23) ≤ h ∧ h ≤ 2 ^ 23) (lo : -(2 ^ 47) ≤ x) (hi : x < 2 ^ 47) :
    -(2 ^ 70) ≤ h * x ∧ h * x ≤ 2 ^ 70 := by
  have bound : (h * x).natAbs ≤ 2 ^ 23 * 2 ^ 47 := by
    rw [Int.natAbs_mul]
    exact Nat.mul_le_mul (by omega) (by omega)
  omega

section
variable {phi : Nat} {x : Nat → Int} (hphi : phi < 256) (hx : ∀ t, t < 16 → -(2 ^ 47) ≤ x t ∧ x t < 2 ^ 47)
include hphi hx

/-- The products of the filter. -/
theorem filter_product_within {t : Nat} (ht : t < 16) : -(2 ^ 70) ≤ ati (coeff phi) t * x t ∧ ati (coeff phi) t * x t ≤ 2 ^ 70 := by
  obtain ⟨len, -, within⟩ := coeff_spec hphi
  exact coeff_product_within (within _ (ati_mem (by rw [len]; exact ht))) (hx t ht).1 (hx t ht).2

/-- Sixteen products of 2^70 at most stay far below 2^95. -/
theorem filter_partial_within {k : Nat} (hk : k ≤ 16) :
    -(2 ^ 95) ≤ sumI ((List.range k).map (fun t => ati (coeff phi) t * x t)) ∧
      sumI ((List.range k).map (fun t => ati (coeff phi) t * x t)) < 2 ^ 95 := by
  have terms : ∀ a ∈ (List.range k).map (fun t => ati (coeff phi) t * x t), -(2 ^ 70) ≤ a ∧ a ≤ 2 ^ 70 := by
    intro a ha
    obtain ⟨t, ht, rfl⟩ := List.mem_map.mp ha
    exact filter_product_within hphi hx (Nat.lt_of_lt_of_le (List.mem_range.mp ht) hk)
  have sums := sumI_within terms
  rw [List.length_map, List.length_range] at sums
  omega

end

/-! ### Aligned samples -/

/-- The filter multiplies the sixteen samples by the coefficients and rounds the sum from Q.70 to Q.47. -/
theorem firSum_eq {hist : List RawS} {n i : Nat} {h : List Int} {x : Nat → Int}
    (hx : ∀ t, t < 16 → ∃ r, histAt hist (n - i - t) = some r ∧ r.y = x t) :
    firSum hist n i h = rdiv (sumI ((List.range 16).map (fun t => ati h t * x t))) (2 ^ 23) := by
  unfold firSum rshift
  refine congrArg (fun l => rdiv (sumI l) (2 ^ 23)) (List.map_congr_left (fun t ht => ?_))
  obtain ⟨r, hr, hy⟩ := hx t (List.mem_range.mp ht)
  rw [hr, ← hy]

/-- A constant comes out as it is. -/
theorem filter_constant {phi : Nat} {x : Nat → Int} {c : Int} (hphi : phi < 256) (hc : ∀ t, t < 16 → x t = c) :
    rdiv (sumI ((List.range 16).map (fun t => ati (coeff phi) t * x t))) (2 ^ 23) = c := by
  obtain ⟨len, one, -⟩ := coeff_spec hphi
  have items : (List.range 16).map (fun t => ati (coeff phi) t * x t) = (List.range 16).map (fun t => ati (coeff phi) t * c) :=
    List.map_congr_left (fun t ht => by rw [hc t (List.mem_range.mp ht)])
  have sum : sumI ((List.range 16).map (ati (coeff phi))) = 2 ^ 23 := by
    rw [← len, map_ati_range, one]
  rw [items, sumI_map_mul, sum, Int.mul_comm, rdiv_mul_self c (by decide)]

/-- The governing sample's CLIP flag. -/
def govClip (gov : Option RawS) : Bool := match gov with | some r => r.clip | none => false

/-- An aligned sample is the filter's result `z`, saturated; it is flagged CLIP where `z` lies beyond Q1.47 or its governing sample is
(R82, R87; log 85). -/
theorem alignOut_eq {hist : List RawS} {n : Nat} {y z : Int} {gov : Option RawS}
    (hz : firSum hist n ((max 1792 y).toNat / 256 - 7) (coeff ((max 1792 y).toNat % 256)) = z) :
    (alignOut hist n y gov).1 = sat47 z ∧ (alignOut hist n y gov).2.1 = (beyond47 z || govClip gov) := by
  subst hz
  exact ⟨rfl, rfl⟩

/-- A result within Q1.47 comes out as it is; one beyond it is saturated and flagged CLIP. -/
theorem alignOut_cases {hist : List RawS} {n : Nat} {y z : Int} {gov : Option RawS}
    (hz : firSum hist n ((max 1792 y).toNat / 256 - 7) (coeff ((max 1792 y).toNat % 256)) = z) :
    (-(2 ^ 47) ≤ z → z < 2 ^ 47 → (alignOut hist n y gov).1 = z ∧ (alignOut hist n y gov).2.1 = govClip gov) ∧
    (z < -(2 ^ 47) → (alignOut hist n y gov).1 = -(2 ^ 47) ∧ (alignOut hist n y gov).2.1 = true) ∧
    (2 ^ 47 ≤ z → (alignOut hist n y gov).1 = 2 ^ 47 - 1 ∧ (alignOut hist n y gov).2.1 = true) := by
  obtain ⟨value, clip⟩ := alignOut_eq (gov := gov) hz
  refine ⟨fun lo hi => ?_, fun lo => ?_, fun hi => ?_⟩
  · obtain ⟨same, inside⟩ := sat47_within lo hi
    exact ⟨value.trans same, by rw [clip, inside, Bool.false_or]⟩
  · obtain ⟨lowest, beyond⟩ := sat47_below lo
    exact ⟨value.trans lowest, by rw [clip, beyond, Bool.true_or]⟩
  · obtain ⟨highest, beyond⟩ := sat47_above hi
    exact ⟨value.trans highest, by rw [clip, beyond, Bool.true_or]⟩

end Sys2Proof.Machine
end

section
/-! PROOF. Taking raw samples (R74, R84 to R92, R215 to R223) leaves RING-1 and the frame in which sampling began alone: only the emission
of an aligned sample completes a frame in RING-1. -/

namespace Sys2Proof.Machine

/-- The content of RING-1, and the frame in which sampling began: what the aligner's corrections and lane checks do not touch. -/
def ringBase (s : State) : List AFrame × Option Nat := (s.aln.ring1, s.acq.first)

/-- A fold of steps that keep RING-1 and the first frame keeps them. -/
theorem foldl_ringBase {α : Type} {g : State → α → State} (h : ∀ s a, ringBase (g s a) = ringBase s) (l : List α) (s : State) :
    ringBase (l.foldl g s) = ringBase s :=
  l.foldlRecOn g (motive := fun t => ringBase t = ringBase s) rfl (fun t ht a _ => (h t a).trans ht)

/-- What changes neither the aligner nor the acquisition keeps RING-1 and the first frame. -/
theorem ringBase_of_only {m : Nat} {s t : State} (h : Only m s t) (hacq : m.testBit 9 = false) (haln : m.testBit 10 = false) :
    ringBase t = ringBase s := by
  unfold ringBase
  rw [h.aln haln, h.acq hacq]

variable {s : State}

/-- Both branches keep them. -/
theorem ite_ringBase {c : Prop} [Decidable c] {t u : State} (ht : ringBase t = ringBase s) (hu : ringBase u = ringBase s) :
    ringBase (if c then t else u) = ringBase s := by
  split
  · exact ht
  · exact hu

/-! ### Shared operations -/

theorem putLive_ringBase (k v : Nat) : ringBase (s.putLive k v) = ringBase s :=
  ringBase_of_only (State_putLive_only (.refl 36) (.refl _ _)) rfl rfl

theorem putDue_ringBase (f k v : Nat) : ringBase (s.putDue f k v) = ringBase s :=
  ringBase_of_only (State_putDue_only (.refl 68) (.refl _ _)) rfl rfl

theorem event_ringBase (c : Nat) (l : List Nat) : ringBase (s.event c l) = ringBase s :=
  ringBase_of_only (State_event_only (.refl 33554436) (.refl _ _)) rfl rfl

theorem unitSet_ringBase (kind num st cause f : Nat) : ringBase (unitSet kind num st cause f s) = ringBase s :=
  ringBase_of_only (unitSet_only (.refl 33554436) (.refl _ _)) rfl rfl

theorem unitFail_ringBase (kind num cause f retire : Nat) : ringBase (unitFail kind num cause f retire s).1 = ringBase s :=
  ringBase_of_only (unitFail_only (.refl 33554436) (.refl _ _)) rfl rfl

theorem unitPass_ringBase (kind num f ok : Nat) : ringBase (unitPass kind num f ok s) = ringBase s :=
  ringBase_of_only (unitPass_only (.refl 33554436) (.refl _ _)) rfl rfl

/-! ### Lanes and estimators -/

theorem setLane_ringBase (l : Nat) (x : LaneS) : ringBase (setLane l x s) = ringBase s := rfl
theorem setEst_ringBase (l g : Nat) (e : GainEst) : ringBase (setEst l g e s) = ringBase s := rfl

theorem estStep_ringBase (f l g : Nat) (hold : Bool) : ringBase (estStep f l g hold s) = ringBase s := by
  have pair : ∀ (t : State) (j k v : Nat) (x : Int), ringBase ((t.putDueI f j x).putDue f k v) = ringBase t :=
    fun t j k v x => (putDue_ringBase f k v).trans (putDue_ringBase f j _)
  unfold estStep
  exact ite_ringBase (pair _ _ _ _ _) ((setEst_ringBase _ _ _).trans ((pair _ _ _ _ _).trans (pair _ _ _ _ _)))

theorem tempInjStep_ringBase (f l : Nat) (gains : List Nat) : ringBase (tempInjStep f l gains s) = ringBase s :=
  ringBase_of_only (tempInjStep_only (.refl 68) (.refl _ _)) rfl rfl

theorem settleStep_ringBase (l : Nat) (gains : List Nat) : ringBase (settleStep l gains s) = ringBase s := by
  unfold settleStep
  exact ite_ringBase (ite_ringBase rfl rfl) rfl

theorem bgLane_ringBase (f : Nat) (hold : Bool) (l : Nat) : ringBase (bgLane f hold l s) = ringBase s := by
  unfold bgLane
  exact (settleStep_ringBase _ _).trans <| (tempInjStep_ringBase _ _ _).trans <|
    foldl_ringBase (fun s (e : Nat × GainEst) => estStep_ringBase f l (e.1 % 8) hold) _ _

theorem bgFrame_ringBase (f : Nat) : ringBase (bgFrame f s) = ringBase s := by
  unfold bgFrame
  exact foldl_ringBase (fun s l => bgLane_ringBase f _ l) _ s

/-! ### Reference results -/

theorem gapFeed_ringBase (l : Nat) (r : LRes) : ringBase (gapFeed l r s) = ringBase s := by
  unfold gapFeed
  refine ite_ringBase rfl (ite_ringBase rfl (ite_ringBase ?_ (ite_ringBase rfl rfl)))
  split
  · rfl
  · rfl

theorem gapBreak_ringBase (l : Nat) (r : LRes) : ringBase (gapBreak l r s) = ringBase s := by
  unfold gapBreak
  exact ite_ringBase rfl rfl

theorem gapTake_ringBase (f l : Nat) (r : LRes) : ringBase (gapTake f l r s) = ringBase s := by
  unfold gapTake
  exact ite_ringBase (gapBreak_ringBase l r) <|
    ite_ringBase ((gapBreak_ringBase l r).trans (ite_ringBase rfl rfl)) ((gapFeed_ringBase l r).trans (ite_ringBase rfl rfl))

theorem gapsDo_ringBase (f l : Nat) (esc : Bool) : ringBase (gapsDo f l esc s) = ringBase s := by
  have entry : ∀ (s : State) (e : Bool × List LRes),
      ringBase (if e.1 && !esc then s else e.2.foldl (fun s r => gapTake f l r s) s) = ringBase s := fun s e =>
    ite_ringBase rfl (foldl_ringBase (fun s r => gapTake_ringBase f l r) e.2 s)
  unfold gapsDo
  exact foldl_ringBase entry _ _

/-! ### Lane checks -/

theorem transients_ringBase (kind num f : Nat) (afs : List Nat) : ringBase (transients kind num f afs s) = ringBase s := by
  have counted : ∀ (c : Prop) [Decidable c] (t : State) (j k n : Nat), ringBase (if c then t.bump j else t.bumpBy k n) = ringBase t :=
    fun c _ t j k n => ite_ringBase rfl rfl
  unfold transients
  exact ite_ringBase rfl (ite_ringBase ((event_ringBase _ _).trans (counted _ (unreplaceUnit kind num f s) _ _ _)) rfl)

/-- A lane check takes the reference results and the affected periods, and then judges the lane. -/
theorem laneCheck_ringBase (f l : Nat) : ringBase (laneCheck f l s) = ringBase s := by
  have taken : ∀ (esc : Bool) (afs : List Nat) (x : LaneS),
      ringBase (setLane l x (transients 0 l f afs (gapsDo f l esc s))) = ringBase s :=
    fun esc afs x => (setLane_ringBase l x).trans ((transients_ringBase 0 l f afs).trans (gapsDo_ringBase f l esc))
  have failed : ∀ (t : State) (cause retire k : Nat),
      ringBase (unitFail 0 l cause f retire (breakRuns l (t.bump k))).1 = ringBase t :=
    fun t cause retire k => unitFail_ringBase 0 l cause f retire
  unfold laneCheck
  refine ite_ringBase rfl (ite_ringBase (taken _ _ _) (ite_ringBase ?fails (ite_ringBase ?passes (taken _ _ _))))
  case fails =>
    exact ite_ringBase ((setLane_ringBase _ _).trans ((failed _ _ _ _).trans (taken _ _ _)))
      (ite_ringBase ((setLane_ringBase _ _).trans ((failed _ _ _ _).trans (taken _ _ _))) ((failed _ _ _ _).trans (taken _ _ _)))
  case passes =>
    exact ite_ringBase ((unitPass_ringBase _ _ _ _).trans (taken _ _ _)) ((unitPass_ringBase _ _ _ _).trans (taken _ _ _))

theorem channelPartner_ringBase (f n : Nat) : ringBase (channelPartner f n s) = ringBase s := by
  unfold channelPartner
  exact ite_ringBase rfl (unitSet_ringBase _ _ _ _ _)

theorem laneRetire_ringBase (l f : Nat) : ringBase (laneRetire l f s) = ringBase s := by
  have stopped : ringBase ((setLane l { tget {} s.acq.lanes l with gone := false } s).putLive (K.laneMode l) 2) = ringBase s :=
    putLive_ringBase _ _
  have partnerOut : ∀ (ns : List Nat) (t : State), ringBase (ns.foldl (fun s n => channelPartner f n s) t) = ringBase t :=
    fun ns t => foldl_ringBase (fun s n => channelPartner_ringBase f n) ns t
  unfold laneRetire
  exact ite_ringBase ((partnerOut _ _).trans stopped) ((event_ringBase _ _).trans stopped)

theorem laneFrame_ringBase (f : Nat) : ringBase (laneFrame f s) = ringBase s := by
  have retires : ∀ (s : State) (l : Nat),
      ringBase (if (tget {} s.acq.lanes l).gone then laneRetire l (f - 1) s else s) = ringBase s :=
    fun s l => ite_ringBase (laneRetire_ringBase l (f - 1)) rfl
  have volts : ∀ (s : State) (e : Nat × Stream),
      ringBase (if 256 ≤ e.1 then transients 2 (e.1 - 256) (f - 1) e.2.afs s else s) = ringBase s :=
    fun s e => ite_ringBase (transients_ringBase _ _ _ _) rfl
  unfold laneFrame
  exact (bgFrame_ringBase f).trans <| (foldl_ringBase volts _ _).trans <| (foldl_ringBase retires _ _).trans <|
    foldl_ringBase (fun s l => laneCheck_ringBase (f - 1) l) _ _

/-! ### Raw samples -/

theorem noteAff_ringBase (e : R0Lane) : ringBase (noteAff e s) = ringBase s := by
  unfold noteAff
  exact ite_ringBase rfl rfl

theorem gapsTake_ringBase (e : R0Lane) : ringBase (gapsTake e s) = ringBase s := rfl

theorem streamTake_ringBase (k : Nat) (r : RawS) : ringBase (streamTake k r s) = ringBase s := by
  unfold streamTake
  exact ite_ringBase (putDue_ringBase _ _ _) rfl

theorem takeStream_ringBase (m : Nat) (lanes : List R0Lane) (volts : List R0Volt) (k : Nat) :
    ringBase (takeStream m lanes volts k s) = ringBase s := by
  unfold takeStream
  exact ite_ringBase (ite_ringBase (streamTake_ringBase _ _) (streamTake_ringBase _ _)) rfl

/-- The aligner takes raw samples; RING-1 and the first frame stay. -/
theorem alignTake_ringBase (n : Nat) : ringBase (alignTake n s) = ringBase s := by
  unfold alignTake
  exact (foldl_ringBase (fun s (e : Nat × Stream) => takeStream_ringBase _ _ _ e.1) _ _).trans <|
    (foldl_ringBase (fun s e => gapsTake_ringBase e) _ _).trans <|
    (ite_ringBase (laneFrame_ringBase _) rfl).trans <|
    (foldl_ringBase (fun s e => noteAff_ringBase e) _ _).trans rfl

end Sys2Proof.Machine
end

section
/-! PROOF. The commands of the front end and the aligner (R10, R59, R67, R74), and the statement about them. -/

namespace Sys2Proof.Machine

/-! ### Sample periods (R10) -/

/-- A sample period of a running front end counts. -/
theorem execSamplePeriod_counts {s : State} (ls : List LaneConv) (vs : List VoltConv) (hmode : s.mode = .run ∨ s.mode = .recovery)
    (hfirst : s.acq.first ≠ none) (hperiod : s.acq.period < 16) :
    ∃ t, execSamplePeriod ls vs s = .next t ∧ t.acq.period = s.acq.period + 1 := by
  obtain ⟨f, hf⟩ := Option.ne_none_iff_exists'.mp hfirst
  unfold execSamplePeriod
  rw [hf]
  dsimp only
  rw [if_pos ⟨hmode, hperiod⟩]
  exact ⟨_, rfl, rfl⟩

/-- After its sixteenth period a frame takes no other. -/
theorem execSamplePeriod_full {s : State} (ls : List LaneConv) (vs : List VoltConv) (hperiod : 16 ≤ s.acq.period) :
    execSamplePeriod ls vs s = .next s := by
  unfold execSamplePeriod
  split
  · rw [if_neg (by omega)]
  · rfl

theorem samplePeriod_frame {ls : List LaneConv} {vs : List VoltConv} {s t : State} (e : exec (.samplePeriod ls vs) s = .next t) :
    Frame (writes (.samplePeriod ls vs)) s t :=
  (execSamplePeriod_only e (.refl _) (.refl _ _)).frame (ps := [.dict, .chg, .due, .acq, .aln, .ring5]) (by decide)

/-! ### Aligned samples (R74, R76, R14) -/

theorem alignerSample_frame {s t : State} (e : exec .alignerSample s = .next t) : Frame (writes .alignerSample) s t :=
  (execAlignerSample_only e (.refl _) (.refl _ _)).frame (ps := [.dict, .chg, .due, .acq, .aln, .ring5]) (by decide)

/-- An aligned sample that is not due changes nothing. -/
theorem execAlignerSample_idle {s : State} (hdue : alignDue s = false) : execAlignerSample s = .next s := by
  unfold execAlignerSample
  rw [hdue]
  rfl

/-- Without credit for the frame in RING-1 the aligner waits, and the stall counts. -/
theorem execAlignerSample_stalls {s : State} (hdue : alignDue s = true) (hfull : ring1Full s (s.aln.next / 16) = true) :
    execAlignerSample s = .next (s.bump (K.stalls 1)) := by
  unfold execAlignerSample
  rw [hdue, hfull]
  rfl

/-- The machine when the raw samples of the next aligned sample are in, corrected and counted, and before the sample joins its frame. -/
def alignedState (s : State) : State :=
  let n := s.aln.next
  let s := alignTake n (if n % 16 = 0 then stopDisabled (n / 16) s else s)
  let streams := s.aln.streams.map (fun e => (e.1, finalSample s e.1 (if e.1 < 256 then n else n - 1) e.2))
  countClips n s.aln.streams { s with aln := { s.aln with streams := streams, next := n + 1 } }

/-- The frame that the aligner assembles, with aligned sample `n` of every stream. -/
def assembled (s : State) (n : Nat) : AFrame :=
  { s.aln.asm with fn := n / 16, chans := s.aln.streams.foldl (fun t e => asmSample s n e.1 e.2 t) s.aln.asm.chans }

/-- The aligner has moved to the next sample; RING-1 and the first frame are as before. -/
theorem alignedState_spec (s : State) :
    (alignedState s).aln.next = s.aln.next + 1 ∧ ringBase (alignedState s) = ringBase s := by
  have stopped : ∀ (c : Prop) [Decidable c] (f : Nat), ringBase (if c then stopDisabled f s else s) = ringBase s :=
    fun c _ f => ite_ringBase rfl rfl
  have clips : ∀ (n : Nat) (old : Tab Stream) (s : State), Only 68 s (countClips n old s) :=
    fun n old s => countClips_only (.refl 68) (.refl _ _)
  unfold alignedState
  refine ⟨congrArg Aln.next ((clips _ _ _).aln rfl), ?_⟩
  exact (ringBase_of_only (clips _ _ _) rfl rfl).trans ((alignTake_ringBase _).trans (stopped _ _))

/-- An aligned sample that is due and has credit is emitted; with the last of a frame, the frame enters RING-1 from the second after the
first on. -/
theorem execAlignerSample_emits {s : State} (hdue : alignDue s = true) (hroom : ring1Full s (s.aln.next / 16) = false) :
    execAlignerSample s = .next
      (let n := s.aln.next
       let u := alignedState s
       if n % 16 = 15 then
        if u.acq.first.getD 0 + 2 ≤ n / 16 then
          { u with aln := { u.aln with
            asm := ⟨0, false, [], []⟩
            ring1 := u.aln.ring1 ++ [{ assembled u n with
              lost := decide (n / 16 ∈ u.acq.lost), dly := frameDelays { u with aln := { u.aln with asm := ⟨0, false, [], []⟩ } } (n / 16) }] } }
        else { u with aln := { u.aln with asm := ⟨0, false, [], []⟩ } }
      else { u with aln := { u.aln with asm := assembled u n } }) := by
  unfold execAlignerSample
  rw [hdue, hroom]
  rfl

/-- Every aligned sample but the last of a frame leaves RING-1 alone; the last adds its frame. -/
theorem execAlignerSample_ring1 {s : State} (hdue : alignDue s = true) (hroom : ring1Full s (s.aln.next / 16) = false) :
    ∃ t, execAlignerSample s = .next t ∧ t.aln.next = s.aln.next + 1 ∧
      (s.aln.next % 16 ≠ 15 → t.aln.ring1 = s.aln.ring1) ∧
      (∀ f, s.aln.next % 16 = 15 → s.acq.first = some f → f + 2 ≤ s.aln.next / 16 →
        ∃ a, t.aln.ring1 = s.aln.ring1 ++ [a] ∧ a.fn = s.aln.next / 16 ∧ a.lost = decide (s.aln.next / 16 ∈ t.acq.lost)) := by
  obtain ⟨next, base⟩ := alignedState_spec s
  obtain ⟨ring1, first⟩ := Prod.mk.inj base
  refine ⟨_, execAlignerSample_emits hdue hroom, ?_⟩
  dsimp only
  by_cases hlast : s.aln.next % 16 = 15
  · rw [if_pos hlast]
    refine ⟨by split <;> exact next, fun h => absurd hlast h, fun f _ hf hstart => ?_⟩
    rw [if_pos (by rw [first, hf]; exact hstart)]
    exact ⟨_, congrArg (· ++ _) ring1, rfl, rfl⟩
  · rw [if_neg hlast]
    exact ⟨next, fun _ => ring1, fun f h => absurd h hlast⟩

/-! ### Takeovers (R67) -/

theorem laneTakeover_frame {l : Fin 32} {s t : State} (e : exec (.laneTakeover l) s = .next t) : Frame (writes (.laneTakeover l)) s t :=
  (execLaneTakeover_only e (.refl _) (.refl _ _)).frame (ps := [.dict, .chg, .acq, .aln, .ring5]) (by decide)

section
variable {l : Fin 32} {x : Takeover} {s : State} (hx : s.acq.takeovers.find? (fun t => decide (t.lane = l.val)) = some x)
include hx

theorem execLaneTakeover_due (h : x.frm ≤ s.fn) : execLaneTakeover l s = .next (takeoverDo l.val x.frm s) := by
  unfold execLaneTakeover
  rw [hx]
  exact congrArg _ (if_pos h)

theorem execLaneTakeover_waits (h : s.fn < x.frm) : execLaneTakeover l s = .next s := by
  unfold execLaneTakeover
  rw [hx]
  exact congrArg _ (if_neg (by omega))

end

/-- The machine when the partner of lane `l` runs the degraded table from frame `f`, before it is marked DEGRADED-SERVING. -/
def takeoverRuns (l f : Nat) (s : State) : State :=
  let p := partner l
  let s := ((s.putLive (K.laneMode p) 1).putLive (K.laneRotStep p) 0).put (K.laneTableFn p) f
  let s := lowRange (enabledOf s f l ++ enabledOf s f p) s
  let s := restartStreams f (enabledOf s f l) s
  { s with acq := { s.acq with
    lanes := tmod {} s.acq.lanes p (fun x => { x with serves := true, serveLo := f, serveHi := 0 }),
    takeovers := s.acq.takeovers.filter (fun t => decide (t.lane ≠ l)) } }

/-- Then the STATE of a partner that is OK or SUSPECT becomes DEGRADED-SERVING, with the frame of the change. -/
theorem takeoverDo_eq (l f : Nat) (s : State) :
    takeoverDo l f s = recredit0 f (if (takeoverRuns l f s).get (K.laneFState (partner l)) < 2 then
      ((takeoverRuns l f s).put (K.laneFState (partner l)) 3).put (K.laneFStateFn (partner l)) f else takeoverRuns l f s) := rfl

/-- The objects of a takeover are three writes. -/
theorem takeoverRuns_get (l f k : Nat) (s : State) : (takeoverRuns l f s).get k =
    (((s.putLive (K.laneMode (partner l)) 1).putLive (K.laneRotStep (partner l)) 0).put (K.laneTableFn (partner l)) f).get k := rfl

/-- Besides them a takeover writes the STATE of the partner and its frame. -/
theorem takeoverDo_get_ne {l f k : Nat} {s : State} (hstate : K.laneFState (partner l) ≠ k) (hfn : K.laneFStateFn (partner l) ≠ k) :
    (takeoverDo l f s).get k = (takeoverRuns l f s).get k := by
  rw [takeoverDo_eq]
  split
  · exact (get_put_ne hfn).trans (get_put_ne hstate)
  · rfl

/-- Different objects of a lane stand at different keys. -/
theorem laneKey_ne {a b : Nat} (p : Nat) (h : a ≠ b) : a + 256 * p ≠ b + 256 * p := fun e => h (Nat.add_right_cancel e)

/-- No object of a lane stands at the key of a live value of the lane. -/
theorem laneKey_ne_live {a b : Nat} (p : Nat) (h : a ≠ b + 0x2000000) : a + 256 * p ≠ liveKey (b + 256 * p) := by
  unfold liveKey
  omega

section
variable (l f : Nat) (s : State)

/-- The partner runs the degraded table. -/
theorem takeoverDo_mode : (takeoverDo l f s).live (K.laneMode (partner l)) = 1 := by
  unfold State.live
  rw [takeoverDo_get_ne (laneKey_ne_live _ (by decide)) (laneKey_ne_live _ (by decide)), takeoverRuns_get,
    get_put_ne (laneKey_ne_live _ (by decide))]
  exact (live_putLive_ne (laneKey_ne _ (by decide))).trans live_putLive_self

/-- It begins with its first rotation step. -/
theorem takeoverDo_rotStep : (takeoverDo l f s).live (K.laneRotStep (partner l)) = 0 := by
  unfold State.live
  rw [takeoverDo_get_ne (laneKey_ne_live _ (by decide)) (laneKey_ne_live _ (by decide)), takeoverRuns_get,
    get_put_ne (laneKey_ne_live _ (by decide))]
  exact live_putLive_self

theorem takeoverDo_tableFn : (takeoverDo l f s).get (K.laneTableFn (partner l)) = f := by
  rw [takeoverDo_get_ne (laneKey_ne _ (by decide)) (laneKey_ne _ (by decide)), takeoverRuns_get, get_put_self]

/-- A partner that is OK or SUSPECT becomes DEGRADED-SERVING. -/
theorem takeoverDo_serving (h : s.get (K.laneFState (partner l)) < 2) : (takeoverDo l f s).get (K.laneFState (partner l)) = 3 := by
  have before : (takeoverRuns l f s).get (K.laneFState (partner l)) = s.get (K.laneFState (partner l)) := by
    rw [takeoverRuns_get, get_put_ne (laneKey_ne _ (by decide)), get_putLive_ne (laneKey_ne_live _ (by decide)).symm,
      get_putLive_ne (laneKey_ne_live _ (by decide)).symm]
  rw [takeoverDo_eq, if_pos (by rw [before]; exact h)]
  exact (get_put_ne (laneKey_ne _ (by decide))).trans get_put_self

/-- The takeover is no longer due. -/
theorem takeoverDo_takeovers :
    (takeoverDo l f s).acq.takeovers = s.acq.takeovers.filter (fun t => decide (t.lane ≠ l)) := by
  have runs : (takeoverRuns l f s).acq.takeovers = s.acq.takeovers.filter (fun t => decide (t.lane ≠ l)) := by
    unfold takeoverRuns lowRange restartStreams
    dsimp only
    rw [State_put_acq, (State_putLive_only (s := s.putLive _ _) (.refl 36) (State_putLive_only (.refl 36) (.refl 36 s))).acq rfl]
  rw [takeoverDo_eq]
  split <;> exact runs

end

/-! ### Crossing timeouts (R59, R63) -/

theorem rangeCrossingTimeout_frame {ch : Fin 256} {s t : State} (e : exec (.rangeCrossingTimeout ch) s = .next t) :
    Frame (writes (.rangeCrossingTimeout ch)) s t :=
  (execRangeCrossingTimeout_only e (.refl _) (.refl _ _)).frame (ps := [.dict, .chg, .acq]) (by decide)

/-- The controller after 400 periods without a crossing: the range decided by the peak `c.before` of the results before the last one,
low where the last one was an emergency, and the peak that restarts with the last one (R59, R63; log 84). -/
def timedOut (c : RangeCtl) (gLow gHigh : Nat) : RangeCtl :=
  { c with want := rangeDecide c.want c.before gLow gHigh && !c.clip, crossed := true, since := 0, peak := c.last }

section
variable {ch : Fin 256} {s : State} {c : RangeCtl} (hc : c = tget {} s.acq.rng ch.val)
include hc

theorem execRangeCrossingTimeout_waits (h : c.since < 400) : execRangeCrossingTimeout ch s = .next s := by
  subst hc
  unfold execRangeCrossingTimeout
  exact congrArg _ (if_neg (by omega))

/-- A controller of an input with two ranges decides, and LAST_PEAK shows the peak by which it does. -/
theorem execRangeCrossingTimeout_acts (h : 400 ≤ c.since) (hmode : s.cfg s.fn (K.chRangeMode ch.val) = 0) :
    ∃ t, execRangeCrossingTimeout ch s = .next t ∧
      (∀ w, w = timedOut c (s.cfg s.fn (K.chGainLow ch.val)) (s.cfg s.fn (K.chGainHigh ch.val)) →
        t.acq = { s.acq with rng := tset {} s.acq.rng ch.val w }) ∧
      t.live (K.chLastPeak ch.val) = lastPeak c.before (s.cfg s.fn (K.chGainLow ch.val)) := by
  subst hc
  unfold execRangeCrossingTimeout
  dsimp only
  rw [if_pos ⟨h, hmode⟩]
  refine ⟨_, rfl, ?_, live_putLive_self⟩
  rintro _ rfl
  unfold rangeCross timedOut
  dsimp only
  rw [(State_putLive_only (.refl 36) (.refl 36 s)).acq rfl]

end

/-! ### The statement -/

/-- Settles O48: the coefficients by evaluation of their table, the 96 bits by a bound on each of the sixteen products, the aligned samples by
what saturation does to the filter's result, and the commands by what each does to its part of the state. -/
theorem samplesAreTakenAndAligned : Obligations.SamplesAreTakenAndAligned := by
  unfold Obligations.SamplesAreTakenAndAligned
  refine ⟨fun phi h => coeff_spec h, ?filter, ?periods, ?aligner, ?idle, ?takeover, ?range⟩
  case filter =>
    rintro hist n i phi y gov x rfl rfl hx
    have samples : ∀ t, t < 16 → ∃ r, histAt hist (n - ((max 1792 y).toNat / 256 - 7) - t) = some r ∧ r.y = x t := fun t ht => by
      obtain ⟨r, found, value, -⟩ := hx t ht
      exact ⟨r, found, value⟩
    have bounds : ∀ t, t < 16 → -(2 ^ 47) ≤ x t ∧ x t < 2 ^ 47 := fun t ht => by
      obtain ⟨r, -, -, within⟩ := hx t ht
      exact within
    have hphi : (max 1792 y).toNat % 256 < 256 := Nat.mod_lt _ (by decide)
    have sum := firSum_eq (h := coeff ((max 1792 y).toNat % 256)) samples
    refine ⟨fun k hk => filter_partial_within hphi bounds hk, fun t ht => ?_, fun z hz => alignOut_cases (sum.trans hz.symm), fun c hc => ?_⟩
    · have := filter_product_within hphi bounds ht
      omega
    · obtain ⟨lo, hi⟩ := bounds 0 (by decide)
      rw [hc 0 (by decide)] at lo hi
      obtain ⟨within, -, -⟩ := alignOut_cases (gov := gov) (sum.trans (filter_constant hphi hc))
      exact (within lo hi).1
  case periods =>
    refine fun ls vs s hmode hfirst => ⟨fun hperiod => ?_, fun hperiod => execSamplePeriod_full ls vs hperiod⟩
    obtain ⟨t, step, count⟩ := execSamplePeriod_counts ls vs hmode hfirst hperiod
    exact ⟨t, step, samplePeriod_frame step, count⟩
  case aligner =>
    refine fun s hdue => ⟨fun hfull => execAlignerSample_stalls hdue hfull, fun hroom => ?_⟩
    obtain ⟨t, step, ring⟩ := execAlignerSample_ring1 hdue hroom
    exact ⟨t, step, alignerSample_frame step, ring⟩
  case idle => exact fun s hdue => execAlignerSample_idle hdue
  case takeover =>
    refine fun l x s hx => ⟨fun hfrm => ?_, fun hfrm => execLaneTakeover_waits hx hfrm⟩
    have step := execLaneTakeover_due hx hfrm
    exact ⟨_, step, laneTakeover_frame step, takeoverDo_mode _ _ s, takeoverDo_rotStep _ _ s, takeoverDo_tableFn _ _ s,
      takeoverDo_serving _ _ s, takeoverDo_takeovers _ _ s⟩
  case range =>
    refine fun ch s c hc => ⟨fun hsince hmode => ?_, fun hsince => execRangeCrossingTimeout_waits hc hsince⟩
    obtain ⟨t, step, acq, peak⟩ := execRangeCrossingTimeout_acts hc hsince hmode
    exact ⟨t, step, rangeCrossingTimeout_frame step, fun w hw => acq _ (by rw [hw]; rfl), peak⟩

end Sys2Proof.Machine
end

section
/-! PROOF. The SPI transactions that carry no frame (R276, R277, R280, R281): STATUS, a reserved command, both chip selects low, and CLEAR. -/

namespace Sys2Proof.Machine

/-! ### Bits of raw values -/

/-- The bits of the model are the bits of the library. -/
theorem bit_eq_testBit (n b : Nat) : bit n b = n.testBit b := by
  rw [Nat.testBit_eq_decide_div_mod_eq]
  exact Bool.beq_eq_decide_eq _ _

/-- Subtracting a power of two that a number holds clears its bit and no other. -/
theorem testBit_sub_two_pow {n b : Nat} (h : n.testBit b = true) (j : Nat) :
    (n - 2 ^ b).testBit j = (n.testBit j && decide (j ≠ b)) := by
  induction b generalizing n j with
  | zero =>
    rw [Nat.testBit_zero, decide_eq_true_eq] at h
    rw [Nat.pow_zero]
    cases j with
    | zero =>
      have even : (n - 1) % 2 = 0 := by omega
      simp [even]
    | succ j =>
      have half : (n - 1) / 2 = n / 2 := by omega
      simp [Nat.testBit_succ, half]
  | succ b ih =>
    have small := Nat.ge_two_pow_of_testBit h
    rw [Nat.testBit_succ] at h
    rw [Nat.pow_succ] at small ⊢
    cases j with
    | zero =>
      have parity : (n - 2 ^ b * 2) % 2 = n % 2 := by omega
      simp [parity]
    | succ j =>
      have half : (n - 2 ^ b * 2) / 2 = n / 2 - 2 ^ b := by omega
      simp [Nat.testBit_succ, half, ih h]

theorem bit_clearBit (n b j : Nat) : bit (clearBit n b) j = (bit n j && decide (j ≠ b)) := by
  unfold clearBit
  split
  next h =>
    rw [bit_eq_testBit] at h
    rw [bit_eq_testBit, bit_eq_testBit, testBit_sub_two_pow h]
  next h =>
    by_cases e : j = b
    · simp [e, h]
    · simp [e]

/-- Clearing the bits of a list that meet a condition, one after another, leaves every other bit. -/
theorem bit_foldl_clearBit (c : Nat → Bool) (l : List Nat) (n j : Nat) :
    bit (l.foldl (fun n i => if c i then clearBit n i else n) n) j = (bit n j && !(decide (j ∈ l) && c j)) := by
  induction l generalizing n with
  | nil => simp
  | cons i l ih =>
    have first : bit (if c i then clearBit n i else n) j = (bit n j && !(decide (j = i) && c j)) := by
      by_cases e : j = i
      · subst e
        cases c j <;> simp [bit_clearBit]
      · cases c i <;> simp [bit_clearBit, e]
    rw [List.foldl_cons, ih, first, Bool.and_assoc, ← Bool.not_or, ← Bool.and_or_distrib_right, ← Bool.decide_or]
    simp only [List.mem_cons]

/-! ### STATUS and transactions that are ignored -/

theorem le_length (k n : Nat) : (le k n).length = k := by
  induction k generalizing n with
  | zero => rfl
  | succ k ih => rw [le, List.length_cons, ih]

/-- Table 10.8 has eight bytes. -/
theorem statusBytes_length (s : State) : (statusBytes s).length = 8 := by
  simp only [statusBytes, List.length_append, le_length]

/-- A code is none where its seven bits are none of Table 10.6. -/
theorem spiCode_reserved {cmd : Byte} (h : cmd.toNat % 128 ∉ [1, 2, 3, 4]) : spiCode cmd = none := by
  refine if_neg (fun range => h ?_)
  simp only [List.mem_cons, List.not_mem_nil, or_false]
  omega

theorem csCollision_frame {s t : State} (e : exec .csCollision s = .next t) : Frame (writes .csCollision) s t :=
  (execCsCollision_only e (.refl _) (.refl _ _)).frame (ps := [.dict, .spi]) (by decide)

/-! ### CLEAR -/

/-- The event of latched cause `b` recurred in the current frame. -/
def causeRecurred (s : State) (b : Nat) : Bool := s.spi.again.any (fun e => decide (e.1 = b) && decide (e.2 = s.fn))

/-- The causes that stay latched after a CLEAR. -/
def clearedCauses (mask : BitVec 16) (s : State) : Nat :=
  (List.range' 2 9).foldl (fun c b => if bit mask.toNat b && !causeRecurred s b then clearBit c b else c) s.spi.causes

/-- A latched cause goes when its bit of the mask is 1 and its event did not recur in this frame (R281; log 27). -/
theorem bit_clearedCauses (mask : BitVec 16) (s : State) (b : Nat) : bit (clearedCauses mask s) b =
    (bit s.spi.causes b && !(decide (2 ≤ b ∧ b ≤ 10) && bit mask.toNat b && !causeRecurred s b)) := by
  have latched : b ∈ List.range' 2 9 ↔ 2 ≤ b ∧ b ≤ 10 := by
    rw [List.mem_range'_1]
    omega
  rw [clearedCauses, bit_foldl_clearBit, Bool.and_assoc (decide _), decide_eq_decide.mpr latched]

section
variable {s : State} (hup : spiUp s = true)
include hup

theorem execSpiStatus_up : execSpiStatus s = .next (spiSend (statusBytes s) s) := congrArg _ (if_pos hup)

theorem execSpiReservedCommand_up {cmd : Byte} (h : spiCode cmd = none) : execSpiReservedCommand cmd s = .next (spiSend [] s) :=
  congrArg _ (if_pos ⟨hup, h⟩)

theorem execCsCollision_up : execCsCollision s = .next (spiSend [] (s.bump K.spiCsCollisions)) := congrArg _ (if_pos hup)

theorem execSpiClear_up (mask : BitVec 16) :
    execSpiClear mask s = .next (spiSend [] (setSpi (fun p => { p with causes := clearedCauses mask s }) s)) := by
  unfold clearedCauses
  rw [List.range'_eq_map_range, List.foldl_map]
  exact congrArg _ (if_pos hup)

end

/-! ### The statement -/

/-- Settles O13: each transaction by what it does while the pins are powered, and CLEAR by the bits that its fold over the latched causes
leaves. -/
theorem spiStatusAndClear : Obligations.SpiStatusAndClear := by
  unfold Obligations.SpiStatusAndClear
  refine ⟨fun s hup => ⟨?status, fun cmd hcmd => ?reserved, ?collision⟩, fun mask s hup => ?clear⟩
  case status => exact ⟨execSpiStatus_up hup, statusBytes_length s⟩
  case reserved => exact execSpiReservedCommand_up hup (spiCode_reserved hcmd)
  case collision =>
    have step := execCsCollision_up hup
    exact ⟨_, step, get_bump_self, rfl, fun k hk => get_bump_ne hk.symm, csCollision_frame step⟩
  case clear => exact ⟨_, execSpiClear_up hup mask, bit_clearedCauses mask s, rfl⟩

end Sys2Proof.Machine
end

section
/-! PROOF. The frame and the invariants of every command, read off the laws of the operations: what a command writes (O5), the form that
every step keeps (O4), and what moves FN and the mode (O6). -/

namespace Sys2Proof.Machine

/-- Nothing but the pieces listed in `writes` changes: each meaning changes only the parts of its mask. -/
theorem exec_frame {c : Instr} {s t : State} (e : exec c s = .next t) : Frame (writes c) s t := by
  cases c with
  | frameTick _ => exact (execFrameTick_only e (.refl _) (.refl _ _)).frame (by dsimp only [writes]; decide)
  | calStateChange => exact (execCalStateChange_only e (.refl _) (.refl _ _)).frame (by dsimp only [writes]; decide)
  | samplePeriod _ _ => exact (execSamplePeriod_only e (.refl _) (.refl _ _)).frame (by dsimp only [writes]; decide)
  | rangeCrossingTimeout _ => exact (execRangeCrossingTimeout_only e (.refl _) (.refl _ _)).frame (by dsimp only [writes]; decide)
  | alignerSample => exact (execAlignerSample_only e (.refl _) (.refl _ _)).frame (by dsimp only [writes]; decide)
  | laneTakeover _ => exact (execLaneTakeover_only e (.refl _) (.refl _ _)).frame (by dsimp only [writes]; decide)
  | tanneryFrameCompute _ _ => exact (execTanneryFrameCompute_only e (.refl _) (.refl _ _)).frame (by dsimp only [writes]; decide)
  | halfCycleTimeout _ => exact (execHalfCycleTimeout_only e (.refl _) (.refl _ _)).frame (by dsimp only [writes]; decide)
  | harmonicWindowClose _ => exact (execHarmonicWindowClose_only e (.refl _) (.refl _ _)).frame (by dsimp only [writes]; decide)
  | freq10sIntervalEnd => exact (execFreq10sIntervalEnd_only e (.refl _) (.refl _ _)).frame (by dsimp only [writes]; decide)
  | hallmarkAccrue _ => exact (execHallmarkAccrue_only e (.refl _) (.refl _ _)).frame (by dsimp only [writes]; decide)
  | directionChange _ => exact (execDirectionChange_only e (.refl _) (.refl _ _)).frame (by dsimp only [writes]; decide)
  | balanceRate => exact (execBalanceRate_only e (.refl _) (.refl _ _)).frame (by dsimp only [writes]; decide)
  | healthCheckPass => exact (execHealthCheckPass_only e (.refl _) (.refl _ _)).frame (by dsimp only [writes]; decide)
  | publisherSeal => exact (execPublisherSeal_only e (.refl _) (.refl _ _)).frame (by dsimp only [writes]; decide)
  | ringCreditAvailable _ _ => exact (execRingCreditAvailable_only e (.refl _) (.refl _ _)).frame (by dsimp only [writes]; decide)
  | commitTakesEffect => exact (execCommitTakesEffect_only e (.refl _) (.refl _ _)).frame (by dsimp only [writes]; decide)
  | pinExpiry _ => exact (execPinExpiry_only e (.refl _) (.refl _ _)).frame (by dsimp only [writes]; decide)
  | txnTimeout _ => exact (execTxnTimeout_only e (.refl _) (.refl _ _)).frame (by dsimp only [writes]; decide)
  | requestParse _ => exact (execRequestParse_only e (.refl _) (.refl _ _)).frame (by dsimp only [writes]; decide)
  | requestStartDeferred _ => exact (execRequestStartDeferred_only e (.refl _) (.refl _ _)).frame (by dsimp only [writes]; decide)
  | continuationTimeout _ => exact (execContinuationTimeout_only e (.refl _) (.refl _ _)).frame (by dsimp only [writes]; decide)
  | responseEnqueue _ => exact (execResponseEnqueue_only e (.refl _) (.refl _ _)).frame (by dsimp only [writes]; decide)
  | read _ => exact (execRead_only e (.refl _) (.refl _ _)).frame (by dsimp only [writes]; decide)
  | readSet _ => exact (execReadSet_only e (.refl _) (.refl _ _)).frame (by dsimp only [writes]; decide)
  | readSigned _ => exact (execReadSigned_only e (.refl _) (.refl _ _)).frame (by dsimp only [writes]; decide)
  | write _ => exact (execWrite_only e (.refl _) (.refl _ _)).frame (by dsimp only [writes]; decide)
  | begin_ _ => exact (execBegin_only e (.refl _) (.refl _ _)).frame (by dsimp only [writes]; decide)
  | commit _ => exact (execCommit_only e (.refl _) (.refl _ _)).frame (by dsimp only [writes]; decide)
  | rollback _ => exact (execRollback_only e (.refl _) (.refl _ _)).frame (by dsimp only [writes]; decide)
  | subscribe _ => exact (execSubscribe_only e (.refl _) (.refl _ _)).frame (by dsimp only [writes]; decide)
  | unsubscribe _ => exact (execUnsubscribe_only e (.refl _) (.refl _ _)).frame (by dsimp only [writes]; decide)
  | helloStep1 _ => exact (execHelloStep1_only e (.refl _) (.refl _ _)).frame (by dsimp only [writes]; decide)
  | helloStep2 _ => exact (execHelloStep2_only e (.refl _) (.refl _ _)).frame (by dsimp only [writes]; decide)
  | handshakeExpiry _ => exact (execHandshakeExpiry_only e (.refl _) (.refl _ _)).frame (by dsimp only [writes]; decide)
  | sessionTimeout _ => exact (execSessionTimeout_only e (.refl _) (.refl _ _)).frame (by dsimp only [writes]; decide)
  | unknownOpcode _ => exact (execUnknownOpcode_only e (.refl _) (.refl _ _)).frame (by dsimp only [writes]; decide)
  | timeSet _ => exact (execTimeSet_only e (.refl _) (.refl _ _)).frame (by dsimp only [writes]; decide)
  | clockStepApply => exact (execClockStepApply_only e (.refl _) (.refl _ _)).frame (by dsimp only [writes]; decide)
  | captureNow _ => exact (execCaptureNow_only e (.refl _) (.refl _ _)).frame (by dsimp only [writes]; decide)
  | captureComplete => exact (execCaptureComplete_only e (.refl _) (.refl _ _)).frame (by dsimp only [writes]; decide)
  | captureHoldoffExpiry => exact (execCaptureHoldoffExpiry_only e (.refl _) (.refl _ _)).frame (by dsimp only [writes]; decide)
  | closeNow _ => exact (execCloseNow_only e (.refl _) (.refl _ _)).frame (by dsimp only [writes]; decide)
  | boundaryFrame => exact (execBoundaryFrame_only e (.refl _) (.refl _ _)).frame (by dsimp only [writes]; decide)
  | profileIntervalEnd => exact (execProfileIntervalEnd_only e (.refl _) (.refl _ _)).frame (by dsimp only [writes]; decide)
  | forcedRollComplete => exact (execForcedRollComplete_only e (.refl _) (.refl _ _)).frame (by dsimp only [writes]; decide)
  | staleEnter => exact (execStaleEnter_only e (.refl _) (.refl _ _)).frame (by dsimp only [writes]; decide)
  | wiringCheck => exact (execWiringCheck_only e (.refl _) (.refl _ _)).frame (by dsimp only [writes]; decide)
  | hostTokenWrite _ => exact (execHostTokenWrite_only e (.refl _) (.refl _ _)).frame (by dsimp only [writes]; decide)
  | resume _ => exact (execResume_only e (.refl _) (.refl _ _)).frame (by dsimp only [writes]; decide)
  | reinstate _ => exact (execReinstate_only e (.refl _) (.refl _ _)).frame (by dsimp only [writes]; decide)
  | pulseStart _ => exact (execPulseStart_only e (.refl _) (.refl _ _)).frame (by dsimp only [writes]; decide)
  | pulseEnd _ => exact (execPulseEnd_only e (.refl _) (.refl _ _)).frame (by dsimp only [writes]; decide)
  | channelCheck _ => exact (execChannelCheck_only e (.refl _) (.refl _ _)).frame (by dsimp only [writes]; decide)
  | channelExtraCheck _ _ => exact (execChannelExtraCheck_only e (.refl _) (.refl _ _)).frame (by dsimp only [writes]; decide)
  | voltageCheck _ _ => exact (execVoltageCheck_only e (.refl _) (.refl _ _)).frame (by dsimp only [writes]; decide)
  | modulatorInstability _ => exact (execModulatorInstability_only e (.refl _) (.refl _ _)).frame (by dsimp only [writes]; decide)
  | portWatchdog _ _ => exact (execPortWatchdog_only e (.refl _) (.refl _ _)).frame (by dsimp only [writes]; decide)
  | routeRetire _ => exact (execRouteRetire_only e (.refl _) (.refl _ _)).frame (by dsimp only [writes]; decide)
  | spiPut _ => exact (execSpiPut_only e (.refl _) (.refl _ _)).frame (by dsimp only [writes]; decide)
  | spiTake _ => exact (execSpiTake_only e (.refl _) (.refl _ _)).frame (by dsimp only [writes]; decide)
  | spiStatus => exact (execSpiStatus_only e (.refl _) (.refl _ _)).frame (by dsimp only [writes]; decide)
  | spiClear _ => exact (execSpiClear_only e (.refl _) (.refl _ _)).frame (by dsimp only [writes]; decide)
  | spiReservedCommand _ => exact (execSpiReservedCommand_only e (.refl _) (.refl _ _)).frame (by dsimp only [writes]; decide)
  | csCollision => exact (execCsCollision_only e (.refl _) (.refl _ _)).frame (by dsimp only [writes]; decide)
  | legacyRead _ _ => exact (execLegacyRead_only e (.refl _) (.refl _ _)).frame (by dsimp only [writes]; decide)
  | legacyWriteEvents _ => exact (execLegacyWriteEvents_only e (.refl _) (.refl _ _)).frame (by dsimp only [writes]; decide)
  | legacyWriteEventMask _ => exact (execLegacyWriteEventMask_only e (.refl _) (.refl _ _)).frame (by dsimp only [writes]; decide)
  | legacyWriteIgnored _ w => exact (execLegacyWriteIgnored_only (a1 := w) e (.refl _) (.refl _ _)).frame (by dsimp only [writes]; decide)
  | t1sDatagramReceive _ => exact (execT1sDatagramReceive_only e (.refl _) (.refl _ _)).frame (by dsimp only [writes]; decide)
  | neighbourSolicitation _ _ _ => exact (execNeighbourSolicitation_only e (.refl _) (.refl _ _)).frame (by dsimp only [writes]; decide)
  | echoRequest _ => exact (execEchoRequest_only e (.refl _) (.refl _ _)).frame (by dsimp only [writes]; decide)
  | duplicateAddressDetection _ _ => exact (execDuplicateAddressDetection_only e (.refl _) (.refl _ _)).frame (by dsimp only [writes]; decide)
  | bridleNetworkFrame _ => exact (execBridleNetworkFrame_only e (.refl _) (.refl _ _)).frame (by dsimp only [writes]; decide)
  | t1sPowerDown => exact (execT1sPowerDown_only e (.refl _) (.refl _ _)).frame (by dsimp only [writes]; decide)
  | endSession _ => exact (execEndSession_only e (.refl _) (.refl _ _)).frame (by dsimp only [writes]; decide)
  | plcFrameReceive _ => exact (execPlcFrameReceive_only e (.refl _) (.refl _ _)).frame (by dsimp only [writes]; decide)
  | plcJoin _ => exact (execPlcJoin_only e (.refl _) (.refl _ _)).frame (by dsimp only [writes]; decide)
  | joinRetry => exact (execJoinRetry_only e (.refl _) (.refl _ _)).frame (by dsimp only [writes]; decide)
  | plcTxComplete _ _ => exact (execPlcTxComplete_only e (.refl _) (.refl _ _)).frame (by dsimp only [writes]; decide)
  | routeWaitExpiry => exact (execRouteWaitExpiry_only e (.refl _) (.refl _ _)).frame (by dsimp only [writes]; decide)
  | toneMapRefresh _ => exact (execToneMapRefresh_only e (.refl _) (.refl _ _)).frame (by dsimp only [writes]; decide)
  | announceSend => exact (execAnnounceSend_only e (.refl _) (.refl _ _)).frame (by dsimp only [writes]; decide)
  | announceAbandon => exact (execAnnounceAbandon_only e (.refl _) (.refl _ _)).frame (by dsimp only [writes]; decide)
  | announcementReceive _ => exact (execAnnouncementReceive_only e (.refl _) (.refl _ _)).frame (by dsimp only [writes]; decide)
  | tbHoldoverExpiry => exact (execTbHoldoverExpiry_only e (.refl _) (.refl _ _)).frame (by dsimp only [writes]; decide)
  | cycleMap _ => exact (execCycleMap_only e (.refl _) (.refl _ _)).frame (by dsimp only [writes]; decide)
  | repeaterOfferChange => exact (execRepeaterOfferChange_only e (.refl _) (.refl _ _)).frame (by dsimp only [writes]; decide)
  | routeHoldExpiry => exact (execRouteHoldExpiry_only e (.refl _) (.refl _ _)).frame (by dsimp only [writes]; decide)
  | strangerBlock _ => exact (execStrangerBlock_only e (.refl _) (.refl _ _)).frame (by dsimp only [writes]; decide)
  | strangerForced => exact (execStrangerForced_only e (.refl _) (.refl _ _)).frame (by dsimp only [writes]; decide)
  | pageStoreComplete _ => exact (execPageStoreComplete_only e (.refl _) (.refl _ _)).frame (by dsimp only [writes]; decide)
  | rollPosition => exact (execRollPosition_only e (.refl _) (.refl _ _)).frame (by dsimp only [writes]; decide)
  | bgStore => exact (execBgStore_only e (.refl _) (.refl _ _)).frame (by dsimp only [writes]; decide)
  | tackroomOpComplete _ => exact (execTackroomOpComplete_only e (.refl _) (.refl _ _)).frame (by dsimp only [writes]; decide)
  | eventLogWrite => exact (execEventLogWrite_only e (.refl _) (.refl _ _)).frame (by dsimp only [writes]; decide)
  | scrub _ _ => exact (execScrub_only e (.refl _) (.refl _ _)).frame (by dsimp only [writes]; decide)
  | backup => exact (execBackup_only e (.refl _) (.refl _ _)).frame (by dsimp only [writes]; decide)
  | backupNow _ => exact (execBackupNow_only e (.refl _) (.refl _ _)).frame (by dsimp only [writes]; decide)
  | pageRead _ => exact (execPageRead_only e (.refl _) (.refl _ _)).frame (by dsimp only [writes]; decide)
  | pageWrite _ => exact (execPageWrite_only e (.refl _) (.refl _ _)).frame (by dsimp only [writes]; decide)
  | restore _ => exact (execRestore_only e (.refl _) (.refl _ _)).frame (by dsimp only [writes]; decide)
  | twinWrite _ => exact (execTwinWrite_only e (.refl _) (.refl _ _)).frame (by dsimp only [writes]; decide)
  | resolve _ => exact (execResolve_only e (.refl _) (.refl _ _)).frame (by dsimp only [writes]; decide)
  | hjWrite _ => exact (execHjWrite_only e (.refl _) (.refl _ _)).frame (by dsimp only [writes]; decide)
  | hjRead _ => exact (execHjRead_only e (.refl _) (.refl _ _)).frame (by dsimp only [writes]; decide)
  | tkRead _ => exact (execTkRead_only e (.refl _) (.refl _ _)).frame (by dsimp only [writes]; decide)
  | eventRead _ => exact (execEventRead_only e (.refl _) (.refl _ _)).frame (by dsimp only [writes]; decide)
  | keyCommand _ => exact (execKeyCommand_only e (.refl _) (.refl _ _)).frame (by dsimp only [writes]; decide)
  | updateOpen _ => exact (execUpdateOpen_only e (.refl _) (.refl _ _)).frame (by dsimp only [writes]; decide)
  | writeBlock _ => exact (execWriteBlock_only e (.refl _) (.refl _ _)).frame (by dsimp only [writes]; decide)
  | verify _ => exact (execVerify_only e (.refl _) (.refl _ _)).frame (by dsimp only [writes]; decide)
  | activate _ => exact (execActivate_only e (.refl _) (.refl _ _)).frame (by dsimp only [writes]; decide)
  | abort _ => exact (execAbort_only e (.refl _) (.refl _ _)).frame (by dsimp only [writes]; decide)
  | leaseExpiry => exact (execLeaseExpiry_only e (.refl _) (.refl _ _)).frame (by dsimp only [writes]; decide)
  | handoverPrepared _ => exact (execHandoverPrepared_only e (.refl _) (.refl _ _)).frame (by dsimp only [writes]; decide)
  | handoverQuiesce => exact (execHandoverQuiesce_only e (.refl _) (.refl _ _)).frame (by dsimp only [writes]; decide)
  | handoverAtB => exact (execHandoverAtB_only e (.refl _) (.refl _ _)).frame (by dsimp only [writes]; decide)
  | handoverBankSwitch => exact (execHandoverBankSwitch_only e (.refl _) (.refl _ _)).frame (by dsimp only [writes]; decide)
  | imageRevert => exact (execImageRevert_only e (.refl _) (.refl _ _)).frame (by dsimp only [writes]; decide)
  | operationalCoreReady => exact (execOperationalCoreReady_only e (.refl _) (.refl _ _)).frame (by dsimp only [writes]; decide)
  | powerGood _ => exact (execPowerGood_only e (.refl _) (.refl _ _)).frame (by dsimp only [writes]; decide)
  | holdOk _ => exact (execHoldOk_only e (.refl _) (.refl _ _)).frame (by dsimp only [writes]; decide)
  | holdFault _ => exact (execHoldFault_only e (.refl _) (.refl _ _)).frame (by dsimp only [writes]; decide)
  | billingResume => exact (execBillingResume_only e (.refl _) (.refl _ _)).frame (by dsimp only [writes]; decide)
  | warmReset _ _ => exact (execWarmReset_only e (.refl _) (.refl _ _)).frame (by dsimp only [writes]; decide)
  | powerFailWarning _ _ _ => exact (execPowerFailWarning_only e (.refl _) (.refl _ _)).frame (by dsimp only [writes]; decide)
  | lastGaspComplete _ _ => exact (execLastGaspComplete_only e (.refl _) (.refl _ _)).frame (by dsimp only [writes]; decide)
  | vbatMeasure _ _ _ _ => exact (execVbatMeasure_only e (.refl _) (.refl _ _)).frame (by dsimp only [writes]; decide)
  | vbatCollapse => exact (execVbatCollapse_only e (.refl _) (.refl _ _)).frame (by dsimp only [writes]; decide)
  | tamperSample _ _ => exact (execTamperSample_only e (.refl _) (.refl _ _)).frame (by dsimp only [writes]; decide)
  | geckoScan _ => exact (execGeckoScan_only e (.refl _) (.refl _ _)).frame (by dsimp only [writes]; decide)
  | geckoLimitExpiry => exact (execGeckoLimitExpiry_only e (.refl _) (.refl _ _)).frame (by dsimp only [writes]; decide)
  | rtcCountAdvance => exact (execRtcCountAdvance_only e (.refl _) (.refl _ _)).frame (by dsimp only [writes]; decide)
  | pfwNRelease => exact (execPfwNRelease_only e (.refl _) (.refl _ _)).frame (by dsimp only [writes]; decide)
/-- Settles O5, by the mask of the operations that each command runs. -/
theorem commandsChangeOnlyTheirPieces : Obligations.CommandsChangeOnlyTheirPieces := by
  unfold Obligations.CommandsChangeOnlyTheirPieces
  exact fun c s t e => exec_frame e

end Sys2Proof.Machine
end

section
/-! PROOF. What every command keeps, over all commands: the form of a sound state, the queue, FN and the mode (R5, R10, R11, R14, R245), and the state
after reset. -/
namespace Sys2Proof.Machine

/-- Every command keeps the form, the commands that wait, and the free values already drawn; a start moves the frame number and the mode. -/
theorem exec_kept {c : Instr} {q : List Instr} {n f : Nat} {m : Mode} {s t : State} (e : exec c s = .next t) (h : Kept q n f m s) :
    ∃ f' m', Kept q n f' m' t := by
  cases c with
  | frameTick _ => exact ⟨_, _, execFrameTick_ok e h⟩
  | calStateChange => exact ⟨_, _, execCalStateChange_ok e h⟩
  | samplePeriod _ _ => exact ⟨_, _, execSamplePeriod_ok e h⟩
  | rangeCrossingTimeout _ => exact ⟨_, _, execRangeCrossingTimeout_ok e h⟩
  | alignerSample => exact ⟨_, _, execAlignerSample_ok e h⟩
  | laneTakeover _ => exact ⟨_, _, execLaneTakeover_ok e h⟩
  | tanneryFrameCompute _ _ => exact ⟨_, _, execTanneryFrameCompute_ok e h⟩
  | halfCycleTimeout _ => exact ⟨_, _, execHalfCycleTimeout_ok e h⟩
  | harmonicWindowClose _ => exact ⟨_, _, execHarmonicWindowClose_ok e h⟩
  | freq10sIntervalEnd => exact ⟨_, _, execFreq10sIntervalEnd_ok e h⟩
  | hallmarkAccrue _ => exact ⟨_, _, execHallmarkAccrue_ok e h⟩
  | directionChange _ => exact ⟨_, _, execDirectionChange_ok e h⟩
  | balanceRate => exact ⟨_, _, execBalanceRate_ok e h⟩
  | healthCheckPass => exact ⟨_, _, execHealthCheckPass_ok e h⟩
  | publisherSeal => exact ⟨_, _, execPublisherSeal_ok e h⟩
  | ringCreditAvailable _ _ => exact ⟨_, _, execRingCreditAvailable_ok e h⟩
  | commitTakesEffect => exact ⟨_, _, execCommitTakesEffect_ok e h⟩
  | pinExpiry _ => exact ⟨_, _, execPinExpiry_ok e h⟩
  | txnTimeout _ => exact ⟨_, _, execTxnTimeout_ok e h⟩
  | requestParse _ => exact ⟨_, _, execRequestParse_ok e h⟩
  | requestStartDeferred _ => exact ⟨_, _, execRequestStartDeferred_ok e h⟩
  | continuationTimeout _ => exact ⟨_, _, execContinuationTimeout_ok e h⟩
  | responseEnqueue _ => exact ⟨_, _, execResponseEnqueue_ok e h⟩
  | read _ => exact ⟨_, _, execRead_ok e h⟩
  | readSet _ => exact ⟨_, _, execReadSet_ok e h⟩
  | readSigned _ => exact ⟨_, _, execReadSigned_ok e h⟩
  | write _ => exact ⟨_, _, execWrite_ok e h⟩
  | begin_ _ => exact ⟨_, _, execBegin_ok e h⟩
  | commit _ => exact ⟨_, _, execCommit_ok e h⟩
  | rollback _ => exact ⟨_, _, execRollback_ok e h⟩
  | subscribe _ => exact ⟨_, _, execSubscribe_ok e h⟩
  | unsubscribe _ => exact ⟨_, _, execUnsubscribe_ok e h⟩
  | helloStep1 _ => exact ⟨_, _, execHelloStep1_ok e h⟩
  | helloStep2 _ => exact ⟨_, _, execHelloStep2_ok e h⟩
  | handshakeExpiry _ => exact ⟨_, _, execHandshakeExpiry_ok e h⟩
  | sessionTimeout _ => exact ⟨_, _, execSessionTimeout_ok e h⟩
  | unknownOpcode _ => exact ⟨_, _, execUnknownOpcode_ok e h⟩
  | timeSet _ => exact ⟨_, _, execTimeSet_ok e h⟩
  | clockStepApply => exact ⟨_, _, execClockStepApply_ok e h⟩
  | captureNow _ => exact ⟨_, _, execCaptureNow_ok e h⟩
  | captureComplete => exact ⟨_, _, execCaptureComplete_ok e h⟩
  | captureHoldoffExpiry => exact ⟨_, _, execCaptureHoldoffExpiry_ok e h⟩
  | closeNow _ => exact ⟨_, _, execCloseNow_ok e h⟩
  | boundaryFrame => exact ⟨_, _, execBoundaryFrame_ok e h⟩
  | profileIntervalEnd => exact ⟨_, _, execProfileIntervalEnd_ok e h⟩
  | forcedRollComplete => exact ⟨_, _, execForcedRollComplete_ok e h⟩
  | staleEnter => exact ⟨_, _, execStaleEnter_ok e h⟩
  | wiringCheck => exact ⟨_, _, execWiringCheck_ok e h⟩
  | hostTokenWrite _ => exact ⟨_, _, execHostTokenWrite_ok e h⟩
  | resume _ => exact ⟨_, _, execResume_ok e h⟩
  | reinstate _ => exact ⟨_, _, execReinstate_ok e h⟩
  | pulseStart _ => exact ⟨_, _, execPulseStart_ok e h⟩
  | pulseEnd _ => exact ⟨_, _, execPulseEnd_ok e h⟩
  | channelCheck _ => exact ⟨_, _, execChannelCheck_ok e h⟩
  | channelExtraCheck _ _ => exact ⟨_, _, execChannelExtraCheck_ok e h⟩
  | voltageCheck _ _ => exact ⟨_, _, execVoltageCheck_ok e h⟩
  | modulatorInstability _ => exact ⟨_, _, execModulatorInstability_ok e h⟩
  | portWatchdog _ _ => exact ⟨_, _, execPortWatchdog_ok e h⟩
  | routeRetire _ => exact ⟨_, _, execRouteRetire_ok e h⟩
  | spiPut _ => exact ⟨_, _, execSpiPut_ok e h⟩
  | spiTake _ => exact ⟨_, _, execSpiTake_ok e h⟩
  | spiStatus => exact ⟨_, _, execSpiStatus_ok e h⟩
  | spiClear _ => exact ⟨_, _, execSpiClear_ok e h⟩
  | spiReservedCommand _ => exact ⟨_, _, execSpiReservedCommand_ok e h⟩
  | csCollision => exact ⟨_, _, execCsCollision_ok e h⟩
  | legacyRead _ _ => exact ⟨_, _, execLegacyRead_ok e h⟩
  | legacyWriteEvents _ => exact ⟨_, _, execLegacyWriteEvents_ok e h⟩
  | legacyWriteEventMask _ => exact ⟨_, _, execLegacyWriteEventMask_ok e h⟩
  | legacyWriteIgnored _ w => exact ⟨_, _, execLegacyWriteIgnored_ok (a1 := w) e h⟩
  | t1sDatagramReceive _ => exact ⟨_, _, execT1sDatagramReceive_ok e h⟩
  | neighbourSolicitation _ _ _ => exact ⟨_, _, execNeighbourSolicitation_ok e h⟩
  | echoRequest _ => exact ⟨_, _, execEchoRequest_ok e h⟩
  | duplicateAddressDetection _ _ => exact ⟨_, _, execDuplicateAddressDetection_ok e h⟩
  | bridleNetworkFrame _ => exact ⟨_, _, execBridleNetworkFrame_ok e h⟩
  | t1sPowerDown => exact ⟨_, _, execT1sPowerDown_ok e h⟩
  | endSession _ => exact ⟨_, _, execEndSession_ok e h⟩
  | plcFrameReceive _ => exact ⟨_, _, execPlcFrameReceive_ok e h⟩
  | plcJoin _ => exact ⟨_, _, execPlcJoin_ok e h⟩
  | joinRetry => exact ⟨_, _, execJoinRetry_ok e h⟩
  | plcTxComplete _ _ => exact ⟨_, _, execPlcTxComplete_ok e h⟩
  | routeWaitExpiry => exact ⟨_, _, execRouteWaitExpiry_ok e h⟩
  | toneMapRefresh _ => exact ⟨_, _, execToneMapRefresh_ok e h⟩
  | announceSend => exact ⟨_, _, execAnnounceSend_ok e h⟩
  | announceAbandon => exact ⟨_, _, execAnnounceAbandon_ok e h⟩
  | announcementReceive _ => exact ⟨_, _, execAnnouncementReceive_ok e h⟩
  | tbHoldoverExpiry => exact ⟨_, _, execTbHoldoverExpiry_ok e h⟩
  | cycleMap _ => exact ⟨_, _, execCycleMap_ok e h⟩
  | repeaterOfferChange => exact ⟨_, _, execRepeaterOfferChange_ok e h⟩
  | routeHoldExpiry => exact ⟨_, _, execRouteHoldExpiry_ok e h⟩
  | strangerBlock _ => exact ⟨_, _, execStrangerBlock_ok e h⟩
  | strangerForced => exact ⟨_, _, execStrangerForced_ok e h⟩
  | pageStoreComplete _ => exact ⟨_, _, execPageStoreComplete_ok e h⟩
  | rollPosition => exact ⟨_, _, execRollPosition_ok e h⟩
  | bgStore => exact ⟨_, _, execBgStore_ok e h⟩
  | tackroomOpComplete _ => exact ⟨_, _, execTackroomOpComplete_ok e h⟩
  | eventLogWrite => exact ⟨_, _, execEventLogWrite_ok e h⟩
  | scrub _ _ => exact ⟨_, _, execScrub_ok e h⟩
  | backup => exact ⟨_, _, execBackup_ok e h⟩
  | backupNow _ => exact ⟨_, _, execBackupNow_ok e h⟩
  | pageRead _ => exact ⟨_, _, execPageRead_ok e h⟩
  | pageWrite _ => exact ⟨_, _, execPageWrite_ok e h⟩
  | restore _ => exact ⟨_, _, execRestore_ok e h⟩
  | twinWrite _ => exact ⟨_, _, execTwinWrite_ok e h⟩
  | resolve _ => exact ⟨_, _, execResolve_ok e h⟩
  | hjWrite _ => exact ⟨_, _, execHjWrite_ok e h⟩
  | hjRead _ => exact ⟨_, _, execHjRead_ok e h⟩
  | tkRead _ => exact ⟨_, _, execTkRead_ok e h⟩
  | eventRead _ => exact ⟨_, _, execEventRead_ok e h⟩
  | keyCommand _ => exact ⟨_, _, execKeyCommand_ok e h⟩
  | updateOpen _ => exact ⟨_, _, execUpdateOpen_ok e h⟩
  | writeBlock _ => exact ⟨_, _, execWriteBlock_ok e h⟩
  | verify _ => exact ⟨_, _, execVerify_ok e h⟩
  | activate _ => exact execActivate_ok e h
  | abort _ => exact ⟨_, _, execAbort_ok e h⟩
  | leaseExpiry => exact ⟨_, _, execLeaseExpiry_ok e h⟩
  | handoverPrepared _ => exact ⟨_, _, execHandoverPrepared_ok e h⟩
  | handoverQuiesce => exact ⟨_, _, execHandoverQuiesce_ok e h⟩
  | handoverAtB => exact ⟨_, _, execHandoverAtB_ok e h⟩
  | handoverBankSwitch => exact ⟨_, _, execHandoverBankSwitch_ok e h⟩
  | imageRevert => exact ⟨_, _, execImageRevert_ok e h⟩
  | operationalCoreReady => exact ⟨_, _, execOperationalCoreReady_ok e h⟩
  | powerGood _ => exact execPowerGood_ok e h
  | holdOk _ => exact ⟨_, _, execHoldOk_ok e h⟩
  | holdFault _ => exact ⟨_, _, execHoldFault_ok e h⟩
  | billingResume => exact ⟨_, _, execBillingResume_ok e h⟩
  | warmReset _ _ => exact execWarmReset_ok e h
  | powerFailWarning _ _ _ => exact ⟨_, _, execPowerFailWarning_ok e h⟩
  | lastGaspComplete _ _ => exact ⟨f, execLastGaspComplete_ok e h⟩
  | vbatMeasure _ _ _ _ => exact ⟨_, _, execVbatMeasure_ok e h⟩
  | vbatCollapse => exact ⟨_, _, execVbatCollapse_ok e h⟩
  | tamperSample _ _ => exact ⟨_, _, execTamperSample_ok e h⟩
  | geckoScan _ => exact ⟨f, execGeckoScan_ok e h⟩
  | geckoLimitExpiry => exact ⟨f, execGeckoLimitExpiry_ok e h⟩
  | rtcCountAdvance => exact ⟨_, _, execRtcCountAdvance_ok e h⟩
  | pfwNRelease => exact ⟨_, _, execPfwNRelease_ok e h⟩
theorem exec_sound {c : Instr} {s t : State} (e : exec c s = .next t) (h : Sound s) : Sound t := by
  obtain ⟨_, _, kept⟩ := exec_kept e h.kept
  exact kept.sound

/-- A step on an empty queue idles. -/
theorem step_idle {s : State} (h : s.pending = []) : step s = .next s := by
  unfold step
  rw [h]

/-- A step takes the command at the front of the queue. -/
theorem step_front {c : Instr} {q : List Instr} {s : State} (h : s.pending = c :: q) : step s = exec c { s with pending := q } := by
  unfold step
  rw [h]

/-- The queue is no part of the form. -/
theorem Sound.withPending {s : State} (h : Sound s) (q : List Instr) : Sound { s with pending := q } :=
  ⟨h.dict, h.pages, h.seals, h.ring5, h.ring7, h.period⟩

/-- Settles O4: the front command keeps the form, and idling changes nothing. -/
theorem stepKeepsSound : Obligations.StepKeepsSound := by
  unfold Obligations.StepKeepsSound
  intro s t h e
  cases hq : s.pending with
  | nil =>
    rw [step_idle hq] at e
    cases e
    exact h
  | cons c q =>
    rw [step_front hq] at e
    exact exec_sound e (h.withPending q)

/-- Settles O1, by the two cases of `step`. -/
theorem stepRunsFront : Obligations.StepRunsFront := by
  unfold Obligations.StepRunsFront
  exact ⟨fun _ _ _ h => step_front h, fun _ h => step_idle h⟩

/-- Settles O2: the meaning of each command is a next state. -/
theorem everyCommandCompletes : Obligations.EveryCommandCompletes := by
  unfold Obligations.EveryCommandCompletes
  intro c s
  cases c <;> exact ⟨_, rfl⟩

/-- Settles O3: the empty tables are canonical, and the empty rings hold no record. -/
theorem resetSound : Obligations.ResetSound := by
  unfold Obligations.ResetSound
  exact ⟨rfl, rfl, rfl, Nat.zero_le _, Nat.zero_le _, Nat.zero_le _⟩

/-- After reset the dictionary is empty, so every object reads as its default. -/
theorem get_reset (k : Nat) : State.reset.get k = oDefault k := rfl

/-- TIME48 is INVALID on a factory-fresh unit. -/
theorem oDefault_timeTime48 : oDefault K.timeTime48 = 0xFFFFFFFFFFFF := by decide +kernel

/-- Settles O7, by the empty dictionary and the default of TIME48. -/
theorem resetValues : Obligations.ResetValues := by
  unfold Obligations.ResetValues
  have time : State.reset.get K.timeTime48 = 0xFFFFFFFFFFFF := (get_reset _).trans oDefault_timeTime48
  exact ⟨get_reset, time, decide_eq_false (fun h => h time), rfl, rfl, rfl, rfl, rfl⟩

/-! ### What moves FN and the mode -/

theorem pending_notMem_writes (c : Instr) : Piece.pending ∉ writes c := by
  cases c <;> simp [writes]

/-- The commands whose frame holds FN. -/
theorem fn_mem_writes {c : Instr} (h : Piece.fn ∈ writes c) :
    (∃ en, c = .frameTick en) ∨ (∃ p, c = .powerGood p) ∨ (∃ w r, c = .warmReset w r) ∨ (∃ i, c = .activate i) := by
  cases c <;> simp [writes] at h ⊢

/-- The commands whose frame holds the mode. -/
theorem mode_mem_writes {c : Instr} (h : Piece.mode ∈ writes c) :
    (∃ p, c = .powerGood p) ∨ (∃ w r, c = .warmReset w r) ∨ (∃ i, c = .activate i) ∨ (∃ us a b, c = .powerFailWarning us a b) ∨
      (∃ n p, c = .lastGaspComplete n p) ∨ (∃ d, c = .geckoScan d) ∨ c = .geckoLimitExpiry := by
  cases c <;> simp [writes] at h ⊢

/-- A metrology tick counts the frame. -/
theorem frameTick_counts {en : Bool} {s t : State} (h : Sound s) (hm : s.mode = .run ∨ s.mode = .recovery)
    (e : exec (.frameTick en) s = .next t) : t.fn = (s.fn + 1) % 2 ^ 48 ∧ t.mode = s.mode := by
  have kept := execFrameTick_ok e h.kept
  rw [if_pos hm] at kept
  exact ⟨kept.fn, kept.mode⟩

/-- There are no ticks outside RUN and ROM recovery. -/
theorem frameTick_idle {en : Bool} {s : State} (hr : s.mode ≠ .run) (hv : s.mode ≠ .recovery) : exec (.frameTick en) s = .next s := by
  show execFrameTick en s = .next s
  unfold execFrameTick
  rw [if_neg hr, if_neg hv]

/-- Settles O6, by the frames of the commands and the form that a tick keeps. -/
theorem whatMovesFnAndMode : Obligations.WhatMovesFnAndMode := by
  unfold Obligations.WhatMovesFnAndMode
  refine ⟨fun en s h hm => ?tick, fun en s hr hv => frameTick_idle hr hv, fun c s t e => ⟨?queue, ?fn, ?mode⟩, fun c s t h e => ?draws⟩
  case tick =>
    obtain ⟨t, e⟩ := everyCommandCompletes (.frameTick en) s
    obtain ⟨hfn, hmode⟩ := frameTick_counts h hm e
    exact ⟨t, e, hfn, hmode, exec_frame e .pending (pending_notMem_writes _), exec_frame e⟩
  case queue => exact exec_frame e .pending (pending_notMem_writes c)
  case fn =>
    by_cases h : Piece.fn ∈ writes c
    · exact .inr (fn_mem_writes h)
    · exact .inl (exec_frame e .fn h)
  case mode =>
    by_cases h : Piece.mode ∈ writes c
    · exact .inr (mode_mem_writes h)
    · exact .inl (exec_frame e .mode h)
  case draws =>
    obtain ⟨_, _, kept⟩ := exec_kept e h.kept
    exact kept.draws

end Sys2Proof.Machine
end

section
/-! PROOF. Numbers, frame headers and operations on the wire (R4, R240, R241, R265 to R267): what is written is what is read back. -/

namespace Sys2Proof.Machine

/-! ### Little-endian fields -/

@[simp] theorem ofLe_le (k n : Nat) : ofLe (le k n) = n % 256 ^ k := by
  induction k generalizing n with
  | zero => rw [Nat.pow_zero, Nat.mod_one]; rfl
  | succ k ih =>
    have byte : (BitVec.ofNat 8 n).toNat = n % 256 := BitVec.toNat_ofNat n 8
    rw [le, ofLe, ih, byte, Nat.pow_succ', Nat.mod_mul]

theorem ofLe_le_of_lt {k n : Nat} (h : n < 256 ^ k) : ofLe (le k n) = n := by
  rw [ofLe_le, Nat.mod_eq_of_lt h]

theorem getElem?_le {k n i : Nat} (h : i < k) : (le k n)[i]? = some (BitVec.ofNat 8 (n / 256 ^ i)) := by
  induction k generalizing n i with
  | zero => exact absurd h (Nat.not_lt_zero i)
  | succ k ih =>
    cases i with
    | zero => rw [Nat.pow_zero, Nat.div_one]; rfl
    | succ i => rw [le, List.getElem?_cons_succ, ih (Nat.lt_of_succ_lt_succ h), Nat.div_div_eq_div_mul, Nat.pow_succ']

theorem ofLe_lt (b : Bytes) : ofLe b < 256 ^ b.length := by
  induction b with
  | nil => exact Nat.one_pos
  | cons x b ih =>
    have byte : x.toNat < 256 := x.isLt
    rw [ofLe, List.length_cons, Nat.pow_succ']
    omega

@[simp] theorem le_ofLe (b : Bytes) : le b.length (ofLe b) = b := by
  induction b with
  | nil => rfl
  | cons x b ih =>
    have byte : x.toNat < 256 := x.isLt
    have low : BitVec.ofNat 8 (x.toNat + 256 * ofLe b) = x := by
      refine BitVec.eq_of_toNat_eq ?_
      rw [BitVec.toNat_ofNat]
      omega
    have high : (x.toNat + 256 * ofLe b) / 256 = ofLe b := by omega
    rw [ofLe, List.length_cons, le, low, high, ih]

/-! ### Two's complement -/

/-- The two's complement of a value fits its width. -/
theorem ofInt_lt (w : Nat) (x : Int) : ofInt w x < 2 ^ w := by
  have pos : (0 : Int) < 2 ^ w := Int.pow_pos (by decide)
  have cast : ((2 ^ w : Nat) : Int) = 2 ^ w := by push_cast; rfl
  have below := Int.emod_lt_of_pos x pos
  unfold ofInt
  refine (Int.toNat_lt (Int.emod_nonneg x (Int.ne_of_gt pos))).mpr ?_
  rw [cast]
  exact below

/-- A signed value within its width is read back from its two's complement. -/
theorem toInt_ofInt {w : Nat} {x : Int} (hw : 0 < w) (lo : -(2 ^ (w - 1) : Int) ≤ x) (hi : x < 2 ^ (w - 1)) : toInt w (ofInt w x) = x := by
  obtain ⟨v, rfl⟩ : ∃ v, w = v + 1 := ⟨w - 1, by omega⟩
  rw [Nat.add_sub_cancel] at lo hi
  have double : (2 : Int) ^ (v + 1) = 2 * 2 ^ v := Int.pow_succ' 2 v
  have cast : ((2 ^ v : Nat) : Int) = 2 ^ v := by push_cast; rfl
  unfold toInt
  dsimp only
  rw [Nat.mod_eq_of_lt (ofInt_lt (v + 1) x), Nat.add_sub_cancel, double]
  unfold ofInt
  rw [double]
  by_cases sign : 0 ≤ x
  · rw [Int.emod_eq_of_lt sign (by omega), if_pos (by omega), Int.toNat_of_nonneg sign]
  · have wrapped : x % (2 * 2 ^ v) = x + 2 * 2 ^ v := by
      rw [← Int.add_emod_right, Int.emod_eq_of_lt (by omega) (by omega)]
    rw [wrapped, if_neg (by omega), Int.toNat_of_nonneg (by omega)]
    omega

/-! ### Rounding -/

theorem rdiv_neg {n d : Int} (h : 0 < d) : rdiv (-n) d = -rdiv n d := by
  have zero : d / (2 * d) = 0 := Int.ediv_eq_zero_of_lt (by omega) (by omega)
  unfold rdiv
  rcases Int.lt_trichotomy n 0 with neg | rfl | pos
  · rw [if_pos (by omega), if_neg (by omega), Int.neg_neg]
  · simp [zero]
  · rw [if_neg (by omega), if_pos (by omega), Int.neg_neg]

/-- Rounding stays within one half of the quotient and takes halves up. -/
theorem rdiv_within {n d : Int} (h : 0 < d) (hn : 0 ≤ n) : 2 * n - d < 2 * d * rdiv n d ∧ 2 * d * rdiv n d ≤ 2 * n + d := by
  have pos : 0 < 2 * d := by omega
  have lower := Int.mul_ediv_self_le (x := 2 * n + d) (Int.ne_of_gt pos)
  have upper := Int.lt_mul_ediv_self_add (x := 2 * n + d) pos
  unfold rdiv
  rw [if_pos hn]
  omega

/-- Settles O8: fields by induction on their bytes, signed values by the sign, rounding by the bounds of a floored quotient. -/
theorem numbersOnTheWire : Obligations.NumbersOnTheWire := by
  unfold Obligations.NumbersOnTheWire
  exact ⟨fun k n => ⟨le_length k n, ofLe_le k n⟩, fun _ _ _ h => getElem?_le h, fun b => ⟨le_ofLe b, ofLe_lt b⟩,
    fun w x hw lo hi => ⟨toInt_ofInt hw lo hi, ofInt_lt w x⟩, fun _ _ h => ⟨rdiv_neg h, rdiv_within h⟩⟩

/-! ### Reading fields at an offset -/

theorem slice_append_left {a b : Bytes} {n k : Nat} (h : n + k ≤ a.length) : slice (a ++ b) n k = slice a n k := by
  unfold slice
  rw [List.drop_append_of_le_length (by omega), List.take_append_of_le_length (by rw [List.length_drop]; omega)]

theorem slice_append_right {a b : Bytes} {n k : Nat} : slice (a ++ b) (a.length + n) k = slice b n k := by
  unfold slice
  rw [List.drop_append, List.drop_eq_nil_of_le (by omega), List.nil_append, Nat.add_sub_cancel_left]

theorem slice_self (b : Bytes) : slice b 0 b.length = b := by
  simp [slice]

/-- A field at the front of a string is read back. -/
theorem at_le_append {k n : Nat} {b : Bytes} (h : n < 256 ^ k) : at_ (le k n ++ b) 0 k = n := by
  have front : slice (le k n) 0 k = le k n := by
    have := slice_self (le k n)
    rwa [le_length] at this
  rw [at_, slice_append_left (Nat.le_of_eq (by rw [le_length, Nat.zero_add])), front, ofLe_le_of_lt h]

/-- A field behind another string is read back from its offset. -/
theorem at_append {a b : Bytes} {n k j : Nat} (h : a.length + j = n) : at_ (a ++ b) n k = at_ b j k := by
  rw [at_, ← h, slice_append_right, at_]

/-! ### Headers -/

theorem hdrBytes_length (h : Hdr) : (hdrBytes h).length = 16 := by
  simp only [hdrBytes, List.length_append, le_length]

/-- Every field of a header is read back where it was written. -/
theorem hdrOf_hdrBytes {h : Hdr} (pay : Bytes) (ver : h.ver < 256) (kind : h.kind < 256) (tag : h.tag < 256) (st : h.st < 256)
    (len : h.len < 65536) (txn : h.txn < 65536) (fn : h.fn < 2 ^ 48) (cred : h.cred < 256) (flags : h.flags < 256) :
    hdrOf (hdrBytes h ++ pay) = h := by
  have skip : ∀ {k n m j : Nat} {w : Nat} {b : Bytes}, k + j = m → at_ (le k n ++ b) m w = at_ b j w := fun e =>
    at_append (by rw [le_length]; exact e)
  unfold hdrOf hdrBytes
  simp only [List.append_assoc]
  rw [Hdr.mk.injEq]
  refine ⟨?_, ?_, ?_, ?_, ?_, ?_, ?_, ?_, ?_⟩
  · exact at_le_append ver
  · rw [skip (j := 0) rfl, at_le_append kind]
  · rw [skip (j := 1) rfl, skip (j := 0) rfl, at_le_append tag]
  · rw [skip (j := 2) rfl, skip (j := 1) rfl, skip (j := 0) rfl, at_le_append st]
  · rw [skip (j := 3) rfl, skip (j := 2) rfl, skip (j := 1) rfl, skip (j := 0) rfl, at_le_append len]
  · rw [skip (j := 5) rfl, skip (j := 4) rfl, skip (j := 3) rfl, skip (j := 2) rfl, skip (j := 0) rfl, at_le_append txn]
  · rw [skip (j := 7) rfl, skip (j := 6) rfl, skip (j := 5) rfl, skip (j := 4) rfl, skip (j := 2) rfl, skip (j := 0) rfl, at_le_append fn]
  · rw [skip (j := 13) rfl, skip (j := 12) rfl, skip (j := 11) rfl, skip (j := 10) rfl, skip (j := 8) rfl, skip (j := 6) rfl,
      skip (j := 0) rfl, at_le_append cred]
  · rw [skip (j := 14) rfl, skip (j := 13) rfl, skip (j := 12) rfl, skip (j := 11) rfl, skip (j := 9) rfl, skip (j := 7) rfl,
      skip (j := 1) rfl, skip (j := 0) rfl, at_le_append flags]

/-! ### Operations of a request -/

/-- The head of an operation of a request: OPCODE, INDEX, SUBINDEX, two bytes 0 and LENGTH (Table 10.2). -/
def opHead (o : Op) : Bytes := le 1 o.code ++ le 2 o.idx ++ le 1 o.sub ++ le 2 0 ++ le 2 o.data.length

/-- An operation of a request as bytes. -/
def opWire (o : Op) : Bytes := opHead o ++ o.data

/-- The fields of an operation fit their bytes. -/
structure Op.Fits (o : Op) : Prop where
  code : o.code < 256
  idx  : o.idx < 65536
  sub  : o.sub < 256
  data : o.data.length < 65536

theorem opHead_length (o : Op) : (opHead o).length = 8 := by
  simp only [opHead, List.length_append, le_length]

theorem opWire_length (o : Op) : (opWire o).length = 8 + o.data.length := by
  rw [opWire, List.length_append, opHead_length]

section
variable {o : Op} (fits : o.Fits) (rest : Bytes)
include fits

/-- The fields of a head are read back, whatever follows it. -/
theorem opHead_fields : at_ (opHead o ++ rest) 0 1 = o.code ∧ at_ (opHead o ++ rest) 1 2 = o.idx ∧ at_ (opHead o ++ rest) 3 1 = o.sub ∧
    at_ (opHead o ++ rest) 6 2 = o.data.length := by
  have skip : ∀ {k n m j : Nat} {w : Nat} {b : Bytes}, k + j = m → at_ (le k n ++ b) m w = at_ b j w := fun e =>
    at_append (by rw [le_length]; exact e)
  unfold opHead
  simp only [List.append_assoc]
  refine ⟨at_le_append fits.code, ?_, ?_, ?_⟩
  · rw [skip (j := 0) rfl, at_le_append fits.idx]
  · rw [skip (j := 2) rfl, skip (j := 0) rfl, at_le_append fits.sub]
  · rw [skip (j := 5) rfl, skip (j := 3) rfl, skip (j := 2) rfl, skip (j := 0) rfl, at_le_append fits.data]

/-- An operation at the front of a payload is read, and then the rest. -/
theorem opsGo_opWire (k : Nat) : opsGo (k + 1) (opWire o ++ rest) = (opsGo k rest).map (o :: ·) := by
  obtain ⟨code, idx, sub, len⟩ := opHead_fields fits (o.data ++ rest)
  have size : (opHead o ++ (o.data ++ rest)).length = 8 + o.data.length + rest.length := by
    rw [List.length_append, List.length_append, opHead_length, Nat.add_assoc]
  have nonempty : opHead o ++ (o.data ++ rest) ≠ [] := fun e => by
    rw [e, List.length_nil] at size
    omega
  have tail : (opHead o ++ (o.data ++ rest)).drop 8 = o.data ++ rest := List.drop_left' (opHead_length o)
  rw [opWire, List.append_assoc, opsGo, if_neg nonempty, if_neg (by omega)]
  dsimp only
  rw [code, idx, sub, len, if_neg (by omega), ← List.drop_drop, tail, List.drop_left, List.take_left]
  cases opsGo k rest <;> rfl

/-- A part of an operation that ends too early spells none. -/
theorem opsGo_cut {cut k : Nat} (pos : 0 < cut) (short : cut < 8 + o.data.length) : opsGo (k + 1) ((opWire o).take cut) = none := by
  have size : ((opWire o).take cut).length = cut := by
    rw [List.length_take, opWire_length]
    omega
  have nonempty : (opWire o).take cut ≠ [] := fun e => by
    rw [e, List.length_nil] at size
    omega
  rw [opsGo, if_neg nonempty]
  by_cases head : cut < 8
  · rw [if_pos (by omega)]
  · obtain ⟨-, -, -, len⟩ := opHead_fields fits (o.data.take (cut - 8))
    have split : (opWire o).take cut = opHead o ++ o.data.take (cut - 8) := by
      rw [opWire, List.take_append, opHead_length, List.take_of_length_le (by rw [opHead_length]; omega)]
    rw [if_neg (by omega), split]
    dsimp only
    rw [len, if_pos (by rw [← split, size]; exact short)]

end

/-- The operations of a payload are read back, given one unit of fuel for each. -/
theorem opsGo_flatMap {l : List Op} (fits : ∀ o ∈ l, o.Fits) {k : Nat} (fuel : l.length ≤ k) : opsGo k (l.flatMap opWire) = some l := by
  induction l generalizing k with
  | nil => cases k <;> rfl
  | cons o l ih =>
    obtain ⟨k, rfl⟩ : ∃ j, k = j + 1 := ⟨k - 1, by rw [List.length_cons] at fuel; omega⟩
    rw [List.length_cons] at fuel
    rw [List.flatMap_cons, opsGo_opWire (fits o List.mem_cons_self), ih (fun o h => fits o (List.mem_cons_of_mem _ h)) (by omega)]
    rfl

/-- Every operation takes at least a byte. -/
theorem length_le_flatMap_opWire (l : List Op) : l.length ≤ (l.flatMap opWire).length := by
  induction l with
  | nil => exact Nat.le_refl _
  | cons o l ih =>
    rw [List.flatMap_cons, List.length_append, List.length_cons, opWire_length]
    omega

/-- Settles O9: the header field by field, the operations by induction on the request. -/
theorem framesRoundTrip : Obligations.FramesRoundTrip := by
  unfold Obligations.FramesRoundTrip
  refine ⟨fun h pay ver kind tag st len txn fn cred flags => ?header, fun l fits => ?ops, fun o cut code idx sub data pos short => ?cut⟩
  case header => exact ⟨hdrBytes_length h, hdrOf_hdrBytes pay ver kind tag st len txn fn cred flags⟩
  case ops =>
    have fits' : ∀ o ∈ l, o.Fits := fun o ho => by
      obtain ⟨code, idx, sub, data⟩ := fits o ho
      exact ⟨code, idx, sub, data⟩
    exact opsGo_flatMap fits' (length_le_flatMap_opWire l)
  case cut =>
    have size : ((opWire o).take cut).length = cut - 1 + 1 := by
      rw [List.length_take, opWire_length]
      omega
    show opsGo ((opWire o).take cut).length ((opWire o).take cut) = none
    rw [size]
    exact opsGo_cut ⟨code, idx, sub, data⟩ pos short

end Sys2Proof.Machine
end

section
/-! PROOF. The object dictionary, settings by frame, and records of RING-5 (R15, R34, R35, R245, R354). -/

namespace Sys2Proof.Machine

/-! ### Canonical tables -/

section
variable {α : Type}

/-- A table with a default reads as the listed entry or the default. -/
theorem tget_eq_getD (d : α) (t : Tab α) (k : Nat) : tget d t k = (tlook t k).getD d := by
  induction t with
  | nil => rfl
  | cons e t ih =>
    obtain ⟨j, a⟩ := e
    rw [tget, tlook]
    split
    · rfl
    · exact ih

theorem mem_of_tlook {t : Tab α} {k : Nat} {a : α} (h : tlook t k = some a) : (k, a) ∈ t := by
  induction t with
  | nil => cases h
  | cons e t ih =>
    obtain ⟨j, b⟩ := e
    rw [tlook] at h
    split at h
    next e =>
      cases h
      rw [e]
      exact List.mem_cons_self
    next => exact List.mem_cons_of_mem _ (ih h)

/-- Two rising tables that list alike at every number are the same list. -/
theorem rising_ext {lo : Nat} {t u : Tab α} (wt : Tab.risingFrom lo t = true) (wu : Tab.risingFrom lo u = true)
    (h : ∀ k, tlook t k = tlook u k) : t = u := by
  induction t generalizing lo u with
  | nil =>
    cases u with
    | nil => rfl
    | cons f u =>
      have front := h f.1
      rw [tlook, tlook, if_pos rfl] at front
      cases front
  | cons e t ih =>
    obtain ⟨i, a⟩ := e
    cases u with
    | nil =>
      have front := h i
      rw [tlook, tlook, if_pos rfl] at front
      cases front
    | cons f u =>
      obtain ⟨j, b⟩ := f
      simp only [Tab.risingFrom, Bool.and_eq_true, decide_eq_true_eq] at wt wu
      obtain ⟨-, wt⟩ := wt
      obtain ⟨-, wu⟩ := wu
      have hi := h i
      have hj := h j
      rw [tlook, tlook, if_pos rfl] at hi hj
      rcases Nat.lt_trichotomy i j with lt | rfl | gt
      · rw [if_neg (by omega), tlook_of_rising wu (by omega)] at hi
        cases hi
      · rw [if_pos rfl] at hi
        cases hi
        refine congrArg _ (ih wt wu (fun k => ?_))
        have hk := h k
        rw [tlook, tlook] at hk
        split at hk
        next e => rw [tlook_of_rising wt (by omega), tlook_of_rising wu (by omega)]
        next => exact hk
      · rw [if_neg (by omega), tlook_of_rising wt (by omega)] at hj
        cases hj

/-- Where no listed entry is the default of its number, the value read tells what is listed. -/
theorem tlook_eq_of_getD {d : Nat → α} {t u : Tab α} (dt : ∀ e ∈ t, e.2 ≠ d e.1) (du : ∀ e ∈ u, e.2 ≠ d e.1) {k : Nat}
    (h : (tlook t k).getD (d k) = (tlook u k).getD (d k)) : tlook t k = tlook u k := by
  cases et : tlook t k with
  | none =>
    cases eu : tlook u k with
    | none => rfl
    | some b =>
      rw [et, eu] at h
      exact absurd h.symm (du _ (mem_of_tlook eu))
  | some a =>
    cases eu : tlook u k with
    | none =>
      rw [et, eu] at h
      exact absurd h (dt _ (mem_of_tlook et))
    | some b =>
      rw [et, eu] at h
      exact congrArg some h

/-- Two canonical tables that read alike at every number are the same list. -/
theorem wf_ext [DecidableEq α] {d : α} {t u : Tab α} (wt : Tab.wf d t = true) (wu : Tab.wf d u = true)
    (h : ∀ k, tget d t k = tget d u k) : t = u := by
  simp only [Tab.wf, Bool.and_eq_true, List.all_eq_true, decide_eq_true_eq] at wt wu
  refine rising_ext wt.1 wu.1 (fun k => tlook_eq_of_getD (d := fun _ => d) wt.2 wu.2 ?_)
  rw [← tget_eq_getD, ← tget_eq_getD, h]

end

/-- The dictionary is determined by what its objects read. -/
theorem dict_ext {s t : State} (ws : dictWf s.dict = true) (wt : dictWf t.dict = true) (h : ∀ k, s.get k = t.get k) : s.dict = t.dict := by
  have value : ∀ (u : State) (k : Nat), u.get k = (tlook u.dict k).getD (oDefault k) := fun u k => by
    rw [State.get]
    split <;> simp_all
  simp only [dictWf, Bool.and_eq_true, List.all_eq_true, decide_eq_true_eq] at ws wt
  refine rising_ext ws.1 wt.1 (fun k => tlook_eq_of_getD (d := oDefault) ws.2 wt.2 ?_)
  rw [← value, ← value, h]

theorem Sound.put {s : State} (h : Sound s) (k v : Nat) : Sound (s.put k v) := (State_put_ok h.kept).sound

/-- An object that takes a value and then its old one leaves the dictionary as it was. -/
theorem put_put_get {s : State} (h : Sound s) (k v : Nat) : ((s.put k v).put k (s.get k)).dict = s.dict := by
  refine dict_ext ((h.put k v).put k _).dict h.dict (fun j => ?_)
  by_cases e : k = j
  · rw [← e, get_put_self]
  · rw [get_put_ne e, get_put_ne e]

/-- Settles O10, by the uniqueness of canonical tables and the laws of a write. -/
theorem objectsReadAsWritten : Obligations.ObjectsReadAsWritten := by
  unfold Obligations.ObjectsReadAsWritten
  refine ⟨fun d t u wt wu h => wf_ext wt wu h, fun d t k a w => ⟨wf_tset w, tget_tset_self, fun j hj => tget_tset_ne hj.symm⟩, fun s k v h => ?_⟩
  exact ⟨get_put_self, fun j hj => get_put_ne hj.symm, h.put k v, get_put_self, put_put_get h k v⟩

/-! ### Settings by frame -/

section
variable {k b old new : Nat} {l : List Commit} {c : Commit} (hb : c.b = b) (hl : ∀ x ∈ l, x.b ≤ b) {f : Nat}
include hb hl

/-- From B on the last committed value governs. -/
theorem cfgGo_from (hf : b ≤ f) : cfgGo k f new (l ++ [c]) = new := by
  induction l with
  | nil => exact if_neg (by omega)
  | cons x l ih =>
    have hx := hl x List.mem_cons_self
    rw [List.cons_append, cfgGo, if_neg (by omega), ih (fun y hy => hl y (List.mem_cons_of_mem _ hy))]

/-- Before B governs what the commits before it say, with the value that the commit replaced as the last committed one. -/
theorem cfgGo_before (hold : Chg.before k c.chg = some old) (hf : f < b) : cfgGo k f new (l ++ [c]) = cfgGo k f old l := by
  induction l with
  | nil => simp only [List.nil_append, cfgGo, hb, hf, hold, if_true]
  | cons x l ih => rw [List.cons_append, cfgGo, cfgGo, ih (fun y hy => hl y (List.mem_cons_of_mem _ hy))]

end

/-- Settles O11, by induction on the commits before the last one. -/
theorem settingGovernsFromB : Obligations.SettingGovernsFromB := by
  unfold Obligations.SettingGovernsFromB
  exact fun k b old new l c hb hold hl => ⟨fun f hf => cfgGo_from hb hl hf, fun f hf => cfgGo_before hb hl hold hf⟩

/-! ### RING-5 -/

/-- Without credit a record is dropped and counted. -/
theorem eventAt_full {s : State} {f code : Nat} {l : List Nat} (h : 1024 ≤ s.ring5.length) :
    s.eventAt f code l = (s.bump (K.stalls 5)).bump K.eventsLost := by
  unfold State.eventAt
  rw [if_neg (by omega)]

/-- Settles O12, by the two cases of the credit. -/
theorem eventsEnterRing5 : Obligations.EventsEnterRing5 := by
  unfold Obligations.EventsEnterRing5
  refine fun s f code l => ⟨eventAt_room, fun full => ?_⟩
  have apart : K.stalls 5 ≠ K.eventsLost := by decide
  rw [eventAt_full full]
  refine ⟨rfl, (State_bump_only (.refl 4) (State_bump_only (.refl 4) (.refl 4 s))).frame (by decide), ?stalls, ?lost, fun k h5 hlost => ?_⟩
  case stalls => rw [get_bump_ne apart.symm, get_bump_self]
  case lost => rw [get_bump_self, get_bump_ne apart]
  case _ => rw [get_bump_ne hlost.symm, get_bump_ne h5.symm]

end Sys2Proof.Machine
end

section
/-! PROOF. Registers of circuits (R115, R116, R173): what an entry of a frame adds to its tariff set and to TOTAL. -/

namespace Sys2Proof.Machine

/-! ### A register that takes a total -/

/-- A live value stands apart from the objects of other live values. -/
theorem live_putDue_ne {s : State} {f j k v : Nat} (h : k ≠ j) : (s.putDue f k v).live j = s.live j :=
  get_putDue_ne (fun e => h (by unfold liveKey at e; omega))

/-- The fraction of an object stands apart from the live values. -/
theorem live_put_frac {s : State} {j k v : Nat} (h : k < 0x1000000) : (s.put (fracKey k) v).live j = s.live j :=
  live_put_ne (by unfold fracKey liveKey; omega)

theorem get_putDue_frac {s : State} {f j k v : Nat} (h : j < 0x1000000) : (s.putDue f k v).get (fracKey j) = s.get (fracKey j) :=
  get_putDue_ne (by unfold fracKey liveKey; omega)

theorem regTot_putReg_self {s : State} {f c i t : Nat} (hc : c < 256) (hi : i < 72) : regTot (putReg f c i t s) c i = t % 2 ^ 104 := by
  unfold regTot putReg
  dsimp only [K.cctReg, K.cctWrap]
  rw [live_put_frac (by omega), live_put_frac (by omega), live_putDue_ne (by omega), live_putDue_self, live_putDue_self, get_put_self]
  omega

theorem regTot_putReg_ne {s : State} {f c d i j t : Nat} (hc : c < 256) (hd : d < 256) (hi : i < 72) (hj : j < 72) (h : ¬(d = c ∧ j = i)) :
    regTot (putReg f c i t s) d j = regTot s d j := by
  unfold regTot putReg
  dsimp only [K.cctReg, K.cctWrap]
  rw [live_put_frac (by omega), live_put_frac (by omega), live_putDue_ne (by omega), live_putDue_ne (by omega), live_putDue_ne (by omega),
    live_putDue_ne (by omega), get_put_ne (by unfold fracKey; omega), get_putDue_frac (by omega), get_putDue_frac (by omega)]

/-! ### A register that takes an entry -/

/-- A register that takes an entry counts modulo 2^104. -/
theorem regTot_regAdd_self {s : State} {f c i : Nat} {amt : Int} (hc : c < 256) (hi : i < 72) :
    (regTot (regAdd f c i amt s) c i : Int) = ((regTot s c i : Int) + amt) % 2 ^ 104 := by
  unfold regAdd
  rw [regTot_putReg_self hc hi]
  omega

theorem regTot_regAdd_ne {s : State} {f c d i j : Nat} {amt : Int} (hc : c < 256) (hd : d < 256) (hi : i < 72) (hj : j < 72)
    (h : ¬(d = c ∧ j = i)) : regTot (regAdd f c i amt s) d j = regTot s d j :=
  regTot_putReg_ne hc hd hi hj h

/-- What an entry adds to a register under a tariff: its amount in the register of its kind in the tariff set and in TOTAL. -/
def entAdds (tariff i : Nat) (e : Ent) : Int := if i = 8 * tariff + e.kind ∨ i = 64 + e.kind then e.amt else 0

theorem getC_regAdd {s : State} {f c d i : Nat} {amt : Int} : getC (regAdd f c i amt s) d = getC s d := by
  unfold getC
  rw [(regAdd_only (.refl 68) (.refl 68 s)).bill rfl]

theorem slotAdd_tariff {t p kind : Nat} {amt : Int} {x : BCct} : (slotAdd t p kind amt x).tariff = x.tariff := by
  unfold slotAdd
  split
  · rfl
  split
  · rfl
  split
  · rfl
  split <;> rfl

theorem regTot_setC {s : State} {c d i : Nat} {x : BCct} : regTot (setC c x s) d i = regTot s d i := rfl

section
variable {s : State} {f c kind : Nat} {amt : Int} (hc : c < 256) (hk : kind < 8) (ht : (getC s c).tariff.getD 0 < 8)

/-- An entry leaves the tariff of its circuit in effect. -/
theorem enterKind_tariff : (getC (enterKind f c kind amt s) c).tariff = (getC s c).tariff := by
  unfold enterKind
  split
  · rfl
  · dsimp only
    unfold setC
    rw [getC, tget_tset_self, slotAdd_tariff]

include hc hk ht

/-- An entry adds to a register modulo 2^104. -/
theorem regTot_enterKind {i : Nat} (hi : i < 72) : (regTot (enterKind f c kind amt s) c i : Int) % 2 ^ 104 =
    (regTot s c i + (if i = 8 * (getC s c).tariff.getD 0 + kind ∨ i = 64 + kind then amt else 0)) % 2 ^ 104 := by
  unfold enterKind
  split
  next zero => simp [zero]
  next =>
    dsimp only
    rw [regTot_setC]
    by_cases total : i = 64 + kind
    · rw [if_pos (.inr total), ← total, regTot_regAdd_self hc hi, regTot_regAdd_ne hc hc (by omega) hi (by omega)]
      exact Int.emod_emod_of_dvd _ (Int.dvd_refl _)
    · rw [regTot_regAdd_ne hc hc (by omega) hi (by omega)]
      by_cases set : i = 8 * (getC s c).tariff.getD 0 + kind
      · rw [if_pos (.inl set), ← set, regTot_regAdd_self hc hi]
        exact Int.emod_emod_of_dvd _ (Int.dvd_refl _)
      · rw [if_neg (by omega), regTot_regAdd_ne hc hc (by omega) hi (by omega), Int.add_zero]

/-- A register within its 104 bits stays within them. -/
theorem regTot_enterKind_lt {i : Nat} (hi : i < 72) (h : regTot s c i < 2 ^ 104) : regTot (enterKind f c kind amt s) c i < 2 ^ 104 := by
  have wraps : ∀ {u : State} {j : Nat}, j < 72 → (regTot u c i < 2 ^ 104) → regTot (regAdd f c j amt u) c i < 2 ^ 104 := fun {u j} hj hu => by
    by_cases e : i = j
    · have self := regTot_regAdd_self (s := u) (f := f) (amt := amt) hc hj
      rw [e]
      omega
    · rwa [regTot_regAdd_ne hc hc hj hi (by omega)]
  unfold enterKind
  split
  · exact h
  · exact wraps (by omega) (wraps (by omega) h)

theorem regTot_enterKind_other {d i : Nat} (hd : d < 256) (hdc : d ≠ c) (hi : i < 72) : regTot (enterKind f c kind amt s) d i = regTot s d i := by
  unfold enterKind
  split
  · rfl
  · dsimp only
    rw [regTot_setC, regTot_regAdd_ne hc hd (by omega) hi (by omega), regTot_regAdd_ne hc hd (by omega) hi (by omega)]

end

/-! ### The entries of a frame -/

section
variable {s : State} {f c : Nat} {es : List Ent} (hc : c < 256) (hk : ∀ e ∈ es, e.kind < 8) (ht : (getC s c).tariff.getD 0 < 8)
include hc hk ht

/-- The entries of a frame add to a register modulo 2^104. -/
theorem regTot_enterAll {i : Nat} (hi : i < 72) : (regTot (enterAll f c es s) c i : Int) % 2 ^ 104 =
    (regTot s c i + sumI (es.map (entAdds ((getC s c).tariff.getD 0) i))) % 2 ^ 104 := by
  induction es generalizing s with
  | nil => exact (congrArg (· % 2 ^ 104) (Int.add_zero _)).symm
  | cons e es ih =>
    have hke := hk e List.mem_cons_self
    have tariff := enterKind_tariff (s := s) (f := f) (c := c) (kind := e.kind) (amt := e.amt)
    have rest := ih (s := enterKind f c e.kind e.amt s) (fun e h => hk e (List.mem_cons_of_mem _ h)) (by rw [tariff]; exact ht)
    rw [tariff] at rest
    rw [List.map_cons, sumI_cons, ← Int.add_assoc]
    exact rest.trans (Int.emod_add_cancel_right _ |>.mpr (regTot_enterKind hc hke ht hi))

theorem regTot_enterAll_lt {i : Nat} (hi : i < 72) (h : regTot s c i < 2 ^ 104) : regTot (enterAll f c es s) c i < 2 ^ 104 := by
  induction es generalizing s with
  | nil => exact h
  | cons e es ih =>
    have hke := hk e List.mem_cons_self
    exact ih (s := enterKind f c e.kind e.amt s) (fun e h => hk e (List.mem_cons_of_mem _ h)) (by rw [enterKind_tariff]; exact ht)
      (regTot_enterKind_lt hc hke ht hi h)

/-- The registers of other circuits stay. -/
theorem regTot_enterAll_other {d i : Nat} (hd : d < 256) (hdc : d ≠ c) (hi : i < 72) : regTot (enterAll f c es s) d i = regTot s d i := by
  induction es generalizing s with
  | nil => rfl
  | cons e es ih =>
    have hke := hk e List.mem_cons_self
    exact (ih (s := enterKind f c e.kind e.amt s) (fun e h => hk e (List.mem_cons_of_mem _ h)) (by rw [enterKind_tariff]; exact ht)).trans
      (regTot_enterKind_other hc hke ht hd hdc hi)

end

/-- The amounts of the entries of a kind. -/
def kindAdds (k : Nat) (es : List Ent) : Int := sumI (es.map (fun e => if e.kind = k then e.amt else 0))

theorem entAdds_if {tariff i : Nat} {e : Ent} {p : Prop} [Decidable p] (h : (i = 8 * tariff + e.kind ∨ i = 64 + e.kind) ↔ p) :
    entAdds tariff i e = if p then e.amt else 0 := by
  unfold entAdds
  simp only [h]

/-! ### Sums of lists -/

theorem sumI_map_add {l : List Nat} {g g' : Nat → Int} : sumI (l.map (fun t => g t + g' t)) = sumI (l.map g) + sumI (l.map g') := by
  induction l with
  | nil => rfl
  | cons t l ih =>
    rw [List.map_cons, List.map_cons, List.map_cons, sumI_cons, sumI_cons, sumI_cons, ih]
    omega

/-- Sums of congruent terms are congruent. -/
theorem sumI_map_emod {l : List Nat} {g g' : Nat → Int} {m : Int} (h : ∀ t ∈ l, g t % m = g' t % m) : sumI (l.map g) % m = sumI (l.map g') % m := by
  induction l with
  | nil => rfl
  | cons t l ih =>
    rw [List.map_cons, List.map_cons, sumI_cons, sumI_cons, Int.add_emod, h t List.mem_cons_self, ih (fun t ht => h t (List.mem_cons_of_mem _ ht)),
      ← Int.add_emod]

/-- Terms that are 0 add nothing. -/
theorem sumI_map_zero {α : Type} {l : List α} {g : α → Int} (h : ∀ t ∈ l, g t = 0) : sumI (l.map g) = 0 := by
  induction l with
  | nil => rfl
  | cons t l ih => rw [List.map_cons, sumI_cons, h t List.mem_cons_self, ih (fun t ht => h t (List.mem_cons_of_mem _ ht)), Int.add_zero]

/-- Of the terms for each number below `n`, the one of `a` counts. -/
theorem sumI_map_single {n a : Nat} {v : Int} (h : a < n) : sumI ((List.range n).map (fun t => if t = a then v else 0)) = v := by
  induction n with
  | zero => exact absurd h (Nat.not_lt_zero a)
  | succ n ih =>
    rw [List.range_succ, List.map_append, sumI_eq_sum, List.sum_append_int, ← sumI_eq_sum, List.map_singleton, List.sum_singleton]
    by_cases last : a = n
    · have none : ∀ t ∈ List.range n, (if t = a then v else 0) = 0 := fun t ht => if_neg (by rw [List.mem_range] at ht; omega)
      rw [sumI_map_zero none, if_pos last.symm, Int.zero_add]
    · rw [ih (by omega), if_neg (Ne.symm last), Int.add_zero]

theorem natCast_sumN (l : List Nat) (g : Nat → Nat) : ((sumN (l.map g) : Nat) : Int) = sumI (l.map (fun t => (g t : Int))) := by
  have from_ : ∀ (l : List Nat) (a : Nat), (((l.map g).foldl (· + ·) a : Nat) : Int) = (l.map (fun t => (g t : Int))).foldl (· + ·) (a : Int) := by
    intro l
    induction l with
    | nil => intro a; rfl
    | cons t l ih =>
      intro a
      rw [List.map_cons, List.map_cons, List.foldl_cons, List.foldl_cons, ih, Int.natCast_add]
  exact from_ l 0

/-- TOTAL of a kind takes every entry of that kind, and so does its register in the tariff set; another set takes none. -/
theorem sumI_entAdds {t k i : Nat} {es : List Ent} (ht : t < 8) (hk : ∀ e ∈ es, e.kind < 8) (h8 : k < 8) :
    sumI (es.map (entAdds t (64 + k))) = kindAdds k es ∧
    (i < 8 → sumI (es.map (entAdds t (8 * i + k))) = if i = t then kindAdds k es else 0) := by
  constructor
  · refine congrArg sumI (List.map_congr_left (fun e he => ?_))
    have := hk e he
    exact entAdds_if (by omega)
  · intro hi
    split
    next same =>
      refine congrArg sumI (List.map_congr_left (fun e he => ?_))
      have := hk e he
      exact entAdds_if (by omega)
    next other =>
      refine sumI_map_zero (fun e he => ?_)
      have := hk e he
      exact if_neg (by omega)

/-- The total of the sets of a kind, as a sum over the sets. -/
theorem setSum_eq (s : State) (c k : Nat) : (setSum s c k : Int) = sumI ((List.range 8).map (fun t => (regTot s c (8 * t + k) : Int))) % 2 ^ 104 := by
  rw [setSum, Int.natCast_emod, natCast_sumN]
  rfl

/-- The sets of a kind grow together by the entries of that kind. -/
theorem setSum_enterAll {s : State} {f c k : Nat} {es : List Ent} (hc : c < 256) (hk : ∀ e ∈ es, e.kind < 8)
    (ht : (getC s c).tariff.getD 0 < 8) (h8 : k < 8) : (setSum (enterAll f c es s) c k : Int) = (setSum s c k + kindAdds k es) % 2 ^ 104 := by
  have each : ∀ t ∈ List.range 8, (regTot (enterAll f c es s) c (8 * t + k) : Int) % 2 ^ 104 =
      (regTot s c (8 * t + k) + (if t = (getC s c).tariff.getD 0 then kindAdds k es else 0)) % 2 ^ 104 := fun t h => by
    rw [List.mem_range] at h
    rw [← (sumI_entAdds ht hk h8).2 h]
    exact regTot_enterAll hc hk ht (by omega)
  rw [setSum_eq, setSum_eq, sumI_map_emod each, sumI_map_add, sumI_map_single ht, Int.emod_add_emod]

/-- Settles O51: TOTAL and the sets of a kind grow by the same entries, modulo 2^104. -/
theorem totalIsSumOfSets : Obligations.TotalIsSumOfSets := by
  unfold Obligations.TotalIsSumOfSets
  refine fun f c es s hc ht hk sum => ⟨fun k h8 => ?_, fun d i hd hdc hi => regTot_enterAll_other hc hk ht hd hdc hi⟩
  have below : regTot s c (64 + k) < 2 ^ 104 := by
    rw [← sum k h8]
    exact Nat.mod_lt _ (by decide)
  have bounded := regTot_enterAll_lt (f := f) hc hk ht (by omega) below
  have total := regTot_enterAll (f := f) hc hk ht (i := 64 + k) (by omega)
  rw [(sumI_entAdds (i := 0) ht hk h8).1] at total
  have grown : (regTot (enterAll f c es s) c (64 + k) : Int) = (regTot s c (64 + k) + kindAdds k es) % 2 ^ 104 := by
    rw [← total, Int.emod_eq_of_lt (Int.natCast_nonneg _) (by exact_mod_cast bounded)]
  refine ⟨?_, grown⟩
  have sets := setSum_enterAll (f := f) hc hk ht h8
  rw [sum k h8, ← grown] at sets
  exact_mod_cast sets

end Sys2Proof.Machine
end

section
/-! PROOF. SPI frames and the legacy window (R276 to R287): PUT, TAKE, the reads of the window and its two writable words. -/

namespace Sys2Proof.Machine

/-! ### Causes and counters -/

theorem bit_setBit (n b j : Nat) : bit (setBit n b) j = (bit n j || decide (j = b)) := by
  unfold setBit
  split
  next set =>
    by_cases e : j = b
    · rw [e, set, Bool.true_or]
    · rw [decide_eq_false e, Bool.or_false]
  next clear =>
    rw [bit_eq_testBit, Bool.not_eq_true] at clear
    have set : (n + 2 ^ b).testBit b = true := by rw [Nat.add_comm, Nat.testBit_two_pow_add_eq, clear]; rfl
    have others := testBit_sub_two_pow set j
    rw [Nat.add_sub_cancel] at others
    rw [bit_eq_testBit, bit_eq_testBit]
    by_cases e : j = b
    · rw [e, set, decide_eq_true rfl, Bool.or_true]
    · rw [others, decide_eq_true e, Bool.and_true, decide_eq_false e, Bool.or_false]

theorem bit_setBit_self (n b : Nat) : bit (setBit n b) b = true := by
  rw [bit_setBit, decide_eq_true rfl, Bool.or_true]

section
variable {s : State} {b : Nat}

/-- A cause that is raised is latched. -/
theorem bit_setCause_self : bit (setCause b s).spi.causes b = true := bit_setBit_self _ _

@[simp] theorem setCause_out : (setCause b s).spi.out = s.spi.out := rfl
@[simp] theorem setCause_srv : (setCause b s).srv = s.srv := rfl
@[simp] theorem setCause_get {k : Nat} : (setCause b s).get k = s.get k := rfl

end

/-- A refused PUT is counted and raises its cause. -/
theorem putRefused_spec (s : State) : (putRefused s).srv = s.srv ∧ (putRefused s).spi.out = s.spi.out ∧
    bit (putRefused s).spi.causes 3 = true ∧ (putRefused s).get K.spiPutRefused = (s.get K.spiPutRefused + 1) % 2 ^ oBits K.spiPutRefused :=
  ⟨rfl, rfl, bit_setCause_self, get_bump_self⟩

@[simp] theorem spiSend_get {s : State} {b : Bytes} {k : Nat} : (spiSend b s).get k = s.get k := rfl
@[simp] theorem spiSend_srv {s : State} {b : Bytes} : (spiSend b s).srv = s.srv := rfl
@[simp] theorem spiSend_spi {s : State} {b : Bytes} : (spiSend b s).spi = { s.spi with out := b } := rfl

/-- An object that both branches leave alone. -/
theorem get_ite {c : Prop} [Decidable c] {s t u : State} {k : Nat} (ht : t.get k = s.get k) (hu : u.get k = s.get k) :
    (if c then t else u).get k = s.get k := by
  split
  · exact ht
  · exact hu

/-- A change of a port's state writes that state, and the counters of RING-5 when it is full. -/
theorem get_portSet {s : State} {p st cause k : Nat} (hp : K.portState p ≠ k) (h5 : K.stalls 5 ≠ k) (hl : K.eventsLost ≠ k) :
    (portSet p st cause s).get k = s.get k := by
  unfold portSet State.event
  split
  · rw [get_eventAt h5 hl, get_putV_ne hp]
  · split <;> rw [get_eventAt h5 hl, get_putV_ne hp]

section
variable {s : State} {good : Bool}

theorem get_spiFrameCheck {k : Nat} (hp : K.portState 0 ≠ k) (h5 : K.stalls 5 ≠ k) (hl : K.eventsLost ≠ k) :
    (spiFrameCheck good s).get k = s.get k := by
  unfold spiFrameCheck
  exact get_ite (get_portSet hp h5 hl) (get_ite (get_portSet hp h5 hl) rfl)

/-- Counting good and bad frames reaches neither the object server nor the pins. -/
theorem spiFrameCheck_srv : (spiFrameCheck good s).srv = s.srv := (spiFrameCheck_only (.refl 34393292932) (.refl _ s)).srv rfl
theorem spiFrameCheck_spi : (spiFrameCheck good s).spi = s.spi := (spiFrameCheck_only (.refl 34393292932) (.refl _ s)).spi rfl
theorem spiFrameCheck_fn : (spiFrameCheck good s).fn = s.fn := (spiFrameCheck_only (.refl 34393292932) (.refl _ s)).fn rfl

end

/-- The credit of RING-9 in use is a matter of the request rings. -/
theorem ringUsed_nine_congr {s t : State} (h : t.srv = s.srv) : ringUsed t 9 = ringUsed s 9 := by
  unfold ringUsed
  rw [h]
  rfl

theorem spiUp_of_run {s : State} (h : s.mode = .run) : spiUp s = true := by
  unfold spiUp
  rw [h]
  rfl

theorem serverRuns_of_ready {s : State} (hm : s.mode = .run) (hr : s.ready = true) : serverRuns s = true := by
  unfold serverRuns
  rw [hm, hr]
  rfl

/-! ### PUT (R278, R280) -/

/-- The length and CRC-32 of the bytes of a PUT are right. -/
def GoodPut (bytes : Bytes) : Prop :=
  bytes.length = 20 + at_ bytes 4 2 ∧ crc32 (bytes.take (16 + at_ bytes 4 2)) = at_ bytes (16 + at_ bytes 4 2) 4

/-- The request frame that a good PUT brings. -/
def putFrame (bytes : Bytes) (s : State) : ReqFrame :=
  { port := .spi, bytes := bytes.take (16 + at_ bytes 4 2), units := creditUnits .spi (at_ bytes 4 2), ord := s.srv.ord, fn := s.fn }

section
variable {bytes : Bytes} {s : State} (hup : spiUp s = true)
include hup

theorem execSpiPut_notReady (h : serverRuns s = false) : exec (.spiPut bytes) s = .next (putRefused (spiSend [] s)) := by
  show execSpiPut bytes s = _
  unfold execSpiPut
  rw [hup, if_neg (by decide)]
  exact congrArg _ (if_pos h)

variable (hrun : serverRuns s = true)
include hrun

theorem execSpiPut_bad (h : ¬GoodPut bytes) :
    exec (.spiPut bytes) s = .next (setCause 2 ((spiFrameCheck false (spiSend [] s)).bump K.spiCrcErrors)) := by
  have bad : bytes.length ≠ 20 + at_ bytes 4 2 ∨ crc32 (bytes.take (16 + at_ bytes 4 2)) ≠ at_ bytes (16 + at_ bytes 4 2) 4 :=
    Classical.not_and_iff_not_or_not.mp h
  have runs : serverRuns (spiSend [] s) = true := hrun
  show execSpiPut bytes s = _
  unfold execSpiPut
  dsimp only
  rw [hup, if_neg (by decide), runs, if_neg (by decide), if_pos bad]

variable (hgood : GoodPut bytes)
include hgood

/-- A good frame is counted, and then enters RING-9 or is refused. -/
theorem execSpiPut_good : exec (.spiPut bytes) s = .next
    (if 1024 < ringUsed s 9 + creditUnits .spi (at_ bytes 4 2) then putRefused ((spiFrameCheck true (spiSend [] s)).bump (K.stalls 9))
     else setSrv (fun v => { v with inq := v.inq ++ [putFrame bytes s], ord := v.ord + 1 }) (spiFrameCheck true (spiSend [] s))) := by
  have good : ¬(bytes.length ≠ 20 + at_ bytes 4 2 ∨ crc32 (bytes.take (16 + at_ bytes 4 2)) ≠ at_ bytes (16 + at_ bytes 4 2) 4) :=
    fun h => h.elim (fun h => h hgood.1) (fun h => h hgood.2)
  have runs : serverRuns (spiSend [] s) = true := hrun
  have used : ringUsed (spiFrameCheck true (spiSend [] s)) 9 = ringUsed s 9 := ringUsed_nine_congr spiFrameCheck_srv
  show execSpiPut bytes s = _
  unfold execSpiPut putFrame
  dsimp only
  rw [hup, if_neg (by decide), runs, if_neg (by decide), if_neg good, used, spiFrameCheck_srv, spiFrameCheck_fn]
  rfl

end

/-- Settles O14, by the three ends of a PUT. -/
theorem spiPutChecksFrames : Obligations.SpiPutChecksFrames := by
  unfold Obligations.SpiPutChecksFrames
  refine ⟨fun bytes s hup _ hrun => ?notReady, fun bytes s hmode hready => ?ready⟩
  case notReady =>
    have step := execSpiPut_notReady (bytes := bytes) hup hrun
    exact ⟨_, step, exec_frame step, rfl, bit_setCause_self, get_bump_self⟩
  case ready =>
    have hup := spiUp_of_run hmode
    have hrun := serverRuns_of_ready hmode hready
    by_cases hgood : GoodPut bytes
    · have step := execSpiPut_good hup hrun hgood
      by_cases hroom : 1024 < ringUsed s 9 + creditUnits .spi (at_ bytes 4 2)
      · rw [if_pos hroom] at step
        obtain ⟨srv, out, cause, count⟩ := putRefused_spec ((spiFrameCheck true (spiSend [] s)).bump (K.stalls 9))
        rw [get_bump_ne (by decide), get_spiFrameCheck (by decide) (by decide) (by decide), spiSend_get] at count
        rw [State_bump_srv, spiFrameCheck_srv] at srv
        rw [State_bump_spi, spiFrameCheck_spi] at out
        exact ⟨_, step, exec_frame step, out, fun _ _ => ⟨fun h => absurd h (Nat.not_le_of_lt hroom), fun _ => ⟨srv, cause, count⟩⟩,
          fun h => absurd hgood (fun g => h.elim (· g.1) (· g.2))⟩
      · rw [if_neg hroom] at step
        have spi : (setSrv (fun v => { v with inq := v.inq ++ [putFrame bytes s], ord := v.ord + 1 })
            (spiFrameCheck true (spiSend [] s))).spi = { s.spi with out := [] } := by
          rw [setSrv_spi, spiFrameCheck_spi, spiSend_spi]
        refine ⟨_, step, exec_frame step, by rw [spi], fun _ _ => ⟨fun _ => ?_, fun h => absurd h hroom⟩,
          fun h => absurd hgood (fun g => h.elim (· g.1) (· g.2))⟩
        refine ⟨putFrame bytes s, ?_, rfl, rfl, rfl, spi⟩
        rw [setSrv_srv, spiFrameCheck_srv, spiSend_srv]
    · have step := execSpiPut_bad hup hrun hgood
      refine ⟨_, step, exec_frame step, ?_, fun len crc => absurd ⟨len, crc⟩ hgood, fun _ => ⟨?_, bit_setCause_self, ?_⟩⟩
      · rw [setCause_out, State_bump_spi, spiFrameCheck_spi, spiSend_spi]
      · rw [setCause_srv, State_bump_srv, spiFrameCheck_srv, spiSend_srv]
      · rw [setCause_get, get_bump_self, get_spiFrameCheck (by decide) (by decide) (by decide), spiSend_get]

/-! ### TAKE (R279) -/

/-- A frame that leaves RING-12 leaves the other frames where they are. -/
theorem leave12_rings (f : OutFrame) (s : State) :
    (leave12 f s).srv.ring12 = s.srv.ring12.erase f ∧ (leave12 f s).srv.ring13 = s.srv.ring13 := by
  unfold leave12 freeTag
  dsimp only
  split
  · rw [startReqs_same.1]
    exact ⟨rfl, rfl⟩
  · exact ⟨rfl, rfl⟩

theorem leave12_spi (f : OutFrame) (s : State) : (leave12 f s).spi = s.spi := (leave12_only (.refl 262144) (.refl _ s)).spi rfl

section
variable {n : Nat} {s : State} (hup : spiUp s = true) (hrun : serverRuns s = true)
include hup hrun

theorem execSpiTake_none (h : nextOut s .spi = none) : exec (.spiTake n) s = .next (spiSend ((le 2 0).take n) s) := by
  show execSpiTake n s = _
  unfold execSpiTake
  rw [hup, if_neg (by decide), hrun, if_pos rfl, h]

theorem execSpiTake_some {f : OutFrame} {done : Bool} (h : nextOut s .spi = some (f, done)) :
    exec (.spiTake n) s = .next (
      let u := spiSend ((le 2 (spiFrame s f).length ++ spiFrame s f).take n) s
      if 2 + (spiFrame s f).length ≤ n then (if done then leave12 f u else leave13 f u) else u) := by
  show execSpiTake n s = _
  unfold execSpiTake
  rw [hup, if_neg (by decide), hrun, if_pos rfl, h]

end

/-- Settles O15, by what waits and by how much of it is clocked out. -/
theorem spiTakeHandsOut : Obligations.SpiTakeHandsOut := by
  unfold Obligations.SpiTakeHandsOut
  intro n s hup hrun
  cases hout : nextOut s .spi with
  | none =>
    have step := execSpiTake_none (n := n) hup hrun hout
    exact ⟨_, step, exec_frame step, fun _ => rfl, nofun⟩
  | some e =>
    obtain ⟨f, done⟩ := e
    have step := execSpiTake_some (n := n) hup hrun hout
    refine ⟨_, step, exec_frame step, nofun, fun f' done' h => ?_⟩
    cases h
    dsimp only
    by_cases hwhole : 2 + (spiFrame s f).length ≤ n
    · rw [if_pos hwhole]
      cases done with
      | true =>
        obtain ⟨r12, r13⟩ := leave12_rings f (spiSend ((le 2 (spiFrame s f).length ++ spiFrame s f).take n) s)
        exact ⟨leave12_spi _ _, fun h => absurd hwhole (by omega), fun _ => ⟨fun _ => ⟨r12, r13⟩, nofun⟩⟩
      | false => exact ⟨rfl, fun h => absurd hwhole (by omega), fun _ => ⟨nofun, fun _ => rfl⟩⟩
    · rw [if_neg hwhole]
      exact ⟨rfl, fun _ => rfl, fun h => absurd h hwhole⟩

/-! ### The legacy window (R286, R287) -/

/-- The latched low word that a read of one word returns. -/
def legacyHeld (s : State) (a n : Nat) : Option Nat :=
  match s.spi.latch with
  | some (x, w, f) => if n = 1 ∧ x = a ∧ s.fn ≤ f + 1024 ∧ s.ready then some w else none
  | none => none

/-- The words that a read returns. -/
def legacyWords (s : State) (a n : Nat) : List Nat :=
  match legacyHeld s a n with | some w => [w] | none => (legacyAddrs a n).map (legacyAt s)

/-- A read of the window sends its words, counts, and sets the latch. -/
theorem execLegacyRead_up {a : BitVec 11} {n : Fin 16} {s : State} (hup : spiUp s = true) : exec (.legacyRead a n) s = .next
    (setSpi (fun p => { p with latch := legacyLatch s a.toNat (n.val + 1) })
      (spiSend ((legacyWords s a.toNat (n.val + 1)).flatMap (fun w => (le 3 w).reverse)) (s.bumpLive K.spiLegacyReads))) := by
  show execLegacyRead a n s = _
  unfold execLegacyRead
  rw [hup, if_neg (by decide)]
  rfl

/-- Until READY every word reads 0, and none is held. -/
theorem legacyWords_notReady {s : State} {a n : Nat} (h : s.ready = false) : legacyWords s a n = List.replicate n 0 := by
  have held : legacyHeld s a n = none := by
    unfold legacyHeld
    split
    · exact if_neg (by simp [h])
    · rfl
  have zero : ∀ i, legacyAt s i = 0 := fun i => by
    unfold legacyAt
    split
    · rw [h]; rfl
    · rfl
  unfold legacyWords
  rw [held]
  dsimp only
  rw [List.map_congr_left (fun i _ => zero i), List.map_const', legacyAddrs, List.length_map, List.length_range]

/-- Words of zero are bytes of zero. -/
theorem flatMap_zero_words (n : Nat) : (List.replicate n 0).flatMap (fun w => (le 3 w).reverse) = List.replicate (3 * n) 0 := by
  induction n with
  | zero => rfl
  | succ n ih => rw [List.replicate_succ, List.flatMap_cons, ih, Nat.mul_succ, Nat.add_comm, ← List.replicate_append_replicate]; rfl

/-- A held word is the one that is read. -/
theorem legacyWords_held {s : State} {a w f : Nat} (hready : s.ready = true) (hlatch : s.spi.latch = some (a, w, f)) (hfn : s.fn ≤ f + 1024) :
    legacyWords s a 1 = [w] := by
  have held : legacyHeld s a 1 = some w := by
    unfold legacyHeld
    rw [hlatch]
    exact if_pos ⟨rfl, rfl, hfn, hready⟩
  unfold legacyWords
  rw [held]

/-- A read of one high word latches the low word of its pair. -/
theorem legacyLatch_high {s : State} {a : Nat} (h : isHigh s a = true) : legacyLatch s a 1 = some (a + 1, legacyAt s (a + 1), s.fn) := by
  unfold legacyLatch
  rw [if_pos rfl, if_pos h]

section
variable {w : BitVec 24} {s : State} (hmode : s.mode = .run)
include hmode

theorem legacyOpen_run : legacyOpen s = true := decide_eq_true hmode

theorem execLegacyWriteEvents_run : exec (.legacyWriteEvents w) s = .next
    (setSpi (fun p => { p with events := (List.range 9).foldl (fun e b => if bit w.toNat b then clearBit e b else e) p.events })
      (spiSend [] s)) := congrArg _ (if_pos (legacyOpen_run hmode))

theorem execLegacyWriteEventMask_run :
    exec (.legacyWriteEventMask w) s = .next ((spiSend [] s).put K.spiLegacyEventMask (w.toNat % 512)) :=
  congrArg _ (if_pos (legacyOpen_run hmode))

theorem execLegacyWriteIgnored_run {a : BitVec 11} (h10 : a.toNat ≠ 10) (h11 : a.toNat ≠ 11) :
    exec (.legacyWriteIgnored a w) s = .next ((spiSend [] s).bump K.spiLegacyWritesIgnored) :=
  congrArg _ (if_pos ⟨legacyOpen_run hmode, h10, h11⟩)

end

/-- Settles O16, by the words and the latch of a read, and by what each write does. -/
theorem legacyWindow : Obligations.LegacyWindow := by
  unfold Obligations.LegacyWindow
  refine ⟨fun a n s hup => ?read, fun w s hmode => ⟨?events, ?mask, fun a h10 h11 => ?ignored⟩⟩
  case read =>
    have step := execLegacyRead_up (a := a) (n := n) hup
    refine ⟨_, step, exec_frame step, live_putLive_self, fun hready => ?_, fun hn high => ?_, fun w f hn hready hlatch hfn => ?_⟩
    · exact (congrArg _ (legacyWords_notReady hready)).trans (flatMap_zero_words _)
    · subst hn
      exact legacyLatch_high high
    · subst hn
      have sent : (legacyWords s a.toNat 1).flatMap (fun w => (le 3 w).reverse) = (le 3 w).reverse := by
        rw [legacyWords_held hready hlatch hfn, List.flatMap_singleton]
      exact sent
  case events =>
    refine ⟨_, execLegacyWriteEvents_run hmode, fun b hb => ?_, rfl⟩
    rw [setSpi_spi, bit_foldl_clearBit]
    simp only [List.mem_range, hb, decide_true, Bool.true_and]
    rfl
  case mask =>
    have step := execLegacyWriteEventMask_run (w := w) hmode
    exact ⟨_, step, get_put_self, rfl, fun k hk => get_put_ne hk.symm, exec_frame step⟩
  case ignored =>
    have step := execLegacyWriteIgnored_run (w := w) hmode h10 h11
    exact ⟨_, step, get_bump_self, rfl, fun k hk => get_bump_ne hk.symm, exec_frame step⟩

end Sys2Proof.Machine
end

section
/-! PROOF. Requests (R24 to R31, R247, R266 to R275): parsing, the refusals of a frame, deferred and broken messages, responses into RING-12, and
the operations that read. -/

namespace Sys2Proof.Machine

variable {s : State}

/-- A command whose frame leaves the dictionary alone changes no object. -/
theorem exec_get {c : Instr} {t : State} (e : exec c s = .next t) (h : Piece.dict ∉ writes c) (k : Nat) : t.get k = s.get k :=
  get_of_dict (exec_frame e .dict h) k

theorem bumpLive_srv {k : Nat} : (s.bumpLive k).srv = s.srv := (State_bumpLive_only (.refl 36) (.refl _ s)).srv rfl

/-! ### What answering and starting requests leave alone -/

section
variable {i st : Nat} {data : Bytes}

@[simp] theorem startReqs_inq : (startReqs s).srv.inq = s.srv.inq := by rw [startReqs_same.1]
@[simp] theorem startReqs_ring12 : (startReqs s).srv.ring12 = s.srv.ring12 := by rw [startReqs_same.1]
@[simp] theorem answer_inq : (answer i st data s).srv.inq = s.srv.inq := by rw [answer_same.1]
@[simp] theorem answer_sess : (answer i st data s).srv.sess = s.srv.sess := by rw [answer_same.1]
@[simp] theorem answer_subs : (answer i st data s).srv.subs = s.srv.subs := by rw [answer_same.1]
@[simp] theorem answer_busy : (answer i st data s).srv.busy = s.srv.busy := by rw [answer_same.1]
@[simp] theorem answer_lastId : (answer i st data s).srv.lastId = s.srv.lastId := by rw [answer_same.1]
@[simp] theorem answer_vput : (answer i st data s).srv.vput = s.srv.vput := by rw [answer_same.1]

/-- Starting requests and answering change no object. -/
theorem startReqs_get {k : Nat} : (startReqs s).get k = s.get k := get_of_dict (startReqs_srv.dict rfl) k
theorem answer_get {k : Nat} : (answer i st data s).get k = s.get k := get_of_dict (answer_srv.dict rfl) k

end

/-! ### Parsing (R266) -/

/-- A refusal enters RING-12 or is counted; the request rings stay. -/
theorem refuse_inq {r : ReqFrame} {tag st : Nat} : (refuse r tag st s).srv.inq = s.srv.inq := by
  unfold refuse
  dsimp only
  split <;> split <;> rfl

theorem finishTag_inq {i : Nat} {t : Tag} : (finishTag i t s).srv.inq = s.srv.inq := rfl
theorem failTag_inq {i : Nat} {t : Tag} {st : Nat} : (failTag i t st s).srv.inq = s.srv.inq := rfl

theorem addPart_inq {i : Nat} {t : Tag} {r : ReqFrame} {pay : Bytes} {many : Bool} : (addPart i t r pay many s).srv.inq = s.srv.inq := by
  unfold addPart
  dsimp only
  generalize (if r.port = .spi then t.parts.length else r.ctr) = ctr
  split
  · rfl
  split
  · rfl
  split
  · rfl
  split
  · rfl
  split <;> rfl

theorem bindReq_inq {r : ReqFrame} {h : Hdr} {pay : Bytes} : (bindReq r h pay s).srv.inq = s.srv.inq := by
  unfold bindReq
  dsimp only
  split
  · exact refuse_inq
  split
  · exact refuse_inq
  split
  · exact refuse_inq
  split
  · exact refuse_inq
  split
  · exact refuse_inq
  split
  · exact refuse_inq
  split
  · exact refuse_inq
  · rw [addPart_inq]
    split <;> rfl

/-- Parsing a frame leaves the frames behind it in their rings. -/
theorem parseReq_inq {r : ReqFrame} : (parseReq r s).srv.inq = s.srv.inq := by
  unfold parseReq
  dsimp only
  split
  · rw [bumpLive_srv]
  split
  · exact refuse_inq
  split
  · split
    · split
      · exact refuse_inq
      · exact addPart_inq
    · exact refuse_inq
  split
  · split
    · exact refuse_inq
    · split
      · exact refuse_inq
      · rfl
    · exact refuse_inq
  · exact bindReq_inq

/-- The machine when the oldest request frame has left its ring. -/
def restReqs (l : List ReqFrame) (s : State) : State := setSrv (fun v => { v with inq := l }) s

/-- The oldest request frame, of the port, is parsed, and requests that may start do so. -/
theorem execRequestParse_front {p : Port} {r : ReqFrame} {l : List ReqFrame} (hrun : serverRuns s = true) (hq : s.srv.inq = r :: l)
    (hp : r.port = p) : exec (.requestParse p) s = .next (startReqs (parseReq r (restReqs l s))) := by
  show execRequestParse p s = _
  unfold execRequestParse
  rw [hrun, if_pos rfl, hq]
  exact congrArg _ (if_pos hp)

/-- A request that is no continuation, and no request without a tag, is bound or refused. -/
theorem parseReq_binds {r : ReqFrame} (hkind : (hdrOf r.bytes).kind = 0) (hver : (hdrOf r.bytes).ver = 2) (hflags : (hdrOf r.bytes).flags = 0)
    (htag : (hdrOf r.bytes).tag ≠ 0xFF) : parseReq r s = bindReq r (hdrOf r.bytes) (r.bytes.drop 16) s := by
  unfold parseReq
  dsimp only
  rw [if_neg (Decidable.not_not.mpr hkind), hflags, if_neg (by omega), if_neg (by decide), if_neg (fun h => htag h.1)]

/-- A tag out of range, or outstanding, is refused with RANGE. -/
theorem bindReq_tag {r : ReqFrame} {h : Hdr} {pay : Bytes} (bad : h.tag > 47 ∨ tagBusy s r h.tag = true) :
    bindReq r h pay s = refuse r h.tag 0x32 s := by
  unfold bindReq
  exact if_pos bad

/-- A request without FN stands. -/
theorem fnStatus_zero (arrival : Nat) (ops : List Op) : fnStatus 0 arrival ops = 0 := by
  unfold fnStatus
  split
  · rfl
  · exact if_neg (by omega)

theorem frameMax_le (p : Port) : frameMax p ≤ 8192 := by
  cases p <;> decide

/-- The request that a frame of one message binds to a slot. -/
def boundTag (r : ReqFrame) (tag : Nat) (ops : List Op) (ord : Nat) : Tag :=
  { port := r.port, sess := r.sess, tag := tag, fn := r.fn, full := true, ops := ops, ord := ord }

theorem any_hello {ops : List Op} (hhello : ∀ o ∈ ops, o.code ≠ 0x60) : ops.any (fun o => decide (o.code = 0x60)) = false :=
  List.any_eq_false.mpr (fun o ho => by simpa using hhello o ho)

section
variable {r : ReqFrame} {pay : Bytes} {ops : List Op} (hops : opsOf pay = some ops) (hhello : ∀ o ∈ ops, o.code ≠ 0x60)
include hops hhello

/-- A message of a single frame is whole at once, and its operations are the request's. -/
theorem addPart_single {i tag : Nat} (hlen : pay.length ≤ 8192) :
    addPart i { port := r.port, sess := r.sess, tag := tag } r pay false s =
      setTag i (some (boundTag r tag ops s.srv.ord)) (setSrv (fun v => { v with ord := v.ord + 1 }) s) := by
  have size : sumN ([((if r.port = .spi then 0 else r.ctr), pay, false)].map (fun p : Nat × Bytes × Bool => p.2.1.length)) = pay.length :=
    Nat.zero_add _
  have whole : wholeGo 1 (if r.port = .spi then 0 else r.ctr) [((if r.port = .spi then 0 else r.ctr), pay, false)] = some pay := by
    simp [wholeGo]
  unfold addPart
  simp only [List.nil_append, List.length_nil, size, Nat.not_lt.mpr hlen, if_false, List.length_cons, List.headD_cons, Nat.zero_add, whole, hops,
    any_hello hhello, Bool.false_eq_true, fnStatus_zero, ne_eq, not_true_eq_false]
  rfl

/-- A request of a free tag, without transaction and FN, takes the free slot with its operations. -/
theorem bindReq_free {h : Hdr} {i : Nat} (htag : h.tag ≤ 47) (hbusy : tagBusy s r h.tag = false) (hflags : h.flags = 0) (htxn : h.txn = 0)
    (hfn : h.fn = 0) (hlen : pay.length ≤ frameMax r.port) (hslot : freeSlot s r.port = some i) :
    ∃ u, getTag (bindReq r h pay s) i = some u ∧ SameTag (boundTag r h.tag ops s.srv.ord) u := by
  have small := Nat.le_trans hlen (frameMax_le r.port)
  have tagOk : ¬(h.tag > 47 ∨ tagBusy s r h.tag = true) := fun k => k.elim (by omega) (by simp [hbusy])
  unfold bindReq
  rw [if_neg tagOk, if_neg (by omega), hflags, hfn, htxn]
  simp only [show bit 0 1 = false from rfl, Bool.false_eq_true, if_false, hops, any_hello hhello, fnStatus_zero, ne_eq, not_true_eq_false,
    false_and, hslot]
  split
  · exact ⟨_, (congrArg (getTag · i) (addPart_single hops hhello small)).trans getTag_setTag_self, rfl, rfl, rfl, rfl, rfl, rfl, rfl, rfl⟩
  · exact ⟨_, (congrArg (getTag · i) (addPart_single hops hhello small)).trans getTag_setTag_self, rfl, rfl, rfl, rfl, rfl, rfl, rfl, rfl⟩

end

/-- Settles O17: the rings by the operations of parsing, the slot by what a request of one frame binds. -/
theorem requestsAreParsed : Obligations.RequestsAreParsed := by
  unfold Obligations.RequestsAreParsed
  intro p r l s hrun hq hp
  subst hp
  have step := execRequestParse_front hrun hq rfl
  refine ⟨_, step, ?rings, exec_frame step, fun ops i hkind hver hflags htxn hfn htag hbusy hlen hops hhello hslot _ => ?slot⟩
  case rings =>
    rw [startReqs_inq]
    exact parseReq_inq
  case slot =>
    have binds := parseReq_binds (s := restReqs l s) hkind hver hflags (by omega)
    obtain ⟨u, hu, same⟩ := bindReq_free (s := restReqs l s) hops hhello htag hbusy hflags htxn hfn hlen hslot
    rw [← binds] at hu
    obtain ⟨q, hq, port, sess, tag, -, ops, res, full, -⟩ := getTag_startReqs_same hu
    obtain ⟨port', sess', tag', -, ops', res', full', -⟩ := same
    exact ⟨q, hq, tag.trans tag', ops.trans ops', res.trans res', full.trans full', port.trans port', sess.trans sess'⟩

/-! ### Refusals (R266, R274) -/

/-- The frame of a refusal. -/
def refusal (r : ReqFrame) (tag st : Nat) (s : State) : OutFrame :=
  { port := r.port, sess := r.sess, addr := r.addr, sport := r.sport, tag := tag, st := st, fn := s.fn, ref := true,
    clear := decide (r.sess = none) }

/-- A refusal other than NO-TAG that finds room in the reserve enters RING-12. -/
theorem refuse_room {r : ReqFrame} {tag st : Nat} (hst : st ≠ 0x61) (hroom : shareUsed s r.port true + creditUnits r.port 0 ≤ 16) :
    refuse r tag st s = push12 (refusal r tag st s) s := by
  have fits : decide (shareUsed s r.port true + outUnits (refusal r tag st s) ≤ 16) = true := decide_eq_true hroom
  unfold refuse
  dsimp only
  rw [refusal] at fits
  rw [fits, decide_eq_false hst]
  rfl

/-- Settles O18, by the two ends of parsing. -/
theorem requestsAreRefused : Obligations.RequestsAreRefused := by
  unfold Obligations.RequestsAreRefused
  intro p r l s hrun hq hp
  subst hp
  have step := execRequestParse_front hrun hq rfl
  refine ⟨_, step, fun hkind => ?kind, fun hkind hver hflags htag hroom => ?tag⟩
  case kind =>
    have parsed : parseReq r (restReqs l s) = (restReqs l s).bumpLive (rxDiscarded r.port) :=
      if_pos hkind
    rw [parsed, startReqs_ring12, bumpLive_srv]
    exact ⟨rfl, startReqs_get.trans live_putLive_self, fun k hk => startReqs_get.trans (get_putLive_ne hk.symm)⟩
  case tag =>
    have bad : (hdrOf r.bytes).tag > 47 ∨ tagBusy (restReqs l s) r (hdrOf r.bytes).tag = true :=
      htag.imp And.left And.right
    rw [parseReq_binds hkind hver hflags (by omega), bindReq_tag bad, refuse_room (s := restReqs l s) (by decide) hroom, startReqs_ring12]
    exact ⟨refusal r _ 0x32 s, rfl, rfl, rfl, rfl, rfl, rfl⟩

/-! ### Deferred and broken requests (R268, R271) -/

/-- The request that starts next without a transaction is served from CURRENT. -/
theorem getTag_startReqs_next {i : Nat} {q : Tag} (hstart : mayStart s = true) (hnext : nextStart s = some (i, q)) (htxn : q.txn = 0)
    (hops : q.ops ≠ []) : getTag (startReqs s) i = some { q with begun := true, snap := s.current } := by
  have begins : beginTag i q s = setTag i (some { q with begun := true, snap := s.current }) s := by
    unfold beginTag
    rw [if_pos htxn, if_neg hops]
  unfold startReqs
  rw [if_pos hstart, startGo, hnext]
  dsimp only
  rw [begins]
  exact getTag_startGo getTag_setTag_self rfl

section
variable {i : Fin 48} {q : Tag} (hq : getTag s i.val = some q)
include hq

theorem execRequestStartDeferred_due (hfn : q.fnf ≠ 0) (hle : q.fnf ≤ s.fn) (hbegun : q.begun = false) :
    exec (.requestStartDeferred i) s = .next (startReqs s) := by
  show execRequestStartDeferred i s = _
  unfold execRequestStartDeferred
  rw [hq]
  exact congrArg _ (if_pos ⟨hfn, hle, hbegun⟩)

theorem execContinuationTimeout_late (hfull : q.full = false) (hfin : q.fin = none) (hlate : q.fn + 1024 < s.fn) :
    exec (.continuationTimeout i) s = .next (failTag i.val q 0x12 s) := by
  show execContinuationTimeout i s = _
  unfold execContinuationTimeout
  rw [hq]
  exact congrArg _ (if_pos ⟨hfull, hfin, hlate⟩)

theorem execContinuationTimeout_waits (h : s.fn ≤ q.fn + 1024) : exec (.continuationTimeout i) s = .next s := by
  show execContinuationTimeout i s = _
  unfold execContinuationTimeout
  rw [hq]
  exact congrArg _ (if_neg (fun k => by omega))

end

/-- Settles O19: the request that starts next, and the two sides of the time limit. -/
theorem deferredAndBrokenRequests : Obligations.DeferredAndBrokenRequests := by
  unfold Obligations.DeferredAndBrokenRequests
  refine ⟨fun i q s hstart hq hnext htxn hops hfn hle => ?deferred, fun i q s hq hfull hfin hlate => ?broken,
    fun i q s hq hwait => execContinuationTimeout_waits hq hwait⟩
  case deferred =>
    obtain ⟨-, hbegun⟩ := nextStart_some hnext
    have step := execRequestStartDeferred_due hq hfn hle hbegun
    exact ⟨_, _, step, exec_frame step, getTag_startReqs_next hstart hnext htxn hops, rfl, rfl, rfl, rfl⟩
  case broken =>
    have step := execContinuationTimeout_late hq hfull hfin hlate
    exact ⟨_, _, step, exec_frame step, getTag_finishTag_self, rfl, rfl, rfl, rfl, fun j hj => getTag_finishTag_ne hj.symm⟩

/-! ### Responses into RING-12 (R275) -/

/-- A response of one frame: the whole payload, and its slot leaves with it. -/
theorem respFrame_whole {i : Nat} {q : Tag} {b : Bytes} (hlen : b.length ≤ frameMax q.port) : (respFrame s i q b).2 = [] ∧ (respFrame s i q b).1.data = b ∧ (respFrame s i q b).1.slot = some i := by
  have rest : b.drop (frameMax q.port) = [] := List.drop_eq_nil_of_le hlen
  unfold respFrame
  simp only [rest, if_true, List.take_of_length_le hlen, and_self]

section
variable {i : Nat} {q : Tag} {b : Bytes} (hq : getTag s i = some q) (hleft : q.left = some b) (hlen : b.length ≤ frameMax q.port)
include hq hleft hlen

/-- It enters RING-12 when it fits, and leaves the completions. -/
theorem enqueueGo_fits {k : Nat} (hfits : shareUsed s q.port false + creditUnits q.port b.length ≤ shareOf q.port - 16) :
    enqueueGo (k + 1) i s = setSrv (fun v => { v with done := v.done.erase i })
      (setTag i (some { q with left := none, first := false, stall := false, part := q.part + 1 }) (push12 (respFrame s i q b).1 s)) := by
  obtain ⟨rest, data, -⟩ := respFrame_whole (s := s) (i := i) hlen
  have units : outUnits (respFrame s i q b).1 = creditUnits q.port b.length := by rw [outUnits, data]; rfl
  rw [enqueueGo, hq]
  dsimp only
  rw [hleft]
  dsimp only
  rw [units, if_pos hfits, if_pos rest]

/-- Without room it waits, and its wait is counted once. -/
theorem enqueueGo_waits {k : Nat} (hfull : shareOf q.port - 16 < shareUsed s q.port false + creditUnits q.port b.length) :
    enqueueGo (k + 1) i s = if q.stall then s else setTag i (some { q with stall := true }) (s.bump (K.stalls 12)) := by
  obtain ⟨-, data, -⟩ := respFrame_whole (s := s) (i := i) hlen
  have units : outUnits (respFrame s i q b).1 = creditUnits q.port b.length := by rw [outUnits, data]; rfl
  rw [enqueueGo, hq]
  dsimp only
  rw [hleft]
  dsimp only
  rw [units, if_neg (Nat.not_le_of_lt hfull)]

end

theorem execResponseEnqueue_first {p : Port} {i : Nat} {q : Tag} (hrun : serverRuns s = true)
    (hfirst : s.srv.done.find? (fun j => match getTag s j with | some t => decide (t.port = p) | none => true) = some i)
    (hq : getTag s i = some q) (horphan : orphan s q = false) : exec (.responseEnqueue p) s = .next (enqueueGo 16 i s) := by
  show execResponseEnqueue p s = _
  unfold execResponseEnqueue
  rw [hrun, if_pos rfl]
  split
  next none => exact nomatch hfirst.symm.trans none
  next j found =>
    cases hfirst.symm.trans found
    rw [hq]
    dsimp only
    rw [horphan]
    rfl

/-- Settles O20, by whether the frame fits. -/
theorem responsesEnterRing12 : Obligations.ResponsesEnterRing12 := by
  unfold Obligations.ResponsesEnterRing12
  intro p i q b s hrun hfirst hq horphan hleft hlen _
  have step := execResponseEnqueue_first hrun hfirst hq horphan
  refine ⟨_, step, exec_frame step, fun hfits => ?fits, fun hfull => ?waits⟩
  case fits =>
    obtain ⟨-, data, slot⟩ := respFrame_whole (s := s) (i := i) hlen
    rw [enqueueGo_fits hq hleft hlen hfits]
    exact ⟨⟨_, rfl, data, rfl, rfl, rfl, slot⟩, rfl, fun k => rfl⟩
  case waits =>
    rw [enqueueGo_waits hq hleft hlen hfull]
    cases q.stall with
    | true => exact ⟨rfl, rfl, rfl⟩
    | false => exact ⟨rfl, rfl, get_bump_self⟩

end Sys2Proof.Machine
end

section
/-! PROOF. The operations that read, and those on transactions and subscriptions (R30 to R34, R247 to R257, R267). -/

namespace Sys2Proof.Machine

variable {s : State}

/-! ### Answers to a request that has been touched since it was served -/

/-- The request that stands in a slot still executes what `q` did. -/
def Carries (u : State) (i : Nat) (q : Tag) : Prop :=
  ∃ t, getTag u i = some t ∧ t.begun = q.begun ∧ t.ops = q.ops ∧ t.res = q.res

theorem carries_of {u : State} {i : Nat} {q : Tag} (h : getTag u i = some q) : Carries u i q := ⟨q, h, rfl, rfl, rfl⟩

theorem Serves.carries {i : Nat} {q : Tag} {o : Op} (h : Serves s i q o) : Carries s i q := carries_of h.tag

/-- An answer to a request that still executes what it did is a reply to the operation that is served. -/
theorem Serves.answers {u : State} {i st : Nat} {q : Tag} {o : Op} {data : Bytes} (h : Serves s i q o) (c : Carries u i q) :
    Replies (answer i st data u) i q o st data := by
  obtain ⟨b, -, -, n⟩ := nextOp_some h.next
  obtain ⟨t, ht, hb, ho, hr⟩ := c
  obtain ⟨t', h1, h2⟩ := getTag_answer (st := st) (data := data) (o := o) ht (hb.trans b) (by rw [ho, hr, n])
  exact ⟨t', h1, by rw [h2, hr]⟩

theorem Carries.congr {u v : State} {i : Nat} {q : Tag} (h : Carries u i q) (e : getTag v i = getTag u i) : Carries v i q := by
  obtain ⟨t, ht, r⟩ := h
  exact ⟨t, e.trans ht, r⟩

@[simp] theorem getTag_setTxn {x : Txn} {i : Nat} : getTag (setTxn x s) i = getTag s i := rfl
@[simp] theorem getTag_endTxns {w : Txn → Bool} {i : Nat} : getTag (endTxns w s) i = getTag s i := rfl
@[simp] theorem getTag_endTxn {n i : Nat} : getTag (endTxn n s) i = getTag s i := rfl

/-- A read that is tracked leaves the requests alone. -/
@[simp] theorem getTag_trackRead {q : Tag} {k i : Nat} : getTag (trackRead q k s) i = getTag s i := by
  unfold trackRead
  split
  · split
    · split
      · rfl
      · split <;> rfl
    · rfl
  · rfl

/-- A request that has read a published value still executes what it did. -/
theorem Carries.markUsed {i : Nat} {q : Tag} {b : Bool} (h : Carries s i q) : Carries (markUsed i b s) i q := by
  obtain ⟨t, ht, hb, ho, hr⟩ := h
  unfold Machine.markUsed
  split
  · rw [ht]
    exact ⟨_, getTag_setTag_self, hb, ho, hr⟩
  · exact ⟨t, ht, hb, ho, hr⟩

/-! ### READ (R30, R247) -/

/-- The machine when a READ that found a value has been noted for its request. -/
def readNoted (i : Nat) (q : Tag) (o : Op) (s : State) : State :=
  if (readObj s q o.key).1 = 0 then markUsed i (readObj s q o.key).2.2 (trackRead q o.key s) else s

theorem readNoted_carries {i : Nat} {q : Tag} {o : Op} (h : Carries s i q) : Carries (readNoted i q o s) i q := by
  unfold readNoted
  split
  · exact (h.congr getTag_trackRead).markUsed
  · exact h

/-- A READ without data answers what `readObj` finds. -/
theorem execRead_serves {i : Fin 48} {q : Tag} {o : Op} (h : Serves s i.val q o) (hc : o.code = 0x10) (hd : o.data = []) :
    exec (.read i) s = .next (answer i.val (readObj s q o.key).1 (readObj s q o.key).2.1 (readNoted i.val q o s)) := by
  show execRead i s = _
  unfold execRead
  rw [runOp_serves h (by simp [hc])]
  exact congrArg _ (if_neg (Decidable.not_not.mpr hd))

/-- One with data is BAD-TYPE. -/
theorem execRead_data {i : Fin 48} {q : Tag} {o : Op} (h : Serves s i.val q o) (hc : o.code = 0x10) (hd : o.data ≠ []) :
    exec (.read i) s = .next (answer i.val 0x31 [] s) := by
  show execRead i s = _
  unfold execRead
  rw [runOp_serves h (by simp [hc])]
  exact congrArg _ (if_pos hd)

section
variable {q : Tag} {k : Nat} {r : Row}

theorem readObj_none (h : rowOf k = none) : readObj s q k = (0x30, [], false) := by
  unfold readObj; rw [h]

theorem readObj_method (h : rowOf k = some r) (m : r.ty = .method) : readObj s q k = (0x31, [], false) := by
  unfold readObj; rw [h]; exact if_pos m

theorem readObj_denied (h : rowOf k = some r) (m : r.ty ≠ .method) (d : roleOf s q < r.rd) : readObj s q k = (0x20, [], false) := by
  unfold readObj; rw [h]; exact (if_neg m).trans (if_pos d)

theorem readObj_published {p : Snap} (h : rowOf k = some r) (m : r.ty ≠ .method) (d : r.rd ≤ roleOf s q) (pub : isPublished r = true)
    (hp : q.snap = some p) : readObj s q k = (0, valBytes r.ty (snapVal p k), true) := by
  unfold readObj; rw [h]
  dsimp only
  rw [if_neg m, if_neg (Nat.not_lt.mpr d), if_pos pub, hp]

theorem readObj_committed (h : rowOf k = some r) (m : r.ty ≠ .method) (d : r.rd ≤ roleOf s q) (pub : isPublished r = false)
    (hx : findTxn s q.txn q.port q.sess = none) : readObj s q k = (0, valBytes r.ty (s.get k), false) := by
  unfold readObj; rw [h]
  dsimp only
  rw [if_neg m, if_neg (Nat.not_lt.mpr d), pub, hx]
  rfl

end

/-- Settles O21, by what `readObj` finds of an object. -/
theorem readAnswers : Obligations.ReadAnswers := by
  unfold Obligations.ReadAnswers
  intro i q o s h hc
  by_cases hd : o.data = []
  · have step := execRead_serves h hc hd
    have found : ∀ {a : Nat × Bytes × Bool}, readObj s q o.key = a →
        Replies (answer i.val (readObj s q o.key).1 (readObj s q o.key).2.1 (readNoted i.val q o s)) i.val q o a.1 a.2.1 := by
      rintro a rfl
      exact h.answers (readNoted_carries h.carries)
    refine ⟨_, step, exec_frame step, exec_get step (by simp [writes]), fun e => absurd hd e, fun _ => ⟨?_, ?_, ?_, ?_, ?_⟩⟩
    · exact fun hr => found (readObj_none hr)
    · exact fun r hr m => found (readObj_method hr m)
    · exact fun r hr m d => found (readObj_denied hr m d)
    · exact fun r p hr m d pub hp => found (readObj_published hr m d pub hp)
    · exact fun r hr m d pub hx => found (readObj_committed hr m d pub hx)
  · have step := execRead_data h hc hd
    exact ⟨_, step, exec_frame step, exec_get step (by simp [writes]), fun _ => h.answers h.carries, fun e => absurd e hd⟩

/-! ### READ-SET (R31, R272) and unknown opcodes (R267) -/

/-- What a READ-SET answers: the entries of the objects. -/
def setBody (s : State) (q : Tag) (ks : List Nat) : Bytes :=
  ks.flatMap (fun k => entryBytes (k / 256) (k % 256) (readObj s q k).1 (readObj s q k).2.1)

/-- The machine when the objects that a READ-SET found are tracked. -/
def setTracked (q : Tag) (rs : List (Nat × Nat × Bytes × Bool)) (s : State) : State :=
  rs.foldl (fun s e => if e.2.1 = 0 then
    (match findTxn s q.txn q.port q.sess with | some _ => trackRead q e.1 s | none => s) else s) s

theorem getTag_setTracked {q : Tag} {i : Nat} {rs : List (Nat × Nat × Bytes × Bool)} : getTag (setTracked q rs s) i = getTag s i := by
  induction rs generalizing s with
  | nil => rfl
  | cons e rs ih =>
    refine ih.trans ?_
    dsimp only
    split
    · split
      · exact getTag_trackRead
      · rfl
    · rfl

/-- The results of the listed objects. -/
def setRead (s : State) (q : Tag) (ks : List Nat) : List (Nat × Nat × Bytes × Bool) := ks.map (fun k => (k, readObj s q k))

/-- A READ-SET whose list is complete. -/
theorem execReadSet_list {i : Fin 48} {q : Tag} {o : Op} (h : Serves s i.val q o) (hc : o.code = 0x11) (hn : at_ o.data 0 2 ≤ 2048)
    (hl : o.data.length = 2 + 3 * at_ o.data 0 2) {ks : List Nat} (hk : ks = listedKeys (o.data.drop 2) (at_ o.data 0 2)) :
    exec (.readSet i) s = .next (if 16384 < (setBody s q ks).length then answer i.val 0x60 [] s
      else answer i.val 0 (setBody s q ks) (markUsed i.val ((setRead s q ks).any (fun e => e.2.2.2)) (setTracked q (setRead s q ks) s))) := by
  subst hk
  show execReadSet i s = _
  unfold execReadSet
  rw [runOp_serves h (by simp [hc])]
  dsimp only
  rw [if_neg (by omega), if_neg (by omega), if_neg (Decidable.not_not.mpr hl)]
  unfold setBody setRead setTracked
  simp only [List.flatMap_map] <;> rfl

/-- A READ-SET that lists too many objects. -/
theorem execReadSet_many {i : Fin 48} {q : Tag} {o : Op} (h : Serves s i.val q o) (hc : o.code = 0x11) (h2 : 2 ≤ o.data.length)
    (hn : 2048 < at_ o.data 0 2) : exec (.readSet i) s = .next (answer i.val 0x60 [] s) := by
  show execReadSet i s = _
  unfold execReadSet
  rw [runOp_serves h (by simp [hc])]
  dsimp only
  rw [if_neg (by omega), if_pos hn]

/-- A READ-SET whose length is not that of its list. -/
theorem execReadSet_short {i : Fin 48} {q : Tag} {o : Op} (h : Serves s i.val q o) (hc : o.code = 0x11) (hn : at_ o.data 0 2 ≤ 2048)
    (hl : o.data.length ≠ 2 + 3 * at_ o.data 0 2) : exec (.readSet i) s = .next (answer i.val 0x31 [] s) := by
  show execReadSet i s = _
  unfold execReadSet
  rw [runOp_serves h (by simp [hc])]
  dsimp only
  rw [if_neg (Nat.not_lt.mpr hn), if_pos hl, ite_self]

/-- Settles O22, by the length of the list and of its entries. -/
theorem readSetAnswers : Obligations.ReadSetAnswers := by
  unfold Obligations.ReadSetAnswers
  refine ⟨?_, ?_⟩
  · intro i q o s h hc
    by_cases hl : at_ o.data 0 2 ≤ 2048 ∧ o.data.length = 2 + 3 * at_ o.data 0 2
    · have step := execReadSet_list h hc hl.1 hl.2 rfl
      refine ⟨_, step, exec_frame step, by omega, by omega, ?_⟩
      rintro - - body hb
      obtain rfl : body = setBody s q (listedKeys (o.data.drop 2) (at_ o.data 0 2)) := hb
      split
      · exact h.answers h.carries
      · exact h.answers (h.carries.congr getTag_setTracked).markUsed
    · by_cases hn : at_ o.data 0 2 ≤ 2048
      · have step := execReadSet_short h hc hn (fun e => hl ⟨hn, e⟩)
        exact ⟨_, step, exec_frame step, by omega, fun _ _ _ => h.answers h.carries, fun _ e => absurd ⟨hn, e⟩ hl⟩
      · by_cases h2 : 2 ≤ o.data.length
        · have step := execReadSet_many h hc h2 (Nat.lt_of_not_le hn)
          exact ⟨_, step, exec_frame step, fun _ _ => h.answers h.carries, by omega, by omega⟩
        · obtain ⟨t, step⟩ := everyCommandCompletes (.readSet i) s
          exact ⟨t, step, exec_frame step, by omega, by omega, by omega⟩
  · intro i q o s h hc
    have step : exec (.unknownOpcode i) s = .next (answer i.val 0x31 [] s) := by
      show execUnknownOpcode i s = _
      unfold execUnknownOpcode
      rw [runOp_serves h (by simpa using hc)]
    exact ⟨_, step, exec_frame step, h.answers h.carries⟩

/-! ### Transactions (R32, R250, R255) -/

/-- A BEGIN is carried out with one byte of data. -/
theorem execBegin_serves {i : Fin 48} {q : Tag} {o : Op} (h : Serves s i.val q o) (hc : o.code = 0x30) (hd : o.data.length = 1) :
    exec (.begin_ i) s = .next (if 1 < at_ o.data 0 1 then answer i.val 0x32 [] s
      else if 4 ≤ s.srv.txns.length then answer i.val 0x42 [] s
      else if at_ o.data 0 1 = 1 then openTxn i.val q true none s
      else match s.current with
        | none => answer i.val 0x10 [] s
        | some p => if s.pins.all (fun e => decide (e.1 ≠ p.fn)) ∧ 2 ≤ s.pins.length then answer i.val 0x10 [] s
          else openTxn i.val q false (some p) s) := by
  show execBegin i s = _
  unfold execBegin
  rw [runOp_serves h (by simp [hc])]
  exact congrArg _ (if_neg (Decidable.not_not.mpr hd))

/-- The transaction that a BEGIN opens. -/
def begunTxn (q : Tag) (rw : Bool) (snap : Option Snap) (s : State) : Txn :=
  { id := nextTxnId s, port := q.port, sess := q.sess, rw := rw, fn := s.fn, last := s.fn, ord := s.srv.acks, snap := snap }

/-- The frame that a transaction pins joins the pins. -/
def pinSnap (snap : Option Snap) (s : State) : State :=
  match snap with
  | some p => if s.pins.any (fun e => decide (e.1 = p.fn)) then s else { s with pins := s.pins ++ [(p.fn, p)] }
  | none => s

theorem pinSnap_srv {snap : Option Snap} : (pinSnap snap s).srv = s.srv := by
  unfold pinSnap
  split
  · split <;> rfl
  · rfl

theorem pinSnap_pins {p : Snap} : ∃ e ∈ (pinSnap (some p) s).pins, e.1 = p.fn := by
  unfold pinSnap
  dsimp only
  split <;> rename_i hp
  · simpa using hp
  · exact ⟨(p.fn, p), by simp, rfl⟩

/-- The machine when a transaction has been opened. -/
def withTxn (q : Tag) (rw : Bool) (snap : Option Snap) (s : State) : State :=
  pinSnap snap (setSrv (fun v => { v with txns := v.txns ++ [begunTxn q rw snap s], lastId := nextTxnId s }) s)

/-- Its ID stands in the response header. -/
def headId (i n : Nat) (s : State) : State := match getTag s i with | some t => setTag i (some { t with hdr := n }) s | none => s

theorem Carries.headId {i n : Nat} {q : Tag} (h : Carries s i q) : Carries (headId i n s) i q := by
  obtain ⟨t, ht, hb, ho, hr⟩ := h
  unfold Machine.headId
  rw [ht]
  exact ⟨_, getTag_setTag_self, hb, ho, hr⟩

theorem headId_same {i n : Nat} : SameSrv s.srv (headId i n s).srv := by
  unfold headId
  split
  · exact setTag_same
  · exact SameSrv.refl _

theorem headId_srv {i n : Nat} : Only 262144 s (headId i n s) := by
  unfold headId
  split
  · exact setTag_only (.refl _) (.refl _ _)
  · exact .refl _ _

theorem genOf_pinSnap {snap : Option Snap} {f : Nat} : (pinSnap snap s).genOf f = s.genOf f := by
  unfold pinSnap
  split
  · split <;> rfl
  · rfl

theorem headId_pins {i n : Nat} : (headId i n s).pins = s.pins := headId_srv.pins rfl

theorem genOf_headId {i n f : Nat} : (headId i n s).genOf f = s.genOf f := by
  unfold headId
  split <;> rfl

theorem headId_fn {i n : Nat} : (headId i n s).fn = s.fn := headId_srv.fn rfl

/-- A transaction opens and is answered. -/
theorem openTxn_eq {i : Nat} {q : Tag} {rw : Bool} {snap : Option Snap} : openTxn i q rw snap s =
    answer i 0 (le 6 (match snap with | some p => p.fn | none => 0) ++ le 4 (match snap with | some p => p.gen | none => s.genOf s.fn) ++
      le 2 (if rw then 16384 else 0)) (headId i (nextTxnId s) (withTxn q rw snap s)) := by
  have unfolded : openTxn i q rw snap s = answer i 0 (le 6 (match snap with | some p => p.fn | none => 0) ++
      le 4 (match snap with | some p => p.gen | none => (headId i (nextTxnId s) (withTxn q rw snap s)).genOf (headId i (nextTxnId s) (withTxn q rw snap s)).fn) ++
      le 2 (if rw then 16384 else 0)) (headId i (nextTxnId s) (withTxn q rw snap s)) := rfl
  have hg : (headId i (nextTxnId s) (withTxn q rw snap s)).genOf (headId i (nextTxnId s) (withTxn q rw snap s)).fn = s.genOf s.fn := by
    rw [genOf_headId, headId_fn]
    unfold withTxn
    rw [genOf_pinSnap]
    unfold pinSnap
    split
    · split <;> rfl
    · rfl
  rw [unfolded, hg]

theorem withTxn_srv {q : Tag} {rw : Bool} {snap : Option Snap} :
    (withTxn q rw snap s).srv = { s.srv with txns := s.srv.txns ++ [begunTxn q rw snap s], lastId := nextTxnId s } := pinSnap_srv

/-- The IDs of the transactions when one has opened. -/
theorem openTxn_ids {i : Nat} {q : Tag} {rw : Bool} {snap : Option Snap} :
    (openTxn i q rw snap s).srv.txns.map (fun x => x.id) = s.srv.txns.map (fun x => x.id) ++ [nextTxnId s] := by
  rw [openTxn_eq, answer_same.2, headId_same.2, withTxn_srv]
  simp [begunTxn]

theorem openTxn_lastId {i : Nat} {q : Tag} {rw : Bool} {snap : Option Snap} : (openTxn i q rw snap s).srv.lastId = nextTxnId s := by
  rw [openTxn_eq, answer_lastId, headId_same.1]
  dsimp only
  rw [withTxn_srv]

theorem openTxn_pins {i : Nat} {q : Tag} {rw : Bool} {snap : Option Snap} : (openTxn i q rw snap s).pins = (withTxn q rw snap s).pins := by
  rw [openTxn_eq, answer_srv.pins rfl, headId_pins]

theorem openTxn_replies {i : Nat} {q : Tag} {o : Op} {rw : Bool} {snap : Option Snap} (h : Serves s i q o) :
    Replies (openTxn i q rw snap s) i q o 0 (le 6 (match snap with | some p => p.fn | none => 0) ++
      le 4 (match snap with | some p => p.gen | none => s.genOf s.fn) ++ le 2 (if rw then 16384 else 0)) := by
  rw [openTxn_eq]
  refine h.answers (Carries.headId (h.carries.congr ?_))
  show tget none (withTxn q rw snap s).srv.tags i = _
  rw [withTxn_srv]
  rfl

/-- Settles O24, by the mode of the BEGIN and the transactions and pins that stand. -/
theorem beginOpensTransactions : Obligations.BeginOpensTransactions := by
  unfold Obligations.BeginOpensTransactions
  intro i q o s h hc hd
  have step := execBegin_serves h hc hd
  refine ⟨_, step, exec_frame step, ?_, ?_, ?_, ?_, ?_⟩
  · intro hm h4
    rw [if_neg (by omega), if_pos h4]
    exact h.answers h.carries
  · intro hm h4 hp
    rw [if_neg (by omega), if_neg (by omega), if_neg (by omega), hp]
    exact h.answers h.carries
  · intro p hm h4 hp hpin h2
    rw [if_neg (by omega), if_neg (by omega), if_neg (by omega), hp]
    dsimp only
    rw [if_pos ⟨by simpa using hpin, h2⟩]
    exact ⟨h.answers h.carries, answer_srv.pins rfl⟩
  · intro hm h4
    rw [if_neg (by omega), if_neg (by omega), if_pos hm]
    exact ⟨openTxn_replies h, openTxn_pins, openTxn_ids, openTxn_lastId⟩
  · intro p hm h4 hp h2
    rw [if_neg (by omega), if_neg (by omega), if_neg (by omega), hp]
    dsimp only
    rw [if_neg (fun e => by omega)]
    refine ⟨openTxn_replies h, ?_, openTxn_ids⟩
    rw [openTxn_pins]
    exact pinSnap_pins

/-- Settles O27, by the limits that the two commands look at. -/
theorem transactionsTimeOut : Obligations.TransactionsTimeOut := by
  unfold Obligations.TransactionsTimeOut
  intro n x s hx
  have counted : (endTxn n (s.bump K.txnTimeouts)).srv = { s.srv with txns := s.srv.txns.filter (fun y => !decide (y.id = n)) } ∧
      (endTxn n (s.bump K.txnTimeouts)).get K.txnTimeouts = (s.get K.txnTimeouts + 1) % 2 ^ oBits K.txnTimeouts ∧
      ∀ k, k ≠ K.txnTimeouts → (endTxn n (s.bump K.txnTimeouts)).get k = s.get k :=
    ⟨rfl, get_bump_self, fun k hk => get_bump_ne hk.symm⟩
  have pin : exec (.pinExpiry n) s = .next (if x.rw = false ∧ x.fn + 2048 ≤ s.fn then endTxn n (s.bump K.txnTimeouts) else s) := by
    show execPinExpiry n s = _
    unfold execPinExpiry
    rw [hx]
  have out : exec (.txnTimeout n) s = .next (if x.rw ∧ x.last + 30720 ≤ s.fn then endTxn n (s.bump K.txnTimeouts) else s) := by
    show execTxnTimeout n s = _
    unfold execTxnTimeout
    rw [hx]
  refine ⟨fun hr hf => ?_, fun hr hf => ?_, fun hf => ?_, fun hf => ?_⟩
  · rw [if_pos ⟨hr, hf⟩] at pin
    exact ⟨_, pin, exec_frame pin, counted⟩
  · rw [if_pos ⟨hr, hf⟩] at out
    exact ⟨_, out, exec_frame out, counted⟩
  · rw [pin, if_neg (fun e => by omega)]
  · rw [out, if_neg (fun e => by omega)]

/-! ### Subscriptions (R256, R257) -/

/-- Of 64 numbers one is free of fewer subscriptions. -/
theorem exists_freeSub {l : List Subn} (h : l.length < 64) : ∃ n, ((List.range 64).find? (fun n => l.all (fun x => decide (x.id ≠ n)))) = some n := by
  rw [← Option.isSome_iff_exists, List.find?_isSome]
  refine Classical.byContradiction fun hn => ?_
  have all : List.range 64 ⊆ l.map (fun x => x.id) := by
    intro n hm
    refine Classical.byContradiction fun hf => hn ⟨n, hm, ?_⟩
    simp only [List.all_eq_true, decide_eq_true_eq]
    rintro x hx rfl
    exact hf (List.mem_map_of_mem hx)
  have := List.nodup_range.length_le_of_subset all
  simp only [List.length_range, List.length_map] at this
  omega

/-- The subscription that a SUBSCRIBE adds. -/
def newSub (s : State) (q : Tag) (d : Bytes) : Subn :=
  { id := ((List.range 64).find? (fun n => s.srv.subs.all (fun x => decide (x.id ≠ n)))).getD 0, port := q.port, sess := q.sess,
    trig := at_ d 0 1, param := at_ d 2 2, level := toInt 64 (at_ d 4 8), hyst := at_ d 12 4, objs := listedKeys (d.drop 16) (at_ d 1 1),
    from_ := match s.current with | some p => p.fn + 1 | none => s.fn }

theorem newSub_fresh {q : Tag} {d : Bytes} (h : s.srv.subs.length < 64) : ∀ y ∈ s.srv.subs, y.id ≠ (newSub s q d).id := by
  obtain ⟨n, hn⟩ := exists_freeSub h
  have free := List.find?_some hn
  simp only [List.all_eq_true, decide_eq_true_eq] at free
  unfold newSub
  rw [hn]
  exact free

/-- The subscriptions that an UNSUBSCRIBE removes. -/
def unsubbed (q : Tag) (n : Nat) (x : Subn) : Bool :=
  decide (x.port = q.port) && decide (x.sess = q.sess) && (decide (n = 0xFF) || decide (x.id = n))

/-- Settles O28, by the two operations' last branch. -/
theorem subscriptionsComeAndGo : Obligations.SubscriptionsComeAndGo := by
  unfold Obligations.SubscriptionsComeAndGo
  refine ⟨?_, ?_⟩
  · intro i q o s h hc h16 hl ht h1 hn hp hr h8 h64
    have step : exec (.subscribe i) s = .next (answer i.val 0 (le 1 (newSub s q o.data).id ++ le 6 (newSub s q o.data).from_)
        (setSrv (fun v => { v with subs := v.subs ++ [newSub s q o.data] }) s)) := by
      show execSubscribe i s = _
      unfold execSubscribe
      rw [runOp_serves h (by simp [hc])]
      dsimp only
      rw [if_neg (by omega), if_neg (fun e => by
        rcases e with e | e | e | ⟨e, k⟩
        · omega
        · omega
        · omega
        · exact hp e k), hr]
      exact congrArg _ (if_neg (by omega))
    refine ⟨_, newSub s q o.data, step, exec_frame step, ?_, rfl, rfl, rfl, rfl, rfl, newSub_fresh h64, h.answers (h.carries.congr rfl)⟩
    rw [answer_subs]
    rfl
  · intro i q o s h hc hd
    have step : exec (.unsubscribe i) s = .next (answer i.val 0 (le 1 (s.srv.subs.filter (unsubbed q (at_ o.data 0 1))).length)
        (setSrv (fun v => { v with subs := v.subs.filter (fun x => !unsubbed q (at_ o.data 0 1) x) }) s)) := by
      show execUnsubscribe i s = _
      unfold execUnsubscribe
      rw [runOp_serves h (by simp [hc])]
      exact congrArg _ (if_neg (Decidable.not_not.mpr hd))
    have left : (answer i.val 0 (le 1 (s.srv.subs.filter (unsubbed q (at_ o.data 0 1))).length)
        (setSrv (fun v => { v with subs := v.subs.filter (fun x => !unsubbed q (at_ o.data 0 1) x) }) s)).srv.subs =
        s.srv.subs.filter (fun x => !unsubbed q (at_ o.data 0 1) x) := by rw [answer_subs]; rfl
    have count : s.srv.subs.length - (s.srv.subs.filter (fun x => !unsubbed q (at_ o.data 0 1) x)).length =
        (s.srv.subs.filter (unsubbed q (at_ o.data 0 1))).length := by
      have both := List.length_eq_countP_add_countP (l := s.srv.subs) (unsubbed q (at_ o.data 0 1))
      rw [List.countP_eq_length_filter, List.countP_eq_length_filter] at both
      simp only [Bool.not_eq_true, Bool.decide_eq_false] at both
      omega
    refine ⟨_, step, exec_frame step, ?_, ?_⟩
    · intro x
      rw [left, List.mem_filter]
      simp only [unsubbed, Bool.not_eq_true', Bool.and_eq_false_iff, Bool.or_eq_false_iff, decide_eq_false_iff_not]
      refine and_congr_right fun _ => ?_
      grind
    · rw [left, count]
      exact h.answers (h.carries.congr rfl)

end Sys2Proof.Machine
end

section
/-! PROOF. What a commit or method posts (R34, R253, R326, R349, R432), and the raw writes (R334, R347). -/

namespace Sys2Proof.Machine

variable {s : State}

/-! ### Posted stores -/

/-- A store that begins keeps its page, its acknowledgement and its raw bytes. -/
structure JobField {α : Type} (g : Job → α) : Prop where
  begin_ : ∀ (s : State) (j : Job), g (beginJob s j) = g j

theorem jobField_page : JobField (fun j => j.page) := ⟨fun _ _ => rfl⟩
theorem jobField_ack : JobField (fun j => (j.ack, j.raw)) := ⟨fun _ _ => rfl⟩

theorem startHead_map {α : Type} {g : Job → α} (h : JobField g) : (startHead s).jobs.map g = s.jobs.map g := by
  unfold startHead
  split <;> rename_i hj
  · split
    · rfl
    · rw [(holdSlots_only (.refl 8192) (.refl _ _)).jobs rfl, hj]
      simp [h.begin_]
  · rfl

/-- A posted store joins the end of the queue. -/
theorem postJob_map {α : Type} {g : Job → α} (h : JobField g) {j : Job} : (postJob j s).jobs.map g = s.jobs.map g ++ [g j] := by
  unfold postJob
  rw [startHead_map h]
  simp

/-- The last of the posted stores. -/
theorem postJob_last {j : Job} : ∃ x, (postJob j s).jobs.getLast? = some x ∧ x.ack = j.ack ∧ x.raw = j.raw := by
  have h := congrArg List.getLast? (postJob_map (s := s) (j := j) jobField_ack)
  rw [List.getLast?_map, List.getLast?_concat] at h
  obtain ⟨x, hx, e⟩ := Option.map_eq_some_iff.mp h
  exact ⟨x, hx, congrArg Prod.fst e, congrArg Prod.snd e⟩

/-- The stores of the pages of a commit. -/
def postPages (vals : List (Nat × Nat)) (ps : List Nat) (s : State) : State :=
  ps.foldl (fun s p => postJob { page := p, fn := s.fn, ovr := vals.filter (fun e => decide (pageOf e.1 = p)) } s) s

theorem postPages_pages {vals : List (Nat × Nat)} {ps : List Nat} :
    (postPages vals ps s).jobs.map (fun j => j.page) = s.jobs.map (fun j => j.page) ++ ps := by
  induction ps generalizing s with
  | nil => exact (List.append_nil _).symm
  | cons p ps ih =>
    refine ih.trans ?_
    rw [postJob_map jobField_page, List.append_assoc]
    rfl

theorem postPages_only {vals : List (Nat × Nat)} {ps : List Nat} : Only 2147491840 s (postPages vals ps s) :=
  Only.foldl (fun _ _ h => postJob_only (.refl _) h) (.refl _ _)

/-- The request waits, and no second COMMIT is taken up. -/
def heldBusy (i : Nat) (s : State) : State := setSrv (fun v => { v with busy := true }) (holdTag i s)

theorem heldBusy_only {i : Nat} : Only 262144 s (heldBusy i s) := setSrv_only (.refl _) (holdTag_only (.refl _) (.refl _ _))

theorem holdTag_waits {i : Nat} {q : Tag} (h : getTag s i = some q) : getTag (holdTag i s) i = some { q with wait := true } := by
  unfold holdTag
  rw [h]
  exact getTag_setTag_self

theorem postCommit_eq {i txn nb port role : Nat} {eff : Eff} {vals : List (Nat × Nat)} : postCommit i txn nb port role eff vals s =
    postRecord eff (.commit i txn nb port role eff vals) (postPages vals (storePages vals) (heldBusy i s)) := rfl

/-- The record of a commit goes to its own page. -/
theorem postRecord_commit {eff : Eff} {ack : Ack} (h : ∀ k, eff ≠ .activate k) :
    postRecord eff ack s = postJob { page := 936 + Config.pageWithin 0 % 48, fn := s.fn, ack := ack } s := by
  unfold postRecord
  split
  · exact absurd rfl (h _)
  · rfl

theorem recordPage_commit {eff : Eff} (h : ∀ k, eff ≠ .activate k) : recordPage s eff = 936 + Config.pageWithin 0 % 48 := by
  unfold recordPage
  split
  · exact absurd rfl (h _)
  · rfl

/-- What is posted from a state `u` that differs from `s` in what ends with the commit. -/
theorem posted_of {u t : State} {i txn nb : Nat} {q : Tag} {eff : Eff} {vals : List (Nat × Nat)} {p : Nat} {j : Job} {v : State}
    (tag : getTag u i = some q) (obj : u.dict = s.dict) (com : u.commits = s.commits) (jobs : u.jobs = s.jobs)
    (rec_ : recordPage s eff = p) (hp : j.page = p) (ack : j.ack = .commit i txn nb (portNo q.port) (roleOf s q) eff vals)
    (before : Only 8589934592 (postPages vals (storePages vals) (heldBusy i u)) v) (ht : t = postJob j v) : Posted s t i txn nb q eff vals := by
  subst ht
  have pages := postPages_only (s := heldBusy i u) (vals := vals) (ps := storePages vals)
  have post := postJob_only (a0 := j) (s := v) (.refl _) (.refl _ _)
  have srv : (postJob j v).srv = (heldBusy i u).srv := by rw [post.srv rfl, before.srv rfl, pages.srv rfl]
  refine ⟨?_, fun k => get_of_dict ?_ k, ?_, ?_, ?_, ?_⟩
  · rw [srv]; rfl
  · rw [post.dict rfl, before.dict rfl, pages.dict rfl, heldBusy_only.dict rfl, obj]
  · rw [post.commits rfl, before.commits rfl, pages.commits rfl, heldBusy_only.commits rfl, com]
  · rw [postJob_map jobField_page, before.jobs rfl, postPages_pages, heldBusy_only.jobs rfl, jobs, rec_, hp]
  · obtain ⟨x, hx, e, -⟩ := postJob_last (s := v) (j := j)
    exact ⟨x, hx, e.trans ack⟩
  · refine ⟨{ q with wait := true }, ?_, rfl, rfl⟩
    have held : getTag (heldBusy i u) i = some { q with wait := true } := holdTag_waits tag
    unfold getTag at held ⊢
    rw [srv]
    exact held

/-- A commit, or a method other than ACTIVATE, is posted. -/
theorem postCommit_posted {u : State} {i txn nb : Nat} {q : Tag} {eff : Eff} {vals : List (Nat × Nat)} (h : ∀ k, eff ≠ .activate k)
    (tag : getTag u i = some q) (obj : u.dict = s.dict) (com : u.commits = s.commits) (jobs : u.jobs = s.jobs) :
    Posted s (postCommit i txn nb (portNo q.port) (roleOf s q) eff vals u) i txn nb q eff vals := by
  rw [postCommit_eq, postRecord_commit h]
  exact posted_of tag obj com jobs (recordPage_commit h) rfl rfl (.refl _ _) rfl

theorem postCommit_pieces {i txn nb port role : Nat} {eff : Eff} {vals : List (Nat × Nat)} (h : ∀ k, eff ≠ .activate k) :
    Only 2147753984 s (postCommit i txn nb port role eff vals s) := by
  rw [postCommit_eq, postRecord_commit h]
  have held : Only 2147753984 s (heldBusy i s) := Only.trans ((Within.refl _).of rfl) (.refl _ s) heldBusy_only
  exact postJob_only ((Within.refl _).of rfl) (Only.trans ((Within.refl _).of rfl) held postPages_only)

/-! ### COMMIT (R253, R254) -/

/-- A COMMIT that passes every stage ends its transaction and is posted. -/
theorem execCommit_passes {i : Fin 48} {q : Tag} {o : Op} {x : Txn} (h : Serves s i.val q o) (hc : o.code = 0x31) (hd : o.data = [])
    (hx : findTxn s q.txn q.port q.sess = some x) (hrw : x.rw = true) (hov : x.ovr = none) (hv : stagedVals x ≠ [])
    (hm : mayCommit i.val s = true) (hf : commitFails s (roleOf s q) x (stagedVals x) q.fnf q.fn = none) :
    exec (.commit i) s = .next (postCommit i.val x.id q.fnf (portNo q.port) (roleOf s q) .write (stagedVals x) (endTxn x.id s)) := by
  show execCommit i s = _
  unfold execCommit
  rw [runOp_serves h (by simp [hc])]
  dsimp only
  rw [if_neg (Decidable.not_not.mpr hd), hx]
  dsimp only
  rw [if_neg (by simp [hrw]), hov]
  dsimp only
  rw [if_neg hv, if_pos hm]
  unfold commitTxn
  dsimp only
  rw [hf]

theorem endTxns_only' {w : Txn → Bool} : Only 1074003968 s (endTxns w s) := endTxns_only (.refl _) (.refl _ _)

/-- The stores of a commit leave the transactions alone. -/
theorem postCommit_txns {i txn nb port role : Nat} {eff : Eff} {vals : List (Nat × Nat)} (h : ∀ k, eff ≠ .activate k) :
    (postCommit i txn nb port role eff vals s).srv.txns = s.srv.txns := by
  rw [postCommit_eq, postRecord_commit h, (postJob_only (.refl _) (.refl _ _)).srv rfl, postPages_only.srv rfl]
  unfold heldBusy holdTag
  split <;> rfl

/-- Settles O26, by the stores that `postCommit` posts. -/
theorem commitPostsItsStores : Obligations.CommitPostsItsStores := by
  unfold Obligations.CommitPostsItsStores
  intro i q o x s h hc hd hx hrw hov hv hm hf
  have step := execCommit_passes h hc hd hx hrw hov hv hm hf
  refine ⟨_, step, exec_frame step, postCommit_posted nofun h.tag rfl rfl rfl, ?_⟩
  rw [postCommit_txns (eff := .write) nofun]
  rfl

/-! ### Methods that are posted like a commit (R246) -/

/-- A method takes its turn: it is posted, or waits. -/
theorem turn_frame {i : Nat} {port role : Nat} {eff : Eff} {vals : List (Nat × Nat)} (h : ∀ k, eff ≠ .activate k) :
    Frame [.bill, .srv, .jobs] s (if mayCommit i s = true then postCommit i 0 0 port role eff vals s else waitTurn i s) :=
  (Only.ite (fun _ => postCommit_pieces h) (fun _ => waitTurn_only ((Within.refl _).of rfl) (.refl _ _))).frame (by decide)

theorem answer_frame {i st : Nat} {data : Bytes} : Frame [.bill, .srv, .jobs] s (answer i st data s) := answer_srv.frame (by decide)

theorem Calls.carries {c : Instr} {i : Fin 48} {q : Tag} {o : Op} (h : Calls s c i q o) : Carries s i.val q := h.serves.carries

/-- The answer to a call that changes nothing. -/
theorem Calls.refused {c : Instr} {i : Fin 48} {q : Tag} {o : Op} {st : Nat} {data : Bytes} (h : Calls s c i q o) :
    Replies (answer i.val st data s) i.val q o st data ∧ (answer i.val st data s).jobs = s.jobs :=
  ⟨h.serves.answers h.carries, answer_srv.jobs rfl⟩

/-- A call that may be taken up is posted. -/
theorem Calls.posted {c : Instr} {i : Fin 48} {q : Tag} {o : Op} {eff : Eff} {vals : List (Nat × Nat)} (h : Calls s c i q o)
    (ne : ∀ k, eff ≠ .activate k) (hm : mayCommit i.val s = true) :
    Posted s (if mayCommit i.val s = true then postCommit i.val 0 0 (portNo q.port) (roleOf s q) eff vals s else waitTurn i.val s)
      i.val 0 0 q eff vals := by
  rw [if_pos hm]
  exact postCommit_posted ne h.serves.tag rfl rfl rfl

theorem execResume_calls {i : Fin 48} {q : Tag} {o : Op} (h : Calls s (.resume i) i q o) :
    exec (.resume i) s = .next (if s.live K.calState = 1 then answer i.val 0x20 [] s
      else if mayCommit i.val s = true then
        postCommit i.val 0 0 (portNo q.port) (roleOf s q) .resume [(K.installToken, at_ o.data 0 8)] s
      else waitTurn i.val s) := by
  show execResume i s = _
  unfold execResume
  rw [runMethod_calls h rfl]

theorem execReinstate_calls {i : Fin 48} {q : Tag} {o : Op} (h : Calls s (.reinstate i) i q o) :
    exec (.reinstate i) s = .next (if 6 < at_ o.data 0 1 then answer i.val 0x32 [] s
      else if 3 ≤ at_ o.data 0 1 ∧ roleOf s q < 5 then answer i.val 0x20 [] s
      else if at_ o.data 0 1 < 3 ∧ s.live K.calState ≠ 1 then answer i.val 0x22 [] s
      else if unitCount (at_ o.data 0 1) ≤ at_ o.data 1 2 ∨ unitRetired s (at_ o.data 0 1) (at_ o.data 1 2) = false then answer i.val 0x32 [] s
      else if laneGone s (at_ o.data 0 1) (at_ o.data 1 2) = true then
        answer i.val 0x43 (failData (K.laneFState (at_ o.data 1 2 / 8)) 0) s
      else if mayCommit i.val s = true then
        postCommit i.val 0 0 (portNo q.port) (roleOf s q) (.reinstate (at_ o.data 0 1) (at_ o.data 1 2)) [] s
      else waitTurn i.val s) := by
  show execReinstate i s = _
  unfold execReinstate
  rw [runMethod_calls h rfl]

theorem execResolve_calls {i : Fin 48} {q : Tag} {o : Op} (h : Calls s (.resolve i) i q o) :
    exec (.resolve i) s = .next (if 1 < at_ o.data 0 1 ∨ 1 < at_ o.data 2 1 ∨
        (if at_ o.data 0 1 = 0 then s.cfg s.fn K.twinCount else 8) ≤ at_ o.data 1 1 then answer i.val 0x32 [] s
      else if copyUsable s (if at_ o.data 0 1 = 0 then hostCopy (at_ o.data 1 1) (at_ o.data 2 1 == 1)
        else legalCopy (at_ o.data 1 1) (at_ o.data 2 1 == 1)) = false then answer i.val 0x43 [] s
      else if mayCommit i.val s = true then
        postCommit i.val 0 0 (portNo q.port) (roleOf s q) (.resolve (decide (at_ o.data 0 1 = 1)) (at_ o.data 1 1) (at_ o.data 2 1)) [] s
      else waitTurn i.val s) := by
  show execResolve i s = _
  unfold execResolve
  rw [runMethod_calls h rfl]

/-- A RESTORE of a generation that is not there. -/
theorem execRestore_none {i : Fin 48} {q : Tag} {o : Op} (h : Calls s (.restore i) i q o)
    (hb : s.tk.backs.find? (fun b => b.valid && decide (b.gen = at_ o.data 0 4)) = none) :
    exec (.restore i) s = .next (answer i.val 0x32 [] s) := by
  show execRestore i s = _
  unfold execRestore
  rw [runMethod_calls h rfl]
  dsimp only
  rw [hb]

theorem execRestore_some {i : Fin 48} {q : Tag} {o : Op} {b : Backup} (h : Calls s (.restore i) i q o)
    (hb : s.tk.backs.find? (fun b => b.valid && decide (b.gen = at_ o.data 0 4)) = some b) :
    exec (.restore i) s = .next (if at_ o.data 4 1 = 0 ∨ 4 ≤ at_ o.data 4 1 then answer i.val 0x32 [] s
      else if mayCommit i.val s = true then postCommit i.val 0 0 (portNo q.port) (roleOf s q) (.restore (at_ o.data 0 4) (at_ o.data 4 1))
        (if bit (at_ o.data 4 1) 1 = true then restoredVals s b else []) s
      else waitTurn i.val s) := by
  show execRestore i s = _
  unfold execRestore
  rw [runMethod_calls h rfl]
  dsimp only
  rw [hb]

theorem execActivate_calls {i : Fin 48} {q : Tag} {o : Op} (h : Calls s (.activate i) i q o) :
    exec (.activate i) s = .next (activateOp i.val q o s) := by
  show execActivate i s = _
  unfold execActivate
  rw [runMethod_calls h rfl]

section
variable {i : Fin 48} {q : Tag} {o : Op}

/-- RESUME is posted outside calibration state (R198). -/
theorem resume_posts (h : Calls s (.resume i) i q o) :
    ∃ t, exec (.resume i) s = .next t ∧ Frame [.bill, .srv, .jobs] s t ∧
      (s.live K.calState = 1 → Replies t i.val q o 0x20 [] ∧ t.jobs = s.jobs) ∧
      (s.live K.calState ≠ 1 → mayCommit i.val s = true → Posted s t i.val 0 0 q .resume [(K.installToken, at_ o.data 0 8)]) := by
  have step := execResume_calls h
  by_cases hcal : s.live K.calState = 1
  · rw [if_pos hcal] at step
    exact ⟨_, step, answer_frame, fun _ => h.refused, fun e => absurd hcal e⟩
  · rw [if_neg hcal] at step
    exact ⟨_, step, turn_frame nofun, fun e => absurd e hcal, fun _ hm => h.posted nofun hm⟩

/-- REINSTATE is posted for a RETIRED unit that the role may reinstate (R234). -/
theorem reinstate_posts {kind num : Nat} (h : Calls s (.reinstate i) i q o) (hkind : kind = at_ o.data 0 1) (hnum : num = at_ o.data 1 2) :
    ∃ t, exec (.reinstate i) s = .next t ∧ Frame [.bill, .srv, .jobs] s t ∧
      (6 < kind → Replies t i.val q o 0x32 [] ∧ t.jobs = s.jobs) ∧
      (3 ≤ kind → kind ≤ 6 → roleOf s q < 5 → Replies t i.val q o 0x20 [] ∧ t.jobs = s.jobs) ∧
      (kind < 3 → s.live K.calState ≠ 1 → Replies t i.val q o 0x22 [] ∧ t.jobs = s.jobs) ∧
      (kind ≤ 6 → (3 ≤ kind → 5 ≤ roleOf s q) → (kind < 3 → s.live K.calState = 1) →
        (unitCount kind ≤ num ∨ unitRetired s kind num = false → Replies t i.val q o 0x32 [] ∧ t.jobs = s.jobs) ∧
        (num < unitCount kind → unitRetired s kind num = true →
          (laneGone s kind num = true → Replies t i.val q o 0x43 (failData (K.laneFState (num / 8)) 0) ∧ t.jobs = s.jobs) ∧
          (laneGone s kind num = false → mayCommit i.val s = true → Posted s t i.val 0 0 q (.reinstate kind num) []))) := by
  have step := execReinstate_calls h
  rw [← hkind, ← hnum] at step
  by_cases h6 : 6 < kind
  · rw [if_pos h6] at step
    exact ⟨_, step, answer_frame, fun _ => h.refused, by omega, by omega, by omega⟩
  rw [if_neg h6] at step
  by_cases hrole : 3 ≤ kind ∧ roleOf s q < 5
  · rw [if_pos hrole] at step
    exact ⟨_, step, answer_frame, by omega, fun _ _ _ => h.refused, by omega, by omega⟩
  rw [if_neg hrole] at step
  by_cases hcal : kind < 3 ∧ s.live K.calState ≠ 1
  · rw [if_pos hcal] at step
    exact ⟨_, step, answer_frame, by omega, by omega, fun _ _ => h.refused, fun _ _ e => absurd (e hcal.1) hcal.2⟩
  rw [if_neg hcal] at step
  by_cases hunit : unitCount kind ≤ num ∨ unitRetired s kind num = false
  · rw [if_pos hunit] at step
    refine ⟨_, step, answer_frame, by omega, by omega, fun a b => absurd ⟨a, b⟩ hcal, fun _ _ _ => ⟨fun _ => h.refused, fun a b => ?_⟩⟩
    rcases hunit with e | e
    · omega
    · rw [b] at e; cases e
  rw [if_neg hunit] at step
  by_cases hgone : laneGone s kind num = true
  · rw [if_pos hgone] at step
    exact ⟨_, step, answer_frame, by omega, by omega, fun a b => absurd ⟨a, b⟩ hcal,
      fun _ _ _ => ⟨fun e => absurd e hunit, fun _ _ => ⟨fun _ => h.refused, fun e => by rw [hgone] at e; cases e⟩⟩⟩
  · rw [if_neg hgone] at step
    exact ⟨_, step, turn_frame nofun, by omega, by omega, fun a b => absurd ⟨a, b⟩ hcal,
      fun _ _ _ => ⟨fun e => absurd e hunit, fun _ _ => ⟨fun e => absurd e hgone, fun _ hm => h.posted nofun hm⟩⟩⟩

/-- RESOLVE is posted for a copy that is usable (R349). -/
theorem resolve_posts {kind r w : Nat} (h : Calls s (.resolve i) i q o) (hkind : kind = at_ o.data 0 1) (hr : r = at_ o.data 1 1)
    (hw : w = at_ o.data 2 1) :
    ∃ t, exec (.resolve i) s = .next t ∧ Frame [.bill, .srv, .jobs] s t ∧
      (1 < kind ∨ 1 < w ∨ (kind = 0 ∧ s.cfg s.fn K.twinCount ≤ r) ∨ (kind = 1 ∧ 8 ≤ r) → Replies t i.val q o 0x32 [] ∧ t.jobs = s.jobs) ∧
      (kind ≤ 1 → w ≤ 1 → (kind = 0 → r < s.cfg s.fn K.twinCount) → (kind = 1 → r < 8) →
        ∀ p, p = (if kind = 0 then hostCopy r (w == 1) else legalCopy r (w == 1)) →
          (copyUsable s p = false → Replies t i.val q o 0x43 [] ∧ t.jobs = s.jobs) ∧
          (copyUsable s p = true → mayCommit i.val s = true → Posted s t i.val 0 0 q (.resolve (decide (kind = 1)) r w) [])) := by
  have step := execResolve_calls h
  rw [← hkind, ← hr, ← hw] at step
  have range : (1 < kind ∨ 1 < w ∨ (if kind = 0 then s.cfg s.fn K.twinCount else 8) ≤ r) ↔
      (1 < kind ∨ 1 < w ∨ (kind = 0 ∧ s.cfg s.fn K.twinCount ≤ r) ∨ (kind = 1 ∧ 8 ≤ r)) := by
    split <;> omega
  by_cases hbad : 1 < kind ∨ 1 < w ∨ (kind = 0 ∧ s.cfg s.fn K.twinCount ≤ r) ∨ (kind = 1 ∧ 8 ≤ r)
  · rw [if_pos (range.mpr hbad)] at step
    exact ⟨_, step, answer_frame, fun _ => h.refused, by omega⟩
  rw [if_neg (fun e => hbad (range.mp e))] at step
  by_cases hcopy : copyUsable s (if kind = 0 then hostCopy r (w == 1) else legalCopy r (w == 1)) = false
  · rw [if_pos hcopy] at step
    refine ⟨_, step, answer_frame, fun e => absurd e hbad, ?_⟩
    rintro - - - - p rfl
    exact ⟨fun _ => h.refused, fun e => by rw [hcopy] at e; cases e⟩
  · rw [if_neg hcopy] at step
    refine ⟨_, step, turn_frame nofun, fun e => absurd e hbad, ?_⟩
    rintro - - - - p rfl
    exact ⟨fun e => absurd e hcopy, fun _ hm => h.posted nofun hm⟩

/-- RESTORE is posted for a valid generation and a mask of Table 12.15 (R358). -/
theorem restore_posts {g mask : Nat} (h : Calls s (.restore i) i q o) (hg : g = at_ o.data 0 4) (hmask : mask = at_ o.data 4 1) :
    ∃ t, exec (.restore i) s = .next t ∧ Frame [.bill, .srv, .jobs] s t ∧
      ((∀ b ∈ s.tk.backs, b.gen = g → b.valid = false) ∨ mask = 0 ∨ 4 ≤ mask → Replies t i.val q o 0x32 [] ∧ t.jobs = s.jobs) ∧
      (∀ b, s.tk.backs.find? (fun b => b.valid && decide (b.gen = g)) = some b → mask ≠ 0 → mask < 4 → mayCommit i.val s = true →
        Posted s t i.val 0 0 q (.restore g mask) (if bit mask 1 then restoredVals s b else [])) := by
  subst hg hmask
  cases hb : s.tk.backs.find? (fun b => b.valid && decide (b.gen = at_ o.data 0 4)) with
  | none => exact ⟨_, execRestore_none h hb, answer_frame, fun _ => h.refused, nofun⟩
  | some b =>
    have step := execRestore_some h hb
    have found := List.find?_some hb
    simp only [Bool.and_eq_true, decide_eq_true_eq] at found
    by_cases hm : at_ o.data 4 1 = 0 ∨ 4 ≤ at_ o.data 4 1
    · rw [if_pos hm] at step
      exact ⟨_, step, answer_frame, fun _ => h.refused, by omega⟩
    · rw [if_neg hm] at step
      refine ⟨_, step, turn_frame nofun, ?_, ?_⟩
      · rintro (e | e)
        · have := e b (List.mem_of_find?_eq_some hb) found.2
          rw [found.1] at this; cases this
        · exact absurd e hm
      · rintro b' hb' - - hmay
        obtain rfl := Option.some.inj hb'
        exact h.posted nofun hmay

/-- The copy of a legal record that the next store goes to depends on the pages and their stores alone. -/
theorem legalTarget_congr {u : State} {n : Nat} (hp : u.pages = s.pages) (hs : u.seals = s.seals) (hj : u.jobs = s.jobs) :
    legalTarget u n = legalTarget s n := by
  cases u; cases s
  subst hp hs hj
  rfl

/-- The store of legal record `n` as it stands, to the copy that is next. -/
def legalJob (n : Nat) (ack : Ack) (v : State) : Job :=
  { page := legalCopy n (legalTarget v n).1, fn := v.fn, own := some ((legalTarget v n).2 % 2 ^ 32, recVals v n), ack := ack }

/-- The record of an activation is the store of a legal record. -/
theorem postRecord_activate {k : Nat} {ack : Ack} {v : State} (h : ack ≠ .none) :
    postRecord (.activate k) ack v = postWrite (legalJob (Config.pageWithin 1 % 8) ack v) v := by
  show storeRec _ _ _ _ = _
  unfold storeRec
  exact if_neg (fun e => h e.1)

/-- An activation is posted like a commit, its record among the legal ones. -/
theorem activate_posted {u : State} {txn nb k : Nat} (tag : getTag u i.val = some q) (obj : u.dict = s.dict)
    (com : u.commits = s.commits) (jobs : u.jobs = s.jobs) (hp : u.pages = s.pages) (hs : u.seals = s.seals) :
    Posted s (postCommit i.val txn nb (portNo q.port) (roleOf s q) (.activate k) [] u) i.val txn nb q (.activate k) [] := by
  have target : legalTarget (heldBusy i.val u) (Config.pageWithin 1 % 8) = legalTarget s (Config.pageWithin 1 % 8) :=
    legalTarget_congr ((heldBusy_only.pages rfl).trans hp) ((heldBusy_only.seals rfl).trans hs) ((heldBusy_only.jobs rfl).trans jobs)
  have page : recordPage s (.activate k) = legalCopy (Config.pageWithin 1 % 8) (legalTarget (heldBusy i.val u) (Config.pageWithin 1 % 8)).1 := by
    rw [target]; rfl
  rw [postCommit_eq, postRecord_activate (ack := .commit i.val txn nb (portNo q.port) (roleOf s q) (.activate k) []) nofun]
  refine posted_of tag obj com jobs page rfl rfl ?_ rfl
  show Only 8589934592 (heldBusy i.val u) (if _ then heldBusy i.val u else takeWrite _ (heldBusy i.val u))
  exact Only.ite (fun _ => .refl _ _) (fun _ => takeWrite_only (.refl _) (.refl _ _))

/-- A caller that holds the lease restarts its time. -/
theorem touchLease_holds {l : Lease} (hl : s.img.lease = some l) (hh : holds s q = true) :
    touchLease q s = { s with img := { s.img with lease := some { l with lastFn := s.fn } } } := by
  unfold touchLease
  rw [hl]
  exact if_pos hh

/-- ACTIVATE is posted for a VERIFIED lease of the caller (R380). -/
theorem activate_posts (h : Calls s (.activate i) i q o) :
    ∃ t, exec (.activate i) s = .next t ∧
      (s.img.lease = none ∨ leaseState s ≠ 2 → Replies t i.val q o 0x10 [] ∧ Frame [.srv] s t) ∧
      (∀ l, s.img.lease = some l → leaseState s = 2 → holds s q = true → sealFits s (targetSlot s) = true →
        (q.fn + 3686400 < at_ o.data 0 6 → Replies t i.val q o 0x32 [] ∧ Frame [.srv] s t) ∧
        (at_ o.data 0 6 ≤ q.fn + 3686400 → mayCommit i.val s = true →
          Posted s t i.val 0 (at_ o.data 0 6) q (.activate (targetSlot s)) [] ∧ Frame [.img, .bill, .srv, .jobs, .pages] s t ∧
          t.img.lease = some { l with lastFn := s.fn })) := by
  have refused : ∀ {st : Nat}, Replies (answer i.val st [] s) i.val q o st [] ∧ Frame [.srv] s (answer i.val st [] s) :=
    ⟨h.refused.1, answer_srv.frame (by decide)⟩
  refine ⟨_, execActivate_calls h, ?_, ?_⟩
  · intro hl
    have busy : activateOp i.val q o s = answer i.val 0x10 [] s := by
      unfold activateOp
      dsimp only
      split
      · rfl
      · rename_i l e
        exact if_pos (hl.resolve_left (by rw [e]; nofun))
    rw [busy]
    exact refused
  · intro l hl hst hh hfit
    have op : activateOp i.val q o s = if q.fn + 3686400 < at_ o.data 0 6 then answer i.val 0x32 [] s
        else if mayCommit i.val s = true then
          postCommit i.val 0 (at_ o.data 0 6) (portNo q.port) (roleOf s q) (.activate (targetSlot s)) [] (touchLease q s)
        else waitTurn i.val s := by
      unfold activateOp
      rw [hl]
      dsimp only
      rw [if_neg (Decidable.not_not.mpr hst), if_neg (by simp [hh]), if_neg (by simp [hfit]), if_neg h.serves.mode]
    rw [op]
    refine ⟨fun hf => ?_, fun hf hm => ?_⟩
    · rw [if_pos hf]
      exact refused
    · rw [if_neg (Nat.not_lt.mpr hf), if_pos hm, touchLease_holds hl hh]
      refine ⟨activate_posted h.serves.tag rfl rfl rfl rfl rfl, ?_, ?_⟩
      · refine Only.frame (m := 10737721344) ?_ (by decide)
        rw [← touchLease_holds hl hh]
        exact postCommit_only ((Within.refl _).of rfl) (touchLease_only ((Within.refl _).of rfl) (.refl _ _))
      · rw [(postCommit_only (.refl _) (.refl _ _)).img rfl]

end

/-- Settles O40, a method at a time. -/
theorem methodsPostStores : Obligations.MethodsPostStores := by
  unfold Obligations.MethodsPostStores
  exact ⟨fun _ _ _ _ h => resume_posts h, fun _ _ _ _ _ _ h hk hn => reinstate_posts h hk hn,
    fun _ _ _ _ _ _ _ h hk hr hw => resolve_posts h hk hr hw, fun _ _ _ _ _ _ h hg hm => restore_posts h hg hm,
    fun _ _ _ _ h => activate_posts h⟩

end Sys2Proof.Machine
end

section
/-! PROOF. The raw writes of pages and of host records (R334, R347), and WRITE in a state that opens one transaction ID twice. -/

namespace Sys2Proof.Machine

variable {s : State}

/-! ### PAGE_WRITE (R334) -/

theorem execPageWrite_calls {i : Fin 48} {q : Tag} {o : Op} (h : Calls s (.pageWrite i) i q o) :
    exec (.pageWrite i) s = .next (if 1024 ≤ at_ o.data 0 2 then answer i.val 0x32 [] s
      else if mayRawWrite s (roleOf s q) (at_ o.data 0 2) = false then answer i.val 0x20 [] s
      else if pageBusy s (at_ o.data 0 2) = true then s
      else
        let s := holdTag i.val s
        let ks := if at_ o.data 0 2 < 984 then rawChanges (at_ o.data 0 2) (o.data.drop 2) s else []
        let s := setRaw (at_ o.data 0 2) (o.data.drop 2) s
        let s := if at_ o.data 0 2 < 256 then legalNote 0 s.fn (portNo q.port) (roleOf s q) 1 K.pageWrite s else s
        postJob { page := at_ o.data 0 2, fn := s.fn, raw := some (o.data.drop 2), ack := .page i.val ks } s) := by
  show execPageWrite i s = _
  unfold execPageWrite
  rw [runMethod_calls h rfl]

/-- The machine when a page has taken raw bytes and, in QUARTER-0, the legal note. -/
def rawTaken (i p : Nat) (q : Tag) (d : Bytes) (s : State) : State :=
  let s := setRaw p d (holdTag i s)
  if p < 256 then legalNote 0 s.fn (portNo q.port) (roleOf s q) 1 K.pageWrite s else s

section
variable {i p x : Nat} {q : Tag} {d : Bytes}

/-- A page that takes raw bytes holds them, and no other page changes. -/
theorem setRaw_raw : (tget {} (setRaw p d s).pages p).raw = some d := by
  unfold setRaw modPage tmod
  dsimp only
  rw [tget_tset_self]

theorem setRaw_ne (h : x ≠ p) : tget {} (setRaw p d s).pages x = tget {} s.pages x := by
  unfold setRaw modPage tmod
  dsimp only
  rw [tget_tset_ne h.symm, (rawObjects_only (.refl 4) (.refl _ s)).pages rfl]

/-- In the host area they give no object. -/
theorem setRaw_host (h : 984 ≤ p) : (setRaw p d s).dict = s.dict := by
  unfold setRaw rawObjects modPage
  rw [if_pos h]

theorem note_only {m : Nat} {t : State} (w : Within 33554436 m) : Only m t
    (if p < 256 then legalNote 0 t.fn (portNo q.port) (roleOf t q) 1 K.pageWrite t else t) :=
  Only.ite (fun _ => legalNote_only w (.refl _ _)) (fun _ => .refl _ _)

theorem rawTaken_pages : (rawTaken i p q d s).pages = (setRaw p d (holdTag i s)).pages := (note_only (.refl _)).pages rfl
theorem rawTaken_srv : (rawTaken i p q d s).srv = (holdTag i s).srv :=
  ((note_only (.refl _)).srv rfl).trans ((setRaw_only (.refl _) (.refl _ _)).srv rfl)
theorem rawTaken_jobs : (rawTaken i p q d s).jobs = s.jobs :=
  ((note_only (.refl _)).jobs rfl).trans (((setRaw_only (.refl _) (.refl _ _)).jobs rfl).trans ((holdTag_only (.refl _) (.refl _ _)).jobs rfl))

theorem rawTaken_host (h : 984 ≤ p) : (rawTaken i p q d s).dict = s.dict := by
  unfold rawTaken
  dsimp only
  rw [if_neg (by omega), setRaw_host h, (holdTag_only (.refl _) (.refl _ _)).dict rfl]

end

/-- What PAGE_WRITE brings about, once it may write (R334). -/
theorem pageWrite_stores {i : Nat} {p : Nat} {q : Tag} {d : Bytes} {j : Job} (hq : getTag s i = some q) (hp : j.page = p)
    (hraw : j.raw = some d) {ks : List Nat} (hack : j.ack = .page i ks) :
    (tget {} (postJob j (rawTaken i p q d s)).pages p).raw = some d ∧
    (∀ x, x ≠ p → tget {} (postJob j (rawTaken i p q d s)).pages x = tget {} s.pages x) ∧
    (postJob j (rawTaken i p q d s)).jobs.map (fun j => j.page) = s.jobs.map (fun j => j.page) ++ [p] ∧
    (∃ j' ks, (postJob j (rawTaken i p q d s)).jobs.getLast? = some j' ∧ j'.raw = some d ∧ j'.ack = .page i ks) ∧
    (984 ≤ p → ∀ k, (postJob j (rawTaken i p q d s)).get k = s.get k) ∧
    ∃ q', getTag (postJob j (rawTaken i p q d s)) i = some q' ∧ q'.wait = true ∧ q'.res = q.res := by
  have post := postJob_only (a0 := j) (s := rawTaken i p q d s) (.refl _) (.refl _ _)
  have held := holdTag_only (a0 := i) (s := s) (.refl _) (.refl _ _)
  refine ⟨?_, fun x hx => ?_, ?_, ?_, fun hh k => get_of_dict ?_ k, { q with wait := true }, ?_, rfl, rfl⟩
  · rw [post.pages rfl, rawTaken_pages, setRaw_raw]
  · rw [post.pages rfl, rawTaken_pages, setRaw_ne hx, held.pages rfl]
  · rw [postJob_map jobField_page, rawTaken_jobs, hp]
  · obtain ⟨x, hx, ha, hr⟩ := postJob_last (s := rawTaken i p q d s) (j := j)
    exact ⟨x, ks, hx, hr.trans hraw, ha.trans hack⟩
  · rw [post.dict rfl, rawTaken_host hh]
  · have waits := holdTag_waits hq
    unfold getTag at waits ⊢
    rw [post.srv rfl, rawTaken_srv]
    exact waits

/-! ### TWIN_WRITE (R347) -/

theorem execTwinWrite_calls {i : Fin 48} {q : Tag} {o : Op} (h : Calls s (.twinWrite i) i q o) :
    exec (.twinWrite i) s = .next (if s.cfg s.fn K.twinCount ≤ at_ o.data 0 1 then answer i.val 0x32 [] s
      else if (storeWaits s (hostCopy (at_ o.data 0 1) false) || storeWaits s (hostCopy (at_ o.data 0 1) true)) = true then s
      else match twinTarget s (at_ o.data 0 1) with
        | none => answer i.val 0x32 [] s
        | some (b, n) => postWrite { page := hostCopy (at_ o.data 0 1) b, fn := s.fn, raw := some (copyBytes n (o.data.drop 1)), ack := .twin i.val n }
          (holdTag i.val s)) := by
  show execTwinWrite i s = _
  unfold execTwinWrite
  exact congrArg _ (runMethod_calls h rfl)

/-- A page is busy only while a store of it waits or runs. -/
theorem pageBusy_of_waits {p : Nat} (h : storeWaits s p = false) : pageBusy s p = false := by
  unfold storeWaits at h
  unfold pageBusy
  split <;> rename_i hj
  · rw [hj] at h
    simp only [List.any_cons, Bool.or_eq_false_iff] at h
    exact h.1
  · rfl

/-- A write of raw bytes to a page that no store holds enters the page at once. -/
theorem postWrite_raw {j : Job} {d : Bytes} (hb : pageBusy s j.page = false) (hr : j.raw = some d) :
    postWrite j s = postJob j (modPage j.page (fun x => { x with raw := some d, rawVals := rawBase s j.page, own := none }) s) := by
  unfold postWrite takeWrite
  rw [hb, hr]
  rfl

/-- What it brings about. -/
theorem postWrite_stores {j : Job} {d : Bytes} (hb : pageBusy s j.page = false) (hr : j.raw = some d) :
    (tget {} (postWrite j s).pages j.page).raw = some d ∧ (∀ x, x ≠ j.page → tget {} (postWrite j s).pages x = tget {} s.pages x) ∧
    (postWrite j s).jobs.map (fun j => j.page) = s.jobs.map (fun j => j.page) ++ [j.page] ∧
    ∃ j', (postWrite j s).jobs.getLast? = some j' ∧ j'.raw = some d ∧ j'.ack = j.ack := by
  rw [postWrite_raw hb hr]
  refine ⟨?_, fun x hx => ?_, postJob_map jobField_page, ?_⟩
  · rw [(postJob_only (.refl _) (.refl _ _)).pages rfl]
    unfold modPage tmod
    dsimp only
    rw [tget_tset_self]
  · rw [(postJob_only (.refl _) (.refl _ _)).pages rfl]
    exact tget_tset_ne hx.symm
  · obtain ⟨x, hx, ha, hr'⟩ := postJob_last (j := j)
      (s := modPage j.page (fun x => { x with raw := some d, rawVals := rawBase s j.page, own := none }) s)
    exact ⟨x, hx, hr'.trans hr, ha⟩

theorem hostCopy_ne {r : Nat} {b : Bool} : hostCopy r (!b) ≠ hostCopy r b := by
  cases b <;> simp [hostCopy, b2n]

/-- PAGE_WRITE, case by case. -/
theorem pageWrite_writes {i : Fin 48} {q : Tag} {o : Op} {p : Nat} (h : Calls s (.pageWrite i) i q o) (hp : p = at_ o.data 0 2) :
    ∃ t, exec (.pageWrite i) s = .next t ∧ Frame (writes (.pageWrite i)) s t ∧
      (1024 ≤ p → Replies t i.val q o 0x32 [] ∧ Frame [.srv] s t) ∧
      (p < 1024 → mayRawWrite s (roleOf s q) p = false → Replies t i.val q o 0x20 [] ∧ Frame [.srv] s t) ∧
      (p < 1024 → mayRawWrite s (roleOf s q) p = true →
        (pageBusy s p = true → t = s) ∧
        (pageBusy s p = false → (tget {} t.pages p).raw = some (o.data.drop 2) ∧ (∀ x, x ≠ p → tget {} t.pages x = tget {} s.pages x) ∧
          t.jobs.map (fun j => j.page) = s.jobs.map (fun j => j.page) ++ [p] ∧
          (∃ j ks, t.jobs.getLast? = some j ∧ j.raw = some (o.data.drop 2) ∧ j.ack = .page i.val ks) ∧
          (984 ≤ p → ∀ k, t.get k = s.get k) ∧ ∃ q', getTag t i.val = some q' ∧ q'.wait = true ∧ q'.res = q.res)) := by
  have refused : ∀ {st : Nat}, Replies (answer i.val st [] s) i.val q o st [] ∧ Frame [.srv] s (answer i.val st [] s) :=
    ⟨h.refused.1, answer_srv.frame (by decide)⟩
  have step := execPageWrite_calls h
  rw [← hp] at step
  by_cases h1024 : 1024 ≤ p
  · rw [if_pos h1024] at step
    exact ⟨_, step, exec_frame step, fun _ => refused, by omega, by omega⟩
  rw [if_neg h1024] at step
  by_cases hmay : mayRawWrite s (roleOf s q) p = false
  · rw [if_pos hmay] at step
    exact ⟨_, step, exec_frame step, by omega, fun _ _ => refused, fun _ e => by rw [hmay] at e; cases e⟩
  rw [if_neg hmay] at step
  by_cases hbusy : pageBusy s p = true
  · rw [if_pos hbusy] at step
    exact ⟨_, step, exec_frame step, by omega, fun _ e => absurd e hmay, fun _ _ => ⟨fun _ => rfl, fun e => by rw [hbusy] at e; cases e⟩⟩
  · rw [if_neg hbusy] at step
    exact ⟨_, step, exec_frame step, by omega, fun _ e => absurd e hmay, fun _ _ => ⟨fun e => absurd e hbusy,
      fun _ => pageWrite_stores h.serves.tag rfl rfl rfl⟩⟩

/-- TWIN_WRITE, case by case. -/
theorem twinWrite_writes {i : Fin 48} {q : Tag} {o : Op} {r : Nat} (h : Calls s (.twinWrite i) i q o) (hr : r = at_ o.data 0 1) :
    ∃ t, exec (.twinWrite i) s = .next t ∧ Frame [.bill, .srv, .jobs, .pages] s t ∧
      (s.cfg s.fn K.twinCount ≤ r ∨ (storeWaits s (hostCopy r false) = false ∧ storeWaits s (hostCopy r true) = false ∧ twinTarget s r = none) →
        Replies t i.val q o 0x32 [] ∧ Frame [.srv] s t) ∧
      (r < s.cfg s.fn K.twinCount → storeWaits s (hostCopy r false) = true ∨ storeWaits s (hostCopy r true) = true → t = s) ∧
      (∀ b n, r < s.cfg s.fn K.twinCount → storeWaits s (hostCopy r false) = false → storeWaits s (hostCopy r true) = false →
        twinTarget s r = some (b, n) →
        (tget {} t.pages (hostCopy r b)).raw = some (copyBytes n (o.data.drop 1)) ∧
        tget {} t.pages (hostCopy r (!b)) = tget {} s.pages (hostCopy r (!b)) ∧
        t.jobs.map (fun j => j.page) = s.jobs.map (fun j => j.page) ++ [hostCopy r b] ∧
        ∃ j, t.jobs.getLast? = some j ∧ j.raw = some (copyBytes n (o.data.drop 1)) ∧ j.ack = .twin i.val n) := by
  have refused : Replies (answer i.val 0x32 [] s) i.val q o 0x32 [] ∧ Frame [.srv] s (answer i.val 0x32 [] s) :=
    ⟨h.refused.1, answer_srv.frame (by decide)⟩
  have step := execTwinWrite_calls h
  rw [← hr] at step
  by_cases hcount : s.cfg s.fn K.twinCount ≤ r
  · rw [if_pos hcount] at step
    exact ⟨_, step, exec_frame step, fun _ => refused, by omega, by omega⟩
  rw [if_neg hcount] at step
  by_cases hwait : (storeWaits s (hostCopy r false) || storeWaits s (hostCopy r true)) = true
  · rw [if_pos hwait] at step
    rw [Bool.or_eq_true] at hwait
    refine ⟨_, step, exec_frame step, ?_, fun _ _ => rfl, ?_⟩
    · rintro (e | ⟨a, b, -⟩)
      · exact absurd e hcount
      · rw [a, b] at hwait; simp at hwait
    · intro b n _ h1 h2
      rw [h1, h2] at hwait; simp at hwait
  rw [if_neg hwait] at step
  have free : storeWaits s (hostCopy r false) = false ∧ storeWaits s (hostCopy r true) = false := by simpa using hwait
  have idle : ¬(storeWaits s (hostCopy r false) = true ∨ storeWaits s (hostCopy r true) = true) := by rw [free.1, free.2]; simp
  cases ht : twinTarget s r with
  | none =>
    rw [ht] at step
    exact ⟨_, step, exec_frame step, fun _ => refused, fun _ e => absurd e idle, nofun⟩
  | some bn =>
    obtain ⟨b, n⟩ := bn
    rw [ht] at step
    refine ⟨_, step, exec_frame step, ?_, fun _ e => absurd e idle, ?_⟩
    · rintro (e | ⟨-, -, e⟩)
      · exact absurd e hcount
      · cases e
    · intro b' n' _ _ _ e
      cases e
      have held := holdTag_only (a0 := i.val) (s := s) (.refl _) (.refl _ _)
      have idleCopy : pageBusy (holdTag i.val s) (hostCopy r b) = false := by
        have := pageBusy_of_waits (s := s) (p := hostCopy r b) (match b with | false => free.1 | true => free.2)
        unfold pageBusy at this ⊢
        rwa [held.jobs rfl]
      obtain ⟨h1, h2, h3, h4⟩ := postWrite_stores (s := holdTag i.val s) (d := copyBytes n (o.data.drop 1))
        (j := { page := hostCopy r b, fn := s.fn, raw := some (copyBytes n (o.data.drop 1)), ack := .twin i.val n }) idleCopy rfl
      rw [held.jobs rfl] at h3
      exact ⟨h1, by rw [h2 _ hostCopy_ne, held.pages rfl], h3, h4⟩

/-- Settles O41, by the two writes. -/
theorem rawWritesAreStored : Obligations.RawWritesAreStored := by
  unfold Obligations.RawWritesAreStored
  exact ⟨fun _ _ _ _ _ h hp => pageWrite_writes h hp, fun _ _ _ _ _ h hr => twinWrite_writes h hr⟩

/-! ### A transaction ID that is open twice -/

/-- The transaction of the WRITE: its staging has no room left. -/
def fullTxn : Txn := { id := 9, port := .spi, sess := none, rw := true, fn := 0, last := 0, ord := 0, stage := [⟨K.capHoldoff, some 0, 16384⟩] }

/-- Another transaction of the same ID, of another port. -/
def otherTxn : Txn := { id := 9, port := .t1s, sess := none, rw := true, fn := 0, last := 0, ord := 0 }

/-- A WRITE of CAP_ENABLE. -/
def capWrite : Op := ⟨0x20, K.capEnable / 256, K.capEnable % 256, [1]⟩

/-- The WRITE's request, inside the full transaction. -/
def fullReq : Tag := { port := .spi, tag := 1, txn := 9, full := true, begun := true, ops := [capWrite], fn := 0 }

/-- A request of the other port inside the other transaction, which its FN holds no longer. -/
def otherReq : Tag := { port := .t1s, tag := 1, txn := 9, full := true, ops := [capWrite], fn := 0 }

/-- A unit in RUN whose object server holds both. -/
def twiceOpen : State :=
  { mode := .run, ready := true, srv := { tags := [(0, some fullReq), (16, some otherReq)], txns := [fullTxn, otherTxn] } }

theorem twiceOpen_serves : Serves twiceOpen 0 fullReq capWrite := ⟨by decide, by decide, rfl, rfl, Or.inr (by decide)⟩

/-- Refutes O23: nothing in the statement keeps transaction IDs apart.  Where two ports hold one ID, the answer to the WRITE that found no
room lets the other port's request start, and its start notes the transaction's use under the ID alone, which replaces what both had staged.
BEGIN never opens an ID twice (R250), so that a run from reset does not reach this state. -/
theorem not_writesAreStaged : ¬ Obligations.WritesAreStaged := by
  unfold Obligations.WritesAreStaged
  intro h
  obtain ⟨t, step, -, -, -, staged, -⟩ := h 0 fullReq capWrite twiceOpen twiceOpen_serves rfl (by decide)
  have row : ∃ r, rowOf capWrite.key = some r ∧ r.has 0 = true := ⟨_, rfl, by decide⟩
  obtain ⟨r, hrow, hT⟩ := row
  obtain ⟨-, -, -, -, -, -, full⟩ := staged r hrow (by decide) hT
  obtain ⟨-, same⟩ := full fullTxn (by decide) rfl (by decide) (by decide)
  have now : exec (.write 0) twiceOpen = .next t → t.srv.txns.map (fun y => y.stage) = [[], []] := by
    intro e
    have := Host.Outcome.next.inj e
    subst this
    decide +kernel
  rw [now step] at same
  exact absurd same (by decide)

end Sys2Proof.Machine
end

section
/-! PROOF. Handshakes, sessions and the frames of network hosts (R289 to R295). -/

namespace Sys2Proof.Machine

variable {s : State}

/-! ### What requests and refusals leave of the object server -/

/-- The sessions, the request frames, the subscriptions and the frames not yet authenticated are the same. -/
structure SameHosts (v w : Srv) : Prop where
  sess : w.sess = v.sess
  inq  : w.inq = v.inq
  subs : w.subs = v.subs
  net  : w.net = v.net
  hands : w.hands = v.hands

theorem SameHosts.refl (v : Srv) : SameHosts v v := ⟨rfl, rfl, rfl, rfl, rfl⟩

theorem SameHosts.trans {u v w : Srv} (h : SameHosts u v) (k : SameHosts v w) : SameHosts u w :=
  ⟨k.sess.trans h.sess, k.inq.trans h.inq, k.subs.trans h.subs, k.net.trans h.net, k.hands.trans h.hands⟩

theorem SameSrv.hosts {v w : Srv} (h : SameSrv v w) : SameHosts v w := by
  obtain ⟨e, -⟩ := h
  exact ⟨by rw [e], by rw [e], by rw [e], by rw [e], by rw [e]⟩

theorem refuse_hosts {r : ReqFrame} {tag st : Nat} : SameHosts s.srv (refuse r tag st s).srv := by
  unfold refuse
  dsimp only
  split <;> split <;> exact ⟨rfl, rfl, rfl, rfl, rfl⟩

/-- A refusal counts at most in the NO_TAG counter of its port. -/
theorem get_refuse {r : ReqFrame} {tag st k : Nat} (h : K.noTag (portNo r.port) ≠ k) : (refuse r tag st s).get k = s.get k := by
  unfold refuse
  dsimp only
  split <;> split
  · exact get_bump_ne h
  · rfl
  · exact get_bump_ne h
  · rfl

theorem freeTag_same {i : Nat} : SameSrv s.srv (freeTag i s).srv := setTag_same.trans startReqs_same

theorem leave12_hosts {f : OutFrame} : SameHosts s.srv (leave12 f s).srv := by
  unfold leave12
  dsimp only
  split
  · refine SameHosts.trans ?_ freeTag_same.hosts
    exact ⟨rfl, rfl, rfl, rfl, rfl⟩
  · exact ⟨rfl, rfl, rfl, rfl, rfl⟩

theorem foldl_hosts {α : Type} {g : State → α → State} (h : ∀ (s : State) (a : α), SameHosts s.srv (g s a).srv) (l : List α) :
    SameHosts s.srv (l.foldl g s).srv := by
  induction l generalizing s with
  | nil => exact .refl _
  | cons a l ih => exact (h s a).trans ih

theorem cancelReqs_hosts {p : Port} {x : Option Nat} : SameHosts s.srv (cancelReqs p x s).srv :=
  foldl_hosts (fun _ _ => freeTag_same.hosts) _

theorem dropFrames_hosts {p : Port} {x : Option Nat} : SameHosts s.srv (dropFrames p x s).srv :=
  (foldl_hosts (g := fun s f => leave12 f s) (fun _ _ => leave12_hosts) _).trans ⟨rfl, rfl, rfl, rfl, rfl⟩

/-! ### The end of a session (R292, R293) -/

/-- The subscriptions left when those of a session are removed. -/
def subsWithout (p : Port) (x : Option Nat) (l : List Subn) : List Subn := l.filter (fun y => !(decide (y.port = p) && decide (y.sess = x)))

theorem mem_subsWithout {p : Port} {x : Option Nat} {l : List Subn} {y : Subn} :
    y ∈ subsWithout p x l ↔ y ∈ l ∧ ¬(y.port = p ∧ y.sess = x) := by
  unfold subsWithout
  rw [List.mem_filter]
  simp only [Bool.not_eq_true', Bool.and_eq_false_iff, decide_eq_false_iff_not]
  exact and_congr_right fun _ => Decidable.not_and_iff_or_not.symm

theorem dropHolders_srv {g : Holder → Bool} : (dropHolders g s).srv = s.srv := (dropHolders_only (.refl _) (.refl _ s)).srv rfl

/-- The object server when a network session has ended. -/
theorem endSess_net {k : Nat} {x : Sess} (h : getSess s k = some x) (hp : x.port ≠ .spi) :
    (endSess k s).srv.sess = tset none s.srv.sess k none ∧ (endSess k s).srv.subs = subsWithout x.port (some k) s.srv.subs ∧
    (endSess k s).srv.net = s.srv.net ∧
    (endSess k s).srv.inq = s.srv.inq.filter (fun r => !(decide (r.port = x.port) && decide (r.sess = some k))) := by
  have cancelled : SameHosts s.srv (cancelReqs x.port (some k) s).srv := cancelReqs_hosts
  have dropped := dropFrames_hosts (s := setSess k none (dropWork x.port (some k) (cancelReqs x.port (some k) s))) (p := x.port) (x := some k)
  unfold endSess
  rw [h]
  dsimp only
  rw [if_neg hp, dropHolders_srv]
  refine ⟨dropped.sess.trans ?_, dropped.subs.trans ?_, dropped.net.trans cancelled.net, ?_⟩
  · exact congrArg (fun l => tset none l k none) cancelled.sess
  · exact congrArg (subsWithout x.port (some k)) cancelled.subs
  · exact congrArg (List.filter _) (dropped.inq.trans cancelled.inq)

/-- The sessions when one has ended. -/
theorem endSess_sess {k : Nat} {x : Sess} (h : getSess s k = some x) : (endSess k s).srv.sess = tset none s.srv.sess k none := by
  by_cases hp : x.port = .spi
  · unfold endSess
    rw [h]
    dsimp only
    rw [if_pos hp, dropHolders_srv, cancelReqs_hosts.sess]
    rfl
  · exact (endSess_net h hp).1

theorem getSess_ended {k : Nat} {x : Sess} (h : getSess s k = some x) : getSess (endSess k s) k = none := by
  unfold getSess
  rw [endSess_sess h, tget_tset_self]

/-- Settles O31, by what an end leaves. -/
theorem handshakesAndSessionsExpire : Obligations.HandshakesAndSessionsExpire := by
  unfold Obligations.HandshakesAndSessionsExpire
  refine ⟨?_, ?_, ?_⟩
  · intro i h s hh
    have step : exec (.handshakeExpiry i) s = .next (if h.fn + 1024 ≤ s.fn then setHandshake i.val none s else s) := by
      show execHandshakeExpiry i s = _
      unfold execHandshakeExpiry
      rw [hh]
    rw [step]
    exact ⟨fun hf => congrArg _ (if_pos hf), fun hf => congrArg _ (if_neg (Nat.not_le.mpr hf))⟩
  · intro k x s hx hp
    have step : exec (.sessionTimeout k) s = .next (if x.port ≠ .spi ∧ x.last + 1024 * s.cfg s.fn K.sesSessionTimeout ≤ s.fn
        then endSess k.val s else s) := by
      show execSessionTimeout k s = _
      unfold execSessionTimeout
      rw [hx]
    refine ⟨fun hf => ?_, fun hf => by rw [step, if_neg (fun e => absurd e.2 (Nat.not_le.mpr hf))]⟩
    rw [if_pos ⟨hp, hf⟩] at step
    obtain ⟨sess, subs, -, -⟩ := endSess_net hx hp
    refine ⟨_, step, exec_frame step, sess, fun y => ?_⟩
    rw [subs, mem_subsWithout]
  · intro i q o s h
    have step : exec (.endSession i) s = .next (if getSess s (at_ o.data 0 1) = none then answer i.val 0x32 [] s
        else endSess (at_ o.data 0 1) (answer i.val 0 [] s)) := by
      show execEndSession i s = _
      unfold execEndSession
      rw [runMethod_calls h rfl]
    cases hx : getSess s (at_ o.data 0 1) with
    | none =>
      rw [if_pos hx] at step
      exact ⟨_, step, exec_frame step, fun _ => ⟨h.refused.1, answer_sess⟩, fun e => absurd rfl e⟩
    | some x =>
      rw [if_neg (by rw [hx]; nofun)] at step
      have answered : getSess (answer i.val 0 [] s) (at_ o.data 0 1) = some x := by
        unfold getSess at hx ⊢
        rw [answer_sess, hx]
      refine ⟨_, step, exec_frame step, nofun, fun _ => ?_⟩
      rw [endSess_sess answered, answer_sess]

/-! ### HELLO (R291, R292) -/

/-- A device ID is never 0. -/
theorem deviceId_ne_zero {v : Nat} : deviceId s v ≠ 0 := by
  unfold deviceId
  dsimp only
  cases h : ((List.range 32).map (fun i => (v + i) % 2 ^ 32)).find?
      (fun n => decide (n ≠ 0) && decide (n ∉ (openSess s).map (fun e => e.2.dev) ++ (openHands s).map (fun e => e.2.dev))) with
  | none => exact Nat.one_ne_zero
  | some n =>
    have found := List.find?_some h
    simp only [Bool.and_eq_true, decide_eq_true_eq] at found
    exact found.1

theorem execHelloStep1_next {p : Port} {r : ReqFrame} (hrun : serverRuns s = true) (hroom : helloRoom s p = true)
    (hn : nextHello p (fun d => decide (at_ d 0 1 ≠ 2)) s = some r) : exec (.helloStep1 p) s = .next (helloOne r (dropHello r s)) := by
  show execHelloStep1 p s = _
  unfold execHelloStep1
  rw [if_pos ⟨hrun, hroom⟩, hn]

/-- The free values of a handshake: the device ID's and the device nonce's. -/
def freeValues (s : State) : (Nat × Nat) × State := ((s.draw.1, (s.draw.2.drawBytes 16).1), (s.draw.2.drawBytes 16).2)

theorem freeValues_srv : (freeValues s).2.srv = s.srv :=
  (State_drawBytes_only (s := s.draw.2) (a1 := 16) (.refl _) (State_draw_only (.refl _) (.refl _ s))).srv rfl

theorem freeValues_fn : (freeValues s).2.fn = s.fn :=
  (State_drawBytes_only (s := s.draw.2) (a1 := 16) (.refl _) (State_draw_only (.refl _) (.refl _ s))).fn rfl

/-- The handshake slot of a host without one. -/
def freeHand (s : State) : Nat := ((List.range 8).find? (fun i => decide (tget none s.srv.hands i = none))).getD 0

/-- A step 1 that finds room is answered. -/
theorem helloOne_opens {r : ReqFrame} (hl : (helloData r).length = 22) (h1 : at_ (helloData r) 0 1 = 1) (hrole : at_ (helloData r) 1 1 ≤ 5)
    (hhost : at_ (helloData r) 2 4 ≠ 0) (hold : handOf s r.port r.addr r.sport = none) (h8 : (openHands s).length < 8)
    (hfull : sessFull s r.port r.addr r.sport = false) : helloOne r s = answerStep1 r (freeHand s)
      (openHand r (freeValues s).1.1 (freeValues s).1.2 (freeValues s).2) (freeValues s).2 := by
  unfold helloOne
  dsimp only
  rw [if_neg (Decidable.not_not.mpr hl), if_neg (by omega), hold, if_neg (by rw [hfull]; exact not_or.mpr ⟨by omega, nofun⟩)]
  rfl

theorem dropHello_hosts {r : ReqFrame} : SameHosts s.srv (dropHello r s).srv := ⟨rfl, rfl, rfl, rfl, rfl⟩

/-- A step 1 takes its frame and opens no session. -/
theorem helloOne_keeps {r : ReqFrame} : (helloOne r s).srv.hello = s.srv.hello ∧ (helloOne r s).srv.sess = s.srv.sess := by
  have refused : ∀ {tag st : Nat}, (refuse r tag st s).srv.hello = s.srv.hello ∧ (refuse r tag st s).srv.sess = s.srv.sess := by
    intro tag st
    refine ⟨?_, refuse_hosts.sess⟩
    unfold refuse
    dsimp only
    split <;> split <;> rfl
  unfold helloOne
  dsimp only
  split
  · exact refused
  split
  · exact refused
  split
  · exact refused
  · refine ⟨?_, ?_⟩
    · show (freeValues s).2.srv.hello = _
      rw [freeValues_srv]
    · show (freeValues s).2.srv.sess = _
      rw [freeValues_srv]

/-- Settles O29, by the handshake that `helloOne` opens, whatever values are drawn. -/
theorem helloStep1OpensHandshake : Obligations.HelloStep1OpensHandshake := by
  unfold Obligations.HelloStep1OpensHandshake
  intro p r s hrun hroom hn
  have step := execHelloStep1_next hrun hroom hn
  refine ⟨_, step, exec_frame step, helloOne_keeps.1, helloOne_keeps.2, ?_, ?_⟩
  · intro hl h1 hrole hhost hold h8 hfull
    have opens := helloOne_opens (s := dropHello r s) hl h1 hrole hhost hold h8 hfull
    rw [opens]
    refine ⟨freeHand (dropHello r s), openHand r (freeValues (dropHello r s)).1.1 (freeValues (dropHello r s)).1.2 (freeValues (dropHello r s)).2,
      helloFrame r (freeValues (dropHello r s)).2 none true _, ?_, rfl, rfl, deviceId_ne_zero, ?_, ?_, rfl, rfl, rfl⟩
    · show tget none (tset none (freeValues (dropHello r s)).2.srv.hands (freeHand (dropHello r s)) (some _)) _ = _
      exact tget_tset_self
    · exact freeValues_fn
    · show (freeValues (dropHello r s)).2.srv.ring12 ++ _ = _
      rw [freeValues_srv]
      rfl
  · intro hl
    have refused : helloOne r (dropHello r s) = refuse r 0xFF 0x31 (dropHello r s) := by
      unfold helloOne
      exact if_pos hl
    rw [refused]
    exact refuse_hosts.hands

theorem execHelloStep2_next {p : Port} {r : ReqFrame} {j : Nat} {h : Handshake} {okm : Bytes} (hrun : serverRuns s = true)
    (hroom : helloRoom s p = true) (hn : nextHello p (fun d => decide (at_ d 0 1 = 2)) s = some r) (hl : (helloData r).length = 17)
    (hh : handOf s r.port r.addr r.sport = some (j, h)) (hk : okmOf s h = some okm) : exec (.helloStep2 p) s = .next
      (if slice okm 64 16 ≠ (helloData r).drop 1 then helloDenied r (setHandshake j none (dropHello r s))
       else if sessFull s r.port r.addr r.sport = true then refuse r 0xFF 0x10 (setHandshake j none (dropHello r s))
       else openSession r h okm (setHandshake j none (dropHello r s))) := by
  have hand : handOf (dropHello r s) r.port r.addr r.sport = some (j, h) := hh
  have key : okmOf (dropHello r s) h = some okm := hk
  show execHelloStep2 p s = _
  unfold execHelloStep2
  rw [if_pos ⟨hrun, hroom⟩, hn]
  dsimp only
  unfold helloTwo
  dsimp only
  rw [if_neg (Decidable.not_not.mpr hl), hand]
  dsimp only
  rw [key]
  rfl

/-- The machine when the session that a new one replaces has ended. -/
def oldEnded (r : ReqFrame) (s : State) : State :=
  match oldSess s r.port r.addr r.sport with
  | some e => endSess e.1 s
  | none => if r.port = .spi then dropWork .spi none s else s

theorem oldEnded_fn {r : ReqFrame} : (oldEnded r s).fn = s.fn := by
  unfold oldEnded
  split
  · exact (endSess_only (.refl _) (.refl _ _)).fn rfl
  · split <;> rfl

/-- The session that a right proof opens. -/
def newSess (r : ReqFrame) (h : Handshake) (okm : Bytes) (s : State) : Sess :=
  { port := r.port, addr := r.addr, sport := r.sport, role := h.role, host := h.host, dev := h.dev, kin := slice okm 0 32,
    kout := slice okm 32 32, high := r.ctr, win := [r.ctr], last := s.fn, opened := s.fn }

/-- The slot that it takes. -/
def freeSess (s : State) : Nat := ((List.range 16).find? (fun k => decide (getSess s k = none))).getD 0

theorem openSession_sess {r : ReqFrame} {h : Handshake} {okm : Bytes} :
    getSess (openSession r h okm s) (freeSess (oldEnded r s)) = some (newSess r h okm (oldEnded r s)) := by
  show tget none (tset none (oldEnded r s).srv.sess (freeSess (oldEnded r s)) (some (newSess r h okm (oldEnded r s)))) _ = _
  exact tget_tset_self

/-- Settles O30, by the proof and the room that step 2 finds. -/
theorem helloStep2OpensSession : Obligations.HelloStep2OpensSession := by
  unfold Obligations.HelloStep2OpensSession
  intro p r j h okm s hrun hroom hn hl hh hk
  have step := execHelloStep2_next hrun hroom hn hl hh hk
  by_cases hproof : slice okm 64 16 = (helloData r).drop 1
  · rw [if_neg (Decidable.not_not.mpr hproof)] at step
    by_cases hfull : sessFull s r.port r.addr r.sport = true
    · rw [if_pos hfull] at step
      exact ⟨_, step, exec_frame step, fun _ _ => refuse_hosts.sess, fun _ e => absurd (hfull.symm.trans e) (by decide), fun e => absurd hproof e⟩
    · rw [if_neg hfull] at step
      exact ⟨_, step, exec_frame step, fun _ e => absurd e hfull,
        fun _ _ => ⟨_, _, openSession_sess, rfl, rfl, rfl, rfl, rfl, rfl, rfl, rfl, rfl, oldEnded_fn⟩, fun e => absurd hproof e⟩
  · rw [if_pos hproof] at step
    refine ⟨_, step, exec_frame step, fun e => absurd e hproof, fun e => absurd e hproof, fun _ => ⟨refuse_hosts.sess, fun hp => ?_⟩⟩
    unfold helloDenied
    rw [get_refuse]
    · exact get_bump_self
    · cases hport : r.port with
      | internal => exact absurd hport hp
      | spi => decide
      | t1s => decide
      | plc => decide

/-! ### Network frames (R294, R295) -/

/-- The machine when a received frame has been taken. -/
def takenNet (r : ReqFrame) (s : State) : State := setSrv (fun v => { v with net := v.net.erase r }) s

theorem execBridleNetworkFrame_sess {p : Port} {r : ReqFrame} {k : Nat} {y : Sess} (hrun : serverRuns s = true) (hoff : portOff s p = false)
    (hn : s.srv.net.find? (fun r => decide (r.port = p)) = some r) (hl : r.bytes.length = 40 + (hdrOf r.bytes).len)
    (h1 : isStep1 (slice r.bytes 16 (hdrOf r.bytes).len) (r.bytes.drop (16 + (hdrOf r.bytes).len)) = false)
    (hhand : handOf s r.port r.addr r.sport = none) (hs : sessOf s r.port r.addr r.sport = some (k, y)) :
    exec (.bridleNetworkFrame p) s = .next (netSession r k y (r.bytes.take 16) (slice r.bytes 16 (hdrOf r.bytes).len)
      (slice (r.bytes.drop (16 + (hdrOf r.bytes).len)) 8 16) (at_ (r.bytes.drop (16 + (hdrOf r.bytes).len)) 0 8) (hdrOf r.bytes).len
      (takenNet r s)) := by
  have runs : (serverRuns (takenNet r s) &&
      !portOff (takenNet r s) p) = true := by
    show (serverRuns s && !portOff s p) = true
    rw [hrun, hoff]; rfl
  have hand : handOf (takenNet r s) r.port r.addr r.sport = none := hhand
  have sess : sessOf (takenNet r s) r.port r.addr r.sport = some (k, y) := hs
  show execBridleNetworkFrame p s = _
  unfold execBridleNetworkFrame
  rw [hn]
  dsimp only
  refine congrArg _ ((if_pos runs).trans ?_)
  show netAccept r (takenNet r s) = _
  unfold netAccept
  dsimp only
  rw [if_neg (Decidable.not_not.mpr hl), h1, if_neg (by decide), hand]
  dsimp only
  unfold netPlain
  rw [sess]

section
variable {r : ReqFrame} {k ctr n : Nat} {y : Sess} {head body tag : Bytes}

theorem netSession_bad (h : gcmOpen y.kin (le 4 y.host ++ le 8 ctr) head body tag = none) :
    netSession r k y head body tag ctr n s = s.bump K.sesAuthFails := by
  unfold netSession
  rw [h]

theorem netSession_replay (h : gcmOpen y.kin (le 4 y.host ++ le 8 ctr) head body tag ≠ none) (hr : isReplay y ctr = true) :
    netSession r k y head body tag ctr n s = s.bump K.sesReplays := by
  unfold netSession
  split
  · rename_i e; exact absurd e h
  · exact if_pos hr

theorem netSession_last (h : gcmOpen y.kin (le 4 y.host ++ le 8 ctr) head body tag ≠ none) (hr : isReplay y ctr = false)
    (hc : ctr = 2 ^ 64 - 1) : netSession r k y head body tag ctr n s = endSess k s := by
  unfold netSession
  split
  · rename_i e; exact absurd e h
  · rw [if_neg (by simp [hr])]
    exact if_pos hc

/-- The session that has taken a frame with counter `ctr`. -/
def movedWindow (y : Sess) (ctr f : Nat) : Sess :=
  { y with high := max y.high ctr, win := (ctr :: y.win).filter (fun c => decide (max y.high ctr < c + 64)), last := f }

/-- A frame of session `k` once it is opened. -/
def openedFrame (r : ReqFrame) (k ctr : Nat) (b : Bytes) : ReqFrame := { r with bytes := b, sess := some k, ctr := ctr }

theorem netSession_new {pl : Bytes} (h : gcmOpen y.kin (le 4 y.host ++ le 8 ctr) head body tag = some pl) (hr : isReplay y ctr = false)
    (hc : ctr ≠ 2 ^ 64 - 1) : netSession r k y head body tag ctr n s =
      acceptNet (openedFrame r k ctr (head ++ pl)) n (setSess k (some (movedWindow y ctr s.fn)) s) := by
  unfold netSession
  rw [h]
  dsimp only
  rw [if_neg (by simp [hr])]
  exact if_neg hc

theorem mem_movedWindow {f : Nat} (hr : isReplay y ctr = false) : ctr ∈ (movedWindow y ctr f).win := by
  unfold isReplay at hr
  rw [Bool.or_eq_false_iff, decide_eq_false_iff_not] at hr
  unfold movedWindow
  simp only [List.mem_filter, List.mem_cons, true_or, true_and, decide_eq_true_eq]
  omega

/-- A frame counted on the Ethernet port. -/
theorem counted_srv : (if r.port = .plc then s else s.bumpLive K.t1sRxFrames).srv = s.srv := by
  split
  · rfl
  · exact bumpLive_srv

/-- The frame as it waits for the object server. -/
def queuedFrame (r : ReqFrame) (n : Nat) (s : State) : ReqFrame := { r with units := creditUnits r.port n, ord := s.srv.ord }

theorem acceptNet_room
    (h : sumN (s.srv.inq.filterMap (fun f => if f.port = r.port then some f.units else none)) + creditUnits r.port n ≤ 1024) :
    (acceptNet r n s).srv = { s.srv with inq := s.srv.inq ++ [queuedFrame r n s], ord := s.srv.ord + 1 } := by
  unfold acceptNet
  dsimp only
  rw [counted_srv, if_pos h]
  unfold setSrv
  dsimp only
  rw [counted_srv]
  rfl

theorem acceptNet_net : (acceptNet r n s).srv.net = s.srv.net := by
  unfold acceptNet
  dsimp only
  have srv : (if r.port = .plc then s else s.bumpLive K.t1sRxFrames).srv = s.srv := counted_srv
  generalize (if r.port = .plc then s else s.bumpLive K.t1sRxFrames) = u at srv ⊢
  generalize (if r.port = .plc then 11 else 10) = ring
  split
  · show u.srv.net = _
    rw [srv]
  · rw [refuse_hosts.net]
    exact congrArg Srv.net srv

/-- The frames that still await their authentication stay. -/
theorem netSession_net : (netSession r k y head body tag ctr n s).srv.net = s.srv.net := by
  unfold netSession
  split
  · rfl
  split
  · rfl
  split
  · cases hx : getSess s k with
    | none => unfold endSess; rw [hx]
    | some x =>
      by_cases hp : x.port = .spi
      · unfold endSess
        rw [hx]
        dsimp only
        rw [if_pos hp, dropHolders_srv, cancelReqs_hosts.net]
        rfl
      · exact (endSess_net hx hp).2.2.1
  · exact acceptNet_net

end

/-- Settles O32, by the branch of `netSession` that the tag and the counter choose. -/
theorem networkFramesAreAuthenticated : Obligations.NetworkFramesAreAuthenticated := by
  unfold Obligations.NetworkFramesAreAuthenticated
  intro p r k y s hrun hoff hn hl h1 hhand hs
  have step := execBridleNetworkFrame_sess hrun hoff hn hl h1 hhand hs
  refine ⟨_, step, exec_frame step, fun r' hr' => by rwa [netSession_net] at hr', ?_⟩
  rintro ctr rfl v hv
  refine ⟨fun hnone => ?_, fun hsome hrep => ?_, fun hsome hrep hlast hget hport => ?_, ?_⟩
  · rw [netSession_bad (hv.symm.trans hnone)]
    exact ⟨rfl, rfl, get_bump_self⟩
  · rw [netSession_replay (hv ▸ hsome) hrep]
    exact ⟨rfl, rfl, get_bump_self⟩
  · rw [netSession_last (hv ▸ hsome) hrep hlast]
    have held : getSess (takenNet r s) k = some y := hget
    exact ⟨(endSess_net held hport).2.2.2, getSess_ended held⟩
  · intro pl hpl hrep hlast hroom
    rw [netSession_new (hv.symm.trans hpl) hrep hlast]
    have queued := acceptNet_room (r := openedFrame r k (at_ (r.bytes.drop (16 + (hdrOf r.bytes).len)) 0 8) (r.bytes.take 16 ++ pl))
      (n := (hdrOf r.bytes).len) (s := setSess k (some (movedWindow y (at_ (r.bytes.drop (16 + (hdrOf r.bytes).len)) 0 8) (takenNet r s).fn))
        (takenNet r s)) hroom
    refine ⟨queuedFrame (openedFrame r k (at_ (r.bytes.drop (16 + (hdrOf r.bytes).len)) 0 8) (r.bytes.take 16 ++ pl))
      (hdrOf r.bytes).len (takenNet r s),
      movedWindow y (at_ (r.bytes.drop (16 + (hdrOf r.bytes).len)) 0 8) s.fn, ?_, rfl, rfl, rfl, ?_, rfl, mem_movedWindow hrep, rfl⟩
    · rw [queued]
      rfl
    · unfold getSess
      rw [queued]
      show tget none (tset none (takenNet r s).srv.sess k (some _)) k = _
      exact tget_tset_self

/-! ### Datagrams (R289) -/

/-- Settles O33, by the filter's two answers. -/
theorem datagramsAreFiltered : Obligations.DatagramsAreFiltered := by
  unfold Obligations.DatagramsAreFiltered
  intro d s hup
  have step : exec (.t1sDatagramReceive d) s = .next (if badDatagram d = true then s.bumpLive K.t1sRxDiscarded
      else if (serverRuns s && ownAddr s d.dst) = true then setSrv (fun v => { v with net := v.net ++
        [{ port := .t1s, addr := d.src, sport := d.srcPort, bytes := d.payload, units := 0, ord := 0, fn := s.fn }] }) s
      else s) := by
    show execT1sDatagramReceive d s = _
    unfold execT1sDatagramReceive
    rw [if_pos hup]
  have bad : badDatagram d = true ↔
      d.ipv6 = false ∨ d.udp = false ∨ d.fragment = true ∨ d.extension = true ∨ d.dstPort ≠ 49256 ∨ d.multicast = true := by
    unfold badDatagram
    simp only [Bool.or_eq_true, Bool.not_eq_true', decide_eq_true_eq, or_assoc]
  refine ⟨_, step, exec_frame step, fun hbad => ?_, fun h6 hu hf hx hd hm hown hrun => ?_⟩
  · rw [if_pos (bad.mpr hbad)]
    exact ⟨bumpLive_srv, live_putLive_self, fun k hk => get_putLive_ne hk.symm⟩
  · rw [if_neg (fun e => by
      rcases bad.mp e with e | e | e | e | e | e
      · rw [h6] at e; cases e
      · rw [hu] at e; cases e
      · rw [hf] at e; cases e
      · rw [hx] at e; cases e
      · exact e hd
      · rw [hm] at e; cases e), if_pos (by rw [hrun, hown]; rfl)]
    exact ⟨_, rfl, rfl, rfl, rfl, rfl, rfl⟩

end Sys2Proof.Machine
end

section
/-! PROOF. Methods (R246, R349): the checks that stand before all of them, those that only read (R314, R334, R341, R352, R354), the host journal
and backups (R341, R357), and a capture that ends while captures are off (R157, R158). -/

namespace Sys2Proof.Machine

variable {s : State}

/-! ### The checks (R246) -/

/-- A command that is the EXEC of a method runs it behind the shared checks. -/
theorem methodCall_exec {c : Instr} {i : Fin 48} {ks : List Nat} {len : Nat → Bool} (h : methodCall c = some (i, ks, len)) (s : State) :
    ∃ f, exec c s = .next (runMethods i.val ks len f s) := by
  unfold methodCall at h
  split at h <;> cases h <;> exact ⟨_, rfl⟩

/-- Its objects are methods. -/
theorem methodCall_rows {c : Instr} {i : Fin 48} {ks : List Nat} {len : Nat → Bool} (h : methodCall c = some (i, ks, len)) :
    ∀ k ∈ ks, ∃ r, rowOf k = some r ∧ r.ty = .method := by
  have check : ∀ ks : List Nat, ks.all (fun k => match rowOf k with | some r => decide (r.ty = .method) | none => false) = true →
      ∀ k ∈ ks, ∃ r, rowOf k = some r ∧ r.ty = .method := by
    intro ks hks k hk
    have := List.all_eq_true.mp hks k hk
    split at this
    · rename_i r e
      exact ⟨r, e, of_decide_eq_true this⟩
    · cases this
  refine check ks ?_
  unfold methodCall at h
  split at h <;> cases h <;> decide

/-- A method whose checks fail is answered their status. -/
theorem runMethods_fails {i : Nat} {q : Tag} {o : Op} {ks : List Nat} {len : Nat → Bool} {f : Tag → Op → State → State} {n : Nat}
    (h : Serves s i q o) (hc : o.code = 0x40) (hk : o.key ∈ ks) (hn : checkExec (roleOf s q) o.key o.data len = n) (h0 : n ≠ 0) :
    runMethods i ks len f s = answer i n [] s := by
  unfold runMethods
  rw [runOp_serves h (by simp [hc, hk])]
  dsimp only
  rw [hn, if_pos h0]

/-- One that changes legal data is DENIED while a legal record is in CONFLICT or LOST (R349). -/
theorem runMethods_locked {i : Nat} {q : Tag} {o : Op} {ks : List Nat} {len : Nat → Bool} {f : Tag → Op → State → State}
    (h : Serves s i q o) (hc : o.code = 0x40) (hk : o.key ∈ ks) (hn : checkExec (roleOf s q) o.key o.data len = 0)
    (hl : legalMethod o.key = true) (hlock : legalLocked s = true) : runMethods i ks len f s = answer i 0x20 [] s := by
  unfold runMethods
  rw [runOp_serves h (by simp [hc, hk])]
  dsimp only
  rw [hn, if_neg (by decide), hl, hlock]
  rfl

/-- Settles O35, by the checks that `runMethods` makes for every method. -/
theorem methodsAreChecked : Obligations.MethodsAreChecked := by
  unfold Obligations.MethodsAreChecked
  intro c i ks len q o s hm h hc hk
  obtain ⟨f, run⟩ := methodCall_exec hm s
  obtain ⟨m, hrow, hty⟩ := methodCall_rows hm _ hk
  have replied : ∀ {st : Nat}, runMethods i.val ks len f s = answer i.val st [] s →
      ∃ t, exec c s = .next t ∧ Frame [.srv] s t ∧ Replies t i.val q o st [] := by
    intro st e
    exact ⟨_, run.trans (congrArg _ e), answer_srv.frame (by decide), h.answers h.carries⟩
  refine ⟨fun hlen => ?_, fun r hr hlen hrole => ?_, fun h0 hl hlock => replied (runMethods_locked h hc hk h0 hl hlock)⟩
  · refine replied (runMethods_fails h hc hk ?_ (by decide))
    unfold checkExec
    rw [hrow]
    dsimp only
    rw [if_neg (Decidable.not_not.mpr hty), if_pos hlen]
  · obtain rfl : m = r := Option.some.inj (hrow.symm.trans hr)
    refine replied (runMethods_fails h hc hk ?_ (by decide))
    unfold checkExec
    rw [hrow]
    dsimp only
    rw [if_neg (Decidable.not_not.mpr hty), if_neg (by simp [hlen]), if_pos hrole]

/-! ### Methods that only read -/

theorem slice_length {b : Bytes} {a n : Nat} : (slice b a n).length = n := by
  unfold slice
  simp only [List.length_append, List.length_replicate, List.length_take]
  omega

theorem imgBytesOf_length {p : Nat} {x : Img} : (imgBytesOf p x).length = 256 := by
  unfold imgBytesOf
  split
  · exact slice_length
  split
  · exact List.length_replicate
  split
  · split
    · exact slice_length
    · exact List.length_replicate
  split
  · exact slice_length
  · exact slice_length

/-- A page reads as 256 bytes. -/
theorem pageBytes_length {p : Nat} : (pageBytes s p).length = 256 := by
  unfold pageBytes
  dsimp only
  split
  · exact List.length_replicate
  · exact imgBytesOf_length

/-- Bytes that are listed by their address. -/
theorem listed_bytes {g : Nat → Byte} {n : Nat} :
    ((List.range n).map g).length = n ∧ ∀ j, j < n → ((List.range n).map g)[j]? = some (g j) := by
  refine ⟨by simp, fun j hj => ?_⟩
  rw [List.getElem?_map, List.getElem?_range hj]
  rfl

section
variable {i : Fin 48} {q : Tag} {o : Op}

theorem execEventRead_calls (h : Calls s (.eventRead i) i q o) : exec (.eventRead i) s = .next
    (if at_ o.data 4 1 < 1 ∨ 120 < at_ o.data 4 1 then answer i.val 0x32 [] s
     else answer i.val 0 (((s.tk.evs.filter (fun e => decide (at_ o.data 0 4 ≤ e.seq))).flatMap (fun e => e.entries)).take (at_ o.data 4 1)).flatten s) := by
  show execEventRead i s = _
  unfold execEventRead
  rw [runMethod_calls h rfl]

theorem execTkRead_calls (h : Calls s (.tkRead i) i q o) : exec (.tkRead i) s = .next
    (if 4000 < at_ o.data 4 2 ∨ 0x4000000 < at_ o.data 0 4 + at_ o.data 4 2 then answer i.val 0x32 [] s
     else if roleOf s q < max (tkLevel (at_ o.data 0 4)) (tkLevel (at_ o.data 0 4 + at_ o.data 4 2 - 1)) then answer i.val 0x20 [] s
     else answer i.val 0 (tkBytes s (at_ o.data 0 4) (at_ o.data 4 2)) s) := by
  show execTkRead i s = _
  unfold execTkRead
  rw [runMethod_calls h rfl]

theorem execHjRead_calls (h : Calls s (.hjRead i) i q o) : exec (.hjRead i) s = .next
    (if 4000 < at_ o.data 2 2 ∨ hjSize < at_ o.data 0 2 + at_ o.data 2 2 then answer i.val 0x32 [] s
     else answer i.val 0 ((List.range (at_ o.data 2 2)).map (fun j => BitVec.ofNat 8 (tget 0 s.pwr.hj (at_ o.data 0 2 + j)))) s) := by
  show execHjRead i s = _
  unfold execHjRead
  rw [runMethod_calls h rfl]

theorem execPageRead_calls (h : Calls s (.pageRead i) i q o) : exec (.pageRead i) s = .next
    (if 1024 ≤ at_ o.data 0 2 then answer i.val 0x32 [] s
     else answer i.val 0 (le 1 (pageStatusOf s (at_ o.data 0 2)) ++ le 6 (servingSeal s (at_ o.data 0 2)).count ++
       le 6 (servingSeal s (at_ o.data 0 2)).fn ++ pageBytes s (at_ o.data 0 2)) s) := by
  show execPageRead i s = _
  unfold execPageRead
  rw [runMethod_calls h rfl]

theorem execCycleMap_none (h : Calls s (.cycleMap i) i q o) (hn : s.tb.num = none) :
    exec (.cycleMap i) s = .next (answer i.val 0x32 [] s) := by
  show execCycleMap i s = _
  unfold execCycleMap
  rw [runMethod_calls h rfl]
  dsimp only
  rw [hn]

theorem execCycleMap_some {m : Int} (h : Calls s (.cycleMap i) i q o) (hn : s.tb.num = some m) : exec (.cycleMap i) s = .next
    (if (tbState s ≠ 2 ∧ tbState s ≠ 3) ∨ (2 : Int) ^ 20 < mag ((at_ o.data 0 6 : Int) - tbCurrent s m (nowInstant s)) then answer i.val 0x32 [] s
     else answer i.val 0 (le 6 (ofInt 48 (odiv (tbStart s m (at_ o.data 0 6 : Int)) tbTap / 4096)) ++
       le 8 (ofInt 64 (odiv (tbStart s m (at_ o.data 0 6 : Int)) tbTap))) s) := by
  show execCycleMap i s = _
  unfold execCycleMap
  rw [runMethod_calls h rfl]
  dsimp only
  rw [hn]

/-- The answer of a call. -/
theorem Calls.replied {c : Instr} {st : Nat} {data : Bytes} (h : Calls s c i q o) : Replies (answer i.val st data s) i.val q o st data :=
  h.refused.1

/-- CYCLE_MAP answers while the time base is LOCKED or in HOLDOVER. -/
theorem cycleMap_answers (h : Calls s (.cycleMap i) i q o) :
    ∃ t, exec (.cycleMap i) s = .next t ∧ Frame [.srv] s t ∧
      (s.tb.num = none ∨ (tbState s ≠ 2 ∧ tbState s ≠ 3) → Replies t i.val q o 0x32 []) ∧
      (∀ m, s.tb.num = some m → tbState s = 2 ∨ tbState s = 3 →
        ∀ n : Int, n = at_ o.data 0 6 → ∀ c, c = tbCurrent s m (nowInstant s) →
          ((2 : Int) ^ 20 < mag (n - c) → Replies t i.val q o 0x32 []) ∧
          ((mag (n - c) : Int) ≤ 2 ^ 20 → ∀ x, x = odiv (tbStart s m n) tbTap →
            Replies t i.val q o 0 (le 6 (ofInt 48 (x / 4096)) ++ le 8 (ofInt 64 x)))) := by
  cases hn : s.tb.num with
  | none =>
    have step := execCycleMap_none h hn
    exact ⟨_, step, exec_frame step, fun _ => h.replied, nofun⟩
  | some m =>
    have step := execCycleMap_some h hn
    refine ⟨_, step, exec_frame step, fun e => ?_, ?_⟩
    · rw [if_pos (Or.inl (e.resolve_left nofun))]
      exact h.replied
    · rintro m' hm hst n rfl c rfl
      obtain rfl := Option.some.inj hm
      refine ⟨fun far => ?_, ?_⟩
      · rw [if_pos (Or.inr far)]
        exact h.replied
      · rintro near x rfl
        rw [if_neg (not_or.mpr ⟨fun e => hst.elim e.1 e.2, Int.not_lt.mpr near⟩)]
        exact h.replied

end

/-- Settles O36, a method at a time. -/
theorem readingMethodsAnswer : Obligations.ReadingMethodsAnswer := by
  unfold Obligations.ReadingMethodsAnswer
  refine ⟨?_, ?_, ?_, ?_, fun i q o s h => cycleMap_answers h⟩
  · intro i q o s h
    have step := execEventRead_calls h
    refine ⟨_, step, exec_frame step, fun e => ?_, fun h1 h2 => ⟨_, ?_, ?_, rfl⟩⟩
    · rw [if_pos e]
      exact h.replied
    · rw [if_neg (by omega)]
      exact h.replied
    · exact List.length_take_le _ _
  · rintro i q o s a n h rfl rfl
    have step := execTkRead_calls h
    refine ⟨_, step, exec_frame step, fun e => ?_, fun h1 h2 hr => ?_, fun h1 h2 hr => ?_⟩
    · rw [if_pos e]
      exact h.replied
    · rw [if_neg (by omega), if_pos hr]
      exact h.replied
    · rw [if_neg (by omega), if_neg (Nat.not_lt.mpr hr)]
      exact ⟨_, h.replied, listed_bytes⟩
  · rintro i q o s a n h rfl rfl
    have step := execHjRead_calls h
    refine ⟨_, step, exec_frame step, fun e => ?_, fun h1 h2 => ?_⟩
    · rw [if_pos e]
      exact h.replied
    · rw [if_neg (by omega)]
      exact ⟨_, h.replied, listed_bytes⟩
  · rintro i q o s p h rfl
    have step := execPageRead_calls h
    refine ⟨_, step, exec_frame step, fun e => ?_, fun e => ⟨?_, pageBytes_length⟩⟩
    · rw [if_pos e]
      exact h.replied
    · rw [if_neg (Nat.not_le.mpr e)]
      exact h.replied

/-! ### The host journal (R341) -/

/-- Bytes that are written one after another. -/
def hjWritten (a : Nat) (d : Bytes) (m : Tab Nat) : Tab Nat := d.zipIdx.foldl (fun m e => tset 0 m (a + e.2) e.1.toNat) m

/-- Each byte reads as written, and no other changes. -/
theorem tget_hjWritten {a j : Nat} {d : Bytes} {m : Tab Nat} :
    tget 0 (hjWritten a d m) j = if a ≤ j ∧ j < a + d.length then (d.getD (j - a) 0).toNat else tget 0 m j := by
  have go : ∀ (d : Bytes) (n : Nat) (m : Tab Nat), tget 0 ((d.zipIdx n).foldl (fun m e => tset 0 m (a + e.2) e.1.toNat) m) j =
      if a + n ≤ j ∧ j < a + n + d.length then (d.getD (j - (a + n)) 0).toNat else tget 0 m j := by
    intro d
    induction d with
    | nil => intro n m; rw [if_neg (by simp)]; rfl
    | cons b d ih =>
      intro n m
      rw [List.zipIdx_cons, List.foldl_cons, ih]
      dsimp only
      by_cases e : j = a + n
      · subst e
        rw [if_neg (by omega), tget_tset_self, if_pos (by simp)]
        simp
      · rw [tget_tset_ne (Ne.symm e)]
        by_cases c : a + (n + 1) ≤ j ∧ j < a + (n + 1) + d.length
        · rw [if_pos c, if_pos (by simp only [List.length_cons]; omega)]
          obtain ⟨x, rfl⟩ := Nat.exists_eq_add_of_le c.1
          rw [show a + (n + 1) + x - (a + (n + 1)) = x by omega, show a + (n + 1) + x - (a + n) = x + 1 by omega, List.getD_cons_succ]
        · rw [if_neg c, if_neg (by simp only [List.length_cons]; omega)]
  exact go d 0 m

/-- One byte of an argument as a number. -/
theorem at_one {b : Bytes} {n : Nat} : at_ b n 1 = (b.getD n 0).toNat := by
  unfold at_ slice
  rw [List.getD_eq_getElem?_getD]
  by_cases h : n < b.length
  · rw [List.getElem?_eq_getElem h, List.drop_eq_getElem_cons h]
    show ofLe [b[n]] = b[n].toNat
    simp only [ofLe, Nat.mul_zero, Nat.add_zero]
  · rw [List.getElem?_eq_none (Nat.not_lt.mp h), List.drop_eq_nil_of_le (Nat.not_lt.mp h)]
    rfl

theorem execHjWrite_calls {i : Fin 48} {q : Tag} {o : Op} (h : Calls s (.hjWrite i) i q o) : exec (.hjWrite i) s = .next
    (if hjSize < at_ o.data 0 2 + (o.data.drop 2).length then answer i.val 0x32 [] s
     else answer i.val 0 [] { s with pwr := { s.pwr with hj := hjWritten (at_ o.data 0 2) (o.data.drop 2) s.pwr.hj } }) := by
  show execHjWrite i s = _
  unfold execHjWrite
  rw [runMethod_calls h rfl]
  rfl

/-! ### Backups (R357) -/

/-- The backup that is taken now. -/
def newBackup (s : State) : Backup :=
  let kept := s.dict.filter (fun e => match rowOf (objKey e.1) with | some r => r.has 3 | none => decide (0x4000000 ≤ e.1))
  let plain := fun (p : Nat) => decide (pageRaw s p = none) && !(legalPage p && decide ((tget {} s.pages p).own ≠ none)) && decide (pageEvents s p = [])
  let raws := (((s.pages.map (fun (e : Nat × PageS) => e.1)) ++ [972, 973]).eraseDups.filter (fun p => !plain p)).map (fun p => (p, pageBytes s p))
  let ivl := s.bill.cct.map (fun (e : Nat × BCct) => (e.1, e.2.ivl, e.2.subs))
  let ratio := s.bill.cct.map (fun (e : Nat × BCct) => (e.1, e.2.ratioI, e.2.ratioE))
  let unit := s.bill.cct.map (fun (e : Nat × BCct) => (e.1, e.2.unit))
  let stats := (List.range 1024).map (fun p => pageStatusOf s p)
  Backup.mk (nextGen s) s.fn s.time (s.get K.storeCount) kept raws ivl ratio [] false s.pwr.bg unit stats

/-- The queue of the Tackroom alone grows. -/
theorem tkPush_tk {op : TkOp} : (tkPush op s).tk = { s.tk with queue := (tkPush op s).tk.queue } := rfl

theorem tkPushes_tk {g : Nat → TkOp} (l : List Nat) :
    (l.foldl (fun s i => tkPush (g i) s) s).tk = { s.tk with queue := (l.foldl (fun s i => tkPush (g i) s) s).tk.queue } := by
  induction l generalizing s with
  | nil => rfl
  | cons a l ih =>
    rw [List.foldl_cons, ih]
    rfl

/-- A backup joins the generations, not yet valid; no other part of the Tackroom but its queue changes. -/
theorem takeBackup_tk : (takeBackup s).tk =
    { s.tk with backs := s.tk.backs ++ [newBackup s], lastGen := nextGen s, queue := (takeBackup s).tk.queue } := by
  have unfolded : takeBackup s = (List.range 5).foldl (fun t i => tkPush (.backup (nextGen s) i) t)
      (setTk (fun t => { t with backs := t.backs ++ [newBackup s], lastGen := nextGen s }) s) := rfl
  rw [unfolded, tkPushes_tk]
  rfl

theorem takeBackup_srv : (takeBackup s).srv = s.srv := (takeBackup_only (.refl _) (.refl _ s)).srv rfl

/-- What a backup leaves in the Tackroom. -/
theorem takeBackup_leaves : (takeBackup s).tk.backs = s.tk.backs ++ [newBackup s] ∧ (newBackup s).gen = nextGen s ∧ (newBackup s).fn = s.fn ∧
    (newBackup s).valid = false ∧ (takeBackup s).tk.lastGen = nextGen s ∧ (takeBackup s).tk.lastDay = s.tk.lastDay ∧
    (takeBackup s).tk.lastFn = s.tk.lastFn := by
  rw [takeBackup_tk]
  exact ⟨rfl, rfl, rfl, rfl, rfl, rfl, rfl⟩

/-- BACKUP in RUN, while the operational core is up. -/
theorem execBackup_run (hm : s.mode = .run) (hr : s.ready = true) : exec .backup s = .next (if s.timeValid = true then
      if (stdNow s % perDay) / perMin = s.cfg s.fn K.backupMinute ∧ s.tk.lastDay ≠ some (stdNow s / perDay) then
        takeBackup (setTk (fun t => { t with lastDay := some (stdNow s / perDay) }) s)
      else s
    else if s.fn % 88473600 = 0 ∧ s.tk.lastFn ≠ some s.fn then takeBackup (setTk (fun t => { t with lastFn := some s.fn }) s) else s) :=
  congrArg _ (if_pos ⟨hm, hr⟩)

/-- Settles O37, by the buffer's bytes and what a backup leaves. -/
theorem hostJournalAndBackups : Obligations.HostJournalAndBackups := by
  unfold Obligations.HostJournalAndBackups
  refine ⟨?_, ?_, ?_, ?_, ?_⟩
  · rintro i q o s a h rfl
    have step := execHjWrite_calls h
    rw [List.length_drop] at step
    refine ⟨_, step, exec_frame step, fun far => ?_, fun near => ?_⟩
    · rw [if_pos far]
      exact ⟨h.replied, answer_srv.pwr rfl⟩
    · rw [if_neg (Nat.not_lt.mpr near), answer_srv.pwr rfl]
      refine ⟨h.serves.answers (h.carries.congr rfl), rfl, fun j => ?_⟩
      dsimp only
      rw [tget_hjWritten, List.length_drop]
      by_cases c : at_ o.data 0 2 ≤ j ∧ j < at_ o.data 0 2 + (o.data.length - 2)
      · rw [if_pos c, if_pos c, at_one]
        simp [List.getD_eq_getElem?_getD]
      · rw [if_neg c, if_neg c]
  · intro i q o s h
    have step : exec (.backupNow i) s = .next (answer i.val 0 (le 4 (nextGen s)) (takeBackup s)) := by
      show execBackupNow i s = _
      unfold execBackupNow
      rw [runMethod_calls h rfl]
    obtain ⟨backs, gen, fn, valid, last, -, -⟩ := takeBackup_leaves (s := s)
    have same : Carries (takeBackup s) i.val q := h.carries.congr (by unfold getTag; rw [takeBackup_srv])
    refine ⟨_, newBackup s, step, exec_frame step, h.serves.answers same, ?_, gen, fn, valid, ?_⟩
    · rw [answer_srv.tk rfl, backs]
    · rw [answer_srv.tk rfl, last]
  · intro s
    unfold nextGen
    omega
  · intro s hm hr hvalid hinvalid
    have step := execBackup_run hm hr
    by_cases hv : s.timeValid = true
    · rw [if_pos hv, if_pos (hvalid hv)] at step
      obtain ⟨backs, gen, fn, valid, last, day, lastFn⟩ :=
        takeBackup_leaves (s := setTk (fun t => { t with lastDay := some (stdNow s / perDay) }) s)
      exact ⟨_, _, step, exec_frame step, backs, gen, fn, valid, last, by rw [day, if_pos hv]; rfl, by rw [lastFn, if_pos hv]; rfl⟩
    · rw [if_neg hv, if_pos (hinvalid (by simpa using hv))] at step
      obtain ⟨backs, gen, fn, valid, last, day, lastFn⟩ := takeBackup_leaves (s := setTk (fun t => { t with lastFn := some s.fn }) s)
      exact ⟨_, _, step, exec_frame step, backs, gen, fn, valid, last, by rw [day, if_neg hv]; rfl, by rw [lastFn, if_neg hv]; rfl⟩
  · intro s hm hr hvalid hinvalid
    have step := execBackup_run hm hr
    by_cases hv : s.timeValid = true
    · rw [if_pos hv, if_neg (fun e => e.2 (hvalid hv))] at step
      exact step
    · rw [if_neg hv, if_neg (fun e => e.2 (hinvalid (by simpa using hv)))] at step
      exact step

/-! ### Captures that are off (R157, R158) -/

/-- A capture that a disable has cut, its samples all in. -/
def cutCapture : Capt :=
  { id := 1, trig := 16, cause := 0, src := 0, chans := [], pre := 0, post := 0, next := 17, gen := 0, time := 0, closed := true }

/-- It waits for RING-8, and captures are off. -/
def cutWaits : State := { mode := .run, ready := true, dict := [(K.capEnable, 0)], cap := { cur := some cutCapture } }

/-- Refutes O38: a capture whose samples are all in ends in hold-off only while ENABLE is 1.  One that a disable has cut and that RING-8 had no
room for (R159) ends while ENABLE is 0, and the engine is then off (STATE 3), not in hold-off (STATE 2). -/
theorem not_capturesRun : ¬ Obligations.CapturesRun := by
  unfold Obligations.CapturesRun
  rintro ⟨-, complete, -⟩
  obtain ⟨t, -, step, -, state, -⟩ := complete cutCapture cutWaits rfl rfl (by decide)
  have off : exec .captureComplete cutWaits = .next t → t.live K.capState = 3 := by
    intro e
    have := Host.Outcome.next.inj e
    subst this
    decide +kernel
  rw [off step] at state
  exact absurd state (by decide)

end Sys2Proof.Machine
end

section
/-! PROOF. Update leases, images and owner keys (R361 to R366, R374 to R379). -/

namespace Sys2Proof.Machine

variable {s : State}

/-! ### What the objects of a lease leave alone -/

/-- An event changes no object but the counters of RING-5. -/
theorem get_event {c j : Nat} {l : List Nat} (h1 : K.stalls 5 ≠ j) (h2 : K.eventsLost ≠ j) : (s.event c l).get j = s.get j := get_eventAt h1 h2

/-- The objects that show a lease and its units. -/
def leaseShown : List Nat := [K.leasePort, K.leaseDigest, K.leaseSize, K.leaseHolders, K.unitsWritten, K.blockMap]

section
variable {j : Nat}

theorem get_showUnits (h : ∀ x ∈ leaseShown, liveKey x ≠ j) : (showUnits s).get j = s.get j := by
  have written := h K.unitsWritten (by simp [leaseShown])
  have map := h K.blockMap (by simp [leaseShown])
  unfold showUnits
  split
  · exact (get_putLive_ne map).trans (get_putLive_ne written)
  · exact (get_putLive_ne map).trans (get_putLive_ne written)

theorem get_showHolders (h : ∀ x ∈ leaseShown, liveKey x ≠ j) : (showHolders s).get j = s.get j := by
  have shown : ∀ {a b c d : Nat}, ((((s.putLive K.leasePort a).putLive K.leaseDigest b).putLive K.leaseSize c).putLive K.leaseHolders d).get j =
      s.get j := by
    intro a b c d
    rw [get_putLive_ne (h K.leaseHolders (by simp [leaseShown])), get_putLive_ne (h K.leaseSize (by simp [leaseShown])),
      get_putLive_ne (h K.leaseDigest (by simp [leaseShown])), get_putLive_ne (h K.leasePort (by simp [leaseShown]))]
  unfold showHolders
  dsimp only
  rw [get_showUnits h]
  split
  · exact shown
  · exact shown

/-- A lease that is set shows its state, and changes no other object. -/
theorem get_setLease {l : Option Lease} {st : Nat} (h : ∀ x ∈ leaseShown, liveKey x ≠ j) (hs : liveKey K.leaseState ≠ j) :
    (setLease l st s).get j = s.get j := by
  unfold setLease
  rw [get_showHolders h, get_putLive_ne hs]
  rfl

end

theorem leaseState_setLease {l : Option Lease} {st : Nat} : leaseState (setLease l st s) = st := by
  have shown : (setLease l st s).get (liveKey K.leaseState) = ({ s with img := { s.img with lease := l } }.putLive K.leaseState st).get (liveKey K.leaseState) :=
    get_showHolders (by decide)
  exact shown.trans live_putLive_self

theorem setLease_img {l : Option Lease} {st : Nat} : (setLease l st s).img = { s.img with lease := l } := by
  unfold setLease
  rw [(showHolders_only (.refl 36) (.refl _ _)).img rfl, (State_putLive_only (.refl 36) (.refl _ _)).img rfl]

theorem endLease_img : (endLease s).img = { s.img with lease := none } := setLease_img

theorem leaseState_of_dict {u : State} (h : u.dict = s.dict) : leaseState u = leaseState s := get_of_dict h _

theorem leaseState_answer {i st : Nat} {data : Bytes} : leaseState (answer i st data s) = leaseState s := answer_get

/-- The good sectors depend on the units alone. -/
theorem slotSecs_congr {u : State} {k : Nat} (h : u.units = s.units) : slotSecs u k = slotSecs s k := by
  cases u; cases s
  subst h
  rfl

theorem targetSlot_le : targetSlot s ≤ 1 := by
  unfold targetSlot
  split <;> omega

/-! ### Requests that wait on an earlier lease -/

/-- An answer in another slot leaves a request that is under way as it stands. -/
theorem getTag_answer_ne {i j st : Nat} {data : Bytes} {q : Tag} (hq : getTag s i = some q) (b : q.begun = true) (ne : j ≠ i) :
    getTag (answer j st data s) i = some q := by
  unfold answer
  split
  · exact hq
  · split
    · exact hq
    · dsimp only
      split
      · exact getTag_startReqs ((getTag_finishTag_ne ne).trans hq) b
      · exact getTag_startReqs ((getTag_setTag_ne ne).trans hq) b

theorem getTag_lateHeld {i j : Nat} {q : Tag} (hq : getTag s i = some q) (b : q.begun = true) (w : q.wait = false) :
    getTag (lateHeld j s) i = some q := by
  by_cases ne : j = i
  · subst ne
    unfold lateHeld
    rw [hq]
    dsimp only
    rw [if_neg (by simp [w])]
    exact hq
  · unfold lateHeld
    split
    · split
      · unfold answerHeld
        split <;> exact getTag_answer_ne hq b ne
      · exact hq
    · exact hq

/-- Requests of an earlier lease are answered one after another. -/
def lateAll (l : List Nat) (s : State) : State := l.foldl (fun s j => lateHeld j s) s

theorem getTag_lateAll {i : Nat} {q : Tag} {l : List Nat} (hq : getTag s i = some q) (b : q.begun = true) (w : q.wait = false) :
    getTag (lateAll l s) i = some q := by
  induction l generalizing s with
  | nil => exact hq
  | cons j l ih => exact ih (getTag_lateHeld hq b w)

theorem lateAll_only {l : List Nat} : Only 262144 s (lateAll l s) := Only.foldl (fun _ _ h => lateHeld_only (.refl _) h) (.refl _ _)

/-! ### UPDATE_OPEN (R375, R376) -/

section
variable {i : Nat} {q : Tag} {size : Nat} {digest : Bytes}

theorem openLease_range (h : size % 4096 ≠ 0 ∨ size < 4096 ∨ 7864320 < size) : openLease i q size digest s = answer i 0x32 [] s := if_pos h

theorem openLease_few (h : ¬(size % 4096 ≠ 0 ∨ size < 4096 ∨ 7864320 < size))
    (hf : (slotSecs s (targetSlot s)).length < (size + 65535) / 65536) : openLease i q size digest s = answerReject i 11 (portNo q.port) digest s :=
  (if_neg h).trans (if_pos hf)

/-- The slot when its earlier image is gone. -/
def freshSlot (k size : Nat) (digest : Bytes) (s : State) : State :=
  eraseSlot k (showManifest k (setSlot k { size := size, digest := digest, units := [] } (dropImages k s)))

/-- The slot as a new lease finds it: units of the same image are kept. -/
def leasedSlot (size : Nat) (digest : Bytes) (s : State) : State :=
  (if decide ((getSlot s (targetSlot s)).size = size ∧ (getSlot s (targetSlot s)).digest = digest) then s
   else freshSlot (targetSlot s) size digest s).put (K.imSlotState (targetSlot s)) 1

theorem leasedSlot_only : Only 98308 s (leasedSlot size digest s) := by
  unfold leasedSlot freshSlot
  refine State_put_only ((Within.refl _).of rfl) (Only.ite (fun _ => .refl _ _) (fun _ => ?_))
  exact eraseSlot_only ((Within.refl _).of rfl) (showManifest_only ((Within.refl _).of rfl) (setSlot_only ((Within.refl _).of rfl)
    (dropImages_only ((Within.refl _).of rfl) (.refl _ _))))

/-- The requests that waited for units of the image that is gone. -/
def lostTags (size : Nat) (digest : Bytes) (s : State) : List Nat :=
  if decide ((getSlot s (targetSlot s)).size = size ∧ (getSlot s (targetSlot s)).digest = digest) then [] else imageTags (targetSlot s) s

/-- The machine when a lease has opened, before it is answered. -/
def leaseOpened (q : Tag) (size : Nat) (digest : Bytes) (s : State) : State :=
  lateAll (lostTags size digest s)
    (setLease (some { holders := [callerOf q], size := size, digest := digest, lastFn := (leasedSlot size digest s).fn }) 1 (leasedSlot size digest s))

theorem openLease_opens (h : ¬(size % 4096 ≠ 0 ∨ size < 4096 ∨ 7864320 < size))
    (hf : ¬(slotSecs s (targetSlot s)).length < (size + 65535) / 65536) : openLease i q size digest s =
      answer i 0 (le 1 (targetSlot s) ++ le 2 (getSlot (leaseOpened q size digest s) (targetSlot s)).units.length) (leaseOpened q size digest s) :=
  (if_neg h).trans (if_neg hf)

theorem leaseOpened_img : (leaseOpened q size digest s).img.lease = some ⟨[callerOf q], size, digest, s.fn⟩ := by
  unfold leaseOpened
  rw [lateAll_only.img rfl, setLease_img, leasedSlot_only.fn rfl]

theorem leaseOpened_state : leaseState (leaseOpened q size digest s) = 1 :=
  (leaseState_of_dict (lateAll_only.dict rfl)).trans leaseState_setLease

theorem leaseOpened_tag (hq : getTag s i = some q) (b : q.begun = true) (w : q.wait = false) :
    getTag (leaseOpened q size digest s) i = some q := by
  refine getTag_lateAll ?_ b w
  unfold getTag at hq ⊢
  rw [(setLease_only (.refl _) (.refl _ _)).srv rfl, leasedSlot_only.srv rfl, hq]

/-- A lease that opens. -/
theorem openLease_lease (h : ¬(size % 4096 ≠ 0 ∨ size < 4096 ∨ 7864320 < size))
    (hf : ¬(slotSecs s (targetSlot s)).length < (size + 65535) / 65536) :
    (openLease i q size digest s).img.lease = some ⟨[callerOf q], size, digest, s.fn⟩ ∧ leaseState (openLease i q size digest s) = 1 := by
  rw [openLease_opens h hf]
  exact ⟨by rw [answer_srv.img rfl, leaseOpened_img], leaseState_answer.trans leaseOpened_state⟩

/-- The answer of UPDATE_OPEN to a holder. -/
def leaseAnswer (i : Nat) (s : State) : State := answer i 0 (le 1 (targetSlot s) ++ le 2 (getSlot s (targetSlot s)).units.length) s

/-- The first holder's port. -/
def firstPort (l : Lease) : Nat := match l.holders with | h :: _ => h.port | [] => 0xFF

/-- The lease of the machine ends, forced by the owner. -/
def forcedEnd (l : Lease) (s : State) : State := endLease (s.event 0x0704 [firstPort l, digest8 l.digest])

theorem forcedEnd_target {l : Lease} : targetSlot (forcedEnd l s) = targetSlot s := by
  unfold targetSlot forcedEnd
  rw [endLease_img, (State_event_only (.refl _) (.refl _ _)).img rfl]
  have active : (endLease (s.event 0x0704 [firstPort l, digest8 l.digest])).get K.activeSlot = s.get K.activeSlot :=
    (get_setLease (by decide) (by decide)).trans (get_event (by decide) (by decide))
  rw [active]

theorem forcedEnd_only {l : Lease} : Only 33587236 s (forcedEnd l s) :=
  endLease_only ((Within.refl _).of rfl) (State_event_only ((Within.refl _).of rfl) (.refl _ _))

end

/-- UPDATE_OPEN past the check of its flags. -/
def openedBy (i : Nat) (q : Tag) (size flags : Nat) (digest : Bytes) (l : Lease) (s : State) : State :=
  if bit flags 1 = true ∧ (leaseState s = 1 ∨ leaseState s = 2) then openLease i q size digest (forcedEnd l s)
  else if holds s q = true then leaseAnswer i (touchLease q s)
  else if bit flags 0 = true ∧ leaseState s = 1 ∧ l.size = size ∧ l.digest = digest then
    (if 4 ≤ l.holders.length then answer i 0x10 [] s
     else leaseAnswer i (setLease (some { l with holders := l.holders ++ [callerOf q], lastFn := s.fn }) 1 s))
  else answerHeld i s

section
variable {i : Fin 48} {q : Tag} {o : Op}

/-- UPDATE_OPEN is refused for its flags, for FORCE of another than the owner, and past recall. -/
theorem execUpdateOpen_refused {n : Nat} (h : Calls s (.updateOpen i) i q o)
    (hn : n = if 4 ≤ at_ o.data 36 1 then 0x32 else if bit (at_ o.data 36 1) 1 = true ∧ ¬(q.port = .spi ∧ roleOf s q = 5) then 0x20
      else if handFixed s = true then 0x10 else 0) (h0 : n ≠ 0) : exec (.updateOpen i) s = .next (answer i.val n [] s) := by
  show execUpdateOpen i s = _
  unfold execUpdateOpen
  rw [runMethod_calls h rfl]
  dsimp only
  by_cases h1 : 4 ≤ at_ o.data 36 1
  · rw [if_pos h1] at hn ⊢
    rw [hn]
  rw [if_neg h1] at hn ⊢
  by_cases h2 : bit (at_ o.data 36 1) 1 = true ∧ ¬(q.port = .spi ∧ roleOf s q = 5)
  · rw [if_pos h2] at hn ⊢
    rw [hn]
  rw [if_neg h2] at hn ⊢
  by_cases h3 : handFixed s = true
  · rw [if_pos h3] at hn ⊢
    rw [hn]
  · rw [if_neg h3] at hn
    exact absurd hn h0

section
variable (h : Calls s (.updateOpen i) i q o) (hflags : at_ o.data 36 1 < 4)
  (hforce : bit (at_ o.data 36 1) 1 = true → q.port = .spi ∧ roleOf s q = 5) (hhand : handFixed s = false)
include h hflags hforce hhand

theorem execUpdateOpen_free (hl : s.img.lease = none) :
    exec (.updateOpen i) s = .next (openLease i.val q (at_ o.data 0 4) (slice o.data 4 32) s) := by
  show execUpdateOpen i s = _
  unfold execUpdateOpen
  rw [runMethod_calls h rfl]
  dsimp only
  rw [if_neg (Nat.not_le.mpr hflags), if_neg (fun e => e.2 (hforce e.1)), if_neg (by simp [hhand]), hl]

theorem execUpdateOpen_leased {l : Lease} (hl : s.img.lease = some l) :
    exec (.updateOpen i) s = .next (openedBy i.val q (at_ o.data 0 4) (at_ o.data 36 1) (slice o.data 4 32) l s) := by
  show execUpdateOpen i s = _
  unfold execUpdateOpen
  rw [runMethod_calls h rfl]
  dsimp only
  rw [if_neg (Nat.not_le.mpr hflags), if_neg (fun e => e.2 (hforce e.1)), if_neg (by simp [hhand]), hl]
  rfl

end

theorem Calls.refusedFrame {c : Instr} {st : Nat} {data : Bytes} (h : Calls s c i q o) :
    Replies (answer i.val st data s) i.val q o st data ∧ Frame [.srv] s (answer i.val st data s) :=
  ⟨h.replied, answer_srv.frame (by decide)⟩

/-- A caller that does not hold the lease is answered its first holder. -/
theorem Calls.held {c : Instr} {l : Lease} (h : Calls s c i q o) (hl : s.img.lease = some l) :
    Frame [.srv] s (answerHeld i.val s) ∧
      Replies (answerHeld i.val s) i.val q o 0x50 (le 1 (match l.holders with | h :: _ => h.port | [] => 0xFF) ++ slice l.digest 0 8) := by
  unfold answerHeld
  rw [hl]
  exact ⟨answer_srv.frame (by decide), h.replied⟩

/-- A rejected image leaves images and leases as they were. -/
theorem Calls.rejected {c : Instr} {reason port : Nat} {digest : Bytes} (h : Calls s c i q o) :
    Replies (answerReject i.val reason port digest s) i.val q o 0x51 (le 1 reason) := by
  refine h.serves.answers (h.carries.congr ?_)
  unfold getTag
  rw [(noteReject_only (.refl _) (.refl _ _)).srv rfl]

theorem answerReject_img {n reason port : Nat} {digest : Bytes} : (answerReject n reason port digest s).img = s.img :=
  (answerReject_only (.refl _) (.refl _ _)).img rfl

theorem Calls.begun {c : Instr} (h : Calls s c i q o) : q.begun = true ∧ q.wait = false := by
  obtain ⟨b, w, -, -⟩ := nextOp_some h.serves.next
  exact ⟨b, w⟩

end

/-- Settles O42, by the lease that UPDATE_OPEN finds. -/
theorem leasesOpen : Obligations.LeasesOpen := by
  unfold Obligations.LeasesOpen
  rintro i q o s size flags digest h rfl rfl rfl
  have ran : ∃ t, exec (.updateOpen i) s = .next t := everyCommandCompletes _ _
  obtain ⟨t, step⟩ := ran
  have refused : ∀ {n : Nat}, exec (.updateOpen i) s = .next (answer i.val n [] s) → Replies t i.val q o n [] ∧ Frame [.srv] s t := by
    intro n e
    obtain rfl := Host.Outcome.next.inj (step.symm.trans e)
    exact h.refusedFrame
  refine ⟨t, step, exec_frame step, fun h4 => ?_, fun h4 hf hr => ?_, fun h4 hforce => ⟨fun hfix => ?_, fun hfix hl => ⟨?_, ?_, ?_⟩, ?_, ?_, ?_⟩⟩
  · exact refused (execUpdateOpen_refused h (by rw [if_pos h4]) (by decide))
  · exact refused (execUpdateOpen_refused h (by rw [if_neg (Nat.not_le.mpr h4), if_pos ⟨hf, hr⟩]) (by decide))
  · exact refused (execUpdateOpen_refused h
      (by rw [if_neg (Nat.not_le.mpr h4), if_neg (fun e => e.2 (hforce e.1)), if_pos hfix]) (by decide))
  · intro hsize
    have free := execUpdateOpen_free h h4 hforce hfix hl
    rw [openLease_range hsize] at free
    exact refused free
  · intro h1 h2 h3 hfew
    have free := execUpdateOpen_free h h4 hforce hfix hl
    rw [openLease_few (by omega) hfew] at free
    obtain rfl := Host.Outcome.next.inj (step.symm.trans free)
    exact ⟨h.rejected, answerReject_img⟩
  · intro h1 h2 h3 hroom
    have free := execUpdateOpen_free h h4 hforce hfix hl
    obtain rfl := Host.Outcome.next.inj (step.symm.trans free)
    obtain ⟨lease, state⟩ := openLease_lease (s := s) (i := i.val) (q := q) (digest := slice o.data 4 32) (size := at_ o.data 0 4)
      (by omega) (Nat.not_lt.mpr hroom)
    refine ⟨lease, state, ?_⟩
    rw [openLease_opens (by omega) (Nat.not_lt.mpr hroom)]
    have tag := leaseOpened_tag (size := at_ o.data 0 4) (digest := slice o.data 4 32) h.serves.tag h.begun.1 h.begun.2
    have img : ∀ {n : Nat} {d : Bytes} {u : State}, getSlot (answer i.val n d u) (targetSlot s) = getSlot u (targetSlot s) := by
      intro n d u
      unfold getSlot
      rw [answer_srv.img rfl]
    rw [img]
    exact h.serves.answers (carries_of tag)
  · intro l hfix hl hf hst h1 h2 h3 hroom
    have leased := execUpdateOpen_leased h h4 hforce hfix hl
    obtain rfl := Host.Outcome.next.inj (step.symm.trans leased)
    have forced : openedBy i.val q (at_ o.data 0 4) (at_ o.data 36 1) (slice o.data 4 32) l s =
        openLease i.val q (at_ o.data 0 4) (slice o.data 4 32) (forcedEnd l s) := if_pos ⟨hf, hst⟩
    rw [forced]
    have room : ¬(slotSecs (forcedEnd l s) (targetSlot (forcedEnd l s))).length < (at_ o.data 0 4 + 65535) / 65536 := by
      rw [forcedEnd_target, slotSecs_congr (forcedEnd_only.units rfl)]
      exact Nat.not_lt.mpr hroom
    have opened := openLease_lease (s := forcedEnd l s) (i := i.val) (q := q) (digest := slice o.data 4 32) (size := at_ o.data 0 4)
      (by omega) room
    rwa [forcedEnd_only.fn rfl] at opened
  · intro l hfix hl hflag hh hst hsize hdig
    have leased := execUpdateOpen_leased h h4 hforce hfix hl
    obtain rfl := Host.Outcome.next.inj (step.symm.trans leased)
    have join : openedBy i.val q (at_ o.data 0 4) (at_ o.data 36 1) (slice o.data 4 32) l s =
        if 4 ≤ l.holders.length then answer i.val 0x10 [] s
        else leaseAnswer i.val (setLease (some { l with holders := l.holders ++ [callerOf q], lastFn := s.fn }) 1 s) := by
      unfold openedBy
      rw [hflag, if_neg (fun e => absurd e.1 (by decide)), if_neg (by simp [hh]), if_pos ⟨by decide, hst, hsize, hdig⟩]
    rw [join]
    refine ⟨fun full => ?_, fun room => ?_⟩
    · rw [if_pos full]
      exact h.refusedFrame
    · rw [if_neg (Nat.not_le.mpr room)]
      unfold leaseAnswer
      rw [answer_srv.img rfl, setLease_img]
  · intro l hfix hl hflag
    have leased := execUpdateOpen_leased h h4 hforce hfix hl
    obtain rfl := Host.Outcome.next.inj (step.symm.trans leased)
    have plain : openedBy i.val q (at_ o.data 0 4) (at_ o.data 36 1) (slice o.data 4 32) l s =
        if holds s q = true then leaseAnswer i.val (touchLease q s) else answerHeld i.val s := by
      unfold openedBy
      rw [hflag, if_neg (fun e => absurd e.1 (by decide))]
      exact ite_congr rfl (fun _ => rfl) (fun _ => if_neg (fun e => absurd e.1 (by decide)))
    rw [plain]
    refine ⟨fun hh => ?_, fun hh => ?_⟩
    · rw [if_pos hh, touchLease_holds hl hh]
      exact ⟨answer_srv.img rfl, h.serves.answers (h.carries.congr rfl)⟩
    · rw [if_neg (by simp [hh])]
      exact h.held hl

end Sys2Proof.Machine
end

section
/-! PROOF. Writing and verifying images, the end of a lease, and owner keys (R363 to R368, R377 to R379). -/

namespace Sys2Proof.Machine

variable {s : State}

/-! ### WRITE_BLOCK (R377) -/

/-- The machine when the lease's time has been restarted. -/
def restarted (l : Lease) (s : State) : State := { s with img := { s.img with lease := some { l with lastFn := s.fn } } }

/-- A unit of the block is written with other data. -/
def otherData (us : List (Nat × Bytes)) (s : State) : Bool :=
  us.any (fun u => match unitData s (targetSlot s) u.1 with | some x => decide (x ≠ u.2) | none => false)

/-- A block of a holder into an OPEN lease, its place checked. -/
def blockWritten (i : Nat) (q : Tag) (l : Lease) (us : List (Nat × Bytes)) (s : State) : State :=
  if otherData us s then answerReject i 12 (portNo q.port) l.digest (restarted l s)
  else if us.all (fun u => decide (u.1 ∈ (getSlot s (targetSlot s)).units)) then
    answer i 0 (le 2 (getSlot s (targetSlot s)).units.length) (restarted l s)
  else tkPush (.image (targetSlot s) (us.filter (fun u => decide (unitData s (targetSlot s) u.1 = none))) (some i)) (holdTag i (restarted l s))

/-- A block of `n` bytes lies where none of an image of `size` bytes does. -/
def badBlock (size off n : Nat) : Prop := off % 256 ≠ 0 ∨ size < off + n ∨ (n % 256 ≠ 0 ∧ off + n ≠ size)

theorem otherData_iff {us : List (Nat × Bytes)} :
    otherData us s = true ↔ ∃ u ∈ us, ∃ x, unitData s (targetSlot s) u.1 = some x ∧ x ≠ u.2 := by
  unfold otherData
  rw [List.any_eq_true]
  refine exists_congr fun u => and_congr_right fun _ => ?_
  cases unitData s (targetSlot s) u.1 with
  | none => simp
  | some x => simp

/-- An operation that is pushed joins the queue, and nothing leaves it. -/
theorem tkPush_queue {op : TkOp} : (∃ j ∈ (tkPush op s).tk.queue, j.op = op) ∧ (tkPush op s).tk.queue.length = s.tk.queue.length + 1 := by
  have split : ∀ n, (∃ j ∈ s.tk.queue.take n ++ [(⟨op, 0⟩ : TkJob)] ++ s.tk.queue.drop n, j.op = op) ∧
      (s.tk.queue.take n ++ [(⟨op, 0⟩ : TkJob)] ++ s.tk.queue.drop n).length = s.tk.queue.length + 1 := by
    intro n
    refine ⟨⟨⟨op, 0⟩, by simp, rfl⟩, ?_⟩
    simp only [List.length_append, List.length_take, List.length_drop, List.length_singleton]
    omega
  exact split _

section
variable {i : Fin 48} {q : Tag} {o : Op} {l : Lease}

open Classical in
theorem execWriteBlock_leased (h : Calls s (.writeBlock i) i q o) (hl : s.img.lease = some l) : exec (.writeBlock i) s = .next
    (if badBlock l.size (at_ o.data 0 4) (o.data.drop 4).length then answer i.val 0x32 [] s
     else if holds s q = false then answerHeld i.val s
     else if leaseState s ≠ 1 then answer i.val 0x10 [] s
     else blockWritten i.val q l (blockUnits (at_ o.data 0 4) (o.data.drop 4)) s) := by
  have place : (decide (at_ o.data 0 4 % 256 ≠ 0) || (decide (l.size < at_ o.data 0 4 + (o.data.drop 4).length) ||
      (decide ((o.data.drop 4).length % 256 ≠ 0) && decide (at_ o.data 0 4 + (o.data.drop 4).length ≠ l.size)))) = true ↔
      badBlock l.size (at_ o.data 0 4) (o.data.drop 4).length := by
    unfold badBlock
    simp only [Bool.or_eq_true, Bool.and_eq_true, decide_eq_true_eq]
  show execWriteBlock i s = _
  unfold execWriteBlock
  rw [runMethod_calls h rfl]
  dsimp only
  rw [hl]
  refine congrArg _ (ite_congr (propext place) (fun _ => rfl) (fun _ => ite_congr rfl (fun _ => rfl)
    (fun hh => ite_congr rfl (fun _ => rfl) (fun _ => ?_))))
  rw [touchLease_holds hl (by simpa using hh)]
  rfl

/-- What a block of a holder into an OPEN lease brings about (R377). -/
theorem blockWritten_effects {us : List (Nat × Bytes)} (h : Calls s (.writeBlock i) i q o) :
    (blockWritten i.val q l us s).img = { s.img with lease := some { l with lastFn := s.fn } } ∧
    ((∃ u ∈ us, ∃ x, unitData s (targetSlot s) u.1 = some x ∧ x ≠ u.2) →
      Replies (blockWritten i.val q l us s) i.val q o 0x51 (le 1 12) ∧ (blockWritten i.val q l us s).tk = s.tk) ∧
    ((∀ u ∈ us, unitData s (targetSlot s) u.1 = none ∨ unitData s (targetSlot s) u.1 = some u.2) →
      ((∀ u ∈ us, u.1 ∈ (getSlot s (targetSlot s)).units) →
        Replies (blockWritten i.val q l us s) i.val q o 0 (le 2 (getSlot s (targetSlot s)).units.length) ∧ (blockWritten i.val q l us s).tk = s.tk) ∧
      ((∃ u ∈ us, u.1 ∉ (getSlot s (targetSlot s)).units) →
        (∃ j ∈ (blockWritten i.val q l us s).tk.queue,
          j.op = .image (targetSlot s) (us.filter (fun u => decide (unitData s (targetSlot s) u.1 = none))) (some i.val)) ∧
        (blockWritten i.val q l us s).tk.queue.length = s.tk.queue.length + 1 ∧
        ∃ q', getTag (blockWritten i.val q l us s) i.val = some q' ∧ q'.wait = true ∧ q'.res = q.res)) := by
  have tag : getTag (restarted l s) i.val = some q := h.serves.tag
  by_cases hdata : otherData us s = true
  · have rejected : blockWritten i.val q l us s = answerReject i.val 12 (portNo q.port) l.digest (restarted l s) := if_pos hdata
    rw [rejected]
    refine ⟨answerReject_img, fun _ => ⟨h.serves.answers ?_, (answerReject_only (.refl _) (.refl _ _)).tk rfl⟩, fun hall => ?_⟩
    · refine carries_of ?_
      unfold getTag at tag ⊢
      rw [(noteReject_only (.refl _) (.refl _ _)).srv rfl, tag]
    · obtain ⟨u, hu, x, hx, hne⟩ := otherData_iff.mp hdata
      rcases hall u hu with e | e
      · rw [hx] at e; cases e
      · rw [hx] at e; exact absurd (Option.some.inj e) hne
  have known : ¬∃ u ∈ us, ∃ x, unitData s (targetSlot s) u.1 = some x ∧ x ≠ u.2 := fun e => hdata (otherData_iff.mpr e)
  by_cases hunits : us.all (fun u => decide (u.1 ∈ (getSlot s (targetSlot s)).units)) = true
  · have skipped : blockWritten i.val q l us s = answer i.val 0 (le 2 (getSlot s (targetSlot s)).units.length) (restarted l s) :=
      (if_neg hdata).trans (if_pos hunits)
    have all : ∀ u ∈ us, u.1 ∈ (getSlot s (targetSlot s)).units := by simpa using hunits
    rw [skipped]
    exact ⟨answer_srv.img rfl, fun e => absurd e known,
      fun _ => ⟨fun _ => ⟨h.serves.answers (carries_of tag), answer_srv.tk rfl⟩, fun ⟨u, hu, hn⟩ => absurd (all u hu) hn⟩⟩
  · have pushed : blockWritten i.val q l us s = tkPush (.image (targetSlot s)
        (us.filter (fun u => decide (unitData s (targetSlot s) u.1 = none))) (some i.val)) (holdTag i.val (restarted l s)) :=
      (if_neg hdata).trans (if_neg hunits)
    have some_ : ¬∀ u ∈ us, u.1 ∈ (getSlot s (targetSlot s)).units := fun e => hunits (by simpa using e)
    have held := holdTag_only (a0 := i.val) (s := restarted l s) (.refl _) (.refl _ _)
    rw [pushed]
    refine ⟨?_, fun e => absurd e known, fun _ => ⟨fun e => absurd e some_, fun _ => ?_⟩⟩
    · rw [(tkPush_only (.refl _) (.refl _ _)).img rfl, held.img rfl]
      rfl
    · obtain ⟨queued, longer⟩ := tkPush_queue (s := holdTag i.val (restarted l s))
        (op := .image (targetSlot s) (us.filter (fun u => decide (unitData s (targetSlot s) u.1 = none))) (some i.val))
      refine ⟨queued, ?_, { q with wait := true }, holdTag_waits tag, rfl, rfl⟩
      rw [longer, held.tk rfl]
      rfl

/-! ### VERIFY (R378) -/

/-- The machine when an image has failed its checks: the slot is to be written again. -/
def unverified (l : Lease) (k : Nat) (s : State) : State :=
  setLease (some { l with lastFn := (eraseSlot k (setSlot k { getSlot s k with units := [] } s)).fn }) 1
    ((showManifest k (eraseSlot k (setSlot k { getSlot s k with units := [] } s))).put (K.imSlotState k) 1)

/-- VERIFY of an OPEN or VERIFIED lease. -/
def verified (i : Nat) (q : Tag) (l : Lease) (s : State) : State :=
  if (getSlot s (targetSlot s)).units.length < l.size / 256 then answerReject i 13 (portNo q.port) l.digest s
  else if imageCheck s (targetSlot s) = 0 then
    answer i 0 (slice (manifestOf s (targetSlot s)) 40 4 ++ slice (manifestOf s (targetSlot s)) 16 1 ++ slice (manifestOf s (targetSlot s)) 17 1)
      ((setLease (some { l with lastFn := s.fn }) 2 s).put (K.imSlotState (targetSlot s)) 2)
  else answerReject i (imageCheck s (targetSlot s)) (portNo q.port) l.digest (unverified l (targetSlot s) s)

theorem execVerify_holds (h : Calls s (.verify i) i q o) (hl : s.img.lease = some l) (hh : holds s q = true) : exec (.verify i) s = .next
    (if leaseState s ≠ 1 ∧ leaseState s ≠ 2 then answer i.val 0x10 [] s else verified i.val q { l with lastFn := s.fn } (restarted l s)) := by
  show execVerify i s = _
  unfold execVerify
  rw [runMethod_calls h rfl]
  dsimp only
  rw [if_neg (by simp [hh])]
  refine congrArg _ (ite_congr rfl (fun _ => rfl) (fun _ => ?_))
  have held : (touchLease q s).img.lease = some { l with lastFn := s.fn } := by
    rw [touchLease_holds hl hh]
  rw [show restarted l s = touchLease q s from (touchLease_holds hl hh).symm]
  generalize touchLease q s = u at held ⊢
  rw [held]
  rfl

/-- The states of the image slots are objects of their own. -/
theorem imSlotState_ne {k : Nat} (hk : k ≤ 1) : K.imSlotState k ≠ liveKey K.leaseState := by
  obtain rfl | rfl : k = 0 ∨ k = 1 := by omega
  · decide
  · decide

theorem leaseState_put {k v : Nat} (h : k ≠ liveKey K.leaseState) : leaseState (s.put k v) = leaseState s := live_put_ne h

theorem leaseState_noteReject {reason port : Nat} {digest : Bytes} : leaseState (noteReject reason port digest s) = leaseState s :=
  (get_event (by decide) (by decide)).trans (get_put_ne (by decide))

theorem leaseState_answerReject {n reason port : Nat} {digest : Bytes} : leaseState (answerReject n reason port digest s) = leaseState s :=
  leaseState_answer.trans leaseState_noteReject

theorem unverified_only {k : Nat} : Only 98340 s (unverified l k s) := by
  unfold unverified
  exact setLease_only ((Within.refl _).of rfl) (State_put_only ((Within.refl _).of rfl) (showManifest_only ((Within.refl _).of rfl)
    (eraseSlot_only ((Within.refl _).of rfl) (setSlot_only ((Within.refl _).of rfl) (.refl _ s)))))

theorem unverified_units {k : Nat} : (getSlot (unverified l k s) k).units = [] := by
  have kept : Only 65540 (setSlot k { getSlot s k with units := [] } s)
      ((showManifest k (eraseSlot k (setSlot k { getSlot s k with units := [] } s))).put (K.imSlotState k) 1) :=
    State_put_only ((Within.refl _).of rfl) (showManifest_only ((Within.refl _).of rfl) (eraseSlot_only ((Within.refl _).of rfl) (.refl _ _)))
  unfold getSlot unverified
  rw [setLease_img]
  dsimp only
  rw [kept.img rfl]
  show (tget {} (tset {} s.img.slots k { getSlot s k with units := [] }) k).units = []
  rw [tget_tset_self]

/-- What VERIFY of an OPEN or VERIFIED lease brings about (R378). -/
theorem verified_effects (h : Calls s (.verify i) i q o) {u : State} (hu : u = restarted l s) :
    ((getSlot u (targetSlot u)).units.length < l.size / 256 →
      Replies (verified i.val q { l with lastFn := s.fn } u) i.val q o 0x51 (le 1 13) ∧
      leaseState (verified i.val q { l with lastFn := s.fn } u) = leaseState s) ∧
    (l.size / 256 ≤ (getSlot u (targetSlot u)).units.length →
      (imageCheck u (targetSlot u) = 0 → leaseState (verified i.val q { l with lastFn := s.fn } u) = 2 ∧
        (verified i.val q { l with lastFn := s.fn } u).img.lease = some { l with lastFn := s.fn } ∧
        Replies (verified i.val q { l with lastFn := s.fn } u) i.val q o 0 (slice (manifestOf u (targetSlot u)) 40 4 ++
          slice (manifestOf u (targetSlot u)) 16 1 ++ slice (manifestOf u (targetSlot u)) 17 1)) ∧
      (imageCheck u (targetSlot u) ≠ 0 → leaseState (verified i.val q { l with lastFn := s.fn } u) = 1 ∧
        (getSlot (verified i.val q { l with lastFn := s.fn } u) (targetSlot u)).units = [] ∧
        Replies (verified i.val q { l with lastFn := s.fn } u) i.val q o 0x51 (le 1 (imageCheck u (targetSlot u))))) := by
  have tag : getTag u i.val = some q := by rw [hu]; exact h.serves.tag
  have state : leaseState u = leaseState s := by rw [hu]; rfl
  have now : u.fn = s.fn := by rw [hu]; rfl
  have carried : ∀ {v : State} {reason port : Nat} {digest : Bytes}, v.srv = u.srv →
      Replies (answerReject i.val reason port digest v) i.val q o 0x51 (le 1 reason) := by
    intro v reason port digest e
    refine h.serves.answers (carries_of ?_)
    unfold getTag at tag ⊢
    rw [(noteReject_only (.refl _) (.refl _ _)).srv rfl, e, tag]
  refine ⟨fun hfew => ?_, fun hall => ⟨fun hok => ?_, fun hbad => ?_⟩⟩
  · have few : verified i.val q { l with lastFn := s.fn } u = answerReject i.val 13 (portNo q.port) l.digest u := if_pos hfew
    rw [few]
    exact ⟨carried rfl, leaseState_answerReject.trans state⟩
  · have good : verified i.val q { l with lastFn := s.fn } u = answer i.val 0 (slice (manifestOf u (targetSlot u)) 40 4 ++
        slice (manifestOf u (targetSlot u)) 16 1 ++ slice (manifestOf u (targetSlot u)) 17 1)
        ((setLease (some { l with lastFn := u.fn }) 2 u).put (K.imSlotState (targetSlot u)) 2) := (if_neg (Nat.not_lt.mpr hall)).trans (if_pos hok)
    rw [good]
    refine ⟨?_, ?_, h.serves.answers (carries_of ?_)⟩
    · rw [leaseState_answer, leaseState_put (imSlotState_ne targetSlot_le), leaseState_setLease]
    · rw [answer_srv.img rfl, ← now]
      exact congrArg Imgs.lease setLease_img
    · unfold getTag at tag ⊢
      rw [← tag]
      exact congrArg (fun v : Srv => tget none v.tags i.val) ((setLease_only (.refl _) (.refl _ _)).srv rfl)
  · have bad : verified i.val q { l with lastFn := s.fn } u = answerReject i.val (imageCheck u (targetSlot u)) (portNo q.port) l.digest
        (unverified { l with lastFn := s.fn } (targetSlot u) u) := (if_neg (Nat.not_lt.mpr hall)).trans (if_neg hbad)
    rw [bad]
    refine ⟨leaseState_answerReject.trans leaseState_setLease, ?_, carried (unverified_only.srv rfl)⟩
    unfold getSlot
    rw [answerReject_img]
    exact unverified_units

end

/-- Settles O43, by what a block finds of its units and what the check finds of the image. -/
theorem imagesAreWritten : Obligations.ImagesAreWritten := by
  unfold Obligations.ImagesAreWritten
  refine ⟨?_, ?_⟩
  · rintro i q o l s off d h rfl rfl hl
    have step := execWriteBlock_leased h hl
    refine ⟨_, step, exec_frame step, fun hbad => ?_, fun h1 h2 h3 => ?_⟩
    · rw [if_pos (show badBlock _ _ _ from hbad)]
      exact h.refusedFrame
    · have good : ¬badBlock l.size (at_ o.data 0 4) (o.data.drop 4).length := by
        unfold badBlock
        omega
      rw [if_neg good]
      refine ⟨fun hh => ?_, fun hh hst => ?_, fun hh hst => ?_⟩
      · rw [if_pos hh]
        exact h.held hl
      · rw [if_neg (by simp [hh]), if_pos hst]
        exact h.refusedFrame
      · rw [if_neg (by simp [hh]), if_neg (Decidable.not_not.mpr hst)]
        exact blockWritten_effects h
  · intro i q o l s h hl hh
    have step := execVerify_holds h hl hh
    refine ⟨_, step, exec_frame step, fun h1 h2 => ?_, fun hst => ?_⟩
    · rw [if_pos ⟨h1, h2⟩]
      exact h.refusedFrame
    · rw [if_neg (fun e => hst.elim e.1 e.2)]
      obtain ⟨few, all⟩ := verified_effects (l := l) h rfl
      exact ⟨few, fun e c hc => by subst hc; exact all e⟩

/-! ### The end of a lease (R379) -/

/-- A scheduled activation that is taken back. -/
theorem cancelHand_effects : (cancelHand s).img = { s.img with hand := none } ∧ leaseState (cancelHand s) = 2 ∧
    ∀ c ∈ (cancelHand s).commits, c.done = false → ∀ k, c.eff ≠ .activate k := by
  have shown : ∀ u : State, Only 36 u ((u.putLive K.activateB 0).putLive K.leaseState 2) := fun u =>
    State_putLive_only (.refl _) (State_putLive_only (.refl _) (.refl _ _))
  refine ⟨(shown _).img rfl, live_putLive_self, ?_⟩
  intro c hc hdone k heff
  have kept : (cancelHand s).commits = s.commits.filter (fun c => c.done || (match c.eff with | .activate _ => false | _ => true)) :=
    (shown _).commits rfl
  rw [kept, List.mem_filter, hdone, heff] at hc
  exact absurd hc.2 (by simp)

/-- Settles O44, by the two ends of a lease. -/
theorem leasesEnd : Obligations.LeasesEnd := by
  unfold Obligations.LeasesEnd
  refine ⟨?_, ?_⟩
  · intro i q o s h hh
    have step : exec (.abort i) s = .next (if handFixed s = true then answer i.val 0x10 [] s
        else if holds s q = false then answerHeld i.val s
        else if leaseState s = 3 then answer i.val 0 [] (cancelHand (touchLease q s))
        else answer i.val 0 [] (endLease s)) := by
      show execAbort i s = _
      unfold execAbort
      rw [runMethod_calls h rfl]
    refine ⟨_, step, exec_frame step, fun hfix => ?_, fun hfix hst => ?_, fun hfix hst => ?_⟩
    · rw [if_pos hfix]
      exact h.refusedFrame
    · rw [if_neg (by simp [hfix]), if_neg (by simp [hh]), if_pos hst]
      obtain ⟨img, state, commits⟩ := cancelHand_effects (s := touchLease q s)
      have srv : (cancelHand (touchLease q s)).srv = s.srv :=
        ((cancelHand_only (.refl _) (.refl _ _)).srv rfl).trans ((touchLease_only (.refl _) (.refl _ _)).srv rfl)
      refine ⟨h.serves.answers (h.carries.congr (by unfold getTag; rw [srv])), ?_, leaseState_answer.trans state, ?_⟩
      · rw [answer_srv.img rfl, img]
      · rw [answer_srv.commits rfl]
        exact commits
    · rw [if_neg (by simp [hfix]), if_neg (by simp [hh]), if_neg hst]
      have ended := endLease_only (s := s) (.refl _) (.refl _ _)
      refine ⟨h.serves.answers (h.carries.congr (by unfold getTag; rw [ended.srv rfl])), ?_, leaseState_answer.trans leaseState_setLease, ?_⟩
      · rw [answer_srv.img rfl, endLease_img]
      · rw [answer_srv.commits rfl, ended.commits rfl]
  · intro l s hl hst
    have step : exec .leaseExpiry s = .next (if (leaseState s = 1 ∨ leaseState s = 2) ∧ l.lastFn + 122880 ≤ s.fn then
        endLease (s.event 0x0703 [match l.holders with | h :: _ => h.port | [] => 0xFF, (getSlot s (targetSlot s)).units.length]) else s) := by
      show execLeaseExpiry s = _
      unfold execLeaseExpiry
      rw [hl] <;> rfl
    refine ⟨fun hf => ?_, fun hf => ?_⟩
    · rw [if_pos ⟨hst, hf⟩] at step
      refine ⟨_, step, exec_frame step, ?_, leaseState_setLease⟩
      rw [endLease_img, (State_event_only (.refl _) (.refl _ _)).img rfl]
    · rw [step, if_neg (fun e => absurd e.2 (Nat.not_le.mpr hf))]

/-! ### Owner keys (R363, R365) -/

/-- What a key command that passes writes into its slot. -/
def keyWritten (d : Bytes) (s : State) : Nat :=
  if at_ d 2 1 = 1 then 1 + 256 * at_ d 16 32 else 2 + 256 * (s.get (K.owner (at_ d 3 1)) / 256)

/-- The machine when a key command has written its slot: an image that the key has signed is INVALID when it is revoked. -/
def keyTaken (d : Bytes) (s : State) : State :=
  let t := s.put (K.owner (at_ d 3 1)) (keyWritten d s)
  let other := 1 - t.get K.activeSlot
  if at_ d 2 1 = 2 ∧ t.get (K.imSlotState other) ≠ 0 ∧ at_ (manifestOf t other) 17 1 = at_ d 3 1 + 1 then t.put (K.imSlotState other) 5 else t

/-- The machine when it is noted. -/
def keyNoted (q : Tag) (d : Bytes) (s : State) : State :=
  let t := (keyTaken d s).event 0x0706 [at_ d 2 1, at_ d 3 1, at_ d 13 1]
  legalNote 0 t.fn (portNo q.port) (roleOf t q) 1 K.keyCommand t

theorem execKeyCommand_calls {i : Fin 48} {q : Tag} {o : Op} (h : Calls s (.keyCommand i) i q o) : exec (.keyCommand i) s = .next
    (if keyCheck s o.data ≠ 0 then answer i.val 0x20 (le 1 (keyCheck s o.data)) s else answer i.val 0 [] (keyNoted q o.data s)) := by
  show execKeyCommand i s = _
  unfold execKeyCommand
  rw [runMethod_calls h rfl]
  rfl

/-- A command that passes names one of two operations and one of four slots. -/
theorem keyCheck_passes {d : Bytes} (h : keyCheck s d = 0) : (at_ d 2 1 = 1 ∨ at_ d 2 1 = 2) ∧ at_ d 3 1 ≤ 3 := by
  unfold keyCheck at h
  dsimp only at h
  split at h
  · cases h
  · omega

/-- The owner slots are objects of their own. -/
theorem owner_ne {j : Nat} (hj : j < 4) : K.stalls 5 ≠ K.owner j ∧ K.eventsLost ≠ K.owner j ∧ K.txnLegalCommits ≠ K.owner j ∧
    ∀ k ≤ 1, K.imSlotState k ≠ K.owner j := by
  have slots : ∀ j < 4, K.stalls 5 ≠ K.owner j ∧ K.eventsLost ≠ K.owner j ∧ K.txnLegalCommits ≠ K.owner j := by decide
  obtain ⟨stall, lost, legal⟩ := slots j hj
  exact ⟨stall, lost, legal, (by decide : ∀ j < 4, ∀ k ≤ 1, K.imSlotState k ≠ K.owner j) j hj⟩

theorem get_legalNote {a b c e f g j : Nat} (h1 : K.stalls 5 ≠ j) (h2 : K.eventsLost ≠ j) (h3 : K.txnLegalCommits ≠ j) :
    (legalNote a b c e f g s).get j = s.get j := (get_event h1 h2).trans (get_bump_ne h3)

/-- The owner slots after a key command. -/
theorem keyNoted_owner {q : Tag} {d : Bytes} {j : Nat} (hj : j < 4) : (keyNoted q d s).get (K.owner j) =
    if at_ d 3 1 = j then keyWritten d s else s.get (K.owner j) := by
  obtain ⟨stall, lost, legal, slot⟩ := owner_ne hj
  have noted : (keyNoted q d s).get (K.owner j) = (keyTaken d s).get (K.owner j) := (get_legalNote stall lost legal).trans (get_event stall lost)
  have taken : (keyTaken d s).get (K.owner j) = (s.put (K.owner (at_ d 3 1)) (keyWritten d s)).get (K.owner j) := by
    unfold keyTaken
    dsimp only
    split
    · exact get_put_ne (slot _ (Nat.sub_le _ _))
    · rfl
  rw [noted, taken]
  split <;> rename_i hk
  · rw [hk]
    exact get_put_self
  · exact get_put_ne (fun e => hk (by unfold K.owner at e; omega))

/-- Settles O45, by what `keyCheck` finds. -/
theorem ownerKeysChange : Obligations.OwnerKeysChange := by
  unfold Obligations.OwnerKeysChange
  intro i q o s h
  have step := execKeyCommand_calls h
  refine ⟨_, step, exec_frame step, fun hbad => ?_, ?_⟩
  · rw [if_pos hbad]
    exact h.refusedFrame
  · rintro hok k rfl
    obtain ⟨hop, hslot⟩ := keyCheck_passes hok
    have noted : Only 33554436 s (keyNoted q o.data s) := by
      unfold keyNoted keyTaken
      dsimp only
      exact legalNote_only (.refl _) (State_event_only (.refl _) (Only.ite
        (fun _ => State_put_only ((Within.refl _).of rfl) (State_put_only ((Within.refl _).of rfl) (.refl _ _)))
        (fun _ => State_put_only ((Within.refl _).of rfl) (.refl _ _))))
    have owner : ∀ {j : Nat}, j < 4 → (answer i.val 0 [] (keyNoted q o.data s)).get (K.owner j) =
        if at_ o.data 3 1 = j then keyWritten o.data s else s.get (K.owner j) := fun hj => answer_get.trans (keyNoted_owner hj)
    have own := owner (j := at_ o.data 3 1) (by omega)
    rw [if_pos rfl] at own
    rw [if_neg (Decidable.not_not.mpr hok)]
    refine ⟨h.serves.answers (h.carries.congr (by unfold getTag; rw [noted.srv rfl])), fun h1 => ?_, fun h2 => ?_, fun j hj hne => ?_⟩
    · unfold ownerState
      rw [own, keyWritten, if_pos h1]
      omega
    · unfold ownerState
      rw [own, keyWritten, if_neg (by omega)]
      omega
    · rw [owner hj, if_neg (Ne.symm hne)]

end Sys2Proof.Machine
end

section
/-! PROOF. The handover to a new image, signed readings and host tokens (R196, R199 to R201, R381 to R385). -/

namespace Sys2Proof.Machine

variable {s : State}

/-! ### The restart of the operational core -/

section
variable {u : State}

theorem retryTag_sess {i : Nat} {t : Tag} : (retryTag i t s).srv.sess = s.srv.sess := by
  unfold retryTag
  split
  · rfl
  · split
    · rfl
    · rfl

theorem foldl_sess {α : Type} {f : State → α → State} (h : ∀ u a, (f u a).srv.sess = u.srv.sess) (l : List α) : (l.foldl f s).srv.sess = s.srv.sess := by
  induction l generalizing s with
  | nil => rfl
  | cons a l ih => exact ih.trans (h s a)

/-- The restart ends transactions and subscriptions and takes READY back; the sessions stay (R382). -/
theorem restartCore_effects : (restartCore s).ready = false ∧ (restartCore s).srv.txns = [] ∧ (restartCore s).srv.subs = [] ∧
    (restartCore s).srv.sess = s.srv.sess := by
  have answered := foldl_sess (s := s) (fun u e => retryTag_sess (s := u) (i := e.1) (t := e.2)) (usedTags s)
  unfold restartCore
  generalize (usedTags s).foldl (fun s e => retryTag e.1 e.2 s) s = u at answered ⊢
  refine ⟨rfl, ?_, rfl, answered⟩
  show u.srv.txns.filter (fun _ => !true) = []
  simp

theorem get_restartCore {k : Nat} : (restartCore s).get k = s.get k :=
  get_of_dict ((restartCore_only (.refl _) (.refl _ _)).dict rfl) k

end

/-! ### What the end of a handover shows -/

/-- The states of the image slots are no live objects and no counters. -/
theorem imSlotState_apart {k : Nat} (hk : k < 2) : (∀ x ∈ leaseShown, liveKey x ≠ K.imSlotState k) ∧ liveKey K.leaseState ≠ K.imSlotState k ∧
    liveKey K.activateB ≠ K.imSlotState k ∧ liveKey K.healthLeft ≠ K.imSlotState k ∧ K.stalls 5 ≠ K.imSlotState k ∧
    K.eventsLost ≠ K.imSlotState k := by
  obtain rfl | rfl : k = 0 ∨ k = 1 := by omega
  · exact ⟨by decide, by decide, by decide, by decide, by decide, by decide⟩
  · exact ⟨by decide, by decide, by decide, by decide, by decide, by decide⟩

theorem get_clearHand {j : Nat} (h : ∀ x ∈ leaseShown, liveKey x ≠ j) (h1 : liveKey K.leaseState ≠ j) (h2 : liveKey K.activateB ≠ j)
    (h3 : liveKey K.healthLeft ≠ j) : (clearHand s).get j = s.get j := by
  unfold clearHand
  rw [get_putLive_ne h3, get_putLive_ne h2]
  exact get_setLease h h1

/-- After a handover no lease and no activation is left. -/
theorem clearHand_effects : (clearHand s).img = { s.img with hand := none, lease := none } ∧ leaseState (clearHand s) = 0 ∧
    (clearHand s).get K.activeSlot = s.get K.activeSlot ∧ ∀ k < 2, (clearHand s).get (K.imSlotState k) = s.get (K.imSlotState k) := by
  have shown : Only 36 (endLease (setHand none s)) (clearHand s) :=
    State_putLive_only (.refl _) (State_putLive_only (.refl _) (.refl _ _))
  refine ⟨?_, ?_, get_clearHand (by decide) (by decide) (by decide) (by decide), fun k hk => ?_⟩
  · rw [shown.img rfl, endLease_img]
    rfl
  · have kept : leaseState (clearHand s) = leaseState (endLease (setHand none s)) :=
      (live_putLive_ne (by decide)).trans (live_putLive_ne (by decide))
    exact kept.trans leaseState_setLease
  · obtain ⟨shownNe, lease, activate, health, -, -⟩ := imSlotState_apart hk
    exact get_clearHand shownNe lease activate health

/-- The identity objects of an image govern from its frame on (R263, R362). -/
theorem showImage_effects {f k : Nat} : (showImage f k s).live K.idCheck = at_ (manifestOf s k) 40 4 ∧
    (showImage f k s).live K.idOpVersion = at_ (manifestOf s k) 20 4 := by
  refine ⟨?_, live_putDue_self⟩
  unfold showImage
  dsimp only
  rw [live_putDue_ne (by decide), live_putDue_ne (by decide), live_putDue_self]

theorem get_showImage {f k j : Nat} (h1 : liveKey K.idCheck ≠ j) (h2 : liveKey K.idLegalDigest ≠ j) (h3 : liveKey K.idOpVersion ≠ j) :
    (showImage f k s).get j = s.get j := by
  unfold showImage
  dsimp only
  rw [get_putDue_ne h3, get_putDue_ne h2, get_putDue_ne h1]

theorem get_advanceSvn {v j : Nat} (h : K.svnCounter ≠ j) (h1 : K.stalls 5 ≠ j) (h2 : K.eventsLost ≠ j) :
    (advanceSvn v s).get j = s.get j := by
  unfold advanceSvn
  dsimp only
  split
  · exact (get_event h1 h2).trans (get_put_ne h)
  · rfl

/-! ### The commands of a handover -/

section
variable {h : Handover} (hh : s.img.hand = some h)
include hh

theorem execHandoverPrepared_due {ok : Bool} (hp : h.prepared = false) (hb : s.fn + 16 < h.b) : exec (.handoverPrepared ok) s = .next
    (if ok then setHand (some { h with prepared := true }) s
    else cancelHand (noteReject 8 (match s.img.lease with | some x => (match x.holders with | a :: _ => a.port | [] => 0xFF) | none => 0xFF)
      (match s.img.lease with | some x => x.digest | none => []) s)) := by
  show execHandoverPrepared ok s = _
  unfold execHandoverPrepared
  rw [hh]
  exact congrArg _ (if_pos ⟨hp, hb⟩)

theorem execHandoverQuiesce_hand : exec .handoverQuiesce s = .next
    (if h.prepared ∧ h.quiet = false ∧ h.b ≤ s.fn + 16 then setHand (some { h with quiet := true }) s else s) := by
  show execHandoverQuiesce s = _
  unfold execHandoverQuiesce
  rw [hh]

/-- The machine when the operational core has restarted from the new slot. -/
def coreRestarted (h : Handover) (s : State) : State :=
  (((restartCore (setHand (some { h with begun := true }) s)).putLive K.leaseState 4).put (K.imSlotState h.slot) 4).putLive K.healthLeft 1024

theorem execHandoverAtB_hand (hq : h.quiet = true) (hb : h.begun = false) (hf : h.b ≤ s.fn) :
    exec .handoverAtB s = .next (coreRestarted h s) := by
  show execHandoverAtB s = _
  unfold execHandoverAtB
  rw [hh]
  exact congrArg _ (if_pos ⟨hq, hb, hf⟩)

theorem execHandoverBankSwitch_hand (hb : h.begun = true) (hs : h.switched = false) (hf : h.b + 1 ≤ s.fn) :
    exec .handoverBankSwitch s = .next (showImage h.b h.slot (setHand (some { h with switched := true }) s)) := by
  show execHandoverBankSwitch s = _
  unfold execHandoverBankSwitch
  rw [hh]
  exact congrArg _ (if_pos ⟨hb, hs, hf⟩)

/-- The machine when the new slot is the active one, its SVN has advanced the counter, and the old slot is the fallback. -/
def imageActive (h : Handover) (s : State) : State :=
  let t := advanceSvn (at_ (manifestOf s h.slot) 16 1) ((s.put K.activeSlot h.slot).put (K.imSlotState h.slot) 3)
  t.put (K.imSlotState (s.get K.activeSlot)) (if at_ (manifestOf s (s.get K.activeSlot)) 16 1 < t.get K.svnCounter then 5 else 2)

/-- The machine when the pass is counted and noted. -/
def passNoted (h : Handover) (s : State) : State :=
  let mo := manifestOf s (s.get K.activeSlot)
  let mn := manifestOf s h.slot
  ((imageActive h s).bump K.activations).event 0x0700 [h.slot, at_ mo 40 4, at_ mn 40 4, at_ mo 20 4, at_ mn 20 4, h.b]

theorem execHealthCheckPass_hand (hp : h.pass = true) : exec .healthCheckPass s = .next (clearHand (passNoted h s)) := by
  show execHealthCheckPass s = _
  unfold execHealthCheckPass
  rw [hh]
  exact congrArg _ (if_pos hp)

/-- The machine when it has handed back to the old image. -/
def handedBack (h : Handover) (c f : Nat) (s : State) : State :=
  ((showImage s.fn (s.get K.activeSlot) (restartCore (s.put (K.imSlotState h.slot) 5))).bump K.reverts).event 0x0701 [s.get K.activeSlot, c, f]

theorem execImageRevert_hand {c f : Nat} (hf : h.fail = some (c, f)) : exec .imageRevert s = .next
    (if f + 2 ≤ s.fn then clearHand (handedBack h c f s) else s) := by
  show execImageRevert s = _
  unfold execImageRevert
  rw [hh]
  dsimp only
  rw [hf]
  rfl

end

/-- An image that passed is the active one, in state ACTIVE (R384). -/
theorem passNoted_effects {h : Handover} (hk : h.slot < 2) (ho : s.get K.activeSlot = 1 - h.slot) :
    (passNoted h s).get K.activeSlot = h.slot ∧ (passNoted h s).get (K.imSlotState h.slot) = 3 ∧ (passNoted h s).img = s.img := by
  obtain ⟨-, -, -, -, stall, lost⟩ := imSlotState_apart hk
  have slots : K.svnCounter ≠ K.imSlotState h.slot ∧ K.activations ≠ K.imSlotState h.slot ∧ K.imSlotState (1 - h.slot) ≠ K.imSlotState h.slot ∧
      K.imSlotState (1 - h.slot) ≠ K.activeSlot ∧ K.imSlotState h.slot ≠ K.activeSlot := by
    generalize h.slot = k at hk ⊢
    obtain rfl | rfl : k = 0 ∨ k = 1 := by omega
    · decide
    · decide
  obtain ⟨svn, count, other, otherActive, ownActive⟩ := slots
  refine ⟨?_, ?_, ?_⟩
  · unfold passNoted imageActive
    dsimp only
    rw [get_event (by decide) (by decide), get_bump_ne (by decide), ho, get_put_ne otherActive,
      get_advanceSvn (by decide) (by decide) (by decide), get_put_ne ownActive, get_put_self]
  · unfold passNoted imageActive
    dsimp only
    rw [get_event stall lost, get_bump_ne count, ho, get_put_ne other, get_advanceSvn svn stall lost, get_put_self]
  · have kept : Only 33554436 s (passNoted h s) :=
      State_event_only ((Within.refl _).of rfl) (State_bump_only ((Within.refl _).of rfl) (State_put_only ((Within.refl _).of rfl)
        (advanceSvn_only (.refl _) (State_put_only ((Within.refl _).of rfl) (State_put_only ((Within.refl _).of rfl) (.refl _ _))))))
    exact kept.img rfl

/-- Ozmar that has handed back runs the old image, and the new slot is INVALID (R385). -/
theorem handedBack_effects {h : Handover} {c f : Nat} (hk : h.slot < 2) : (handedBack h c f s).get K.activeSlot = s.get K.activeSlot ∧
    (handedBack h c f s).get (K.imSlotState h.slot) = 5 ∧ (handedBack h c f s).img = s.img ∧ (handedBack h c f s).ready = false := by
  obtain ⟨-, -, -, -, stall, lost⟩ := imSlotState_apart hk
  have slots : liveKey K.idCheck ≠ K.imSlotState h.slot ∧ liveKey K.idLegalDigest ≠ K.imSlotState h.slot ∧
      liveKey K.idOpVersion ≠ K.imSlotState h.slot ∧ K.reverts ≠ K.imSlotState h.slot ∧ K.imSlotState h.slot ≠ K.activeSlot := by
    generalize h.slot = k at hk ⊢
    obtain rfl | rfl : k = 0 ∨ k = 1 := by omega
    · decide
    · decide
  obtain ⟨check, digest, version, count, active⟩ := slots
  have shown : Only 33554500 (restartCore (s.put (K.imSlotState h.slot) 5)) (handedBack h c f s) :=
    State_event_only ((Within.refl _).of rfl) (State_bump_only ((Within.refl _).of rfl) (showImage_only ((Within.refl _).of rfl) (.refl _ _)))
  refine ⟨?_, ?_, ?_, (shown.ready rfl).trans restartCore_effects.1⟩
  · unfold handedBack
    rw [get_event (by decide) (by decide), get_bump_ne (by decide), get_showImage (by decide) (by decide) (by decide), get_restartCore,
      get_put_ne active]
  · unfold handedBack
    rw [get_event stall lost, get_bump_ne count, get_showImage check digest version, get_restartCore, get_put_self]
  · rw [shown.img rfl, (restartCore_only (.refl _) (.refl _ _)).img rfl]
    rfl

/-- The operational core that restarts from a new slot begins its health check (R382, R383). -/
theorem coreRestarted_effects {h : Handover} (hk : h.slot < 2) : (coreRestarted h s).img = { s.img with hand := some { h with begun := true } } ∧
    (coreRestarted h s).ready = false ∧ (coreRestarted h s).srv.txns = [] ∧ (coreRestarted h s).srv.subs = [] ∧
    (coreRestarted h s).srv.sess = s.srv.sess ∧ leaseState (coreRestarted h s) = 4 ∧ (coreRestarted h s).get (K.imSlotState h.slot) = 4 ∧
    (coreRestarted h s).live K.healthLeft = 1024 := by
  obtain ⟨-, lease, -, health, -, -⟩ := imSlotState_apart hk
  have shown : Only 36 (restartCore (setHand (some { h with begun := true }) s)) (coreRestarted h s) :=
    State_putLive_only (.refl _) (State_put_only ((Within.refl _).of rfl) (State_putLive_only (.refl _) (.refl _ _)))
  obtain ⟨ready, txns, subs, sess⟩ := restartCore_effects (s := setHand (some { h with begun := true }) s)
  refine ⟨?_, (shown.ready rfl).trans ready, (congrArg Srv.txns (shown.srv rfl)).trans txns, (congrArg Srv.subs (shown.srv rfl)).trans subs,
    (congrArg Srv.sess (shown.srv rfl)).trans sess, ?_, ?_, live_putLive_self⟩
  · rw [shown.img rfl, (restartCore_only (.refl _) (.refl _ _)).img rfl]
    rfl
  · exact (live_putLive_ne (by decide)).trans ((live_put_ne lease.symm).trans live_putLive_self)
  · exact (get_putLive_ne health).trans get_put_self

/-- Settles O46, by what each command of a handover does to the lease, the slots and the operational core. -/
theorem handoversRun : Obligations.HandoversRun := by
  unfold Obligations.HandoversRun
  intro h s hh
  refine ⟨fun hp hb => ⟨execHandoverPrepared_due hh hp hb, ?_⟩, fun hp hq hb => ?_, fun hb => ?_, fun hq hb hf hk => ?_, fun hb hs hf => ?_,
    fun hp hk ho => ?_, fun c f hf hk ho => ⟨fun hdue => ?_, fun hearly => ?_⟩⟩
  · have step := execHandoverPrepared_due (ok := false) hh hp hb
    rw [if_neg (by decide)] at step
    refine ⟨_, step, exec_frame step, ?_⟩
    obtain ⟨img, state, -⟩ := cancelHand_effects (s := noteReject 8 (match s.img.lease with | some x => (match x.holders with | a :: _ => a.port | [] => 0xFF) | none => 0xFF)
      (match s.img.lease with | some x => x.digest | none => []) s)
    refine ⟨?_, state, ?_⟩
    · rw [img, (noteReject_only (.refl _) (.refl _ _)).img rfl]
    · unfold cancelHand
      dsimp only
      rw [get_putLive_ne (by decide), get_putLive_ne (by decide)]
      exact (get_event (by decide) (by decide)).trans get_put_self
  · exact (execHandoverQuiesce_hand hh).trans (congrArg _ (if_pos ⟨hp, hq, hb⟩))
  · exact (execHandoverQuiesce_hand hh).trans (congrArg _ (if_neg (fun e => absurd e.2.2 (Nat.not_le.mpr hb))))
  · have step := execHandoverAtB_hand hh hq hb hf
    exact ⟨_, step, exec_frame step, coreRestarted_effects hk⟩
  · have step := execHandoverBankSwitch_hand hh hb hs hf
    exact ⟨_, step, exec_frame step, (showImage_only (.refl _) (.refl _ _)).img rfl, showImage_effects⟩
  · have step := execHealthCheckPass_hand hh hp
    obtain ⟨active, slot, img⟩ := passNoted_effects (s := s) hk ho
    obtain ⟨cleared, lease, activeKept, slotKept⟩ := clearHand_effects (s := passNoted h s)
    exact ⟨_, step, exec_frame step, activeKept.trans active, (slotKept _ hk).trans slot, by rw [cleared, img], lease⟩
  · have step := execImageRevert_hand hh hf
    rw [if_pos hdue] at step
    obtain ⟨active, slot, img, ready⟩ := handedBack_effects (s := s) (c := c) (f := f) hk
    obtain ⟨cleared, lease, activeKept, slotKept⟩ := clearHand_effects (s := handedBack h c f s)
    exact ⟨_, step, exec_frame step, activeKept.trans active, (slotKept _ hk).trans slot, by rw [cleared, img],
      ((clearHand_only (.refl _) (.refl _ _)).ready rfl).trans ready, lease⟩
  · exact (execImageRevert_hand hh hf).trans (congrArg _ (if_neg (Nat.not_le.mpr hearly)))

/-! ### Signed readings (R199 to R201) -/

section
variable {i : Fin 48} {q : Tag} {o : Op}

/-- The certificates of the last 1,024 frames. -/
def freshCerts (s : State) : List Nat := s.bill.certs.filter (fun f => decide (s.fn < f + 1024))

/-- The number of the next certificate. -/
def nextSeq (s : State) : Nat := (s.get K.signedCount + 1) % 2 ^ 32

/-- The machine when a certificate is counted. -/
def certNoted (p : Snap) (s : State) : State :=
  ({ s with bill := { s.bill with certs := s.fn :: freshCerts s } }.put K.signedCount (nextSeq s)).put K.lastSignedFn p.fn

/-- READ_SIGNED of a well-formed list of objects. -/
theorem execReadSigned_listed (h : Serves s i.val q o) (hc : o.code = 0x12) {n : Nat} (hn : n = at_ o.data 8 1) (h1 : 1 ≤ n) (h2 : n ≤ 120)
    (hl : o.data.length = 9 + 3 * n) {ks : List Nat} (hk : ks = listedKeys (o.data.drop 9) n) : exec (.readSigned i) s = .next
    (if signStatus (roleOf s q) ks ≠ 0 then answer i.val (signStatus (roleOf s q) ks) [] s
    else if 50 ≤ (freshCerts s).length then answer i.val 0x11 [] (s.bump K.signedRefused)
    else match q.snap with
      | none => answer i.val 0x11 [] s
      | some p => answer i.val 0 (certBody s p (nextSeq s) (at_ o.data 0 8) ks ++
          slice (Config.identitySign (sha3_256 (certBody s p (nextSeq s) (at_ o.data 0 8) ks))) 0 2420) (markUsed i.val true (certNoted p s))) := by
  subst hn hk
  show execReadSigned i s = _
  unfold execReadSigned
  rw [runOp_serves h (by simp [hc])]
  dsimp only
  rw [if_neg (by omega), if_neg (by omega), if_neg (Decidable.not_not.mpr hl)]
  cases q.snap <;> rfl

/-- A list of no length that READ_SIGNED takes. -/
theorem execReadSigned_short (h : Serves s i.val q o) (hc : o.code = 0x12) (hl : o.data.length < 9) :
    exec (.readSigned i) s = .next (answer i.val 0x31 [] s) := by
  show execReadSigned i s = _
  unfold execReadSigned
  rw [runOp_serves h (by simp [hc])]
  exact congrArg _ (if_pos hl)

theorem execReadSigned_range (h : Serves s i.val q o) (hc : o.code = 0x12) (hl : 9 ≤ o.data.length) (hn : at_ o.data 8 1 < 1 ∨ 120 < at_ o.data 8 1) :
    exec (.readSigned i) s = .next (answer i.val 0x32 [] s) := by
  show execReadSigned i s = _
  unfold execReadSigned
  rw [runOp_serves h (by simp [hc])]
  exact congrArg _ ((if_neg (Nat.not_lt.mpr hl)).trans (if_pos hn))

/-! ### Host tokens (R196, R249) -/

/-- The machine when a token has been accepted for the next tick. -/
def tokenTaken (v : Nat) (s : State) : State :=
  setSrv (fun x => { x with vput := x.vput.filter (fun e => decide (e.1 ≠ K.hostToken)) ++ [(K.hostToken, v)] }) s

/-- It is judged against INSTALL_TOKEN. -/
def tokenJudged (v : Nat) (s : State) : State :=
  if s.cfg s.fn K.installToken = 0 ∨ s.cfg s.fn K.installToken ≠ v then raiseStale 0 (tokenTaken v s) else tokenTaken v s

theorem execHostTokenWrite_serves (h : Serves s i.val q o) (hc : o.code = 0x20) (hk : o.key = K.hostToken) {c : Nat × Nat}
    (e : c = checkWrite s (roleOf s q) o.key o.data) : exec (.hostTokenWrite i) s = .next
    (if c.1 ≠ 0 then answer i.val c.1 [] s
    else if inReadOnly s q then answer i.val 0x33 [] s
    else answer i.val 0 (le 6 ((tokenJudged c.2 s).fn + 1)) (tickTag i.val ((tokenJudged c.2 s).fn + 1) (tokenJudged c.2 s))) := by
  subst e
  show execHostTokenWrite i s = _
  unfold execHostTokenWrite
  rw [runOp_serves h (by simp [hc, hk])]
  rfl

theorem Carries.tickTag {f : Nat} (h : Carries s i.val q) : Carries (tickTag i.val f s) i.val q := by
  obtain ⟨t, tag, begun, ops, res⟩ := h
  refine ⟨{ t with tick := some f }, ?_, begun, ops, res⟩
  unfold Machine.tickTag
  rw [tag]
  show tget none (tset none s.srv.tags i.val (some { t with tick := some f })) i.val = _
  exact tget_tset_self

theorem get_tickTag {f k : Nat} : (tickTag i.val f s).get k = s.get k := get_of_dict ((tickTag_only (.refl _) (.refl _ _)).dict rfl) k

theorem tickTag_vput {f : Nat} : (tickTag i.val f s).srv.vput = s.srv.vput := by
  unfold tickTag
  split <;> rfl

end

/-- A cause of stale state stands once it is raised. -/
theorem raiseStale_cause {b : Nat} : bit ((raiseStale b s).get K.cause) b = true := by
  unfold raiseStale
  dsimp only
  split
  next set => exact set
  next clear =>
    rw [get_event (by decide) (by decide)]
    have raised : bit (((s.put K.cause (setBit (s.get K.cause) b)).put K.staleFn s.fn).get K.cause) b = true := by
      rw [get_put_ne (by decide), get_put_self]
      exact bit_setBit_self _ _
    split <;> exact raised

theorem tokenJudged_only {v : Nat} : Only 33562628 (tokenTaken v s) (tokenJudged v s) :=
  Only.ite (fun _ => raiseStale_only (.refl _) (.refl _ _)) (fun _ => .refl _ _)

/-- Settles O47, by what a certificate counts and what a token meets. -/
theorem certificatesAndTokens : Obligations.CertificatesAndTokens := by
  unfold Obligations.CertificatesAndTokens
  refine ⟨?_, ?_⟩
  · rintro i q o s n h hc rfl
    obtain ⟨t, step⟩ := everyCommandCompletes (.readSigned i) s
    have is : ∀ {u : State}, exec (.readSigned i) s = .next u → t = u := fun e => Host.Outcome.next.inj (step.symm.trans e)
    refine ⟨t, step, exec_frame step, fun hl => ?_, fun hl hn => ?_, fun h1 h2 hl ks hks => ?_⟩
    · rw [is (execReadSigned_short h hc hl)]
      exact ⟨h.answers h.carries, answer_srv.frame (by decide)⟩
    · rw [is (execReadSigned_range h hc hl hn)]
      exact ⟨h.answers h.carries, answer_srv.frame (by decide)⟩
    · have listed := is (execReadSigned_listed h hc rfl h1 h2 hl hks)
      refine ⟨fun hst => ?_, fun hst hfull => ?_, fun p hst hroom hp => ?_⟩
      · rw [listed, if_pos hst]
        exact ⟨h.answers h.carries, answer_srv.frame (by decide)⟩
      · rw [listed, if_neg (Decidable.not_not.mpr hst), if_pos (show 50 ≤ (freshCerts s).length from hfull)]
        refine ⟨h.answers (h.carries.congr rfl), answer_srv.bill rfl, ?_⟩
        rw [answer_get]
        exact get_bump_self
      · rw [listed, if_neg (Decidable.not_not.mpr hst), if_neg (show ¬50 ≤ (freshCerts s).length from Nat.not_le.mpr hroom), hp]
        rintro seq body rfl rfl
        have noted : Carries (certNoted p s) i.val q := h.carries.congr rfl
        have kept : Only 262144 (certNoted p s) (answer i.val 0 (certBody s p (nextSeq s) (at_ o.data 0 8) ks ++
            slice (Config.identitySign (sha3_256 (certBody s p (nextSeq s) (at_ o.data 0 8) ks))) 0 2420) (markUsed i.val true (certNoted p s))) :=
          Only.trans (.refl _) (markUsed_only (.refl _) (.refl _ _)) answer_srv
        refine ⟨h.answers noted.markUsed, ?_, ?_, ?_⟩
        · exact (get_of_dict (kept.dict rfl) _).trans ((get_put_ne (by decide)).trans get_put_self)
        · exact (get_of_dict (kept.dict rfl) _).trans get_put_self
        · rw [kept.bill rfl]
          exact List.mem_cons_self
  · intro i q o s h hc hk
    have step := execHostTokenWrite_serves h hc hk rfl
    refine ⟨_, step, exec_frame step, ?_⟩
    rintro c rfl
    refine ⟨fun hst => ?_, fun hst hro => ?_, fun hst hro => ?_⟩
    · rw [if_pos hst]
      exact ⟨h.answers h.carries, answer_srv.frame (by decide)⟩
    · rw [if_neg (Decidable.not_not.mpr hst), if_pos hro]
      exact ⟨h.answers h.carries, answer_srv.frame (by decide)⟩
    · rw [if_neg (Decidable.not_not.mpr hst), if_neg (by simp [hro])]
      generalize (checkWrite s (roleOf s q) o.key o.data).2 = v
      have judged := tokenJudged_only (s := s) (v := v)
      have now : (tokenJudged v s).fn = s.fn := judged.fn rfl
      have carried : Carries (tokenJudged v s) i.val q := h.carries.congr (by unfold getTag; rw [judged.srv rfl] <;> rfl)
      rw [now]
      refine ⟨h.answers carried.tickTag, ?_, fun hne => ?_, fun hset heq => ?_⟩
      · rw [answer_vput, tickTag_vput, judged.srv rfl]
        exact List.mem_append_right _ (List.mem_singleton.mpr rfl)
      · have other : tokenJudged v s = raiseStale 0 (tokenTaken v s) := if_pos hne
        rw [answer_get, get_tickTag, other]
        exact raiseStale_cause
      · have same : tokenJudged v s = tokenTaken v s := if_neg (by rw [not_or, Decidable.not_not]; exact ⟨hset, heq⟩)
        rw [same]
        refine ⟨?_, fun k => ?_⟩
        · rw [answer_srv.bill rfl, (tickTag_only (.refl _) (.refl _ _)).bill rfl]
          rfl
        · rw [answer_get, get_tickTag]
          rfl

end Sys2Proof.Machine
end

section
/-! PROOF. The Tannery: aligned frames, windows, harmonic results and 10 s frequencies (R15, R110, R111, R142, R145, R160). -/

namespace Sys2Proof.Machine

variable {s t u : State}

/-! ### What detectors and windows leave alone -/

/-- The detectors of the voltages, the windows of core 1, and the rings between the cores stand as they did. -/
structure SameClocks (s t : State) : Prop where
  zc : t.tan.zc = s.tan.zc
  harm : t.tan.harm = s.tan.harm
  ring3 : t.tan.ring3 = s.tan.ring3
  ring4 : t.tan.ring4 = s.tan.ring4

namespace SameClocks

theorem refl (s : State) : SameClocks s s := ⟨rfl, rfl, rfl, rfl⟩

theorem trans (h : SameClocks s t) (k : SameClocks t u) : SameClocks s u :=
  ⟨k.zc.trans h.zc, k.harm.trans h.harm, k.ring3.trans h.ring3, k.ring4.trans h.ring4⟩

theorem of_tan (h : t.tan = s.tan) : SameClocks s t := by
  constructor <;> rw [h]

/-- What changes no state of the Tannery leaves them. -/
theorem of_only {m : Nat} (h : Only m s t) (e : m.testBit 11 = false) : SameClocks s t := of_tan (h.tan e)

theorem foldl {α : Type} {f : State → α → State} {l : List α} (hf : ∀ u a, SameClocks u (f u a)) (h : SameClocks s t) :
    SameClocks s (l.foldl f t) := by
  induction l generalizing t with
  | nil => exact h
  | cons a l ih => exact ih (h.trans (hf t a))

theorem ite {c : Prop} [Decidable c] (ht : c → SameClocks s t) (hu : ¬c → SameClocks s u) : SameClocks s (if c then t else u) := by
  split
  · exact ht ‹_›
  · exact hu ‹_›

theorem putDue {f k v : Nat} (h : SameClocks s t) : SameClocks s (t.putDue f k v) :=
  h.trans (of_only (State_putDue_only (.refl 68) (.refl _ _)) rfl)

theorem pubInput {f k key v : Nat} (h : SameClocks s t) : SameClocks s (pubInput f k key v t) := h.putDue

theorem setSig {k : Nat} {g : Sig} (h : SameClocks s t) : SameClocks s (setSig k g t) := h.trans ⟨rfl, rfl, rfl, rfl⟩

theorem setCwin {c : Nat} {g : CWin} (h : SameClocks s t) : SameClocks s (setCwin c g t) := h.trans ⟨rfl, rfl, rfl, rfl⟩

theorem startRecord {f m code unit : Nat} {l : List Nat} {b : Bool} (h : SameClocks s t) : SameClocks s (startRecord f m code unit l b t) :=
  h.trans (of_only (startRecord_only (.refl _) (.refl _ _)) rfl)

theorem eventAt {f c : Nat} {l : List Nat} (h : SameClocks s t) : SameClocks s (t.eventAt f c l) :=
  h.trans (of_only (State_eventAt_only (.refl _) (.refl _ _)) rfl)

end SameClocks

theorem groupEnd_clocks {f g kind cause : Nat} {a : Int} : SameClocks s (groupEnd f g kind a cause s) :=
  (SameClocks.refl s).eventAt.trans ⟨rfl, rfl, rfl, rfl⟩

theorem groupStart_clocks {f m g kind v share mask : Nat} {a : Int} {b : Bool} : SameClocks s (groupStart f m g kind v share a b mask s) :=
  SameClocks.startRecord ⟨rfl, rfl, rfl, rfl⟩

theorem vDetect_clocks {f m v urms kind : Nat} {a : Int} : SameClocks s (vDetect f m v urms kind a s) := by
  unfold vDetect
  extract_lets d on tan₁ s₁ g chans gd share mask better gd₁ tan₂ s₂ ended starts
  have noted : SameClocks s s₁ := ⟨rfl, rfl, rfl, rfl⟩
  have grown : SameClocks s s₂ := ⟨rfl, rfl, rfl, rfl⟩
  clear_value s₁ s₂
  exact .ite (fun _ => .ite (fun _ => grown.trans groupEnd_clocks) (fun _ => grown))
    (fun _ => .ite (fun _ => noted.trans groupStart_clocks) (fun _ => noted))

theorem vDetectAll_clocks {f m v urms : Nat} {a : Int} : SameClocks s (vDetectAll f m v urms a s) :=
  .ite (fun _ => (vDetect_clocks.trans vDetect_clocks).trans vDetect_clocks) (fun _ => .refl s)

theorem ocEnd_clocks {f n cause : Nat} {a : Int} (h : SameClocks s t) : SameClocks s (ocEnd f n a cause t) :=
  h.eventAt.trans ⟨rfl, rfl, rfl, rfl⟩

theorem niEnd_clocks {f c cause : Nat} (h : SameClocks s t) : SameClocks s (niEnd f c cause t) :=
  h.eventAt.trans ⟨rfl, rfl, rfl, rfl⟩

theorem plEnd_clocks {f c cause : Nat} (h : SameClocks s t) : SameClocks s (plEnd f c cause t) :=
  h.eventAt.trans ⟨rfl, rfl, rfl, rfl⟩

theorem ocDetect_clocks {f m n rms : Nat} {a : Int} : SameClocks s (ocDetect f m n rms a s) := by
  unfold ocDetect
  dsimp only
  refine .ite (fun _ => .ite (fun _ => ?_) (fun _ => ?_)) (fun _ => ⟨rfl, rfl, rfl, rfl⟩)
  · exact ocEnd_clocks ⟨rfl, rfl, rfl, rfl⟩
  · exact SameClocks.startRecord ⟨rfl, rfl, rfl, rfl⟩

theorem niDetect_clocks {f m c n rms : Nat} : SameClocks s (niDetect f m c n rms s) := by
  unfold niDetect
  dsimp only
  refine .ite (fun _ => .ite (fun _ => ?_) (fun _ => ?_)) (fun _ => ⟨rfl, rfl, rfl, rfl⟩)
  · exact niEnd_clocks ⟨rfl, rfl, rfl, rfl⟩
  · exact SameClocks.startRecord ⟨rfl, rfl, rfl, rfl⟩

theorem plDetect_clocks {f m c : Nat} {l : List (Nat × Bool)} : SameClocks s (plDetect f m c l s) := by
  unfold plDetect
  dsimp only
  refine .ite (fun _ => .ite (fun _ => ?_) (fun _ => ?_)) (fun _ => ⟨rfl, rfl, rfl, rfl⟩)
  · exact plEnd_clocks ⟨rfl, rfl, rfl, rfl⟩
  · exact SameClocks.startRecord ⟨rfl, rfl, rfl, rfl⟩

theorem halfClose_clocks {f m k : Nat} {acc : Acc} {a b : Int} : SameClocks s (halfClose f m k acc a b s) := by
  unfold halfClose
  dsimp only
  have shown : ∀ {g : Sig} {v : Nat}, SameClocks s (if k < 512 then pubInput f k (rmsKey k 0) v (setSig k g s) else setSig k g s) := fun {g v} =>
    .ite (fun _ => ((SameClocks.refl s).setSig).pubInput) (fun _ => (SameClocks.refl s).setSig)
  refine .ite (fun _ => shown) (fun _ => .ite (fun _ => .ite (fun _ => shown) (fun _ => shown.trans ocDetect_clocks)) (fun _ => ?_))
  split
  · exact shown.pubInput.trans vDetectAll_clocks
  · exact shown

theorem cycClose_clocks {f m k nRef nSec : Nat} {b : Bool} : SameClocks s (cycClose f m k nRef nSec b s) := by
  unfold cycClose
  dsimp only
  have set : ∀ {g : Sig}, SameClocks s (setSig k g s) := (SameClocks.refl s).setSig
  have shown : ∀ {t : State} {c : Prop} [Decidable c] {key v : Nat}, SameClocks s t → SameClocks s (if c then pubInput f k key v t else t) :=
    fun h => .ite (fun _ => h.pubInput) (fun _ => h)
  refine .ite (fun _ => set) (fun _ => shown (.ite (fun _ => SameClocks.trans (shown set) ⟨rfl, rfl, rfl, rfl⟩) (fun _ => shown set)))

theorem cctClose_clocks {f m c nRef : Nat} : SameClocks s (cctClose f m c nRef s) := by
  unfold cctClose State.putDueI
  dsimp only
  have phases : ∀ {t : State} {n : Nat} {p q : Nat → Nat} {v w : Nat → Nat}, SameClocks s t → SameClocks s
      ((List.range n).foldl (fun t i => (t.putDue f (p i) (v i)).putDue f (q i) (w i)) t) := fun h =>
    .foldl (fun u _ => (SameClocks.refl u).putDue.putDue) h
  have lost : ∀ {t : State}, SameClocks s t → SameClocks s (if 2 ≤ (absentRefs t f c).length then plDetect f m c (absentRefs t f c) t else t) :=
    fun h => .ite (fun _ => h.trans plDetect_clocks) (fun _ => h)
  have shown : ∀ {t : State} {c' : Prop} [Decidable c'] {g : CWin} {n r : Nat}, SameClocks s t → SameClocks s
      (if c' then niDetect f m c n r ((setCwin c g t).putDue f (K.cctIResidual c) r) else t) :=
    fun h => .ite (fun _ => h.setCwin.putDue.trans niDetect_clocks) (fun _ => h)
  refine .ite (fun _ => lost (shown (phases ?_))) (fun _ => (SameClocks.refl s).setCwin)
  exact (SameClocks.refl s).setCwin.putDue.putDue.putDue.putDue

theorem sigEnd_clocks {f nRef m k : Nat} {keep : Bool} {a b : Int} : SameClocks s (sigEnd f nRef keep a b m k s) := by
  have popped : SameClocks s (popSig k s).2 := (SameClocks.refl s).setSig
  exact .ite (fun _ => .ite (fun _ => popped.trans halfClose_clocks) (fun _ => popped)) (fun _ => popped.setSig)

theorem sigLost_clocks {f k : Nat} : SameClocks s (sigLost f k s) := by
  have dropped : ∀ {t : State}, SameClocks s t → SameClocks s ((List.range 3).foldl (fun s i => s.putDue f (rmsKey k i) 0) t) := fun h =>
    .foldl (fun u _ => (SameClocks.refl u).putDue) h
  have set := (SameClocks.refl s).setSig (k := k) (g := { half := (tget {} s.tan.sig k).half, tail := (tget {} s.tan.sig k).tail, cuts := (tget {} s.tan.sig k).cuts })
  exact .ite (fun _ => set) (fun _ => .ite (fun _ => dropped set) (fun _ => (dropped set).putDue))

theorem cctLost_clocks {f c : Nat} : SameClocks s (cctLost f c s) :=
  .foldl (fun u _ => (SameClocks.refl u).putDue) (SameClocks.refl s).setCwin

/-! ### The end of a half-cycle window (R110) -/

section
variable {f v : Nat} {e : HalfEnd}

/-- The ends that wait for V-v, and the opening of its window, stand as they did. -/
def SameEnds (v : Nat) (s t : State) : Prop :=
  (tget {} t.tan.zc v).due = (tget {} s.tan.zc v).due ∧ (tget {} t.tan.zc v).openZc = (tget {} s.tan.zc v).openZc

theorem SameEnds.trans (h : SameEnds v s t) (k : SameEnds v t u) : SameEnds v s u := ⟨k.1.trans h.1, k.2.trans h.2⟩

theorem SameClocks.ends (h : SameClocks s t) : SameEnds v s t := by
  unfold SameEnds
  rw [h.zc]
  exact ⟨rfl, rfl⟩

theorem zc_setZc {z : Zc} : tget {} (setZc v z s).tan.zc v = z := tget_tset_self

theorem SameEnds.setZc {z : Zc} (hd : z.due = (tget {} s.tan.zc v).due) (ho : z.openZc = (tget {} s.tan.zc v).openZc) :
    SameEnds v s (setZc v z s) := by
  unfold SameEnds
  rw [zc_setZc]
  exact ⟨hd, ho⟩

theorem winsLost_ends : SameEnds v s (winsLost f v s) := by
  unfold winsLost
  dsimp only
  refine SameEnds.trans (SameEnds.setZc ?_ ?_) (SameClocks.ends
    (.foldl (fun _ _ => cctLost_clocks) (.foldl (fun _ _ => sigLost_clocks) (SameClocks.refl _).putDue)))
  · rfl
  · rfl

theorem cycEnd_ends {fol : Followers} : SameEnds v s (cycEnd f v fol e s) := by
  unfold cycEnd
  dsimp only
  refine SameEnds.trans (SameEnds.setZc ?_ ?_) (SameClocks.ends
    (.foldl (fun _ _ => cctClose_clocks) (.foldl (fun _ _ => cycClose_clocks) (SameClocks.refl _).putDue)))
  · rfl
  · rfl

/-- The end that is counted leaves the list, and opens the next window. -/
theorem halfCount_ends : (tget {} (halfCount f v e s).tan.zc v).due = (tget {} s.tan.zc v).due.tail ∧
    (tget {} (halfCount f v e s).tan.zc v).openZc = some e.at_ := by
  unfold halfCount
  extract_lets z fol nRef keep opens prev z' set drop sigs ccts
  have taken : SameClocks set ccts := by
    refine .foldl (fun u c => (SameClocks.refl u).setCwin) (.foldl (fun u k => .ite (fun _ => sigEnd_clocks) (fun _ => ?_)) (.refl set))
    exact (SameClocks.refl u).setSig
  have counted : (tget {} set.tan.zc v).due = (tget {} s.tan.zc v).due.tail ∧ (tget {} set.tan.zc v).openZc = some e.at_ := by
    show (tget {} (setZc v z' s).tan.zc v).due = _ ∧ (tget {} (setZc v z' s).tan.zc v).openZc = _
    rw [zc_setZc]
    exact ⟨rfl, rfl⟩
  clear_value ccts set
  split
  · exact ⟨(taken.ends.trans cycEnd_ends).1.trans counted.1, (taken.ends.trans cycEnd_ends).2.trans counted.2⟩
  · exact ⟨(taken.ends (v := v)).1.trans counted.1, (taken.ends (v := v)).2.trans counted.2⟩

theorem halfEnd_ends : (tget {} (halfEnd f v e s).tan.zc v).due = (tget {} s.tan.zc v).due.tail ∧
    (tget {} (halfEnd f v e s).tan.zc v).openZc = some e.at_ := by
  have before : SameEnds v s (if e.lost && e.timed then winsLost f v s else s) := by
    split
    · exact winsLost_ends
    · exact ⟨rfl, rfl⟩
  unfold halfEnd
  dsimp only
  generalize (if e.lost && e.timed then winsLost f v s else s) = w at before ⊢
  obtain ⟨due, opened⟩ := halfCount_ends (s := w) (f := f) (v := v) (e := e)
  rw [before.1] at due
  split
  · exact ⟨winsLost_ends.1.trans due, winsLost_ends.2.trans opened⟩
  · exact ⟨due, opened⟩

/-- The machine when a window that the timer ended has closed. -/
def timerEnded (f v : Nat) (e : HalfEnd) (s : State) : State :=
  let t := halfEnd f v e s
  pqPublish f (t.putDue f (K.vStatus v) (vStatusWord t f v))

/-- Its frame in RING-3 shows which results are WARMING (R155). -/
def timerShown (f v : Nat) (e : HalfEnd) (s : State) : State :=
  let t := timerEnded f v e s
  { t with tan := { t.tan with ring3 := t.tan.ring3.map (fun r => if r.fn = f then { r with ccts := r.ccts.map (warmDone t) } else r) } }

theorem execHalfCycleTimeout_due {v : Fin 12} {l : List HalfEnd} (h : (tget {} s.tan.zc v.val).due = e :: l) :
    exec (.halfCycleTimeout v) s = .next (timerShown (e.last / 16) v.val e s) := by
  show execHalfCycleTimeout v s = _
  unfold execHalfCycleTimeout
  rw [h] <;> rfl

theorem timerEnded_ends : (tget {} (timerEnded f v e s).tan.zc v).due = (tget {} s.tan.zc v).due.tail ∧
    (tget {} (timerEnded f v e s).tan.zc v).openZc = some e.at_ := by
  have shown : SameClocks (halfEnd f v e s) (timerEnded f v e s) :=
    .foldl (fun u _ => (SameClocks.refl u).putDue) (SameClocks.refl _).putDue
  rw [shown.zc]
  exact halfEnd_ends

end

/-! ### Harmonic windows (R145, R160) -/

theorem publishPower_clocks {f c : Nat} {l : List Int} : SameClocks s (publishPower f c l s) := by
  unfold publishPower
  extract_lets g ins st orders shown tan
  have published : SameClocks s shown := (SameClocks.foldl (fun u _ => (SameClocks.refl u).putDue) (.refl s)).putDue.putDue
  clear_value shown
  exact .ite (fun _ => .refl s) (fun _ => published.trans ⟨rfl, rfl, rfl, rfl⟩)

theorem fundEnergy_clocks {f c n : Nat} {p : Int} (h : SameClocks s t) : SameClocks s (fundEnergy f c p n t) :=
  h.trans (.of_only (fundEnergy_only (.refl _) (.refl _ _)) rfl)

theorem cctHarmonics_clocks {f c n : Nat} : SameClocks s (cctHarmonics f c n s) := by
  exact .ite (fun _ => fundEnergy_clocks ((SameClocks.refl s).setCwin.trans publishPower_clocks)) (fun _ => .refl s)

theorem formPowers_clocks : SameClocks s (formPowers s) := by
  refine .foldl (fun u e => ?_) (.refl s)
  split
  · exact .ite (fun _ => (SameClocks.refl u).setCwin.trans cctHarmonics_clocks) (fun _ => .refl u)
  · exact .refl u

theorem noteClosed_clocks {f k n : Nat} : SameClocks s (noteClosed f k n s) :=
  .foldl (fun u _ => .ite (fun _ => (SameClocks.refl u).setCwin) (fun _ => .refl u)) (.refl s)

/-- The result of a window that core 1 finishes (Table 5.11). -/
def windowResult (k : Nat) (w : HWin) (s : State) : SpecRes :=
  { inp := k, fn := w.fn, vals := spectrumVals k w (winRes w (binOf (nominalHz s)) (s.cfg w.fn K.pqAafTau) (refArgOf (binOf (nominalHz s)) w)) }

/-- A window that core 1 finishes enters RING-4 and leaves its input's list. -/
theorem closeWindow_effects {k : Nat} {w : HWin} {ws : List HWin} : (closeWindow k w ws s).tan.ring4 = s.tan.ring4 ++ [windowResult k w s] ∧
    (tget {} (closeWindow k w ws s).tan.harm k).ready = ws := by
  unfold closeWindow
  extract_lets b r h h₁ h' tan t
  have formed : SameClocks t (formPowers (noteClosed w.fn k w.len t)) := noteClosed_clocks.trans formPowers_clocks
  refine ⟨formed.ring4, ?_⟩
  rw [formed.harm]
  show (tget {} (tset {} s.tan.harm k h') k).ready = ws
  rw [tget_tset_self]
  show (if w.fn < h₁.from_ then { h₁ with old := true } else { h₁ with valid := true }).ready = ws
  split <;> rfl

section
variable {i : Input} {w : HWin} {ws : List HWin}

theorem execHarmonicWindowClose_ready (hm : s.mode = .run) (h : (tget {} s.tan.harm (inputNum i)).ready = w :: ws) :
    exec (.harmonicWindowClose i) s = .next (if winCounts s (inputNum i) w then
      (if ring4Used s < 2 * harmInputs s w.fn then closeWindow (inputNum i) w ws s else s.bump (K.stalls 4))
      else formPowers { s with tan := { s.tan with harm := tset {} s.tan.harm (inputNum i) { tget {} s.tan.harm (inputNum i) with ready := ws } } }) := by
  show execHarmonicWindowClose i s = _
  unfold execHarmonicWindowClose
  dsimp only
  rw [h]
  exact congrArg _ (if_neg (Decidable.not_not.mpr hm))

end

/-! ### 10 s frequencies (R142) -/

/-- The frequency that the whole cycles of an interval give, none for a channel that was unlocked in it. -/
def intervalFreq (z : Zc) : Option Nat :=
  match z.f10First, z.f10Last with
  | some a, some b => if z.f10Bad = false ∧ a < b then some (odiv (((z.f10Cnt : Int) - 1) * tapsPerS * 1000000) (b - a)).toNat else none
  | _, _ => none

/-- The detector of a channel when the interval has ended. -/
def intervalOver (z : Zc) : Zc := { z with f10 := intervalFreq z, f10First := none, f10Last := none, f10Cnt := 0, f10Bad := !z.locked }

/-- The end of an interval at one channel. -/
def intervalEnd (e : Nat) (s : State) (v : Nat) : State :=
  (setZc v (intervalOver (tget {} s.tan.zc v)) s).putDue e (K.vFreq10s v) ((intervalFreq (tget {} s.tan.zc v)).getD 0)

/-- The end of an interval at several channels ends it at each of them, and at no other. -/
theorem foldl_intervalEnd {e : Nat} {l : List Nat} (hl : l.Nodup) : (l.foldl (intervalEnd e) s).tan.ivalEnd = s.tan.ivalEnd ∧
    (∀ v ∈ l, tget {} (l.foldl (intervalEnd e) s).tan.zc v = intervalOver (tget {} s.tan.zc v) ∧
      (l.foldl (intervalEnd e) s).live (K.vFreq10s v) = (intervalFreq (tget {} s.tan.zc v)).getD 0) ∧
    (∀ v, v ∉ l → tget {} (l.foldl (intervalEnd e) s).tan.zc v = tget {} s.tan.zc v ∧
      (l.foldl (intervalEnd e) s).live (K.vFreq10s v) = s.live (K.vFreq10s v)) := by
  have tan : ∀ {s : State} {v : Nat}, (intervalEnd e s v).tan = (setZc v (intervalOver (tget {} s.tan.zc v)) s).tan :=
    (State_putDue_only (.refl 68) (.refl _ _)).tan rfl
  induction l generalizing s with
  | nil => exact ⟨rfl, fun v hv => absurd hv List.not_mem_nil, fun v _ => ⟨rfl, rfl⟩⟩
  | cons x l ih =>
    obtain ⟨hx, hl⟩ := List.nodup_cons.mp hl
    obtain ⟨cleared, ended, others⟩ := ih (s := intervalEnd e s x) hl
    have zcNe : ∀ v, v ≠ x → tget {} (intervalEnd e s x).tan.zc v = tget {} s.tan.zc v := fun v hv => by
      rw [tan]
      exact tget_tset_ne (Ne.symm hv)
    have liveNe : ∀ v, v ≠ x → (intervalEnd e s x).live (K.vFreq10s v) = s.live (K.vFreq10s v) := fun v hv =>
      live_putDue_ne (by unfold K.vFreq10s; omega)
    refine ⟨cleared.trans (by rw [tan]; rfl), fun v hv => ?_, fun v hv => ?_⟩
    · rcases List.mem_cons.mp hv with rfl | hv
      · obtain ⟨zc, live⟩ := others v hx
        refine ⟨zc.trans ?_, live.trans live_putDue_self⟩
        rw [tan]
        exact tget_tset_self
      · have ne : v ≠ x := fun e => hx (e ▸ hv)
        obtain ⟨zc, live⟩ := ended v hv
        rw [zcNe v ne] at zc live
        exact ⟨zc, live⟩
    · obtain ⟨ne, hv⟩ := not_or.mp (fun e => hv (List.mem_cons.mpr e))
      obtain ⟨zc, live⟩ := others v hv
      exact ⟨zc.trans (zcNe v ne), live.trans (liveNe v ne)⟩

/-- The end of an interval ends it at every channel, and is over. -/
theorem execFreq10sIntervalEnd_at {e : Nat} (h : s.tan.ivalEnd = some e) : ∃ t, exec .freq10sIntervalEnd s = .next t ∧ t.tan.ivalEnd = none ∧
    ∀ v < 12, tget {} t.tan.zc v = intervalOver (tget {} s.tan.zc v) ∧ t.live (K.vFreq10s v) = (intervalFreq (tget {} s.tan.zc v)).getD 0 := by
  have step : exec .freq10sIntervalEnd s = .next ((List.range 12).foldl (intervalEnd e) { s with tan := { s.tan with ivalEnd := none } }) := by
    show execFreq10sIntervalEnd s = _
    unfold execFreq10sIntervalEnd
    rw [h] <;> rfl
  obtain ⟨cleared, ended, -⟩ := foldl_intervalEnd (s := { s with tan := { s.tan with ivalEnd := none } }) (e := e) (List.nodup_range (n := 12))
  exact ⟨_, step, cleared, fun v hv => ended v (List.mem_range.mpr hv)⟩

/-! ### Aligned frames (R15, R111) -/

theorem ownVolts_clocks {fr : AFrame} {l : List Nat} : SameClocks s (ownVolts fr l s).2 := by
  induction l generalizing s with
  | nil => exact .refl s
  | cons v l ih =>
    have own : SameClocks s (ownVolt fr v s).2 := by
      unfold ownVolt
      split
      · exact ⟨rfl, rfl, rfl, rfl⟩
      · exact .refl s
    exact own.trans ih

theorem baseFrame_clocks {fr : AFrame} {own : List VDat} {n : Nat} : SameClocks s (baseFrame fr own n s) := by
  unfold baseFrame
  extract_lets k note sp e noted key
  have kept : SameClocks s noted := ⟨rfl, rfl, rfl, rfl⟩
  refine .ite (fun _ => ⟨rfl, rfl, rfl, rfl⟩) (fun _ => .ite (fun _ => ⟨rfl, rfl, rfl, rfl⟩) (fun _ => kept.trans ?_))
  exact .of_only (putTotal_only (.refl _) (.refl _ _)) rfl

theorem baseFrames_clocks {fr : AFrame} {own : List VDat} : SameClocks s (baseFrames fr own s).2 := by
  unfold baseFrames
  extract_lets ns old accrued tan entered
  have first : SameClocks s accrued := .foldl (fun u n => baseFrame_clocks) (.refl s)
  refine SameClocks.trans (t := { accrued with tan := { accrued.tan with baseFn := some fr.fn } }) (first.trans ⟨rfl, rfl, rfl, rfl⟩) ?_
  exact .of_only (baseGap_only (.refl _) (.refl _ _)) rfl

/-- ROM recovery takes the oldest aligned frame, and posts no results (R388). -/
theorem romFrame_effects {fr : AFrame} : (romFrame fr s).aln = { s.aln with ring1 := s.aln.ring1.tail } ∧
    (romFrame fr s).tan.ring3 = s.tan.ring3 := by
  have owned : Only 133188 s (ownVolts fr (List.range 12) s).2 := ownVolts_only ((Within.refl _).of rfl) (.refl _ _)
  have based := baseFrames_only (a0 := fr) (a1 := (ownVolts fr (List.range 12) s).1) (.refl _) owned
  have same : SameClocks s (baseFrames fr (ownVolts fr (List.range 12) s).1 (ownVolts fr (List.range 12) s).2).2 :=
    ownVolts_clocks.trans baseFrames_clocks
  refine ⟨?_, same.ring3⟩
  unfold romFrame
  dsimp only
  rw [based.aln rfl]

/-- What a frame leaves for RING-3. -/
theorem tanneryDone_effects {fr : AFrame} {ccts : List CRes} {base : List (Nat × Nat × Nat)} :
    (tanneryDone fr ccts base s).aln = { s.aln with ring1 := s.aln.ring1.tail } ∧ (tanneryDone fr ccts base s).dict = s.dict ∧
    ∃ r, (tanneryDone fr ccts base s).tan.ring3.getLast? = some r ∧ r.fn = fr.fn ∧ r.lost = fr.lost ∧ r.done = 0 := by
  have marked : Only 2048 s (if ivalEnds s fr.fn then { s with tan := { s.tan with ivalEnd := some fr.fn } } else s) :=
    .ite (fun _ => by simp only [Only.mk_eq]; exact Only.u_tan ((Within.refl _).of rfl) (.refl _ _)) (fun _ => .refl _ _)
  unfold tanneryDone
  dsimp only
  refine ⟨?_, marked.dict rfl, _, List.getLast?_concat, rfl, rfl, rfl⟩
  rw [marked.aln rfl]

/-- Core 0 up to the detectors of a frame. -/
def frameBegun (fr : AFrame) (s : State) : State :=
  nowTrigger fr.fn (substReview fr.fn (tanCfg fr.fn ((List.range 12).foldl (fun s v => halfEnds v (tget {} s.tan.zc v).due.length s) s)))

theorem within_frame {a : Nat} (h : a &&& 39983716 = a) : Within a 39983716 := (Within.refl 39983716).of h

theorem frameBegun_only {fr : AFrame} : Only 39983716 s (frameBegun fr s) := by
  refine nowTrigger_only (within_frame rfl) (substReview_only (within_frame rfl) (tanCfg_only (within_frame rfl) ?_))
  exact Only.foldl (fun _ _ => halfEnds_only (within_frame rfl)) (.refl _ _)

/-- A frame is computed without its aligned frame leaving RING-1; its results enter RING-3 last. -/
theorem tanneryFrame_done {fr : AFrame} {c0 c1 : Nat} : ∃ u ccts base, Only 39983716 s u ∧
    tanneryFrame fr c0 c1 s = tanneryDone fr ccts base ((u.putDue fr.fn (K.peak 0) c0).putDue fr.fn (K.peak 1) c1) := by
  have begun := frameBegun_only (s := s) (fr := fr)
  unfold frameBegun at begun
  unfold tanneryFrame
  dsimp only
  generalize nowTrigger fr.fn _ = s₀ at begun ⊢
  rcases e₁ : ownVolts fr (List.range 12) s₀ with ⟨own, s₁⟩
  have owned := ownVolts_only' e₁ (within_frame rfl) begun
  dsimp only
  rcases e₂ : scanVolts fr own (List.range 12) s₁ with ⟨ops, s₂⟩
  have scanned := sigFrame_only (a0 := fr) (a1 := own) (a2 := ops) (within_frame rfl) (scanVolts_only' e₂ (within_frame rfl) owned)
  dsimp only
  generalize sigFrame fr own ops s₂ = s₃ at scanned ⊢
  rcases e₃ : cctFrames fr own ops (definedCcts s₃ fr.fn) s₃ with ⟨ccts, s₄⟩
  have resulted := cctFrames_only' e₃ (within_frame rfl) scanned
  dsimp only
  have ended : Only 39983716 s ((List.range 12).foldl (fun s v => halfEnds v (handledEnds (tget {} s.tan.zc v).due) s) s₄) :=
    Only.foldl (fun _ _ => halfEnds_only (within_frame rfl)) resulted
  generalize (List.range 12).foldl (fun s v => halfEnds v (handledEnds (tget {} s.tan.zc v).due) s) s₄ = s₅ at ended ⊢
  rcases e₄ : baseFrames fr own s₅ with ⟨base, s₆⟩
  have based := baseFrames_only' e₄ (within_frame rfl) ended
  refine ⟨_, _, _, ?_, rfl⟩
  exact tanneryShow_only (within_frame rfl) (tanneryHarm_only (within_frame rfl) (tanneryCap_only (within_frame rfl) based))

/-- What the frame that core 0 computes leaves (R23, R111). -/
theorem tanneryFrame_effects {fr : AFrame} {c0 c1 : Nat} : (tanneryFrame fr c0 c1 s).aln = { s.aln with ring1 := s.aln.ring1.tail } ∧
    (∃ r, (tanneryFrame fr c0 c1 s).tan.ring3.getLast? = some r ∧ r.fn = fr.fn ∧ r.lost = fr.lost ∧ r.done = 0) ∧
    (tanneryFrame fr c0 c1 s).live (K.peak 0) = c0 ∧ (tanneryFrame fr c0 c1 s).live (K.peak 1) = c1 := by
  obtain ⟨u, ccts, base, kept, result⟩ := tanneryFrame_done (s := s) (fr := fr) (c0 := c0) (c1 := c1)
  rw [result]
  have counted : Only 39983716 s ((u.putDue fr.fn (K.peak 0) c0).putDue fr.fn (K.peak 1) c1) :=
    State_putDue_only (within_frame rfl) (State_putDue_only (within_frame rfl) kept)
  obtain ⟨aln, dict, posted⟩ := tanneryDone_effects (s := (u.putDue fr.fn (K.peak 0) c0).putDue fr.fn (K.peak 1) c1) (fr := fr) (ccts := ccts) (base := base)
  refine ⟨?_, posted, ?_, ?_⟩
  · rw [aln, counted.aln rfl]
  · exact (get_of_dict dict _).trans ((live_putDue_ne (by decide)).trans live_putDue_self)
  · exact (get_of_dict dict _).trans live_putDue_self

section
variable {c0 c1 : Nat} {fr : AFrame} {l : List AFrame}

theorem execTanneryFrameCompute_run (h : s.aln.ring1 = fr :: l) (hm : s.mode = .run) : exec (.tanneryFrameCompute c0 c1) s = .next
    (match tanneryStall s fr.fn with | some r => s.bump (K.stalls r) | none => tanneryFrame fr (c0 % 2 ^ 32) (c1 % 2 ^ 32) s) := by
  show execTanneryFrameCompute c0 c1 s = _
  unfold execTanneryFrameCompute
  rw [h]
  dsimp only
  rw [if_neg (by rw [hm]; decide), if_pos hm] <;> rfl

theorem execTanneryFrameCompute_recovery (h : s.aln.ring1 = fr :: l) (hm : s.mode = .recovery) :
    exec (.tanneryFrameCompute c0 c1) s = .next (romFrame fr s) := by
  show execTanneryFrameCompute c0 c1 s = _
  unfold execTanneryFrameCompute
  rw [h]
  exact congrArg _ (if_pos hm)

end

/-- Settles O49, by what a frame, the end of a window and the end of an interval each bring about. -/
theorem tanneryComputesFrames : Obligations.TanneryComputesFrames := by
  unfold Obligations.TanneryComputesFrames
  refine ⟨?_, ?_, ?_, ?_, ?_, ?_⟩
  · intro c0 c1 fr l s h hm
    have step := execTanneryFrameCompute_run (c0 := c0) (c1 := c1) h hm
    refine ⟨fun hroom => ?_, fun r hfull => ?_⟩
    · rw [hroom] at step
      dsimp only at step
      obtain ⟨aln, posted, core0, core1⟩ := tanneryFrame_effects (s := s) (fr := fr) (c0 := c0 % 2 ^ 32) (c1 := c1 % 2 ^ 32)
      refine ⟨_, step, exec_frame step, ?_, posted, core0, core1⟩
      rw [aln, h]
      rfl
    · rw [hfull] at step
      exact step
  · intro c0 c1 fr l s h hm
    have step := execTanneryFrameCompute_recovery (c0 := c0) (c1 := c1) h hm
    obtain ⟨aln, ring⟩ := romFrame_effects (s := s) (fr := fr)
    refine ⟨_, step, exec_frame step, ?_, ring⟩
    rw [aln, h]
    rfl
  · intro v e l s h
    have step := execHalfCycleTimeout_due h
    obtain ⟨due, opened⟩ := timerEnded_ends (s := s) (f := e.last / 16) (v := v.val) (e := e)
    rw [h] at due
    exact ⟨_, step, exec_frame step, due, opened⟩
  · intro i w ws s hm h
    have step := execHarmonicWindowClose_ready hm h
    refine ⟨fun hw hroom => ?_, fun hw hfull => ?_, fun hw => ?_⟩
    · rw [if_pos hw, if_pos hroom] at step
      obtain ⟨ring, ready⟩ := closeWindow_effects (s := s) (k := inputNum i) (w := w) (ws := ws)
      exact ⟨_, _, step, exec_frame step, ring, rfl, rfl, ready⟩
    · rw [if_pos hw, if_neg (Nat.not_lt.mpr hfull)] at step
      exact step
    · rw [if_neg (by simp [hw])] at step
      have formed := formPowers_clocks (s := { s with tan := { s.tan with harm := tset {} s.tan.harm (inputNum i) { tget {} s.tan.harm (inputNum i) with ready := ws } } })
      refine ⟨_, step, exec_frame step, formed.ring4, ?_⟩
      rw [formed.harm, tget_tset_self]
  · intro e s h
    obtain ⟨t, step, cleared, ended⟩ := execFreq10sIntervalEnd_at h
    refine ⟨t, step, exec_frame step, cleared, ?_⟩
    rintro v z hv rfl
    obtain ⟨zc, live⟩ := ended v hv
    refine ⟨congrArg Zc.f10Cnt zc, congrArg Zc.f10Bad zc, fun a b ha hb hok hab => ?_, fun hno => ?_⟩
    · rw [live]
      unfold intervalFreq
      rw [ha, hb]
      exact congrArg (fun x => Option.getD x 0) (if_pos ⟨hok, hab⟩)
    · rw [live]
      have none_ : intervalFreq (tget {} s.tan.zc v) = none := by
        unfold intervalFreq
        split
        next a b ha hb => exact if_neg (fun e => by simp_all)
        · rfl
      rw [none_]
      rfl
  · intro s h
    show execFreq10sIntervalEnd s = _
    unfold execFreq10sIntervalEnd
    rw [h]

end Sys2Proof.Machine
end

section
/-! PROOF. Sequencer tables, voltage samples and coefficient steps (R45, R51, R57, R67, R89). -/

namespace Sys2Proof.Machine

variable {s : State}

/-! ### The degraded table and the rotation list (R57, R67) -/

theorem sumN_eq_sum (l : List Nat) : sumN l = l.sum := (List.sum_eq_foldl).symm

/-- A lane has at most eight inputs. -/
theorem enabledOf_length_le {f l : Nat} : (enabledOf s f l).length ≤ 8 := by
  refine Nat.le_trans (List.length_filter_le _ _) ?_
  simp

/-- Each input takes seven conversions, and the rotation the rest of the 128. -/
theorem degradedTable_conversions (f p : Nat) : sumN ((degradedTable s f p).map (fun e => e.discard + e.rep)) = 128 := by
  have own := enabledOf_length_le (s := s) (f := f) (l := p)
  have other := enabledOf_length_le (s := s) (f := f) (l := partner p)
  unfold degradedTable
  simp only [sumN_eq_sum, List.map_append, List.map_map, List.sum_append, List.map_cons, List.map_nil, List.sum_cons, List.sum_nil,
    Function.comp_def, List.map_const', List.sum_replicate_nat, List.length_map, List.length_append]
  omega

theorem rotationList_length (gains : List Nat) : (rotationList gains).length = 3 * gains.length + 2 := by
  unfold rotationList
  induction gains with
  | nil => rfl
  | cons g gs ih => simp_all; omega

theorem gainsInUse_some (f l : Nat) (tab : List Entry) : gainsInUse s f l tab ≠ [] ∧ ∀ g ∈ gainsInUse s f l tab, g < 6 := by
  unfold gainsInUse
  dsimp only
  split
  · simp
  next some_ => exact ⟨some_, fun g hg => List.mem_range.mp (List.mem_filter.mp hg).1⟩

/-! ### Voltage samples (R15, R18, R45) -/

theorem voltClamp_range (x : Int) : -(2 ^ 47) ≤ (voltClamp x).1 ∧ (voltClamp x).1 < 2 ^ 47 ∧
    ((voltClamp x).2 = true ↔ 2 ^ 47 ≤ x ∨ x ≤ -(2 ^ 47)) ∧ (-(2 ^ 47) ≤ x → x < 2 ^ 47 → (voltClamp x).1 = x) := by
  have value : (voltClamp x).1 = sat47 x := rfl
  have flag : (voltClamp x).2 = true ↔ one47 ≤ mag x := decide_eq_true_iff
  rw [value, flag]
  unfold sat47 clampI one47 mag
  refine ⟨?_, ?_, ?_, ?_⟩ <;> grind

section
variable {f g v : Nat} {c : VoltConv}

theorem voltEmit_credit (hv : s.cfg f (K.vEnable v) = 1) (hc : 0 < free0 s) :
    ∃ e, voltEmit f g v c s = { s with acq := { s.acq with ring0V := s.acq.ring0V ++ [e] } } ∧ e.g = g ∧ e.v = v ∧
      e.value = (voltClamp c.value).1 ∧ e.clip = (voltClamp c.value).2 :=
  ⟨_, (if_pos hv).trans (if_pos hc), rfl, rfl, rfl, rfl⟩

/-- A frame that is lost is counted once. -/
theorem frameLost_effects (hf : f ∉ s.acq.lost) : f ∈ (frameLost f s).acq.lost ∧ (frameLost f s).acq.ring0V = s.acq.ring0V ∧
    (frameLost f s).get K.lostFrames = (s.get K.lostFrames + 1) % 2 ^ oBits K.lostFrames := by
  unfold frameLost
  rw [if_neg hf]
  extract_lets cont first run acq t
  have counted : Only 33554436 t (((t.bump K.lostFrames).bump (K.stalls 0)).event 0x0307 [first, run]) :=
    State_event_only (.refl _) (State_bump_only ((Within.refl _).of rfl) (State_bump_only ((Within.refl _).of rfl) (.refl _ _)))
  refine ⟨?_, ?_, ?_⟩
  · rw [counted.acq rfl]
    exact List.mem_append_right _ (List.mem_singleton.mpr rfl)
  · rw [counted.acq rfl]
  · rw [get_event (by decide) (by decide), get_bump_ne (by decide)]
    exact get_bump_self

end

/-- Settles O50, by the lengths of the tables and the bounds of clamping and stepping. -/
theorem lanesAndVoltages : Obligations.LanesAndVoltages := by
  unfold Obligations.LanesAndVoltages
  refine ⟨fun s => degradedTable_conversions, rotationList_length, fun s => gainsInUse_some, voltClamp_range, ?_, ?_⟩
  · intro f g v c s hv
    refine ⟨voltEmit_credit hv, fun hc hf => ?_⟩
    have lost : voltEmit f g v c s = frameLost f s := (if_pos hv).trans (if_neg (by omega))
    rw [lost]
    exact frameLost_effects hf
  · intro x t d hd
    unfold stepTo
    split
    · omega
    · split <;> omega

end Sys2Proof.Machine
end

section
/-! PROOF. The steps before the first entry of a frame (R184, R189 to R191). -/

namespace Sys2Proof.Machine

variable {s t u : State} {sc : Nat}

/-! ### What the steps before a boundary leave alone -/

/-- The counters that the steps of a frame advance. -/
def stepCounters : List Nat := [K.stalls 5, K.stalls 6, K.eventsLost, K.forcedRolls, K.waits, K.waitFrames, K.profileSeq, K.clockSteps]

/-- Settings and boundary objects: no live value, and none of the counters that the steps of a frame advance, those of a circuit included. -/
def Firm (k : Nat) : Prop := k < 0x1000000 ∧ k % 256 ≠ 0x0D ∧ k % 256 ≠ 0x4A ∧ k ∉ stepCounters

theorem not_firm_counter {k : Nat} (h : k ∈ stepCounters) : ¬Firm k := fun e => e.2.2.2 h

theorem firm_setting {c : Nat} (hc : c < 256) : Firm (K.cctKind c) ∧ Firm (K.cctSchedule c) := by
  simp only [Firm, stepCounters, K.cctKind, K.cctSchedule, K.stalls, K.eventsLost, K.forcedRolls, K.waits, K.waitFrames, K.profileSeq, K.clockSteps, List.mem_cons, List.not_mem_nil, or_false]
  omega

theorem firm_periodNo {c : Nat} (hc : c < 5) : Firm (K.bpPeriodNo c) := by
  simp only [Firm, stepCounters, K.bpPeriodNo, K.stalls, K.eventsLost, K.forcedRolls, K.waits, K.waitFrames, K.profileSeq, K.clockSteps, List.mem_cons, List.not_mem_nil, or_false]
  omega

/-- Steps other than those of schedule `sc`: settings, boundary objects and marked closes stand, schedule `sc` does not begin to wait,
and no free journal slot is taken. -/
structure Before (sc : Nat) (s t : State) : Prop where
  get : ∀ k, Firm k → t.get k = s.get k
  commits : t.commits = s.commits
  closes : t.bill.closes = s.bill.closes
  next : t.bill.next = s.bill.next
  waits : (∀ w ∈ s.bill.waits, ¬(w.kind = 0 ∧ w.id = sc)) → ∀ w ∈ t.bill.waits, ¬(w.kind = 0 ∧ w.id = sc)
  slots : ∀ c, ((getC s c).slotA = none → (getC t c).slotA = none) ∧ ((getC s c).slotB = none → (getC t c).slotB = none)

namespace Before

theorem refl (s : State) : Before sc s s := ⟨fun _ _ => rfl, rfl, rfl, rfl, id, fun _ => ⟨id, id⟩⟩

theorem trans (h : Before sc s t) (k : Before sc t u) : Before sc s u where
  get x hx := (k.get x hx).trans (h.get x hx)
  commits := k.commits.trans h.commits
  closes := k.closes.trans h.closes
  next := k.next.trans h.next
  waits := fun w => k.waits (h.waits w)
  slots c := ⟨fun e => (k.slots c).1 ((h.slots c).1 e), fun e => (k.slots c).2 ((h.slots c).2 e)⟩

/-- What changes neither billing nor commits, and no firm object. -/
theorem of_bill (get : ∀ k, Firm k → t.get k = s.get k) (commits : t.commits = s.commits) (bill : t.bill = s.bill) : Before sc s t where
  get := get
  commits := commits
  closes := by rw [bill]
  next := by rw [bill]
  waits := by rw [bill]; exact id
  slots c := by unfold getC; rw [bill]; exact ⟨id, id⟩

theorem foldl {α : Type} {f : State → α → State} {l : List α} (hf : ∀ u a, Before sc u (f u a)) (h : Before sc s t) : Before sc s (l.foldl f t) := by
  induction l generalizing t with
  | nil => exact h
  | cons a l ih => exact ih (h.trans (hf t a))

theorem ite {c : Prop} [Decidable c] (ht : c → Before sc s t) (hu : ¬c → Before sc s u) : Before sc s (if c then t else u) := by
  split
  · exact ht ‹_›
  · exact hu ‹_›

theorem ite_snd {α : Type} {c : Prop} [Decidable c] {p q : α × State} (hp : c → Before sc s p.2) (hq : ¬c → Before sc s q.2) :
    Before sc s (if c then p else q).2 := by
  split
  · exact hp ‹_›
  · exact hq ‹_›

theorem put {k v : Nat} (hk : ¬Firm k) (h : Before sc s t) : Before sc s (t.put k v) :=
  h.trans (of_bill (fun _ hj => get_put_ne (fun e => hk (e ▸ hj))) rfl rfl)

theorem bumpBy {k n : Nat} (hk : ¬Firm k) (h : Before sc s t) : Before sc s (t.bumpBy k n) := h.put hk

theorem putDue {f k v : Nat} (h : Before sc s t) : Before sc s (t.putDue f k v) := by
  have kept := State_putDue_only (s := t) (a1 := f) (a2 := k) (a3 := v) (.refl 68) (.refl _ _)
  refine h.trans (of_bill (fun j hj => get_putDue_ne ?_) (kept.commits rfl) (kept.bill rfl))
  have := hj.1
  unfold liveKey
  omega

theorem eventAt {f c : Nat} {l : List Nat} (h : Before sc s t) : Before sc s (t.eventAt f c l) := by
  have kept := State_eventAt_only (s := t) (a1 := f) (a2 := c) (a3 := l) (.refl _) (.refl _ _)
  refine h.trans (of_bill (fun j hj => get_eventAt ?_ ?_) (kept.commits rfl) (kept.bill rfl))
  · rintro rfl
    exact not_firm_counter (by simp [stepCounters]) hj
  · rintro rfl
    exact not_firm_counter (by simp [stepCounters]) hj

/-- A circuit takes a form in which no free slot is taken. -/
theorem setC {c : Nat} {x : BCct} (h : Before sc s t) (hA : (getC t c).slotA = none → x.slotA = none) (hB : (getC t c).slotB = none → x.slotB = none) :
    Before sc s (setC c x t) := by
  refine h.trans ⟨fun _ _ => rfl, rfl, rfl, rfl, id, fun d => ?_⟩
  unfold getC Machine.setC
  dsimp only
  by_cases e : c = d
  · subst e
    rw [tget_tset_self]
    exact ⟨hA, hB⟩
  · rw [tget_tset_ne e]
    exact ⟨id, id⟩

theorem setFlag {f c b : Nat} (h : Before sc s t) : Before sc s (setFlag f c b t) := h.putDue

/-- Pages and stores change. -/
theorem stores (h : Before sc s t) (dict : u.dict = t.dict) (commits : u.commits = t.commits) (bill : u.bill = t.bill) : Before sc s u :=
  h.trans (of_bill (fun k _ => get_of_dict dict k) commits bill)

theorem pages {x : Tab PageS} (h : Before sc s t) : Before sc s { t with pages := x } := h.stores rfl rfl rfl

theorem counted {k n : Nat} (hk : k ∈ stepCounters) (h : Before sc s t) : Before sc s (t.bumpBy k n) := h.bumpBy (not_firm_counter hk)

end Before

/-! ### Forced rolls (R191) -/

theorem holdSlots_before {p : Nat} (h : Before sc s t) : Before sc s (holdSlots p t) := by
  refine .ite (fun _ => h.setC (fun e => ?_) (fun e => ?_)) (fun _ => .foldl (fun u c => (Before.refl u).setC id id) h)
  · show Option.map _ (getC t ((p - 256) / 2)).slotA = none
    rw [e]
    rfl
  · show Option.map _ (getC t ((p - 256) / 2)).slotB = none
    rw [e]
    rfl

theorem postJob_before {j : Job} (h : Before sc s t) : Before sc s (postJob j t) := by
  unfold postJob startHead
  split
  · split
    · exact h.stores rfl rfl rfl
    · exact holdSlots_before (h.stores rfl rfl rfl)
  · exact h.stores rfl rfl rfl

theorem pumpRolls_before (h : Before sc s t) : Before sc s (pumpRolls t) :=
  .foldl (fun u _ => postJob_before (.refl u)) (h.stores rfl rfl rfl)

theorem postRoll_before {p : Nat} (h : Before sc s t) : Before sc s (postRoll p t) := by
  refine .ite (fun _ => h) (fun _ => pumpRolls_before (Before.stores (t := if hallJobs t < 128 then t else t.bump (K.stalls 6)) ?_ rfl rfl rfl))
  exact .ite (fun _ => h) (fun _ => h.counted (by simp [stepCounters]))

theorem putReg_before {f c i v : Nat} (h : Before sc s t) : Before sc s (putReg f c i v t) :=
  h.putDue.putDue.put (fun e => absurd e.1 (by unfold fracKey; omega))

theorem checkTotal_before {f c k : Nat} (h : Before sc s t) : Before sc s (checkTotal f c k t) := by
  unfold checkTotal
  extract_lets a b noted
  have counted : Before sc s (noted.bump (K.cctInvariantFaults c)) :=
    h.eventAt.bumpBy (fun e => e.2.2.1 (by simp only [K.cctInvariantFaults]; omega))
  exact .ite (fun _ => h) (fun _ => putReg_before counted.setFlag)

theorem checkTotals_before {f c : Nat} (h : Before sc s t) : Before sc s (checkTotals f c t) :=
  .foldl (fun u _ => checkTotal_before (.refl u)) h

theorem forceRoll_before {cs : List Nat} (h : Before sc s t) : Before sc s (forceRoll cs t) := by
  refine .foldl (fun u c => ?_) (h.counted (by simp [stepCounters]))
  have kept : Before sc u (keepRatios c u) := by
    unfold keepRatios
    extract_lets x now d
    exact (Before.refl u).setC id id
  extract_lets checked rolled
  have noted : Before sc u checked := checkTotals_before kept
  clear_value checked
  have paged : Before sc u rolled := noted.pages
  exact .foldl (fun v p => postRoll_before (.refl v)) paged

/-! ### Waits (R191) -/

theorem waitStart_before {f kind id : Nat} {late : Bool} {cs : List Nat} (h : Before sc s t) (hk : ¬(kind = 0 ∧ id = sc)) :
    Before sc s (waitStart f kind id late cs t) := by
  refine forceRoll_before (Before.counted (by simp [stepCounters]) (h.trans ⟨fun _ _ => rfl, rfl, rfl, rfl, fun hw w hm => ?_, fun _ => ⟨fun e => e, fun e => e⟩⟩))
  rcases List.mem_append.mp hm with hm | hm
  · exact hw w hm
  · rw [List.mem_singleton.mp hm]
    exact hk

theorem waitEnd_before {f : Nat} {w : Wait} {cs : List Nat} (h : Before sc s t) : Before sc s (waitEnd f w cs t) := by
  refine .foldl (fun u _ => (Before.refl u).setFlag) (Before.eventAt (Before.counted (by simp [stepCounters]) (h.trans ?_)))
  exact ⟨fun _ _ => rfl, rfl, rfl, rfl, fun hw v hm => hw v (List.mem_filter.mp hm).1, fun _ => ⟨id, id⟩⟩

theorem waitLate_before {k : Nat} (h : Before sc s t) : Before sc s (waitLate k t) := by
  refine h.trans ⟨fun _ _ => rfl, rfl, rfl, rfl, fun hw v hm => ?_, fun _ => ⟨id, id⟩⟩
  obtain ⟨w, hm', rfl⟩ := List.mem_map.mp hm
  split
  · exact hw w hm'
  · exact hw w hm'

theorem mayAct_before {f kind id : Nat} {late : Bool} {blocked cs : List Nat} (hk : ¬(kind = 0 ∧ id = sc)) (h : Before sc s t) :
    Before sc s (mayAct f kind id late blocked cs t).2 := by
  unfold mayAct
  split
  · split
    · exact waitEnd_before h
    · exact h
  · split
    · exact h
    · exact waitStart_before h hk

/-! ### Demand intervals (R177 to R181, R190) -/

theorem maxTake_before {f c a i d time : Nat} (h : Before sc s t) : Before sc s (maxTake f c a i d time t) :=
  .ite (fun _ => h.putDue.putDue) (fun _ => h)

theorem maxTotals_before {f c : Nat} (h : Before sc s t) : Before sc s (maxTotals f c t) := by
  unfold maxTotals
  extract_lets a b
  exact h.putDue.putDue.putDue.putDue

theorem evalMaxima_before {f c a time : Nat} {v : Ivl} {prev : List Sub} (h : Before sc s t) :
    Before sc s (evalMaxima f c a time v prev t).2 := by
  unfold evalMaxima
  dsimp only
  exact (maxTotals_before (maxTake_before (maxTake_before h))).putDue.putDue.putDue.putDue.putDue

theorem evalIvl_before {f c a time : Nat} {v : Ivl} {prev : List Sub} (h : Before sc s t) : Before sc s (evalIvl f c a time v prev t) := by
  unfold evalIvl
  dsimp only
  refine .ite (fun _ => Before.eventAt (Before.bumpBy (fun e => e.2.1 ?_) (evalMaxima_before h))) (fun _ => evalMaxima_before h)
  simp only [K.demShortCount]
  omega

theorem getC_of_bill {c : Nat} (h : t.bill = s.bill) : getC t c = getC s c := by
  unfold getC
  rw [h]

theorem closeIvl_before {f c : Nat} {forced fresh : Bool} (h : Before sc s t) : Before sc s (closeIvl f c forced fresh t) := by
  unfold closeIvl
  extract_lets x
  split
  · exact h
  · refine .ite (fun _ => h) (fun _ => ?_)
    refine (evalIvl_before h).setC (fun e => ?_) (fun e => ?_)
    · exact (congrArg BCct.slotA (getC_of_bill ((evalIvl_only (.refl _) (.refl _ _)).bill rfl))).symm.trans e
    · exact (congrArg BCct.slotB (getC_of_bill ((evalIvl_only (.refl _) (.refl _ _)).bill rfl))).symm.trans e

theorem showDemand_before {f c : Nat} (h : Before sc s t) : Before sc s (showDemand f c t) := by
  unfold showDemand
  extract_lets x
  split
  · exact h.putDue.putDue.putDue
  · exact h.putDue.putDue.putDue.putDue

theorem endIvl_before {f c : Nat} {forced fresh : Bool} (h : Before sc s t) : Before sc s (endIvl f c forced fresh t) :=
  .ite (fun _ => showDemand_before ((closeIvl_before h).setC id id)) (fun _ => (closeIvl_before h).setC id id)

theorem cutIvl_before {c : Nat} {fresh : Bool} (h : Before sc s t) : Before sc s (cutIvl c fresh t) := h.setC id id

theorem ivlStep_before {f c : Nat} {now : Bool} (h : Before sc s t) : Before sc s (ivlStep f c now t).2 := by
  unfold ivlStep
  extract_lets x
  split
  · exact h
  next v hv =>
    have act : Before sc s (mayAct f 1 c false (if x.closing = none then [] else [c]) [c] t).2 := mayAct_before (by omega) h
    dsimp only
    generalize mayAct f 1 c false (if x.closing = none then [] else [c]) [c] t = p at act ⊢
    refine .ite_snd (fun _ => endIvl_before h) (fun _ => .ite_snd (fun _ => ?_) (fun _ => .ite_snd (fun _ => ?_) (fun _ =>
      .ite_snd (fun _ => h.setC id id) (fun _ => .ite_snd (fun _ => ?_) (fun _ => .ite_snd (fun _ => h) (fun _ => h.setC id id))))))
    · exact .ite_snd (fun _ => (endIvl_before act).setFlag.setC id id) (fun _ => act)
    · exact .ite (fun _ => h) (fun _ => h.setFlag)
    · exact .ite_snd (fun _ => endIvl_before act) (fun _ => .ite (fun _ => cutIvl_before act) (fun _ => act))

theorem ivlSteps_before {f : Nat} {now : Bool} {cs : List Nat} (h : Before sc s t) : Before sc s (ivlSteps f now cs t).2 := by
  induction cs generalizing t with
  | nil => exact h
  | cons c cs ih => exact ih (ivlStep_before h)

/-! ### The load profile and clock steps -/

/-- A value that a change of every entry leaves alone reads as before. -/
theorem tget_map {α β : Type} {d : α} {p : α → β} {g : α → α} (hg : ∀ x, p (g x) = p x) (l : Tab α) (k : Nat) :
    p (tget d (l.map (fun e => (e.1, g e.2))) k) = p (tget d l k) := by
  induction l with
  | nil => rfl
  | cons e l ih =>
    obtain ⟨j, a⟩ := e
    show p (if j = k then g a else tget d _ k) = p (if j = k then a else tget d l k)
    split
    · exact hg a
    · exact ih

/-- The PROFILE bits of every circuit start anew. -/
theorem Before.profiles {due : List (Nat × Bytes)} (h : Before sc s t) :
    Before sc s { t with bill := { t.bill with profDue := due, cct := t.bill.cct.map (fun e => (e.1, { e.2 with prof := 0 })) } } := by
  refine h.trans ⟨fun _ _ => rfl, rfl, rfl, rfl, fun e => e, fun c => ?_⟩
  have a := tget_map (d := {}) (p := BCct.slotA) (g := fun x => { x with prof := 0 }) (fun _ => rfl) t.bill.cct c
  have b := tget_map (d := {}) (p := BCct.slotB) (g := fun x => { x with prof := 0 }) (fun _ => rfl) t.bill.cct c
  exact ⟨fun e => a.trans e, fun e => b.trans e⟩

theorem profBuild_before {f : Nat} (h : Before sc s t) : Before sc s (profBuild f t) := by
  unfold profBuild
  extract_lets g kinds mask cs seq rec counted
  have noted : Before sc s counted := h.put (not_firm_counter (by simp [stepCounters]))
  exact noted.profiles

theorem profStep_before {f : Nat} (h : Before sc s t) : Before sc s (profStep f t) := by
  unfold profStep
  extract_lets len a now built bill cleared
  have built_ : Before sc s built := .ite (fun _ => profBuild_before h) (fun _ => h)
  have cleared_ : Before sc s cleared := .ite (fun _ => built_.profiles) (fun _ => built_)
  exact cleared_.trans ⟨fun _ _ => rfl, rfl, rfl, rfl, fun e => e, fun _ => ⟨fun e => e, fun e => e⟩⟩

theorem stepsMet_before {f bsn : Nat} (h : Before sc s t) : Before sc s (stepsMet f bsn t).2 := by
  unfold stepsMet
  extract_lets due bill rest logged
  have taken : Before sc s rest := h.trans ⟨fun _ _ => rfl, rfl, rfl, rfl, fun e => e, fun _ => ⟨fun e => e, fun e => e⟩⟩
  have logged_ : Before sc s logged := .foldl (fun u _ => ((Before.refl u).counted (by simp [stepCounters])).eventAt) taken
  exact .ite (fun _ => logged_) (fun _ => .foldl (fun u _ => (Before.refl u).setFlag.setC id id) logged_)

/-! ### The plans of the schedules (R190, R191) -/

theorem schedPlan_before {f k : Nat} {late : Bool} (hk : k ≠ sc) (h : Before sc s t) : Before sc s (schedPlan f late k t).2 := by
  unfold schedPlan
  extract_lets cs a cur w late' cause key new
  have waited : Before sc s w := .ite (fun _ => waitLate_before h) (fun _ => h)
  have acted : Before sc s (mayAct f 0 k late' (cs.filter (fun c => !slotRoom a key (getC w c))) cs w).2 := mayAct_before (fun e => hk e.2) waited
  refine .ite_snd (fun _ => waited) (fun _ => ?_)
  generalize mayAct f 0 k late' (cs.filter (fun c => !slotRoom a key (getC w c))) cs w = p at acted ⊢
  exact .ite_snd (fun _ => acted) (fun _ => acted)

/-- CLOSE_NOW has marked schedule `sc` for frame `f`, nothing waits for it, and each of its circuits has a free journal slot. -/
structure Marked (f sc : Nat) (s : State) : Prop where
  marked : ∃ e ∈ s.bill.closes, bit e.1 sc = true ∧ e.2 ≤ f
  free : ∀ w ∈ s.bill.waits, ¬(w.kind = 0 ∧ w.id = sc)
  room : ∀ c ∈ schedCcts s f sc, (getC s c).slotA = none ∨ (getC s c).slotB = none

theorem cfg_of_get {f k : Nat} (hk : t.get k = s.get k) (hc : t.commits = s.commits) : t.cfg f k = s.cfg f k := by
  unfold State.cfg
  rw [hk, hc]

theorem Before.schedCcts {f : Nat} (h : Before sc s t) : schedCcts t f sc = schedCcts s f sc := by
  have cfg : ∀ {k : Nat}, Firm k → t.cfg f k = s.cfg f k := fun hk => cfg_of_get (h.get _ hk) h.commits
  have defined : definedCcts t f = definedCcts s f := by
    refine List.filter_congr (fun c hc => ?_)
    rw [cfg (firm_setting (List.mem_range.mp hc)).1]
  unfold Machine.schedCcts
  rw [defined]
  refine List.filter_congr (fun c hc => ?_)
  rw [cfg (firm_setting (List.mem_range.mp (List.mem_filter.mp hc).1)).2]

theorem Marked.before {f : Nat} (m : Marked f sc s) (h : Before sc s t) : Marked f sc t where
  marked := by rw [h.closes]; exact m.marked
  free := h.waits m.free
  room c hc := by
    rw [h.schedCcts] at hc
    exact (m.room c hc).imp (h.slots c).1 (h.slots c).2

theorem Marked.closeCause {f : Nat} (m : Marked f sc s) : closeCause s f sc false ≠ none := by
  obtain ⟨e, he, hb, hf⟩ := m.marked
  have now : s.bill.closes.any (fun e => bit e.1 sc && decide (e.2 ≤ f)) = true := List.any_eq_true.mpr ⟨e, he, by simp [hb, hf]⟩
  unfold Machine.closeCause
  dsimp only
  rw [now]
  split <;> (split <;> simp)

theorem Marked.waitOf {f : Nat} (m : Marked f sc s) : waitOf s 0 sc = none := by
  refine List.find?_eq_none.mpr (fun w hw e => m.free w hw ?_)
  simpa using e

/-- A marked schedule closes its period at the frame. -/
theorem Marked.plan {f : Nat} (m : Marked f sc s) :
    ∃ p, schedPlan f false sc s = (some p, s) ∧ p.sc = sc ∧ p.cause ≠ none := by
  have acts : ∀ {late : Bool} {a key : Nat} {cs : List Nat},
      mayAct f 0 sc late ((Machine.schedCcts s f sc).filter (fun c => !slotRoom a key (getC s c))) cs s = (true, s) := by
    intro late a key cs
    have roomy : (Machine.schedCcts s f sc).filter (fun c => !slotRoom a key (getC s c)) = [] := by
      refine List.filter_eq_nil_iff.mpr (fun c hc => ?_)
      rcases m.room c hc with e | e <;> simp [slotRoom, e]
    unfold mayAct
    rw [m.waitOf, roomy]
    rfl
  unfold schedPlan
  extract_lets cs a cur w late cause key new
  have same : w = s := if_neg Bool.false_ne_true
  have early : late = false := by
    show (false || match Machine.waitOf w 0 sc with | some x => x.late | none => false) = false
    rw [same, m.waitOf]
    rfl
  have closes : cause ≠ none := by
    show Machine.closeCause w f sc late ≠ none
    rw [early, same]
    exact m.closeCause
  rw [if_neg (fun e => closes e.1), same, acts]
  exact ⟨_, rfl, rfl, closes⟩

/-! ### The steps of a boundary (R184, R189, R190) -/

/-- No close at or before frame `f` is marked for schedule `sc` any more. -/
def Unmarked (f sc : Nat) (s : State) : Prop := ∀ e ∈ s.bill.closes, e.2 ≤ f → bit e.1 sc = false

/-- Steps that do not close schedule `sc`: its period and the boundary record stand, and no record or close of it is lost. -/
structure After (f sc : Nat) (s t : State) : Prop where
  hist : ∀ h ∈ s.bill.hist, h ∈ t.bill.hist
  closes : Unmarked f sc s → Unmarked f sc t
  get : ∀ k, k = K.bpPeriodNo sc ∨ k = K.boundaryFn ∨ k = K.stepsDone → t.get k = s.get k
  next : t.bill.next = s.bill.next

namespace After

variable {f : Nat}

theorem refl (s : State) : After f sc s s := ⟨fun _ h => h, id, fun _ _ => rfl, rfl⟩

theorem trans (h : After f sc s t) (k : After f sc t u) : After f sc s u :=
  ⟨fun x hx => k.hist x (h.hist x hx), fun e => k.closes (h.closes e), fun x hx => (k.get x hx).trans (h.get x hx), k.next.trans h.next⟩

theorem foldl {α : Type} {g : State → α → State} {l : List α} (hf : ∀ u a, a ∈ l → After f sc u (g u a)) (h : After f sc s t) :
    After f sc s (l.foldl g t) := by
  induction l generalizing t with
  | nil => exact h
  | cons a l ih => exact ih (fun u b hb => hf u b (List.mem_cons_of_mem _ hb)) (h.trans (hf t a List.mem_cons_self))

theorem ite {c : Prop} [Decidable c] (ht : c → After f sc s t) (hu : ¬c → After f sc s u) : After f sc s (if c then t else u) := by
  split
  · exact ht ‹_›
  · exact hu ‹_›

theorem of_bill (get : ∀ k, k = K.bpPeriodNo sc ∨ k = K.boundaryFn ∨ k = K.stepsDone → t.get k = s.get k) (bill : t.bill = s.bill) : After f sc s t where
  hist := by rw [bill]; exact fun _ h => h
  closes := by unfold Unmarked; rw [bill]; exact id
  get := get
  next := by rw [bill]

theorem put {k v : Nat} (h : After f sc s t) (h1 : k ≠ K.bpPeriodNo sc) (h2 : k ≠ K.boundaryFn) (h3 : k ≠ K.stepsDone) : After f sc s (t.put k v) := by
  refine h.trans (of_bill (fun j hj => get_put_ne ?_) rfl)
  rcases hj with rfl | rfl | rfl
  · exact h1
  · exact h2
  · exact h3

theorem putDue {g k v : Nat} (hs : sc < 5) (h : After f sc s t) : After f sc s (t.putDue g k v) := by
  have kept := State_putDue_only (s := t) (a1 := g) (a2 := k) (a3 := v) (.refl 68) (.refl _ _)
  refine h.trans (of_bill (fun j hj => get_putDue_ne ?_) (kept.bill rfl))
  unfold liveKey
  rcases hj with rfl | rfl | rfl <;> simp only [K.bpPeriodNo, K.boundaryFn, K.stepsDone] <;> omega

theorem eventAt {g c : Nat} {l : List Nat} (hs : sc < 5) (h : After f sc s t) : After f sc s (t.eventAt g c l) := by
  have kept := State_eventAt_only (s := t) (a1 := g) (a2 := c) (a3 := l) (.refl _) (.refl _ _)
  refine h.trans (of_bill (fun j hj => ?_) (kept.bill rfl))
  rcases hj with rfl | rfl | rfl
  · refine get_eventAt ?_ ?_ <;> simp only [K.bpPeriodNo, K.stalls, K.eventsLost] <;> omega
  · exact get_eventAt (by decide) (by decide)
  · exact get_eventAt (by decide) (by decide)

theorem setC {c : Nat} {x : BCct} (h : After f sc s t) : After f sc s (setC c x t) := h.trans ⟨fun _ e => e, id, fun _ _ => rfl, rfl⟩

theorem maxTotals {g c : Nat} (hs : sc < 5) (h : After f sc s t) : After f sc s (maxTotals g c t) := by
  unfold Machine.maxTotals
  extract_lets a b
  exact (((h.putDue hs).putDue hs).putDue hs).putDue hs

theorem clearMaxima {g c : Nat} (hs : sc < 5) (h : After f sc s t) : After f sc s (clearMaxima g c t) :=
  (foldl (fun u _ _ => (refl u).putDue hs) h).maxTotals hs

end After

section
variable {f bsn : Nat}

/-- The closes that stay marked when schedule `k` has closed. -/
def closesLeft (f k : Nat) (l : List (Nat × Nat)) : List (Nat × Nat) :=
  (l.map (fun e => if e.2 ≤ f then (clearBit e.1 k, e.2) else e)).filter (fun e => decide (e.1 ≠ 0))

/-- The record of a period that closes (R183). -/
def periodRecord (f k cause bsn : Nat) (s : State) : HistRec :=
  { sched := k, period := s.get (K.bpPeriodNo k), cause := cause, fn := f, time := s.timeOf f, bsn := bsn,
    ccts := (schedCcts s (f - 1) k).map (histEntry s k (s.get (K.bpPeriodNo k))) }

/-- The machine when the record of a period stands. -/
def periodNoted (f k cause bsn : Nat) (s : State) : State :=
  { s with bill := { s.bill with hist := s.bill.hist ++ [periodRecord f k cause bsn s], closes := closesLeft f k s.bill.closes,
                                 closedAt := tins s.bill.closedAt k f } }

theorem unmarked_closesLeft {k : Nat} {l : List (Nat × Nat)} : (∀ e ∈ closesLeft f k l, e.2 ≤ f → bit e.1 k = false) ∧
    ((∀ e ∈ l, e.2 ≤ f → bit e.1 sc = false) → ∀ e ∈ closesLeft f k l, e.2 ≤ f → bit e.1 sc = false) := by
  have left : ∀ e ∈ closesLeft f k l, e.2 ≤ f → ∃ d ∈ l, d.2 ≤ f ∧ e.1 = clearBit d.1 k := by
    intro e he hf
    obtain ⟨d, hd, rfl⟩ := List.mem_map.mp (List.mem_filter.mp he).1
    by_cases h : d.2 ≤ f
    · exact ⟨d, hd, h, by rw [if_pos h]⟩
    · rw [if_neg h] at hf
      exact absurd hf h
  refine ⟨fun e he hf => ?_, fun hl e he hf => ?_⟩
  · obtain ⟨d, -, -, eq⟩ := left e he hf
    rw [eq, bit_clearBit]
    simp
  · obtain ⟨d, hd, hdf, eq⟩ := left e he hf
    rw [eq, bit_clearBit, hl d hd hdf]
    rfl

/-- What the close of a period does beside its record: maxima and FLAGS start anew, and the number advances (R183, R188). -/
def periodTurned (f k cause bsn : Nat) (s : State) : State :=
  (schedCcts s (f - 1) k).foldl (fun s c => (clearMaxima f c s).putDue f (K.cctFlags c) 0) (periodNoted f k cause bsn s)

/-- The high-water mark of the calendar follows, but after CLOSE_NOW. -/
def markNoted (f k cause : Nat) (s : State) : State :=
  if cause = 1 then s else match lastClose s f k with | some t => s.put (K.bpHwm k) t | none => s

theorem closePeriod_eq {k cause : Nat} : closePeriod f k cause bsn s = (markNoted f k cause ((periodTurned f k cause bsn s).put (K.bpPeriodNo k)
    ((s.get (K.bpPeriodNo k) + 1) % 2 ^ 32))).eventAt f 0x0201 [k, s.get (K.bpPeriodNo k), cause, bsn] := rfl

theorem markNoted_after {k cause : Nat} (h : After f sc s t) : After f sc s (markNoted f k cause t) := by
  unfold markNoted
  refine .ite (fun _ => h) (fun _ => ?_)
  split
  · refine h.put ?_ ?_ ?_ <;> simp only [K.bpHwm, K.bpPeriodNo, K.boundaryFn, K.stepsDone] <;> omega
  · exact h

theorem periodTurned_after {k cause : Nat} (hs : sc < 5) : After f sc s (periodTurned f k cause bsn s) := by
  refine .foldl (fun u c _ => ((After.refl u).clearMaxima hs).putDue hs) ?_
  exact ⟨fun x hx => List.mem_append_left _ hx, fun e => unmarked_closesLeft.2 e, fun _ _ => rfl, rfl⟩

/-- The close of another schedule. -/
theorem closePeriod_after {k cause : Nat} (hs : sc < 5) (hk : k < 4) (hne : k ≠ sc) : After f sc s (closePeriod f k cause bsn s) := by
  rw [closePeriod_eq]
  refine .eventAt hs (markNoted_after ((periodTurned_after hs).put ?_ ?_ ?_)) <;> simp only [K.bpPeriodNo, K.boundaryFn, K.stepsDone] <;> omega

/-- The period of schedule `sc` has closed at frame `f`: its record stands, its number has advanced, and no close is marked for it. -/
structure Closed (f sc no : Nat) (s : State) : Prop where
  record : ∃ h ∈ s.bill.hist, h.sched = sc ∧ h.period = no ∧ h.fn = f
  number : s.get (K.bpPeriodNo sc) = (no + 1) % 2 ^ 32
  unmarked : Unmarked f sc s

theorem Closed.after {no : Nat} (h : Closed f sc no s) (k : After f sc s t) : Closed f sc no t where
  record := by
    obtain ⟨x, hx, e⟩ := h.record
    exact ⟨x, k.hist x hx, e⟩
  number := (k.get _ (.inl rfl)).trans h.number
  unmarked := k.closes h.unmarked

theorem closePeriod_self {cause : Nat} (hs : sc < 4) : Closed f sc (s.get (K.bpPeriodNo sc)) (closePeriod f sc cause bsn s) ∧
    (∀ k, k = K.boundaryFn ∨ k = K.stepsDone → (closePeriod f sc cause bsn s).get k = s.get k) ∧ (closePeriod f sc cause bsn s).bill.next = s.bill.next := by
  have fresh : After f sc (periodNoted f sc cause bsn s) (periodTurned f sc cause bsn s) :=
    .foldl (fun u c _ => ((After.refl u).clearMaxima (by omega)).putDue (by omega)) (.refl _)
  have done : ∀ u, After f sc u ((markNoted f sc cause u).eventAt f 0x0201 [sc, s.get (K.bpPeriodNo sc), cause, bsn]) :=
    fun u => .eventAt (by omega) (markNoted_after (.refl u))
  rw [closePeriod_eq]
  have ended := done ((periodTurned f sc cause bsn s).put (K.bpPeriodNo sc) ((s.get (K.bpPeriodNo sc) + 1) % 2 ^ 32))
  have recorded : periodRecord f sc cause bsn s ∈ (periodTurned f sc cause bsn s).bill.hist :=
    fresh.hist _ (List.mem_append_right _ (List.mem_singleton.mpr rfl))
  have closed : Closed f sc (s.get (K.bpPeriodNo sc)) ((periodTurned f sc cause bsn s).put (K.bpPeriodNo sc) ((s.get (K.bpPeriodNo sc) + 1) % 2 ^ 32)) :=
    { record := ⟨_, recorded, rfl, rfl, rfl⟩, number := get_put_self, unmarked := fresh.closes (unmarked_closesLeft (sc := sc)).1 }
  refine ⟨closed.after ended, fun k hk => ?_, ended.next.trans fresh.next⟩
  · have ne : K.bpPeriodNo sc ≠ k := by
      rcases hk with rfl | rfl <;> simp only [K.bpPeriodNo, K.boundaryFn, K.stepsDone] <;> omega
    exact (ended.get k (.inr hk)).trans ((get_put_ne ne).trans (fresh.get k (.inr hk)))

theorem takeKeys_after {g k a : Nat} (h : After f sc s t) : After f sc s (takeKeys g k a t) := .foldl (fun u _ _ => (After.refl u).setC) h

theorem switchStep_after {p : SchedPlan} (hs : sc < 5) : After f sc s (switchStep f bsn p s) := by
  unfold switchStep
  extract_lets cur noted bill
  have counted : After f sc s noted := by
    refine .ite (fun _ => .eventAt hs ((After.refl s).put ?_ ?_ ?_)) (fun _ => .refl s) <;>
      simp only [K.schSwitches, K.bpPeriodNo, K.boundaryFn, K.stepsDone] <;> omega
  exact takeKeys_after (counted.trans ⟨fun _ e => e, id, fun _ _ => rfl, rfl⟩)

theorem switchSteps_after {ps : List SchedPlan} (hs : sc < 5) : After f sc s (switchSteps f bsn ps s) :=
  .foldl (fun _ _ _ => switchStep_after hs) (.refl s)

theorem showCalendar_after {b : Bool} (hs : sc < 5) : After f sc s (showCalendar f b s) := by
  unfold showCalendar
  extract_lets shown
  have first : After f sc s shown := .foldl (fun u _ _ => (After.refl u).putDue hs) (.refl s)
  exact .ite (fun _ => .foldl (fun u _ _ => (((After.refl u).putDue hs).putDue hs).putDue hs) first) (fun _ => first)

/-- Closes of other schedules. -/
theorem closeSteps_after {ps : List SchedPlan} (hs : sc < 5) (h : ∀ p ∈ ps, p.sc < 4 ∧ p.sc ≠ sc) : After f sc s (closeSteps f bsn ps s) := by
  refine .foldl (fun u p hp => ?_) (.refl s)
  split
  · exact closePeriod_after hs (h p hp).1 (h p hp).2
  · exact .refl u

/-- Among the plans, one closes schedule `sc`, and no other is of it. -/
structure OnePlan (sc : Nat) (ps : List SchedPlan) : Prop where
  split : ∃ l p r, ps = l ++ p :: r ∧ p.sc = sc ∧ p.cause ≠ none ∧ ∀ q ∈ l ++ r, q.sc < 4 ∧ q.sc ≠ sc

theorem closeSteps_one {ps : List SchedPlan} (hs : sc < 4) (h : OnePlan sc ps) : Closed f sc (s.get (K.bpPeriodNo sc)) (closeSteps f bsn ps s) ∧
    (∀ k, k = K.boundaryFn ∨ k = K.stepsDone → (closeSteps f bsn ps s).get k = s.get k) := by
  obtain ⟨l, p, r, rfl, rfl, hcause, others⟩ := h.split
  obtain ⟨cause, hc⟩ := Option.ne_none_iff_exists'.mp hcause
  have left := closeSteps_after (f := f) (bsn := bsn) (s := s) (sc := p.sc) (by omega) (fun q hq => others q (List.mem_append_left _ hq))
  obtain ⟨closed, kept, -⟩ := closePeriod_self (f := f) (bsn := bsn) (s := closeSteps f bsn l s) (cause := cause) hs
  have right := closeSteps_after (f := f) (bsn := bsn) (s := closePeriod f p.sc cause bsn (closeSteps f bsn l s)) (sc := p.sc) (by omega)
    (fun q hq => others q (List.mem_append_right _ hq))
  have steps : closeSteps f bsn (l ++ p :: r) s = closeSteps f bsn r (closePeriod f p.sc cause bsn (closeSteps f bsn l s)) := by
    unfold closeSteps
    rw [List.foldl_append, List.foldl_cons, hc]
  rw [steps]
  rw [left.get _ (.inl rfl)] at closed
  exact ⟨closed.after right, fun k hk => (right.get k (.inr hk)).trans ((kept k hk).trans (left.get k (.inr hk)))⟩

end

/-! ### Every plan and the boundary record -/

section
variable {f : Nat}

/-- A plan is of its schedule. -/
theorem schedPlan_sc {k : Nat} {late : Bool} {p : SchedPlan} : p ∈ (schedPlan f late k s).1 → p.sc = k := by
  unfold schedPlan
  extract_lets cs a cur w late' cause key new
  split
  · exact nofun
  · generalize mayAct f 0 k late' _ cs w = acted
    show p ∈ (if acted.1 then _ else (none, acted.2) : Option SchedPlan × State).1 → _
    split
    · exact fun h => (Option.some.inj h) ▸ rfl
    · exact nofun

theorem schedPlans_cons {k : Nat} {late : Bool} {l : List Nat} : schedPlans f late (k :: l) s =
    ((schedPlan f late k s).1.toList ++ (schedPlans f late l (schedPlan f late k s).2).1, (schedPlans f late l (schedPlan f late k s).2).2) := rfl

theorem schedPlans_other {late : Bool} {l : List Nat} (h : sc ∉ l) : Before sc s (schedPlans f late l s).2 ∧
    ∀ p ∈ (schedPlans f late l s).1, p.sc ∈ l := by
  induction l generalizing s with
  | nil => exact ⟨.refl s, fun _ hp => absurd hp List.not_mem_nil⟩
  | cons k l ih =>
    obtain ⟨hk, hl⟩ := not_or.mp (fun e => h (List.mem_cons.mpr e))
    have first := schedPlan_before (f := f) (late := late) (Ne.symm hk) (.refl s)
    obtain ⟨rest, plans⟩ := ih (s := (schedPlan f late k s).2) hl
    refine ⟨first.trans rest, fun p hp => ?_⟩
    rcases List.mem_append.mp hp with hp | hp
    · exact List.mem_cons.mpr (.inl (schedPlan_sc (Option.mem_toList.mp hp)))
    · exact List.mem_cons_of_mem _ (plans p hp)

/-- The plans of the schedules close a marked one once, and leave its number and the boundary record alone. -/
theorem schedPlans_marked {l : List Nat} (hl : ∀ k ∈ l, k < 4) (nodup : l.Nodup) (h : sc ∈ l) (m : Marked f sc s) :
    OnePlan sc (schedPlans f false l s).1 ∧ Before sc s (schedPlans f false l s).2 := by
  induction l generalizing s with
  | nil => cases h
  | cons k l ih =>
    obtain ⟨hk, nodup⟩ := List.nodup_cons.mp nodup
    have small : ∀ j ∈ l, j < 4 := fun j hj => hl j (List.mem_cons_of_mem _ hj)
    by_cases e : k = sc
    · subst e
      obtain ⟨p, plan, hsc, hcause⟩ := m.plan
      obtain ⟨rest, plans⟩ := schedPlans_other (s := s) (f := f) (late := false) hk
      have eq : schedPlans f false (k :: l) s = (p :: (schedPlans f false l s).1, (schedPlans f false l s).2) := by
        rw [schedPlans_cons, plan]
        rfl
      rw [eq]
      exact ⟨⟨[], p, _, rfl, hsc, hcause, fun q hq => ⟨small _ (plans q hq), fun e => hk (e ▸ plans q hq)⟩⟩, rest⟩
    · have first := schedPlan_before (f := f) (late := false) e (.refl s)
      obtain ⟨⟨x, p, r, eq, hsc, hcause, others⟩, rest⟩ := ih (s := (schedPlan f false k s).2) small nodup
        ((List.mem_cons.mp h).resolve_left (Ne.symm e)) (m.before first)
      refine ⟨⟨(schedPlan f false k s).1.toList ++ x, p, r, ?_, hsc, hcause, fun q hq => ?_⟩, first.trans rest⟩
      · show (schedPlan f false k s).1.toList ++ (schedPlans f false l (schedPlan f false k s).2).1 = _
        rw [eq, List.append_assoc]
      · rw [List.append_assoc] at hq
        rcases List.mem_append.mp hq with hq | hq
        · rw [schedPlan_sc (Option.mem_toList.mp hq)]
          exact ⟨hl k List.mem_cons_self, e⟩
        · exact others q hq

theorem boundaryOpen_get {b : Bound} : (boundaryOpen b s).get K.boundaryFn = b.fn ∧ (boundaryOpen b s).get K.stepsDone = b.steps ∧
    ∀ k < 4, (boundaryOpen b s).get (K.bpPeriodNo k) = s.get (K.bpPeriodNo k) := by
  refine ⟨?_, get_put_self, fun k hk => ?_⟩
  · unfold boundaryOpen
    rw [get_put_ne (by decide), get_put_ne (by decide), get_put_self]
  · unfold boundaryOpen
    have apart : ∀ k < 4, K.bsn ≠ K.bpPeriodNo k ∧ K.boundaryFn ≠ K.bpPeriodNo k ∧ K.boundaryTime ≠ K.bpPeriodNo k ∧ K.stepsDone ≠ K.bpPeriodNo k := by
      decide
    obtain ⟨bsn, fn, time, steps⟩ := apart k hk
    rw [get_put_ne steps, get_put_ne time, get_put_ne fn, get_put_ne bsn]

/-- A further step of the boundary record changes no more than that. -/
theorem stepDone_get {k j : Nat} (h : K.stepsDone ≠ j) : (stepDone k s).get j = s.get j := get_put_ne h

theorem stepDone_steps {k : Nat} : (stepDone k s).get K.stepsDone = setBit (s.get K.stepsDone) (k - 1) := get_put_self

theorem Closed.stepDone {k no : Nat} (hs : sc < 4) (h : Closed f sc no s) : Closed f sc no (stepDone k s) where
  record := h.record
  number := (stepDone_get (by simp only [K.bpPeriodNo, K.stepsDone]; omega)).trans h.number
  unmarked := h.unmarked

/-- The machine when steps 3 and 4 of a boundary are done (R190). -/
def boundaryDone (f bsn : Nat) (b : Bound) (ps : List SchedPlan) (s : State) : State :=
  stepDone 4 (switchSteps f bsn ps (stepDone 3 (closeSteps f bsn ps (boundaryOpen b { s with bill := { s.bill with bound := b } }))))

theorem boundaryDone_closed {bsn : Nat} {b : Bound} {ps : List SchedPlan} (hs : sc < 4) (hf : b.fn = f) (h3 : b.steps = 3) (one : OnePlan sc ps) :
    Closed f sc (s.get (K.bpPeriodNo sc)) (boundaryDone f bsn b ps s) ∧ (boundaryDone f bsn b ps s).get K.boundaryFn = f ∧
    (boundaryDone f bsn b ps s).get K.stepsDone = 15 := by
  unfold boundaryDone
  have number : s.get (K.bpPeriodNo sc) = ({ s with bill := { s.bill with bound := b } } : State).get (K.bpPeriodNo sc) := rfl
  rw [number]
  generalize ({ s with bill := { s.bill with bound := b } } : State) = v
  obtain ⟨openFn, openSteps, numbers⟩ := boundaryOpen_get (s := v) (b := b)
  obtain ⟨closed, kept⟩ := closeSteps_one (f := f) (bsn := bsn) (s := boundaryOpen b v) hs one
  rw [numbers sc hs] at closed
  have switched := switchSteps_after (f := f) (sc := sc) (bsn := bsn) (ps := ps) (s := stepDone 3 (closeSteps f bsn ps (boundaryOpen b v))) (by omega)
  refine ⟨((closed.stepDone hs).after switched).stepDone hs, ?_, ?_⟩
  · rw [stepDone_get (by decide), switched.get _ (.inr (.inl rfl)), stepDone_get (by decide), kept _ (.inl rfl), openFn, hf]
  · rw [stepDone_steps, switched.get _ (.inr (.inr rfl)), stepDone_steps, kept _ (.inr rfl), openSteps, h3]
    decide

/-- A marked schedule closes at the boundary, whose record shows steps 1 to 4 done. -/
theorem boundaries_marked {closed : List Nat} (hs : sc < 4) (m : Marked f sc s) :
    Closed f sc (s.get (K.bpPeriodNo sc)) (boundaries f false false closed s).2 ∧
    (boundaries f false false closed s).2.get K.boundaryFn = f ∧ (boundaries f false false closed s).2.get K.stepsDone = 15 := by
  obtain ⟨one, before⟩ := schedPlans_marked (l := List.range 4) (fun k hk => List.mem_range.mp hk) List.nodup_range (List.mem_range.mpr hs) m
  have number := before.get _ (firm_periodNo (by omega : sc < 5))
  obtain ⟨l, p, r, eq, hsc, hcause, -⟩ := one.split
  unfold boundaries
  dsimp only
  generalize schedPlans f false (List.range 4) s = plans at one before number eq ⊢
  obtain ⟨ps, u⟩ := plans
  have kinds : (boundKinds u f false closed ps).any (fun k => decide (k ≠ 0)) = true := by
    refine List.any_eq_true.mpr ⟨_, List.mem_map.mpr ⟨sc, List.mem_range.mpr hs, rfl⟩, ?_⟩
    have closes : ps.any (fun q => decide (q.sc = sc) && decide (q.cause ≠ none)) = true :=
      List.any_eq_true.mpr ⟨p, by rw [show ps = _ from eq]; simp, by simp [hsc, hcause]⟩
    rw [closes]
    simp [b2n]
  rw [if_pos kinds]
  dsimp only at number ⊢
  rw [← number]
  exact boundaryDone_closed (bsn := (s.get K.bsn + 1) % 2 ^ 32) (b := boundOf u f _ _ ps) hs rfl rfl one

end

/-! ### The start of a frame -/

section
variable {f : Nat}

/-- The core goes on with frame `next`. -/
def SameNext (s t : State) : Prop := t.bill.next = s.bill.next

namespace SameNext

theorem of_only {m : Nat} (h : Only m s t) (e : m.testBit 13 = false) : SameNext s t := congrArg Bill.next (h.bill e)

theorem foldl {α : Type} {g : State → α → State} {l : List α} (hf : ∀ u a, SameNext u (g u a)) (h : SameNext s t) : SameNext s (l.foldl g t) := by
  induction l generalizing t with
  | nil => exact h
  | cons a l ih => exact ih ((hf t a).trans h)

theorem ite {c : Prop} [Decidable c] (ht : c → SameNext s t) (hu : ¬c → SameNext s u) : SameNext s (if c then t else u) := by
  split
  · exact ht ‹_›
  · exact hu ‹_›

theorem before (h : Before 0 s t) : SameNext s t := h.next

/-- The steps of a frame are taken. -/
theorem begun (h : SameNext s t) : SameNext s { t with bill := { t.bill with begun := true } } := h

end SameNext

theorem rescaleGecko_next {c a b : Nat} : SameNext s (rescaleGecko c a b s) := by
  refine .ite (fun _ => rfl) (fun _ => ?_)
  exact (SameNext.before (postJob_before (.refl _))).trans rfl

theorem rescaleCct_next {c a b : Nat} : SameNext s (rescaleCct f c a b s) := by
  unfold rescaleCct
  extract_lets signed sets totals funds gecko x r scaled unit
  have regs : ∀ {u v : State}, Only 68 u v → SameNext u v := fun h => .of_only h rfl
  have h1 : SameNext s sets := regs (Only.foldl (fun _ _ => rescaleReg_only (.refl _)) (.refl _ _))
  have h2 : SameNext sets totals := regs (Only.foldl (fun _ _ => putReg_only (.refl _)) (.refl _ _))
  have h3 : SameNext totals funds := regs (Only.foldl (fun _ _ => putTotal_only (.refl _)) (.refl _ _))
  have h4 : SameNext funds gecko := rescaleGecko_next
  have h5 : SameNext scaled unit := .of_only (State_eventAt_only (.refl _) (State_put_only ((Within.refl _).of rfl) (.refl _ _))) rfl
  have h6 : SameNext unit (forceRoll [c] unit) := .before (forceRoll_before (.refl _))
  exact h6.trans (h5.trans (h4.trans (h3.trans (h2.trans h1))))

theorem defineCct_next {c : Nat} : SameNext s (defineCct f c s) :=
  (SameNext.of_only (showDemand_only (.refl _) (.refl _ _)) rfl).trans rfl

theorem undefineCct_next {c : Nat} : SameNext s (undefineCct f c s) := by
  have shown : ∀ u : State, SameNext u ((liveCctKeys c).foldl (fun s k => s.putDue f k 0) ((u.putDue f (K.cctStatus c) 0x8000).putDue f (K.cctHStatus c) 0x8000)) :=
    fun u => .of_only (Only.foldl (fun _ _ => State_putDue_only (.refl 68)) (State_putDue_only (.refl _) (State_putDue_only (.refl _) (.refl _ _)))) rfl
  unfold undefineCct
  extract_lets x cut
  exact shown cut

theorem cfgCct_next {c : Nat} : SameNext s (cfgCct f c s) := by
  unfold cfgCct
  extract_lets old new scaled
  have h : SameNext s scaled := .ite (fun _ => rescaleCct_next) (fun _ => rfl)
  exact .ite (fun _ => defineCct_next.trans h) (fun _ => .ite (fun _ => undefineCct_next.trans h) (fun _ => .ite (fun _ => h) (fun _ => h)))

theorem cfgFrame_next : SameNext s (cfgFrame f s) := by
  refine .ite (fun _ => ?_) (fun _ => rfl)
  have offset : SameNext s (cfgOffset f s) := .ite (fun _ => rfl) (fun _ => rfl)
  refine .foldl (fun _ _ => .of_only (cfgPulse_only (.refl _) (.refl _ _)) rfl) (.foldl (fun _ _ => ?_) offset)
  exact (SameNext.of_only (cfgTrain_only (.refl _) (.refl _ _)) rfl).trans cfgCct_next

theorem schedPlans_next {late : Bool} : SameNext s (schedPlans f late (List.range 4) s).2 :=
  (schedPlans_other (sc := 4) (by decide)).1.next

theorem boundaries_next {late stepped : Bool} {closed : List Nat} : SameNext s (boundaries f late stepped closed s).2 := by
  have plans := schedPlans_next (s := s) (f := f) (late := late)
  have small := (schedPlans_other (s := s) (f := f) (late := late) (sc := 4) (l := List.range 4) (by decide)).2
  unfold boundaries
  dsimp only
  generalize schedPlans f late (List.range 4) s = r at plans small ⊢
  obtain ⟨ps, u⟩ := r
  have switched : ∀ {bsn : Nat} (v : State), SameNext v (switchSteps f bsn ps v) := fun v => (switchSteps_after (sc := 4) (f := f) (by omega)).next
  have closes : ∀ {bsn : Nat} (v : State), SameNext v (closeSteps f bsn ps v) := fun v =>
    (closeSteps_after (sc := 4) (f := f) (by omega) (fun p hp => by have := List.mem_range.mp (small p hp); omega)).next
  have opened : ∀ (b : Bound) (v : State), SameNext v (boundaryOpen b v) := fun b v => .of_only (boundaryOpen_only (.refl _) (.refl _ _)) rfl
  have done : ∀ {bsn : Nat} (b : Bound), SameNext u (boundaryDone f bsn b ps u) := fun b =>
    Eq.trans (Eq.trans (switched _) (closes _)) (opened b _)
  dsimp only at plans
  split
  · exact (done _).trans plans
  · exact (switched u).trans plans

theorem stepsMet_before' {bsn : Nat} {met : Bool} (e : stepsMet f bsn s = (met, t)) : Before sc s t := by
  have h := stepsMet_before (sc := sc) (f := f) (bsn := bsn) (.refl s)
  rwa [e] at h

theorem ivlSteps_before' {now : Bool} {cs ended : List Nat} (e : ivlSteps f now cs s = (ended, t)) : Before sc s t := by
  have h := ivlSteps_before (sc := sc) (f := f) (now := now) (cs := cs) (.refl s)
  rwa [e] at h

theorem boundaries_next' {late met any : Bool} {ended : List Nat} (e : boundaries f late met ended s = (any, t)) : SameNext s t := by
  have h := boundaries_next (s := s) (f := f) (late := late) (stepped := met) (closed := ended)
  rwa [e] at h

/-- The core begins the frame that it is at. -/
theorem startFrame_next {late : Bool} : SameNext s (startFrame f late s) := by
  have begun : SameNext s (profStep f (cfgFrame f s)) := (SameNext.before (profStep_before (.refl _))).trans cfgFrame_next
  unfold startFrame
  extract_lets s₀
  split
  next met s₁ e₁ =>
    split
    next ended s₂ e₂ =>
      split
      next any s₃ e₃ =>
        have closed : SameNext s s₂ := (SameNext.before (ivlSteps_before' e₂)).trans ((SameNext.before (stepsMet_before' e₁)).trans begun)
        have shown : SameNext s₃ (showCalendar f (any || commitAt s₃ f) s₃) := .of_only (showCalendar_only (.refl 68) (.refl _ _)) rfl
        exact .begun (shown.trans ((boundaries_next' e₃).trans closed))

theorem profStep_steps : (profStep f s).bill.steps = s.bill.steps := by
  unfold profStep
  extract_lets len a now built bill cleared
  have built_ : built.bill.steps = s.bill.steps := by
    show (if _ then profBuild f s else s).bill.steps = _
    split <;> rfl
  have cleared_ : cleared.bill.steps = built.bill.steps := by
    show (if _ then _ else built : State).bill.steps = _
    split <;> rfl
  exact cleared_.trans built_

/-- Without a clock step none is met. -/
theorem stepsMet_none {bsn : Nat} {met : Bool} (h : s.bill.steps = []) (e : stepsMet f bsn s = (met, t)) : met = false := by
  unfold stepsMet at e
  rw [h] at e
  exact (congrArg Prod.fst e).symm

/-- A frame of no commit and no clock step closes the schedules that CLOSE_NOW has marked for it (R184, R189). -/
theorem startFrame_marked (hs : sc < 4) (m : Marked f sc s) (hc : commitAt s f = false) (hsteps : s.bill.steps = []) :
    Closed f sc (s.get (K.bpPeriodNo sc)) (startFrame f false s) ∧ (startFrame f false s).get K.boundaryFn = f ∧
    (startFrame f false s).get K.stepsDone = 15 := by
  have quiet : cfgFrame f s = s := if_neg (by simp [hc])
  unfold startFrame
  extract_lets s₀
  have begun : Before sc s s₀ := by
    show Before sc s (profStep f (cfgFrame f s))
    rw [quiet]
    exact profStep_before (.refl s)
  have still : s₀.bill.steps = [] := by
    show (profStep f (cfgFrame f s)).bill.steps = []
    rw [quiet, profStep_steps, hsteps]
  split
  next met s₁ e₁ =>
    have unstepped := stepsMet_none still e₁
    subst unstepped
    split
    next ended s₂ e₂ =>
      have before : Before sc s s₂ := (begun.trans (stepsMet_before' e₁)).trans (ivlSteps_before' e₂)
      split
      next any s₃ e₃ =>
        obtain ⟨closed, boundary, done⟩ := boundaries_marked (f := f) (closed := ended) hs (m.before before)
        rw [Bool.or_false] at e₃
        rw [e₃, before.get _ (firm_periodNo (by omega))] at closed
        rw [e₃] at boundary done
        have shown := showCalendar_after (f := f) (sc := sc) (s := s₃) (b := any || commitAt s₃ f) (by omega)
        exact ⟨⟨(closed.after shown).record, (closed.after shown).number, (closed.after shown).unmarked⟩,
          (shown.get _ (.inr (.inl rfl))).trans boundary, (shown.get _ (.inr (.inr rfl))).trans done⟩

end

end Sys2Proof.Machine
end

section
/-! PROOF. The Hallmark core's work on the oldest frame (R115 to R125, R190 to R193). -/

namespace Sys2Proof.Machine

variable {s t u : State} {f c : Nat}

/-! ### The queue of the core -/

/-- The frames that wait for the core, and frame G, stand. -/
structure SameWork (s t : State) : Prop where
  held : t.bill.held = s.bill.held
  ring3 : t.tan.ring3 = s.tan.ring3
  g : t.bill.g = s.bill.g

namespace SameWork

theorem refl (s : State) : SameWork s s := ⟨rfl, rfl, rfl⟩

theorem trans (h : SameWork s t) (k : SameWork t u) : SameWork s u :=
  ⟨k.held.trans h.held, k.ring3.trans h.ring3, k.g.trans h.g⟩

/-- What changes neither billing nor the Tannery. -/
theorem of_only {m : Nat} (h : Only m s t) (e1 : m.testBit 13 = false) (e2 : m.testBit 11 = false) : SameWork s t :=
  ⟨congrArg Bill.held (h.bill e1), congrArg Tan.ring3 (h.tan e2), congrArg Bill.g (h.bill e1)⟩

theorem foldl {α : Type} {g : State → α → State} {l : List α} (hf : ∀ u a, SameWork u (g u a)) (h : SameWork s t) : SameWork s (l.foldl g t) := by
  induction l generalizing t with
  | nil => exact h
  | cons a l ih => exact ih (h.trans (hf t a))

theorem ite {c : Prop} [Decidable c] (ht : c → SameWork s t) (hu : ¬c → SameWork s u) : SameWork s (if c then t else u) := by
  split
  · exact ht ‹_›
  · exact hu ‹_›

theorem putDue {f k v : Nat} (h : SameWork s t) : SameWork s (t.putDue f k v) :=
  h.trans (of_only (State_putDue_only (.refl 68) (.refl _ _)) rfl rfl)

theorem setFlag {f c b : Nat} (h : SameWork s t) : SameWork s (setFlag f c b t) := h.putDue

theorem setC {c : Nat} {x : BCct} (h : SameWork s t) : SameWork s (setC c x t) := h.trans ⟨rfl, rfl, rfl⟩

theorem queue (h : SameWork s t) : workQueue t = workQueue s := by
  unfold workQueue
  rw [h.held, h.ring3]

end SameWork

section
variable {fr : R3} {later : List R3}

theorem setFirst_queue {r : R3} (h : workQueue s = fr :: later) : workQueue (setFirst r s) = r :: later := by
  unfold workQueue at *
  unfold setFirst
  cases held : s.bill.held with
  | cons a l =>
    rw [held] at h
    exact congrArg (r :: ·) (List.cons.inj h).2
  | nil =>
    cases ring : s.tan.ring3 with
    | nil => rw [held, ring] at h; exact absurd h (by simp)
    | cons a l =>
      rw [held, ring] at h
      show s.bill.held ++ r :: l = _
      rw [held]
      exact congrArg (r :: ·) (List.cons.inj h).2

theorem dropFirst_queue (h : workQueue s = fr :: later) : workQueue (dropFirst s) = later := by
  unfold workQueue at *
  unfold dropFirst
  cases held : s.bill.held with
  | cons a l =>
    rw [held] at h
    exact (List.cons.inj h).2
  | nil =>
    rw [held] at h
    show s.bill.held ++ s.tan.ring3.tail = _
    rw [held]
    exact congrArg List.tail h

theorem dropFirst_bill : (dropFirst s).bill.next = s.bill.next ∧ (dropFirst s).bill.begun = s.bill.begun ∧ (dropFirst s).bill.cct = s.bill.cct := by
  unfold dropFirst
  split <;> exact ⟨rfl, rfl, rfl⟩

theorem setFirst_bill {r : R3} : (setFirst r s).bill.g = s.bill.g := by
  unfold setFirst
  split
  · rfl
  · split <;> rfl

end

/-! ### A complete frame -/

/-- The results of the Tannery that wait for the core are none of those due with a frame. -/
theorem stageSpectra_ring3 : (stageSpectra f s).tan.ring3 = s.tan.ring3 := by
  unfold stageSpectra
  extract_lets due s₁ tan s₂
  have shown : Only 4 s s₁ := .foldl (fun _ _ h => .ite (fun _ => .ite (fun _ => State_putBoth_only (.refl 4) (State_putsBoth_only (.refl 4) h))
    (fun _ => State_putsBoth_only (.refl 4) h)) (fun _ => h)) (.refl _ _)
  have ring : s₁.tan.ring3 = s.tan.ring3 := congrArg Tan.ring3 (shown.tan rfl)
  have kept : s₂.tan.ring3 = s.tan.ring3 := ring
  split
  · exact (congrArg Tan.ring3 ((clearSpectra_only (.refl 4) (.refl _ _)).tan rfl)).trans kept
  · exact kept

/-- A complete frame enters the staging buffers, and is not late; the results that wait for the core stand. -/
theorem stageFrame_staged {lost : Bool} : (stageFrame f lost s).tan.ring3 = s.tan.ring3 ∧
    ∃ p, (stageFrame f lost s).staging = s.staging ++ [p] ∧ p.fn = f ∧ p.late = false := by
  have due : Only 68 s (s.applyDue f) := State_applyDue_only (.refl 68) (.refl _ _)
  unfold stageFrame
  extract_lets wins s₁ tan s₂
  have spectra : Only 2052 (s.applyDue f) s₁ := stageSpectra_only (.refl 2052) (.refl _ _)
  have pages : Only 4 { s₁ with tan := { tan with powDue := s₁.tan.powDue.filter (fun e => decide (f < e.1)) } } s₂ :=
    .foldl (fun _ _ h => showPage_only (.refl 4) h) (.refl _ _)
  have staged : s₂.staging = s.staging := (pages.staging rfl).trans ((spectra.staging rfl).trans (due.staging rfl))
  have ring : s₂.tan.ring3 = s.tan.ring3 :=
    (congrArg Tan.ring3 (pages.tan rfl)).trans (stageSpectra_ring3.trans (congrArg Tan.ring3 (due.tan rfl)))
  exact ⟨ring, _, congrArg (· ++ _) staged, rfl, rfl⟩

theorem stageFrame_work {lost : Bool} : SameWork s (stageFrame f lost s) :=
  have bill := (stageFrame_only (a0 := f) (a1 := lost) (.refl 67111108) (.refl _ s)).bill rfl
  ⟨congrArg Bill.held bill, stageFrame_staged.1, congrArg Bill.g bill⟩

theorem balanceFrame_work {fr : R3} : SameWork s (balanceFrame fr s) := by
  unfold balanceFrame
  extract_lets f roles bill s₁ on s₂ inc s₃
  have changed : SameWork s s₁ := .ite (fun _ => .refl s) (fun _ => .putDue ⟨rfl, rfl, rfl⟩)
  have shown : SameWork s s₂ := .ite (fun _ => .ite (fun _ => changed.putDue) (fun _ => changed)) (fun _ => changed.putDue)
  have counted : SameWork s s₃ := .ite (fun _ => .ite
    (fun _ => shown.trans (.of_only (State_bump_only (.refl 4) (.refl _ _)) rfl rfl))
    (fun _ => shown.trans (.of_only (putUnaccounted_only (.refl 68) (.refl _ _)) rfl rfl))) (fun _ => shown)
  clear_value s₃
  exact .ite (fun _ => counted.trans ⟨rfl, rfl, rfl⟩) (fun _ => counted)

theorem pulseFrame_work : SameWork s (pulseFrame f s) := by
  unfold pulseFrame
  extract_lets s₁
  have outs : Only 16384 s s₁ := .foldl (fun _ _ h => outFrame_only (.refl 16384) h) (.refl _ _)
  split
  next due s₂ e =>
    have train := trainCcts_only' e (.refl 16384) outs
    exact (SameWork.of_only train rfl rfl).trans ⟨rfl, rfl, rfl⟩

/-- The last work on a frame completes it: it leaves the queue for the publisher, and the core turns to the next one. -/
theorem finishFrame_effects {fr : R3} {later : List R3} (h : workQueue s = fr :: later) {u : R3} : workQueue (finishFrame u s) = later ∧
    (finishFrame u s).bill.next = u.fn + 1 ∧ (finishFrame u s).bill.begun = false ∧
    ∃ p, (finishFrame u s).staging = s.staging ++ [p] ∧ p.fn = u.fn := by
  unfold finishFrame
  extract_lets f s₁ s₂ s₃ s₄ s₅ absorb bill s₆ acq
  have shown : Only 68 s s₁ := .foldl (fun _ _ h => showCct_only (.refl 68) h) (.refl _ _)
  have pulsed : SameWork s s₂ ∧ s₂.staging = s.staging :=
    ⟨((SameWork.of_only shown rfl rfl).trans balanceFrame_work).trans pulseFrame_work, ((pulseFrame_only (.refl _) (.refl _ _)).staging rfl).trans
      (((balanceFrame_only (.refl _) (.refl _ _)).staging rfl).trans (shown.staging rfl))⟩
  have health : Only 32836 s₂ s₃ := healthFrame_only (.refl 32836) (markFrame_only ((Within.refl 32836).of rfl) (.refl _ _))
  have supply : Only 132 s₃ s₄ := .ite (fun _ => State_putV_only (.refl 132) (.refl _ _)) (fun _ => .refl _ _)
  obtain ⟨-, p, staged, fn, -⟩ := stageFrame_staged (s := s₄) (f := f) (lost := u.lost)
  have work : SameWork s s₅ := (pulsed.1.trans (.of_only health rfl rfl)).trans ((SameWork.of_only supply rfl rfl).trans stageFrame_work)
  have all : s₅.staging = s.staging ++ [p] := by
    rw [← pulsed.2, ← health.staging rfl, ← supply.staging rfl]
    exact staged
  clear_value s₅
  obtain ⟨next, begun, -⟩ := dropFirst_bill (s := { s₅ with bill := { bill with next := f + 1, begun := false, run := true, absorb := absorb } })
  have gone : workQueue s₆ = later := dropFirst_queue (work.queue.trans h)
  refine ⟨gone, next, begun, p, ?_, fn⟩
  exact ((dropFirst_only (.refl _) (.refl _ _)).staging rfl).trans all

/-! ### The registers of all circuits -/

/-- Every register stands. -/
def SameRegs (s t : State) : Prop := ∀ d i, d < 256 → i < 72 → regTot t d i = regTot s d i

/-- An object that is no register. -/
def Unmetered (k : Nat) : Prop := ∀ d i, d < 256 → i < 72 → k ≠ K.cctReg d i ∧ k ≠ K.cctWrap d i

/-- The objects of a circuit's frame are no registers. -/
theorem unmetered_frame (hc : c < 256) : Unmetered (K.cctStatus c) ∧ Unmetered (K.cctFrameEp c) ∧ Unmetered (K.cctFrameEq c) ∧
    Unmetered (K.cctFrameEs c) ∧ Unmetered (K.cctTariff c) ∧ Unmetered (K.cctFlags c) := by
  dsimp only [Unmetered, K.cctStatus, K.cctFrameEp, K.cctFrameEq, K.cctFrameEs, K.cctTariff, K.cctFlags, K.cctReg, K.cctWrap]
  refine ⟨?_, ?_, ?_, ?_, ?_, ?_⟩ <;> intro d i hd hi <;> omega

namespace SameRegs

theorem refl (s : State) : SameRegs s s := fun _ _ _ _ => rfl

theorem trans (h : SameRegs s t) (k : SameRegs t u) : SameRegs s u := fun d i hd hi => (k d i hd hi).trans (h d i hd hi)

theorem of_dict (h : t.dict = s.dict) : SameRegs s t := fun d i _ _ => by
  unfold regTot State.live
  rw [get_of_dict h, get_of_dict h, get_of_dict h]

theorem of_only {m : Nat} (h : Only m s t) (e : m.testBit 2 = false) : SameRegs s t := of_dict (h.dict e)

theorem ite {p : Prop} [Decidable p] (ht : p → SameRegs s t) (hu : ¬p → SameRegs s u) : SameRegs s (if p then t else u) := by
  split
  · exact ht ‹_›
  · exact hu ‹_›

theorem putDue {f k v : Nat} (hk : Unmetered k) (h : SameRegs s t) : SameRegs s (t.putDue f k v) := fun d i hd hi => by
  rw [← h d i hd hi]
  obtain ⟨reg, wrap⟩ := hk d i hd hi
  unfold regTot
  rw [live_putDue_ne wrap, live_putDue_ne reg, get_putDue_frac (by dsimp only [K.cctReg]; omega)]

/-- Objects of the dictionary stand apart from live values and fractions. -/
theorem put {k v : Nat} (hk : k < 0x1000000) (h : SameRegs s t) : SameRegs s (t.put k v) := fun d i hd hi => by
  rw [← h d i hd hi]
  unfold regTot
  rw [live_put_ne (by unfold liveKey; omega), live_put_ne (by unfold liveKey; omega), get_put_ne (by unfold fracKey; omega)]

end SameRegs

/-! ### A result is accrued -/

/-- What the gate and creep leave of a result. -/
def frameVals (f : Nat) (r : CRes) (s : State) : List EVal :=
  if gateOpen s f r.c (getC s r.c).since then (unitsOf s f r).map (unitVal (s.cfg f (K.cctEnergyK r.c)) (s.cfg f (K.cctCreep r.c)))
  else (unitsOf s f r).map (fun _ => ⟨0, 0, 0, false, false⟩)

/-- The entries of a result. -/
def frameEnts (f : Nat) (r : CRes) (s : State) : List Ent :=
  ((frameVals f r s).map (fun v => unitEnts (s.cfg f (K.cctMode r.c)) v.ep v.eq v.es)).flatten

theorem unitEnts_kind {mode : Nat} {ep eq es : Int} {e : Ent} (h : e ∈ unitEnts mode ep eq es) : e.kind < 8 := by
  have quad : ∀ a b, quadrant a b < 8 := fun a b => by
    unfold quadrant
    split <;> split <;> decide
  have := quad ep eq
  have := quad 0 eq
  unfold unitEnts at h
  dsimp only at h
  repeat' split at h
  all_goals
    simp only [List.mem_cons, List.not_mem_nil, or_false] at h
    rcases h with rfl | rfl | rfl <;> simp only <;> omega

theorem frameEnts_kind {r : CRes} {e : Ent} (h : e ∈ frameEnts f r s) : e.kind < 8 := by
  unfold frameEnts at h
  rw [List.mem_flatten] at h
  obtain ⟨l, hl, he⟩ := h
  obtain ⟨v, -, rfl⟩ := List.mem_map.mp hl
  exact unitEnts_kind he

theorem enterAll_work {es : List Ent} : SameWork s (enterAll f c es s) := by
  refine .foldl (fun u e => ?_) (.refl s)
  unfold enterKind
  exact .ite (fun _ => .refl u) (fun _ => SameWork.setC
    (.of_only (regAdd_only (.refl 68) (regAdd_only (.refl 68) (.refl _ _))) rfl rfl))

theorem demandAdd_work {a b : Int} {absorbed : Bool} : SameWork s (demandAdd c a b absorbed s) := by
  unfold demandAdd
  dsimp only
  split
  · exact .ite (fun _ => .refl s) (fun _ => .setC (.refl s))
  · exact .refl s

theorem directionStep_work {neg : Bool} : SameWork s (directionStep f c neg s) :=
  .ite (fun _ => .refl s) (fun _ => .ite (fun _ => .ite (fun _ => .refl s) (fun _ => .setC (.refl s))) (fun _ => .setC (.refl s)))

theorem absorbDo_work {ep eq es : Int} : SameWork s (absorbDo f c ep eq es s).2 := by
  unfold absorbDo
  extract_lets chs d u a x ents first s₁ s₂ inside s₃ s₄ est s₅
  have marked : Only 4 s s₁ := .foldl (fun _ _ h => State_put_only (.refl 4) (State_put_only (.refl 4) h)) (.refl _ _)
  have entered : SameWork s s₂ := (SameWork.of_only marked rfl rfl).trans enterAll_work
  have told : SameWork s s₃ := .ite (fun _ => entered.trans demandAdd_work) (fun _ => entered)
  have flagged : SameWork s s₄ := .ite (fun _ => told) (fun _ => told.setFlag)
  exact .ite (fun _ => flagged.setFlag) (fun _ => flagged)

theorem balanceNote_fields {st : Nat} {ep : Int} {r : R3} :
    (balanceNote f c st ep r s).fn = r.fn ∧ (balanceNote f c st ep r s).ccts = r.ccts ∧ (balanceNote f c st ep r s).done = r.done := by
  unfold balanceNote
  split <;> exact ⟨rfl, rfl, rfl⟩

/-- A result that is accrued leaves the frames that wait; but in frame G, its entries are all that reaches a register. -/
theorem accrueCct_effects {fr : R3} {r : CRes} {x : R3} (e : accrueCct fr r s = (x, t)) :
    x.fn = fr.fn ∧ x.ccts = fr.ccts ∧ x.done = fr.done ∧ SameWork s t ∧
    (s.bill.g ≠ some fr.fn → r.c < 256 → SameRegs (enterAll fr.fn r.c (frameEnts fr.fn r s) s) t) := by
  unfold accrueCct at e
  extract_lets f c x₀ k mode ep eq us es gate vs ents accrues ovr s₁ s₂ s₃ at e
  have entered : SameWork s s₁ := enterAll_work
  have told : SameWork s s₂ := entered.trans demandAdd_work
  have turned : SameWork s s₃ := .ite (fun _ => told.trans directionStep_work) (fun _ => told)
  have regs : SameRegs s₁ s₃ := by
    have told : SameRegs s₁ s₂ := .of_only (demandAdd_only (.refl 8192) (.refl _ _)) rfl
    exact .ite (fun _ => told.trans (.of_only (directionStep_only (.refl 8192) (.refl _ _)) rfl)) (fun _ => told)
  split at e
  next abs s₄ absorbed =>
    extract_lets absd st₁ st₂ s₅ s₆ s₇ s₈ scale s₉ s₁₀ y s₁₁ bill s₁₂ at e
    have kept : SameWork s s₄ ∧ (s.bill.g ≠ some f → s₄ = s₃) := by
      split at absorbed
      next inG =>
        obtain rfl : _ = s₄ := congrArg Prod.snd absorbed
        exact ⟨turned.trans absorbDo_work, fun out => absurd (turned.g.symm.trans inG) out⟩
      next => exact ⟨(Prod.mk.inj absorbed).2 ▸ turned, fun _ => (Prod.mk.inj absorbed).2.symm⟩
    obtain ⟨work, out⟩ := kept
    have work₅ : SameWork s s₅ := .ite (fun _ => work.setFlag) (fun _ => work)
    have work₆ : SameWork s s₆ := .ite (fun _ => work₅) (fun _ => work₅.setFlag)
    have flagged : SameWork s s₇ := .ite (fun _ => work₆.setFlag) (fun _ => work₆)
    have bumped : SameWork s s₈ := .ite (fun _ => flagged.trans (.of_only (State_bump_only (.refl 4) (.refl _ _)) rfl rfl)) (fun _ => flagged)
    have shown : SameWork s s₁₁ := bumped.putDue.putDue.putDue.putDue.putDue.setC
    have metered : s.bill.g ≠ some f → r.c < 256 → SameRegs s₁ s₁₁ := fun notG hc => by
      obtain ⟨status, frameEp, frameEq, frameEs, tariff, flags⟩ := unmetered_frame hc
      have regs₄ : SameRegs s₁ s₄ := out notG ▸ regs
      have regs₅ : SameRegs s₁ s₅ := .ite (fun _ => regs₄.putDue flags) (fun _ => regs₄)
      have regs₆ : SameRegs s₁ s₆ := .ite (fun _ => regs₅) (fun _ => regs₅.putDue flags)
      have regs₇ : SameRegs s₁ s₇ := .ite (fun _ => regs₆.putDue flags) (fun _ => regs₆)
      have regs₈ : SameRegs s₁ s₈ := .ite (fun _ => regs₇.put (by dsimp only [c, K.cctOverPmax]; omega)) (fun _ => regs₇)
      have regs₁₀ : SameRegs s₁ s₁₀ := ((((regs₈.putDue status).putDue frameEp).putDue frameEq).putDue frameEs).putDue tariff
      exact regs₁₀.trans (.of_only (setC_only (.refl 8192) (.refl _ _)) rfl)
    clear_value s₁₁
    obtain ⟨rfl, rfl⟩ := Prod.mk.inj e
    obtain ⟨fn, ccts, done⟩ := balanceNote_fields (s := s₁₂) (f := f) (c := c) (st := st₂) (ep := ep) (r := fr)
    exact ⟨fn, ccts, done, shown.trans ⟨rfl, rfl, rfl⟩, fun notG hc => (metered notG hc).trans (.of_dict rfl)⟩

/-! ### HALLMARK_ACCRUE and BOUNDARY_FRAME -/

/-- The cycles that the core takes for a frame are noted. -/
def cyclesNoted (f n : Nat) (s : State) : State := ({ s with bill := { s.bill with cyc := n } }).putDue f (K.peak 2) n

section
variable {n : Nat}

theorem cyclesNoted_only : Only 8260 s (cyclesNoted f n s) := by
  unfold cyclesNoted
  refine State_putDue_only ((Within.refl 8260).of rfl) ?_
  rw [Only.mk_eq]
  exact Only.u_bill ((Within.refl 8260).of rfl) (.refl _ _)

theorem cyclesNoted_bill : (cyclesNoted f n s).bill = { s.bill with cyc := n } :=
  (State_putDue_only (.refl 68) (.refl _ _)).bill rfl

theorem cyclesNoted_work : SameWork s (cyclesNoted f n s) := .putDue ⟨rfl, rfl, rfl⟩

theorem cyclesNoted_getC : getC (cyclesNoted f n s) c = getC s c := by
  unfold getC
  rw [cyclesNoted_bill]

theorem cyclesNoted_cfg {g k : Nat} (hk : liveKey (K.peak 2) ≠ k) : (cyclesNoted f n s).cfg g k = s.cfg g k :=
  cfg_of_get (get_putDue_ne hk) (cyclesNoted_only.commits rfl)

theorem cyclesNoted_regs : SameRegs s (cyclesNoted f n s) :=
  .putDue (fun d i hd hi => by dsimp only [K.peak, K.cctReg, K.cctWrap]; omega) (.of_dict rfl)

/-- The decision units of a result, and what the gate and creep leave of them, do not hang on the cycles noted. -/
theorem cyclesNoted_vals {g : Nat} {r : CRes} (hc : r.c < 256) : unitsOf (cyclesNoted f n s) g r = unitsOf s g r ∧
    frameVals g r (cyclesNoted f n s) = frameVals g r s ∧ frameEnts g r (cyclesNoted f n s) = frameEnts g r s := by
  have setting : ∀ k, k < 0x2000000 → (cyclesNoted f n s).cfg g k = s.cfg g k := fun k hk =>
    cyclesNoted_cfg (by dsimp only [liveKey, K.peak]; omega)
  have gain : ∀ ch, (cyclesNoted f n s).cfg g (K.chGainLow ch) = s.cfg g (K.chGainLow ch) := fun ch =>
    cyclesNoted_cfg (by dsimp only [liveKey, K.peak, K.chGainLow]; omega)
  have phases : phasesOf (cyclesNoted f n s) g r.c = phasesOf s g r.c := by
    unfold phasesOf
    dsimp only [K.cctKind, K.cctChA, K.cctVA, K.cctVB, K.cctChB, K.cctChC, K.cctVC]
    rw [setting _ (by omega), setting _ (by omega), setting _ (by omega), setting _ (by omega), setting _ (by omega), setting _ (by omega),
      setting _ (by omega)]
  have units : unitsOf (cyclesNoted f n s) g r = unitsOf s g r := by
    unfold unitsOf phaseFs
    dsimp only [K.cctApparent, K.cctSignRule]
    rw [phases, setting (0x30000B + 256 * r.c) (by omega), setting (0x30000A + 256 * r.c) (by omega)]
    simp only [gain]
  have tan : (cyclesNoted f n s).tan = s.tan := cyclesNoted_only.tan rfl
  have gate : gateOpen (cyclesNoted f n s) g r.c (getC s r.c).since = gateOpen s g r.c (getC s r.c).since := by
    unfold gateOpen gateRms
    dsimp only [K.cctStartup]
    rw [phases, tan, setting (0x30000E + 256 * r.c) (by omega)]
    simp only [gain]
  have vals : frameVals g r (cyclesNoted f n s) = frameVals g r s := by
    unfold frameVals
    dsimp only [K.cctEnergyK, K.cctCreep]
    rw [cyclesNoted_getC, gate, units, setting (0x30000D + 256 * r.c) (by omega), setting (0x30000F + 256 * r.c) (by omega)]
  refine ⟨units, vals, ?_⟩
  unfold frameEnts
  dsimp only [K.cctMode]
  rw [vals, setting (0x300009 + 256 * r.c) (by omega)]

end

section
variable {cyc : Nat} {fr : R3} {later : List R3} (run : s.mode = .run) (free : s.rollq = []) (queue : workQueue s = fr :: later)

theorem coreFree_of (run : s.mode = .run) (free : s.rollq = []) : coreFree s = true := by
  simp [coreFree, coreRuns, run, free]

include run free queue

theorem hallmarkAccrue_step : exec (.hallmarkAccrue cyc) s =
    .next (accrueFrom fr later (cyclesNoted fr.fn (min (2 ^ 32 - 1) (s.bill.cyc + cyc)) s)) := by
  show execHallmarkAccrue cyc s = _
  unfold execHallmarkAccrue
  rw [coreFree_of run free, queue]
  rfl

theorem boundaryFrame_step : exec .boundaryFrame s = .next (match s.bill.g with
    | some g => if g ≤ fr.fn then beginFrame fr.fn s else s
    | none => s) := by
  show execBoundaryFrame s = _
  unfold execBoundaryFrame
  rw [coreFree_of run free, queue]
  cases s.bill.g <;> rfl

end

/-- A frame before frame G is published without accrual. -/
theorem passFrame_effects {fr : R3} {later : List R3} (queue : workQueue s = fr :: later) (gap : s.pwr.gap = none) :
    ∃ p, (passFrame fr s).staging = s.staging ++ [p] ∧ p.fn = fr.fn ∧ p.late = false ∧ workQueue (passFrame fr s) = later ∧
      (passFrame fr s).bill.cct = s.bill.cct := by
  unfold passFrame
  extract_lets s₁ has pulse s₂
  have status : Only 68 s s₁ := .foldl (fun _ _ h => State_putDue_only (.refl 68) h) (.refl _ _)
  have whole : fillGap fr s₂ = s₂ := by
    unfold fillGap
    rw [show s₂.pwr.gap = none from (congrArg Pwr.gap (status.pwr rfl)).trans gap]
  rw [whole]
  have marked : SameWork s s₂ := (SameWork.of_only status rfl rfl).trans ⟨rfl, rfl, rfl⟩
  have still : s₂.bill = s.bill := status.bill rfl
  have staging : s₂.staging = s.staging := status.staging rfl
  clear_value s₂
  obtain ⟨-, p, staged, fn, late⟩ := stageFrame_staged (s := s₂) (f := fr.fn) (lost := fr.lost)
  have bill := (stageFrame_only (a0 := fr.fn) (a1 := fr.lost) (.refl _) (.refl _ s₂)).bill rfl
  refine ⟨p, ?_, fn, late, dropFirst_queue ((marked.trans stageFrame_work).queue.trans queue), ?_⟩
  · rw [(dropFirst_only (.refl _) (.refl _ _)).staging rfl, staged, staging]
  · rw [dropFirst_bill.2.2, bill, still]

section
variable {fr : R3} {r : CRes} {later : List R3}

/-- From frame G on a result that is there is accrued. -/
theorem accrueFrom_result {g : Nat} (hg : s.bill.g = some g) (h : g ≤ fr.fn) (begun : s.bill.begun = true) (result : fr.ccts[fr.done]? = some r)
    (good : r.missing = false) : accrueFrom fr later s = accrueResult fr r s := by
  unfold accrueFrom
  rw [hg]
  dsimp only
  rw [if_neg (by omega), show beginFrame fr.fn s = s from if_pos begun]
  unfold accrueNext
  rw [result]
  dsimp only
  rw [show resolved s fr r later = some r from if_neg (by simp [good])]

/-- A result that is not the last of its frame stays in that frame, one further. -/
theorem accrueResult_more (queue : workQueue s = fr :: later) (more : fr.done + 1 < fr.ccts.length) :
    (∃ x, workQueue (accrueResult fr r s) = x :: later ∧ x.fn = fr.fn ∧ x.ccts = fr.ccts ∧ x.done = fr.done + 1) ∧
    (accrueResult fr r s).staging = s.staging ∧
    (s.bill.g ≠ some fr.fn → r.c < 256 → SameRegs (enterAll fr.fn r.c (frameEnts fr.fn r s) s) (accrueResult fr r s)) := by
  unfold accrueResult
  split
  next x u e =>
    obtain ⟨fn, ccts, done, work, regs⟩ := accrueCct_effects e
    have kept : Only 8260 s u := accrueCct_only' e (.refl 8260) (.refl _ _)
    extract_lets y
    rw [if_neg (show ¬y.ccts.length ≤ y.done by show ¬x.ccts.length ≤ x.done + 1; rw [ccts, done]; omega)]
    have first : Only 10240 u (setFirst y u) := setFirst_only (.refl _) (.refl _ _)
    exact ⟨⟨y, setFirst_queue (work.queue.trans queue), fn, ccts, congrArg (· + 1) done⟩, (first.staging rfl).trans (kept.staging rfl),
      fun notG hc => (regs notG hc).trans (.of_only first rfl)⟩

/-- The last result of a frame completes it. -/
theorem accrueResult_last (queue : workQueue s = fr :: later) (last : fr.ccts.length ≤ fr.done + 1) :
    workQueue (accrueResult fr r s) = later ∧ (accrueResult fr r s).bill.next = fr.fn + 1 ∧ (accrueResult fr r s).bill.begun = false ∧
    ∃ p, (accrueResult fr r s).staging = s.staging ++ [p] ∧ p.fn = fr.fn := by
  unfold accrueResult
  split
  next x u e =>
    obtain ⟨fn, ccts, done, work, -⟩ := accrueCct_effects e
    have kept : Only 8260 s u := accrueCct_only' e (.refl 8260) (.refl _ _)
    extract_lets y
    rw [if_pos (show y.ccts.length ≤ y.done by show x.ccts.length ≤ x.done + 1; rw [ccts, done]; exact last)]
    have first : Only 10240 u (setFirst y u) := setFirst_only (.refl _) (.refl _ _)
    obtain ⟨gone, next, begun, p, staged, pfn⟩ := finishFrame_effects (u := y) (setFirst_queue (r := y) (work.queue.trans queue))
    refine ⟨gone, next.trans (congrArg (· + 1) fn), begun, p, ?_, pfn.trans fn⟩
    rw [staged, first.staging rfl, kept.staging rfl]

/-- The registers of the tariff in effect and of TOTAL take the entries of their kind, modulo 2^104. -/
theorem regTot_frameEnts (hc : r.c < 256) (ht : (getC s r.c).tariff.getD 0 < 8) (below : ∀ i, i < 72 → regTot s r.c i < 2 ^ 104) {k i : Nat} (hk : k < 8)
    (hi : i = 64 + k ∨ i = 8 * (getC s r.c).tariff.getD 0 + k) : (regTot (enterAll f r.c (frameEnts f r s) s) r.c i : Int) =
      ((regTot s r.c i : Int) + kindAdds k (frameEnts f r s)) % 2 ^ 104 := by
  have kinds : ∀ e ∈ frameEnts f r s, e.kind < 8 := fun e h => frameEnts_kind h
  have i72 : i < 72 := by omega
  have bounded := regTot_enterAll_lt (f := f) hc kinds ht i72 (below i i72)
  have sum := regTot_enterAll (f := f) hc kinds ht i72
  have adds : sumI ((frameEnts f r s).map (entAdds ((getC s r.c).tariff.getD 0) i)) = kindAdds k (frameEnts f r s) := by
    obtain ⟨total, sets⟩ := sumI_entAdds (i := (getC s r.c).tariff.getD 0) ht kinds hk
    rcases hi with rfl | rfl
    · exact total
    · exact (sets ht).trans (if_pos rfl)
  rw [adds] at sum
  rw [← sum, Int.emod_eq_of_lt (Int.natCast_nonneg _) (by exact_mod_cast bounded)]

end

/-- Settles O52: a frame before G only leaves for the publisher; from G on `accrueCct_effects` says what an accrued result moves, and
`startFrame_marked` what the boundary steps do. -/
theorem framesAreAccrued : Obligations.FramesAreAccrued := by
  unfold Obligations.FramesAreAccrued
  refine ⟨fun cyc s waits => ?_, fun cyc fr later s run free queue => ⟨fun early gap => ?_, fun g r hg le begun result good => ⟨fun more => ?_, fun last => ?_⟩,
    fun g r hg lt begun result good hc more tariff below vs es hvs hes => ?_, fun g hg le begun => ?_, fun g hg late => ?_⟩⟩
  · have busy : coreFree s = false := by simp [coreFree, waits]
    constructor
    · show execHallmarkAccrue cyc s = _
      unfold execHallmarkAccrue
      rw [busy]
    · show execBoundaryFrame s = _
      unfold execBoundaryFrame
      rw [busy]
  · have step := hallmarkAccrue_step (cyc := cyc) run free queue
    generalize min (2 ^ 32 - 1) (s.bill.cyc + cyc) = n at step
    have noted : Only 8260 s (cyclesNoted fr.fn n s) := cyclesNoted_only
    have pass : accrueFrom fr later (cyclesNoted fr.fn n s) = passFrame fr (cyclesNoted fr.fn n s) := by
      unfold accrueFrom
      rw [cyclesNoted_work.g]
      rcases early with none | ⟨g, some, lt⟩
      · rw [none]
      · rw [some]
        exact if_pos lt
    rw [pass] at step
    obtain ⟨p, staged, fn, late, gone, cct⟩ := passFrame_effects (cyclesNoted_work.queue.trans queue) ((congrArg Pwr.gap (noted.pwr rfl)).trans gap)
    rw [noted.staging rfl] at staged
    rw [cyclesNoted_bill] at cct
    exact ⟨_, p, step, exec_frame step, staged, fn, late, gone, cct⟩
  · have step := hallmarkAccrue_step (cyc := cyc) run free queue
    generalize min (2 ^ 32 - 1) (s.bill.cyc + cyc) = n at step
    rw [accrueFrom_result (cyclesNoted_work.g.trans hg) le (by rw [cyclesNoted_bill]; exact begun) result good] at step
    obtain ⟨⟨x, waits, fn, ccts, done⟩, staging, -⟩ := accrueResult_more (r := r) (s := cyclesNoted fr.fn n s) (cyclesNoted_work.queue.trans queue) more
    exact ⟨_, x, step, exec_frame step, waits, fn, ccts, done, staging.trans (cyclesNoted_only.staging rfl)⟩
  · have step := hallmarkAccrue_step (cyc := cyc) run free queue
    generalize min (2 ^ 32 - 1) (s.bill.cyc + cyc) = n at step
    rw [accrueFrom_result (cyclesNoted_work.g.trans hg) le (by rw [cyclesNoted_bill]; exact begun) result good] at step
    obtain ⟨gone, next, ended, p, staged, fn⟩ := accrueResult_last (r := r) (s := cyclesNoted fr.fn n s) (cyclesNoted_work.queue.trans queue) last
    rw [cyclesNoted_only.staging rfl] at staged
    exact ⟨_, p, step, exec_frame step, gone, next, ended, staged, fn⟩
  · have step := hallmarkAccrue_step (cyc := cyc) run free queue
    generalize min (2 ^ 32 - 1) (s.bill.cyc + cyc) = n at step
    rw [accrueFrom_result (cyclesNoted_work.g.trans hg) (by omega) (by rw [cyclesNoted_bill]; exact begun) result good] at step
    obtain ⟨-, -, regs⟩ := accrueResult_more (r := r) (s := cyclesNoted fr.fn n s) (cyclesNoted_work.queue.trans queue) more
    have notG : (cyclesNoted fr.fn n s).bill.g ≠ some fr.fn := by
      rw [cyclesNoted_work.g, hg]
      exact fun e => absurd (Option.some.inj e) (by omega)
    have ents : es = frameEnts fr.fn r (cyclesNoted fr.fn n s) := by
      rw [(cyclesNoted_vals hc).2.2, hes, hvs]
      rfl
    have counted : ∀ d i, d < 256 → i < 72 → regTot (cyclesNoted fr.fn n s) d i = regTot s d i := cyclesNoted_regs
    have tariff' : (getC (cyclesNoted fr.fn n s) r.c).tariff.getD 0 < 8 := by rwa [cyclesNoted_getC]
    refine ⟨_, step, exec_frame step, fun k hk i hi => ?_, fun d i hd other hi => ?_⟩
    · have i72 : i < 72 := by omega
      rw [regs notG hc _ _ hc i72, regTot_frameEnts hc tariff' (fun i hi => by rw [counted _ _ hc hi]; exact below i hi) hk
        (by rw [cyclesNoted_getC]; exact hi), counted _ _ hc i72, ents]
      rfl
    · rw [regs notG hc _ _ hd hi, regTot_enterAll_other hc (fun e h => frameEnts_kind h) tariff' hd other hi, counted _ _ hd hi]
  · have step := boundaryFrame_step run free queue
    rw [hg] at step
    dsimp only at step
    rw [if_pos le, show beginFrame fr.fn s = startFrame fr.fn false { s with bill := { s.bill with next := fr.fn } } from if_neg (by simp [begun])] at step
    refine ⟨_, step, exec_frame step, ?_, startFrame_next, fun sc hsc marked free' quiet steps room => ?_⟩
    · rfl
    · have m : Marked fr.fn sc { s with bill := { s.bill with next := fr.fn } } := ⟨marked, free', room⟩
      obtain ⟨closed, boundary, done⟩ := startFrame_marked hsc m quiet steps
      exact ⟨closed.record, closed.number, closed.unmarked, boundary, done⟩
  · have step := boundaryFrame_step run free queue
    rw [hg] at step
    refine step.trans (congrArg _ ?_)
    rcases late with lt | begun
    · exact if_neg (by omega)
    · dsimp only
      rw [show beginFrame fr.fn s = s from if_pos begun, ite_self]

end Sys2Proof.Machine
end

section
/-! PROOF. Events of metering (R94 to R98, R118, R132, R184, R196 to R198). -/

namespace Sys2Proof.Machine

variable {s t : State} {f c : Nat}

/-! ### Direction (R118) -/

theorem turnDirection_live {d : Nat} : (turnDirection f c d s).live (K.cctDirection c) = d :=
  (live_putDue_ne (by simp only [K.cctStatus, K.cctDirection]; omega)).trans live_putDue_self

theorem turnDirection_get {d k : Nat} (hk : k < 0x1000000) : (turnDirection f c d s).get k = s.get k :=
  (get_putDue_ne (by unfold liveKey; omega)).trans (get_putDue_ne (by unfold liveKey; omega))

/-- DIRECTION flips with the last of the frames of the opposite sign, and REVERSALS counts it. -/
theorem directionChange_flips {c : Fin 256} (h : 1024 ≤ (getC s c.val).dirCnt) : ∃ t, exec (.directionChange c) s = .next t ∧
    t.live (K.cctDirection c.val) = 1 - s.live (K.cctDirection c.val) % 2 ∧ (getC t c.val).dirCnt = 0 ∧
    t.get (K.cctReversals c.val) = (s.get (K.cctReversals c.val) + 1) % 2 ^ oBits (K.cctReversals c.val) := by
  have small : K.cctReversals c.val < 0x1000000 := by dsimp only [K.cctReversals]; omega
  have apart : ∀ k, 0x1000000 ≤ k → K.cctReversals c.val ≠ k := fun k hk => by omega
  have stall : K.stalls 5 ≠ K.cctReversals c.val := by dsimp only [K.stalls, K.cctReversals]; omega
  have lost : K.eventsLost ≠ K.cctReversals c.val := by dsimp only [K.eventsLost, K.cctReversals]; omega
  generalize turned : turnDirection (getC s c.val).dirFn c.val (1 - s.live (K.cctDirection c.val) % 2)
    (setC c.val { getC s c.val with dirCnt := 0 } s) = u
  refine ⟨(u.bump (K.cctReversals c.val)).eventAt (getC s c.val).dirFirst (openCode 118) [c.val, 1 - s.live (K.cctDirection c.val) % 2,
    (getC s c.val).dirFirst, (u.bump (K.cctReversals c.val)).timeOf (getC s c.val).dirFirst], ?_, ?_, ?_, ?_⟩
  · show execDirectionChange c s = _
    unfold execDirectionChange
    rw [← turned]
    exact congrArg _ (if_pos h)
  · refine (get_eventAt (by dsimp only [K.stalls, liveKey, K.cctDirection]; omega) (by dsimp only [K.eventsLost, liveKey, K.cctDirection]; omega)).trans ?_
    rw [get_bump_ne (apart _ (by unfold liveKey; omega)), ← turned]
    exact turnDirection_live
  · rw [getC_of_bill ((State_eventAt_only (.refl _) (.refl _ _)).bill rfl), getC_of_bill (t := u.bump (K.cctReversals c.val)) (s := u) rfl, ← turned,
      getC_of_bill ((turnDirection_only (.refl _) (.refl _ _)).bill rfl)]
    exact congrArg BCct.dirCnt tget_tset_self
  · rw [get_eventAt stall lost, get_bump_self, ← turned, turnDirection_get small]
    rfl

/-! ### Cabinet balance (R132) -/

section
variable {rate : Int} {th : Nat}

theorem balanceAlarm_rate : (balanceAlarm f rate th s).live K.balRate = s.live K.balRate := by
  have state : ∀ {u : State} {v : Nat}, (u.putDue f K.balState v).live K.balRate = u.live K.balRate := live_putDue_ne (by decide)
  have raised : ∀ {v code : Nat} {l : List Nat}, (((s.putDue f K.balState v).bump K.balEvents).eventAt f code l).live K.balRate = s.live K.balRate :=
    (get_eventAt (by decide) (by decide)).trans ((get_bump_ne (by decide)).trans state)
  unfold balanceAlarm
  extract_lets st st'
  split
  · exact raised
  · split
    · exact raised
    · exact state

/-- The state of the alarm after a RATE. -/
theorem balanceAlarm_state : (balanceAlarm f rate th s).live K.balState =
    (if (th : Int) < rate then 2 else if rate < -(th : Int) then 3
    else if (s.live K.balState = 2 ∨ s.live K.balState = 3) ∧ 5 * mag rate ≤ 4 * (th : Int) then 1 else s.live K.balState) := by
  have raised : ∀ {v code : Nat} {l : List Nat}, (((s.putDue f K.balState v).bump K.balEvents).eventAt f code l).live K.balState = v :=
    (get_eventAt (by decide) (by decide)).trans ((get_bump_ne (by decide)).trans live_putDue_self)
  unfold balanceAlarm
  extract_lets st st'
  by_cases h2 : (th : Int) < rate
  · rw [if_pos h2]
    by_cases h : st' = 2
    · rw [if_neg (fun e => e.2 h), if_neg (by omega), live_putDue_self, h]
    · rw [if_pos ⟨h2, h⟩, raised]
  · rw [if_neg (fun e => h2 e.1), if_neg h2]
    by_cases h3 : rate < -(th : Int)
    · rw [if_pos h3]
      by_cases h : st' = 3
      · rw [if_neg (fun e => e.2 h), live_putDue_self, h]
      · rw [if_pos ⟨h3, h⟩, raised]
    · rw [if_neg (fun e => h3 e.1), if_neg h3, live_putDue_self]

theorem balanceAlarm_bill : (balanceAlarm f rate th s).bill = s.bill := (balanceAlarm_only (.refl _) (.refl _ _)).bill rfl

end

/-- A due rate is taken over 900 s. -/
theorem balanceRate_due {a b : Int} (due : s.bill.rateDue = true) (ha : s.bill.unacc.head? = some a) (hb : s.bill.unacc[900]? = some b)
    (on : s.live K.balState ≠ 0) {rate : Int} (hr : rate = clampI (-(2 ^ 31)) (2 ^ 31 - 1) (odiv ((a - b) * 4) (1000 * 2 ^ 40))) :
    exec .balanceRate s = .next (showFrom (s.bill.next - 1) [K.balRate, K.balState] (balanceAlarm (s.bill.next - 1) rate
      (s.cfg (s.bill.next - 1) K.balThreshold) (({ s with bill := { s.bill with rateDue := false } }).putDueI (s.bill.next - 1) K.balRate rate))) := by
  subst hr
  show execBalanceRate s = _
  unfold execBalanceRate
  rw [if_pos due]
  dsimp only
  rw [ha, hb]
  exact congrArg _ (if_neg on)

/-! ### Stale state (R196, R197) -/

theorem get_raiseStale {b j : Nat} (h : j ∉ [K.cause, K.staleFn, K.stalls 5, K.eventsLost]) : (raiseStale b s).get j = s.get j := by
  simp only [List.mem_cons, List.not_mem_nil, or_false, not_or] at h
  obtain ⟨cause, since, stall, lost⟩ := h
  unfold raiseStale
  dsimp only
  split
  · rfl
  · rw [get_event (Ne.symm stall) (Ne.symm lost)]
    have put : ((s.put K.cause (setBit (s.get K.cause) b)).put K.staleFn s.fn).get j = s.get j :=
      (get_put_ne (Ne.symm since)).trans (get_put_ne (Ne.symm cause))
    split <;> exact put

theorem raiseStale_wired {b : Nat} : (raiseStale b s).bill.wired = s.bill.wired := by
  unfold raiseStale
  dsimp only
  split
  · rfl
  · rw [State.event, (State_eventAt_only (.refl _) (.refl _ _)).bill rfl]
    split <;> rfl

theorem wiringMade_get {now : Bytes} {k : Nat} (h : K.wiringNow ≠ k) : (wiringMade now s).get k = s.get k := get_putV_ne h

theorem wiringMade_bill {now : Bytes} : (wiringMade now s).bill = { s.bill with wired := true } := (State_putV_only (.refl _) (.refl _ _)).bill rfl

/-- The wiring check of a start. -/
theorem wiringCheck_step : exec .wiringCheck s = .next (if coreRuns s && !s.bill.wired && wiringDue s then
    (if s.bill.wireRef then wiringTaken (wiringBytes s) (wiringMade (wiringBytes s) s)
    else if hasWiringRef (le 16 (s.get K.wiringRef)) && (bandDiffers (le 16 (s.get K.wiringRef)) (wiringBytes s) ||
      anglesDiffer s (le 16 (s.get K.wiringRef)) (wiringBytes s)) then raiseStale 1 (wiringMade (wiringBytes s) s)
    else wiringMade (wiringBytes s) s) else s) := rfl

theorem staleEnter_step {a : Nat} (at_ : s.bill.staleAt = some a) (still : s.bill.staleTo = none) : exec .staleEnter s =
    .next (if coreRuns s ∧ a ≤ s.fn ∧ s.live K.stale = 0 then (setCause 9 (clearRoutes s)).putLive K.stale 1 else s) := by
  show execStaleEnter s = _
  unfold execStaleEnter
  rw [at_, still]

/-! ### Calibration state (R94, R97, R98) -/

/-- The machine as calibration state is entered. -/
def calEntered (s : State) : State :=
  ((setCause 8 (s.putLive K.calState 1)).bump K.calEntries).event (openCode 94) [1]

/-- REPAIRED is noted once. -/
def repairNoted (s : State) : State :=
  if s.get K.repaired = 0 then ((s.put K.repaired 1).put K.repairedTime s.time).put K.repairedFn s.fn else s

theorem calStateChange_enters (run : 16 ≤ s.dev.calRun) (ne : s.live K.calEnLevel ≠ s.live K.calState) (on : s.live K.calEnLevel = 1) :
    exec .calStateChange s = .next (raiseStale 2 (repairNoted (calEntered s))) := by
  show execCalStateChange s = _
  unfold execCalStateChange
  rw [if_pos ⟨run, ne⟩]
  dsimp only
  rw [if_pos (decide_eq_true on), decide_eq_true on]
  rfl

theorem calStateChange_leaves (run : 16 ≤ s.dev.calRun) (ne : s.live K.calEnLevel ≠ s.live K.calState) (off : s.live K.calEnLevel ≠ 1) :
    exec .calStateChange s = .next ((releaseHold (setCause 8 (s.putLive K.calState 0))).event (openCode 94) [0]) := by
  show execCalStateChange s = _
  unfold execCalStateChange
  rw [if_pos ⟨run, ne⟩]
  dsimp only
  rw [if_neg (by simp [off]), decide_eq_false off]
  rfl

theorem repairNoted_get {k : Nat} (h : k ∉ [K.repaired, K.repairedTime, K.repairedFn]) : (repairNoted s).get k = s.get k := by
  simp only [List.mem_cons, List.not_mem_nil, or_false, not_or] at h
  obtain ⟨noted, time, fn⟩ := h
  unfold repairNoted
  split
  · rw [get_put_ne (Ne.symm fn), get_put_ne (Ne.symm time), get_put_ne (Ne.symm noted)]
  · rfl

theorem repairNoted_repaired : (repairNoted s).get K.repaired ≠ 0 := by
  unfold repairNoted
  split
  · rw [get_put_ne (by decide), get_put_ne (by decide), get_put_self]
    decide
  next noted => exact noted

/-- BG_HOLD goes with calibration state, but for a COMMIT of it whose B is to come. -/
theorem releaseHold_get : ((∀ c ∈ s.commits, s.fn < c.b → ∀ g ∈ c.chg, g.key ≠ K.bgHold) → (releaseHold s).get K.bgHold = 0) ∧
    ((∃ c ∈ s.commits, s.fn < c.b ∧ ∃ g ∈ c.chg, g.key = K.bgHold) → (releaseHold s).get K.bgHold = s.get K.bgHold) := by
  constructor
  · intro none
    refine (congrArg (State.get · K.bgHold) (if_neg ?_)).trans get_putV_self
    rw [List.any_eq_true]
    rintro ⟨c, hc, holds⟩
    simp only [Bool.and_eq_true, decide_eq_true_eq, List.any_eq_true] at holds
    obtain ⟨after, g, hg, key⟩ := holds
    exact none c hc after g hg key
  · rintro ⟨c, hc, after, g, hg, key⟩
    refine (congrArg (State.get · K.bgHold) (if_pos ?_)).trans rfl
    exact List.any_eq_true.mpr ⟨c, hc, by simpa using ⟨after, g, hg, key⟩⟩

theorem releaseHold_ne {k : Nat} (h : K.bgHold ≠ k) : (releaseHold s).get k = s.get k := by
  unfold releaseHold
  split
  · rfl
  · exact get_putV_ne h

/-- The cause of a change of calibration state stands. -/
theorem calEntered_spi : (raiseStale 2 (repairNoted (calEntered s))).spi = (setCause 8 (s.putLive K.calState 1)).spi := by
  have noted : (repairNoted (calEntered s)).spi = (calEntered s).spi := by
    unfold repairNoted
    split <;> rfl
  exact ((raiseStale_only (.refl _) (.refl _ _)).spi rfl).trans (noted.trans ((State_eventAt_only (.refl _) (.refl _ _)).spi rfl))

theorem calLeft_spi {code : Nat} {l : List Nat} : ((releaseHold (setCause 8 (s.putLive K.calState 0))).event code l).spi =
    (setCause 8 (s.putLive K.calState 0)).spi :=
  ((State_eventAt_only (.refl _) (.refl _ _)).spi rfl).trans ((releaseHold_only (.refl _) (.refl _ _)).spi rfl)

theorem calPut_commits {v : Nat} : (setCause 8 (s.putLive K.calState v)).commits = s.commits := (State_putLive_only (.refl _) (.refl _ _)).commits rfl

theorem calPut_fn {v : Nat} : (setCause 8 (s.putLive K.calState v)).fn = s.fn := (State_putLive_only (.refl _) (.refl _ _)).fn rfl

/-! ### CLOSE_NOW (R184) -/

theorem closeNow_calls {i : Fin 48} {q : Tag} {o : Op} (h : Calls s (.closeNow i) i q o) : exec (.closeNow i) s =
    .next (if at_ o.data 0 1 = 0 ∨ 16 ≤ at_ o.data 0 1 then answer i.val 0x32 [] s
      else answer i.val 0 (le 6 (s.fn + 1)) (legalNote 0 (s.fn + 1) (portNo q.port) (roleOf s q) 1 o.key
        { s with bill := { s.bill with closes := s.bill.closes ++ [(at_ o.data 0 1, s.fn + 1)] } })) := by
  show execCloseNow i s = _
  unfold execCloseNow
  rw [runMethods_calls h rfl]
  rfl

theorem legalNote_counts {a b d e g j : Nat} : (legalNote a b d e g j s).get K.txnLegalCommits =
    (s.get K.txnLegalCommits + 1) % 2 ^ oBits K.txnLegalCommits := (get_event (by decide) (by decide)).trans get_bump_self

/-- Settles O53: each command by what it finds and what it puts. -/
theorem meteringEvents : Obligations.MeteringEvents := by
  unfold Obligations.MeteringEvents
  refine ⟨fun c s => ⟨fun h => ?_, fun h => ?_⟩, fun a b s due ha hb on => ?_, fun s run fresh due now ref hnow href => ?_, fun s idle => ?_,
    fun a s at_ still run unstale => ⟨fun le => ?_, fun lt => ?_⟩, fun s run ne => ?_, fun s idle => ?_, fun i q o s m h hm => ?_⟩
  · obtain ⟨t, step, live, cnt, count⟩ := directionChange_flips h
    exact ⟨t, step, exec_frame step, live, cnt, count⟩
  · exact congrArg _ (if_neg (by omega))
  · have step := balanceRate_due due ha hb on rfl
    refine ⟨_, step, exec_frame step, ?_, ?_⟩
    · exact balanceAlarm_bill.trans ((State_putDueI_only (.refl _) (.refl _ _)).bill rfl)
    · rintro rate th rfl rfl
      generalize clampI (-(2 ^ 31)) (2 ^ 31 - 1) (odiv ((a - b) * 4) (1000 * 2 ^ 40)) = rate
      have shown : ∀ {u : State} {f : Nat} {l : List Nat} {k : Nat}, (showFrom f l u).live k = u.live k := rfl
      simp only [shown]
      rw [balanceAlarm_rate, balanceAlarm_state]
      have state : (State.putDueI ({ s with bill := { s.bill with rateDue := false } }) (s.bill.next - 1) K.balRate rate).live K.balState =
          s.live K.balState := live_putDue_ne (by decide)
      rw [state]
      refine ⟨live_putDue_self, fun h => if_pos h, fun h => ?_, fun h => ?_⟩
      · rw [if_neg (by omega), if_pos h]
      · have size : -mag rate ≤ rate ∧ rate ≤ mag rate := by unfold mag; omega
        rw [if_neg (by omega), if_neg (by omega)]
        exact ite_congr (by simp [h]) (fun _ => rfl) (fun _ => rfl)
  · subst hnow href
    have step := wiringCheck_step (s := s)
    rw [if_pos (by simp [coreRuns, run, fresh, due])] at step
    generalize wiringBytes s = now at *
    refine ⟨_, step, exec_frame step, ?_, ?_, fun taken => ?_, fun kept known differs => ?_, fun kept same => ?_⟩
    · split
      · exact congrArg Bill.wired (wiringMade_bill (s := s) (now := now))
      · split
        · rw [raiseStale_wired, wiringMade_bill]
        · rw [wiringMade_bill]
    · split
      · exact (get_put_ne (by decide)).trans get_putV_self
      · split
        · exact (get_raiseStale (by decide)).trans get_putV_self
        · exact get_putV_self
    · rw [if_pos taken]
      exact ⟨get_put_self, rfl, (get_put_ne (by decide)).trans (wiringMade_get (by decide))⟩
    · rw [if_neg (by simp [kept]), if_pos (by rcases differs with d | d <;> simp [known, d])]
      exact ⟨raiseStale_cause, (get_raiseStale (by decide)).trans (wiringMade_get (by decide))⟩
    · rw [if_neg (by simp [kept]), if_neg (by rcases same with d | ⟨d, e⟩ <;> simp [*])]
      exact ⟨wiringMade_get (by decide), by rw [wiringMade_bill]⟩
  · refine wiringCheck_step.trans (congrArg _ (if_neg ?_))
    rcases idle with h | h | h <;> simp [coreRuns, h]
  · have step := staleEnter_step at_ still
    rw [if_pos ⟨by simp [coreRuns, run], le, unstale⟩] at step
    refine ⟨_, step, exec_frame step, live_putLive_self, ?_⟩
    rw [(State_putLive_only (.refl _) (.refl _ _)).spi rfl]
    exact bit_setBit_self _ _
  · exact (staleEnter_step at_ still).trans (congrArg _ (if_neg (by omega)))
  · by_cases on : s.live K.calEnLevel = 1
    · have step := calStateChange_enters run ne on
      refine ⟨_, step, exec_frame step, ?_, fun _ => ⟨?_, ?_, raiseStale_cause, ?_⟩, fun off => absurd on off⟩
      · exact (congrArg (fun p => bit p.causes 8) calEntered_spi).trans (bit_setBit_self _ _)
      · exact (get_raiseStale (by decide)).trans ((repairNoted_get (by decide)).trans ((get_event (by decide) (by decide)).trans
          ((get_bump_ne (by decide)).trans live_putLive_self)))
      · rw [get_raiseStale (by decide)]
        exact repairNoted_repaired
      · refine (get_raiseStale (by decide)).trans ((repairNoted_get (by decide)).trans ((get_event (by decide) (by decide)).trans (get_bump_self.trans ?_)))
        rw [setCause_get, get_putLive_ne (by decide)]
    · have step := calStateChange_leaves run ne on
      refine ⟨_, step, exec_frame step, ?_, fun e => absurd e on, fun _ => ⟨?_, ?_, fun h => ?_, fun h => ?_⟩⟩
      · exact (congrArg (fun p => bit p.causes 8) calLeft_spi).trans (bit_setBit_self _ _)
      · exact (get_event (by decide) (by decide)).trans ((releaseHold_ne (by decide)).trans live_putLive_self)
      · exact (get_event (by decide) (by decide)).trans ((releaseHold_ne (by decide)).trans (get_putLive_ne (by decide)))
      · exact (get_event (by decide) (by decide)).trans (releaseHold_get.1 (fun c hc after => h c (calPut_commits ▸ hc) (calPut_fn ▸ after)))
      · refine (get_event (by decide) (by decide)).trans ((releaseHold_get.2 ?_).trans (get_putLive_ne (by decide)))
        obtain ⟨c, hc, after, holds⟩ := h
        exact ⟨c, calPut_commits.symm ▸ hc, calPut_fn.symm ▸ after, holds⟩
  · exact congrArg _ (if_neg (by omega))
  · subst hm
    have step := closeNow_calls h
    refine ⟨_, step, exec_frame step, fun bad => ?_, fun h0 h16 => ?_⟩
    · rw [if_pos bad]
      exact ⟨h.replied, answer_srv.frame (by decide)⟩
    · rw [if_neg (by omega)]
      refine ⟨h.serves.answers (h.carries.congr ?_), ?_, ?_⟩
      · unfold getTag
        rw [(legalNote_only (.refl _) (.refl _ _)).srv rfl]
      · rw [answer_srv.bill rfl, (legalNote_only (.refl _) (.refl _ _)).bill rfl]
      · rw [answer_get, legalNote_counts]
        rfl

end Sys2Proof.Machine
end

section
/-! PROOF. Consumers of the Hallmark core: forced rolls, profile records, the publisher, returned credit and pulses (R15, R23, R191, R209, R353). -/

namespace Sys2Proof.Machine

variable {s t : State}

/-! ### Forced rolls and profile records -/

/-- Waits whose roll is sealed are ready. -/
theorem forcedRollComplete_waits : ∃ t, exec .forcedRollComplete s = .next t ∧ t.bill = { s.bill with waits := s.bill.waits.map (fun w =>
    if (waitCcts s w).all (rollDone s) then { w with ready := true } else w) } := by
  refine ⟨_, rfl, ?_⟩
  extract_lets ready cs u bill
  have kept : u.bill = s.bill := (Only.foldl (m := 33554500) (fun _ _ h => checkTotals_only (.refl _) h) (.refl _ _)).bill rfl
  have each : ∀ w ∈ s.bill.waits, (if w ∈ ready then { w with ready := true } else w) =
      (if (waitCcts s w).all (rollDone s) then { w with ready := true } else w) := fun w hw => by
    by_cases rolled : (waitCcts s w).all (rollDone s) = true
    · rw [if_pos rolled]
      split
      · rfl
      next out =>
        have already : w.ready = true := by
          exact eq_true_of_ne_false fun fresh => out (List.mem_filter.mpr ⟨hw, by rw [rolled, fresh]; rfl⟩)
        cases w
        cases already
        rfl
    · rw [if_neg rolled, if_neg]
      exact fun h => rolled (Bool.and_eq_true_iff.mp (List.mem_filter.mp h).2).2
  show ({ bill with waits := u.bill.waits.map _ } : Bill) = _
  rw [show bill = s.bill from kept, kept, List.map_congr_left each]

/-- A record that finds no room joins the overflow list at its end. -/
theorem overPost_last {r : Nat × Bytes} : (overPost r s).bill.ring7 = s.bill.ring7 ∧ (overPost r s).bill.over7.getLast? = some r ∧
    (overPost r s).dict = s.dict := by
  unfold overPost
  split
  · exact ⟨rfl, List.getLast?_concat, rfl⟩
  · exact ⟨rfl, List.getLast?_concat, rfl⟩

theorem profileIntervalEnd_due {r : Nat × Bytes} {l : List (Nat × Bytes)} (run : s.mode = .run) (free : s.rollq = []) (due : s.bill.profDue = r :: l) :
    exec .profileIntervalEnd s = .next (profPost r { s with bill := { s.bill with profDue := l } }) := by
  show execProfileIntervalEnd s = _
  unfold execProfileIntervalEnd
  rw [coreFree_of run free, due]

/-- A record finds no room. -/
theorem profPost_full {r : Nat × Bytes} (full : s.bill.over7 ≠ [] ∨ 8 ≤ s.bill.ring7.length) : profPost r s = overPost r (s.bump (K.stalls 7)) :=
  if_neg (fun e => full.elim (fun h => h e.1) (fun h => absurd e.2 (Nat.not_lt.mpr h)))

theorem profPost_due {r : Nat × Bytes} : (profPost r s).bill.profDue = s.bill.profDue := by
  unfold profPost overPost
  split
  · rfl
  · split <;> rfl

/-! ### The publisher (R14, R23) -/

/-- The credits shown stand apart from all else. -/
structure CreditsAside (s t : State) : Prop where
  only : Only 4 s t
  get : ∀ k, 0x180110 ≤ k → t.get k = s.get k

theorem CreditsAside.cfg (h : CreditsAside s t) {f k : Nat} (hk : 0x180110 ≤ k) : t.cfg f k = s.cfg f k :=
  cfg_of_get (h.get k hk) (h.only.commits rfl)

theorem CreditsAside.harmInputs {f : Nat} (h : CreditsAside s t) : harmInputs t f = harmInputs s f := by
  have input : ∀ k, harmAt t f k = harmAt s f k := fun k => by
    unfold harmAt sampledAt
    rw [h.cfg (by split <;> dsimp only [K.chEnable, K.vEnable] <;> omega), h.cfg (by split <;> dsimp only [K.spHarmEn, K.spvHarmEn] <;> omega)]
  unfold Machine.harmInputs
  rw [show harmAt t f = harmAt s f from funext input]

/-- What a ring's free credit hangs on is not the credit shown. -/
theorem CreditsAside.free (h : CreditsAside s t) (r : Nat) : ringCredit t t.fn r - ringUsed t r = ringCredit s s.fn r - ringUsed s r := by
  have used : ringUsed t r = ringUsed s r := by
    unfold ringUsed hallJobs ring1Used ring2Used ring3Used ring4Used
    rw [h.only.srv rfl, h.only.acq rfl, h.only.aln rfl, h.only.tan rfl, h.only.ring5 rfl, h.only.jobs rfl, h.only.bill rfl, h.only.cap rfl, h.only.plc rfl]
  have credit : ringCredit t s.fn r = ringCredit s s.fn r := by
    unfold ringCredit
    split
    · rw [h.only.acq rfl]
    · unfold enabledInputs
      have inputs : ∀ n, t.cfg s.fn (K.chEnable n) = s.cfg s.fn (K.chEnable n) ∧ t.cfg s.fn (K.vEnable n) = s.cfg s.fn (K.vEnable n) := fun n =>
        ⟨h.cfg (by dsimp only [K.chEnable]; omega), h.cfg (by dsimp only [K.vEnable]; omega)⟩
      simp only [inputs]
    · unfold ring2Credit windowEnts
      rw [h.harmInputs, h.only.tan rfl]
    · unfold definedCcts
      have kinds : ∀ c, t.cfg s.fn (K.cctKind c) = s.cfg s.fn (K.cctKind c) := fun c => h.cfg (by dsimp only [K.cctKind]; omega)
      simp only [kinds]
    · rw [h.harmInputs]
    · rfl
  rw [h.only.fn rfl, used, credit]

/-- A ring's free credit is shown. -/
def showCredit (s : State) (r : Nat) : State := s.put (K.credits r) (ringCredit s s.fn r - ringUsed s r)

theorem showCredits {n : Nat} (hn : n ≤ 16) : CreditsAside s ((List.range n).foldl showCredit s) ∧
    ∀ r, r < n → ((List.range n).foldl showCredit s).get (K.credits r) = ringCredit s s.fn r - ringUsed s r := by
  induction n with
  | zero => exact ⟨⟨.refl _ _, fun _ _ => rfl⟩, fun r h => absurd h (Nat.not_lt_zero r)⟩
  | succ n ih =>
    obtain ⟨aside, shown⟩ := ih (by omega)
    rw [List.range_succ, List.foldl_append]
    generalize (List.range n).foldl showCredit s = u at aside shown
    refine ⟨⟨State_put_only (.refl 4) aside.only, fun k hk => (get_put_ne (by dsimp only [K.credits]; omega)).trans (aside.get k hk)⟩, fun r hr => ?_⟩
    show (showCredit u n).get (K.credits r) = _
    unfold showCredit
    by_cases e : r = n
    · rw [e, get_put_self, aside.free]
    · rw [get_put_ne (by dsimp only [K.credits]; omega), shown r (by omega)]

/-- The publisher seals the oldest complete staging buffer with the credits sampled. -/
theorem publisherSeal_seals {q : Snap} {l : List Snap} (run : s.mode = .run) (staged : s.staging = q :: l) :
    ∃ (u : State) (vals : Tab Nat), exec .publisherSeal s = .next { u with staging := l, sealed := s.sealed ++ [{ q with vals := vals }] } ∧
      ∀ r, r < 16 → u.get (K.credits r) = ringCredit s s.fn r - ringUsed s r := by
  obtain ⟨aside, shown⟩ := showCredits (s := s) (Nat.le_refl 16)
  refine ⟨_, (List.range 16).foldl (fun v r => putVal (K.credits r) (((List.range 16).foldl showCredit s).get (K.credits r)) v) q.vals, ?_, shown⟩
  show execPublisherSeal s = _
  unfold execPublisherSeal
  rw [if_pos run, staged, ← aside.only.sealed rfl]
  rfl

/-! ### Returned credit (R15) -/

theorem pumpRolls_rollq : (pumpRolls s).rollq = s.rollq.drop (128 - hallJobs s) :=
  (Only.foldl (m := 2147483648 + 8589934592 + 8192) (fun _ _ h => postJob_only ((Within.refl _).of rfl) h) (.refl _ _)).rollq rfl

theorem pumpRolls_jobs : (pumpRolls s).jobs.map (fun j => j.page) = s.jobs.map (fun j => j.page) ++ s.rollq.take (128 - hallJobs s) := by
  have posted : ∀ (l : List Nat) (f : Nat) (u : State), ((l.foldl (fun u p => postJob { page := p, fn := u.bill.next - 1, hall := true } u) u).jobs.map
      (fun j => j.page)) = u.jobs.map (fun j => j.page) ++ l := fun l f u => by
    induction l generalizing u with
    | nil => exact (List.append_nil _).symm
    | cons p l ih =>
      refine (ih _).trans ?_
      rw [postJob_map jobField_page, List.append_assoc]
      rfl
  exact posted _ 0 _

/-- What is sent, without what the start of a transmission notes. -/
def sentParts (y : PTx) : Option Nat × Nat × PMsg × Nat × Nat := (y.dest, y.next, y.msg, y.fn, y.hops)

/-- The start of a transmission marks the first frame of RING-14 and leaves what is sent. -/
theorem startTx_frames : (startTx s).plc.ring14.map sentParts = s.plc.ring14.map sentParts ∧ (startTx s).plc.queue = s.plc.queue ∧
    (s.plc.str.busy = true → startTx s = s) ∧ (startTx s).plc.str = s.plc.str := by
  unfold startTx
  split
  · exact ⟨rfl, rfl, fun _ => rfl, rfl⟩
  next idle =>
    unfold forceTx
    cases front : s.plc.ring14 with
    | nil => exact ⟨congrArg (List.map sentParts) front, rfl, fun busy => absurd busy idle, rfl⟩
    | cons x l =>
      dsimp only
      split
      · exact ⟨congrArg (List.map sentParts) front, rfl, fun busy => absurd busy idle, rfl⟩
      · exact ⟨rfl, rfl, fun busy => absurd busy idle, rfl⟩

/-- Frames enter RING-14 in order; its first may start. -/
theorem pump14_frames : (pump14 s).plc.ring14.map sentParts ++ (pump14 s).plc.queue.map sentParts =
      s.plc.ring14.map sentParts ++ s.plc.queue.map sentParts ∧
    (s.plc.str.busy = true → (pump14 s).plc.ring14 ++ (pump14 s).plc.queue = s.plc.ring14 ++ s.plc.queue) ∧
    (pump14 s).plc.str = s.plc.str := by
  unfold pump14
  extract_lets n
  obtain ⟨ring, queue, still, str⟩ := startTx_frames (s := setPlc (fun p => { p with ring14 := p.ring14 ++ p.queue.take n, queue := p.queue.drop n }) s)
  refine ⟨?_, fun busy => ?_, str⟩
  · rw [ring, queue, ← List.map_append, ← List.map_append]
    show ((s.plc.ring14 ++ s.plc.queue.take n) ++ s.plc.queue.drop n).map sentParts = _
    rw [List.append_assoc, List.take_append_drop]
  · rw [still busy]
    show (s.plc.ring14 ++ s.plc.queue.take n) ++ s.plc.queue.drop n = _
    rw [List.append_assoc, List.take_append_drop]

/-- Rings whose credit returns where their entry is consumed. -/
theorem ringCreditAvailable_other {r : Fin 16} {p : Port} (h : r.val ∉ [6, 7, 12, 13, 14, 15]) : exec (.ringCreditAvailable r p) s = .next s := by
  show execRingCreditAvailable r p s = _
  unfold execRingCreditAvailable
  split <;> simp_all

theorem countTx_plc : (countTx s).plc.queue = s.plc.queue ∧ (countTx s).plc.str = s.plc.str := by
  have kept := (State_bumpLive_only (s := s) (a1 := K.plcTxFrames) (.refl _) (.refl _ _)).plc rfl
  exact ⟨show (s.bumpLive K.plcTxFrames).plc.queue = _ from congrArg Plc.queue kept,
    show (s.bumpLive K.plcTxFrames).plc.str = _ from congrArg Plc.str kept⟩

theorem countTx_live : (countTx s).live K.plcTxFrames = (s.live K.plcTxFrames + 1) % 2 ^ oBits K.plcTxFrames := live_putLive_self

/-- A broadcast that has started ends with the credit that returns, and the next frame may start. -/
theorem ringCreditAvailable_broadcast {p : Port} {x : PTx} {l : List PTx} (h : s.plc.ring14 = x :: l) (hd : x.dest = none) (hon : x.on = true) :
    exec (.ringCreditAvailable 14 p) s = .next (pump14 (pump14 (setPlc (fun p => { p with ring14 := l }) (countTx s)))) := by
  show execRingCreditAvailable 14 p s = _
  refine congrArg (fun u => Host.Outcome.next (pump14 u)) ?_
  unfold endBroadcasts
  rw [h]
  exact if_pos ⟨hd, hon⟩

/-! ### Pulses (R209) -/

section
variable {i : Nat}

theorem showPending_pulse : (showPending i s).pulse = s.pulse ∧ (showPending i s).fn = s.fn :=
  have only : Only 132 s (showPending i s) := showPending_only (.refl _) (.refl _ _)
  ⟨only.pulse rfl, only.fn rfl⟩

theorem showPending_count : (showPending i s).get (K.poCount i) = s.get (K.poCount i) := by
  have pending : K.poPending i ≠ K.poCount i := by dsimp only [K.poPending, K.poCount]; omega
  have peak : K.poPeakPending i ≠ K.poCount i := by dsimp only [K.poPeakPending, K.poCount]; omega
  unfold showPending
  dsimp only
  split
  · rw [get_putV_ne peak, get_putV_ne pending]
  · exact get_putV_ne pending

/-- A pulse begins. -/
def pulseBegun (i : Nat) (o : PulseOut) (s : State) : State := showPending i ((setOut i o (showPending i s)).bumpV (K.poCount i))

theorem pulseBegun_only {o : PulseOut} : Only 16516 s (pulseBegun i o s) :=
  showPending_only ((Within.refl _).of rfl) (State_bumpV_only ((Within.refl _).of rfl) (setOut_only ((Within.refl _).of rfl)
    (showPending_only ((Within.refl _).of rfl) (.refl _ _))))

theorem pulseBegun_out {o : PulseOut} : tget {} (pulseBegun i o s).pulse.out i = o := by
  unfold pulseBegun
  rw [showPending_pulse.1, (State_bumpV_only (.refl _) (.refl _ _)).pulse rfl]
  exact tget_tset_self

theorem pulseBegun_count {o : PulseOut} : (pulseBegun i o s).get (K.poCount i) = (s.get (K.poCount i) + 1) % 2 ^ oBits (K.poCount i) := by
  unfold pulseBegun
  rw [showPending_count, State.bumpV, get_putV_self, show (setOut i o (showPending i s)).get (K.poCount i) = s.get (K.poCount i) from showPending_count]

end

/-- Settles O54: each consumer by what it takes and what it leaves. -/
theorem rollsPulsesAndRings : Obligations.RollsPulsesAndRings := by
  unfold Obligations.RollsPulsesAndRings
  refine ⟨fun s => ?_, fun r l s run free due => ?_, fun q l s run staged => ?_, fun p s => ⟨fun r other => ?_, fun r l waits room => ?_, ?_, fun x l front dest on => ?_⟩,
    fun i s o ho run enabled => ⟨fun e es due now low idle => ?_, fun e es due waits => ?_⟩, fun i s o e ho high => ⟨fun now => ?_, fun early => ?_⟩⟩
  · obtain ⟨t, step, waits⟩ := forcedRollComplete_waits (s := s)
    exact ⟨t, step, exec_frame step, waits⟩
  · have step := profileIntervalEnd_due run free due
    refine ⟨_, step, exec_frame step, profPost_due, fun none room => ?_, fun full => ?_⟩
    · rw [show profPost r { s with bill := { s.bill with profDue := l } } = put7 r { s with bill := { s.bill with profDue := l } } from if_pos ⟨none, room⟩]
      exact ⟨rfl, rfl⟩
    · rw [profPost_full (s := { s with bill := { s.bill with profDue := l } }) full]
      obtain ⟨ring, last, dict⟩ := overPost_last (r := r) (s := ({ s with bill := { s.bill with profDue := l } }).bump (K.stalls 7))
      exact ⟨ring, last, (get_of_dict dict _).trans get_bump_self⟩
  · obtain ⟨u, vals, step, shown⟩ := publisherSeal_seals run staged
    exact ⟨_, vals, step, exec_frame step, rfl, rfl, shown⟩
  · exact ringCreditAvailable_other other
  · show execRingCreditAvailable 7 p s = _
    unfold execRingCreditAvailable profPump
    rw [waits]
    exact congrArg _ (if_pos room)
  · have step : exec (.ringCreditAvailable 6 p) s = .next (pumpRolls s) := rfl
    exact ⟨_, step, exec_frame step, pumpRolls_rollq, pumpRolls_jobs⟩
  · have step := ringCreditAvailable_broadcast (p := p) front dest on
    obtain ⟨first, quiet, str⟩ := pump14_frames (s := setPlc (fun p => { p with ring14 := l }) (countTx s))
    obtain ⟨second, quiet', -⟩ := pump14_frames (s := pump14 (setPlc (fun p => { p with ring14 := l }) (countTx s)))
    have kept : (countTx s).plc.queue = s.plc.queue ∧ (countTx s).plc.str = s.plc.str := countTx_plc
    have same : ∀ u : State, (pump14 u).live K.plcTxFrames = u.live K.plcTxFrames := fun u =>
      get_of_dict ((pump14_only (.refl _) (.refl _ _)).dict rfl) _
    refine ⟨_, step, exec_frame step, ?_, fun busy => ?_, ?_⟩
    · rw [← List.map_append, ← List.map_append] at first second
      refine (second.trans first).trans ?_
      show (l ++ (countTx s).plc.queue).map sentParts = _
      rw [kept.1]
      rfl
    · have still : (setPlc (fun p => { p with ring14 := l }) (countTx s)).plc.str.busy = true := (congrArg Stranger.busy kept.2).trans busy
      refine ((quiet' (by rw [str]; exact still)).trans (quiet still)).trans ?_
      show l ++ (countTx s).plc.queue = _
      rw [kept.1]
    · rw [same, same]
      exact countTx_live
  · subst ho
    have step : exec (.pulseStart i) s = .next (pulseBegun i.val { tget {} s.pulse.out i.val with
        due := es, high := some (nowPeriod s + widthPeriods (s.cfg s.fn (K.poWidth i.val)) false) } s) := by
      show execPulseStart i s = _
      unfold execPulseStart
      dsimp only
      rw [due]
      exact congrArg _ (if_pos ⟨now, low, idle, enabled, run⟩)
    exact ⟨_, step, exec_frame step, pulseBegun_out, pulseBegun_count⟩
  · subst ho
    show execPulseStart i s = _
    unfold execPulseStart
    dsimp only
    rw [due]
    exact congrArg _ (if_neg (fun h => waits.elim (fun w => by omega) (fun w => w.elim (fun w => w h.2.1) (fun w => by omega))))
  · subst ho
    have step : exec (.pulseEnd i) s = .next (setOut i.val { tget {} s.pulse.out i.val with
        high := none, idle := e + widthPeriods (s.cfg s.fn (K.poWidth i.val)) true } s) := by
      show execPulseEnd i s = _
      unfold execPulseEnd
      dsimp only
      rw [high]
      exact congrArg _ (if_pos now)
    exact ⟨_, step, exec_frame step, tget_tset_self⟩
  · subst ho
    show execPulseEnd i s = _
    unfold execPulseEnd
    dsimp only
    rw [high]
    exact congrArg _ (if_neg (by omega))

end Sys2Proof.Machine
end

section
/-! PROOF. Checks of units (R215, R224 to R227): what a check counts, when a unit is SUSPECT, OK again or RETIRED. -/

namespace Sys2Proof.Machine

variable {s t : State}

/-! ### What is counted of a unit -/

/-- The objects of the checked units, and live values. -/
def UnitObject (k : Nat) : Prop := 0x600000 ≤ k ∧ (k < 0x630000 ∨ 0x2000000 ≤ k)

theorem get_event_unit {c j : Nat} {l : List Nat} (h : UnitObject j) : (s.event c l).get j = s.get j := by
  obtain ⟨low, high⟩ := h
  exact get_event (by dsimp only [K.stalls]; omega) (by dsimp only [K.eventsLost]; omega)

/-- The objects of a unit are five, in this order. -/
structure Ranked (u : UnitKeys) : Prop where
  low : 0x600000 ≤ u.state
  cause : u.state < u.cause
  fail : u.cause < u.fail
  pass : u.fail < u.pass
  sfn : u.pass < u.sfn
  high : u.sfn < 0x630000

theorem ranked_channel {n : Nat} (h : n < 256) : Ranked (unitKeys 1 n) := by
  constructor <;> (simp only [unitKeys, if_neg (show ¬1 = 0 by decide), if_pos, K.chFState, K.chFCause, K.chFFailRun, K.chFPassRun, K.chFStateFn]; omega)

theorem ranked_voltage {v : Nat} (h : v < 12) : Ranked (unitKeys 2 v) := by
  constructor <;> (simp only [unitKeys, if_neg (show ¬2 = 0 by decide), if_neg (show ¬2 = 1 by decide), K.vFState, K.vFCause, K.vFFailRun, K.vFPassRun, K.vFStateFn]; omega)

section
variable {kind num f : Nat}

/-- A change of state leaves other objects of units alone. -/
theorem get_unitSet {st cause j : Nat} (h : UnitObject j) (state : (unitKeys kind num).state ≠ j) (sfn : (unitKeys kind num).sfn ≠ j)
    (why : (unitKeys kind num).cause ≠ j) : (unitSet kind num st cause f s).get j = s.get j := by
  have put : ((s.put (unitKeys kind num).state st).put (unitKeys kind num).sfn f).get j = s.get j := (get_put_ne sfn).trans (get_put_ne state)
  unfold unitSet
  dsimp only
  split
  · exact (get_event_unit h).trans put
  · split
    · exact (get_event_unit h).trans ((get_put_ne why).trans put)
    · split
      · exact (get_event_unit h).trans ((get_put_ne why).trans put)
      · exact put

variable (ranked : Ranked (unitKeys kind num))
include ranked

/-- A change of state shows. -/
theorem unitSet_shows {st cause : Nat} (hst : st ≤ 2) : (unitSet kind num st cause f s).get (unitKeys kind num).state = st ∧
    (unitSet kind num st cause f s).get (unitKeys kind num).sfn = f ∧
    (st ≠ 0 → (unitSet kind num st cause f s).get (unitKeys kind num).cause = cause) := by
  obtain ⟨low, h1, h2, h3, h4, high⟩ := ranked
  have state : ((s.put (unitKeys kind num).state st).put (unitKeys kind num).sfn f).get (unitKeys kind num).state = st :=
    (get_put_ne (by omega)).trans get_put_self
  have since : ((s.put (unitKeys kind num).state st).put (unitKeys kind num).sfn f).get (unitKeys kind num).sfn = f := get_put_self
  have noted : ∀ {code : Nat} {l : List Nat} {u : State}, u = ((s.put (unitKeys kind num).state st).put (unitKeys kind num).sfn f).put (unitKeys kind num).cause cause →
      (u.event code l).get (unitKeys kind num).state = st ∧ (u.event code l).get (unitKeys kind num).sfn = f ∧
      (st ≠ 0 → (u.event code l).get (unitKeys kind num).cause = cause) := fun e => by
    rw [get_event_unit ⟨by omega, by omega⟩, get_event_unit ⟨by omega, by omega⟩, get_event_unit ⟨by omega, by omega⟩, e]
    exact ⟨(get_put_ne (by omega)).trans state, (get_put_ne (by omega)).trans since, fun _ => get_put_self⟩
  unfold unitSet
  dsimp only
  split
  next zero =>
    rw [get_event_unit ⟨by omega, by omega⟩, get_event_unit ⟨by omega, by omega⟩]
    exact ⟨state, since, fun h => absurd zero h⟩
  · split
    · exact noted rfl
    · rw [if_pos (by omega)]
      exact noted rfl

/-- A failed check of a unit in service. -/
theorem unitFail_counts {cause retire : Nat} (h : s.get (unitKeys kind num).state ≠ 2) {r : State × Bool}
    (e : r = unitFail kind num cause f retire s) : r.1.get (unitKeys kind num).pass = 0 ∧
    r.1.get (unitKeys kind num).fail = (s.get (unitKeys kind num).fail + 1) % 2 ^ oBits (unitKeys kind num).fail ∧
    (retire ≤ s.get (unitKeys kind num).fail + 1 → r.2 = true ∧ r.1.get (unitKeys kind num).state = 2 ∧
      r.1.get (unitKeys kind num).sfn = f ∧ r.1.get (unitKeys kind num).cause = cause) ∧
    (s.get (unitKeys kind num).fail + 1 < retire → r.2 = false ∧ r.1.get (unitKeys kind num).state = 1 ∧
      (s.get (unitKeys kind num).state ≠ 1 → r.1.get (unitKeys kind num).cause = cause)) := by
  obtain ⟨low, h1, h2, h3, h4, high⟩ := ranked
  subst e
  unfold unitFail
  dsimp only
  rw [if_neg h]
  generalize counted : ((s.put (unitKeys kind num).fail ((s.get (unitKeys kind num).fail + 1) % 2 ^ oBits (unitKeys kind num).fail)).put
    (unitKeys kind num).pass 0) = u
  have pass : u.get (unitKeys kind num).pass = 0 := by rw [← counted]; exact get_put_self
  have fail : u.get (unitKeys kind num).fail = (s.get (unitKeys kind num).fail + 1) % 2 ^ oBits (unitKeys kind num).fail := by
    rw [← counted]; exact (get_put_ne (by omega)).trans get_put_self
  have state : u.get (unitKeys kind num).state = s.get (unitKeys kind num).state := by
    rw [← counted]; exact (get_put_ne (by omega)).trans (get_put_ne (by omega))
  have kept : ∀ {st : Nat}, (unitSet kind num st cause f u).get (unitKeys kind num).pass = 0 ∧
      (unitSet kind num st cause f u).get (unitKeys kind num).fail = (s.get (unitKeys kind num).fail + 1) % 2 ^ oBits (unitKeys kind num).fail := fun {st} =>
    ⟨(get_unitSet ⟨by omega, by omega⟩ (by omega) (by omega) (by omega)).trans pass,
     (get_unitSet ⟨by omega, by omega⟩ (by omega) (by omega) (by omega)).trans fail⟩
  split
  next gone =>
    obtain ⟨shows, since, why⟩ := unitSet_shows (s := u) (f := f) (st := 2) (cause := cause) ⟨low, h1, h2, h3, h4, high⟩ (Nat.le_refl 2)
    exact ⟨kept.1, kept.2, fun _ => ⟨rfl, shows, since, why (by decide)⟩, fun l => absurd gone (by omega)⟩
  next on =>
    split
    next suspect =>
      rw [state] at suspect
      exact ⟨pass, fail, fun l => absurd l on, fun _ => ⟨rfl, state.trans suspect, fun n => absurd suspect n⟩⟩
    · obtain ⟨shows, -, why⟩ := unitSet_shows (s := u) (f := f) (st := 1) (cause := cause) ⟨low, h1, h2, h3, h4, high⟩ (by omega)
      exact ⟨kept.1, kept.2, fun l => absurd l on, fun _ => ⟨rfl, shows, fun _ => why (by decide)⟩⟩

/-- A passed check of a unit in service. -/
theorem unitPass_counts {ok : Nat} (h : s.get (unitKeys kind num).state ≠ 2) : (unitPass kind num f ok s).get (unitKeys kind num).fail = 0 ∧
    (unitPass kind num f ok s).get (unitKeys kind num).state =
      (if s.get (unitKeys kind num).state = 1 ∧ ok ≤ s.get (unitKeys kind num).pass + 1 then 0 else s.get (unitKeys kind num).state) := by
  obtain ⟨low, h1, h2, h3, h4, high⟩ := ranked
  unfold unitPass
  dsimp only
  rw [if_neg h]
  generalize counted : (s.put (unitKeys kind num).pass (min (s.get (unitKeys kind num).pass + 1) (2 ^ oBits (unitKeys kind num).pass - 1))).put
    (unitKeys kind num).fail 0 = u
  have fail : u.get (unitKeys kind num).fail = 0 := by rw [← counted]; exact get_put_self
  have state : u.get (unitKeys kind num).state = s.get (unitKeys kind num).state := by
    rw [← counted]; exact (get_put_ne (by omega)).trans (get_put_ne (by omega))
  rw [state]
  split
  · exact ⟨(get_unitSet ⟨by omega, by omega⟩ (by omega) (by omega) (by omega)).trans fail, (unitSet_shows ⟨low, h1, h2, h3, h4, high⟩ (by omega)).1⟩
  · exact ⟨fail, state⟩

omit ranked

/-! ### Checks of channels -/

/-- A unit passes its check: no extra check follows. -/
theorem unitCheck_passed {k : Nat} : unitCheck kind num k 0 f s = unitPass kind num f (s.cfg f K.chOkRun) (noteCheck k f s) := rfl

/-- A unit fails its check: an extra check follows but where it is retired. -/
theorem unitCheck_failed {k cause : Nat} (h : cause ≠ 0) {r : State × Bool} (e : r = unitFail kind num cause f (s.cfg f K.chRetireRun) (noteCheck k f s)) :
    unitCheck kind num k cause f s = if r.2 then r.1 else extraDue k f r.1 := by
  subst e
  exact if_neg h

end

/-- What a failed check of a unit, with its first failed part, leaves. -/
structure Failed (kind num k cause f : Nat) (s t : State) : Prop where
  pass : t.get (unitKeys kind num).pass = 0
  fail : t.get (unitKeys kind num).fail = (s.get (unitKeys kind num).fail + 1) % 2 ^ oBits (unitKeys kind num).fail
  retired : s.cfg f K.chRetireRun ≤ s.get (unitKeys kind num).fail + 1 → t.get (unitKeys kind num).state = 2 ∧
    t.get (unitKeys kind num).sfn = f ∧ t.get (unitKeys kind num).cause = cause
  suspect : s.get (unitKeys kind num).fail + 1 < s.cfg f K.chRetireRun → t.get (unitKeys kind num).state = 1 ∧
    t.acq.extra = s.acq.extra ++ [(k, f + 16)] ∧ (s.get (unitKeys kind num).state ≠ 1 → t.get (unitKeys kind num).cause = cause)
  openFail : t.acq.openFail = s.acq.openFail

theorem unitCheck_fails {kind num k cause f : Nat} (ranked : Ranked (unitKeys kind num)) (h : s.get (unitKeys kind num).state ≠ 2) (hc : cause ≠ 0) :
    Failed kind num k cause f s (unitCheck kind num k cause f s) := by
  generalize e : unitFail kind num cause f (s.cfg f K.chRetireRun) (noteCheck k f s) = r
  obtain ⟨pass, fail, retired, suspect⟩ := unitFail_counts (s := noteCheck k f s) ranked h e.symm
  have kept : r.1.acq = (noteCheck k f s).acq := by rw [← e]; exact (unitFail_only (.refl _) (.refl _ _)).acq rfl
  rw [unitCheck_failed hc e.symm]
  have same : (if r.2 = true then r.1 else extraDue k f r.1).dict = r.1.dict := by split <;> rfl
  refine ⟨(get_of_dict same _).trans pass, (get_of_dict same _).trans fail, fun gone => ?_, fun on => ?_, ?_⟩
  · obtain ⟨-, state, since, why⟩ := retired gone
    exact ⟨(get_of_dict same _).trans state, (get_of_dict same _).trans since, (get_of_dict same _).trans why⟩
  · obtain ⟨stays, state, why⟩ := suspect on
    refine ⟨(get_of_dict same _).trans state, ?_, fun n => (get_of_dict same _).trans (why n)⟩
    rw [stays]
    show r.1.acq.extra ++ _ = _
    rw [kept]
    rfl
  · split
    · rw [kept]; rfl
    · show r.1.acq.openFail = _
      rw [kept]; rfl

/-- What a passed check of a unit leaves. -/
theorem unitCheck_passes {kind num k f : Nat} (ranked : Ranked (unitKeys kind num)) (h : s.get (unitKeys kind num).state ≠ 2) :
    (unitCheck kind num k 0 f s).get (unitKeys kind num).fail = 0 ∧ (unitCheck kind num k 0 f s).acq.extra = s.acq.extra ∧
    (unitCheck kind num k 0 f s).get (unitKeys kind num).state = (if s.get (unitKeys kind num).state = 1 ∧
      s.cfg f K.chOkRun ≤ s.get (unitKeys kind num).pass + 1 then 0 else s.get (unitKeys kind num).state) := by
  rw [unitCheck_passed]
  obtain ⟨fail, state⟩ := unitPass_counts (s := noteCheck k f s) (f := f) (ok := s.cfg f K.chOkRun) ranked h
  exact ⟨fail, by rw [(unitPass_only (.refl _) (.refl _ _)).acq rfl]; rfl, state⟩

/-- A check of a unit leaves the live values alone. -/
theorem unitCheck_live {kind num k cause f j : Nat} (ranked : Ranked (unitKeys kind num)) : (unitCheck kind num k cause f s).live j = s.live j := by
  obtain ⟨low, h1, h2, h3, h4, high⟩ := ranked
  have live : UnitObject (liveKey j) := by unfold UnitObject liveKey; omega
  have put : ∀ {u : State} {x v : Nat}, x < 0x630000 → (u.put x v).get (liveKey j) = u.get (liveKey j) := fun hx => get_put_ne (by unfold liveKey; omega)
  have set : ∀ {u : State} {st why : Nat}, (unitSet kind num st why f u).get (liveKey j) = u.get (liveKey j) :=
    get_unitSet live (by unfold liveKey; omega) (by unfold liveKey; omega) (by unfold liveKey; omega)
  show (unitCheck kind num k cause f s).get (liveKey j) = s.get (liveKey j)
  unfold unitCheck
  extract_lets s₁ r
  split
  · show (unitPass kind num f _ s₁).get (liveKey j) = _
    unfold unitPass
    dsimp only
    split
    · rfl
    · split
      · exact set.trans ((put (by omega)).trans (put (by omega)))
      · exact (put (by omega)).trans (put (by omega))
  · have failed : r.1.get (liveKey j) = s.get (liveKey j) := by
      show (unitFail kind num cause f _ s₁).1.get (liveKey j) = _
      unfold unitFail
      dsimp only
      split
      · rfl
      · split
        · exact set.trans ((put (by omega)).trans (put (by omega)))
        · split
          · exact (put (by omega)).trans (put (by omega))
          · exact set.trans ((put (by omega)).trans (put (by omega)))
    split
    · exact failed
    · exact failed

/-- A failed stuck-code test is counted. -/
def stuckNoted (f n : Nat) (s : State) : State := if stuckFails s f n then s.bump (K.chFStuckFails n) else s

theorem stuckNoted_get {f n j : Nat} (h : K.chFStuckFails n ≠ j) : (stuckNoted f n s).get j = s.get j := by
  unfold stuckNoted
  split
  · exact get_bump_ne h
  · rfl

theorem stuckNoted_only {f n : Nat} : Only 4 s (stuckNoted f n s) := .ite (fun _ => State_bump_only (.refl 4) (.refl _ _)) (fun _ => .refl _ _)

theorem stuckNoted_cfg {f n k : Nat} (hn : n < 256) (hk : 0x620000 ≤ k) : (stuckNoted f n s).cfg f k = s.cfg f k :=
  cfg_of_get (stuckNoted_get (by dsimp only [K.chFStuckFails]; omega)) (stuckNoted_only.commits rfl)

/-- The cause of the first failed part of a channel's check, or 0. -/
def chanCause (f n : Nat) (s : State) : Nat := if n ∈ s.acq.openFail then 5 else if stuckFails s f n then 6 else 0

theorem chanCheck_eq {f n : Nat} : chanCheck f n s = unitCheck 1 n n (chanCause f n s) f (stuckNoted f n s) := by
  have kept : (stuckNoted f n s).acq = s.acq := stuckNoted_only.acq rfl
  unfold chanCause
  rw [← kept]
  rfl

section
variable {n f : Nat} (hn : n < 256) (inService : s.get (K.chFState n) ≠ 2)
include hn inService

/-- A current channel passes its check. -/
theorem chanCheck_passes (h : chanCause f n s = 0) : (chanCheck f n s).get (K.chFFailRun n) = 0 ∧ (chanCheck f n s).acq.extra = s.acq.extra ∧
    (chanCheck f n s).get (K.chFState n) = (if s.get (K.chFState n) = 1 ∧ s.cfg f K.chOkRun ≤ s.get (K.chFPassRun n) + 1 then 0
      else s.get (K.chFState n)) := by
  have state : (stuckNoted f n s).get (K.chFState n) = s.get (K.chFState n) := stuckNoted_get (by dsimp only [K.chFStuckFails, K.chFState]; omega)
  have pass : (stuckNoted f n s).get (K.chFPassRun n) = s.get (K.chFPassRun n) := stuckNoted_get (by dsimp only [K.chFStuckFails, K.chFPassRun]; omega)
  obtain ⟨fails, extra, shows⟩ := unitCheck_passes (s := stuckNoted f n s) (k := n) (f := f) (ranked_channel hn) (by rw [← state] at inService; exact inService)
  rw [chanCheck_eq, h]
  rw [stuckNoted_only.acq rfl] at extra
  refine ⟨fails, extra, shows.trans ?_⟩
  show (if (stuckNoted f n s).get (K.chFState n) = 1 ∧ (stuckNoted f n s).cfg f K.chOkRun ≤ (stuckNoted f n s).get (K.chFPassRun n) + 1 then 0
    else (stuckNoted f n s).get (K.chFState n)) = _
  rw [state, pass, stuckNoted_cfg hn (by decide)]

/-- A current channel fails its check. -/
theorem chanCheck_fails (h : chanCause f n s ≠ 0) : Failed 1 n n (chanCause f n s) f s (chanCheck f n s) := by
  have same : ∀ j, j ∈ [K.chFState n, K.chFCause n, K.chFFailRun n] → (stuckNoted f n s).get j = s.get j := fun j hj => stuckNoted_get (by
    simp only [List.mem_cons, List.not_mem_nil, or_false, K.chFState, K.chFCause, K.chFFailRun] at hj
    dsimp only [K.chFStuckFails]
    omega)
  have state : (stuckNoted f n s).get (unitKeys 1 n).state = s.get (unitKeys 1 n).state := same _ (by simp [unitKeys])
  have fail : (stuckNoted f n s).get (unitKeys 1 n).fail = s.get (unitKeys 1 n).fail := same _ (by simp [unitKeys])
  have limit : (stuckNoted f n s).cfg f K.chRetireRun = s.cfg f K.chRetireRun := stuckNoted_cfg hn (by decide)
  have acq : (stuckNoted f n s).acq = s.acq := stuckNoted_only.acq rfl
  obtain ⟨h1, h2, h3, h4, h5⟩ := unitCheck_fails (s := stuckNoted f n s) (k := n) (f := f) (ranked_channel hn) (fun e => inService (state.symm.trans e)) h
  rw [fail, limit] at h3 h4
  rw [fail] at h2
  rw [state, acq] at h4
  rw [acq] at h5
  rw [chanCheck_eq]
  exact ⟨h1, h2, h3, h4, h5⟩

end

/-- A check leaves the live values alone. -/
theorem chanCheck_live {n f k : Nat} (hn : n < 256) : (chanCheck f n s).live k = s.live k := by
  rw [chanCheck_eq]
  exact (unitCheck_live (ranked_channel hn)).trans (stuckNoted_get (by dsimp only [liveKey, K.chFStuckFails]; omega))

/-! ### Extra and voltage checks -/

theorem channelCheck_step {ch : Fin 256} (ready : chanReady s ch.val = true) (h1 : s.fn % 128 = 0) (h2 : s.fn / 128 % 8 = ch.val % 8)
    (h3 : tget 0 s.acq.lastChk ch.val ≠ s.fn + 1) : exec (.channelCheck ch) s = .next (chanCheck s.fn ch.val s) :=
  congrArg _ (if_pos ⟨ready, h1, h2, h3⟩)

theorem chanReady_state {n : Nat} (h : chanReady s n = true) : s.get (K.chFState n) ≠ 2 := by
  simp only [chanReady, Bool.and_eq_true, decide_eq_true_eq] at h
  exact h.1.1.2

theorem channelExtraCheck_step {ch : Fin 256} {cm : Int} (ready : chanReady s ch.val = true) (now : extraNow s ch.val = true) :
    exec (.channelExtraCheck ch cm) s = .next (chanCheck s.fn ch.val (openTest s.fn ch.val cm (extraDone ch.val s))) :=
  congrArg _ (if_pos (by rw [ready, now]; rfl))

/-- An open-input test leaves the other objects of units alone, shows its common mode, and tells whether it failed. -/
theorem openTest_effects {f n : Nat} {cm : Int} : (∀ j, j < 0x1000000 → K.chFOpenFails n ≠ j → (openTest f n cm s).get j = s.get j) ∧
    (n < 256 → (openTest f n cm s).live (K.chFCmLast n) = ofInt (oBits (K.chFCmLast n)) cm) ∧
    (n ∈ (openTest f n cm s).acq.openFail ↔ (s.cfg f K.cmLimit : Int) < mag cm) ∧ (openTest f n cm s).acq.extra = s.acq.extra := by
  unfold openTest
  extract_lets bad s₁ s₂
  have shown : Only 68 s s₁ := State_putDueI_only (.refl 68) (.refl _ _)
  have counted : Only 68 s s₂ := .ite (fun _ => State_bump_only ((Within.refl 68).of rfl) shown) (fun _ => shown)
  refine ⟨fun j hj apart => ?_, fun hn => ?_, ?_, ?_⟩
  · show s₂.get j = _
    have first : s₁.get j = s.get j := get_putDue_ne (by unfold liveKey; omega)
    show (if _ then _ else s₁ : State).get j = _
    split
    · exact (get_bump_ne apart).trans first
    · exact first
  · show s₂.live _ = _
    show (if _ then _ else s₁ : State).live _ = _
    split
    · exact (get_bump_ne (by dsimp only [liveKey, K.chFOpenFails, K.chFCmLast]; omega)).trans live_putDue_self
    · exact live_putDue_self
  · show n ∈ (if bad then (if n ∈ s₂.acq.openFail then s₂.acq.openFail else n :: s₂.acq.openFail) else s₂.acq.openFail.filter (fun m => decide (m ≠ n))) ↔ _
    by_cases out : (s.cfg f K.cmLimit : Int) < mag cm
    · rw [show bad = true from decide_eq_true out]
      refine iff_of_true ?_ out
      by_cases listed : n ∈ s₂.acq.openFail
      · simp [listed]
      · simp [listed]
    · rw [show bad = false from decide_eq_false out]
      exact iff_of_false (by simp) out
  · show s₂.acq.extra = _
    rw [counted.acq rfl]

theorem voltageCheck_step {v : Fin 12} {cm : Int} (run : s.mode = .run) (on : s.cfg s.fn (K.vEnable v.val) = 1) (state : s.get (K.vFState v.val) ≠ 2)
    (period : 8 < s.acq.period) (now : s.fn % 1024 = 512 + 8 * v.val) (fresh : tget 0 s.acq.lastChk (256 + v.val) ≠ s.fn + 1) :
    exec (.voltageCheck v cm) s = .next (unitCheck 2 v.val (256 + v.val) (if (s.cfg s.fn K.cmLimit : Int) < mag cm then 5
      else if stuckFails s s.fn (256 + v.val) then 6 else if unstableFails s s.fn v.val then 7 else 0) s.fn (extraDone (256 + v.val) s)) :=
  congrArg _ (if_pos ⟨run, on, state, period, .inl now, fresh⟩)

theorem modulatorInstability_step {v : Fin 12} (run : s.mode = .run) (on : s.cfg s.fn (K.vEnable v.val) = 1) : exec (.modulatorInstability v) s =
    .next { s with aln := { s.aln with streams := tmod {} s.aln.streams (256 + v.val) (fun st => { st with unstable := some s.fn }) } } :=
  congrArg _ (if_pos ⟨run, on⟩)

/-! ### Ports (R233) -/

/-- Every object but the counters of RING-5 stands; live values may change. -/
def SameObjects (s t : State) : Prop := ∀ k, k < 0x1000000 → k ∉ [K.stalls 5, K.eventsLost] → t.get k = s.get k

namespace SameObjects

variable {u : State}

theorem refl (s : State) : SameObjects s s := fun _ _ _ => rfl

theorem trans (h : SameObjects s t) (k : SameObjects t u) : SameObjects s u := fun j hj hn => (k j hj hn).trans (h j hj hn)

theorem of_dict (h : t.dict = s.dict) : SameObjects s t := fun _ _ _ => get_of_dict h _

theorem of_only {m : Nat} (h : Only m s t) (e : m.testBit 2 = false) : SameObjects s t := of_dict (h.dict e)

theorem foldl {α : Type} {g : State → α → State} {l : List α} (hf : ∀ u a, SameObjects u (g u a)) (h : SameObjects s t) : SameObjects s (l.foldl g t) := by
  induction l generalizing t with
  | nil => exact h
  | cons a l ih => exact ih (h.trans (hf t a))

theorem ite {c : Prop} [Decidable c] (ht : c → SameObjects s t) (hu : ¬c → SameObjects s u) : SameObjects s (if c then t else u) := by
  split
  · exact ht ‹_›
  · exact hu ‹_›

theorem putLive {k v : Nat} (h : SameObjects s t) : SameObjects s (t.putLive k v) := fun j hj hn =>
  (get_putLive_ne (by unfold liveKey; omega)).trans (h j hj hn)

theorem putDue {f k v : Nat} (h : SameObjects s t) : SameObjects s (t.putDue f k v) := fun j hj hn =>
  (get_putDue_ne (by unfold liveKey; omega)).trans (h j hj hn)

theorem event {c : Nat} {l : List Nat} (h : SameObjects s t) : SameObjects s (t.event c l) := fun j hj hn => by
  simp only [List.mem_cons, List.not_mem_nil, or_false, not_or] at hn
  exact (get_event (Ne.symm hn.1) (Ne.symm hn.2)).trans (h j hj (by simp [hn]))

theorem setLease {l : Option Lease} {st : Nat} (h : SameObjects s t) : SameObjects s (setLease l st t) := fun j hj hn =>
  (get_setLease (fun x _ => by unfold liveKey; omega) (by unfold liveKey; omega)).trans (h j hj hn)

end SameObjects

theorem showNbr_objects {j : Nat} : SameObjects s (showNbr j s) := by
  unfold showNbr
  split
  · exact (SameObjects.refl s).putLive.putLive.putLive.putLive.putLive.putLive.putLive.putLive
  · exact (SameObjects.refl s).putLive.putLive.putLive.putLive.putLive.putLive.putLive.putLive

theorem setNbr_objects {j : Nat} {n : Option Nbr} : SameObjects s (setNbr j n s) := (SameObjects.of_dict (by rfl)).trans showNbr_objects

theorem showRoute_objects {k : Nat} : SameObjects s (showRoute k s) := by
  unfold showRoute
  split
  · exact (SameObjects.refl s).putLive.putLive.putLive.putLive.putLive
  · exact (SameObjects.refl s).putLive.putLive.putLive.putLive.putLive

theorem setRoute_objects {k : Nat} {r : Option Route} : SameObjects s (setRoute k r s) := (SameObjects.of_dict (by rfl)).trans showRoute_objects

theorem dropRoutes_objects {gone : Route → Bool} : SameObjects s (dropRoutes gone s) := .foldl (fun _ _ => setRoute_objects) (.refl s)

theorem eraseTables_objects : SameObjects s (eraseTables s) := dropRoutes_objects.trans (.foldl (fun _ _ => setNbr_objects) (.refl _))

theorem setPlc_objects {g : Plc → Plc} : SameObjects s (setPlc g s) := .of_dict rfl

theorem leavePan_objects {cause : Option Nat} {st : Nat} : SameObjects s (leavePan cause st s) := by
  unfold leavePan
  extract_lets s₁ s₂ s₃
  have noted : SameObjects s s₁ := by
    cases cause with
    | none => exact .refl s
    | some c => exact .ite (fun _ => (SameObjects.refl s).event) (fun _ => .refl s)
  have erased : SameObjects s s₂ := noted.trans eraseTables_objects
  exact SameObjects.putLive (.putLive (.putLive (erased.trans setPlc_objects)))

theorem setTb_objects {g : Tb → Tb} : SameObjects s (setTb g s) := .of_dict rfl

theorem tbSearch_objects {f : Nat} : SameObjects s (tbSearch f s) := by
  unfold tbSearch tbSetState
  exact SameObjects.putDue (.putDue (.putDue (.putDue (.putDue (.putDue setTb_objects)))))

theorem tbOff_objects {f : Nat} : SameObjects s (tbOff f s) := by
  unfold tbOff tbSetState
  exact (tbSearch_objects.trans setTb_objects).putDue

theorem dropHolders_objects {gone : Holder → Bool} : SameObjects s (dropHolders gone s) := by
  unfold dropHolders
  split
  · exact .refl s
  · exact .ite (fun _ => .ite (fun _ => (SameObjects.refl s).setLease) (fun _ => .ite (fun _ => .refl s) (fun _ => (SameObjects.refl s).setLease))) (fun _ => .refl s)

theorem endSess_objects {k : Nat} : SameObjects s (endSess k s) := by
  unfold endSess
  split
  · exact .refl s
  · have server : ∀ {t : State}, Only 1074003968 s t → SameObjects s t := fun h => .of_only h rfl
    refine .ite (fun _ => ?_) (fun _ => ?_)
    · refine SameObjects.trans (server ?_) dropHolders_objects
      exact cancelReqs_only ((Within.refl _).of rfl) (dropWork_only (.refl _) (setSess_only ((Within.refl _).of rfl) (.refl _ _)))
    · refine SameObjects.trans (server ?_) dropHolders_objects
      exact setSrv_only ((Within.refl _).of rfl) (dropFrames_only ((Within.refl _).of rfl) (setSess_only ((Within.refl _).of rfl)
        (dropWork_only (.refl _) (cancelReqs_only ((Within.refl _).of rfl) (.refl _ _)))))

theorem endPort_objects {p : Port} : SameObjects s (endPort p s) := .foldl (fun _ _ => endSess_objects) (.refl s)

theorem portCut_objects {p : Port} : SameObjects s (portCut p s) := by
  unfold portCut
  extract_lets s₁ s₂ s₃ s₄ drops s₅ k
  have cut : Only 1074003968 s s₅ := by
    refine setSrv_only ((Within.refl _).of rfl) (endTxns_only (.refl _) (.foldl (fun _ _ h => failTag_only ((Within.refl _).of rfl) h) ?_))
    exact setSrv_only ((Within.refl _).of rfl) (setSrv_only ((Within.refl _).of rfl) (.refl _ _))
  exact (SameObjects.of_only cut rfl).putLive.trans dropHolders_objects

theorem strangerEnd_objects {x : Stranger} : SameObjects s (strangerEnd x s) := by
  unfold strangerEnd
  extract_lets s₁ free
  have counted : SameObjects s s₁ := (SameObjects.refl s).putLive
  have freed : ∀ {t : State}, SameObjects s t → SameObjects s (annMay (startTx t)) := fun h =>
    h.trans (.of_only (annMay_only (.refl 2097152) (startTx_only (.refl _) (.refl _ _))) rfl)
  exact freed (.ite (fun _ => counted.event.trans setPlc_objects) (fun _ => counted.trans setPlc_objects))

/-- A port that stops keeps its objects. -/
theorem plcStop_objects {b : Nat} : SameObjects s (plcStop b s) := by
  unfold plcStop
  extract_lets s₁
  have off : SameObjects s s₁ := ((portCut_objects.trans endPort_objects).trans leavePan_objects).trans tbOff_objects
  exact .ite (fun _ => off.trans strangerEnd_objects) (fun _ => off)

theorem t1sStop_objects {b : Nat} : SameObjects s (t1sStop b s) := by
  unfold t1sStop setT1s
  exact portCut_objects.trans (.of_dict rfl)

theorem portSet_state {p st cause : Nat} (hp : p = 1 ∨ p = 2) : (portSet p st cause s).get (K.portState p) = st := by
  have stall : K.stalls 5 ≠ K.portState p := by dsimp only [K.stalls, K.portState]; omega
  have lost : K.eventsLost ≠ K.portState p := by dsimp only [K.eventsLost, K.portState]; omega
  unfold portSet
  dsimp only
  split
  · exact (get_event stall lost).trans get_putV_self
  · split
    · exact (get_event stall lost).trans get_putV_self
    · exact (get_event stall lost).trans get_putV_self

theorem setPortUnit_unit {p : Nat} {u : UnitS} : portUnit (setPortUnit p u s) p = u := tget_tset_self

theorem portSet_unit {p st cause : Nat} : portUnit (portSet p st cause s) p = portUnit s p := by
  unfold portUnit
  rw [(portSet_only (.refl _) (.refl _ _)).units rfl]

/-- A port whose watchdog has failed is SUSPECT. -/
def watchdogNoted (p : Nat) (s : State) : State := if s.get (K.portState p) = 0 then portSet p 1 12 s else s

theorem watchdogNoted_only {p : Nat} : Only 33554564 s (watchdogNoted p s) := .ite (fun _ => portSet_only (.refl _) (.refl _ _)) (fun _ => .refl _ _)

theorem watchdogNoted_unit {p : Nat} : portUnit (watchdogNoted p s) p = portUnit s p := by
  unfold portUnit
  rw [watchdogNoted_only.units rfl]

theorem portWatchdog_step {p : Port} {ok : Bool} (hp : p = .t1s ∨ p = .plc) (run : s.mode = .run) (on : portOff s p = false) :
    exec (.portWatchdog p ok) s = .next (if ok then portSet (portNo p) 0 0 (setPortUnit (portNo p)
        { portUnit (watchdogNoted (portNo p) s) (portNo p) with fail := 0, pass := 0 } (watchdogNoted (portNo p) s))
      else selfTestFailed (portNo p) (watchdogNoted (portNo p) s)) :=
  congrArg _ (if_pos ⟨hp, run, on⟩)

/-- The third failure in a row retires the port, which stops. -/
theorem selfTestFailed_retires {p : Nat} (hp : p = 1 ∨ p = 2) (h : 2 ≤ (portUnit s p).fail) : (selfTestFailed p s).get (K.portState p) = 2 := by
  have small : K.portState p < 0x1000000 ∧ K.portState p ∉ [K.stalls 5, K.eventsLost] := by
    simp only [List.mem_cons, List.not_mem_nil, or_false, K.portState, K.stalls, K.eventsLost]
    omega
  unfold selfTestFailed
  extract_lets u s₁ s₂
  rw [if_pos (show 3 ≤ u.fail + 1 from by show 3 ≤ (portUnit s p).fail + 1; omega)]
  have retired : s₂.get (K.portState p) = 2 := portSet_state hp
  clear_value s₂
  split
  · exact (t1sStop_objects _ small.1 small.2).trans retired
  · exact (plcStop_objects _ small.1 small.2).trans retired

/-- An earlier failure counts. -/
theorem selfTestFailed_counts {p : Nat} (h : (portUnit s p).fail < 2) : selfTestFailed p s =
    setPortUnit p { portUnit s p with fail := (portUnit s p).fail + 1, pass := 0 } s := if_neg (by omega)

/-! ### Routes (R232) -/

theorem setRoute_route {k : Nat} {r : Option Route} : (setRoute k r s).plc.route = tset none s.plc.route k r := by
  unfold setRoute
  rw [(showRoute_only (.refl _) (.refl _ _)).plc rfl]
  rfl

theorem tget_setRoutes {l : List (Nat × Route)} {k : Nat} : tget none (l.foldl (fun s e => setRoute e.1 none s) s).plc.route k =
    if k ∈ l.map Prod.fst then none else tget none s.plc.route k := by
  induction l generalizing s with
  | nil => rfl
  | cons e l ih =>
    rw [List.foldl_cons, ih, setRoute_route]
    by_cases same : e.1 = k
    · rw [← same, tget_tset_self, ite_self]
      exact (if_pos List.mem_cons_self).symm
    · rw [tget_tset_ne same]
      exact ite_congr (by simp [Ne.symm same]) (fun _ => rfl) (fun _ => rfl)

theorem mem_of_tget {α : Type} {l : Tab (Option α)} {k : Nat} {a : α} (h : tget none l k = some a) : (k, some a) ∈ l := by
  induction l with
  | nil => cases h
  | cons e l ih =>
    obtain ⟨j, b⟩ := e
    unfold tget at h
    split at h
    next same => rw [same, h]; exact List.mem_cons_self
    · exact List.mem_cons_of_mem _ (ih h)

/-- No route is left for which a test holds. -/
theorem dropRoutes_none {gone : Route → Bool} {k : Nat} {r : Route} (h : tget none (dropRoutes gone s).plc.route k = some r) : gone r = false := by
  unfold dropRoutes at h
  rw [tget_setRoutes] at h
  split at h
  · cases h
  next stays =>
    refine Bool.eq_false_iff.mpr fun out => ?_
    refine stays (List.mem_map.mpr ⟨(k, r), List.mem_filter.mpr ⟨?_, out⟩, rfl⟩)
    exact List.mem_filterMap.mpr ⟨(k, some r), mem_of_tget h, rfl⟩

theorem dropRoutes_nbr {gone : Route → Bool} : (dropRoutes gone s).plc.nbr = s.plc.nbr := by
  unfold dropRoutes
  generalize (routes s).filter (fun e => gone e.2) = l
  induction l generalizing s with
  | nil => rfl
  | cons e l ih =>
    refine ih.trans ?_
    unfold setRoute
    rw [(showRoute_only (.refl _) (.refl _ _)).plc rfl]
    rfl

theorem setNbr_nbr {j : Nat} {n : Option Nbr} : tget none (setNbr j n s).plc.nbr j = n := by
  unfold setNbr
  rw [(showNbr_only (.refl _) (.refl _ _)).plc rfl]
  exact tget_tset_self

/-- A neighbour SUSPECT for ROUTE_TIMEOUT is retired. -/
def nbrRetiredNow (j : Nat) (n : Nbr) (s : State) : State :=
  dropRoutes (fun r => decide (r.next = n.addr)) (((setNbr j (some { n with state := 2 }) s).bump K.routesRetired).event 0x0302 [5, j, 10, s.fn])

theorem routeRetire_step {j : Fin 64} {n : Nbr} (listed : tget none s.plc.nbr j.val = some n) : exec (.routeRetire j) s =
    .next (if s.mode = .run ∧ n.state = 1 ∧ n.since + 1024 * s.cfg s.fn K.routeTimeout ≤ s.fn then nbrRetiredNow j.val n s else s) := by
  show execRouteRetire j s = _
  unfold execRouteRetire
  rw [listed]
  have fn : (setNbr j.val (some { n with state := 2 }) s).fn = s.fn := (setNbr_only (.refl _) (.refl _ _)).fn rfl
  dsimp only
  rw [fn]
  rfl

/-- Settles O55, by `unitCheck_passes`, `unitCheck_fails` and what a port's watchdog and a retired neighbour leave. -/
theorem checksRetireUnits : Obligations.ChecksRetireUnits := by
  unfold Obligations.ChecksRetireUnits
  refine ⟨fun ch s n stuck hn ready h1 h2 h3 hstuck => ?_, fun ch cm s n hn ready now => ?_, fun v cm s cause run on state period now fresh hc => ?_,
    fun v s run on => ?_, fun p s hp run on => ⟨?_, ?_⟩, fun j n s listed run suspect => ⟨fun due => ?_, fun early => ?_⟩⟩
  · subst hn hstuck
    have step := channelCheck_step ready h1 h2 h3
    refine ⟨_, step, exec_frame step, fun closed free => ?_, fun bad => ?_⟩
    · have cause : chanCause s.fn ch.val s = 0 := by simp [chanCause, closed, free]
      obtain ⟨fail, -, state⟩ := chanCheck_passes ch.isLt (chanReady_state ready) cause
      refine ⟨fail, fun suspect long => ?_, fun short => ?_⟩
      · rw [state, if_pos ⟨suspect, long⟩]
      · rw [state, if_neg (by omega)]
    · have cause : chanCause s.fn ch.val s = (if ch.val ∈ s.acq.openFail then 5 else 6) := by
        unfold chanCause
        split
        · rfl
        next closed => rw [if_pos (bad.resolve_left closed)]
      have failed := chanCheck_fails ch.isLt (chanReady_state ready) (by rw [cause]; split <;> decide)
      refine ⟨failed.pass, failed.fail, fun gone => ?_, fun stays => ?_⟩
      · obtain ⟨state, since, -⟩ := failed.retired gone
        exact ⟨state, since⟩
      · obtain ⟨state, extra, why⟩ := failed.suspect stays
        exact ⟨extra, state, fun fresh => (why fresh).trans cause⟩
  · subst hn
    have step := channelExtraCheck_step (cm := cm) ready now
    obtain ⟨same, last, judged, extra⟩ := openTest_effects (s := extraDone ch.val s) (f := s.fn) (n := ch.val) (cm := cm)
    have tested : Only 580 (extraDone ch.val s) (openTest s.fn ch.val cm (extraDone ch.val s)) := openTest_only (.refl _) (.refl _ _)
    generalize openTest s.fn ch.val cm (extraDone ch.val s) = u at step same last judged extra tested
    have inService := chanReady_state ready
    have state : u.get (K.chFState ch.val) = s.get (K.chFState ch.val) := same _ (by dsimp only [K.chFState]; omega) (by dsimp only [K.chFState, K.chFOpenFails]; omega)
    have fails : u.get (K.chFFailRun ch.val) = s.get (K.chFFailRun ch.val) := same _ (by dsimp only [K.chFFailRun]; omega) (by dsimp only [K.chFFailRun, K.chFOpenFails]; omega)
    have limit : u.cfg s.fn K.chRetireRun = s.cfg s.fn K.chRetireRun :=
      cfg_of_get (same _ (by decide) (by dsimp only [K.chRetireRun, K.chFOpenFails]; omega)) (tested.commits rfl)
    have stuck : stuckFails u s.fn ch.val = stuckFails s s.fn ch.val := by unfold stuckFails; rw [tested.aln rfl]; rfl
    rw [← state] at inService
    refine ⟨_, step, exec_frame step, ?_, fun within free => ?_, fun out => ?_⟩
    · exact (chanCheck_live ch.isLt).trans (last ch.isLt)
    · have cause : chanCause s.fn ch.val u = 0 := by
        unfold chanCause
        rw [if_neg (fun h => absurd (judged.mp h) (Int.not_lt.mpr within)), stuck, free]
        rfl
      obtain ⟨fail, left, -⟩ := chanCheck_passes ch.isLt inService cause
      refine ⟨fail, fun e he own => ?_⟩
      rw [left, extra] at he
      have kept := (List.mem_filter.mp he).2
      simpa [own] using kept
    · have listed := judged.mpr out
      have failed := chanCheck_fails (f := s.fn) ch.isLt inService (by rw [chanCause, if_pos listed]; decide)
      exact ⟨failed.openFail ▸ listed, failed.pass, fun gone => (failed.retired (by rw [limit]; exact Nat.le_trans gone (Nat.le_of_eq (congrArg (· + 1) fails.symm)))).1⟩
  · subst hc
    have step := voltageCheck_step (cm := cm) run on state period now fresh
    generalize (if (s.cfg s.fn K.cmLimit : Int) < mag cm then 5 else if stuckFails s s.fn (256 + v.val) then 6
      else if unstableFails s s.fn v.val then 7 else 0) = cause at step
    refine ⟨_, step, exec_frame step, fun passed => ?_, fun failed => ?_⟩
    · rw [passed]
      exact (unitCheck_passes (s := extraDone (256 + v.val) s) (ranked_voltage v.isLt) state).1
    · have fails := unitCheck_fails (s := extraDone (256 + v.val) s) (k := 256 + v.val) (f := s.fn) (ranked_voltage v.isLt) state failed
      refine ⟨fails.pass, fun gone => ?_, fun stays => ?_⟩
      · obtain ⟨shows, -, why⟩ := fails.retired gone
        exact ⟨shows, why⟩
      · obtain ⟨shows, extra, -⟩ := fails.suspect stays
        exact ⟨shows, extra ▸ List.mem_append_right _ List.mem_cons_self⟩
  · have step := modulatorInstability_step run on
    refine ⟨_, step, exec_frame step, ?_, fun k hk => tget_tset_ne (Ne.symm hk)⟩
    exact congrArg Stream.unstable tget_tset_self
  · have step := portWatchdog_step (ok := true) hp run on
    have two : portNo p = 1 ∨ portNo p = 2 := by rcases hp with rfl | rfl <;> decide
    have kept : Only (33554564 + 34359738368) s (portSet (portNo p) 0 0 (setPortUnit (portNo p)
        { portUnit (watchdogNoted (portNo p) s) (portNo p) with fail := 0, pass := 0 } (watchdogNoted (portNo p) s))) :=
      portSet_only ((Within.refl _).of rfl) (setPortUnit_only ((Within.refl _).of rfl) (.trans ((Within.refl _).of rfl) (.refl _ _) watchdogNoted_only))
    rw [if_pos rfl] at step
    exact ⟨_, step, exec_frame step, portSet_state two, by rw [portSet_unit, setPortUnit_unit], kept.t1s rfl, kept.plc rfl⟩
  · have step := portWatchdog_step (ok := false) hp run on
    have two : portNo p = 1 ∨ portNo p = 2 := by rcases hp with rfl | rfl <;> decide
    refine ⟨_, step, exec_frame step, fun few up => ?_, fun third => ?_⟩
    · rw [if_neg (by decide), selfTestFailed_counts (by rw [watchdogNoted_unit]; exact few), setPortUnit_unit, watchdogNoted_unit]
      refine ⟨?_, rfl⟩
      show (watchdogNoted (portNo p) s).get _ = 1
      unfold watchdogNoted
      rw [if_pos up]
      exact portSet_state two
    · rw [if_neg (by decide)]
      exact selfTestFailed_retires two (by rw [watchdogNoted_unit]; exact third)
  · have step := routeRetire_step listed
    rw [if_pos ⟨run, suspect, due⟩] at step
    refine ⟨_, step, exec_frame step, ?_, ?_, fun k r listed => ?_⟩
    · unfold nbrRetiredNow
      rw [dropRoutes_nbr, State.event, (State_eventAt_only (.refl _) (.refl _ _)).plc rfl]
      exact setNbr_nbr
    · unfold nbrRetiredNow
      rw [dropRoutes_objects _ (by decide) (by decide), get_event (by decide) (by decide), get_bump_self, setNbr_objects _ (by decide) (by decide)]
    · simpa using dropRoutes_none listed
  · rw [routeRetire_step listed, if_neg (by omega)]

end Sys2Proof.Machine
end

section
/-! PROOF. The power-line port (R300, R232): tone maps and RETIRED neighbours. -/

namespace Sys2Proof.Machine

/-- A neighbour whose tone map is due. -/
def dueNbr : Nbr := { addr := 7 }

/-- The stack works and Ozmar is joined.  The neighbour table is not in its canonical form: entry 3 stands after entry 5, a RETIRED one of the same
short address. -/
def twiceHeard : State :=
  { mode := .run, ready := true, fn := 122880, dict := [(liveKey K.plcState, 3)], plc := { nbr := [(5, some { addr := 7, state := 2 }), (3, some dueNbr)] } }

/-- Refutes O56: TONE_MAP_REFRESH asks whether its neighbour is RETIRED once the refresh is noted in the table, and the note brings the table into
order.  The statement speaks of every state, also of one whose table is not in order: there the entry that a short address finds changes from a
RETIRED one to another, and the request goes to the modem. -/
theorem not_powerLineWorks : ¬ Obligations.PowerLineWorks := by
  unfold Obligations.PowerLineWorks
  rintro ⟨-, -, -, -, -, -, -, refresh, -⟩
  obtain ⟨due, -⟩ := refresh 3 dueNbr twiceHeard rfl (by decide +kernel)
  obtain ⟨t, step, -, -, retired, -⟩ := due (by decide)
  have asked : exec (.toneMapRefresh 3) twiceHeard = .next t → t.plc.ring14 ≠ [] := by
    intro e
    have := Host.Outcome.next.inj e
    subst this
    decide +kernel
  exact asked step (retired (by decide)).1

end Sys2Proof.Machine
end

section
/-! PROOF. The network time base (R305 to R311): announcements sent and received, and the end of HOLDOVER. -/

namespace Sys2Proof.Machine

variable {s t u : State}

/-! ### Announcements sent (R306, R307) -/

theorem buildAnn_bytes {num n : Int} {seq : Nat} : (buildAnn s num n seq).bytes.length = 32 := by
  simp only [buildAnn, List.length_append, le_length]

/-- ANNOUNCE_PERIOD has passed since the last announcement. -/
def annDue (s : State) : Bool :=
  match s.plc.annFn with | some f => decide (f + 1024 * s.cfg s.fn K.tbAnnouncePeriod ≤ s.fn) | none => true

/-- The announcement of the next cycle goes to the modem. -/
theorem announceSend_step {m : Int} (num : s.tb.num = some m) : exec .announceSend s = .next
    (if announces s && annDue s && decide (s.plc.ann = none) &&
        justStarted s m (tbCurrent s m (nowInstant s) + 1 - 1) && decide (nowInstant s < tbStart s m (tbCurrent s m (nowInstant s) + 1) - twoMs) then
      setPlc (fun p => { p with ann := some (buildAnn s m (tbCurrent s m (nowInstant s) + 1) ((s.plc.annSeq + 1) % 65536)),
                                annSeq := (s.plc.annSeq + 1) % 65536, annFn := some s.fn }) s
    else s) := by
  show execAnnounceSend s = _
  unfold execAnnounceSend
  rw [num]
  rfl

theorem announceAbandon_step {a : Ann} {m : Int} (waits : s.plc.ann = some a) (num : s.tb.num = some m) : exec .announceAbandon s = .next
    (if nowInstant s < a.deadline then s
    else setPlc (fun p => { p with ann := if announces s then some (buildAnn s m ((a.cycle : Int) + 1) p.annSeq) else none }) s) := by
  show execAnnounceAbandon s = _
  unfold execAnnounceAbandon
  rw [waits, num]

/-! ### Announcements received (R308 to R311) -/

/-- The senders heard and RX_FRAMES stand. -/
structure SameHeard (s t : State) : Prop where
  heard : t.tb.heard = s.tb.heard
  rx : t.live K.plcRxFrames = s.live K.plcRxFrames

namespace SameHeard

theorem refl (s : State) : SameHeard s s := ⟨rfl, rfl⟩

theorem trans (h : SameHeard s t) (k : SameHeard t u) : SameHeard s u := ⟨k.heard.trans h.heard, k.rx.trans h.rx⟩

theorem ite {c : Prop} [Decidable c] (ht : c → SameHeard s t) (hu : ¬c → SameHeard s u) : SameHeard s (if c then t else u) := by
  split
  · exact ht ‹_›
  · exact hu ‹_›

theorem setTb {g : Tb → Tb} (hg : ∀ x, (g x).heard = x.heard) (h : SameHeard s t) : SameHeard s (setTb g t) := h.trans ⟨hg t.tb, rfl⟩

theorem putLive {k v : Nat} (hk : k ≠ K.plcRxFrames) (h : SameHeard s t) : SameHeard s (t.putLive k v) :=
  h.trans ⟨congrArg Tb.heard ((State_putLive_only (.refl _) (.refl _ _)).tb rfl), live_putLive_ne hk⟩

theorem event {c : Nat} {l : List Nat} (h : SameHeard s t) : SameHeard s (t.event c l) :=
  h.trans ⟨congrArg Tb.heard ((State_eventAt_only (.refl _) (.refl _ _)).tb rfl), get_event (by decide) (by decide)⟩

theorem put {k v : Nat} (hk : k ≠ liveKey K.plcRxFrames) (h : SameHeard s t) : SameHeard s (t.put k v) := h.trans ⟨rfl, get_put_ne hk⟩

theorem putV {k v : Nat} (hk : k ≠ liveKey K.plcRxFrames) (h : SameHeard s t) : SameHeard s (t.putV k v) :=
  h.trans ⟨congrArg Tb.heard ((State_putV_only (.refl _) (.refl _ _)).tb rfl), get_putV_ne hk⟩

end SameHeard

theorem showDelta_heard (h : SameHeard s t) : SameHeard s (showDelta t) := h.putLive (by decide)

theorem tbSeat_heard {w lead : Nat} : SameHeard s (tbSeat w lead s) := by
  unfold tbSeat
  exact .ite (fun _ => SameHeard.setTb (fun _ => rfl) (.refl s)) (fun _ => .putLive (by decide) (.setTb (fun _ => rfl) (.refl s)))

theorem tbMove_heard {w lead cls : Nat} {comp : Bool} {y : Int} : SameHeard s (tbMove w lead cls comp y s) := by
  unfold tbMove
  extract_lets old s₁ s₂
  have moved : SameHeard s s₂ := .ite (fun _ => .setTb (fun _ => rfl) tbSeat_heard) (fun _ => tbSeat_heard)
  exact .ite (fun _ => moved) (fun _ => moved.event)

theorem tbAdopt_heard {a : Announcement} {cls : Nat} {e : Int} : SameHeard s (tbAdopt a cls e s) := by
  unfold tbAdopt
  extract_lets y s₁ c s₂ depth s₃
  have moved : SameHeard s s₁ := by
    refine .ite (fun _ => .setTb (fun _ => rfl) (.refl s)) (fun _ => ?_)
    split
    · exact tbMove_heard
    · exact tbMove_heard
  have shown : SameHeard s s₃ :=
    showDelta_heard (.putLive (by decide) (.putLive (by decide) (.putLive (by decide) (.setTb (fun _ => rfl) moved))))
  exact .ite (fun _ => .event (.setTb (fun _ => rfl) (shown.putLive (by decide)))) (fun _ => shown)

theorem tbCheck_heard {a : Announcement} {e y m : Int} : SameHeard s (tbCheck a e y m s) := by
  unfold tbCheck
  extract_lets errs s₁ j d s₂
  have meant : SameHeard s s₁ := .ite (fun _ => showDelta_heard (.setTb (fun _ => rfl) (.refl s))) (fun _ => .refl s)
  have shown : SameHeard s s₂ := (meant.putLive (by decide)).putLive (by decide)
  exact .ite (fun _ => .setTb (fun _ => rfl) shown) (fun _ => .ite (fun _ => .event (.setTb (fun _ => rfl) shown)) (fun _ => .setTb (fun _ => rfl) shown))

theorem acceptTime_heard {source time at_ : Nat} : SameHeard s (acceptTime source time at_ s).2.2 := by
  unfold acceptTime
  extract_lets k val other c kind x dev s₁ s₂ s₃
  have set : SameHeard s s₁ := ⟨rfl, rfl⟩
  have shown : SameHeard s s₃ := (((set.put (by decide)).put (by decide)).putV (by decide)).putV (by decide)
  exact .ite (fun _ => shown.event) (fun _ => shown)

theorem legalNote_heard {a b c d e f : Nat} : SameHeard s (legalNote a b c d e f s) := ((SameHeard.refl s).put (by decide)).event

theorem wallTime_heard {a : Announcement} {y : Int} : SameHeard s (wallTime a y s) := by
  unfold wallTime
  extract_lets y' at_ time free r
  have accepted : SameHeard s r.2.2 := acceptTime_heard
  exact .ite (fun _ => .ite (fun _ => .refl s) (fun _ => .ite (fun _ => .refl s)
    (fun _ => .setTb (fun _ => rfl) (accepted.trans legalNote_heard)))) (fun _ => .refl s)

/-- A follower notes the sender of an announcement, and goes on. -/
theorem follow_heard {a : Announcement} : SameHeard (noteHeard a s) (follow a s) := by
  unfold follow
  extract_lets s₁ y e k twice s₂ s₃
  have noted : SameHeard s₁ s₂ := .setTb (fun _ => rfl) (.refl s₁)
  have taken : SameHeard s₁ s₃ := by
    show SameHeard s₁ (match s₂.tb.num with
      | some m => if k ≠ s₂.tb.cls ∧ twice = true then tbAdopt a k e s₂ else tbCheck a e y m s₂
      | none => if twice then tbAdopt a k e s₂ else s₂)
    split
    · exact .ite (fun _ => noted.trans tbAdopt_heard) (fun _ => noted.trans tbCheck_heard)
    · exact .ite (fun _ => noted.trans tbAdopt_heard) (fun _ => noted)
  exact .ite (fun _ => .refl s₁) (fun _ => .ite (fun _ => wallTime_heard) (fun _ => taken.trans wallTime_heard))

theorem showNbr_live {j k : Nat} (hk : k < 0x131000) : (showNbr j s).live k = s.live k := by
  have aside : ∀ {i : Nat}, 0x131000 ≤ i → i ≠ k := fun hi => by omega
  unfold showNbr
  split
  · rw [live_putLive_ne (aside (by dsimp only [K.nbNLastFn]; omega)), live_putLive_ne (aside (by dsimp only [K.nbNState]; omega)),
      live_putLive_ne (aside (by dsimp only [K.nbNCost]; omega)), live_putLive_ne (aside (by dsimp only [K.nbNPhase]; omega)),
      live_putLive_ne (aside (by dsimp only [K.nbNRtx]; omega)), live_putLive_ne (aside (by dsimp only [K.nbNLqiRev]; omega)),
      live_putLive_ne (aside (by dsimp only [K.nbNLqiFwd]; omega)), live_putLive_ne (aside (by dsimp only [K.nbNAddr]; omega))]
  · rw [live_putLive_ne (aside (by dsimp only [K.nbNLastFn]; omega)), live_putLive_ne (aside (by dsimp only [K.nbNState]; omega)),
      live_putLive_ne (aside (by dsimp only [K.nbNCost]; omega)), live_putLive_ne (aside (by dsimp only [K.nbNPhase]; omega)),
      live_putLive_ne (aside (by dsimp only [K.nbNRtx]; omega)), live_putLive_ne (aside (by dsimp only [K.nbNLqiRev]; omega)),
      live_putLive_ne (aside (by dsimp only [K.nbNLqiFwd]; omega)), live_putLive_ne (aside (by dsimp only [K.nbNAddr]; omega))]

theorem setNbr_live {j k : Nat} {n : Option Nbr} (hk : k < 0x131000) : (setNbr j n s).live k = s.live k := showNbr_live hk

/-- The entry found for a sender is its own. -/
theorem nbrFor_addr {a : Nat} : (nbrFor s a).2.addr = a := by
  unfold nbrFor
  split
  next e found =>
    unfold nbrOf at found
    simpa using List.find?_some found
  next => rfl

/-- The sender of an announcement is noted as a neighbour. -/
def nbrHeard (a : Announcement) (s : State) : State :=
  setNbr (nbrFor s a.sender).1 (some { (nbrFor s a.sender).2 with
    rev := a.lqi % 256, lastFn := s.fn, phase := (classAt s ((a.a - a.q) * tbTap)).orElse (fun _ => (nbrFor s a.sender).2.phase) }) s

theorem nbrHeard_live {a : Announcement} {k : Nat} (hk : k < 0x131000) : (nbrHeard a s).live k = s.live k := setNbr_live hk

theorem nbrHeard_objects {a : Announcement} : SameObjects s (nbrHeard a s) := setNbr_objects

theorem nbrHeard_tb {a : Announcement} : (nbrHeard a s).tb = s.tb := (setNbr_only (.refl _) (.refl _ _)).tb rfl

theorem nbrHeard_commits {a : Announcement} : (nbrHeard a s).commits = s.commits := (setNbr_only (.refl _) (.refl _ _)).commits rfl

theorem nbrHeard_fn {a : Announcement} : (nbrHeard a s).fn = s.fn := (setNbr_only (.refl _) (.refl _ _)).fn rfl

/-- The entry noted stands in the table. -/
theorem nbrHeard_nbr {a : Announcement} : ∃ j n, tget none (nbrHeard a s).plc.nbr j = some n ∧ n.addr = a.sender ∧ n.rev = a.lqi % 256 ∧ n.lastFn = s.fn :=
  ⟨_, _, setNbr_nbr, nbrFor_addr, rfl, rfl⟩

/-- A frame of the power-line port is counted. -/
def rxCounted (s : State) : State := s.bumpLive K.plcRxFrames

theorem rxCounted_live {k : Nat} (hk : K.plcRxFrames ≠ k) : (rxCounted s).live k = s.live k := live_putLive_ne hk

theorem rxCounted_frames : (rxCounted s).live K.plcRxFrames = (s.live K.plcRxFrames + 1) % 2 ^ oBits K.plcRxFrames := live_putLive_self

theorem rxCounted_objects : SameObjects s (rxCounted s) := (SameObjects.refl s).putLive

theorem rxCounted_only : Only 36 s (rxCounted s) := State_bumpLive_only (.refl _) (.refl _ _)

theorem announcementReceive_discards {a : Announcement} (up : plcUp s = true) (h : a.secured = false ∨ plcState s ≠ 3) :
    exec (.announcementReceive a) s = .next ((rxCounted s).bumpLive K.plcRxDiscarded) := by
  have state : plcState (rxCounted s) = plcState s := rxCounted_live (by decide)
  exact congrArg _ ((if_pos up).trans (if_pos (by rwa [← state] at h)))

/-- What Ozmar does with an announcement in its PAN, once the sender is noted. -/
def announced (a : Announcement) (s : State) : State :=
  if tbState s = 0 then s
  else if tbLeader s s.fn then (if a.leader = s.get K.plcEui64 then s else s.bumpLive K.tbForeignLeaders)
  else follow a s

theorem announcementReceive_takes {a : Announcement} (up : plcUp s = true) (sec : a.secured = true) (h : plcState s = 3) :
    exec (.announcementReceive a) s = .next (announced a (nbrHeard a (rxCounted s))) := by
  have state : plcState (rxCounted s) = plcState s := rxCounted_live (by decide)
  exact congrArg _ ((if_pos up).trans (if_neg (fun bad => bad.elim (fun e => by simp [sec] at e) (fun n => n (state.trans h)))))

theorem announced_rx {a : Announcement} : (announced a s).live K.plcRxFrames = s.live K.plcRxFrames := by
  unfold announced
  split
  · rfl
  · split
    · split
      · rfl
      · exact live_putLive_ne (by decide)
    · exact follow_heard.rx

theorem announced_plc {a : Announcement} : (announced a s).plc = s.plc := by
  unfold announced
  split
  · rfl
  · split
    · split
      · rfl
      · exact (State_bumpLive_only (.refl _) (.refl _ _)).plc rfl
    · exact (follow_only (.refl _) (.refl _ _)).plc rfl

theorem announced_leader {a : Announcement} (on : tbState s ≠ 0) (lead : tbLeader s s.fn = true) : (announced a s).tb = s.tb ∧
    (announced a s).live K.tbForeignLeaders = (if a.leader = s.get K.plcEui64 then s.live K.tbForeignLeaders
      else (s.live K.tbForeignLeaders + 1) % 2 ^ oBits K.tbForeignLeaders) := by
  unfold announced
  rw [if_neg on, if_pos lead]
  split
  · exact ⟨rfl, rfl⟩
  · exact ⟨(State_bumpLive_only (.refl _) (.refl _ _)).tb rfl, live_putLive_self⟩

theorem announced_follower {a : Announcement} (on : tbState s ≠ 0) (lead : tbLeader s s.fn = false) :
    ∃ h ∈ (announced a s).tb.heard, h.sender = a.sender ∧ h.leader = a.leader ∧ h.fn = s.fn := by
  unfold announced
  rw [if_neg on, if_neg (by simp [lead]), follow_heard.heard]
  exact ⟨_, List.mem_cons_self, rfl, rfl, rfl⟩

/-! ### The end of HOLDOVER (R305) -/

theorem tbLose_tb {f : Nat} : (tbLose f s).tb.num = none ∧ (tbLose f s).tb.used = [] := by
  unfold tbLose tbSearch tbSetState
  have kept : ∀ {u : State} {k v : Nat}, (u.putDue f k v).tb = u.tb := (State_putDue_only (.refl _) (.refl _ _)).tb rfl
  dsimp only
  rw [kept, kept, kept, kept, kept, kept]
  exact ⟨rfl, rfl⟩

theorem tbLose_state {f : Nat} : tbState (tbLose f s) = 1 := by
  unfold tbLose tbSearch tbSetState tbState
  dsimp only
  rw [live_putDue_ne (by decide), live_putDue_self]

theorem tbLose_depth {f : Nat} : (tbLose f s).live K.tbDepth = 0xFF := by
  unfold tbLose tbSearch tbSetState
  dsimp only
  rw [live_putDue_ne (by decide), live_putDue_ne (by decide), live_putDue_ne (by decide), live_putDue_ne (by decide), live_putDue_ne (by decide),
    live_putDue_self]

theorem tbHoldoverExpiry_step : exec .tbHoldoverExpiry s = .next (if s.mode = .run ∧ s.tb.acc + 10240 ≤ s.fn then
    if tbState s = 3 then tbLose s.fn s
    else if tbState s = 1 ∧ s.tb.used ≠ [] then setTb (fun t => { t with p := 0, x := 0, used := [] }) s
    else s
  else s) := rfl

/-- Settles O57, by what `announceSend`, `announceAbandon` and `tbLose` leave, and by `follow_heard`: a follower notes the sender first. -/
theorem networkTimeBase : Obligations.NetworkTimeBase := by
  unfold Obligations.NetworkTimeBase
  refine ⟨fun m s num lead free => ⟨fun just early due => ?_, fun late => ?_, fun late => ?_, fun f last soon => ?_⟩,
    fun a m s waits num => ⟨fun early => ?_, fun late lead => ?_, fun late lead => ?_⟩, fun s none => ?_, fun a s up => ?_, fun a s down => ?_,
    fun s run => ⟨fun late hold => ?_, fun early => ?_⟩⟩
  · have ready : annDue s = true := by
      unfold annDue
      obtain h | ⟨f, h, late⟩ := due
      · rw [h]
      · rw [h]
        exact decide_eq_true late
    have step := announceSend_step num
    rw [if_pos (by simp only [Bool.and_eq_true, decide_eq_true_eq]; exact ⟨⟨⟨⟨lead, ready⟩, free⟩, just⟩, early⟩)] at step
    exact ⟨_, _, step, exec_frame step, rfl, rfl, buildAnn_bytes⟩
  · rw [announceSend_step num, if_neg (by simp only [late, Bool.and_false, Bool.false_and, Bool.false_eq_true, not_false_iff])]
  · rw [announceSend_step num, if_neg (by simp only [Bool.and_eq_true, decide_eq_true_eq]; omega)]
  · rw [announceSend_step num, if_neg (by simp only [annDue, last, Bool.and_eq_true, decide_eq_true_eq]; omega)]
  · exact (announceAbandon_step waits num).trans (congrArg _ (if_pos early))
  · refine ⟨_, buildAnn s m ((a.cycle : Int) + 1) s.plc.annSeq, (announceAbandon_step waits num).trans (congrArg _ ((if_neg (by omega)).trans ?_)), rfl,
      Int.toNat_natCast (a.cycle + 1), buildAnn_bytes⟩
    simp only [lead, if_true]
    rfl
  · refine (announceAbandon_step waits num).trans (congrArg _ ((if_neg (by omega)).trans ?_))
    simp only [lead]
    rfl
  · show execAnnounceAbandon s = _
    unfold execAnnounceAbandon
    rw [none]
  · by_cases good : a.secured = true ∧ plcState s = 3
    · obtain ⟨sec, state⟩ := good
      have step := announcementReceive_takes up sec state
      have fn : (nbrHeard a (rxCounted s)).fn = s.fn := nbrHeard_fn.trans (rxCounted_only.fn rfl)
      have tb : (nbrHeard a (rxCounted s)).tb = s.tb := nbrHeard_tb.trans (rxCounted_only.tb rfl)
      have objects : SameObjects s (nbrHeard a (rxCounted s)) := rxCounted_objects.trans nbrHeard_objects
      have eui : (nbrHeard a (rxCounted s)).get K.plcEui64 = s.get K.plcEui64 := objects _ (by decide) (by decide)
      have on : tbState (nbrHeard a (rxCounted s)) = tbState s := (nbrHeard_live (by decide)).trans (rxCounted_live (by decide))
      have foreign : (nbrHeard a (rxCounted s)).live K.tbForeignLeaders = s.live K.tbForeignLeaders :=
        (nbrHeard_live (by decide)).trans (rxCounted_live (by decide))
      have role : tbLeader (nbrHeard a (rxCounted s)) (nbrHeard a (rxCounted s)).fn = tbLeader s s.fn := by
        unfold tbLeader
        rw [fn, cfg_of_get (objects _ (by decide) (by decide)) (nbrHeard_commits.trans (rxCounted_only.commits rfl))]
      have leads := announced_leader (s := nbrHeard a (rxCounted s)) (a := a)
      have follows := announced_follower (s := nbrHeard a (rxCounted s)) (a := a)
      rw [on, role] at leads follows
      rw [eui, foreign, tb] at leads
      rw [fn] at follows
      refine ⟨_, step, exec_frame step, ?_, fun bad => ?_, fun _ _ => ?_, fun _ _ h0 hl => leads h0 hl, fun _ _ h0 hl => follows h0 hl⟩
      · rw [announced_rx, nbrHeard_live (by decide), rxCounted_frames]
      · simp [sec, state] at bad
      · obtain ⟨j, n, listed, addr, rev, heard⟩ := nbrHeard_nbr (s := rxCounted s) (a := a)
        exact ⟨j, n, (congrArg (fun x => tget none x.nbr j) announced_plc).trans listed, addr, rev, heard.trans (rxCounted_only.fn rfl)⟩
    · have bad : a.secured = false ∨ plcState s ≠ 3 := by
        cases h : a.secured
        · exact .inl rfl
        · exact .inr (fun e => good ⟨h, e⟩)
      have step := announcementReceive_discards up bad
      have dropped : Only 36 (rxCounted s) ((rxCounted s).bumpLive K.plcRxDiscarded) := State_bumpLive_only (.refl _) (.refl _ _)
      refine ⟨_, step, exec_frame step, ?_, fun _ => ⟨?_, (dropped.tb rfl).trans (rxCounted_only.tb rfl), (dropped.plc rfl).trans (rxCounted_only.plc rfl)⟩,
        fun h1 h2 => absurd ⟨h1, h2⟩ good, fun h1 h2 => absurd ⟨h1, h2⟩ good, fun h1 h2 => absurd ⟨h1, h2⟩ good⟩
      · exact (live_putLive_ne (by decide)).trans rxCounted_frames
      · exact live_putLive_self.trans (by rw [rxCounted_live (by decide)])
  · exact congrArg _ (if_neg (by simp [down]))
  · have step := tbHoldoverExpiry_step (s := s)
    rw [if_pos ⟨run, late⟩, if_pos hold] at step
    exact ⟨_, step, exec_frame step, tbLose_state, tbLose_tb.1, tbLose_tb.2, tbLose_depth⟩
  · rw [tbHoldoverExpiry_step, if_neg (fun h => by omega)]

end Sys2Proof.Machine
end

section
/-! PROOF. The Saddlebag's steps (R33 to R36, R91, R325 to R327, R335, R350): the end of a store, commits that take effect, the rotation, the hourly
store and the scrub. -/

namespace Sys2Proof.Machine

variable {s t u : State}

/-! ### A store writes its frame -/

/-- The objects that a store and its seal move: STORE_COUNT, the wear of a frame, WEAR_MAX, and what an event counts. -/
def storeKeys (fr : Nat) : List Nat := [K.storeCount, K.frameWear 0 fr, K.wearMax, K.stalls 5, K.eventsLost]

/-- A frame is worn by one store. -/
def frameWorn (fr : Nat) (s : State) : State :=
  let s := s.bump (K.frameWear 0 fr)
  let wear := s.get (K.frameWear 0 fr)
  let s := if s.get K.wearMax < wear then s.putV K.wearMax wear else s
  if wear = 90000000 then s.event 0x0608 [fr, wear] else s

theorem frameWorn_get {fr k : Nat} (hw : K.frameWear 0 fr ≠ k) (h : k ∉ [K.wearMax, K.stalls 5, K.eventsLost]) : (frameWorn fr s).get k = s.get k := by
  simp only [List.mem_cons, List.not_mem_nil, or_false, not_or] at h
  obtain ⟨hm, h5, hl⟩ := h
  unfold frameWorn
  extract_lets s₁ wear s₂
  have first : s₁.get k = s.get k := get_bump_ne hw
  have second : s₂.get k = s.get k := by
    show (if s₁.get K.wearMax < wear then s₁.putV K.wearMax wear else s₁).get k = _
    split
    · rw [get_putV_ne (Ne.symm hm), first]
    · exact first
  split
  · rw [get_event (Ne.symm h5) (Ne.symm hl), second]
  · exact second

theorem frameWorn_only {fr : Nat} : Only 33554564 s (frameWorn fr s) := by
  unfold frameWorn
  extract_lets s₁ wear s₂
  have first : Only 33554564 s s₁ := State_bump_only ((Within.refl _).of rfl) (.refl _ _)
  have second : Only 33554564 s s₂ := .ite (fun _ => State_putV_only ((Within.refl _).of rfl) first) (fun _ => first)
  exact .ite (fun _ => State_event_only ((Within.refl _).of rfl) second) (fun _ => second)

theorem writeFrame_seals {v : Bool} {j : Job} : (writeFrame v j s).seals =
    tset {} (frameWorn (frameOf s j.page j.half) (s.bumpV K.storeCount)).seals (frameOf s j.page j.half)
      (Seal.mk ((writeFrame v j s).get K.storeCount) j.fn v (j.img.getD {})) := rfl

theorem writeFrame_get {v : Bool} {j : Job} {k : Nat} (h : k ∉ storeKeys (frameOf s j.page j.half)) : (writeFrame v j s).get k = s.get k := by
  simp only [storeKeys, List.mem_cons, List.not_mem_nil, or_false, not_or] at h
  obtain ⟨hc, hw, hm, h5, hl⟩ := h
  have worn : (frameWorn (frameOf s j.page j.half) (s.bumpV K.storeCount)).get k = (s.bumpV K.storeCount).get k :=
    frameWorn_get (Ne.symm hw) (by simp only [List.mem_cons, List.not_mem_nil, or_false, not_or]; exact ⟨hm, h5, hl⟩)
  exact worn.trans (get_putV_ne (Ne.symm hc))

theorem writeFrame_count {v : Bool} {j : Job} :
    (writeFrame v j s).get K.storeCount = (s.get K.storeCount + 1) % 2 ^ oBits K.storeCount := by
  have worn : (frameWorn (frameOf s j.page j.half) (s.bumpV K.storeCount)).get K.storeCount = (s.bumpV K.storeCount).get K.storeCount :=
    frameWorn_get (by dsimp only [K.frameWear, K.storeCount]; omega) (by decide)
  exact worn.trans get_putV_self

/-- The seal that a store writes. -/
theorem writeFrame_seal {v : Bool} {j : Job} : tget {} (writeFrame v j s).seals (frameOf s j.page j.half) =
    { count := (s.get K.storeCount + 1) % 2 ^ oBits K.storeCount, fn := j.fn, ok := v, img := j.img.getD {} } := by
  rw [← writeFrame_count (v := v) (j := j), writeFrame_seals]
  exact tget_tset_self

theorem writeFrame_seal_ne {v : Bool} {j : Job} {f : Nat} (h : f ≠ frameOf s j.page j.half) : tget {} (writeFrame v j s).seals f = tget {} s.seals f := by
  rw [writeFrame_seals]
  refine (tget_tset_ne (Ne.symm h)).trans (congrArg (fun x => tget _ x f) ?_)
  exact (frameWorn_only.seals rfl).trans ((State_bumpV_only (.refl _) (.refl _ _)).seals rfl)

/-! ### A verified store serves its page -/

theorem takeWrite_serves {k : Job} {p : Nat} : (tget {} (takeWrite k s).pages p).serveB = (tget {} s.pages p).serveB ∧
    (tget {} (takeWrite k s).pages p).stat = (tget {} s.pages p).stat := by
  have kept : ∀ {f : PageS → PageS}, (∀ x, (f x).serveB = x.serveB ∧ (f x).stat = x.stat) →
      (tget {} (modPage k.page f s).pages p).serveB = (tget {} s.pages p).serveB ∧
        (tget {} (modPage k.page f s).pages p).stat = (tget {} s.pages p).stat := fun {f} hf => by
    unfold modPage tmod
    dsimp only
    by_cases e : k.page = p
    · subst e
      rw [tget_tset_self]
      exact hf _
    · rw [tget_tset_ne e]
      exact ⟨rfl, rfl⟩
  unfold takeWrite
  split
  · exact kept (fun _ => ⟨rfl, rfl⟩)
  · exact kept (fun _ => ⟨rfl, rfl⟩)
  · exact ⟨rfl, rfl⟩

/-- What a verified store brings about, until what waited for it is acknowledged. -/
structure Served (j : Job) (js : List Job) (s t : State) : Prop where
  serve : (tget {} t.pages j.page).serveB = j.half
  stat : (tget {} t.pages j.page).stat = 0
  jobs : ∃ l, t.jobs.map (fun x => x.page) = js.map (fun x => x.page) ++ l
  get : ∀ k, K.stalls 5 ≠ k → K.eventsLost ≠ k → t.get k = s.get k

theorem storeSealed_served {j : Job} {js : List Job} : Served j js s (storeSealed j js s) := by
  unfold storeSealed
  extract_lets h fr u s₁ s₂ s₃
  have noted : ∀ k, K.stalls 5 ≠ k → K.eventsLost ≠ k → s₁.get k = s.get k := fun k h5 hl => by
    show (if u.state = 1 then _ else s).get k = _
    split
    · exact get_event h5 hl
    · rfl
  have page : tget {} s₂.pages j.page = { tget {} s₁.pages j.page with serveB := h, single := j.single, stat := 0 } := tget_tset_self
  have held : ∀ o : Option Job, ∀ v : State, v = (match o with | some k => takeWrite k s₂ | none => s₂) →
      Only 8589934592 s₂ v ∧ (tget {} v.pages j.page).serveB = h ∧ (tget {} v.pages j.page).stat = 0 := by
    rintro (_ | k) v rfl
    · exact ⟨.refl _ _, congrArg PageS.serveB page, congrArg PageS.stat page⟩
    · exact ⟨takeWrite_only (.refl _) (.refl _ _), takeWrite_serves.1.trans (congrArg PageS.serveB page), takeWrite_serves.2.trans (congrArg PageS.stat page)⟩
  obtain ⟨only, serve, stat⟩ := held _ s₃ rfl
  have jobs : s₃.jobs = js := only.jobs rfl
  have dict : s₃.dict = s₁.dict := only.dict rfl
  clear_value s₃
  have pumped : Only 6442459136 s₃ (pumpRolls (startHead (dropSlots j.page s₃))) := pumpRolls_only (.refl _)
    (startHead_only ((Within.refl _).of rfl) (dropSlots_only ((Within.refl _).of rfl) (.refl _ _)))
  refine ⟨by rw [pumped.pages rfl]; exact serve, by rw [pumped.pages rfl]; exact stat,
    ⟨(startHead (dropSlots j.page s₃)).rollq.take (128 - hallJobs (startHead (dropSlots j.page s₃))), ?_⟩, fun k h5 hl => ?_⟩
  · rw [pumpRolls_jobs, startHead_map jobField_page, (dropSlots_only (.refl _) (.refl _ _)).jobs rfl, jobs]
  · exact (get_of_dict (pumped.dict rfl |>.trans dict) k).trans (noted k h5 hl)

/-- The rows, the seal and the page of a verified store, before what waited for it is acknowledged. -/
def sealedNow (j : Job) (js : List Job) (s : State) : State := showLegal j.page (showPage j.page (storeSealed j js (writeFrame true j s)))

theorem pageStoreComplete_seals {j : Job} {js : List Job} (run : s.mode = .run ∨ s.mode = .recovery) (jobs : s.jobs = j :: js) :
    exec (.pageStoreComplete true) s = .next (runAck j.ack (sealedNow j js s)) := by
  show execPageStoreComplete true s = _
  unfold execPageStoreComplete
  rw [if_pos run, jobs]
  rfl

theorem pageStoreComplete_fails {j : Job} {js : List Job} (run : s.mode = .run ∨ s.mode = .recovery) (jobs : s.jobs = j :: js) :
    exec (.pageStoreComplete false) s = .next (showPage j.page (storeFailed j js (writeFrame false j s))) := by
  show execPageStoreComplete false s = _
  unfold execPageStoreComplete
  rw [if_pos run, jobs]
  rfl

theorem showLegal_get {p k : Nat} (h : k < 0x703801 ∨ 0x703F01 < k) : (showLegal p s).get k = s.get k := by
  unfold showLegal
  extract_lets i st
  split
  next legal =>
    have page : 160 ≤ p ∧ p < 176 := of_decide_eq_true legal.1
    exact get_putV_ne (by dsimp only [K.legalTwinState]; omega)
  next => rfl

theorem showPage_get {p k : Nat} (hp : p < 1024) (h : k < 0x700400 ∨ 0x7007FF < k) : (showPage p s).get k = s.get k :=
  get_put_ne (by dsimp only [K.pageStatus]; omega)

/-- Objects that the end of a store leaves. -/
def StoreAside (fr k : Nat) : Prop := k ∉ storeKeys fr ∧ (k < 0x700400 ∨ 0x7007FF < k) ∧ (k < 0x703801 ∨ 0x703F01 < k)

theorem sealedNow_get {j : Job} {js : List Job} {k : Nat} (hp : j.page < 1024) (h : StoreAside (frameOf s j.page j.half) k) :
    (sealedNow j js s).get k = s.get k := by
  obtain ⟨hk, page, legal⟩ := h
  have counters := hk
  simp only [storeKeys, List.mem_cons, List.not_mem_nil, or_false, not_or] at counters
  obtain ⟨-, -, -, h5, hl⟩ := counters
  exact (showLegal_get legal).trans ((showPage_get hp page).trans ((storeSealed_served.get k (Ne.symm h5) (Ne.symm hl)).trans (writeFrame_get hk)))

theorem sealedNow_count {j : Job} {js : List Job} (hp : j.page < 1024) :
    (sealedNow j js s).get K.storeCount = (s.get K.storeCount + 1) % 2 ^ oBits K.storeCount :=
  (showLegal_get (by decide)).trans ((showPage_get hp (by decide)).trans
    ((storeSealed_served.get _ (by decide) (by decide)).trans writeFrame_count))

theorem sealedNow_seals {j : Job} {js : List Job} : (sealedNow j js s).seals = (writeFrame true j s).seals :=
  ((showLegal_only (.refl _) (.refl _ _)).seals rfl).trans (((showPage_only (.refl _) (.refl _ _)).seals rfl).trans
    ((storeSealed_only (.refl _) (.refl _ _)).seals rfl))

theorem sealedNow_pages {j : Job} {js : List Job} : (sealedNow j js s).pages = (storeSealed j js (writeFrame true j s)).pages :=
  ((showLegal_only (.refl _) (.refl _ _)).pages rfl).trans ((showPage_only (.refl _) (.refl _ _)).pages rfl)

theorem sealedNow_jobs {j : Job} {js : List Job} : (sealedNow j js s).jobs = (storeSealed j js (writeFrame true j s)).jobs :=
  ((showLegal_only (.refl _) (.refl _ _)).jobs rfl).trans ((showPage_only (.refl _) (.refl _ _)).jobs rfl)

/-- What no acknowledgement needs from the pages: the sum of what the end of a store touches. -/
theorem sealedNow_only {j : Job} {js : List Job} : Only 66605555844 s (sealedNow j js s) :=
  showLegal_only ((Within.refl _).of rfl) (showPage_only ((Within.refl _).of rfl)
    (storeSealed_only ((Within.refl _).of rfl) (writeFrame_only ((Within.refl _).of rfl) (.refl _ _))))

/-! ### The acknowledgement of a commit (R34) -/

/-- The objects that an acknowledgement sets beside the values of its commit. -/
def ackKeys : List Nat := [K.sesKeysSet, K.plcPskSet, K.lastCommitB, K.lastCommitTxn, K.txnCommits, liveKey K.leaseState, liveKey K.activateB]

/-- No object of a transaction is among them. -/
theorem not_ackKeys {k : Nat} {r : Row} (row : rowOf k = some r) (txn : r.has 0 = true) : k ∉ ackKeys := by
  intro h
  have plain : ∀ k ∈ ackKeys, (rowOf k).all (fun r => !r.has 0) = true := by decide +kernel
  simpa [row, txn] using plain k h

theorem showKeys_get {vals : List (Nat × Nat)} {k : Nat} (h1 : K.sesKeysSet ≠ k) (h2 : K.plcPskSet ≠ k) : (showKeys vals s).get k = s.get k := by
  unfold showKeys
  extract_lets s₁
  have roles : s₁.get k = s.get k := by
    refine List.foldlRecOn (List.range 5) _ (motive := fun (u : State) => u.get k = s.get k) rfl (fun u hu r _ => ?_)
    split
    · rw [get_put_ne h1, hu]
    · exact hu
  clear_value s₁
  split
  · rw [get_put_ne h2, roles]
  · exact roles

end Sys2Proof.Machine
end

section
/-! PROOF. The end of a store with what waited for it (R34, R230, R325 to R327). -/

namespace Sys2Proof.Machine

variable {s t u : State}

theorem activateGone_iff {eff : Eff} : activateGone eff s = true ↔ ∃ k, eff = .activate k ∧ (s.img.lease = none ∨ leaseState s ≠ 2) := by
  unfold activateGone leaseState
  cases eff with
  | activate k => simp
  | _ => simp

/-- A commit whose activation is gone is not acknowledged. -/
theorem ackCommit_gone {i txn nb port role : Nat} {eff : Eff} {vals : List (Nat × Nat)} (h : activateGone eff s = true) :
    (ackCommit i txn nb port role eff vals s).commits = s.commits ∧ (ackCommit i txn nb port role eff vals s).srv.busy = false := by
  unfold ackCommit
  rw [if_pos h]
  exact ⟨(answer_only (.refl _) (.refl _ _)).commits rfl, answer_busy⟩

/-- The commit that an acknowledgement brings. -/
def ackedCommit (txn nb port role : Nat) (eff : Eff) (vals : List (Nat × Nat)) (s : State) : Commit :=
  { b := commitB s s.fn nb eff, d := s.fn, txn := txn, chg := vals.map (fun e => Chg.mk e.1 (s.get e.1) e.2), eff := eff, done := false, port := port, role := role }

/-- An activation is carried on by the handover. -/
def carriedOn (eff : Eff) (b : Nat) (s : State) : State :=
  match eff with
  | .activate k =>
    ({ s with img := { s.img with hand := some { slot := k, b := b, digest := (s.img.lease.map (fun (l : Lease) => l.digest)).getD [] } } }.putLive
      K.leaseState 3).putLive K.activateB b
  | _ => s

theorem carriedOn_same {eff : Eff} {b : Nat} : (carriedOn eff b s).commits = s.commits ∧ (carriedOn eff b s).srv = s.srv ∧
    ∀ k, k ∉ ackKeys → (carriedOn eff b s).get k = s.get k := by
  cases eff with
  | activate k =>
    unfold carriedOn
    refine ⟨((State_putLive_only (.refl _) (.refl _ _)).commits rfl).trans ((State_putLive_only (.refl _) (.refl _ _)).commits rfl),
      ((State_putLive_only (.refl _) (.refl _ _)).srv rfl).trans ((State_putLive_only (.refl _) (.refl _ _)).srv rfl), fun j hj => ?_⟩
    simp only [ackKeys, List.mem_cons, List.not_mem_nil, or_false, not_or] at hj
    obtain ⟨-, -, -, -, -, hstate, hb⟩ := hj
    exact (get_putLive_ne (Ne.symm hb)).trans (get_putLive_ne (Ne.symm hstate))
  | _ => exact ⟨rfl, rfl, fun _ _ => rfl⟩

/-- A commit with its values, its counters and the objects that count as committed. -/
def ackNoted (c : Commit) (vals : List (Nat × Nat)) (s : State) : State :=
  let s := showKeys vals (s.puts vals)
  let s := (State.put { s with commits := s.commits ++ [c] } K.lastCommitB c.b).put K.lastCommitTxn c.txn
  let s := if c.eff = .write then s.bump K.txnCommits else s
  setSrv (fun v => { v with busy := false }) (noteAcked (vals.map (fun e => e.1) ++ effKeys c.eff) s)

theorem ackNoted_commits {c : Commit} {vals : List (Nat × Nat)} : (ackNoted c vals s).commits = s.commits ++ [c] := by
  unfold ackNoted
  extract_lets s₁ s₂ s₃
  have one : s₁.commits = s.commits := (showKeys_only (.refl _) (State_puts_only (.refl 4) (.refl _ _))).commits rfl
  have three : s₃.commits = s₂.commits := by
    show (if c.eff = .write then s₂.bump K.txnCommits else s₂).commits = _
    split
    · rfl
    · rfl
  exact three.trans (congrArg (· ++ [c]) one)

theorem ackNoted_get {c : Commit} {vals : List (Nat × Nat)} {k : Nat} (h : k ∉ ackKeys) : (ackNoted c vals s).get k = (s.puts vals).get k := by
  simp only [ackKeys, List.mem_cons, List.not_mem_nil, or_false, not_or] at h
  obtain ⟨hkeys, hpsk, hb, htxn, hcommits, -, -⟩ := h
  unfold ackNoted
  extract_lets s₁ s₂ s₃
  have two : s₂.get k = (s.puts vals).get k :=
    (get_put_ne (Ne.symm htxn)).trans ((get_put_ne (Ne.symm hb)).trans (showKeys_get (Ne.symm hkeys) (Ne.symm hpsk)))
  have three : s₃.get k = (s.puts vals).get k := by
    show (if c.eff = .write then s₂.bump K.txnCommits else s₂).get k = _
    split
    · rw [get_bump_ne (Ne.symm hcommits), two]
    · exact two
  exact three

/-- An acknowledged commit waits for its B, and its values count as committed. -/
theorem ackCommit_takes {i txn nb port role : Nat} {eff : Eff} {vals : List (Nat × Nat)} (h : activateGone eff s = false) :
    (ackCommit i txn nb port role eff vals s).commits = s.commits ++ [ackedCommit txn nb port role eff vals s] ∧
      (ackCommit i txn nb port role eff vals s).srv.busy = false ∧
      ∀ k, k ∉ ackKeys → (ackCommit i txn nb port role eff vals s).get k = (s.puts vals).get k := by
  have eq : ackCommit i txn nb port role eff vals s =
      answer i 0 (ackData (carriedOn eff (commitB s s.fn nb eff) (ackNoted (ackedCommit txn nb port role eff vals s) vals s)) txn (commitB s s.fn nb eff) eff)
        (carriedOn eff (commitB s s.fn nb eff) (ackNoted (ackedCommit txn nb port role eff vals s) vals s)) := by
    unfold ackCommit
    rw [if_neg (by rw [h]; decide)]
    rfl
  rw [eq]
  obtain ⟨commits, srv, get⟩ := carriedOn_same (s := ackNoted (ackedCommit txn nb port role eff vals s) vals s) (eff := eff) (b := commitB s s.fn nb eff)
  refine ⟨?_, ?_, fun k hk => ?_⟩
  · exact ((answer_only (.refl _) (.refl _ _)).commits rfl).trans (commits.trans ackNoted_commits)
  · exact answer_busy.trans (congrArg Srv.busy srv)
  · exact (get_of_dict ((answer_only (.refl _) (.refl _ _)).dict rfl) k).trans ((get k hk).trans (ackNoted_get hk))

/-! ### What a failed store brings about -/

theorem retireFrame_seals {p : Nat} {h : Bool} : (retireFrame p h s).seals = s.seals := (retireFrame_only (.refl _) (.refl _ _)).seals rfl

theorem retireFrame_counts {p : Nat} {h : Bool} : (retireFrame p h s).get K.framesRetired = (s.get K.framesRetired + 1) % 2 ^ oBits K.framesRetired := by
  unfold retireFrame
  extract_lets fr s₁ s₂
  have counted : s₂.get K.framesRetired = (s.get K.framesRetired + 1) % 2 ^ oBits K.framesRetired :=
    (get_event (by decide) (by decide)).trans get_bump_self
  split
  next sp found =>
    extract_lets s₃ left s₄
    have put : s₄.get K.framesRetired = s₂.get K.framesRetired := get_put_ne (by decide)
    split
    · exact ((get_event (by decide) (by decide)).trans put).trans counted
    · exact put.trans counted
  next => exact (get_event (by decide) (by decide)).trans counted

/-- A failed store is repeated, or its frame is RETIRED. -/
theorem storeFailed_effects {j : Job} {js : List Job} : (storeFailed j js s).seals = s.seals ∧
    (j.tries < 3 → (storeFailed j js s).jobs = { j with tries := j.tries + 1 } :: js ∧ (storeFailed j js s).pages = s.pages ∧
      (storeFailed j js s).get K.frameRetries = (s.get K.frameRetries + 1) % 2 ^ oBits K.frameRetries) ∧
    (3 ≤ j.tries → (storeFailed j js s).jobs =
        { j with tries := 0, half := if (tget {} (storeFailed j js s).pages j.page).oneFrame then !j.half else j.half } :: js ∧
      (storeFailed j js s).get K.framesRetired = (s.get K.framesRetired + 1) % 2 ^ oBits K.framesRetired) := by
  unfold storeFailed
  extract_lets h fr u s₁ t₁
  have first : Only 34393293188 s s₁ ∧ s₁.get K.frameRetries = s.get K.frameRetries := by
    show Only 34393293188 s (if u.state = 0 then _ else s) ∧ (if u.state = 0 then _ else s).get K.frameRetries = _
    split
    · exact ⟨State_event_only ((Within.refl _).of rfl) (Only.u_units ((Within.refl _).of rfl) (.refl _ _)), get_event (by decide) (by decide)⟩
    · exact ⟨.refl _ _, rfl⟩
  obtain ⟨only, get⟩ := first
  split
  next few => exact ⟨only.seals rfl, fun _ => ⟨rfl, only.pages rfl, get_bump_self.trans (by rw [get])⟩, fun many => absurd few (by omega)⟩
  next many => exact ⟨retireFrame_seals, fun few => absurd few many, fun _ => ⟨rfl, retireFrame_counts⟩⟩

/-! ### The end of a store -/

theorem storeAside_lastB {fr : Nat} : StoreAside fr K.lastCommitB := by
  refine ⟨?_, by decide, by decide⟩
  simp only [storeKeys, List.mem_cons, List.not_mem_nil, or_false, not_or]
  exact ⟨by decide, by dsimp only [K.lastCommitB, K.frameWear]; omega, by decide, by decide, by decide⟩

theorem storeAside_lease {fr : Nat} (h : fr < 2112) : StoreAside fr (liveKey K.leaseState) := by
  refine ⟨?_, by decide, by decide⟩
  simp only [storeKeys, List.mem_cons, List.not_mem_nil, or_false, not_or]
  exact ⟨by decide, by dsimp only [liveKey, K.leaseState, K.frameWear]; omega, by decide, by decide, by decide⟩

/-- The acknowledgement of a store leaves the pages, the seals and the stores. -/
theorem runAck_stores {a : Ack} : (runAck a s).pages = s.pages ∧ (runAck a s).seals = s.seals ∧ (runAck a s).jobs = s.jobs :=
  have only := runAck_only (a0 := a) (s := s) (.refl _) (.refl _ _)
  ⟨only.pages rfl, only.seals rfl, only.jobs rfl⟩

/-- What counts an activation as gone is not moved by the end of a store. -/
theorem sealedNow_gone {j : Job} {js : List Job} {eff : Eff} (hp : j.page < 1024) (hf : frameOf s j.page j.half < 2112) :
    activateGone eff (sealedNow j js s) = activateGone eff s := by
  have state : leaseState (sealedNow j js s) = leaseState s := sealedNow_get hp (storeAside_lease hf)
  have lease : (sealedNow j js s).img = s.img := sealedNow_only.img rfl
  rw [Bool.eq_iff_iff, activateGone_iff, activateGone_iff, state, lease]

/-- The acknowledgement of a commit once its record is sealed. -/
theorem sealedNow_commit {j : Job} {js : List Job} {i txn nb port role : Nat} {eff : Eff} {vals : List (Nat × Nat)} (hp : j.page < 1024)
    (hf : frameOf s j.page j.half < 2112) (taken : activateGone eff s = false) :
    ∃ c, (ackCommit i txn nb port role eff vals (sealedNow j js s)).commits = s.commits ++ [c] ∧ c.d = s.fn ∧ c.txn = txn ∧ c.eff = eff ∧ c.done = false ∧
      c.chg.map (fun g => (g.key, g.new)) = vals ∧ c.b = commitB s s.fn nb eff ∧
      (ackCommit i txn nb port role eff vals (sealedNow j js s)).srv.busy = false ∧
      ∀ k v r, vals = [(k, v)] → rowOf k = some r → r.has 0 = true → (ackCommit i txn nb port role eff vals (sealedNow j js s)).get k = v := by
  obtain ⟨commits, idle, get⟩ := ackCommit_takes (s := sealedNow j js s) (i := i) (txn := txn) (nb := nb) (port := port) (role := role) (vals := vals)
    ((sealedNow_gone hp hf).trans taken)
  have fn : (sealedNow j js s).fn = s.fn := sealedNow_only.fn rfl
  refine ⟨_, commits.trans (by rw [sealedNow_only.commits rfl]), fn, rfl, rfl, rfl, ?_, ?_, idle, fun k v r single row txn_ => ?_⟩
  · exact (List.map_map ..).trans (List.map_id' vals)
  · show commitB (sealedNow j js s) (sealedNow j js s).fn nb eff = _
    unfold commitB
    rw [fn, sealedNow_get hp storeAside_lastB]
  · rw [get k (not_ackKeys row txn_), single]
    exact get_put_self

/-- A verified store: its seal, its page and its acknowledgement. -/
theorem pageStoreComplete_verified {j : Job} {js : List Job} (hp : j.page < 1024) : ∀ t, t = runAck j.ack (sealedNow j js s) →
    tget {} t.seals (frameOf s j.page j.half) =
        { count := (s.get K.storeCount + 1) % 2 ^ oBits K.storeCount, fn := j.fn, ok := true, img := j.img.getD {} } ∧
      (∀ f, f ≠ frameOf s j.page j.half → tget {} t.seals f = tget {} s.seals f) ∧
      (tget {} t.pages j.page).serveB = j.half ∧ (tget {} t.pages j.page).stat = 0 ∧
      (∃ l, t.jobs.map (fun x => x.page) = js.map (fun x => x.page) ++ l) ∧
      (j.ack = .none → t.commits = s.commits ∧ t.get K.storeCount = (s.get K.storeCount + 1) % 2 ^ oBits K.storeCount) := by
  rintro t rfl
  obtain ⟨pages, seals, jobs⟩ := runAck_stores (s := sealedNow j js s) (a := j.ack)
  have served := storeSealed_served (j := j) (js := js) (s := writeFrame true j s)
  rw [pages, seals, jobs, sealedNow_pages, sealedNow_seals, sealedNow_jobs]
  refine ⟨writeFrame_seal, fun f hf => writeFrame_seal_ne hf, served.serve, served.stat, served.jobs, fun none => ?_⟩
  rw [none]
  exact ⟨sealedNow_only.commits rfl, sealedNow_count hp⟩

end Sys2Proof.Machine
end

section
/-! PROOF. Commits that take effect, the rotation, the hourly store and the scrub (R33, R91, R335, R350). -/

namespace Sys2Proof.Machine

variable {s t u : State}

/-! ### Commits that take effect (R33, R35) -/

theorem takeOne_gens {c : Commit} : (takeOne c s).gens = (c.b, (s.genOf c.b + 1) % 2 ^ 32) :: s.gens := by
  unfold takeOne
  rw [(effTake_only (.refl _) (.refl _ _)).gens rfl, (noteCal_only (.refl _) (.refl _ _)).gens rfl, (noteLegal_only (.refl _) (.refl _ _)).gens rfl]
  rfl

theorem takeOnes_gens {l : List Commit} : (l.foldl (fun s c => takeOne c s) s).gens.length = s.gens.length + l.length := by
  induction l generalizing s with
  | nil => rfl
  | cons c l ih =>
    rw [List.foldl_cons, ih, takeOne_gens, List.length_cons, List.length_cons]
    omega

theorem settingsTakes_only {l : List Nat} : Only 1114932964 s (l.foldl (fun s b => settingsTake b s) s) :=
  .foldl (fun _ _ h => settingsTake_only (.refl _) h) (.refl _ _)

theorem commitTakesEffect_step (run : s.mode = .run ∨ s.mode = .recovery) : exec .commitTakesEffect s = .next
    ((dueCommits s).foldl (fun s c => takeOne c s) ((framesOf (dueCommits s)).foldl (fun s b => settingsTake b s) (markDone s))) :=
  congrArg _ (if_pos run)

/-! ### The rotation (R335) -/

theorem checkTotal_roll {f c k : Nat} (hc : c < 256) (hk : k < 8) : (checkTotal f c k s).live K.rollPosition = s.live K.rollPosition := by
  unfold checkTotal
  extract_lets a b noted
  have counted : noted.live K.rollPosition = s.live K.rollPosition := get_eventAt (by decide) (by decide)
  split
  · rfl
  · unfold putReg setFlag
    rw [live_put_frac (by dsimp only [K.cctReg]; omega), live_putDue_ne (by dsimp only [K.cctReg, K.rollPosition]; omega),
      live_putDue_ne (by dsimp only [K.cctWrap, K.rollPosition]; omega), live_putDue_ne (by dsimp only [K.cctFlags, K.rollPosition]; omega)]
    exact (get_bump_ne (by dsimp only [K.cctInvariantFaults, liveKey, K.rollPosition]; omega)).trans counted

theorem checkTotals_roll {f c : Nat} (hc : c < 256) : (checkTotals f c s).live K.rollPosition = s.live K.rollPosition :=
  List.foldlRecOn (List.range 8) _ (motive := fun (u : State) => u.live K.rollPosition = s.live K.rollPosition) rfl
    (fun _ h _ hk => (checkTotal_roll hc (List.mem_range.mp hk)).trans h)

theorem postRoll_roll {p : Nat} : (postRoll p s).live K.rollPosition = s.live K.rollPosition := by
  unfold postRoll
  split
  · rfl
  · refine (get_of_dict ((pumpRolls_only (.refl _) (.refl _ _)).dict rfl) _).trans ?_
    show (if hallJobs s < 128 then s else s.bump (K.stalls 6)).live K.rollPosition = _
    split
    · rfl
    · exact get_bump_ne (by decide)

/-- The rotation stands at the position it has reached. -/
theorem rollPosition_shows {c : Nat} (hc : c < 256) : (rollPosition c s).live K.rollPosition = c := by
  have shown : (s.putLive K.rollPosition c).live K.rollPosition = c := live_putLive_self
  unfold rollPosition
  extract_lets tRoll s₁ r skip s₂ ps
  have checked : s₂.live K.rollPosition = c := by
    show (if skip then s₁ else checkTotals (s₁.bill.next - 1) c (keepRatios c s₁)).live K.rollPosition = c
    split
    · exact shown
    · exact (checkTotals_roll hc).trans shown
  split
  · exact List.foldlRecOn _ _ (motive := fun (u : State) => u.live K.rollPosition = c) checked (fun _ h _ _ => postRoll_roll.trans h)
  · exact List.foldlRecOn _ _ (motive := fun (u : State) => u.live K.rollPosition = c) shown
      (fun _ h _ _ => (get_of_dict ((postJob_only (.refl _) (.refl _ _)).dict rfl) _).trans h)

theorem rollPosition_step : exec .rollPosition s = .next
    (if (s.mode = .run ∨ s.mode = .recovery) ∧ s.fn % (4 * s.cfg s.fn K.rollPeriod) = 0 ∧ s.pwr.rollAt ≠ some s.fn then
      rollPosition (s.fn / (4 * s.cfg s.fn K.rollPeriod) % 256) { s with pwr := { s.pwr with rollAt := some s.fn } }
    else s) := rfl

/-! ### The hourly store (R91) -/

theorem tget_tset_other {d e a : Nat} {x : Tab Nat} {k j : Nat} (h : k ≠ j) : tget d (tset e x k a) j = tget d x j := by
  unfold tset
  split
  · exact tget_tdel_ne h
  · rw [tget_tins, if_neg h]

/-- A table filled object by object holds each one's number. -/
theorem tget_filled {f : Nat → Nat} {l : List Nat} {x : Tab Nat} {k : Nat} (h : k ∈ l ∨ tget (oDefault k) x k = f k) :
    tget (oDefault k) (l.foldl (fun t k => tset (oDefault k) t k (f k)) x) k = f k := by
  induction l generalizing x with
  | nil => exact h.resolve_left (List.not_mem_nil)
  | cons a l ih =>
    refine ih ?_
    by_cases e : a = k
    · subst e
      exact .inr tget_tset_self
    · rw [tget_tset_other e]
      exact h.imp_left (fun m => (List.mem_cons.mp m).resolve_left (fun c => e c.symm))

/-- The effective offsets and gains of every lane. -/
def bgNow (s : State) : Tab Nat := bgKeys.foldl (fun t k => tset (oDefault k) t k (s.live k)) []

theorem bgNow_get {k : Nat} (h : k ∈ bgKeys) : tget (oDefault k) (bgNow s) k = s.live k := tget_filled (f := fun k => s.live k) (.inl h)

theorem bgStore_step : exec .bgStore s = .next (if s.mode = .run ∧ s.get K.bgStoreFn + 3686400 ≤ s.fn then
    postJob { page := pageOf K.bgStoreFn, fn := s.fn } (State.put { s with pwr := { s.pwr with bg := some (bgNow s) } } K.bgStoreFn s.fn)
  else s) := rfl

/-! ### The scrub (R350) -/

/-- The frames and sectors that the scrub found weak are renewed. -/
theorem scrub_step {fs ks : List Nat} (due : s.mode = .run ∧ s.get K.scrubFn + 88473600 ≤ s.fn) : ∃ u : State,
    exec (.scrub fs ks) s = .next (u.put K.scrubFn s.fn) ∧ (fs = [] → ks = [] → u.jobs = s.jobs ∧ u.ring5 = s.ring5) := by
  show ∃ u : State, execScrub fs ks s = _ ∧ _
  unfold execScrub
  rw [if_pos due]
  extract_lets read gs strong units s₁ s₂ ws s₃
  have renewed : Only 36540784644 s₁ s₂ := .foldl (fun _ _ h => renewFrame_only (.refl _) h) (.refl _ _)
  have refreshed : Only 33620100 s₂ s₃ := .foldl (fun _ _ h => refreshSec_only ((Within.refl _).of rfl)
    (State_event_only ((Within.refl _).of rfl) (State_bump_only ((Within.refl _).of rfl) h))) (.refl _ _)
  have fn : s₃.fn = s.fn := (refreshed.fn rfl).trans (renewed.fn rfl)
  refine ⟨s₃, by rw [fn], ?_⟩
  rintro rfl rfl
  exact ⟨rfl, rfl⟩

end Sys2Proof.Machine
end

section
/-! PROOF. The Tackroom's writer (R231, R354): the end of an erase or program, and the step from RING-5 into the log. -/

namespace Sys2Proof.Machine

variable {s t u : State}

/-! ### Where the writer stands -/

/-- Which sectors the writer skips decides where it goes. -/
theorem ringAddrs_congr (h : secRetired t = secRetired s) {p : Part} {n a : Nat} : ringAddrs t p n a = ringAddrs s p n a := by
  have next : ∀ sec, nextSec t p sec = nextSec s p sec := fun sec => by
    unfold nextSec
    rw [h]
  have step : ∀ a, stepAddr t p a = stepAddr s p a := fun a => by
    unfold stepAddr
    rw [next]
  induction n generalizing a with
  | zero => rfl
  | succ n ih =>
    unfold ringAddrs
    rw [step, ih]

theorem standAt_congr (h : secRetired t = secRetired s) {p : Part} {a : Nat} : standAt t p a = standAt s p a := by
  unfold standAt nextSec
  rw [h]

/-- An event is programmed where its entries end before the writer. -/
theorem tkWhere_event_congr {q : Nat} (h : secRetired t = secRetired s) (evs : t.tk.evs = s.tk.evs) (pos : t.tk.evPos = s.tk.evPos) :
    tkWhere t (.event q) = tkWhere s (.event q) := by
  unfold tkWhere
  rw [evs, pos, standAt_congr h]
  exact ringAddrs_congr h

theorem secRetired_setSec {sec : Nat} {v : UnitS} (out : v.out = (tget {} s.units (unitKey 4 sec)).out)
    (retired : v.state = 2 ↔ (tget ({} : UnitS) s.units (unitKey 4 sec)).state = 2) : secRetired (setSec sec v s) = secRetired s := by
  funext k
  unfold secRetired setSec
  dsimp only
  by_cases e : unitKey 4 sec = unitKey 4 k
  · rw [← e, tget_tset_self, out]
    simp only [retired]
  · rw [tget_tset_ne e]

theorem setSec_self {sec : Nat} {v : UnitS} : tget {} (setSec sec v s).units (unitKey 4 sec) = v := tget_tset_self

theorem secRetired_of_units (h : t.units = s.units) : secRetired t = secRetired s := by
  funext k
  unfold secRetired
  rw [h]

/-- A verified program retires no sector. -/
theorem secPassed_retired {op : TkOp} : secRetired (secPassed op s) = secRetired s ∧ (secPassed op s).tk = s.tk := by
  refine ⟨?_, (secPassed_only (.refl _) (.refl _ _)).tk rfl⟩
  have passes : ∀ (l : List Nat), secRetired (l.foldl (fun s sec =>
      let u := tget ({} : UnitS) s.units (unitKey 4 sec)
      if u.state = 1 then (setSec sec { u with state := 0, fail := 0, since := s.fn } s).event 0x0301 [4, sec] else s) s) = secRetired s := fun l => by
    refine List.foldlRecOn l _ (motive := fun (u : State) => secRetired u = secRetired s) rfl (fun u h sec _ => ?_)
    extract_lets x
    split
    next suspect =>
      refine ((secRetired_of_units ((State_event_only (.refl _) (.refl _ _)).units rfl)).trans ?_).trans h
      exact secRetired_setSec rfl ⟨fun e => absurd e (show (0 : Nat) ≠ 2 by decide), fun e => absurd (suspect.symm.trans e) (by decide)⟩
    next => exact h
  unfold secPassed
  split
  next sec =>
    extract_lets x
    split
    · rfl
    · exact secRetired_setSec rfl Iff.rfl
  next => rfl
  next => exact passes _

/-! ### The end of an operation (R231) -/

theorem tackroom_step {v : Bool} {j : TkJob} {l : List TkJob} (run : s.mode = .run ∨ s.mode = .recovery) (queue : (tkAhead (tkPump s)).tk.queue = j :: l) :
    exec (.tackroomOpComplete v) s = .next
      (if v || decide ((tkWhere (tkAhead (tkPump s)) j.op).1 = []) then
        tkDone j.op (secPassed j.op (setTk (fun t => { t with queue := l }) (tkAhead (tkPump s))))
      else secFailed j l (tkAhead (tkPump s))) := by
  show execTackroomOpComplete v s = _
  unfold execTackroomOpComplete
  rw [if_pos (by simpa [tkPowered] using run)]
  dsimp only
  rw [queue]

/-- A first or second failure of a sector: the operation is repeated, and counted. -/
theorem secFailed_repeats {j : TkJob} {l : List TkJob} (few : (tget {} s.units (unitKey 4 (failedSec j.op s).1)).fail < 3) :
    (secFailed j l s).tk.queue = retryJobs (failedSec j.op s).1 j l ∧
      (tget {} (secFailed j l s).units (unitKey 4 (failedSec j.op s).1)).fail = (tget {} s.units (unitKey 4 (failedSec j.op s).1)).fail + 1 ∧
      (secFailed j l s).get K.sectorRetries = (s.get K.sectorRetries + 1) % 2 ^ oBits K.sectorRetries := by
  have drawn : Only 68719476736 s (failedSec j.op s).2 := failedSec_only (.refl _) (.refl _ _)
  have units : (failedSec j.op s).2.units = s.units := drawn.units rfl
  have same : (failedSec j.op s).2.get K.sectorRetries = s.get K.sectorRetries := get_of_dict (drawn.dict rfl) _
  clear drawn
  unfold secFailed
  generalize failedSec j.op s = r at few units same ⊢
  obtain ⟨sec, d⟩ := r
  dsimp only at few units same ⊢
  rw [if_pos (by rw [units]; exact few)]
  refine ⟨rfl, ?_, get_bump_self.trans ?_⟩
  · show (tget {} (if (tget ({} : UnitS) d.units (unitKey 4 sec)).state = 0 then _ else _ : State).units (unitKey 4 sec)).fail = _
    split
    · rw [(State_event_only (.refl _) (.refl _ _)).units rfl, setSec_self, ← units]
    · rw [setSec_self, ← units]
  · split
    · rw [get_event (by decide) (by decide), ← same]
      rfl
    · rw [← same]
      rfl

/-- A fourth failure: the operation moves on. -/
theorem secFailed_moves {j : TkJob} {l : List TkJob} (many : 3 ≤ (tget ({} : UnitS) s.units (unitKey 4 (failedSec j.op s).1)).fail) :
    (secFailed j l s).tk.queue = movedJobs j l := by
  have units : (failedSec j.op s).2.units = s.units := (failedSec_only (.refl _) (.refl _ _)).units rfl
  unfold secFailed
  generalize failedSec j.op s = r at many units ⊢
  obtain ⟨sec, d⟩ := r
  dsimp only at many units ⊢
  rw [if_neg (by rw [units]; omega)]
  rfl

theorem doneCapture_ring8 {b : CapBlock} : (doneCapture b s).cap.ring8 = s.cap.ring8.erase b := by
  unfold doneCapture
  extract_lets a0 w known at_ s₁ s₂ base c s₃ s₄ s₅
  have four : s₄.cap = s.cap := by
    show (if b.seq = 0 then _ else s₃ : State).cap = s₃.cap
    split
    · exact ((State_event_only (.refl _) (.refl _ _)).cap rfl).trans ((showLogs_only (.refl _) (.refl _ _)).cap rfl)
    · rfl
  rw [(eraseAhead_only (.refl _) (.refl _ _)).cap rfl]
  exact congrArg (fun x => x.ring8.erase b) four

theorem doneHistory_hist {h : HistRec} : (doneHistory h s).bill.hist = s.bill.hist.erase h := by
  unfold doneHistory
  extract_lets b w r s₁ kept s₂ old s₃ s₄
  have three : Only 4 s₂ s₃ := .foldl (fun _ _ h => State_put_only (.refl _) h) (.refl _ _)
  have four : Only 4 s₂ s₄ := showHistory_only (.refl _) (State_put_only (.refl _) three)
  clear_value s₄
  refine (congrArg Bill.hist ((eraseAhead_only (.refl _) (.refl _ _)).bill rfl)).trans ?_
  exact congrArg (fun x => x.hist.erase h) (four.bill rfl)

theorem eraseAhead_evPos {p : Part} {pos : Nat} : (eraseAhead p pos s).tk.evPos = s.tk.evPos := by
  unfold eraseAhead
  extract_lets k
  split <;> rfl

theorem doneEvent_pos {q : Nat} : (doneEvent q s).tk.evPos = (tkWhere s (.event q)).2 := by
  unfold doneEvent
  extract_lets w bytes s₁ s₂
  exact eraseAhead_evPos

/-- What the end of a capture's block, of a period record and of an event brings about. -/
theorem tkDone_effects {op : TkOp} : (∀ b, op = .capture b → (tkDone op s).cap.ring8 = s.cap.ring8.erase b) ∧
    (∀ h, op = .history h → (tkDone op s).bill.hist = s.bill.hist.erase h) ∧
    (∀ q, op = .event q → (tkDone op s).tk.evPos = (tkWhere s (.event q)).2) := by
  refine ⟨?_, ?_, ?_⟩
  · rintro b rfl
    show (doneCapture b s).cap.ring8 = _
    exact doneCapture_ring8
  · rintro h rfl
    rw [show tkDone (.history h) s = doneHistory h s from rfl, doneHistory_hist]
  · rintro q rfl
    show (doneEvent q s).tk.evPos = _
    exact doneEvent_pos

/-! ### The log (R354, R281) -/

theorem eventLogWrite_step {e : Event} {l : List Event} (runs : logRuns s = true) (front : s.ring5 = e :: l) :
    exec .eventLogWrite s = .next (eventFlags e (numberEvent e (drop5 s))) := by
  show execEventLogWrite s = _
  unfold execEventLogWrite
  rw [if_pos runs, front]

theorem eventFlags_same {e : Event} : (eventFlags e s).tk = s.tk ∧ (eventFlags e s).ring5 = s.ring5 ∧ (∀ k, (eventFlags e s).get k = s.get k) :=
  have only := eventFlags_only (a0 := e) (s := s) (.refl _) (.refl _ _)
  ⟨only.tk rfl, only.ring5 rfl, fun k => get_of_dict (only.dict rfl) k⟩

theorem bit_legacyEvent {b j : Nat} (h : bit s.spi.causes j = true) : bit (legacyEvent b s).spi.causes j = true := by
  unfold legacyEvent
  extract_lets s₁
  split
  · exact (bit_setBit _ _ _).trans (by rw [show bit s₁.spi.causes j = true from h, Bool.true_or])
  · exact h

/-- An event of Table 8.6 raises FAULT. -/
theorem eventFlags_fault {e : Event} (h : isFault e = true) : bit (eventFlags e s).spi.causes 4 = true := by
  unfold eventFlags
  rw [if_pos h]
  dsimp only
  split
  · exact bit_legacyEvent bit_setCause_self
  · exact bit_setCause_self

theorem showLogs_get {k : Nat} (h : k ∉ [K.eventOldest, K.profileOldest, K.backupGen, K.capStored]) : (showLogs s).get k = s.get k := by
  simp only [List.mem_cons, List.not_mem_nil, or_false, not_or] at h
  obtain ⟨he, hp, hb, hc⟩ := h
  unfold showLogs
  dsimp only
  rw [get_put_ne (Ne.symm hc), get_put_ne (Ne.symm hb), get_put_ne (Ne.symm hp), get_put_ne (Ne.symm he)]

theorem tkPush_evs {op : TkOp} : (tkPush op s).tk.evs = s.tk.evs := rfl

theorem logEvent_effects {e : Event} : (logEvent e s).tk.evs = s.tk.evs ++ [{ seq := (s.get K.eventSeq + 1) % 2 ^ 32, entries := evEntries ((s.get K.eventSeq + 1) % 2 ^ 32) e }] ∧
    (logEvent e s).get K.eventSeq = (s.get K.eventSeq + 1) % 2 ^ 32 ∧ (logEvent e s).get K.faultEvents = s.get K.faultEvents := by
  unfold logEvent
  extract_lets q s₁
  have pushed : ∀ k, (tkPush (.event q) (showLogs (s₁.put K.eventSeq q))).get k = (showLogs (s₁.put K.eventSeq q)).get k := fun _ => rfl
  refine ⟨?_, ?_, ?_⟩
  · rw [tkPush_evs, (showLogs_only (.refl _) (.refl _ _)).tk rfl]
    rfl
  · rw [pushed, showLogs_get (by decide), get_put_self]
  · rw [pushed, showLogs_get (by decide), get_put_ne (by decide)]
    rfl

theorem numberEvent_effects {e : Event} : (numberEvent e s).tk.evs = s.tk.evs ++ [{ seq := (s.get K.eventSeq + 1) % 2 ^ 32, entries := evEntries ((s.get K.eventSeq + 1) % 2 ^ 32) e }] ∧
    (numberEvent e s).get K.eventSeq = (s.get K.eventSeq + 1) % 2 ^ 32 ∧ (numberEvent e s).ring5 = s.ring5 ∧
    (isFault e = true → (numberEvent e s).get K.faultEvents = (s.get K.faultEvents + 1) % 2 ^ oBits K.faultEvents) := by
  unfold numberEvent
  split
  · obtain ⟨evs, seq, fault⟩ := logEvent_effects (s := s.bump K.faultEvents) (e := e)
    rw [get_bump_ne (show K.faultEvents ≠ K.eventSeq by decide)] at evs seq
    exact ⟨evs, seq, (logEvent_only (.refl _) (State_bump_only ((Within.refl _).of rfl) (.refl _ _))).ring5 rfl, fun _ => fault.trans get_bump_self⟩
  · obtain ⟨evs, seq, -⟩ := logEvent_effects (s := s) (e := e)
    exact ⟨evs, seq, (logEvent_only (.refl _) (.refl _ _)).ring5 rfl, fun h => absurd h ‹_›⟩

/-! ### The obligation -/

/-- Settles O58, by `pageStoreComplete_verified`, `storeFailed_effects`, `takeOnes_gens`, `rollPosition_shows`, `bgNow_get`, `secFailed_repeats`
and `numberEvent_effects`. -/
theorem storesTakeEffect : Obligations.StoresTakeEffect := by
  unfold Obligations.StoresTakeEffect
  refine ⟨fun s j js fr _ run jobs hp hfr hf => ⟨?verified, ?failed⟩, fun s run => ?commits, fun s T _ hT run => ⟨fun due fresh => ?roll, fun idle => ?norr⟩,
    fun s _ run => ⟨fun due => ?bg, fun early => ?nobg⟩, fun s u j l _ run hu queue => ⟨fun writes_ => ?fails, ?passes⟩,
    fun s e l _ runs front => ?logs, fun s idle => ?nolog, fun fs ks s _ run => ⟨fun due => ?scrubs, fun early => ?noscrub⟩⟩
  case verified =>
    subst hfr
    have step := pageStoreComplete_seals run jobs
    obtain ⟨sealing, others, serve, stat, posted, plain⟩ := pageStoreComplete_verified (j := j) (js := js) (s := s) hp _ rfl
    refine ⟨_, step, exec_frame step, congrArg Seal.fn sealing, congrArg Seal.ok sealing, congrArg Seal.img sealing, congrArg Seal.count sealing, others, serve, stat,
      posted, plain, fun i txn nb port role k vals ack gone => ?_, fun i txn nb port role eff vals ack held => ?_⟩
    · rw [ack]
      have lost : activateGone (.activate k) (sealedNow j js s) = true :=
        (sealedNow_gone hp hf).trans (activateGone_iff.mpr ⟨k, rfl, gone⟩)
      obtain ⟨commits, idle⟩ := ackCommit_gone (i := i) (txn := txn) (nb := nb) (port := port) (role := role) (vals := vals) lost
      exact ⟨commits.trans (sealedNow_only.commits rfl), idle⟩
    · rw [ack]
      have taken : activateGone eff s = false := by
        rw [Bool.eq_false_iff]
        intro gone
        obtain ⟨k, e, lost⟩ := activateGone_iff.mp gone
        obtain ⟨lease, state⟩ := held k e
        exact lost.elim lease (fun n => n state)
      exact sealedNow_commit hp hf taken
  case failed =>
    subst hfr
    have step := pageStoreComplete_fails run jobs
    obtain ⟨seals, few, many⟩ := storeFailed_effects (j := j) (js := js) (s := writeFrame false j s)
    have shown : Only 4 (storeFailed j js (writeFrame false j s)) (showPage j.page (storeFailed j js (writeFrame false j s))) :=
      showPage_only (.refl _) (.refl _ _)
    refine ⟨_, step, exec_frame step, ?_, ?_, fun h => ?_, fun h => ?_⟩
    · exact (shown.commits rfl).trans (((storeFailed_only (.refl _) (.refl _ _)).commits rfl).trans ((writeFrame_only (.refl _) (.refl _ _)).commits rfl))
    · rw [shown.seals rfl, seals]
      exact congrArg Seal.ok writeFrame_seal
    · obtain ⟨again, pages, count⟩ := few h
      refine ⟨(shown.jobs rfl).trans again, (shown.pages rfl).trans (pages.trans ((writeFrame_only (.refl _) (.refl _ _)).pages rfl)), ?_⟩
      rw [showPage_get hp (by decide), count, writeFrame_get]
      simp only [storeKeys, List.mem_cons, List.not_mem_nil, or_false, not_or]
      exact ⟨by decide, by dsimp only [K.frameRetries, K.frameWear]; omega, by decide, by decide, by decide⟩
    · obtain ⟨again, count⟩ := many h
      rw [shown.pages rfl]
      refine ⟨(shown.jobs rfl).trans again, ?_⟩
      rw [showPage_get hp (by decide), count, writeFrame_get]
      simp only [storeKeys, List.mem_cons, List.not_mem_nil, or_false, not_or]
      exact ⟨by decide, by dsimp only [K.framesRetired, K.frameWear]; omega, by decide, by decide, by decide⟩
  case commits =>
    have step := commitTakesEffect_step run
    have settled := settingsTakes_only (l := framesOf (dueCommits s)) (s := markDone s)
    refine ⟨_, step, exec_frame step, ?_, ?_, fun c one => ?_, fun none => ?_⟩
    · exact ((Only.foldl (m := 113857734628) (fun _ _ h => takeOne_only (.refl _) h) (.refl _ _)).commits rfl).trans (settled.commits rfl)
    · rw [takeOnes_gens, settled.gens rfl]
      rfl
    · rw [one]
      have alone := settingsTakes_only (l := framesOf [c]) (s := markDone s)
      refine takeOne_gens.trans ?_
      unfold State.genOf
      rw [alone.gens rfl]
      rfl
    · rw [none]
      exact (markDone_only (.refl _) (.refl _ _)).frame (by decide)
  case roll =>
    subst hT
    have step := rollPosition_step (s := s)
    rw [if_pos ⟨run, due, fresh⟩] at step
    exact ⟨_, step, exec_frame step, rollPosition_shows (Nat.mod_lt _ (by decide)), congrArg Pwr.rollAt ((rollPosition_only (.refl _) (.refl _ _)).pwr rfl)⟩
  case norr =>
    subst hT
    rw [rollPosition_step, if_neg]
    rintro ⟨-, due, fresh⟩
    exact idle.elim (fun h => h due) (fun h => fresh h)
  case bg =>
    have step := bgStore_step (s := s)
    rw [if_pos ⟨run, due⟩] at step
    have posted : ∀ {j : Job} {v : State}, Only 2147491840 v (postJob j v) := postJob_only (.refl _) (.refl _ _)
    refine ⟨_, step, exec_frame step, (get_of_dict (posted.dict rfl) _).trans get_put_self, ⟨bgNow s, congrArg Pwr.bg (posted.pwr rfl), fun k hk => bgNow_get hk⟩, ?_⟩
    exact postJob_map jobField_page
  case nobg => rw [bgStore_step, if_neg (fun h => by omega)]
  case fails =>
    subst hu
    have step := tackroom_step (v := false) run queue
    rw [if_neg (by simpa using writes_)] at step
    have units : (tkAhead (tkPump s)).units = s.units := (tkAhead_only (.refl _) (tkPump_only (.refl _) (.refl _ _))).units rfl
    have dict : (tkAhead (tkPump s)).dict = s.dict := (tkAhead_only (.refl _) (tkPump_only (.refl _) (.refl _ _))).dict rfl
    refine ⟨_, _, step, exec_frame step, rfl, fun few => ?_, fun many => ?_⟩
    · rw [← units] at few ⊢
      rw [← get_of_dict dict K.sectorRetries]
      exact secFailed_repeats few
    · rw [← units] at many
      exact secFailed_moves many
  case passes =>
    subst hu
    have step := tackroom_step (v := true) run queue
    rw [if_pos (by simp)] at step
    have passed : Only 34393358340 s (secPassed j.op (setTk (fun t => { t with queue := l }) (tkAhead (tkPump s)))) :=
      secPassed_only ((Within.refl _).of rfl) (setTk_only ((Within.refl _).of rfl) (tkAhead_only ((Within.refl _).of rfl)
        (tkPump_only ((Within.refl _).of rfl) (.refl _ _))))
    obtain ⟨retired, tk⟩ := secPassed_retired (op := j.op) (s := setTk (fun t => { t with queue := l }) (tkAhead (tkPump s)))
    obtain ⟨capture, history, event⟩ := tkDone_effects (op := j.op) (s := secPassed j.op (setTk (fun t => { t with queue := l }) (tkAhead (tkPump s))))
    refine ⟨_, step, exec_frame step, fun b op => (capture b op).trans (congrArg (fun x => x.ring8.erase b) (passed.cap rfl)),
      fun h op => (history h op).trans (congrArg (fun x => x.hist.erase h) (passed.bill rfl)), fun q op _ => (event q op).trans ?_⟩
    rw [op] at retired tk ⊢
    refine congrArg Prod.snd (Eq.trans (tkWhere_event_congr retired ?_ ?_) (tkWhere_event_congr (secRetired_of_units rfl) rfl rfl))
    · exact congrArg Tk.evs tk
    · exact congrArg Tk.evPos tk
  case logs =>
    have step := eventLogWrite_step runs front
    obtain ⟨tk, ring5, get⟩ := eventFlags_same (e := e) (s := numberEvent e (drop5 s))
    obtain ⟨evs, seq, ring, fault⟩ := numberEvent_effects (e := e) (s := drop5 s)
    refine ⟨_, _, step, exec_frame step, ?_, rfl, (get _).trans seq, (congrArg Tk.evs tk).trans evs, fun lo hi => ?_⟩
    · rw [ring5, ring]
      show s.ring5.drop 1 = l
      rw [front]
      rfl
    · have bad : isFault e = true := decide_eq_true ⟨lo, hi⟩
      exact ⟨eventFlags_fault bad, (get _).trans (fault bad)⟩
  case nolog =>
    show execEventLogWrite s = _
    unfold execEventLogWrite
    split
    next runs =>
      have front : s.ring5 = [] := idle.resolve_right (by rw [runs]; decide)
      rw [front]
    next => rfl
  case scrubs =>
    obtain ⟨u, step, quiet⟩ := scrub_step (fs := fs) (ks := ks) ⟨run, due⟩
    exact ⟨_, step, exec_frame step, get_put_self, quiet⟩
  case noscrub => exact congrArg _ (if_neg (fun h => by omega))

end Sys2Proof.Machine
end

section
/-! PROOF. Supplies, VBAT, the RTC, the tamper inputs and Gecko (R394, R397, R401 to R407, R424). -/

namespace Sys2Proof.Machine

variable {s t u : State}

/-! ### SUPPLY_STATUS -/

theorem bit_putBit {n b j : Nat} {on : Bool} : bit (if on then setBit n b else clearBit n b) j = if j = b then on else bit n j := by
  cases on
  · rw [if_neg Bool.false_ne_true, bit_clearBit]
    split <;> simp_all
  · rw [if_pos rfl, bit_setBit]
    split <;> simp_all

/-- A bit of SUPPLY_STATUS is set or cleared, and the others stand. -/
theorem bit_supBit {b j : Nat} {on : Bool} : bit ((supBit b on s).get K.supSupplyStatus) j = if j = b then on else bit (s.get K.supSupplyStatus) j := by
  unfold supBit
  rw [get_putV_self, bit_putBit]

theorem supBit_get {b k : Nat} {on : Bool} (h : K.supSupplyStatus ≠ k) : (supBit b on s).get k = s.get k := get_putV_ne h

theorem status_event {c : Nat} {l : List Nat} : (s.event c l).get K.supSupplyStatus = s.get K.supSupplyStatus := get_event (by decide) (by decide)

/-! ### The hold-up charger (R394) -/

/-- VHOLD has reached 11.8 V. -/
def heldUp (us : Nat) (s : State) : State :=
  let s := supBit 7 true s
  if s.pwr.holdTimed then
    let cap := min 65535 (odiv (us : Nat) 28).toNat
    let s := s.put K.supHoldCap cap
    if cap * 10 < 8 * s.get K.stirrupCap then (supBit 6 true s).event 0x0809 [cap, s.get K.stirrupCap] else s
  else s

theorem holdOk_step {us : Nat} : exec (.holdOk us) s = .next
    (if (s.mode = .run ∨ s.mode = .recovery) ∧ bit (s.get K.supSupplyStatus) 7 = false then heldUp us s else s) := rfl

theorem heldUp_ok {us : Nat} : bit ((heldUp us s).get K.supSupplyStatus) 7 = true := by
  have first : bit ((supBit 7 true s).get K.supSupplyStatus) 7 = true := by rw [bit_supBit, if_pos rfl]
  unfold heldUp
  extract_lets s₁ cap s₂
  have second : bit (s₂.get K.supSupplyStatus) 7 = true := (congrArg (fun w => bit w 7) (get_put_ne (by decide))).trans first
  split
  · split
    · rw [status_event, bit_supBit, if_neg (by decide)]
      exact second
    · exact second
  · exact first

/-- HOLD_CAP where the charge was timed, and HOLD_LOW below 80 % of STIRRUP_CAP. -/
theorem heldUp_cap {us : Nat} (timed : s.pwr.holdTimed = true) : (heldUp us s).get K.supHoldCap = min 65535 (odiv (us : Nat) 28).toNat ∧
    (min 65535 (odiv (us : Nat) 28).toNat * 10 < 8 * s.get K.stirrupCap → bit ((heldUp us s).get K.supSupplyStatus) 6 = true) := by
  unfold heldUp
  extract_lets s₁ cap s₂
  have pwr : s₁.pwr = s.pwr := (supBit_only (.refl _) (.refl _ _)).pwr rfl
  have stirrup : s₂.get K.stirrupCap = s.get K.stirrupCap := (get_put_ne (by decide)).trans (supBit_get (by decide))
  rw [if_pos (by rw [pwr]; exact timed), stirrup]
  split
  · refine ⟨?_, fun _ => ?_⟩
    · rw [get_event (by decide) (by decide), supBit_get (by decide)]
      exact get_put_self
    · rw [status_event, bit_supBit, if_pos rfl]
  · exact ⟨get_put_self, fun low => absurd low ‹_›⟩

/-! ### VBAT (R397, R402) -/

theorem vbatBits_status {mv : Nat} : bit ((vbatBits mv s).get K.supSupplyStatus) 4 = decide (s.cfg s.fn K.geckoVbatMin ≤ mv) ∧
    bit ((vbatBits mv s).get K.supSupplyStatus) 3 = decide (mv < 2600) ∧ bit ((vbatBits mv s).get K.supSupplyStatus) 2 = decide (mv < 2200) := by
  unfold vbatBits
  refine ⟨?_, ?_, ?_⟩
  · rw [bit_supBit, if_neg (by decide), bit_supBit, if_neg (by decide), bit_supBit, if_pos rfl]
  · rw [bit_supBit, if_neg (by decide), bit_supBit, if_pos rfl]
  · rw [bit_supBit, if_pos rfl]

theorem vbatBits_get {mv k : Nat} (h : K.supSupplyStatus ≠ k) : (vbatBits mv s).get k = s.get k :=
  (supBit_get h).trans ((supBit_get h).trans (supBit_get h))

theorem vbatBits_pwr {mv : Nat} : (vbatBits mv s).pwr = s.pwr := (vbatBits_only (.refl _) (.refl _ _)).pwr rfl

/-- A measurement of VBAT and what SUPPLY_STATUS shows of it. -/
theorem noteVbat_effects {mv : Nat} : (noteVbat mv s).pwr.vbat = mv ∧ (noteVbat mv s).pwr.vbatFn = some s.fn ∧
    (∀ k, k ∉ [K.supSupplyStatus, K.stalls 5, K.eventsLost] → (noteVbat mv s).get k = s.get k) ∧
    bit ((noteVbat mv s).get K.supSupplyStatus) 4 = decide (s.cfg s.fn K.geckoVbatMin ≤ mv) ∧
    bit ((noteVbat mv s).get K.supSupplyStatus) 3 = decide (mv < 2600) ∧ bit ((noteVbat mv s).get K.supSupplyStatus) 2 = decide (mv < 2200) := by
  unfold noteVbat
  extract_lets p s₁
  have pwr : s₁.pwr = { s.pwr with vbat := mv, vbatFn := some s.fn } := vbatBits_pwr
  have bits : bit (s₁.get K.supSupplyStatus) 4 = decide (s.cfg s.fn K.geckoVbatMin ≤ mv) ∧
    bit (s₁.get K.supSupplyStatus) 3 = decide (mv < 2600) ∧ bit (s₁.get K.supSupplyStatus) 2 = decide (mv < 2200) := vbatBits_status
  have others : ∀ k, K.supSupplyStatus ≠ k → s₁.get k = s.get k := fun k h => vbatBits_get h
  clear_value s₁
  split
  · have logged : ∀ {v : State} {c : Nat} {l : List Nat}, (v.event c l).pwr = v.pwr := (State_event_only (.refl _) (.refl _ _)).pwr rfl
    refine ⟨(congrArg Pwr.vbat logged).trans (congrArg Pwr.vbat pwr), (congrArg Pwr.vbatFn logged).trans (congrArg Pwr.vbatFn pwr), fun k hk => ?_, ?_⟩
    · simp only [List.mem_cons, List.not_mem_nil, or_false, not_or] at hk
      obtain ⟨hs, h5, hl⟩ := hk
      exact (get_event (Ne.symm h5) (Ne.symm hl)).trans (others k (Ne.symm hs))
    · rw [status_event]
      exact bits
  · refine ⟨congrArg Pwr.vbat pwr, congrArg Pwr.vbatFn pwr, fun k hk => ?_, bits⟩
    simp only [List.mem_cons, List.not_mem_nil, or_false, not_or] at hk
    exact others k (Ne.symm hk.1)

/-- VBAT is measured once a second. -/
theorem vbatMeasure_step {a b c mv : Nat} : exec (.vbatMeasure a b c mv) s = .next
    (if s.mode = .run ∧ (s.pwr.vbatFn.all (fun f => decide (s.fn < f) || decide (f + 1024 ≤ s.fn))) = true then
      noteVbat mv ((((s.putLive K.supVdd33Mv (min 65535 a)).putLive K.supVldMv (min 65535 b)).putLive K.supVholdMv (min 65535 c)).putLive
        K.supVbatMv (min 65535 mv))
    else s) := by
  show execVbatMeasure a b c mv s = _
  unfold execVbatMeasure
  cases s.pwr.vbatFn <;> rfl

/-- The objects of the supplies' measurements. -/
def measured (a b c mv : Nat) (s : State) : State :=
  (((s.putLive K.supVdd33Mv (min 65535 a)).putLive K.supVldMv (min 65535 b)).putLive K.supVholdMv (min 65535 c)).putLive K.supVbatMv (min 65535 mv)

theorem measured_shows {a b c mv : Nat} : (measured a b c mv s).live K.supVdd33Mv = min 65535 a ∧ (measured a b c mv s).live K.supVldMv = min 65535 b ∧
    (measured a b c mv s).live K.supVholdMv = min 65535 c ∧ (measured a b c mv s).live K.supVbatMv = min 65535 mv := by
  unfold measured
  refine ⟨?_, ?_, ?_, live_putLive_self⟩
  · rw [live_putLive_ne (by decide), live_putLive_ne (by decide), live_putLive_ne (by decide), live_putLive_self]
  · rw [live_putLive_ne (by decide), live_putLive_ne (by decide), live_putLive_self]
  · rw [live_putLive_ne (by decide), live_putLive_self]

theorem measured_cfg {a b c mv : Nat} : (measured a b c mv s).fn = s.fn ∧ (measured a b c mv s).cfg s.fn K.geckoVbatMin = s.cfg s.fn K.geckoVbatMin := by
  have only : Only 36 s (measured a b c mv s) :=
    State_putLive_only (.refl _) (State_putLive_only (.refl _) (State_putLive_only (.refl _) (State_putLive_only (.refl _) (.refl _ _))))
  refine ⟨only.fn rfl, cfg_of_get ?_ (only.commits rfl)⟩
  unfold measured
  rw [get_putLive_ne (by decide), get_putLive_ne (by decide), get_putLive_ne (by decide), get_putLive_ne (by decide)]

theorem setRtcValid_clears : (setRtcValid false s).get K.rtcValid = 0 ∧ bit ((setRtcValid false s).get K.supSupplyStatus) 1 = false := by
  unfold setRtcValid
  refine ⟨(supBit_get (by decide)).trans get_putV_self, ?_⟩
  rw [bit_supBit, if_pos rfl]

/-! ### Tamper inputs (R403) -/

theorem tamperChange_get {kind st k : Nat} (h : k ∉ [K.coverOpens, K.magDetects, K.tamperLost, K.stalls 5, K.eventsLost]) :
    (tamperChange kind st s).get k = s.get k := by
  simp only [List.mem_cons, List.not_mem_nil, or_false, not_or] at h
  obtain ⟨hc, hm, ht, h5, hl⟩ := h
  unfold tamperChange
  extract_lets s₁
  have counted : s₁.get k = s.get k := by
    show (if st = 1 then s.bump (if kind = 0 then K.coverOpens else K.magDetects) else s).get k = _
    split
    · refine get_bump_ne ?_
      split
      · exact Ne.symm hc
      · exact Ne.symm hm
    · rfl
  split
  · exact (get_event (Ne.symm h5) (Ne.symm hl)).trans counted
  · split
    · exact counted
    · exact (get_bump_ne (Ne.symm ht)).trans counted

/-- The object that shows an input's state. -/
def inputState (kind : Nat) : Nat := if kind = 0 then K.coverState else K.magState

/-- A level sampled twice is shown; no other object of an input's state changes. -/
theorem tamperInput_state {kind : Nat} {high : Bool} {st : Nat}
    (hst : st = b2n (high != decide (s.cfg s.fn (if kind = 0 then K.coverPol else K.magPol) = 1))) :
    (tlook s.pwr.samples kind = some st → (tamperInput kind high s).get (inputState kind) = st) ∧
    (tlook s.pwr.samples kind ≠ some st → (tamperInput kind high s).get (inputState kind) = s.get (inputState kind)) := by
  subst hst
  have shown : inputState kind ∉ [K.coverOpens, K.magDetects, K.tamperLost, K.stalls 5, K.eventsLost] := by
    unfold inputState
    split
    · decide
    · decide
  unfold tamperInput
  extract_lets pol st same p s₁ moved s₂
  have put : s₂.get (inputState kind) = st := get_putV_self
  refine ⟨fun e => ?_, fun e => ?_⟩
  · rw [if_pos (show same = true from decide_eq_true e)]
    split
    · exact (tamperChange_get shown).trans put
    · exact put
  · rw [if_neg (show ¬same = true from fun h => e (of_decide_eq_true h))]
    rfl

theorem tamperInput_get {kind k : Nat} {high : Bool} (hk : inputState kind ≠ k)
    (h : k ∉ [K.coverOpens, K.magDetects, K.tamperLost, K.stalls 5, K.eventsLost]) : (tamperInput kind high s).get k = s.get k := by
  unfold tamperInput
  extract_lets pol st same p s₁ moved s₂
  have put : s₂.get k = s.get k := get_putV_ne hk
  split
  · split
    · exact (tamperChange_get h).trans put
    · exact put
  · rfl

end Sys2Proof.Machine
end

section
/-! PROOF. Gecko (R404 to R407), and the supplies together. -/

namespace Sys2Proof.Machine

variable {s t u : State}

/-! ### What a scan leaves of the outage -/

/-- The counted scans, the next one and VBAT stand. -/
structure SameOutage (s t : State) : Prop where
  scans : t.pwr.gecko.scans = s.pwr.gecko.scans
  next : t.pwr.gecko.next = s.pwr.gecko.next
  vbat : t.pwr.vbat = s.pwr.vbat

namespace SameOutage

theorem refl (s : State) : SameOutage s s := ⟨rfl, rfl, rfl⟩

theorem trans (h : SameOutage s t) (k : SameOutage t u) : SameOutage s u :=
  ⟨k.scans.trans h.scans, k.next.trans h.next, k.vbat.trans h.vbat⟩

theorem of_pwr (h : t.pwr = s.pwr) : SameOutage s t :=
  ⟨congrArg (fun x => x.gecko.scans) h, congrArg (fun x => x.gecko.next) h, congrArg Pwr.vbat h⟩

theorem ite {c : Prop} [Decidable c] (ht : c → SameOutage s t) (hu : ¬c → SameOutage s u) : SameOutage s (if c then t else u) := by
  split
  · exact ht ‹_›
  · exact hu ‹_›

theorem foldl {α : Type} {g : State → α → State} {l : List α} (hf : ∀ u a, SameOutage u (g u a)) (h : SameOutage s t) : SameOutage s (l.foldl g t) := by
  induction l generalizing t with
  | nil => exact h
  | cons a l ih => exact ih (h.trans (hf t a))

end SameOutage

theorem geckoEvent_outage {e : Event} : SameOutage s (geckoEvent e s) := .ite (fun _ => ⟨rfl, rfl, rfl⟩) (fun _ => .of_pwr rfl)

/-- The amounts of an outage change. -/
theorem amounts_outage {mah e : Tab Nat} (h : t.pwr = s.pwr) :
    SameOutage s { t with pwr := { t.pwr with gecko := { s.pwr.gecko with mah := mah, e := e } } } := 
  ⟨rfl, rfl, show t.pwr.vbat = s.pwr.vbat from congrArg Pwr.vbat h⟩

theorem scanPhase_outage {present : List Nat} {f c : Nat} {ph : Phase} {r : Nat × Bool} : SameOutage s (scanPhase present f c ph r s) := by
  unfold scanPhase
  extract_lets i p e there m g flags s₁ q
  have pwr : s₁.pwr = s.pwr := (State_put_only (.refl _) (scanAdd_only (.refl _) (scanAdd_only (.refl _) (.refl _ _)))).pwr rfl
  exact amounts_outage pwr

theorem scanCct_outage {present : List Nat} {acc : Tab ScanAcc} {f c : Nat} : SameOutage s (scanCct present acc f c s) := by
  unfold scanCct
  extract_lets phs hits s₁ g first p s₂ mask
  have gathered : SameOutage s s₁ := .foldl (fun _ _ => scanPhase_outage) (.refl s)
  have counted : SameOutage s s₂ := gathered.trans ⟨rfl, rfl, rfl⟩
  exact .ite (fun _ => .refl s) (fun _ => .ite (fun _ => counted.trans geckoEvent_outage) (fun _ => counted))

theorem geckoTamper_outage : SameOutage s (geckoTamper s) := .foldl (fun _ _ => geckoEvent_outage) ⟨rfl, rfl, rfl⟩

theorem scanAll_outage {d : GeckoData} : SameOutage s (scanAll d s) := by
  unfold scanAll
  extract_lets r s₁
  have framed : SameOutage s r.2 := .of_pwr ((scanFrames_only (.refl _) (.refl _ _)).pwr rfl)
  exact .foldl (fun _ _ => scanCct_outage) (framed.trans geckoTamper_outage)

/-- VBAT under load is noted; the outage's counts and the supplies' settings stand. -/
theorem vbatSeen_effects {mv : Nat} : (vbatSeen mv s).pwr.gecko.scans = s.pwr.gecko.scans ∧ (vbatSeen mv s).pwr.gecko.next = s.pwr.gecko.next ∧
    (vbatSeen mv s).pwr.vbat = mv ∧ ∀ k, k ∉ [K.supSupplyStatus, K.geckoEventsLost] → (vbatSeen mv s).get k = s.get k := by
  unfold vbatSeen
  extract_lets p s₁
  have pwr : s₁.pwr = { s.pwr with vbat := mv } := vbatBits_pwr
  have others : ∀ k, K.supSupplyStatus ≠ k → s₁.get k = s.get k := fun k h => vbatBits_get h
  clear_value s₁
  split
  · have kept := geckoEvent_outage (s := { s₁ with pwr := { s₁.pwr with vbatLow := true } })
      (e := { code := 0x0808, fields := [mv], fn := s₁.dev.rtcFn, time := s₁.dev.rtcTime })
    refine ⟨kept.scans.trans (congrArg (fun x => x.gecko.scans) pwr), kept.next.trans (congrArg (fun x => x.gecko.next) pwr),
      kept.vbat.trans (congrArg Pwr.vbat pwr), fun k hk => ?_⟩
    simp only [List.mem_cons, List.not_mem_nil, or_false, not_or] at hk
    obtain ⟨hs, hl⟩ := hk
    unfold geckoEvent
    split
    · exact others k (Ne.symm hs)
    · exact (get_put_ne (Ne.symm hl)).trans (others k (Ne.symm hs))
  · refine ⟨congrArg (fun x => x.gecko.scans) pwr, congrArg (fun x => x.gecko.next) pwr, congrArg Pwr.vbat pwr, fun k hk => ?_⟩
    simp only [List.mem_cons, List.not_mem_nil, or_false, not_or] at hk
    exact others k (Ne.symm hk.1)

theorem vbatSeen_interval {mv : Nat} : (vbatSeen mv s).cfg (vbatSeen mv s).fn K.geckoInterval = s.cfg s.fn K.geckoInterval := by
  obtain ⟨-, -, -, get⟩ := vbatSeen_effects (s := s) (mv := mv)
  have only := vbatSeen_only (a0 := mv) (s := s) (.refl _) (.refl _ _)
  rw [only.fn rfl]
  exact cfg_of_get (get _ (by decide)) (only.commits rfl)

/-! ### The pages that a scan stores (R406) -/

theorem lowStore_get {p k : Nat} (h : k < 0x700000) (h5 : K.stalls 5 ≠ k) : (lowStore p s).get k = s.get k := by
  unfold lowStore
  extract_lets j
  refine (get_put_ne (by dsimp only [K.pageStatus]; omega)).trans ?_
  refine Eq.trans (b := (writeFrame true j s).get k) rfl (writeFrame_get ?_)
  simp only [storeKeys, List.mem_cons, List.not_mem_nil, or_false, not_or]
  refine ⟨?_, ?_, ?_, Ne.symm h5, ?_⟩
  · dsimp only [K.storeCount]
    omega
  · dsimp only [K.frameWear]
    omega
  · dsimp only [K.wearMax]
    omega
  · dsimp only [K.eventsLost]
    omega

theorem scanStore_get {l : List Nat} {k : Nat} (h : k < 0x700000) (h5 : K.stalls 5 ≠ k) : (scanStore l s).get k = s.get k :=
  List.foldlRecOn l _ (motive := fun (u : State) => u.get k = s.get k) rfl (fun _ hu _ _ => (lowStore_get h h5).trans hu)

/-- Gecko ends with its cause. -/
theorem geckoSleep_effects {cause : Nat} : (geckoSleep cause s).mode = .sleep ∧
    (geckoSleep cause s).pwr.gecko.exit = some (cause, s.dev.rtcFn, s.dev.rtcTime) ∧ (geckoSleep cause s).get K.geckoLastScans = s.pwr.gecko.scans :=
  ⟨rfl, rfl, get_put_self⟩

theorem geckoScan_step {d : GeckoData} (gecko : s.mode = .gecko) (due : s.pwr.gecko.next ≤ s.dev.rtcFn) :
    exec (.geckoScan d) s = .next (scanStore (scanPages s (scanNow d s)) (scanNow d s)) := congrArg _ (if_pos ⟨gecko, due⟩)

/-- Settles O59, by what SUPPLY_STATUS shows (`bit_supBit`), `noteVbat_effects`, `tamperInput_state` and `scanAll_outage`. -/
theorem powerStatesRun : Obligations.PowerStatesRun := by
  unfold Obligations.PowerStatesRun
  refine ⟨fun us s _ => ⟨fun run low => ?holdOk, fun high => ?noHold⟩, fun mv s _ run clear_ => ⟨fun low late => ?fault, fun idle => ?noFault⟩,
    fun a b c mv s _ run => ⟨fun due => ?vbat, fun f last h1 h2 => ?noVbat⟩, fun s _ => ⟨fun away => ?collapse, fun on => ?noCollapse⟩,
    fun s => ⟨fun on => ?rtc, fun off => ?noRtc⟩, fun cover mag s _ => ⟨fun on st hst => ?tamper, fun off => ?noTamper⟩,
    fun d s _ gecko => ⟨fun due low => ?ends, fun due well => ?scans, fun early => ?noScan⟩,
    fun s h _ gecko hh => ⟨fun some_ late => ?limit, fun idle => ?noLimit⟩, fun s => ⟨fun away => ?release, fun on => ?noRelease⟩⟩
  case holdOk =>
    have step := holdOk_step (us := us) (s := s)
    rw [if_pos ⟨run, low⟩] at step
    refine ⟨_, step, exec_frame step, heldUp_ok, fun timed cap hcap => ?_⟩
    rw [hcap]
    exact heldUp_cap timed
  case noHold => rw [holdOk_step, if_neg (fun h => by rw [high] at h; exact absurd h.2 (by decide))]
  case fault =>
    have step : exec (.holdFault mv) s = .next ((supBit 5 true s).event 0x080A [mv]) := congrArg _ (if_pos ⟨run, low, clear_, late⟩)
    refine ⟨_, step, exec_frame step, ?_⟩
    rw [status_event, bit_supBit, if_pos rfl]
  case noFault => exact congrArg _ (if_neg (fun h => by obtain ⟨-, low, -, late⟩ := h; omega))
  case vbat =>
    have step := vbatMeasure_step (s := s) (a := a) (b := b) (c := c) (mv := mv)
    rw [if_pos ⟨run, by
      obtain h | ⟨f, h, out⟩ := due
      · rw [h]; rfl
      · rw [h]; simpa using out⟩] at step
    obtain ⟨vbat, vbatFn, others, bits⟩ := noteVbat_effects (s := measured a b c mv s) (mv := mv)
    obtain ⟨va, vb, vc, vd⟩ := measured_shows (s := s) (a := a) (b := b) (c := c) (mv := mv)
    obtain ⟨fn, cfg⟩ := measured_cfg (s := s) (a := a) (b := b) (c := c) (mv := mv)
    rw [fn, cfg] at bits
    rw [fn] at vbatFn
    exact ⟨_, step, exec_frame step, (others _ (by decide)).trans va, (others _ (by decide)).trans vb, (others _ (by decide)).trans vc,
      (others _ (by decide)).trans vd, vbat, vbatFn, bits⟩
  case noVbat =>
    rw [vbatMeasure_step, if_neg]
    rintro ⟨-, due⟩
    rw [last] at due
    simp only [Option.all_some, Bool.or_eq_true, decide_eq_true_eq] at due
    omega
  case collapse =>
    have step : exec .vbatCollapse s = .next (setRtcValid false s) := congrArg _ (if_pos away)
    exact ⟨_, step, exec_frame step, setRtcValid_clears⟩
  case noCollapse => exact congrArg _ (if_neg (fun h => by rcases on with e | e <;> simp [e] at h))
  case rtc =>
    have step : exec .rtcCountAdvance s = .next { s with dev := { s.dev with rtcFn := (s.dev.rtcFn + 1) % 2 ^ 48, rtcTime := if s.dev.rtcTime = noTime then noTime else (s.dev.rtcTime + 1) % 2 ^ 48 } } :=
      congrArg _ (if_neg on)
    exact ⟨_, step, exec_frame step, rfl, rfl⟩
  case noRtc => exact congrArg _ (if_pos off)
  case tamper =>
    have step : exec (.tamperSample cover mag) s = .next (tamperInput 1 mag (tamperInput 0 cover s)) := congrArg _ (if_neg on)
    obtain ⟨same, other⟩ := tamperInput_state (s := s) (kind := 0) (high := cover) hst
    have apart : (tamperInput 1 mag (tamperInput 0 cover s)).get K.coverState = (tamperInput 0 cover s).get K.coverState :=
      tamperInput_get (by decide) (by decide)
    exact ⟨_, step, exec_frame step, fun e => apart.trans (same e), fun e => apart.trans (other e)⟩
  case noTamper => exact congrArg _ (if_pos off)
  case ends =>
    have step := geckoScan_step (d := d) gecko due
    have now : scanNow d s = geckoSleep 1 (vbatSeen d.vbatMv s) := if_pos low
    rw [now] at step
    obtain ⟨mode, exit, last⟩ := geckoSleep_effects (s := vbatSeen d.vbatMv s) (cause := 1)
    obtain ⟨scans, -, -, -⟩ := vbatSeen_effects (s := s) (mv := d.vbatMv)
    have stored : ∀ {l : List Nat} {v : State}, Only 25803358340 v (scanStore l v) := scanStore_only (.refl _) (.refl _ _)
    refine ⟨_, step, exec_frame step, (stored.mode rfl).trans mode, ?_, (scanStore_get (by decide) (by decide)).trans (last.trans scans)⟩
    rw [stored.pwr rfl, exit, (vbatSeen_only (.refl _) (.refl _ _)).dev rfl]
  case scans =>
    have step := geckoScan_step (d := d) gecko due
    have now : scanNow d s = scanAll d (scanCounted (vbatSeen d.vbatMv s)) := if_neg (by omega)
    rw [now] at step
    obtain ⟨scans, next, vbat, -⟩ := vbatSeen_effects (s := s) (mv := d.vbatMv)
    have kept := scanAll_outage (s := scanCounted (vbatSeen d.vbatMv s)) (d := d)
    have stored : ∀ {l : List Nat} {v : State}, Only 25803358340 v (scanStore l v) := scanStore_only (.refl _) (.refl _ _)
    have counted : Only 131812 s (scanAll d (scanCounted (vbatSeen d.vbatMv s))) := scanAll_only ((Within.refl _).of rfl)
      (scanCounted_only ((Within.refl _).of rfl) (vbatSeen_only ((Within.refl _).of rfl) (.refl _ _)))
    refine ⟨_, step, exec_frame step, (stored.mode rfl).trans ((counted.mode rfl).trans gecko), ?_, ?_, ?_⟩
    · rw [stored.pwr rfl, kept.scans, ← scans]
      rfl
    · rw [stored.pwr rfl, kept.next, ← next, ← vbatSeen_interval (mv := d.vbatMv)]
      rfl
    · rw [stored.pwr rfl, kept.vbat]
      exact vbat
  case noScan => exact congrArg _ (if_neg (fun h => by omega))
  case limit =>
    subst hh
    have step : exec .geckoLimitExpiry s = .next (geckoSleep 2 s) := congrArg _ (if_pos ⟨gecko, some_, late⟩)
    exact ⟨_, step, exec_frame step, geckoSleep_effects⟩
  case noLimit =>
    subst hh
    exact congrArg _ (if_neg (fun h => by obtain ⟨-, some_, late⟩ := h; omega))
  case release => exact congrArg _ (if_pos away)
  case noRelease => exact congrArg _ (if_neg (fun h => by rcases on with e | e | e <;> simp [e] at h))

end Sys2Proof.Machine
end

section
/-! PROOF. Stops and starts (R30, R193, R282, R393 to R400, R402, R408, R409). -/

namespace Sys2Proof.Machine

variable {s t u : State}

/-! ### The power-fail warning (R396, R398) -/

/-- The pin, its cause and the RTC domain at the warning. -/
def warned (vld vdd33 : Bool) (s : State) : State :=
  keepClock (((setCause 6 (setSpi (fun p => { p with pfwN := true }) s)).bump K.supPfwCount).put K.supPfwCause (b2n vld + 2 * b2n vdd33))

/-- The frame of the warning is closed. -/
def gaspClosed (us : Nat) (s : State) : State :=
  let s := abandonStores us s
  gaspBases us (if billingRuns s then numberEvents (endDetectors ((definedCcts s s.fn).foldl (fun s c => gaspCct us c s) s)) else loseEvents s)

/-- The stores and the writer end. -/
def gaspStored (s : State) : State := refreshCut (dropUnlogged (flushLive (completeOne s)))

theorem startGasp_eq {us : Nat} {vld vdd33 : Bool} : startGasp us vld vdd33 s =
    setJournal (gaspJournal us (gaspClosed us (warned vld vdd33 s))) ((powerCut (gaspStored (gaspClosed us (warned vld vdd33 s)))).setMode .lastGasp) := rfl

/-- Closing the frame moves neither FN nor the pins nor the RTC domain. -/
theorem gaspClosed_only {us : Nat} : Only 23655950404 s (gaspClosed us s) := by
  unfold gaspClosed
  extract_lets s₁
  have first : Only 23655950404 s s₁ := abandonStores_only ((Within.refl _).of rfl) (.refl _ _)
  refine gaspBases_only ((Within.refl _).of rfl) (.ite (fun _ => ?_) (fun _ => loseEvents_only ((Within.refl _).of rfl) first))
  exact numberEvents_only ((Within.refl _).of rfl) (endDetectors_only ((Within.refl _).of rfl)
    (.foldl (fun _ _ h => gaspCct_only ((Within.refl _).of rfl) h) first))

theorem gaspStored_only : Only 135325130980 s (gaspStored s) :=
  refreshCut_only ((Within.refl _).of rfl) (dropUnlogged_only ((Within.refl _).of rfl) (flushLive_only ((Within.refl _).of rfl)
    (completeOne_only ((Within.refl _).of rfl) (.refl _ _))))

theorem gaspJournal_fields {us : Nat} : (gaspJournal us s).pfwFn = s.fn ∧ (gaspJournal us s).pfwUs = us := by
  unfold gaspJournal
  split
  · exact ⟨rfl, rfl⟩
  · exact ⟨rfl, rfl⟩

/-- What a power cut leaves of the frame and the ports. -/
theorem powerCut_effects : (powerCut s).ready = false ∧ (powerCut s).current = none ∧ (powerCut s).ring5 = [] ∧ (powerCut s).spi = s.spi ∧
    (powerCut s).dev.rtcFn = s.dev.rtcFn ∧ (powerCut s).fn = s.fn := ⟨rfl, rfl, rfl, rfl, rfl, rfl⟩

theorem warned_effects {vld vdd33 : Bool} : (warned vld vdd33 s).spi.pfwN = true ∧ bit (warned vld vdd33 s).spi.causes 6 = true ∧
    (warned vld vdd33 s).dev.rtcFn = s.fn ∧ (warned vld vdd33 s).fn = s.fn := ⟨rfl, bit_setCause_self, rfl, rfl⟩

theorem setJournal_effects {j : Journal} : (setJournal j (s.setMode .lastGasp)).mode = .lastGasp ∧ (setJournal j (s.setMode .lastGasp)).pwr.done = false ∧
    (setJournal j (s.setMode .lastGasp)).pwr.journal = some j ∧ Only 131074 s (setJournal j (s.setMode .lastGasp)) :=
  ⟨rfl, rfl, rfl, setJournal_only ((Within.refl _).of rfl) (State_setMode_only ((Within.refl _).of rfl) (.refl _ _))⟩

/-- What a power-fail warning brings about. -/
theorem startGasp_effects {us : Nat} {vld vdd33 : Bool} : ∀ t, t = startGasp us vld vdd33 s → ∃ j : Journal, t.mode = .lastGasp ∧ t.ready = false ∧
    t.spi.pfwN = true ∧ bit t.spi.causes 6 = true ∧ t.pwr.done = false ∧ t.pwr.journal = some j ∧ j.pfwFn = s.fn ∧ j.pfwUs = us ∧ t.dev.rtcFn = s.fn ∧
    t.fn = s.fn ∧ t.current = none ∧ t.ring5 = [] := by
  rintro t rfl
  rw [startGasp_eq]
  obtain ⟨pfw, cause, rtc, fn⟩ := warned_effects (s := s) (vld := vld) (vdd33 := vdd33)
  have closed := gaspClosed_only (s := warned vld vdd33 s) (us := us)
  have stored := gaspStored_only (s := gaspClosed us (warned vld vdd33 s))
  obtain ⟨jfn, jus⟩ := gaspJournal_fields (s := gaspClosed us (warned vld vdd33 s)) (us := us)
  obtain ⟨ready, current, ring5, cutSpi, cutRtc, cutFn⟩ := powerCut_effects (s := gaspStored (gaspClosed us (warned vld vdd33 s)))
  obtain ⟨mode, done, journal, last⟩ := setJournal_effects (s := powerCut (gaspStored (gaspClosed us (warned vld vdd33 s))))
    (j := gaspJournal us (gaspClosed us (warned vld vdd33 s)))
  have spi := (last.spi rfl).trans (cutSpi.trans ((stored.spi rfl).trans (closed.spi rfl)))
  refine ⟨_, mode, (last.ready rfl).trans ready, ?_, ?_, done, journal, jfn.trans ((closed.fn rfl).trans fn), jus, ?_, ?_,
    (last.current rfl).trans current, (last.ring5 rfl).trans ring5⟩
  · exact (congrArg Spi.pfwN spi).trans pfw
  · exact (congrArg (fun x => bit x.causes 6) spi).trans cause
  · exact (congrArg Dev.rtcFn (last.dev rfl)).trans (cutRtc.trans ((congrArg Dev.rtcFn ((stored.dev rfl).trans (closed.dev rfl))).trans rtc))
  · exact (last.fn rfl).trans (cutFn.trans ((stored.fn rfl).trans ((closed.fn rfl).trans fn)))

/-! ### The end of the last gasp (R400) -/

theorem gaspEnd_effects {j : Journal} {n : Nat} {m : Mode} {good : Bool} : (gaspEnd j n m good s).mode = s.mode ∧ (gaspEnd j n m good s).pwr.done = good ∧
    (gaspEnd j n m good s).get K.lastGaspPages = n ∧ (gaspEnd j n m good s).get K.supLastMode = m.num ∧
    (∀ k, k ∉ [K.lastGaspFn, K.lastGaspPages, K.jMax, K.supLastMode] → (gaspEnd j n m good s).get k = s.get k) := by
  unfold gaspEnd
  extract_lets s₁ i s₂ s₃ s₄ down
  have pages : s₂.get K.lastGaspPages = n := get_put_self
  have two : ∀ k, k ∉ [K.lastGaspFn, K.lastGaspPages, K.jMax, K.supLastMode] → s₂.get k = s.get k := fun k hk => by
    simp only [List.mem_cons, List.not_mem_nil, or_false, not_or] at hk
    obtain ⟨hf, hp, -, -⟩ := hk
    exact (get_put_ne (Ne.symm hp)).trans (get_put_ne (Ne.symm hf))
  have three : ∀ k, K.jMax ≠ k → s₃.get k = s₂.get k := fun k hk => by
    show (if i.runFn = i.pfwFn then _ else s₂ : State).get k = _
    split
    · exact get_put_ne hk
    · rfl
  have mode : s₃.mode = s.mode := by
    show (if i.runFn = i.pfwFn then _ else s₂ : State).mode = _
    split
    · rfl
    · rfl
  refine ⟨mode, rfl, ?_, get_put_self, fun k hk => ?_⟩
  · exact (get_put_ne (by decide)).trans ((three _ (by decide)).trans pages)
  · have hk' := hk
    simp only [List.mem_cons, List.not_mem_nil, or_false, not_or] at hk'
    obtain ⟨-, -, hj, hm⟩ := hk'
    exact (get_put_ne (Ne.symm hm)).trans ((three _ (Ne.symm hj)).trans (two k hk))

/-- Lanes that are not RETIRED are in their scan mode. -/
def scanLanes (l : List Nat) (s : State) : State := l.foldl (fun s l => if s.get (K.laneMode l) = 2 then s else s.put (K.laneMode l) 3) s

theorem scanLanes_only {l : List Nat} : Only 4 s (scanLanes l s) :=
  .foldl (fun _ _ h => .ite (fun _ => h) (fun _ => State_put_only (.refl _) h)) (.refl _ _)

theorem scanLanes_get {l : List Nat} {k : Nat} (h : ∀ i ∈ l, K.laneMode i ≠ k) : (scanLanes l s).get k = s.get k := by
  refine List.foldlRecOn l _ (motive := fun (u : State) => u.get k = s.get k) rfl (fun u hu i hi => ?_)
  split
  · exact hu
  · exact (get_put_ne (h i hi)).trans hu

theorem enterGecko_effects : (enterGecko s).pwr.gecko.since = s.dev.rtcFn ∧
    (enterGecko s).pwr.gecko.next = s.dev.rtcFn + 1024 * s.cfg s.fn K.geckoInterval ∧
    (∀ k, (∀ l < 32, K.laneMode l ≠ k) → (enterGecko s).get k = s.get k) := by
  unfold enterGecko
  extract_lets every s₁ p
  have only : Only 4 s s₁ := scanLanes_only (l := List.range 32)
  have get : ∀ k, (∀ l < 32, K.laneMode l ≠ k) → s₁.get k = s.get k := fun k h => scanLanes_get (l := List.range 32) (fun i hi => h i (List.mem_range.mp hi))
  clear_value s₁
  have dev : s₁.dev = s.dev := only.dev rfl
  exact ⟨congrArg Dev.rtcFn dev, congrArg (fun x => x.rtcFn + every) dev, get⟩

/-- The mode that follows the last gasp is entered. -/
theorem enterMode_effects {m : Mode} : (enterMode m s).mode = m ∧
    (∀ k, k ∉ [K.supSupplyStatus, K.rtcValid] → (∀ l < 32, K.laneMode l ≠ k) → (enterMode m s).get k = s.get k) ∧
    (m = .gecko → (enterMode m s).pwr.gecko.since = s.dev.rtcFn ∧ (enterMode m s).pwr.gecko.next = s.dev.rtcFn + 1024 * s.cfg s.fn K.geckoInterval) ∧
    (m = .off → (enterMode m s).get K.rtcValid = 0) := by
  unfold enterMode
  cases m with
  | gecko =>
    obtain ⟨since, next, get⟩ := enterGecko_effects (s := s.setMode .gecko)
    exact ⟨(enterGecko_only (.refl _) (.refl _ _)).mode rfl, fun k _ hl => get k hl, fun _ => ⟨since, next⟩, fun e => by cases e⟩
  | off =>
    have cleared : ∀ {v : State} {k : Nat}, k ∉ [K.supSupplyStatus, K.rtcValid] → (setRtcValid false v).get k = v.get k := fun {v k} hk => by
      simp only [List.mem_cons, List.not_mem_nil, or_false, not_or] at hk
      exact (supBit_get (Ne.symm hk.1)).trans (get_putV_ne (Ne.symm hk.2))
    exact ⟨(enterOff_only (.refl _) (.refl _ _)).mode rfl, fun k hk _ => cleared hk, (by intro e; cases e), fun _ => setRtcValid_clears.1⟩
  | run => exact ⟨rfl, fun _ _ _ => rfl, (by intro e; cases e), (by intro e; cases e)⟩
  | lastGasp => exact ⟨rfl, fun _ _ _ => rfl, (by intro e; cases e), (by intro e; cases e)⟩
  | sleep => exact ⟨rfl, fun _ _ _ => rfl, (by intro e; cases e), (by intro e; cases e)⟩
  | recovery => exact ⟨rfl, fun _ _ _ => rfl, (by intro e; cases e), (by intro e; cases e)⟩

end Sys2Proof.Machine
end

section
/-! PROOF. Starts and resets (R393, R402, R408, R409), the operational core (R30) and the resumption of billing (R193, R395). -/

namespace Sys2Proof.Machine

variable {s t u : State}

/-! ### A start (R408) -/

/-- The ROM decides for RUN or for ROM recovery. -/
theorem boot_mode {recover : Bool} : ((boot recover s).mode = .run ∨ (boot recover s).mode = .recovery) ∧
    (recover = true → (boot recover s).mode = .recovery) := by
  unfold boot
  extract_lets b s₁
  split
  next fine =>
    have ran : (opRevert b.1 (showImage s₁.fn b.1 (s₁.setMode .run))).mode = .run :=
      ((opRevert_only (.refl _) (.refl _ _)).mode rfl).trans ((showImage_only (.refl _) (.refl _ _)).mode rfl)
    refine ⟨.inl ran, fun strap => ?_⟩
    have two : b.2 = 2 := congrArg Prod.snd (if_pos strap)
    rw [two] at fine
    exact absurd fine (by decide)
  next =>
    have stays : (((s₁.setMode .recovery).bump K.recoveries).event 0x0708 [b.2]).mode = .recovery := (State_event_only (.refl _) (.refl _ _)).mode rfl
    exact ⟨.inr stays, fun _ => stays⟩

/-- What starts once the ROM has decided leaves the mode. -/
theorem startRun_mode {recover : Bool} : (startRun recover s).mode = (boot recover (startBill s.fn (carryCommits s.fn s))).mode := by
  unfold startRun
  extract_lets f s₁ s₂
  have ports : Only 34400765540 s₁ s₂ := showLoads_only ((Within.refl _).of rfl) (startPorts_only ((Within.refl _).of rfl)
    (startFront_only ((Within.refl _).of rfl) (damagedSlots_only ((Within.refl _).of rfl) (.refl _ _))))
  have shown : ∀ v, Only 34400765540 s₁ (noteStart f (startBand f ((showManifest 1 (showManifest 0 s₂)).putLive K.capState v))) := fun v =>
    noteStart_only ((Within.refl _).of rfl) (startBand_only ((Within.refl _).of rfl) (State_putLive_only ((Within.refl _).of rfl)
      (showManifest_only ((Within.refl _).of rfl) (showManifest_only ((Within.refl _).of rfl) ports))))
  exact (shown _).mode rfl

/-- A start from frame S: its mode, and the frame that is noted. -/
theorem startRun_effects {recover : Bool} : ((startRun recover s).mode = .run ∨ (startRun recover s).mode = .recovery) ∧
    (recover = true → (startRun recover s).mode = .recovery) ∧ (startRun recover s).pwr.startFn = (startRun recover s).fn ∧
    Only 34400806766 s (startRun recover s) := by
  have only := startRun_only (a0 := recover) (s := s) (.refl _) (.refl _ _)
  have noted : (startRun recover s).pwr.startFn = s.fn := rfl
  obtain ⟨modes, strap⟩ := boot_mode (s := startBill s.fn (carryCommits s.fn s)) (recover := recover)
  rw [noted, only.fn rfl, startRun_mode]
  exact ⟨modes, strap, rfl, only⟩

/-- What a cold start ends with keeps the mode and the noted frame. -/
theorem waiting_same {timed : Bool} : (eraseOut (upWaits timed u)).mode = u.mode ∧ (eraseOut (upWaits timed u)).fn = u.fn ∧
    (eraseOut (upWaits timed u)).pwr = (upWaits timed u).pwr := by
  have erased : Only 65536 (upWaits timed u) (eraseOut (upWaits timed u)) := eraseOut_only (.refl _) (.refl _ _)
  exact ⟨erased.mode rfl, erased.fn rfl, erased.pwr rfl⟩

/-- A cold start ends with the start from frame S. -/
theorem coldStart_ends {p : PowerGood} : ∃ v : State, coldStart p s = eraseOut (upWaits p.vholdLow (startRun p.recover v)) := by
  unfold coldStart
  extract_lets s₁ s₂ s₃
  exact ⟨s₃, Eq.refl _⟩

/-- A cold start: the recall, the time and the baselines come before the start itself. -/
theorem coldStart_effects {p : PowerGood} : ∀ t, t = coldStart p s → (t.mode = .run ∨ t.mode = .recovery) ∧ (p.recover = true → t.mode = .recovery) ∧
    t.pwr.startFn = t.fn ∧ t.pwr.upDue = true ∧ t.pwr.holdTimed = p.vholdLow := by
  obtain ⟨v, ends⟩ := coldStart_ends (p := p) (s := s)
  obtain ⟨modes, strap, noted, -⟩ := startRun_effects (s := v) (recover := p.recover)
  generalize startRun p.recover v = u at ends modes strap noted
  obtain ⟨mode, fn, pwr⟩ := waiting_same (u := u) (timed := p.vholdLow)
  intro t here
  have shape := here.trans ends
  rw [← shape] at mode fn pwr
  rw [mode, fn, pwr]
  exact ⟨modes, strap, noted, rfl, rfl⟩

/-! ### The warm reset (R409) -/

theorem warmTime_fn : (warmTime s).fn = max s.dev.rtcFn (s.fn + 1) := by
  unfold warmTime
  extract_lets f time s₁
  refine ((noteTime_only (.refl _) (.refl _ _)).fn rfl).trans ?_
  split
  · rfl
  · rfl

theorem checkGap_pwr {f : Nat} : (checkGap f s).pwr.startFn = s.pwr.startFn ∧ (checkGap f s).pwr.upDue = s.pwr.upDue := by
  unfold checkGap
  extract_lets long n p₀ p s₁
  have kept : p.startFn = s.pwr.startFn ∧ p.upDue = s.pwr.upDue := by
    show (if long s.pwr.gap = true then _ else s.pwr : Pwr).startFn = _ ∧ (if long s.pwr.gap = true then _ else s.pwr : Pwr).upDue = _
    split
    · exact ⟨rfl, rfl⟩
    · exact ⟨rfl, rfl⟩
  show (if long s.pwr.gapBase = true then _ else p : Pwr).startFn = _ ∧ (if long s.pwr.gapBase = true then _ else p : Pwr).upDue = _
  split
  · exact kept
  · exact kept

theorem trialOn_startFn {h : Option Handover} {cause : Nat} : (trialOn h cause s).pwr.startFn = s.pwr.startFn := by
  unfold trialOn
  split
  · split
    · exact (congrArg Pwr.startFn ((showImage_only (.refl _) (.refl _ _)).pwr rfl)).trans rfl
    · rfl
  · rfl

/-- What a warm reset clears before its start. -/
def warmed (s : State) : State := warmTime (warmClear (warmCut (flushLive (finishStore s))))

theorem warmCut_effects : (warmCut s).ready = false ∧ (warmCut s).dev.rtcFn = s.dev.rtcFn ∧ (warmCut s).fn = s.fn := ⟨rfl, rfl, rfl⟩

theorem warmed_effects : (warmed s).ready = false ∧ (warmed s).fn = max s.dev.rtcFn (s.fn + 1) := by
  unfold warmed
  have flushed : Only 66605555940 s (flushLive (finishStore s)) :=
    flushLive_only ((Within.refl _).of rfl) (finishStore_only ((Within.refl _).of rfl) (.refl _ _))
  obtain ⟨ready, rtc, fn⟩ := warmCut_effects (s := flushLive (finishStore s))
  have cleared : Only 164068 (warmCut (flushLive (finishStore s))) (warmClear (warmCut (flushLive (finishStore s)))) := warmClear_only (.refl _) (.refl _ _)
  refine ⟨((warmTime_only (.refl _) (.refl _ _)).ready rfl).trans ((cleared.ready rfl).trans ready), ?_⟩
  rw [warmTime_fn, cleared.dev rfl, cleared.fn rfl, rtc, fn, flushed.dev rfl, flushed.fn rfl]

/-- A warm reset: the mode, frame S, and READY. -/
theorem warmStart_effects {cause : Nat} {recover : Bool} : ∀ t, t = warmStart cause recover s → (t.mode = .run ∨ t.mode = .recovery) ∧
    (recover = true → t.mode = .recovery) ∧ t.fn = max s.dev.rtcFn (s.fn + 1) ∧ t.pwr.startFn = t.fn ∧ t.pwr.upDue = true ∧ t.ready = false := by
  intro t here
  subst here
  unfold warmStart
  extract_lets b s₁ s₂ h s₃ s₄
  obtain ⟨ready, fn⟩ := warmed_effects (s := s)
  obtain ⟨modes, strap, noted, only⟩ := startRun_effects (s := warmHand (decide (cause = 2)) s₂) (recover := recover)
  have before : Only 33587340 s₁ (warmHand (decide (cause = 2)) s₂) := warmHand_only ((Within.refl _).of rfl) (supBit_only ((Within.refl _).of rfl)
    (State_put_only ((Within.refl _).of rfl) (State_bump_only ((Within.refl _).of rfl) (.refl _ _))))
  have after : Only 139332 s₃ s₄ := trialOn_only ((Within.refl _).of rfl) (keepBill_only ((Within.refl _).of rfl) (.refl _ _))
  have started : s₃.fn = max s.dev.rtcFn (s.fn + 1) := (only.fn rfl).trans ((before.fn rfl).trans fn)
  have unready : s₃.ready = false := (only.ready rfl).trans ((before.ready rfl).trans ready)
  have start : s₄.pwr.startFn = s₃.pwr.startFn := trialOn_startFn
  have gap : Only 131076 (markUp s₄) (checkGap s₄.fn (markUp s₄)) := checkGap_only (.refl _) (.refl _ _)
  obtain ⟨gapStart, gapUp⟩ := checkGap_pwr (s := markUp s₄) (f := s₄.fn)
  have mode : (checkGap s₄.fn (markUp s₄)).mode = s₃.mode := (gap.mode rfl).trans (after.mode rfl)
  have fn4 : (checkGap s₄.fn (markUp s₄)).fn = s₃.fn := (gap.fn rfl).trans (after.fn rfl)
  rw [mode, fn4, gapStart, gapUp]
  exact ⟨modes, strap, started, start.trans noted, rfl, (gap.ready rfl).trans ((after.ready rfl).trans unready)⟩

/-! ### The end of the last gasp (R400) -/

/-- The pages that were sealed are counted as stores. -/
theorem lastGasp_steps {fitted n : Nat} {j : Journal} (mode : s.mode = .lastGasp) (done : s.pwr.done = false) (journal : s.pwr.journal = some j)
    (hn : n = min fitted (gaspPages j)) :
    exec (.lastGaspComplete fitted true) s = .next (gaspEnd j n .lastGasp true (s.bumpBy K.storeCount n)) ∧
    exec (.lastGaspComplete fitted false) s = .next (enterMode (modeAfter (s.bumpBy K.storeCount n))
      (gaspEnd j n (modeAfter (s.bumpBy K.storeCount n)) false (s.bumpBy K.storeCount n))) := by
  have steps : ∀ good, exec (.lastGaspComplete fitted good) s = execLastGaspComplete fitted good s := fun _ => rfl
  rw [steps, steps, hn]
  unfold execLastGaspComplete
  rw [if_pos ⟨mode, done⟩, if_pos ⟨mode, done⟩, journal]
  exact ⟨rfl, rfl⟩

/-- Counting stores leaves every setting of Gecko. -/
theorem modeAfter_bumpBy {n : Nat} : modeAfter (s.bumpBy K.storeCount n) = modeAfter s := by
  have cfg : ∀ {k : Nat}, K.storeCount ≠ k → (s.bumpBy K.storeCount n).cfg s.fn k = s.cfg s.fn k := fun hk => cfg_of_get (get_put_ne hk) rfl
  unfold modeAfter
  rw [show (s.bumpBy K.storeCount n).fn = s.fn from rfl, cfg (k := K.geckoEn) (by decide), cfg (k := K.geckoVbatMin) (by decide)]
  rfl

/-- What the end of the last gasp brings about where the power stays away. -/
theorem gaspOver_effects {j : Journal} {n : Nat} {m : Mode} :
    ∀ t, t = enterMode m (gaspEnd j n m false (s.bumpBy K.storeCount n)) → t.mode = m ∧ t.get K.lastGaspPages = n ∧ t.get K.supLastMode = m.num ∧
    (m = .gecko → t.pwr.gecko.since = s.dev.rtcFn ∧ t.pwr.gecko.next = s.dev.rtcFn + 1024 * s.cfg s.fn K.geckoInterval) ∧
    (m = .off → t.get K.rtcValid = 0) := by
  obtain ⟨-, -, pages, last, rest⟩ := gaspEnd_effects (s := s.bumpBy K.storeCount n) (j := j) (n := n) (m := m) (good := false)
  have ended : Only 131076 (s.bumpBy K.storeCount n) (gaspEnd j n m false (s.bumpBy K.storeCount n)) := gaspEnd_only (.refl _) (.refl _ _)
  have every : (gaspEnd j n m false (s.bumpBy K.storeCount n)).cfg s.fn K.geckoInterval = s.cfg s.fn K.geckoInterval :=
    cfg_of_get ((rest _ (by decide)).trans (get_put_ne (by decide))) (ended.commits rfl)
  have fn : (gaspEnd j n m false (s.bumpBy K.storeCount n)).fn = s.fn := ended.fn rfl
  have dev : (gaspEnd j n m false (s.bumpBy K.storeCount n)).dev = s.dev := ended.dev rfl
  generalize gaspEnd j n m false (s.bumpBy K.storeCount n) = u at pages last every fn dev
  obtain ⟨mode, get, gecko, off⟩ := enterMode_effects (s := u) (m := m)
  intro t here
  rw [← here] at mode get gecko off
  rw [fn, dev, every] at gecko
  exact ⟨mode, (get _ (by decide) (by decide)).trans pages, (get _ (by decide) (by decide)).trans last, gecko, off⟩

/-! ### The operational core (R30) -/

/-- The host journal is restored without a change to what waits for the core. -/
theorem hostJournal_pwr : (hostJournal s).pwr.late = s.pwr.late ∧ (hostJournal s).pwr.upDue = s.pwr.upDue := by
  unfold hostJournal
  split
  · split
    · exact ⟨rfl, rfl⟩
    · exact ⟨rfl, rfl⟩
  · exact ⟨rfl, rfl⟩

/-- Deferred events are logged, the host journal and the captures are restored. -/
def caughtUp (s : State) : State :=
  let v := hostJournal ((sortEvents s.pwr.late ++ powerUpEvent s).foldl (fun s e => logLate e s) { s with pwr := { s.pwr with late := [], upDue := false } })
  (capturesOf v).foldl (fun s c => closeCapture c s) v

theorem caughtUp_pwr : (caughtUp s).pwr.late = [] ∧ (caughtUp s).pwr.upDue = false := by
  unfold caughtUp
  extract_lets p v
  obtain ⟨late, up⟩ : v.pwr.late = [] ∧ v.pwr.upDue = false := by
    have logged : ∀ (l : List Event) (u : State), Only 589828 u (l.foldl (fun s e => logLate e s) u) := fun l u =>
      .foldl (fun _ _ h => logLate_only (.refl _) h) (.refl _ _)
    have pwr := (logged (sortEvents s.pwr.late ++ powerUpEvent s) { s with pwr := { s.pwr with late := [], upDue := false } }).pwr rfl
    obtain ⟨late, up⟩ := hostJournal_pwr
      (s := (sortEvents s.pwr.late ++ powerUpEvent s).foldl (fun s e => logLate e s) { s with pwr := { s.pwr with late := [], upDue := false } })
    exact ⟨late.trans (congrArg Pwr.late pwr), up.trans (congrArg Pwr.upDue pwr)⟩
  have closed : Only 69632 v ((capturesOf v).foldl (fun s c => closeCapture c s) v) := .foldl (fun _ _ h => closeCapture_only (.refl _) h) (.refl _ _)
  rw [closed.pwr rfl]
  exact ⟨late, up⟩

/-- READY is 1, and BOOT is raised. -/
def coreUp (up : Bool) (s : State) : State := if up then legacyEvent 8 (setCause 7 { s with ready := true }) else setCause 7 { s with ready := true }

theorem coreUp_effects {up : Bool} : (coreUp up s).ready = true ∧ bit (coreUp up s).spi.causes 7 = true ∧ (coreUp up s).pwr = s.pwr := by
  have boot : bit (setCause 7 { s with ready := true }).spi.causes 7 = true := bit_setCause_self
  have word : Only 524288 (setCause 7 { s with ready := true }) (legacyEvent 8 (setCause 7 { s with ready := true })) := legacyEvent_only (.refl _) (.refl _ _)
  unfold coreUp
  split
  · exact ⟨word.ready rfl, bit_legacyEvent boot, word.pwr rfl⟩
  · exact ⟨rfl, boot, rfl⟩

theorem operationalCoreReady_step (run : s.mode = .run) (unready : s.ready = false) (shown : s.current ≠ none) :
    exec .operationalCoreReady s = .next (coreUp s.pwr.upDue (caughtUp s)) := congrArg _ (if_pos ⟨run, unready, shown⟩)

/-! ### The resumption of billing (R193, R395) -/

/-- The journal's events are restored without a change to the noted frame S. -/
theorem replayTail_startFn {j : Journal} : (replayTail j s).pwr.startFn = s.pwr.startFn := by
  unfold replayTail
  extract_lets top new seqs s₁ s₂ p
  have pushed : Only 65540 s s₁ := .foldl (fun _ _ h => tkPush_only ((Within.refl _).of rfl) (setTk_only ((Within.refl _).of rfl) h)) (.refl _ _)
  have shown : Only 65540 s s₂ := showLogs_only ((Within.refl _).of rfl) pushed
  have kept : s₂.pwr.startFn = s.pwr.startFn := congrArg Pwr.startFn (shown.pwr rfl)
  split
  · exact kept
  · exact (congrArg Pwr.startFn ((State_event_only (.refl _) (.refl _ _)).pwr rfl)).trans kept

/-- What a journal of a running stop restores. -/
def replayRunning (f : Nat) (x : Journal) (s : State) : State :=
  let s := x.ccts.foldl (fun s b => replayCct f x b s) (replayTail x { s with bill := { s.bill with bound := x.bound } })
  let s := (s.bump K.replays).event 0x0601 [x.pfwFn, x.sealed, x.ccts.foldl (fun m b => max m b.j) 0]
  if x.sealed < x.pages then journalShort x s else s

theorem replayRunning_startFn {f : Nat} {x : Journal} : (replayRunning f x s).pwr.startFn = s.pwr.startFn := by
  unfold replayRunning
  extract_lets b s₁ s₂
  have tail : (replayTail x { s with bill := { s.bill with bound := x.bound } }).pwr.startFn = s.pwr.startFn := replayTail_startFn
  have rest : Only 33562692 (replayTail x { s with bill := { s.bill with bound := x.bound } }) (if x.sealed < x.pages then journalShort x s₂ else s₂) := by
    have counted : Only 33562692 (replayTail x { s with bill := { s.bill with bound := x.bound } }) s₂ :=
      State_event_only ((Within.refl _).of rfl) (State_bump_only ((Within.refl _).of rfl)
        (.foldl (fun _ _ h => replayCct_only ((Within.refl _).of rfl) h) (.refl _ _)))
    exact .ite (fun _ => journalShort_only ((Within.refl _).of rfl) counted) (fun _ => counted)
  exact (congrArg Pwr.startFn (rest.pwr rfl)).trans tail

/-- The replay of the journal leaves the noted frame S. -/
theorem replayOnce_startFn {f : Nat} : (replayOnce f s).pwr.startFn = s.pwr.startFn := by
  unfold replayOnce
  split
  · rfl
  unfold replayJournal
  extract_lets j cs s₁ b s₂ again s₃ p
  have recalled : Only 8260 s s₁ := .foldl (fun _ _ h => redoClose_only ((Within.refl _).of rfl) (recallCct_only ((Within.refl _).of rfl) h)) (.refl _ _)
  have first : s₁.pwr.startFn = s.pwr.startFn := congrArg Pwr.startFn (recalled.pwr rfl)
  clear_value s₁
  have second : s₂.pwr.startFn = s.pwr.startFn := by
    refine Eq.trans ?_ first
    clear_value j
    cases j with
    | none =>
      show (match s₁.pwr.journal with | some x => journalShort { x with sealed := 0 } s₁ | none => s₁).pwr.startFn = _
      cases s₁.pwr.journal with
      | none => rfl
      | some x => exact congrArg Pwr.startFn ((journalShort_only (.refl _) (.refl _ _)).pwr rfl)
    | some x =>
      refine Eq.trans (b := (if x.running then replayRunning f x s₁ else s₁).pwr.startFn) rfl ?_
      split
      · exact replayRunning_startFn
      · rfl
  have third : Only 33562692 s₂ s₃ := .foldl (fun _ _ h => unitBack__only ((Within.refl _).of rfl)
    (.ite (fun _ => totalsBack_only ((Within.refl _).of rfl) h) (fun _ => h))) (.refl _ _)
  have marked : Only 8192 { s₃ with pwr := { s₃.pwr with replayed := true } } (rebuildHist { s₃ with pwr := { s₃.pwr with replayed := true } }) :=
    rebuildHist_only (.refl _) (.refl _ _)
  exact (congrArg Pwr.startFn (marked.pwr rfl)).trans ((congrArg Pwr.startFn (third.pwr rfl)).trans second)

/-- The frame from which billing resumes: the first one after the start that the Tannery has not computed yet. -/
def resumeFrame (f0 : Nat) (s : State) : Nat := max (f0 + 2) (match s.tan.baseFn with | some b => b + 1 | none => f0 + 2)

theorem billingResume_step {f0 : Nat} (run : s.mode = .run) (stopped : s.bill.g = none) (hold : bit (s.get K.supSupplyStatus) 7 = true)
    (first : s.acq.first = some f0) : exec .billingResume s = .next (resumeAt (resumeFrame f0 s) s) := by
  show execBillingResume s = _
  unfold execBillingResume
  rw [if_pos ⟨decide_eq_true run, stopped, hold⟩, first]
  rfl

theorem billingResume_idle (idle : s.mode ≠ .run ∨ s.bill.g ≠ none ∨ bit (s.get K.supSupplyStatus) 7 = false ∨ s.acq.first = none) :
    exec .billingResume s = .next s := by
  show execBillingResume s = _
  unfold execBillingResume
  split
  next goes =>
    obtain ⟨run, stopped, hold⟩ := goes
    have none : s.acq.first = none := by
      obtain h | h | h | h := idle
      · exact absurd (of_decide_eq_true run) h
      · exact absurd stopped h
      · exact absurd (h.symm.trans hold) Bool.false_ne_true
      · exact h
    rw [none]
  next => rfl

theorem resumeAt_effects {g : Nat} : (resumeAt g s).bill.g = some g ∧
    (resumeAt g s).get K.supStartMs = min 65535 (6 + (g - s.pwr.startFn) * 1000 / 1024) := by
  unfold resumeAt
  extract_lets s₁ s₂
  have replayed : (replayOnce (g - 1) (setNext g s)).pwr.startFn = s.pwr.startFn := replayOnce_startFn
  have done : Only 66605555908 (replayOnce (g - 1) (setNext g s)) s₂ := showCalendar_only ((Within.refl _).of rfl) (resumeBounds_only ((Within.refl _).of rfl)
    (startCauses_only ((Within.refl _).of rfl) (redoSteps_only ((Within.refl _).of rfl) (.refl _ _))))
  have noted : s₂.pwr.startFn = s.pwr.startFn := (congrArg Pwr.startFn (done.pwr rfl)).trans replayed
  clear_value s₂
  rw [noted]
  exact ⟨rfl, get_put_self⟩

/-! ### The obligation -/

/-- Settles O60, a clause for each command: what its state changes bring about goes with the frame of the command, and where its condition
fails the state stays. -/
theorem startsAndStops : Obligations.StartsAndStops := by
  unfold Obligations.StartsAndStops
  refine ⟨fun us vld vdd33 s => ⟨fun mode => ?_, fun run recovery => ?_⟩, fun fitted n j s _ mode done journal hn => ?_, fun n p s idle => ?_,
    fun p s => ⟨fun down => ?_, fun up => ?_⟩, fun wd recover s => ⟨fun mode => ?_, fun run recovery => ?_⟩,
    fun s => ⟨fun run unready shown => ?_, fun idle => ?_⟩, fun s => ⟨fun f0 g _ run stopped hold first hg => ?_, fun idle => ?_⟩⟩
  · have step : exec (.powerFailWarning us vld vdd33) s = .next (startGasp us vld vdd33 s) := congrArg _ (if_pos mode)
    obtain ⟨j, effects⟩ := startGasp_effects _ (Eq.refl (startGasp us vld vdd33 s))
    exact ⟨_, j, step, exec_frame step, effects⟩
  · exact congrArg _ (if_neg (not_or.mpr ⟨run, recovery⟩))
  · obtain ⟨waits, ends⟩ := lastGasp_steps mode done journal hn
    rw [modeAfter_bumpBy] at ends
    obtain ⟨stays, gone, pages, last, -⟩ := gaspEnd_effects (s := s.bumpBy K.storeCount n) (j := j) (n := n) (m := .lastGasp) (good := true)
    obtain ⟨next, pages', last', gecko, off⟩ := gaspOver_effects (s := s) (j := j) (n := n) (m := modeAfter s) _ rfl
    exact ⟨⟨_, waits, exec_frame waits, stays.trans mode, gone, pages, last⟩, ⟨_, ends, exec_frame ends, next, pages', last', gecko, off⟩⟩
  · have stays : ¬(s.mode = .lastGasp ∧ s.pwr.done = false) := fun ⟨mode, done⟩ =>
      idle.elim (fun h => h mode) (fun h => Bool.false_ne_true (done.symm.trans h))
    exact congrArg _ (if_neg stays)
  · have step : exec (.powerGood p) s = .next (coldStart p (if s.mode = .gecko then geckoExit 0 s else s)) := by
      show execPowerGood p s = _
      unfold execPowerGood
      rw [if_pos down]
    exact ⟨_, step, exec_frame step, coldStart_effects _ (Eq.refl _)⟩
  · have stays : ¬(s.mode = .off ∨ s.mode = .sleep ∨ s.mode = .gecko ∨ (s.mode = .lastGasp ∧ s.pwr.done = true)) := by
      obtain mode | mode | ⟨mode, done⟩ := up
      · simp [mode]
      · simp [mode]
      · simp [mode, done]
    exact congrArg _ (if_neg stays)
  · have step : exec (.warmReset wd recover) s = .next (warmStart (if wd then 2 else 1) recover s) := congrArg _ (if_pos mode)
    exact ⟨_, step, exec_frame step, warmStart_effects _ (Eq.refl _)⟩
  · exact congrArg _ (if_neg (not_or.mpr ⟨run, recovery⟩))
  · have step := operationalCoreReady_step run unready shown
    obtain ⟨late, up⟩ := caughtUp_pwr (s := s)
    obtain ⟨ready, boot, pwr⟩ := coreUp_effects (s := caughtUp s) (up := s.pwr.upDue)
    exact ⟨_, step, exec_frame step, ready, boot, (congrArg Pwr.late pwr).trans late, (congrArg Pwr.upDue pwr).trans up⟩
  · have stays : ¬(s.mode = .run ∧ s.ready = false ∧ s.current ≠ none) := by
      rintro ⟨run, unready, shown⟩
      obtain h | h | h := idle
      · exact h run
      · exact Bool.false_ne_true (unready.symm.trans h)
      · exact shown h
    exact congrArg _ (if_neg stays)
  · have step : exec .billingResume s = .next (resumeAt g s) := by
      rw [hg]
      exact billingResume_step run stopped hold first
    obtain ⟨runs, time⟩ := resumeAt_effects (s := s) (g := g)
    exact ⟨_, step, exec_frame step, runs, time⟩
  · exact billingResume_idle idle

end Sys2Proof.Machine
end
